-- ==== Sys2Proof/Word.lean ====
section
/-!
DEFINITION. The words the manual treats as bits, and the one sparse container the state uses.
A register holds at most 64 bits a word (R133, R546); memory is addressed in bytes (R17, R298).
-/
namespace Sys2Proof

/-- One byte of memory or of a structure (R17). -/
abbrev Byte := BitVec 8

/-- A 32-bit register or field. -/
abbrev Word := BitVec 32

/-- A 64-bit register; a 32-bit register stands in its low half. -/
abbrev DWord := BitVec 64

/-- Sparse plain data by key: keys strictly rising, so that equal contents are equal lists. -/
abbrev SMap (α : Type) := List (Nat × α)

/-- Memory as the host's cells: (address, byte) pairs (R298). -/
abbrev Mem := SMap Byte

end Sys2Proof
end

