-- ==== Sys2Proof/Syntax.lean ====
section
/-!
DEFINITION. The commands of the device's table of operations and events, and what the world outside supplies with them.
Where a row's outcome depends on something the device does not decide (bit errors met, samples of a sensor, what other
devices contribute, how a start step ends), the command carries it as an operand.
-/
namespace Sys2Proof

/-- Who makes an access: an owner kind and index of R271, and the operation slot it works for, if any. -/
structure Sender where
  kind : Nat
  index : Nat
  op : Option Nat
  deriving DecidableEq, Repr

/-- Errors that an access meets: the device address of a byte (banks), sector (HBM) or line (DDR), and how many bits of the
byte, symbols of the sector, or devices of the line are in error. For a line, 1 is a correction within a device, 2 a whole
device corrected, 3 more than one device. Two more kinds of entry lie above every device address: at 2^52 + 512 × bank + g, bits
in error in the valid bits of the bank's g-th group of 8 lines (R285); at 2^53 + stack, corrections that the stack's on-die ECC
reports (R300). -/
abbrev Upsets := List (Nat × Nat)

/-- What an A64 row add carries besides its elements: their tile exponent and what goes into the target's header (R159). -/
structure RowInfo where
  et : Int
  ovf : Bool
  nv : Bool
  bound : Bool
  retries : Nat
  lost : Nat
  deriving DecidableEq, Repr

/-- What another member of the cast contributes to the collectives of a load: its coordinate, its seed check (R210), its 16
bytes of R426 and of R427, and the step it restored (R438). -/
structure Peer where
  coord : Nat
  seed : Nat
  prot : List Byte
  place : List Byte
  restored : Nat
  deriving DecidableEq, Repr

/-- What the other members bring to an interval stop: the largest parity list of the group's line, in 2 MiB units (R422), and the numbers of
this device's items whose bases their holder has lost since the last interval (R313, R434; DEDUCED, log entry 134). -/
structure IntervalPeers where
  lmax : Nat
  lost : List Nat
  deriving DecidableEq, Repr

/-- What another member of the cast contributes to the curtain (R251, R407): its coordinate, its local S as an F32 code (R576), its
NF_LOSS and SAT counts, and its PENDING and FAILED of the protection vote. -/
structure CurtainPeer where
  coord : Nat
  s : Nat
  nfLoss : Nat
  sat : Nat
  pending : Nat
  failed : Nat
  deriving DecidableEq, Repr

/-- What an engine meets while a pass runs, which the device does not decide (R120, R130, R131, R146). -/
structure PassMeet where
  /-- What failing rows of the array make of the sums: element of the tile, amount. -/
  wrong : List (Nat × Int)
  /-- Times a band found its edge link empty, and times stage 7 found a drain lane full. -/
  feedWaits : Nat
  drainWaits : Nat
  /-- The set meets an uncorrectable error. -/
  setBad : Bool
  deriving DecidableEq, Repr

/-- Which of an engine's two accumulator sets a drain reads, and whether it meets an uncorrectable error in it (R140, R146). -/
structure SetRead where
  k : Nat
  bad : Bool
  deriving DecidableEq, Repr

/-- What HBM patrol scrub meets: the sector's wrong symbols, and by address the errors of the row's other sectors, which a remap's
copy meets, with the corrections that the stack reports (R300, R305, R308). -/
structure SectorRead where
  wrong : Nat
  ups : Upsets
  deriving DecidableEq, Repr

/-- What one run of the start steps meets that the device does not decide (R505 to R511). -/
structure StartMeet where
  /-- The step that does not end by itself. -/
  hang : Option Nat
  /-- Faults that fail a step: step, event code, unit. -/
  faults : List (Nat × Nat × Nat)
  /-- The CXL link that trains: lanes, speed code, CXL mode. -/
  width : Nat
  speed : Nat
  cxl : Bool
  /-- Stacks that fail training in the form they use; rows repaired, as stack, pseudo channel, row. -/
  stacksBad : List Nat
  repaired : List (Nat × Nat × Nat)
  /-- DIMM capacity of each channel in units of 16 GiB, 0 for an empty one; channels that fail training in the form they use;
  rows repaired. -/
  dimms : List Nat
  channelsBad : List Nat
  ddrRepaired : List Nat
  /-- Faulty words of banks, as bank and word; banks beyond repair. -/
  words : List (Nat × Nat)
  banksBad : List Nat
  /-- Physical rows that fail the array self-test, by engine, spares (256 to 259) included; engines with a fault in a promotion stage;
  engines that fail their test. -/
  rows : List (Nat × List Nat)
  stagesBad : List Nat
  enginesBad : List Nat
  /-- Ports whose loopback test fails. -/
  portsBad : List Nat
  deriving DecidableEq, Repr

/-- What a start meets: one entry for each run of the steps, self-restarts included. -/
abbrev StartReport := List StartMeet

/-- How a security mailbox request arrives (R521): through the SEC block, whose buffer holds it; as a DOE object; or as a SECURITY
command of the management path with its REQ_TAG. -/
inductive Path where
  | mailbox
  | doe (req : List Byte)
  | mctp (tag : Nat) (req : List Byte)
  deriving DecidableEq, Repr

/-- How a unit request arrives (R538): by UNIT_CMD, or by UNIT_REQUEST with its REQ_TAG. -/
inductive Via where
  | host
  | mctp (tag : Nat)
  deriving DecidableEq, Repr


/-- The commands the device takes: one constructor per row of the table of operations and events. -/
inductive Instr where
  /-- Release of PERST_N with PWR_GOOD and STBY_OK asserted begins a start that runs steps S0 to S12 in order. (R505) -/
  | perstNRelease (rep : StartReport)
  /-- A start step exceeds its bound and fails with OUTCOME 0x07. (R505) -/
  | startWatchdogExpiry (stepNo : Nat) (unit : Nat) (rep : StartReport)
  /-- Assertion of PERST_N resets the whole device. (R476) -/
  | perstNAssert
  /-- A link down or hot reset on the upstream port resets the whole device. (R476) -/
  | cxlLinkDown (rep : StartReport)
  /-- PWR_GOOD is deasserted while PERST_N is released; the device idles its lanes and holds itself in reset. (R530) -/
  | pwrGoodLoss
  /-- The installation asserts PWR_GOOD; it is ignored until STBY_OK has been asserted for 10 ms. (R552) -/
  | pwrGoodAssert
  /-- STBY_OK is asserted and the management controller starts on standby power. (R552) -/
  | stbyOkAssert
  /-- VIN falls below 36 V and the power stages remove every rail within 20 µs. (R550) -/
  | undervoltageLockout
  /-- VSB falls below 3.0 V and the device holds itself in reset at once. (R553) -/
  | vsbLow
  /-- The CXL reference clock stops; the timers keep their last calibration and an event is recorded. (R5) -/
  | refclkLost
  /-- The reference clock returns and timer recalibration resumes. (R4) -/
  | refclkReturn
  /-- FCLK has no edges for 10 µs and the device declares itself failed. (R554) -/
  | fclkLost
  /-- SLOT_ID changes after it was latched; the change is ignored and one event is recorded. (R530) -/
  | slotIdChanged (slot : Nat)
  /-- Every 10 local ms every delay-line timer is recalibrated against the reference clock. (R4) -/
  | timerRecalibration
  /-- A write of CUE_TAIL to a doorbell slot is applied under R237, or discarded, or stops the queue. (R484) -/
  | doorbellCueTail (queue : Nat) (tail : Nat)
  /-- A write of CPL_HEAD consumes completion records, or stops the queue if it is invalid. (R485) -/
  | doorbellCplHead (queue : Nat) (head : Nat)
  /-- The stage manager serves the doorbell tree and fetches up to 16 cues from a queue. (R238) -/
  | cueFetch
  /-- A cue issues once its dependencies, fence, operation slot and phase order allow it. (R240) -/
  | cueIssue (id : Nat)
  /-- A cue completes when every output it writes has been acknowledged. (R240) -/
  | cueComplete (op : Nat)
  /-- A completion record is written to a queue's completion ring when room allows. (R485) -/
  | completionRecordWrite (queue : Nat)
  /-- At the end of an INT_GAP, a vector with newly visible records is signalled. (R488) -/
  | msixMessage (vector : Nat)
  /-- Unmasking a vector whose PBA bit is set sends its message. (R488) -/
  | msixUnmask (vector : Nat)
  /-- A register access of the wrong width or alignment reads zero or is discarded, and is reported with suppression.
      (R479) -/
  | badAccess (offset : Nat) (width : Nat) (write : Bool) (newPeriod : Bool)
  /-- A host CXL.mem access through an HDM decoder is served, poisoned or discarded. (R480) -/
  | hostMemAccess (hpa : Nat) (len : Nat) (write : Bool) (bytes : List Byte) (ups : Upsets)
  /-- The host commits an HDM decoder; an interleave other than one way fails and a committed decoder locks. (R480) -/
  | hdmDecoderCommit (decoder : Nat) (base : Nat) (size : Nat) (ways : Nat)
  /-- A request for D3hot is accepted only while every job slot is IDLE. (R474) -/
  | d3hotRequest
  /-- An ATS invalidation request is completed within 100 local µs. (R474) -/
  | atsInvalidation (page : Nat)
  /-- A DOE discovery object is answered. (R489) -/
  | doeDiscovery (index : Nat)
  /-- A CXL table access request returns the read-only CDAT. (R490) -/
  | cdatRead (entry : Nat)
  /-- A DOE Abort discards the request in progress within 10 local ms. (R489) -/
  | doeAbort
  /-- An IDE stream detects an integrity failure and enters the insecure state, refusing host traffic. (R491) -/
  | ideIntegrityFailure
  /-- A far-tier request completes with an error or poison, with effects that depend on its use. (R324) -/
  | farRequestError (addr : Nat) (use : Nat) (who : Nat)
  /-- A far-tier request does not complete within FAR_TIMEOUT and returns TIMEOUT. (R324) -/
  | farRequestTimeout (addr : Nat) (use : Nat) (who : Nat)
  /-- A PRODUCT cue computes its output tiles, each whole on one engine. (R168) -/
  | product (op : Nat) (engines : List Nat)
  /-- A FILL cue with a RAW draw descriptor writes one cipher block per element. (R221) -/
  | fillRaw (op : Nat) (engine : Nat)
  /-- A FILL cue with a BERNOULLI descriptor writes packed bits with P(1) = KEEP/2^16. (R221) -/
  | fillBernoulli (op : Nat) (engine : Nat)
  /-- A FILL cue with a NORMAL descriptor writes normal variates by table interpolation. (R222) -/
  | fillNormal (op : Nat) (engine : Nat)
  /-- A FILL cue with a CATEGORICAL descriptor writes one Gumbel-max column index per row. (R223) -/
  | fillCategorical (op : Nat) (engine : Nat)
  /-- A MOVE cue converts COUNT elements from SRC to DST under the conversion matrix. (R60) -/
  | move (op : Nat) (mover : Nat)
  /-- An exact I32 all-reduce runs its reduce and gather rounds over the group axes. (R387) -/
  | collectiveAllreduce (op : Nat) (exps : List Int)
  /-- The root's input is broadcast along X, then Y, then Z. (R394) -/
  | collectiveBroadcast (op : Nat)
  /-- An elementwise signed maximum of I32 inputs runs over the group. (R394) -/
  | collectiveMax (op : Nat)
  /-- Each member's entry is gathered to every member in rank order. (R394) -/
  | collectiveDigest (op : Nat)
  /-- The contributions of a run of members are XORed in flight toward the target. (R395) -/
  | collectiveXor (op : Nat)
  /-- A micro-batch slice is sent to an adjacent peer as SEND messages on VC 0. (R383) -/
  | collectiveSend (op : Nat)
  /-- A RECV cue accepts the SENDs for its micro-batch into a slot and completes when BYTES have arrived. (R384) -/
  | collectiveRecv (op : Nat)
  /-- An UPDATE cue applies AdamW to a K40 master and writes its state, working copy, history and digest. (R255) -/
  | updateAdamw (op : Nat) (unit : Nat)
  /-- An UPDATE cue applies SGD with momentum to a K40 master. (R255) -/
  | updateSgd (op : Nat) (unit : Nat)
  /-- An UPDATE cue in a replay job applies the Cyley F32 AdamW. (R202) -/
  | updateCyleyAdamw (op : Nat) (unit : Nat)
  /-- A DATA cue lends a shard buffer from which samples are taken in order. (R248) -/
  | data (op : Nat)
  /-- A JOIN cue completes when its dependencies have completed. (R240) -/
  | join (op : Nat)
  /-- A LOSS cue checks a loss tensor for non-finite elements for the curtain vector. (R251) -/
  | loss (op : Nat)
  /-- A METRIC cue writes a tensor to the far tier through the outbound buffer, released at COMMIT. (R252) -/
  | metric (op : Nat)
  /-- A job package is validated, checked across the cast and loaded into an IDLE slot. (R245) -/
  | jobLoad (op : Nat) (peers : List Peer)
  /-- A loaded or stopped job starts, beginning with a full interval and a barrier. (R410) -/
  | jobStart (op : Nat)
  /-- A running job stops at a step boundary, or at once with IMMEDIATE. (R267) -/
  | jobStop (op : Nat)
  /-- A job that is not running is unloaded from its slot. (R267) -/
  | jobUnload (op : Nat)
  /-- A RECIPE cue replaces one recipe entry from the next attempt, or is rejected. (R247) -/
  | recipe (op : Nat)
  /-- A PARAM cue replaces one F32 word of an update descriptor, within range. (R253) -/
  | param (op : Nat)
  /-- A MATINEE cue changes the slice size at the next attempt open and can rebuild the matinee working copy. (R262) -/
  | matinee (op : Nat)
  /-- The run-ahead cues are completed ABANDONED and their outputs discarded, without abandoning the current attempt.
      (R260) -/
  | cancelAhead (op : Nat)
  /-- A new attempt opens with its epoch, pending changes, exponents, sample plan and ZERO writes. (R249) -/
  | attemptOpen (slot : Nat)
  /-- Work that needs K_A of another epoch waits while the key is derived and loaded into every core. (R209) -/
  | rotationKeyLoad (epoch : Nat)
  /-- Every cue of a micro-batch has completed and pending raises take effect. (R188) -/
  | microBatchBoundary (slot : Nat) (mb : Nat)
  /-- The curtain reduction completes and the curtain passes or fails for the whole cast. (R251) -/
  | curtain (slot : Nat) (peers : List CurtainPeer)
  /-- MAX_ATTEMPTS consecutive abandoned attempts of a step send the job to STOPPED. (R249) -/
  | maxAttemptsReached (slot : Nat)
  /-- After every UPDATE cue completes, the step counter advances, the cursor moves and the outbound buffer is
      released. (R252) -/
  | commit (slot : Nat)
  /-- DEFER_RUN reaches DEFER_MAX and the interval is forced behind a drain barrier. (R409) -/
  | forcedInterval (slot : Nat) (pending : Nat) (failed : Nat)
  /-- The device quiesces and copies its protected items into a snapshot slot. (R411) -/
  | intervalStop (slot : Nat) (peers : IntervalPeers)
  /-- The copy ends, the prompt book is written and the slot is sealed. (R411) -/
  | snapshotSeal (slot : Nat)
  /-- Mirror, parity and digests of slot S are done. (R419) -/
  | drainComplete (slot : Nat)
  /-- Uncorrectable data in slot S gives up its drain, to be voted FAILED. (R434) -/
  | drainGivenUp (slot : Nat)
  /-- The far tier acknowledges the book object and EXPORT_STEP takes P. (R437) -/
  | exportComplete (slot : Nat)
  /-- A matinee rebuild stopped by an interval restarts from its beginning after the interval. (R264) -/
  | matineeRebuildRestart (slot : Nat)
  /-- A pass starts streaming into the array when the start rule and the stationary load allow. (R120) -/
  | passStart (engine : Nat) (set : Nat) (meet : PassMeet)
  /-- A completed accumulator set passes through the finishing stage to memory row by row. (R145) -/
  | tileDrain (engine : Nat) (set : SetRead)
  /-- In a small cast, the set is drained again to the fall-back copy once the tile's counts are final. (R187) -/
  | secondDrain (engine : Nat) (set : SetRead)
  /-- An A64 overflow in a set starts the retry sequence at a larger Et, or saturates. (R147) -/
  | a64Overflow (engine : Nat) (set : Nat)
  /-- The progress watchdog fires; the engine is marked FAILED and its tiles rerun on the spare. (R124) -/
  | engineWatchdog (engine : Nat)
  /-- A write of CAPTURE captures the selected cell's A20 output while the engine is in TEST. (R132) -/
  | testCapture (engine : Nat)
  /-- The helper issues the fault-check run of a held tile on a check engine. (R175) -/
  | faultCheckRun (tile : Nat) (engine : Nat)
  /-- Two runs' A64 sets, headers and finishing outputs are compared. (R176) -/
  | faultCheckCompare (tile : Nat)
  /-- The third run decides which engine is faulty, or that the fault is unresolved. (R177) -/
  | faultVerdict (tile : Nat)
  /-- The rung-up run is compared with the narrow result against F times the bound. (R179) -/
  | damageCheck (tile : Nat)
  /-- SILENT_STEPS reaches SILENCE_STEPS, SILENT is set and one event is recorded. (R198) -/
  | silenceReached (slot : Nat) (tensor : Nat)
  /-- A port accepts a line read and returns it after 6 beats, corrected. (R269) -/
  | bankRead (who : Sender) (addr : Nat) (len : Nat) (ups : Upsets)
  /-- A port accepts a masked line write. (R269) -/
  | bankWrite (who : Sender) (line : Nat) (cells : List (Nat × Byte))
  /-- Atomic 32-bit add modulo 2^32. (R278) -/
  | addW32 (who : Sender) (addr : Nat) (v : Nat) (want : Bool) (ups : Upsets)
  /-- Atomic 64-bit add modulo 2^64. (R278) -/
  | addW64 (who : Sender) (addr : Nat) (v : Nat) (want : Bool) (ups : Upsets)
  /-- Atomic saturating I32 add. (R278) -/
  | addI32 (who : Sender) (addr : Nat) (v : Nat) (ups : Upsets)
  /-- Atomic saturating A64 element or row add with tile header merge. (R159) -/
  | addA64 (who : Sender) (hdr : Option Nat) (addr : Nat) (info : RowInfo) (elems : List Int) (ups : Upsets)
  /-- Atomic F32 add by RNE, which marks the job non-reproducible. (R278) -/
  | addF32 (who : Sender) (addr : Nat) (v : Nat) (ups : Upsets)
  /-- Atomic 32-bit swap returning the old value. (R278) -/
  | swap32 (who : Sender) (addr : Nat) (v : Nat) (ups : Upsets)
  /-- Atomic 64-bit swap returning the old value. (R278) -/
  | swap64 (who : Sender) (addr : Nat) (v : Nat) (ups : Upsets)
  /-- Writing NEW_KIND and NEW_INDEX starts an owner handover. (R274) -/
  | bankOwnerWrite (bank : Nat) (port : Nat) (kind : Nat) (index : Nat)
  /-- The old owner's accepted requests complete and the new owner takes the port. (R274) -/
  | handoverComplete (bank : Nat) (port : Nat)
  /-- A POWER_REQ write requests ON, RETENTION or OFF for a bank. (R277) -/
  | bankPowerRequest (bank : Nat) (req : Nat)
  /-- The bank enters RETENTION or OFF once its accepted requests have completed. (R277) -/
  | bankPowerStateEntry (bank : Nat)
  /-- Patrol scrub reads bank words, feeding corrections and remaps. (R290) -/
  | bankPatrolScrub (bank : Nat) (ups : Upsets)
  /-- At a step boundary, an engine with a degraded bank is moved to the spare. (R288) -/
  | degradedEngineMove (engine : Nat)
  /-- An HBM sector access is decoded and served under the sector code. (R302) -/
  | hbmAccess (who : Sender) (addr : Nat) (len : Nat) (write : Bool) (bytes : List Byte) (ups : Upsets) (die : Nat)
  /-- HBM patrol scrub reads sectors within HBM_SCRUB_H. (R305) -/
  | hbmPatrolScrub (addr : Nat) (symbols : SectorRead)
  /-- DDR patrol scrub reads lines within DDR_SCRUB_H. (R320) -/
  | ddrPatrolScrub (addr : Nat) (devices : Nat)
  /-- Remap and retired changes are written to the health record within 1 s. (R310) -/
  | healthRecordWrite
  /-- A stack temperature is sampled each local ms and its thermal level rises. (R314) -/
  | hbmTempSample (stack : Nat) (temp : Option Int)
  /-- After 10 samples below the threshold minus 3 °C, the thermal level falls. (R314) -/
  | thermalLevelFall (dimm : Bool) (index : Nat)
  /-- A DIMM temperature is sampled against the thermal thresholds. (R321) -/
  | dimmTempSample (channel : Nat) (temp : Option Int)
  /-- While a stack is hot, a SLOW notice is sent every 10 local ms, and CLEAR when it cools. (R315) -/
  | slowNoticeSend
  /-- A training frame is received, carrying polarity, order, coefficients and phase. (R328) -/
  | trainingFrameReceived (port : Nat) (lane : Nat) (signal : Nat) (inverted : Bool) (word : Nat) (eye : Nat)
  /-- A training does not complete within its bound; it retries or the port goes DOWN. (R330) -/
  | trainingTimeout (port : Nat)
  /-- A FEC frame of 4 codewords is decoded and lock is tracked; the operand lists its symbol errors by round and logical lane.
      (R333, R334) -/
  | fecFrameReceived (port : Nat) (errs : List (Nat × Nat))
  /-- At each flit boundary, the transmitter chooses replay, VC 4, VC 3 or a weighted VC, or IDLE. (R346) -/
  | flitTransmit (port : Nat)
  /-- A DATA flit is accepted, discarded as a duplicate or NAKed, and its ACK and credits processed. (R341) -/
  | dataFlitReceived (port : Nat) (flit : List Byte) (late : Bool)
  /-- An IDLE flit's ACK, NAK and credit fields are processed. (R345) -/
  | idleFlitReceived (port : Nat) (flit : List Byte) (late : Bool)
  /-- An INIT flit is sent every 1 local µs after FEC lock. (R347) -/
  | initFlitSend (port : Nat)
  /-- An INIT flit sets credits and sequence state, and completes link initialisation. (R347) -/
  | initFlitReceived (port : Nat) (flit : List Byte) (late : Bool)
  /-- Link initialisation not complete within 1 local ms sends the port to RETRAIN. (R347) -/
  | initTimeout (port : Nat)
  /-- A LINK flit of kind RETRAIN or DOWN is received. (R350) -/
  | linkFlitReceived (port : Nat) (flit : List Byte) (late : Bool)
  /-- ACK has not advanced for 20 local µs; resend from the oldest flit, and retrain after 8 replays. (R343) -/
  | replayTimeout (port : Nat)
  /-- A 1 ms window with excess corrected symbols or uncorrectable codewords enters RETRAIN. (R348) -/
  | errorRateWindow (port : Nat)
  /-- A retrain not complete in 5 local ms becomes a full training. (R348) -/
  | retrainTimeout (port : Nat)
  /-- A PORT_CTRL write of 1 sends a port from OFF or DOWN to DETECT. (R371) -/
  | portEnable (port : Nat)
  /-- A PORT_CTRL write of 0 sends the port to OFF and clears its FAILED record. (R371) -/
  | portDisable (port : Nat)
  /-- A PORT_CMD write of FULL_TRAIN starts a full training. (R401) -/
  | portFullTrain (port : Nat)
  /-- A PORT_CMD write of RETRAIN enters RETRAIN. (R401) -/
  | portRetrain (port : Nat)
  /-- A SEND is delivered to its RECV channel slot, waits, or is rejected. (R384) -/
  | txnSend (port : Nat) (vc : Nat)
  /-- A PUT writes into an open window of the receiver. (R355) -/
  | txnPut (port : Nat) (vc : Nat)
  /-- A GET request reads from an open window and is answered. (R355) -/
  | txnGet (port : Nat) (vc : Nat)
  /-- A GET response is delivered to its requester by TAG, whatever its epoch. (R358) -/
  | txnGetResponse (port : Nat) (vc : Nat)
  /-- An I32 ATOMIC_ADD is applied if EXP matches the window. (R355) -/
  | txnAtomicAddI32 (port : Nat)
  /-- An A64 ATOMIC_ADD is applied as a row add with header merge. (R355) -/
  | txnAtomicAddA64 (port : Nat)
  /-- A collective chunk is added, stored or XORed by the collective unit. (R388) -/
  | txnCollectiveStep (port : Nat)
  /-- A FENCE is answered with a fence report once all earlier transactions are applied. (R356) -/
  | txnFence (port : Nat)
  /-- A fence report arrives and completes the covered cues, with TORUS_ERROR when ERRORS is nonzero. (R357) -/
  | txnFenceResponse (port : Nat)
  /-- A routed transaction for another member is forwarded on the dimension-order port. (R380) -/
  | txnForward (port : Nat) (vc : Nat)
  /-- A GET or FENCE response missing after TXN_TIMEOUT completes TIMEOUT and makes the neighbour suspect. (R360) -/
  | txnTimeout (port : Nat) (tag : Nat)
  /-- A HELLO is sent every 100 local µs until the exchange completes. (R362) -/
  | helloSend (port : Nat)
  /-- A HELLO is checked against Table 10.14 and the port moves to the resulting state. (R362) -/
  | helloReceived (port : Nat)
  /-- A quarantined port sends a HELLO every 100 local ms. (R363) -/
  | quarantineHello (port : Nat)
  /-- The HELLO exchange does not complete within its 1 local ms bound. (R362) -/
  | helloExchangeTimeout (port : Nat)
  /-- A PULSE is sent every 50 local µs. (R364) -/
  | pulseSend (port : Nat)
  /-- A PULSE arrives and a SUSPECT neighbour returns to ALIVE. (R365) -/
  | pulseReceived (port : Nat)
  /-- 60 local µs pass without a PULSE. (R365) -/
  | missedPulse (port : Nat)
  /-- Four missed pulses or a timeout make the neighbour SUSPECT and a QUERY is flooded. (R398) -/
  | neighbourSuspect (port : Nat)
  /-- A SLOW notice stretches the timeouts toward its sender by 4. (R315) -/
  | noticeSlow (port : Nat)
  /-- A CLEAR notice ends the stretch. (R367) -/
  | noticeClear (port : Nat)
  /-- 50 local ms without a SLOW notice ends the stretch. (R315) -/
  | slowStretchExpiry (port : Nat)
  /-- A CANCEL abandons the open epoch or discards held traffic, and is forwarded. (R369) -/
  | noticeCancel (port : Nat)
  /-- A SELF_FAILED notice marks its origin FAILED and starts the members' response. (R445) -/
  | noticeSelfFailed (port : Nat)
  /-- A QUERY is answered with a REPORT of liveness or silence from a port facing its subject. (R398) -/
  | noticeQuery (port : Nat)
  /-- A REPORT lets the originator confirm a failure or a link fault. (R399) -/
  | noticeReport (port : Nat)
  /-- A FAILED notice marks its subject FAILED and members abandon, roll back and recover. (R445) -/
  | noticeFailed (port : Nat)
  /-- No REPORT within CONFIRM_MS, or a link not UP in time, declares the subject failed. (R399) -/
  | confirmTimeout (port : Nat)
  /-- A write of FORM = 1 checks the cast registers and starts forming the cast. (R376) -/
  | castForm
  /-- A write of FORM = 0 sets CAST_STATE to NONE and sends HELLO with CAST_ID 0. (R376) -/
  | castDissolve
  /-- Once the cast is FORMED, the understudy reads P's book and witness from its mirror partner. (R453) -/
  | understudyBookRead
  /-- The fill barrier vote completes and the fill or the export fallback begins. (R454) -/
  | fillBarrier (failed : Nat)
  /-- A survivor not past the fill barrier in time floods CANCEL of the recovery epoch. (R454) -/
  | understudyWaitExpiry
  /-- The understudy has written and verified every item and seals its slot. (R458) -/
  | fillSeal
  /-- The rehearsal barrier vote completes and the recovery epoch opens or the fallback follows. (R459) -/
  | rehearsalBarrier (failed : Nat)
  /-- The digest vote completes with agreement, expulsion of the minority, or a shield. (R470) -/
  | replicaVote (values : List (Nat × Nat))
  /-- The vote is incomplete after VOTE_WAIT and the member shields. (R470) -/
  | voteTimeout
  /-- Return a signed evidence record for a nonce. (R520) -/
  | getEvidence (path : Path)
  /-- Return the identity and alias certificates. (R517) -/
  | getCerts (path : Path)
  /-- Return boot ledger records. (R509) -/
  | readLedger (path : Path)
  /-- Write a clear record so later starts use normal forms. (R514) -/
  | clearLedger (path : Path)
  /-- Return the health record. (R515) -/
  | readHealth (path : Path)
  /-- Verify, program and verify an image area, and optionally update the NVM header. (R522) -/
  | imageUpdate (path : Path)
  /-- Load signed IDE stream keys. (R491) -/
  | loadIdeKeys (path : Path)
  /-- Load a signed export secret that cannot be read back. (R232) -/
  | loadExportSecret (path : Path)
  /-- Verify an order and take the coordinate and cast, then form the cast. (R452) -/
  | assumePosition (path : Path)
  /-- Run a signed fleet test package on eligible units in job slot 3. (R525) -/
  | testPackage (path : Path) (runs : List (Nat × Nat × List Byte))
  /-- A pattern exceeding MAX_MS on a unit reports TIMEOUT. (R525) -/
  | patternTimeout (unit : Nat)
  /-- Return the signed result record of a package. (R526) -/
  | testResult (path : Path)
  /-- Enrol or revoke an owner key slot, or revoke a vendor slot. (R523) -/
  | keyFuse (path : Path)
  /-- Return runtime log entries of M6. (R518) -/
  | readLog (path : Path)
  /-- The board controller assigns the I3C dynamic address. (R531) -/
  | entdaa (addr : Nat)
  /-- MCTP control command that assigns the endpoint ID. (R531) -/
  | setEndpointId (eid : Nat)
  /-- MCTP control command that returns the endpoint ID. (R531) -/
  | getEndpointId
  /-- MCTP control command that returns the supported versions. (R531) -/
  | getMctpVersionSupport
  /-- MCTP control command that returns the supported message types. (R531) -/
  | getMessageTypeSupport
  /-- MCTP control command that returns vendor-defined message support. (R531) -/
  | getVendorDefinedMessageSupport
  /-- Return MGT_STATUS, DEV_STATUS and UNIT_GEN. (R532) -/
  | getStatus (tag : Nat)
  /-- Return a BAR0 register value over the management path. (R532) -/
  | readReg (tag : Nat) (offset : Nat) (width : Nat)
  /-- Write an MGT block register as a host write would. (R532) -/
  | writeReg (tag : Nat) (offset : Nat) (v : Nat)
  /-- Return unit state table entries. (R532) -/
  | readUnits (tag : Nat) (cls : Nat) (first : Nat) (count : Nat)
  /-- Return call-board records from a sequence number. (R568) -/
  | readEvents (tag : Nat) (first : Nat) (count : Nat)
  /-- A message incomplete 100 local ms after its first packet is discarded. (R533) -/
  | mctpAssemblyTimeout
  /-- A FENCE request drains and fences a unit, pending to a step boundary or immediate. (R539) -/
  | unitFence (via : Via) (basis : Nat) (unit : Nat) (immediate : Bool)
  /-- An UNFENCE request returns a fenced unit to IDLE or SPARE. (R538) -/
  | unitUnfence (via : Via) (basis : Nat) (unit : Nat)
  /-- A TEST request moves a unit to TEST and records PRIOR. (R538) -/
  | unitTest (via : Via) (basis : Nat) (unit : Nat)
  /-- An END_TEST request runs the self-test and returns the unit to PRIOR, or FAILED. (R538) -/
  | unitEndTest (via : Via) (basis : Nat) (unit : Nat) (pass : Bool)
  /-- An OFF request powers a fenced or idle unit off. (R538) -/
  | unitOff (via : Via) (basis : Nat) (unit : Nat)
  /-- An ON request powers a unit on to IDLE. (R538) -/
  | unitOn (via : Via) (basis : Nat) (unit : Nat)
  /-- Before the next attempt opens, a pending fence moves the engine to DRAINING and then FENCED behind its spare.
      (R539) -/
  | pendingFenceApply (unit : Nat)
  /-- Each 100 µs average of input power is checked and the core supply adjusted. (R541) -/
  | powerControlTick (mv : Option Nat) (ma : Option Nat)
  /-- Die sensors are sampled each ms; the thermal cap and THERM_N follow TJ. (R541) -/
  | junctionTempSample (readings : List (Option Int))
  /-- TJ at 115 °C in 3 samples fails the device and removes its rails. (R543) -/
  | thermalTrip
  /-- VIN outside 40 to 60 V for over 1 local ms holds the core at 0.55 V. (R544) -/
  | vinOutOfRange (mv : Nat)
  /-- Telemetry registers are updated every local ms. (R542) -/
  | telemetryUpdate (vcore : Option Nat) (beat : Nat)
  /-- After 5 missed signals the security controller restarts the management controller. (R545) -/
  | mcWatchdog
  /-- A HOST_RING_HEAD write frees room, or is discarded if invalid. (R569) -/
  | hostRingHeadWrite (head : Nat)
  /-- Enable a DISABLED queue after checking its descriptor. (R237) -/
  | queCmdEnable (queue : Nat)
  /-- Disable an ENABLED or STOPPED queue after its in-flight cues complete. (R237) -/
  | queCmdDisable (queue : Nat)
  /-- Reset HEAD, TAIL, CPL_TAIL and CPL_HEAD of a disabled queue. (R237) -/
  | queCmdReset (queue : Nat)
  /-- A BIAS_CMD moves a page range to device bias. (R481) -/
  | biasToDevice (tier : Nat) (pages : Nat) (first : Nat)
  /-- A BIAS_CMD moves a page range to host bias, unless a loaded job uses it. (R481) -/
  | biasToHost (tier : Nat) (pages : Nat) (first : Nat)
  /-- Clear the six engine counters. (R133) -/
  | countClear (engine : Nat)
  /-- Clear the seven drain counters. (R166) -/
  | drainClear (engine : Nat)
  /-- Clear the thirteen NUM counters. (R204) -/
  | numClear
  /-- Clear the seven RNG counters. (R234) -/
  | rngClear
  /-- Clear the four QUE counters. (R266) -/
  | queClear
  /-- Clear the block counters and every bank's counters. (R297) -/
  | bnkClear
  /-- Clear every MEM counter. (R325) -/
  | memClear
  /-- Clear a port's eleven counters. (R401) -/
  | portClear (port : Nat)
  /-- Clear the five fabric counters. (R402) -/
  | fabClear
  /-- Clear the eight CKP counters. (R439) -/
  | ckpClear
  /-- Clear the eleven FOV counters. (R473) -/
  | fovClear
  /-- Clear the two UNIT counters. (R546) -/
  | unitClear
  /-- Clear the four MGT counters. (R547) -/
  | mgtClear
  /-- Clear the three EVT counters. (R572) -/
  | evtClear
  /-- A write to any other control register is applied whole or discarded with WRITE_DISCARDED. (R574) -/
  | registerWrite (offset : Nat) (width : Nat) (v : Nat)
  /-- A lane of a torus port loses signal; the port enters RETRAIN and reports the lane in FAILED. (R348) -/
  | laneSignalLoss (port : Nat) (lane : Nat)
  /-- A DDR line access is served under the line code: corrected, read-modify-written, or found uncorrectable with its
      4 KiB page retired. (R320) -/
  | ddrAccess (who : Sender) (addr : Nat) (len : Nat) (write : Bool) (bytes : List Byte) (ups : Upsets)
  /-- A bank that is powering up finishes its initialisation (4,096 or 64 beats) and enters ON, releasing waiting
      accesses. (R282) -/
  | bankPowerUpDone (bank : Nat)
  /-- A bias change finishes within 1 local ms, BIAS_STATUS.BUSY clears, and BIAS_CMD writes are accepted again.
      (R481) -/
  | biasCommandComplete
  /-- An engine self-test in TEST completes; a failing engine is marked FAILED and the others return to their earlier
      state. (R177) -/
  | engineSelfTestDone (engine : Nat) (pass : Bool)
  /-- The installation deasserts STBY_OK and the management controller stops running. (R529) -/
  | stbyOkDeassert
  /-- The standby supply returns; the call board starts empty with SEQ 1 and the EVT counters are zero. (R563) -/
  | vsbComesUp
  /-- A PERST_N released too early is treated as released when its clock and PWR_GOOD conditions become true, and the
      start begins. (R552) -/
  | perstNConditionsMet (rep : StartReport)
  /-- An IEEE 1149.1 instruction is shifted in, and only BYPASS, IDCODE, SAMPLE/PRELOAD and EXTEST act unless debug is
      enabled. (R527) -/
  | jtagTapInstruction (code : Nat)
  /-- A CXL.cache snoop from the host is answered with RspIHitI. (R474) -/
  | cxlCacheSnoop (addr : Nat)
  deriving DecidableEq, Repr

end Sys2Proof
end

