-- ==== Sys2Proof/Decode.lean ====
section
/-!
DEFINITION. No row of the table of operations and events gives a command bits, so no word spells one.
-/
namespace Sys2Proof

/-- The command a word of the table spells: the table gives no row bits, so there is none. -/
def decodeTableWord (_nbits _w : Nat) : Option Instr := none

end Sys2Proof
end

