-- ==== Sys2Proof/Machine/Bits.lean ====
section
/-!
DEFINITION. Bit fields, little-endian structures and the sparse maps, each once.
-/
namespace Sys2Proof.Machine

open Sys2Proof

/-- Bits [hi:lo] of n, the manual's range notation. -/
def bits (hi lo n : Nat) : Nat := (n >>> lo) % 2 ^ (hi + 1 - lo)

/-- Bit i of n. -/
def bitAt (i n : Nat) : Bool := n.testBit i

/-- n with bits [hi:lo] replaced by the low bits of v. -/
def setBits (hi lo v n : Nat) : Nat :=
  n - (bits hi lo n <<< lo) + ((v % 2 ^ (hi + 1 - lo)) <<< lo)

/-- n read as a two's complement number of w bits. -/
def sext (w n : Nat) : Int :=
  let m := n % 2 ^ w
  if m < 2 ^ (w - 1) then (m : Int) else (m : Int) - (2 ^ w : Nat)

/-- An integer as a two's complement field of w bits. -/
def twos (w : Nat) (i : Int) : Nat := (i % ((2 ^ w : Nat) : Int)).toNat

/-- 1 for true, 0 for false. -/
def b2n (b : Bool) : Nat := if b then 1 else 0

/-- How many of the low w bits of n are set. -/
def popcount (w n : Nat) : Nat := (List.range w).countP fun i => n.testBit i

/-- The first k bytes of n, little-endian (R17). -/
def leBytes (k n : Nat) : List Byte :=
  (List.range k).map fun i => BitVec.ofNat 8 (n >>> (8 * i))

/-- A little-endian number (R17). -/
def leNat : List Byte → Nat
  | [] => 0
  | b :: bs => b.toNat + 256 * leNat bs

/-- The k-byte little-endian field at byte offset o of a structure; bytes past its end read as zero. -/
def fieldLE (bs : List Byte) (o k : Nat) : Nat := leNat ((bs.drop o).take k)

/-- The words of a 4-bit field lane: nibble i of n. -/
def nibble (i n : Nat) : Nat := (n >>> (4 * i)) % 16

/-- Ceiling division; by zero it is zero. -/
def ceilDiv (a b : Nat) : Nat := (a + b - 1) / b

/-- Addition that stops at the largest value of w bits (R133). -/
def satAdd (w a b : Nat) : Nat := min (a + b) (2 ^ w - 1)

/-- Serial comparison within a window of half the range: a is after b (R238, R335, R535). -/
def serialAfter (w a b : Nat) : Bool :=
  let d := (a + 2 ^ w - b % 2 ^ w) % 2 ^ w
  0 < d && d < 2 ^ (w - 1)

/-! ### Sparse maps -/

/-- The entry of key k, if listed. -/
def SMap.find {α : Type} (m : SMap α) (k : Nat) : Option α :=
  match m with
  | [] => none
  | (k', v) :: m => if k' = k then some v else SMap.find m k

/-- The entry of key k, or the default d where unlisted. -/
def SMap.get {α : Type} (d : α) (m : SMap α) (k : Nat) : α := (SMap.find m k).getD d

/-- m without key k. -/
def SMap.del {α : Type} (m : SMap α) (k : Nat) : SMap α := m.filter fun e => e.1 != k

/-- Insert before the first larger key. -/
def SMap.ins {α : Type} (k : Nat) (v : α) : SMap α → SMap α
  | [] => [(k, v)]
  | (k', v') :: m => if k < k' then (k, v) :: (k', v') :: m else (k', v') :: SMap.ins k v m

/-- m with key k at v. -/
def SMap.put {α : Type} (m : SMap α) (k : Nat) (v : α) : SMap α := SMap.ins k v (SMap.del m k)

/-- m with key k at v, where d is what an unlisted key reads as: writing d removes the entry. -/
def SMap.set {α : Type} [DecidableEq α] (d : α) (m : SMap α) (k : Nat) (v : α) : SMap α :=
  if v = d then SMap.del m k else SMap.put m k v

/-- Keys strictly rising. -/
def SMap.sorted {α : Type} : SMap α → Bool
  | [] => true
  | [_] => true
  | (k, _) :: (k', v') :: m => k < k' && SMap.sorted ((k', v') :: m)

/-- The canonical form: keys strictly rising and no entry equal to the default. -/
def SMap.wf {α : Type} [DecidableEq α] (d : α) (m : SMap α) : Bool :=
  SMap.sorted m && m.all fun e => !decide (e.2 = d)

/-- Set many keys of one sparse map. -/
def SMap.setAll {α : Type} [DecidableEq α] (d : α) (m : SMap α) (kvs : List (Nat × α)) : SMap α :=
  kvs.foldl (fun m kv => SMap.set d m kv.1 kv.2) m

end Sys2Proof.Machine
end

