-- ==== Sys2Proof/Machine/Crypto.lean ====
section
/-!
DEFINITION. The published algorithms the manual names and does not restate: AES-256 (FIPS 197, R205), Keccak with
SHA3-512 (FIPS 202) and KMAC256 (NIST SP 800-185, R208), and the cyclic redundancy checks of the torus link
(R330, R337). Taken from the standards themselves (PRESUMED, log entry 20).
-/
namespace Sys2Proof.Machine

open Sys2Proof

/-! ### AES-256 -/

/-- The S-box of FIPS 197, entry n in bits [8n+7:8n]. -/
def sboxTable : Nat :=
  0x16bb54b00f2d99416842e6bf0d89a18cdf2855cee9871e9b948ed9691198f8e19e1dc186b95735610ef6034866b53e708a8bbd4b1f74dde8c6b4a61c2e2578ba08ae7a65eaf4566ca94ed58d6d37c8e779e4959162acd3c25c2406490a3a32e0db0b5ede14b8ee4688902a22dc4f816073195d643d7ea7c41744975fec130ccdd2f3ff1021dab6bcf5389d928f40a351a89f3c507f02f94585334d43fbaaefd0cf584c4a39becb6a5bb1fc20ed00d153842fe329b3d63b52a05a6e1b1a2c830975b227ebe28012079a059618c323c7041531d871f1e5a534ccf73f362693fdb7c072a49cafa2d4adf04759fa7dc982ca76abd7fe2b670130c56f6bf27b777c63

/-- One S-box entry. -/
def sbox (n : Nat) : Nat := (sboxTable >>> (8 * n)) % 256

/-- Multiplication by x in GF(2^8). -/
def xtime (a : Nat) : Nat := if a < 128 then 2 * a else (2 * a) % 256 ^^^ 0x1B

/-- Key expansion one word at a time: ws holds the words so far, newest first. -/
def aesExpand : Nat → Nat → Nat → List (List Nat) → List (List Nat)
  | 0, _, _, ws => ws
  | fuel + 1, i, rcon, ws =>
    let t := ws.headD []
    let old := ws.getD 7 []
    let t' :=
      if i % 8 = 0 then
        let r := (t.drop 1 ++ t.take 1).map sbox
        (r.headD 0 ^^^ rcon) :: r.drop 1
      else if i % 8 = 4 then t.map sbox
      else t
    aesExpand fuel (i + 1) (if i % 8 = 0 then xtime rcon else rcon) (List.zipWith (· ^^^ ·) old t' :: ws)

/-- Split into groups of four. -/
def quads : Nat → List Nat → List (List Nat)
  | 0, _ => []
  | k + 1, l => l.take 4 :: quads k (l.drop 4)

/-- The fifteen round keys of a 32-byte key. -/
def aesRoundKeys (key : List Nat) : List (List Nat) :=
  let ws := (aesExpand 52 8 1 (quads 8 key).reverse).reverse
  (List.range 15).map fun r => ((ws.drop (4 * r)).take 4).flatten

/-- SubBytes and ShiftRows together. -/
def aesSubShift (st : List Nat) : List Nat :=
  (List.range 16).map fun i => sbox (st.getD ((i + 4 * (i % 4)) % 16) 0)

/-- MixColumns. -/
def aesMix (st : List Nat) : List Nat :=
  (List.range 16).map fun i =>
    let c := i / 4 * 4
    let g := fun k => st.getD (c + (i + k) % 4) 0
    xtime (g 0) ^^^ (xtime (g 1) ^^^ g 1) ^^^ g 2 ^^^ g 3

/-- AES-256 of one 16-byte block; bytes in FIPS 197 order (R211). -/
def aes256 (key block : List Nat) : List Nat :=
  match aesRoundKeys key with
  | [] => block
  | k0 :: ks =>
    let st := List.zipWith (· ^^^ ·) block k0
    let st := (ks.take 13).foldl (fun st k => List.zipWith (· ^^^ ·) (aesMix (aesSubShift st)) k) st
    List.zipWith (· ^^^ ·) (aesSubShift st) (ks.getD 13 [])

/-! ### Keccak

The 1600 bits are one number: lane (x, y) of FIPS 202 stands at bit 64 (x + 5 y), a plane is 320 bits, and the bytes of the
state in its order are the number's little-endian bytes. -/

/-- The lanes of a plane moved k places down: the lane of column x is the one that stood in column x + k. -/
def turnPlane (k c : Nat) : Nat := (c >>> (64 * k)) ||| ((c <<< (320 - 64 * k)) % 2 ^ 320)

/-- A lane turned left by r places. -/
def turnLane (r v : Nat) : Nat := (v * 2 ^ r) % 2 ^ 64 + v / 2 ^ (64 - r)

/-- Bit 0 of each lane of a plane. -/
def laneOnes : Nat := (2 ^ 320 - 1) / (2 ^ 64 - 1)

/-- Each lane of a plane turned left by one place. -/
def turnEach (c : Nat) : Nat :=
  ((c <<< 1) &&& ((2 ^ 64 - 2) * laneOnes)) ||| ((c >>> 63) &&& laneOnes)

/-- The step θ: every plane takes the parities of the columns before and, one place turned, after. -/
def theta (a : Nat) : Nat :=
  let c := (a ^^^ a >>> 320 ^^^ a >>> 640 ^^^ a >>> 960 ^^^ a >>> 1280) % 2 ^ 320
  a ^^^ ((turnPlane 4 c ^^^ turnEach (turnPlane 1 c)) * ((2 ^ 1600 - 1) / (2 ^ 320 - 1)))

/-- The steps ρ and π along the walk (x, y) → (y, 2 x + 3 y): the lane met after t moves is turned by (t + 1)(t + 2) / 2
places and stands where the walk goes next. -/
def rhoPi (a : Nat) : Nat → Nat → Nat → Nat → Nat
  | 0, _, _, b => b
  | left + 1, x, y, b =>
    let t := 23 - left
    let y' := (2 * x + 3 * y) % 5
    let v := turnLane ((t + 1) * (t + 2) / 2 % 64) ((a >>> (64 * (x + 5 * y))) % 2 ^ 64)
    rhoPi a left y y' (b + v <<< (64 * (y + 5 * y')))

/-- The step χ of one plane. -/
def chiPlane (c : Nat) : Nat := c ^^^ (((2 ^ 320 - 1) ^^^ turnPlane 1 c) &&& turnPlane 2 c)

/-- The step χ. -/
def chi (a : Nat) : Nat := (List.range 5).foldr (fun y b => chiPlane ((a >>> (320 * y)) % 2 ^ 320) + b <<< 320) 0

/-- One step of the register that makes the round constants: x^8 + x^6 + x^5 + x^4 + 1 (FIPS 202, algorithm 5). -/
def rcStep (r : Nat) : Nat := if r < 128 then 2 * r else (2 * r) ^^^ 0x171

/-- Seven bits of the register, each at bit 2^j - 1 of the round constant, and the register after them. -/
def rcTake (r : Nat) : Nat × Nat :=
  (List.range 7).foldl (fun p j => (p.1 + (p.2 % 2) <<< (2 ^ j - 1), rcStep p.2)) (0, r)

/-- The rounds left, with the register of the round constants. -/
def keccakRounds : Nat → Nat → Nat → Nat
  | 0, _, a => a
  | left + 1, r, a =>
    let (rc, r) := rcTake r
    let a := theta a
    keccakRounds left r (chi (rhoPi a 24 1 0 (a % 2 ^ 64)) ^^^ rc)

/-- Keccak-f[1600]. -/
def keccakF (a : Nat) : Nat := keccakRounds 24 1 a

/-- The number of little-endian bytes. -/
def leSum : List Nat → Nat
  | [] => 0
  | b :: bs => b + 256 * leSum bs

/-- Absorb all blocks of `rate` bytes; fuel bounds their number. -/
def absorbAll (rate : Nat) : Nat → Nat → List Nat → Nat
  | 0, a, _ => a
  | k + 1, a, bs => absorbAll rate k (keccakF (a ^^^ leSum (bs.take rate))) (bs.drop rate)

/-- The first n bytes of the state. -/
def stateBytes (n a : Nat) : List Nat := (List.range n).map fun i => (a >>> (8 * i)) % 256

/-- Squeeze blocks; fuel bounds their number. -/
def squeeze (rate : Nat) : Nat → Nat → List Nat
  | 0, _ => []
  | k + 1, a => stateBytes rate a ++ squeeze rate k (keccakF a)

/-- Pad to whole blocks with the domain suffix and the final bit (FIPS 202). -/
def keccakPad (rate sfx : Nat) (bs : List Nat) : List Nat :=
  let n := rate - bs.length % rate
  if n = 1 then bs ++ [sfx ^^^ 0x80]
  else bs ++ sfx :: List.replicate (n - 2) 0 ++ [0x80]

/-- The sponge. -/
def sponge (rate sfx outLen : Nat) (bs : List Nat) : List Nat :=
  let p := keccakPad rate sfx bs
  (squeeze rate (ceilDiv outLen rate) (absorbAll rate (p.length / rate) 0 p)).take outLen

/-- SHA3-512. -/
def sha3_512 (bs : List Nat) : List Nat := sponge 72 0x06 64 bs

/-- The minimal big-endian bytes of n, at least one. -/
def beBytes (n : Nat) : List Nat :=
  let k := max 1 (ceilDiv (if n = 0 then 0 else Nat.log2 n + 1) 8)
  ((List.range k).map fun i => (n >>> (8 * i)) % 256).reverse

/-- left_encode of SP 800-185. -/
def leftEncode (n : Nat) : List Nat := let b := beBytes n; b.length :: b

/-- right_encode of SP 800-185. -/
def rightEncode (n : Nat) : List Nat := let b := beBytes n; b ++ [b.length]

/-- encode_string of SP 800-185. -/
def encodeString (s : List Nat) : List Nat := leftEncode (8 * s.length) ++ s

/-- bytepad of SP 800-185. -/
def bytepad (w : Nat) (x : List Nat) : List Nat :=
  let y := leftEncode w ++ x
  y ++ List.replicate ((w - y.length % w) % w) 0

/-- KMAC256 with key k, message x, output of outBits and customisation s. -/
def kmac256 (k x : List Nat) (outBits : Nat) (s : List Nat) : List Nat :=
  let name := [0x4B, 0x4D, 0x41, 0x43]
  sponge 136 0x04 (outBits / 8)
    (bytepad 136 (encodeString name ++ encodeString s) ++ bytepad 136 (encodeString k) ++ x ++ rightEncode outBits)

/-- The ASCII bytes of a string. -/
def ascii (s : String) : List Nat := s.toList.map Char.toNat

/-- Bytes as numbers. -/
def natBytes (bs : List Byte) : List Nat := bs.map BitVec.toNat

/-- Numbers as bytes. -/
def toBytes (ns : List Nat) : List Byte := ns.map (BitVec.ofNat 8)

/-! ### Cyclic redundancy checks -/

/-- One bit of a most-significant-first register of w bits. -/
def crcBit (w poly : Nat) (r : Nat) (b : Bool) : Nat :=
  let fb := xor (r.testBit (w - 1)) b
  let r := (2 * r) % 2 ^ w
  if fb then r ^^^ poly else r

/-- Most-significant-first over bytes. -/
def crcMsb (w poly init : Nat) (bs : List Nat) : Nat :=
  bs.foldl (fun r byte => (List.range 8).foldl (fun r i => crcBit w poly r (byte.testBit (7 - i))) r) init

/-- One bit of a least-significant-first (reflected) register. -/
def crcBitRev (poly : Nat) (r : Nat) (b : Bool) : Nat :=
  let fb := xor (r.testBit 0) b
  if fb then (r >>> 1) ^^^ poly else r >>> 1

/-- Least-significant-first over bytes; poly is already reflected. -/
def crcLsb (poly init : Nat) (bs : List Nat) : Nat :=
  bs.foldl (fun r byte => (List.range 8).foldl (fun r i => crcBitRev poly r (byte.testBit i)) r) init

end Sys2Proof.Machine
end

