-- ==== Sys2Proof/Machine/Formats.lean ====
section
/-!
DEFINITION. Number formats and conversions (01_number_formats.md): every format bit by bit, the three rounding
modes and the conversions of Table 1.10. Values are exact rationals; rounding is one search on the ladder of a
format's magnitudes, numbered by their codes, so that "the code whose bit 0 is 0" is the parity of a number.
-/
namespace Sys2Proof.Machine

open Sys2Proof

/-- A value of a wide or accumulator format: NaN, an infinity, or a sign with an exact magnitude (the sign of a zero
is kept, R47). -/
inductive Val where
  | nan
  | inf (neg : Bool)
  | fin (neg : Bool) (mag : Rat)
  deriving DecidableEq, Repr

/-- The element formats of the array (R23). -/
inductive EFmt where
  | t2 | n4 | l4 | i4 | n8 | m8 | w16
  deriving DecidableEq, Repr

/-- Rounding modes (Table 1.8). -/
inductive RMode where
  | rne | rto | sr
  deriving DecidableEq, Repr

/-- What one element conversion reports (R59). -/
inductive ConvFlag where
  | none | clip | flush
  deriving DecidableEq, Repr

/-- 2^k as an exact value. -/
def pow2 (k : Int) : Rat := if 0 ≤ k then ((2 ^ k.toNat : Nat) : Rat) else mkRat 1 (2 ^ (-k).toNat)

/-- |x|. -/
def rabs (x : Rat) : Rat := if x < 0 then -x else x

/-- The largest k with 2^k ≤ x, for x > 0. -/
def floorLog2 (x : Rat) : Int :=
  let k : Int := (Nat.log2 x.num.toNat : Int) - (Nat.log2 x.den : Int)
  if pow2 k ≤ x then k else k - 1

/-- The smallest k with x ≤ 2^k, for x > 0. -/
def ceilLog2 (x : Rat) : Int :=
  let k := floorLog2 x
  if x = pow2 k then k else k + 1

/-- Round to the nearest integer, ties to even (R50). -/
def rneInt (x : Rat) : Int :=
  let f := x.floor
  let r := x - (f : Rat)
  if r < mkRat 1 2 then f
  else if mkRat 1 2 < r then f + 1
  else if f % 2 = 0 then f else f + 1

/-- The exact value as a signed rational; infinities and NaN have none. -/
def Val.rat? : Val → Option Rat
  | .fin true m => some (-m)
  | .fin false m => some m
  | _ => none

/-- A signed rational as a value; zero is positive. -/
def Val.ofRat (x : Rat) : Val := .fin (decide (x < 0)) (rabs x)

/-- NaN or an infinity. -/
def Val.nonFinite : Val → Bool
  | .fin _ _ => false
  | _ => true

/-- The magnitude of a finite value; 0 for the others. -/
def Val.mag : Val → Rat
  | .fin _ m => m
  | _ => 0

/-- The sign of a value; a NaN counts as positive. -/
def Val.neg : Val → Bool
  | .fin n _ => n
  | .inf n => n
  | .nan => false

/-! ### Floating-point layouts (R31 to R35) -/

/-- A sign, an exponent field and a fraction field. -/
structure FloatFmt where
  fbits : Nat
  bias : Nat
  /-- The largest finite magnitude's code. -/
  maxIdx : Nat
  /-- Bits below the sign. -/
  mbits : Nat
  deriving DecidableEq, Repr

/-- N8: every exponent finite (R31). -/
def fN8 : FloatFmt := { fbits := 3, bias := 7, maxIdx := 0x7F, mbits := 7 }
/-- M8: every exponent finite (R32). -/
def fM8 : FloatFmt := { fbits := 2, bias := 15, maxIdx := 0x7F, mbits := 7 }
/-- W16 (R33). -/
def fW16 : FloatFmt := { fbits := 7, bias := 127, maxIdx := 0x7F7F, mbits := 15 }
/-- F32 (R34). -/
def fF32 : FloatFmt := { fbits := 23, bias := 127, maxIdx := 0x7F7FFFFF, mbits := 31 }
/-- K40 (R35). -/
def fK40 : FloatFmt := { fbits := 31, bias := 127, maxIdx := 0x7F7FFFFFFF, mbits := 39 }

/-- The magnitude of code idx (sign removed): normal or subnormal (R31 to R35, R48). -/
def FloatFmt.mag (ff : FloatFmt) (idx : Nat) : Rat :=
  let e := idx >>> ff.fbits
  let f := idx % 2 ^ ff.fbits
  if e = 0 then (f : Rat) * pow2 (1 - (ff.bias : Int) - ff.fbits)
  else ((2 ^ ff.fbits + f : Nat) : Rat) * pow2 ((e : Int) - ff.bias - ff.fbits)

/-- The largest code whose magnitude is at most m; not bounded by the format's top. -/
def FloatFmt.floorIdx (ff : FloatFmt) (m : Rat) : Nat :=
  if m ≤ 0 then 0
  else
    let e := floorLog2 m
    if e < 1 - (ff.bias : Int) then (m * pow2 ((ff.bias : Int) + ff.fbits - 1)).floor.toNat
    else ((e + ff.bias).toNat <<< ff.fbits) + ((m * pow2 (ff.fbits - e)).floor.toNat - 2 ^ ff.fbits)

/-- Code of the canonical NaN (R45). -/
def FloatFmt.nanCode (ff : FloatFmt) : Nat := (0x1FF <<< (ff.fbits - 1))

/-- Code of +infinity. -/
def FloatFmt.infCode (ff : FloatFmt) : Nat := 0xFF <<< ff.fbits

/-- Sign and magnitude code together. -/
def FloatFmt.sign (ff : FloatFmt) (neg : Bool) (idx : Nat) : Nat :=
  idx + (if neg then 2 ^ ff.mbits else 0)

/-- What a code of W16, F32 or K40 stands for; K40's bits [7:0] do not count in a non-finite code (R35). -/
def FloatFmt.decode (ff : FloatFmt) (c : Nat) : Val :=
  let neg := c.testBit ff.mbits
  let idx := c % 2 ^ ff.mbits
  if idx >>> ff.fbits = 255 then
    let f := idx % 2 ^ ff.fbits
    let f := if ff.fbits = 31 then f >>> 8 else f
    if f = 0 then .inf neg else .nan
  else .fin neg (ff.mag idx)

/-- RNE to an unscaled W16, F32 or K40: overflow goes to infinity and is reported (R50, R52, R59). -/
def FloatFmt.encodeRNE (ff : FloatFmt) : Val → Nat × ConvFlag × Bool
  | .nan => (ff.nanCode, .none, false)
  | .inf n => (ff.sign n ff.infCode, .none, false)
  | .fin n m =>
    let lo := ff.floorIdx m
    if ff.maxIdx < lo then (ff.sign n ff.infCode, .none, true)
    else
      let a := ff.mag lo
      let b := ff.mag (lo + 1)
      let mid := (a + b) / 2
      let q := if m < mid then lo else if mid < m then lo + 1 else if lo % 2 = 0 then lo else lo + 1
      if ff.maxIdx < q then (ff.sign n ff.infCode, .none, true)
      else (ff.sign n q, (if q = 0 ∧ m ≠ 0 then .flush else .none), false)

/-- RTO: exact, or the neighbour whose last fraction bit is 1; above the largest finite value it is that value
(R51). An infinite source stays an infinity: R51 speaks of magnitudes only (DESIGN CHOICE, log entry 61). -/
def FloatFmt.encodeRTO (ff : FloatFmt) : Val → Nat × ConvFlag × Bool
  | .nan => (ff.nanCode, .none, false)
  | .inf n => (ff.sign n ff.infCode, .none, false)
  | .fin n m =>
    let lo := ff.floorIdx m
    if ff.maxIdx ≤ lo then (ff.sign n ff.maxIdx, .none, false)
    else if ff.mag lo = m then (ff.sign n lo, .none, false)
    else (ff.sign n (if lo % 2 = 1 then lo else lo + 1), .none, false)

/-- Truncation toward zero through the HI plane (R36). -/
def k40HiPlane (c : Nat) : Nat := c >>> 8

/-- The LO plane's byte (R36). -/
def k40LoPlane (c : Nat) : Nat := c % 256

/-- RNE or RTO by the descriptor's choice. -/
def FloatFmt.encode (ff : FloatFmt) (m : RMode) (v : Val) : Nat × ConvFlag × Bool :=
  match m with
  | .rto => ff.encodeRTO v
  | _ => ff.encodeRNE v

/-- RNE to W16 with saturation instead of infinity, and whether it saturated (R44). -/
def w16Sat (x : Rat) : Nat × Bool :=
  let r := fW16.encodeRNE (Val.ofRat x)
  if r.2.2 then (fW16.sign (decide (x < 0)) fW16.maxIdx, true) else (r.1, false)

/-- A magnitude rounded upward to W16; beyond the largest finite value it is +infinity (R94). -/
def w16Up : Val → Nat
  | .fin _ m =>
    let lo := fW16.floorIdx m
    if fW16.maxIdx < lo then fW16.infCode
    else if fW16.mag lo = m then lo else lo + 1
  | _ => fW16.infCode

/-! ### Grids: A64 and I32 targets (R42, R43, R60, R62) -/

/-- RNE of a value to an integer of w bits on the grid 2^e: the integer, whether it saturated, whether a nonzero
value became zero. A NaN becomes 0 and counts as a saturation (R60). -/
def toGrid (w : Nat) (e : Int) : Val → Int × Bool × Bool
  | .nan => (0, true, false)
  | .inf true => (-((2 ^ (w - 1) : Nat) : Int), true, false)
  | .inf false => (((2 ^ (w - 1) : Nat) : Int) - 1, true, false)
  | .fin n m =>
    let x := if n then -m else m
    let r := rneInt (x * pow2 (-e))
    let top : Int := ((2 ^ (w - 1) : Nat) : Int) - 1
    let bot : Int := -((2 ^ (w - 1) : Nat) : Int)
    if top < r then (top, true, false)
    else if r < bot then (bot, true, false)
    else (r, false, decide (r = 0 ∧ m ≠ 0))

/-- Saturating sum of two integers of w bits, and whether it saturated. -/
def satSum (w : Nat) (a b : Int) : Int × Bool :=
  let top : Int := ((2 ^ (w - 1) : Nat) : Int) - 1
  let bot : Int := -((2 ^ (w - 1) : Nat) : Int)
  if top < a + b then (top, true) else if a + b < bot then (bot, true) else (a + b, false)

/-! ### Format codes (Table 1.1) -/

/-- The element format of a code (R21, R23). -/
def eFmtOf (c : Nat) : Option EFmt :=
  match c with
  | 0x01 => some .t2
  | 0x02 => some .n4
  | 0x03 => some .l4
  | 0x04 => some .i4
  | 0x08 => some .n8
  | 0x09 => some .m8
  | 0x10 => some .w16
  | _ => none

/-- Format code of an element format. -/
def EFmt.code : EFmt → Nat
  | .t2 => 0x01
  | .n4 => 0x02
  | .l4 => 0x03
  | .i4 => 0x04
  | .n8 => 0x08
  | .m8 => 0x09
  | .w16 => 0x10

/-- Code of F32. -/
def fmtF32 : Nat := 0x18
/-- Code of K40. -/
def fmtK40 : Nat := 0x1C
/-- Code of SE8. -/
def fmtSE8 : Nat := 0x20
/-- Code of SF16. -/
def fmtSF16 : Nat := 0x21
/-- Code of A64. -/
def fmtA64 : Nat := 0x29
/-- Code of I32. -/
def fmtI32 : Nat := 0x30

/-- A format code of Table 1.1. -/
def fmtKnown (c : Nat) : Bool :=
  [0x01, 0x02, 0x03, 0x04, 0x08, 0x09, 0x10, 0x18, 0x1C, 0x20, 0x21, 0x28, 0x29, 0x30, 0x31].contains c

/-- Scale formats (R22). -/
def fmtIsScale (c : Nat) : Bool := c = fmtSE8 || c = fmtSF16

/-- The 4-bit class (R24). -/
def EFmt.fourBit : EFmt → Bool
  | .t2 | .n4 | .l4 | .i4 => true
  | _ => false

/-- Escapes exist only in the 4-bit class (R92). -/
def EFmt.hasEscape (f : EFmt) : Bool := f.fourBit

/-- Bits of one element in the element plane (R24). -/
def EFmt.width : EFmt → Nat
  | .t2 => 2
  | .n4 | .l4 | .i4 => 4
  | .n8 | .m8 => 8
  | .w16 => 16

/-- Image exponent q (R30); 0 for the formats whose slices carry their own exponent. -/
def EFmt.imageExp : EFmt → Nat
  | .t2 => 0
  | .n4 => 1
  | .l4 => 3
  | .i4 => 0
  | _ => 0

/-- Magnitudes of a 4-bit-class format by magnitude code (Tables 1.2 to 1.5), in units of its image. -/
def EFmt.ladder : EFmt → List Nat
  | .t2 => [0, 1]
  | .n4 => [0, 1, 2, 3, 4, 6, 8, 12]
  | .l4 => [0, 1, 2, 4, 8, 16, 32, 64]
  | .i4 => [0, 1, 2, 3, 4, 5, 6, 7]
  | _ => []

/-- The next magnitude beyond the largest (Table 1.9), in units of the image. -/
def EFmt.beyond : EFmt → Nat
  | .t2 => 2
  | .n4 => 16
  | .l4 => 128
  | .i4 => 8
  | _ => 0

/-- The float layout of an 8- or 16-bit element format. -/
def EFmt.float : EFmt → FloatFmt
  | .n8 => fN8
  | .m8 => fM8
  | _ => fW16

/-- Number of the largest magnitude. -/
def EFmt.maxIdx (f : EFmt) : Nat := if f.fourBit then f.ladder.length - 1 else f.float.maxIdx

/-- Magnitude number idx; one past the largest is the next magnitude of Table 1.9. -/
def EFmt.mag (f : EFmt) (idx : Nat) : Rat :=
  if f.fourBit then ((f.ladder.getD idx f.beyond : Nat) : Rat) * pow2 (-(f.imageExp : Int))
  else f.float.mag idx

/-- The largest magnitude number at most m. -/
def EFmt.floorIdx (f : EFmt) (m : Rat) : Nat :=
  if f.fourBit then
    ((List.range f.ladder.length).filter fun i => decide (f.mag i ≤ m)).getLastD 0
  else min (f.float.floorIdx m) f.float.maxIdx

/-- The code of a signed magnitude number (R24 to R33); a result of zero has the positive code in every block-scaled format (R55). -/
def EFmt.codeOf (f : EFmt) (neg : Bool) (idx : Nat) : Nat :=
  if idx = 0 then 0
  else
    match f with
    | .t2 => if neg then 3 else 1
    | .n4 | .l4 => idx + (if neg then 8 else 0)
    | .i4 => if neg then 16 - idx else idx
    | .n8 | .m8 => idx + (if neg then 0x80 else 0)
    | .w16 => idx + (if neg then 0x8000 else 0)

/-- The escape code of the 4-bit class (Tables 1.2 to 1.5). -/
def EFmt.escCode : EFmt → Nat
  | .t2 => 2
  | _ => 8

/-- What an element code stands for, before the block scale. -/
inductive Elem where
  | num (x : Rat)
  | escape
  | nv
  deriving DecidableEq, Repr

/-- The value of an element code in units of the block scale (R25 to R33). -/
def EFmt.decode (f : EFmt) (c : Nat) : Elem :=
  match f with
  | .t2 => if c = 2 then .escape else if c = 3 then .num (-1) else .num ((c % 2 : Nat) : Rat)
  | .n4 | .l4 =>
    if c = 8 then .escape
    else
      let m := f.mag (c % 8)
      .num (if c.testBit 3 then -m else m)
  | .i4 => if c = 8 then .escape else .num ((sext 4 c : Int) : Rat)
  | .n8 | .m8 =>
    if c = 0x80 then .nv
    else
      let m := f.float.mag (c % 128)
      .num (if c.testBit 7 then -m else m)
  | .w16 =>
    match fW16.decode c with
    | .fin n m => .num (if n then -m else m)
    | _ => .nv

/-- The scale divisor M (Table 2.6). -/
def EFmt.divisor : EFmt → Rat
  | .t2 => 1
  | .n4 => 6
  | .l4 => 8
  | .i4 => 7
  | .n8 => 480
  | .m8 => 114688
  | .w16 => 1

/-- RNE saturation threshold: half way between the largest and the next magnitude (Table 1.9). -/
def EFmt.satThreshold (f : EFmt) : Rat := (f.mag f.maxIdx + f.mag (f.maxIdx + 1)) / 2

/-- The staged sub-index t of R54 and R55, by RTO onto the staging grid. -/
def stage (m lo hi : Rat) : Nat :=
  let u := (m - lo) / (hi - lo) * 1024
  let fl := u.floor.toNat
  if (fl : Rat) = u then fl else if fl % 2 = 1 then fl else fl + 1

/-- One element onto a block-scaled format: m = |x| / s with the sign apart (R55). -/
def convertMag (f : EFmt) (mode : RMode) (r10 : Nat) (neg : Bool) (m : Rat) : Nat × ConvFlag :=
  if mode = .sr ∧ f.mag f.maxIdx < m then (f.codeOf neg f.maxIdx, .clip)
  else if mode ≠ .sr ∧ f.satThreshold ≤ m then (f.codeOf neg f.maxIdx, .clip)
  else
    let lo := f.floorIdx m
    let t := stage m (f.mag lo) (f.mag (lo + 1))
    let up := if mode = .sr then decide (r10 < t) else decide (512 < t ∨ (t = 512 ∧ (lo + 1) % 2 = 0))
    let q := if up then lo + 1 else lo
    (f.codeOf neg q, if q = 0 ∧ m ≠ 0 then .flush else .none)

/-- One element at scale s (R55); a source without a value counts as zero here, its block is an NV block (R46). -/
def convertElement (f : EFmt) (mode : RMode) (s : Rat) (r10 : Nat) (x : Val) : Nat × ConvFlag :=
  convertMag f mode r10 x.neg (x.mag / s)

/-! ### Scales (R38 to R40) -/

/-- What an entry of a scale plane stands for. -/
inductive Scale where
  | zero
  | nv
  | num (c f : Nat)
  deriving DecidableEq, Repr

/-- A scale-plane entry: SE8 in a byte, SF16 in two. -/
def decodeScale (sf16 : Bool) (e : Nat) : Scale :=
  if sf16 then
    if e >>> 12 ≠ 0 then .nv
    else
      let c := (e >>> 4) % 256
      if c = 0 then .zero else if c = 255 then .nv else .num c (e % 16)
  else if e = 0 then .zero else if e = 255 then .nv else .num e 0

/-- s = (1 + f/16) × 2^(c − 127). -/
def scaleVal (c f : Nat) : Rat := ((16 + f : Nat) : Rat) * pow2 ((c : Int) - 127 - 4)

/-- The entry the quantiser writes. -/
def encodeScale (sf16 : Bool) : Scale → Nat
  | .zero => 0
  | .nv => if sf16 then 0x0FF0 else 255
  | .num c f => if sf16 then (c <<< 4) + f else c

/-! ### The conversion matrix (R60) -/

/-- Kinds of tensor format as the conversion matrix groups them. -/
inductive ConvKind where
  | four | n8 | m8 | w16 | f32 | k40 | a64 | i32
  deriving DecidableEq, Repr

/-- The column of Table 1.10 a format code belongs to. -/
def convKind (c : Nat) : Option ConvKind :=
  match c with
  | 0x01 | 0x02 | 0x03 | 0x04 => some .four
  | 0x08 => some .n8
  | 0x09 => some .m8
  | 0x10 => some .w16
  | 0x18 => some .f32
  | 0x1C => some .k40
  | 0x29 => some .a64
  | 0x30 => some .i32
  | _ => none

/-- Table 1.10: the conversions the device performs. -/
def convAllowed (src dst : ConvKind) : Bool :=
  match src, dst with
  | .four, .w16 | .four, .f32 | .four, .k40 | .four, .a64 => true
  | .n8, .four | .m8, .four => true
  | .n8, .w16 | .n8, .f32 | .n8, .k40 | .n8, .a64 => true
  | .m8, .w16 | .m8, .f32 | .m8, .k40 | .m8, .a64 => true
  | .w16, .four | .w16, .n8 | .w16, .m8 | .w16, .f32 | .w16, .k40 | .w16, .a64 => true
  | .f32, .four | .f32, .n8 | .f32, .m8 | .f32, .w16 | .f32, .k40 | .f32, .a64 | .f32, .i32 => true
  | .k40, .four | .k40, .n8 | .k40, .m8 | .k40, .w16 | .k40, .f32 | .k40, .a64 => true
  | .a64, .four | .a64, .n8 | .a64, .m8 | .a64, .w16 | .a64, .f32 | .a64, .k40 | .a64, .a64
  | .a64, .i32 => true
  | .i32, .f32 | .i32, .a64 => true
  | _, _ => false

/-- Which conversions accept a rounding code (Table 1.8 names the targets; an entry of Table 1.10 marked R alone is
rounded by RNE only, R60: "the conversions marked and no others"). -/
def roundAccepted (mode : Nat) (src dst : ConvKind) : Bool :=
  match mode with
  | 0 => true
  | 1 =>
    (match src, dst with
     | .k40, _ | .i32, _ | .n8, .w16 | .m8, .w16 => false
     | _, .w16 | _, .f32 => true
     | _, _ => false)
  | 2 =>
    (match dst with
     | .four | .n8 | .m8 => true
     | _ => false)
  | _ => false

/-- The rounding mode of a code (Table 1.8). -/
def rmodeOf (c : Nat) : Option RMode :=
  match c with
  | 0 => some .rne
  | 1 => some .rto
  | 2 => some .sr
  | _ => none

end Sys2Proof.Machine
end

