-- ==== Sys2Proof/Machine/Quant.lean ====
section
/-!
DEFINITION. Blocks, scales, rotation and escapes (02_blocks_scales_rotation.md): the quantiser's procedure on one
block of 32 exact values, the reader of a stored block, and the tensor-level exponents.
-/
namespace Sys2Proof.Machine

open Sys2Proof

/-- Elements of a block (R64). -/
def blockLen : Nat := 32

/-- A block as the quantiser writes it: scale, 32 codes, tag byte (Table 2.2) and outlier entry (Table 1.7), with
what the watch counters of R78 count. -/
structure QBlock where
  scale : Scale
  codes : List Nat
  tag : Nat
  entry : Nat
  /-- Nonzero elements that became zero under a low clamp (R76). -/
  flushed : Nat
  /-- A candidate was over budget (R82). -/
  excess : Bool
  /-- The magnitude of the escaped source value, 0 without an escape (ESC_AMAX of Table 2.5). -/
  escaped : Rat
  /-- Codes written by SR consumed ten bits each (R79). -/
  sat : Bool
  deriving DecidableEq, Repr

/-- CLIP bit of the tag byte. -/
def tagClip : Nat := 1
/-- UFLOW bit of the tag byte. -/
def tagUflow : Nat := 2
/-- ESC bit of the tag byte. -/
def tagEsc : Nat := 4
/-- WIDE bit of the tag byte. -/
def tagWide : Nat := 8

/-- Index and magnitude of the largest element, the lowest index among equals. -/
def argMax (v : List Rat) : Nat × Rat :=
  (v.zipIdx.foldl (fun (b : Nat × Rat) xi => if b.2 < rabs xi.1 then (xi.2, rabs xi.1) else b) (0, 0))

/-- The largest magnitude with element j left out. -/
def maxExcept (v : List Rat) (j : Option Nat) : Rat :=
  v.zipIdx.foldl (fun b xi => if some xi.2 = j then b else if b < rabs xi.1 then rabs xi.1 else b) 0

/-- The escape candidate of a block (R80). -/
def escapeCandidate (ratio : Rat) (v : List Rat) : Option Nat :=
  let (i, a) := argMax v
  let a2 := maxExcept v (some i)
  if 0 < a2 ∧ ratio * a2 ≤ a then some i else none

/-- The scale choice of R74 from the largest remaining magnitude: code, fraction, clamped low, clamped high. -/
def chooseScale (f : EFmt) (sf16 : Bool) (a : Rat) : Nat × Nat × Bool × Bool :=
  let q := a / f.divisor
  let e := ceilLog2 q
  let fr := (Rat.ceil ((q * pow2 (1 - e) - 1) * 16)).toNat
  let c : Int := if sf16 ∧ fr < 16 then e + 126 else e + 127
  let fr := if sf16 ∧ fr < 16 then fr else 0
  if c < 1 then (1, 0, true, false)
  else if 254 < c then (254, if sf16 then 15 else 0, false, true)
  else (c.toNat, fr, false, false)

/-- The codes of an NV block: NV in every element of N8 and M8, the canonical NaN in every element of W16 (R45, R46), zero in the
4-bit class, for which the manual fixes the scale only (DESIGN CHOICE, log entry 62). -/
def nvCodes (f : EFmt) : List Nat :=
  List.replicate 32 (if f = .n8 ∨ f = .m8 then 0x80 else if f = .w16 then fW16.nanCode else 0)

/-- A block whose elements are not values (R40, R46). -/
def nvBlock (f : EFmt) : QBlock := { scale := .nv, codes := nvCodes f, tag := 0, entry := 0, flushed := 0, excess := false, escaped := 0, sat := false }

/-- A zero block (R75). -/
def zeroBlock : QBlock := { scale := .zero, codes := List.replicate 32 0, tag := 0, entry := 0, flushed := 0, excess := false, escaped := 0, sat := false }

/-- R74's procedure on 32 source values: ratio is present when the tensor has an outlier plane, granted answers the
budget of R81, r10 gives each element its ten bits. -/
def quantiseBlock (f : EFmt) (sf16 : Bool) (mode : RMode) (ratio : Option Rat) (granted : Bool) (r10 : Nat → Nat)
    (src : List Val) : QBlock :=
  if src.any Val.nonFinite then nvBlock f
  else
    let v := src.map fun x => (x.rat?).getD 0
    if (argMax v).2 = 0 then zeroBlock
    else
      let j := match ratio with
        | some r => escapeCandidate r v
        | none => none
      let esc := if granted then j else none
      let (c, fr, low, _) := chooseScale f sf16 (maxExcept v j)
      let s := scaleVal c fr
      let conv := src.zipIdx.map fun xi =>
        if some xi.2 = esc then (f.escCode, ConvFlag.none) else convertElement f mode s (r10 xi.2) xi.1
      let excess := j.isSome && !granted
      let clip := conv.any (fun p => p.2 = .clip) || excess
      let fl := if low then conv.countP (fun p => p.2 = .flush) else 0
      let (entry, eclip) := match esc with
        | some i => let w := w16Sat (v.getD i 0); ((i <<< 19) + w.1, w.2)
        | none => (0, false)
      { scale := .num c fr
        codes := conv.map Prod.fst
        tag := (if clip || eclip then tagClip else 0) + (if 0 < fl then tagUflow else 0)
          + (if esc.isSome then tagEsc else 0)
        entry := entry
        flushed := fl
        excess := excess
        escaped := (esc.map fun i => rabs (v.getD i 0)).getD 0
        sat := clip || eclip }

/-- A block of a replay tensor: the tensor scale 2^e in every block, RNE with saturation (R200). -/
def quantiseFixed (f : EFmt) (e : Int) (src : List Val) : QBlock :=
  if src.any Val.nonFinite then nvBlock f
  else
    let c := (max 1 (min 254 (e + 127))).toNat
    let conv := src.map fun x => convertElement f .rne (scaleVal c 0) 0 x
    let clip := conv.any fun p => p.2 = .clip
    { scale := .num c 0, codes := conv.map Prod.fst, tag := if clip then tagClip else 0, entry := 0, flushed := 0, excess := false
      escaped := 0, sat := clip }

/-! ### Reading a stored block (R29, R46, R68, R72, R107) -/

/-- A stored block as its readers see it. -/
inductive RBlock where
  /-- Every element reads as zero. -/
  | zero
  /-- The elements are not values. -/
  | nv
  /-- Codes at a scale, the escaped element's true value by index, and whether an escape failed to match (R29). -/
  | num (c fr : Nat) (codes : List Nat) (esc : Option (Nat × Rat)) (mismatch : Bool)
  deriving DecidableEq, Repr

/-- Classify a stored block: the scale entry, the codes, and the outlier word if the tensor has that plane. With ESC set and an
entry that names an element whose code is no escape, that element keeps the value of its code, the entry is ignored and no event is
made, since R29 and R68 speak of escape codes only (DESIGN CHOICE, log entry 63). The reserved bits of an X24 entry are not looked at
when a block is read: no rule gives a result for them (DESIGN CHOICE, log entry 112). -/
def readBlock (f : EFmt) (sf16 : Bool) (scaleEntry : Nat) (codes : List Nat) (outlier : Option Nat) : RBlock :=
  match decodeScale sf16 scaleEntry with
  | .nv => .nv
  | .zero => .zero
  | .num c fr =>
    if codes.any (fun x => f.decode x = .nv) then .nv
    else
      let escs := (codes.zipIdx.filter fun xi => f.decode xi.1 = .escape).map Prod.snd
      match outlier with
      | none => .num c fr codes none (!escs.isEmpty)
      | some w =>
        if w.testBit 26 then
          let idx := (w >>> 19) % 32
          match fW16.decode (w % 65536) with
          | .fin n m =>
            if escs = [idx] then .num c fr codes (some (idx, if n then -m else m)) false
            else .num c fr codes none (!escs.isEmpty)
          | _ => .nv
        else .num c fr codes none (!escs.isEmpty)

/-- The value of element i of a stored block, without the tensor's pre-scale; none for an NV block. -/
def RBlock.elem (f : EFmt) (b : RBlock) (i : Nat) : Option Rat :=
  match b with
  | .zero => some 0
  | .nv => none
  | .num c fr codes esc _ =>
    match f.decode (codes.getD i 0) with
    | .num x => some (x * scaleVal c fr)
    | _ =>
      match esc with
      | some (j, v) => if i = j then some v else some 0
      | none => some 0

/-! ### Packing (R24, Table 2.1) -/

/-- Bytes of one block in the element plane. -/
def EFmt.blockBytes (f : EFmt) : Nat := 4 * f.width

/-- Bytes of one scale entry. -/
def scaleBytes (sf16 : Bool) : Nat := if sf16 then 2 else 1

/-- The 32 codes of a block as the bytes of its element-plane entry. -/
def packCodes (f : EFmt) (codes : List Nat) : List Byte :=
  leBytes f.blockBytes ((codes.zipIdx.map fun ci => ci.1 <<< (f.width * ci.2)).foldl (· + ·) 0)

/-- The 32 codes held in an element-plane entry. -/
def unpackCodes (f : EFmt) (bs : List Byte) : List Nat :=
  let n := leNat bs
  (List.range 32).map fun i => (n >>> (f.width * i)) % 2 ^ f.width

/-! ### Rotation (R86 to R90) -/

/-- H[i][j] = (−1)^popcount(i AND j) (R86): true where the entry is −1. -/
def hadamardNeg (i j : Nat) : Bool := popcount 8 (i &&& j) % 2 = 1

/-- The rotated segment (R87): sgn i is true where σ[i] is −1. -/
def rotateSeg (n : Nat) (sgn : Nat → Bool) (x : List Rat) : List Rat :=
  (List.range n).map fun j =>
    (List.range n).foldl (fun acc i =>
      let t := x.getD i 0
      if xor (hadamardNeg i j) (sgn i) then acc - t else acc + t) 0

/-- Rotation of a segment of values: one NaN or infinity makes every position non-finite (R87). -/
def rotateVals (n : Nat) (sgn : Nat → Bool) (x : List Val) : List Val :=
  if x.any Val.nonFinite then List.replicate n .nan
  else (rotateSeg n sgn (x.map fun v => (v.rat?).getD 0)).map Val.ofRat

/-- Segment length of a ROT_LEN code (Table 2.5); 0 for none. -/
def rotLen (c : Nat) : Nat := if c = 1 then 32 else if c = 2 then 128 else 0

/-- ρ: log2 of the rotation length (R89). -/
def rotShift (c : Nat) : Nat := if c = 1 then 5 else if c = 2 then 7 else 0

/-- Multiply a value by 2^p, exactly (R72). -/
def Val.scale (p : Int) : Val → Val
  | .fin n m => .fin n (m * pow2 p)
  | v => v

/-! ### Tensor-level exponents (R96 to R98) -/

/-- A history as its 16 W16 magnitudes, its write position and its count of valid entries (Table 2.8). -/
structure Hist where
  head : Nat
  valid : Nat
  entries : List Nat
  deriving DecidableEq, Repr

/-- No entry valid (R99). -/
def Hist.empty : Hist := { head := 0, valid := 0, entries := List.replicate 16 0x7FC0 }

/-- Write one entry (R94). -/
def Hist.push (h : Hist) (e : Nat) : Hist :=
  { head := (h.head + 1) % 16, valid := min (h.valid + 1) 16, entries := h.entries.set h.head e }

/-- The largest entry of a usable history, as a value (R96). -/
def Hist.usable (h : Hist) : Option Rat :=
  if h.valid = 16 then
    let m := h.entries.foldl max 0
    if m = 0 ∨ fW16.maxIdx < m then none else some (fW16.mag m)
  else none

/-- Et by history (R97). -/
def hEt (a : Rat) (g : Nat) : Int := ceilLog2 a + g - 62
/-- Ec by history (R97). -/
def hEc (a : Rat) (g : Nat) : Int := ceilLog2 a + g - 30
/-- Pre-scale by history (R97). -/
def hPre (a : Rat) : Int := max (-1024) (min 1024 (-(ceilLog2 a)))
/-- Pre-scale by bound for an A64 source (Table 2.9). -/
def bPre (et : Int) : Int := max (-1024) (min 1024 (-(et + 63)))

/-- The largest scale a record's SCALE_MAX implies (Table 2.9); a record without scaled blocks implies none. -/
def scaleMaxVal (sf16 : Bool) (c : Nat) : Rat := if c = 0 then 0 else scaleVal c (if sf16 then 15 else 0)

/-- What the bound-mode Et reads of one operand's record. -/
structure BoundArg where
  fmt : EFmt
  sf16 : Bool
  scaleMax : Nat
  escAmax : Nat
  prescale : Int
  deriving DecidableEq, Repr

/-- The largest magnitude number 2^ceil used as "W16 magnitude" (ESC_AMAX). -/
def w16Mag (c : Nat) : Rat := fW16.mag (c % 0x8000)

/-- B-mode Et of a product over nb blocks (Table 2.9); `extra` is a base's part of the bound (R148). -/
def bEt (nb : Nat) (a b : BoundArg) (rho : Nat) (extra : Rat := 0) : Int :=
  let ma := a.fmt.divisor * scaleMaxVal a.sf16 a.scaleMax
  let mb := b.fmt.divisor * scaleMaxVal b.sf16 b.scaleMax
  let bb := (nb : Rat) * (32 * ma + w16Mag a.escAmax) * mb * pow2 (-a.prescale - b.prescale - rho) + extra
  if bb = 0 then 0 else ceilLog2 bb - 62

end Sys2Proof.Machine
end

