-- ==== Sys2Proof/Config.lean ====
section
/-!
DEFINITION. What the manual leaves open and the machine goes on: free values. Each is an opaque constant without a body,
so that no proof can learn a value of it; the assumption log has a row for each.
-/
namespace Sys2Proof.Config

/-- A fresh 64-bit free value for each value of the state's counter `fresh` (log entry 1). -/
opaque freeWord : Nat → BitVec 64

/-- Values of the finishing functions that the manual only bounds (Table 4.9): code of the function, exact input and auxiliary element;
the result is an F32 code (log entry 2). -/
opaque funcValue : Nat → Rat → Rat → BitVec 32

/-- An entry of the normal table as an F32 code, by octave and point (R222; log entry 3). -/
opaque normalTable : Nat → Nat → BitVec 32

/-- The normal draw's magnitude as the interpolation rounds it, an F32 code, by bits [30:0] (R222; log entry 3). -/
opaque normalMag : Nat → BitVec 32

/-- The categorical draw's g as an F32 code, by bits [31:0] (R223; log entry 3). -/
opaque gumbel : Nat → BitVec 32

/-- The silicon stepping (R475; log entry 4). -/
opaque stepping : BitVec 8

/-- Bytes of an ML-DSA-87 signature by the key seed and message (R519; log entry 5). -/
opaque mldsaSign : List Nat → List Nat → Nat → BitVec 8

/-- Bytes of an ML-DSA-87 public key generated from a seed (R517, R519; log entry 5). -/
opaque mldsaPublic : List Nat → Nat → BitVec 8

/-- The 64 bytes of a runtime log entry for an accepted command: its code, its KEY_ID or PACKAGE_ID, and the digest, in an
order no rule states (R518; log entry 41). -/
opaque logEntry : Nat → Nat → List Nat → BitVec 512

/-- The 64 bytes of M0, the measurement of the ROM, whose content no rule gives (R518; log entry 42). -/
opaque romMeasure : Nat → BitVec 8

/-- The bytes that M3 measures of the fuses and the debug enablement, by their values in an order no rule gives (R518; log
entry 42). -/
opaque fuseValue : List Nat → List Nat

/-- Bytes of one token of a sample, which no rule states (R265; log entry 40). -/
opaque tokenBytes : Nat

/-- A setting of a transmitter tap, 0 pre, 1 main or 2 post, in steps from its preset, lies beyond its limit (R330 names no limits; log
entry 127). -/
opaque tapBeyond : Nat → Int → Bool

/-- What the reads of the n-th copy of an engine's banks find wrong: device addresses and the wrong bits of each byte (R288, R441; log entry
130). -/
opaque copyErrors : Nat → List (Nat × Nat)

/-- The MCTP version that the endpoint reports, by byte (R531 names none; log entry 93). -/
opaque mctpVersion : Nat → BitVec 8

end Sys2Proof.Config
end

