-- ==== Sys2Proof/Machine/Approx.lean ====
section
/-!
DEFINITION. Rational approximations of the functions that the manual bounds and does not compute (R154, R222, R223): far closer to
the exact function than any bound of the manual, and used only to keep a free value within its bound (log entry 2).
-/
namespace Sys2Proof.Machine

open Sys2Proof

/-- A rational cut to 100 fractional bits. -/
def cut (x : Rat) : Rat := mkRat (x * pow2 100).floor (2 ^ 100)

/-- ln 2, 1 / ln 2 and 1 / √(2π) to 120 fractional bits. -/
def ln2 : Rat := mkRat 921350637599661305226344307672478454 (2 ^ 120)
def log2e : Rat := mkRat 1917670637729674084946755258930051709 (2 ^ 120)
def rootTau : Rat := mkRat 530285247811860281885121121780411960 (2 ^ 120)

/-- 2^x by its series on the fraction of x. -/
def exp2Near (x : Rat) : Rat :=
  let y := cut ((x - x.floor) * ln2)
  pow2 x.floor * (List.range 40).foldr (fun k a => 1 + cut (y * a / (k + 1 : Nat))) 1

/-- e^x. -/
def expNear (x : Rat) : Rat := exp2Near (cut (x * log2e))

/-- ln x for x > 0, by the series of the area tangent. -/
def lnNear (x : Rat) : Rat :=
  let k := floorLog2 x
  let m := x * pow2 (-k)
  let t := cut ((m - 1) / (m + 1))
  (k : Rat) * ln2 + 2 * t * (List.range 50).foldr (fun n a => mkRat 1 (2 * n + 1) + cut (t * t) * a) 0

/-- σ(x), which differs from 0 or 1 by less than 2^−90 beyond 64. -/
def sigmaNear (x : Rat) : Rat := if 64 ≤ x then 1 else if x ≤ -64 then 0 else 1 / (1 + expNear (-x))

/-- The normal density φ. -/
def densNear (x : Rat) : Rat := if 12 ≤ rabs x then 0 else rootTau * expNear (-(x * x) / 2)

/-- The normal distribution function Φ, which differs from 0 or 1 by less than 2^−50 beyond 8. -/
def cdfNear (x : Rat) : Rat :=
  if 8 ≤ x then 1 else if x ≤ -8 then 0
  else mkRat 1 2 + densNear x * x * (List.range 140).foldr (fun k a => 1 + cut (x * x * a / (2 * k + 3 : Nat))) 1

/-- Φ⁻¹(1 − u) for 0 < u ≤ 1/2, by bisection between lo and hi. -/
def bisect (u : Rat) : Nat → Rat → Rat → Rat
  | 0, lo, _ => lo
  | n + 1, lo, hi =>
    let m := (lo + hi) / 2
    if u ≤ cdfNear (-m) then bisect u n m hi else bisect u n lo m

def quantileNear (u : Rat) : Rat := bisect u 40 0 7

/-- The free value v kept within [lo, hi]: v itself if it lies there, an infinity if the interval passes the largest finite F32 value,
else the middle rounded to F32. -/
def boxed (v : Val) (lo hi : Rat) : Val :=
  let top := pow2 128 - pow2 103
  let mid := fF32.decode (fF32.encodeRNE (.ofRat ((lo + hi) / 2))).1
  match v with
  | .fin n m => let x := if n then -m else m; if lo ≤ x ∧ x ≤ hi then v else mid
  | .inf n => if (!n && decide (top ≤ hi)) || (n && decide (lo ≤ -top)) then v else mid
  | .nan => mid

end Sys2Proof.Machine
end

