-- ==== Sys2Proof/Machine/Streams.lean ====
section
/-!
DEFINITION. Random streams and the bulk cipher mode (06_random_streams.md): keys, counter blocks, the bits of one draw,
and bulk objects. All are functions of the job seed and logical coordinates (R215).
-/
namespace Sys2Proof.Machine

open Sys2Proof

/-- Numbers of k little-endian bytes. -/
def leNats (k n : Nat) : List Nat := (List.range k).map fun i => (n >>> (8 * i)) % 256

/-- K_A(h) from the job seed (R208). -/
def keyA (seed : List Nat) (h : Nat) : List Nat :=
  kmac256 seed (ascii "A" ++ leNats 3 h) 256 (ascii "EDKUKU RNG")

/-- K_F(h) from the job seed and the device's logical coordinates (R208). -/
def keyF (seed : List Nat) (h x y z : Nat) : List Nat :=
  kmac256 seed (ascii "F" ++ leNats 3 h ++ [x % 256, y % 256, z % 256]) 256 (ascii "EDKUKU RNG")

/-- The 64-bit seed check (R208). -/
def seedCheck (seed : List Nat) : Nat := leSum (kmac256 seed (ascii "C") 64 (ascii "EDKUKU RNG"))

/-- Key epoch h of a step (R208). -/
def keyEpoch (step : Nat) : Nat := bits 47 24 step

/-- The addressed counter block (Table 6.1). -/
def addrBlock (stream tensor elem step draw : Nat) : List Nat :=
  leNats 3 stream ++ leNats 3 tensor ++ leNats 6 elem ++ leNats 3 step ++ [draw % 256]

/-- The free-running counter block (Table 6.3). -/
def freeBlock (stream engine lane ctr step draw : Nat) : List Nat :=
  leNats 3 stream ++ leNats 3 (engine * 256 + lane) ++ leNats 6 ctr ++ leNats 3 step ++ [draw % 256]

/-- The 128 output bits of one block, bit i as R211 numbers it. -/
def drawBits (key blk : List Nat) : Nat := leSum (aes256 key blk)

/-- Element position of a logical index in a micro-batch (R213). -/
def elemPos (mb p : Nat) : Nat := mb * 2 ^ 40 + p

/-- Stream of element draws (Table 6.2). -/
def streamElem : Nat := 0x000001
/-- Stream of rotation signs (Table 6.2). -/
def streamRot : Nat := 0xFFFF00
/-- Stream of sample selection (Table 6.2). -/
def streamSample : Nat := 0xFFFF01

/-- Stream ids software may name (R212). -/
def streamSoftware (id : Nat) : Bool := 0x100 ≤ id && id ≤ 0xFFFEFF

/-- SR takes bits [9:0] of the block (R214). -/
def srBits (blk : Nat) : Nat := bits 9 0 blk

/-- Dropout takes bits [31:16] and keeps the element below KEEP (R214). -/
def dropKeep (blk keep : Nat) : Bool := decide (bits 31 16 blk < keep)

/-- Sign flips of a rotated segment: bit i of the block is σ[i] (R88). -/
def rotSigns (seed : List Nat) (rotKey step : Nat) (byStep : Bool) (seg : Nat) : Nat → Bool :=
  let h := if byStep then keyEpoch step else 0
  let blk := drawBits (keyA seed h) (addrBlock streamRot rotKey seg (if byStep then step % 2 ^ 24 else 0) 0)
  fun i => blk.testBit i

/-- Entry (k, j) of the normal table (R222): an F32 near Φ⁻¹(1 − u) at u = 2^(−k−1)(1 + j/32), the largest not above Φ⁻¹(1 − 2^−33);
past the last point of octave 1 it is Φ⁻¹(0.5) = 0. The manual's bound on z leaves an entry less than 2^−13 (log entry 3). -/
def normalEntry (k j : Nat) : Rat :=
  if j = 32 ∧ k = 1 then 0
  else
    let (k, j) := if j = 32 then (k - 1, 0) else (k, j)
    let q := quantileNear (pow2 (-(k : Int) - 1) * mkRat (32 + j) 32)
    let v := boxed (fF32.decode (Config.normalTable k j).toNat) (q - pow2 (-13)) (if k = 32 ∧ j = 0 then q else q + pow2 (-13))
    min ((v.rat?).getD 0) (quantileNear (pow2 (-33)))

/-- |z| of a normal draw from its bits [30:0] (R222): linear interpolation between two entries of the table, rounded to within an F32
unit of the result's range, and never beyond the largest entry. -/
def normalAbs (b : Nat) : Val :=
  let u := mkRat (2 * b + 1) (2 ^ 33)
  let k := (-(floorLog2 u) - 1).toNat
  let x := (u * pow2 (k + 1) - 1) * 32
  let j := x.floor.toNat
  let t0 := normalEntry k j
  let z := t0 + (x - x.floor) * (normalEntry k (j + 1) - t0)
  boxed (fF32.decode (Config.normalMag b).toNat) (max 0 (z - pow2 (-21))) (min (z + pow2 (-21)) (quantileNear (pow2 (-33))))

/-- A normal draw's signed deviate as a value: the sign is bit 31 (R222). -/
def normalZ (blk : Nat) : Val := .fin (blk.testBit 31) (rabs (((normalAbs (bits 30 0 blk)).rat?).getD 0))

/-- g_j of a categorical draw, an F32 within 2^−15 × max(1, |g|) of −ln(−ln u) (R223). -/
def gumbelG (blk : Nat) : Rat :=
  let b := bits 31 0 blk
  let g := -lnNear (-lnNear (mkRat (2 * b + 1) (2 ^ 33)))
  let e := pow2 (-15) * max 1 (rabs g)
  ((boxed (fF32.decode (Config.gumbel b).toNat) (g - e) (g + e)).rat?).getD g

/-! ### Bulk objects (R228 to R232) -/

/-- K_enc of an object (R229). -/
def bulkEncKey (secret nonce : List Nat) : List Nat :=
  kmac256 secret (ascii "E" ++ nonce) 256 (ascii "EDKUKU BULK")

/-- K_mac of an object (R229), or the seed-derived one without a secret (R232). -/
def bulkMacKey (secret nonce : List Nat) : List Nat :=
  kmac256 secret (ascii "M" ++ nonce) 256 (ascii "EDKUKU BULK")

/-- Body bytes under the keystream: block j is AES of the counter j (R229). -/
def bulkCrypt (kEnc : List Nat) (body : List Nat) : List Nat :=
  let ks := (List.range (ceilDiv body.length 16)).flatMap fun j => aes256 kEnc (leNats 16 j)
  List.zipWith (· ^^^ ·) body ks

/-- Split into chunks of n bytes; fuel bounds their number. -/
def chunksOf (n : Nat) : Nat → List Nat → List (List Nat)
  | 0, _ => []
  | k + 1, l => if l.isEmpty then [] else l.take n :: chunksOf n k (l.drop n)

/-- The object tag of R230 over header bytes 0–31 and the chunk tags. -/
def bulkTag (kMac hdr32 body : List Nat) : List Nat :=
  let cs := chunksOf 1048576 (body.length / 1048576 + 1) body
  let ts := cs.zipIdx.map fun c => kmac256 kMac (leNats 8 c.2 ++ c.1) 256 (ascii "EDKUKU CHUNK")
  kmac256 kMac (hdr32 ++ ts.flatten) 256 (ascii "EDKUKU OBJECT")

/-- Header bytes 0–31 of an object (Table 6.7). -/
def bulkHeader (kind : Nat) (mac enc : Bool) (keyId bytes : Nat) (nonce : List Nat) : List Nat :=
  [1, 8, kind % 16, b2n enc + 2 * b2n mac] ++ leNats 4 keyId ++ leNats 8 bytes ++ nonce

/-- A whole object: header, tag or zeros, body. -/
def bulkSeal (kind : Nat) (mac enc : Bool) (keyId : Nat) (secret nonce body : List Nat) : List Nat :=
  let ct := if enc then bulkCrypt (bulkEncKey secret nonce) body else body
  let h := bulkHeader kind mac enc keyId body.length nonce
  let tag := if mac then bulkTag (bulkMacKey secret nonce) h ct else List.replicate 32 0
  h ++ tag ++ ct

/-- R231: the plaintext of an object whose version, kind, key and tag are good; none rejects it. `plain` is the
seed-derived secret of an object without one (R232). -/
def bulkOpen (kinds : List Nat) (secrets : List (Nat × List Nat)) (plain : List Nat) (obj : List Nat) :
    Option (List Nat) :=
  let h := obj.take 32
  let ver := h.getD 0 0
  let kind := h.getD 2 0 % 16
  let enc := (h.getD 3 0).testBit 0
  let mac := (h.getD 3 0).testBit 1
  let keyId := leSum ((h.drop 4).take 4)
  let n := leSum ((h.drop 8).take 8)
  let nonce := (h.drop 16).take 16
  let tag := (obj.drop 32).take 32
  let body := (obj.drop 64).take n
  let secret? := if keyId = 0 then (if enc then none else some plain) else (secrets.find? (·.1 = keyId)).map Prod.snd
  match secret? with
  | none => none
  | some secret =>
    if ver = 0 ∨ 1 < ver ∨ !kinds.contains kind ∨ body.length ≠ n then none
    else if mac ∧ bulkTag (bulkMacKey secret nonce) h body ≠ tag then none
    else some (if enc then bulkCrypt (bulkEncKey secret nonce) body else body)

end Sys2Proof.Machine
end

