-- ==== Sys2Proof/Machine/Arith.lean ====
section
/-!
DEFINITION. The arithmetic of a product, of the finishing stage and of the update programs, apart from where operands
and results lie: feeders and slices (03_engine_array.md), promotion, accumulation and the finishing stage
(04_accumulation_reduction.md), Cyley replay (05) and the update programs (07).
-/
namespace Sys2Proof.Machine

open Sys2Proof

/-! ### F32 arithmetic on values -/

/-- Round to F32 by RNE (R34). -/
def f32Round (v : Val) : Val := fF32.decode (fF32.encodeRNE v).1

/-- Exact product of two values, IEEE rules for signs, infinities and NaN. -/
def Val.mul (a b : Val) : Val :=
  match a, b with
  | .nan, _ | _, .nan => .nan
  | .inf n, .fin m x => if x = 0 then .nan else .inf (xor n m)
  | .fin m x, .inf n => if x = 0 then .nan else .inf (xor n m)
  | .inf n, .inf m => .inf (xor n m)
  | .fin n x, .fin m y => .fin (xor n m) (x * y)

/-- Exact sum of two values; an exact zero sum of unlike signs is +0. -/
def Val.add (a b : Val) : Val :=
  match a, b with
  | .nan, _ | _, .nan => .nan
  | .inf n, .inf m => if n = m then .inf n else .nan
  | .inf n, _ => .inf n
  | _, .inf n => .inf n
  | .fin n x, .fin m y =>
    if n = m then .fin n (x + y)
    else
      let r := (if n then -x else x) + (if m then -y else y)
      .ofRat r

/-- Negation. -/
def Val.negate : Val → Val
  | .nan => .nan
  | .inf n => .inf (!n)
  | .fin n x => .fin (!n) x

/-- x + y by F32 RNE. -/
def fadd (a b : Val) : Val := f32Round (a.add b)
/-- x × y by F32 RNE. -/
def fmul (a b : Val) : Val := f32Round (a.mul b)
/-- x × y + z with one rounding. -/
def ffma (a b c : Val) : Val := f32Round ((a.mul b).add c)

/-- x > y as F32 compares; NaN compares false. -/
def Val.gt (a b : Val) : Bool :=
  match a, b with
  | .nan, _ | _, .nan => false
  | .inf n, .inf m => !n && m
  | .inf n, .fin _ _ => !n
  | .fin _ _, .inf m => m
  | .fin n x, .fin m y => decide ((if m then -y else y) < (if n then -x else x))

/-- F32 code of a value. -/
def f32Code (v : Val) : Nat := (fF32.encodeRNE v).1
/-- Value of an F32 code. -/
def f32Val (c : Nat) : Val := fF32.decode c

/-! ### Feeders, alignment and slices (R106 to R114) -/

/-- An operand block as the feeder sends it: integers on a common grid, that grid's exponent, the scale's multiplier
and exponent (Table 4.1), the escape for the side path, and the flags. -/
structure FBlock where
  nv : Bool
  mismatch : Bool
  imgs : List Int
  /-- −q, or Emax − Z − G (R109). -/
  grid : Int
  mu : Nat
  /-- c − 127 or c − 131, less the pre-scale. -/
  exp : Int
  esc : Option (Nat × Rat)
  deriving DecidableEq, Repr

/-- Exponent offset Z (Table 3.3). -/
def EFmt.alignZ : EFmt → Int
  | .n8 => 10
  | .m8 => 17
  | _ => 134

/-- Guard bits G (Table 3.3). -/
def EFmt.alignG : EFmt → Nat
  | .n8 => 3
  | .m8 => 4
  | _ => 7

/-- Slices of a width class (R112). -/
def EFmt.slices : EFmt → Nat
  | .n8 | .m8 => 2
  | .w16 => 4
  | _ => 1

/-- Significand and exponent field, the field taken as 1 for subnormals (R109). -/
def EFmt.sigExp (f : EFmt) (idx : Nat) : Nat × Nat :=
  let fb := f.float.fbits
  let e := idx >>> fb
  let fr := idx % 2 ^ fb
  if e = 0 then (fr, 1) else (2 ^ fb + fr, e)

/-- The block-aligned integers of an 8- or 16-bit block whose elements at or beyond the mask are zero codes, and the
grid exponent (R109). -/
def alignBlock (f : EFmt) (codes : List Nat) : List Int × Int :=
  let mb := f.float.mbits
  let se := codes.map fun c => (c.testBit mb, f.sigExp (c % 2 ^ mb))
  let emax := se.foldl (fun m x => max m x.2.2) 0
  let g := f.alignG
  (se.map fun x =>
      let v : Nat := (x.2.1 <<< g) >>> (emax - x.2.2)
      if x.1 then -(v : Int) else (v : Int),
    (emax : Int) - f.alignZ - g)

/-- The integer image of a 4-bit-class code; an escape is image 0 (R84, R107). -/
def EFmt.image (f : EFmt) (c : Nat) : Int :=
  match f.decode c with
  | .num x => (x * pow2 f.imageExp).floor
  | _ => 0

/-- Codes with those at or beyond the mask replaced by the zero code (R109, R126). -/
def maskCodes (k : Nat) (codes : List Nat) : List Nat := codes.zipIdx.map fun c => if c.2 < k then c.1 else 0

/-- What the feeder makes of a stored block (Table 3.2): k elements in use, p the tensor's pre-scale. -/
def feedBlock (f : EFmt) (sf16 : Bool) (k : Nat) (p : Int) (b : RBlock) : FBlock :=
  match b with
  | .zero => { nv := false, mismatch := false, imgs := List.replicate 32 0, grid := 0, mu := 0, exp := 0, esc := none }
  | .nv => { nv := true, mismatch := false, imgs := List.replicate 32 0, grid := 0, mu := 0, exp := 0, esc := none }
  | .num c fr codes esc mism =>
    let codes := maskCodes k codes
    let (imgs, grid) :=
      if f.fourBit then (codes.map f.image, -(f.imageExp : Int)) else alignBlock f codes
    { nv := false, mismatch := mism, imgs := imgs, grid := grid
      mu := if sf16 then 16 + fr else 1
      exp := (if sf16 then (c : Int) - 131 else (c : Int) - 127) - p
      esc := match esc with
        | some (i, v) => if i < k then some (i, v * pow2 (-p)) else none
        | none => none }

/-- Slice j of a block-aligned integer of S slices (R112): the top slice signed, the others unsigned. -/
def sliceOf (s j : Nat) (i : Int) : Int :=
  let n := twos (4 * s) i
  if j + 1 = s then sext 4 (n >>> (4 * j)) else ((n >>> (4 * j)) % 16 : Nat)

/-- A20 band sum of one slice pass (R104). -/
def bandSum (s i j : Nat) (str sta : FBlock) : Int :=
  if s = 1 then (List.zipWith (· * ·) str.imgs sta.imgs).foldl (· + ·) 0
  else (List.zipWith (fun a w => sliceOf s j a * sliceOf s i w) str.imgs sta.imgs).foldl (· + ·) 0

/-- The exact contribution X of a block pair in pass (i, j) (R135). -/
def contribution (s i j : Nat) (rho : Nat) (str sta : FBlock) : Rat :=
  let x : Rat := ((str.mu * sta.mu * 16 ^ (i + j) : Nat) : Rat) * ((bandSum s i j str sta : Int) : Rat)
    * pow2 (str.exp + str.grid + sta.exp + sta.grid - rho)
  let v : Rat :=
    if i + 1 = s ∧ j + 1 = s then
      match str.esc with
      | some (k, e) => e * ((sta.imgs.getD k 0 : Int) : Rat) * (sta.mu : Rat) * pow2 (sta.exp + sta.grid)
      | none => 0
    else 0
  x + v * pow2 (-(rho : Int))

/-! ### Accumulation (R136 to R139, R149) -/

/-- One A64 element while it accumulates. -/
structure AccRun where
  v : Int
  lost : Nat
  ovf : Bool
  deriving DecidableEq, Repr

/-- Limits of an A64 element. -/
def a64Max : Int := 2 ^ 63 - 1
/-- Lower limit. -/
def a64Min : Int := -(2 ^ 63)

/-- Keep a sum within A64, noting an overflow (R139, R149). -/
def clampA64 (x : Int) : Int × Bool := if a64Max < x then (a64Max, true) else if x < a64Min then (a64Min, true) else (x, false)

/-- Round one contribution and add it to a running sum (R136, R138, R139). -/
def promote (et : Int) (a : AccRun) (x : Rat) : AccRun :=
  let r := rneInt (x * pow2 (-et))
  let c := clampA64 r
  let t := clampA64 (a.v + c.1)
  { v := t.1, lost := a.lost + (if r = 0 ∧ x ≠ 0 then 1 else 0), ovf := a.ovf || c.2 || t.2 }

/-- One pass's column: the bands add into a running sum that starts at zero and enters the set at the drain (R116,
R139). -/
def passColumn (s i j rho : Nat) (et : Int) (acc : AccRun) (str sta : List FBlock) : AccRun :=
  let run := (List.zip str sta).foldl (fun a p => promote et a (contribution s i j rho p.1 p.2))
    { v := 0, lost := 0, ovf := false }
  let t := clampA64 (acc.v + run.v)
  { v := t.1, lost := acc.lost + run.lost, ovf := acc.ovf || run.ovf || t.2 }

/-- Re-express an A64 element at another tile exponent (R143, R60): element, lost, overflow. -/
def reexpress (from_ to_ : Int) (v : Int) : Int × Nat × Bool :=
  let r := rneInt ((v : Rat) * pow2 (from_ - to_))
  let c := clampA64 r
  (c.1, if r = 0 ∧ v ≠ 0 then 1 else 0, c.2)

/-- Slice passes of one K-tile in order (R113): i from the top down, within it j from the top down. -/
def slicePasses (s : Nat) : List (Nat × Nat) :=
  (List.range s).reverse.flatMap fun i => (List.range s).reverse.map fun j => (i, j)

/-- Passes of a product: K-tile, i, j. -/
def passList (klen s : Nat) : List (Nat × Nat × Nat) :=
  (List.range (ceilDiv klen 256)).flatMap fun t => (slicePasses s).map fun p => (t, p.1, p.2)

/-! ### Cyley replay (R200, R201) -/

/-- Truncate toward zero to F32. -/
def f32Trunc (x : Rat) : Val :=
  let lo := min (fF32.floorIdx (rabs x)) fF32.maxIdx
  .fin (decide (x < 0)) (fF32.mag lo)

/-- A replay product element: groups of 16 along ascending k (R201). -/
def replayElement (ab : List (Rat × Rat)) : Val :=
  let groups := (List.range (ceilDiv ab.length 16)).map fun g => (ab.drop (16 * g)).take 16
  groups.foldl (fun acc g => fadd acc (f32Trunc ((g.map fun p => p.1 * p.2).foldl (· + ·) 0))) (.fin false 0)

/-! ### The finishing stage (R151 to R157) -/

/-- Finishing functions that read the auxiliary tile (Table 4.9). -/
def funcBackward (c : Nat) : Bool := 0x10 ≤ c && c ≤ 0x14

/-- Function codes of Table 4.9. -/
def funcKnown (c : Nat) : Bool := c ≤ 6 || funcBackward c

/-- The derivative of a backward form at aux (Table 4.9), as near as the approximations come. -/
def slopeNear (c : Nat) (a : Rat) : Rat :=
  let s := sigmaNear a
  match c with
  | 0x11 => cdfNear a + a * densNear a
  | 0x12 => if 64 ≤ a then 1 else if a ≤ -64 then 0 else s * (1 + a * (1 - s))
  | 0x13 => let t := 2 * sigmaNear (2 * a) - 1; 1 - t * t
  | _ => s * (1 - s)

/-- The derivative of a backward form at aux is negative (R154). -/
def slopeNeg (c : Nat) (a : Rat) : Bool :=
  match c with
  | 0x11 => decide (a ≤ -8) || decide (slopeNear c a < 0)
  | 0x12 => decide (a ≤ -64) || decide (slopeNear c a < 0)
  | _ => false

/-- y of a bounded function at finite x and aux, and the bound on the error of its F32 result (Table 4.9). -/
def funcNear (c : Nat) (x a : Rat) : Rat × Rat :=
  let rel := fun (y : Rat) => (y, pow2 (-15) * max 1 (rabs y))
  match c with
  | 0x02 => rel (x * cdfNear x)
  | 0x03 => rel (if x ≤ -64 then 0 else x * sigmaNear x)
  | 0x04 => (2 * sigmaNear (2 * x) - 1, pow2 (-17))
  | 0x05 => (sigmaNear x, pow2 (-17))
  | 0x06 => let y := if x ≤ -200 then 0 else exp2Near (min x 200); (y, pow2 (-20) * max 1 y)
  | 0x13 | 0x14 => (x * slopeNear c a, pow2 (-14) * rabs x)
  | _ => let f := slopeNear c a; (x * f, pow2 (-14) * rabs x * max 1 (rabs f))

/-- A bounded function's F32 result (R154): free within the bound, which is taken 2^−30 wider than the table's for the approximation's
sake (log entry 2). -/
def funcFree (c : Nat) (x a : Rat) : Val :=
  let (y, e) := funcNear c x a
  let e := e * (1 + pow2 (-30))
  boxed (f32Val (Config.funcValue c x a).toNat) (y - e) (y + e)

/-- FUNC of a value, aux being the matching element of the auxiliary tile (R154): exact for NONE, RELU and RELU_BWD;
canonical NaN for NaN; the limit for an infinity where there is one; else the bounded value. The manual gives a limit without a sign of
zero: GELU and SILU come to −0 from below, the others to +0 (DESIGN CHOICE, log entry 126). -/
def finishFunc (c : Nat) (x aux : Val) : Val :=
  match c with
  | 0x00 => x
  | 0x01 =>
    (match x with
     | .nan => .nan
     | .inf n => if n then .fin false 0 else .inf false
     | .fin n m => if n then .fin false 0 else .fin false m)
  | 0x10 => if x = .nan ∨ aux = .nan then .nan else if aux.gt (.fin false 0) then x else .fin false 0
  | 0x02 | 0x03 =>
    (match x with
     | .nan => .nan
     | .inf n => if n then .fin true 0 else .inf false
     | .fin _ _ => funcFree c ((x.rat?).getD 0) 0)
  | 0x04 =>
    (match x with
     | .nan => .nan
     | .inf n => .fin n 1
     | .fin _ _ => funcFree c ((x.rat?).getD 0) 0)
  | 0x05 =>
    (match x with
     | .nan => .nan
     | .inf n => if n then .fin false 0 else .fin false 1
     | .fin _ _ => funcFree c ((x.rat?).getD 0) 0)
  | 0x06 =>
    (match x with
     | .nan => .nan
     | .inf n => if n then .fin false 0 else .inf false
     | .fin _ _ => funcFree c ((x.rat?).getD 0) 0)
  | 0x11 | 0x12 | 0x13 | 0x14 =>
    (match x, aux with
     | .nan, _ | _, .nan => .nan
     | .fin _ _, .fin _ _ => funcFree c ((x.rat?).getD 0) ((aux.rat?).getD 0)
     | .fin _ _, .inf n => if (c = 0x11 ∨ c = 0x12) ∧ !n then x else .fin false 0
     | .inf m, .fin _ _ => .inf (xor m (slopeNeg c ((aux.rat?).getD 0)))
     | .inf m, .inf n => if (c = 0x11 ∨ c = 0x12) ∧ !n then .inf m else .nan)
  | _ => x

/-- A row record (R155); values are F32. -/
structure RowRec where
  rmax : Val
  esum : Val
  rsum : Val
  argmax : Nat
  deriving DecidableEq, Repr

/-- A fresh row record. -/
def RowRec.fresh : RowRec := { rmax := .inf true, esum := .fin false 0, rsum := .fin false 0, argmax := 0 }

/-- One column of the row statistics procedure (R155). -/
def RowRec.step (r : RowRec) (x : Val) (col : Nat) : RowRec :=
  if x = .nan ∨ r.rmax = .nan then { r with rmax := .nan, esum := .nan, rsum := .nan }
  else if x.gt r.rmax then
    { rmax := x
      esum := fadd (fmul r.esum (finishFunc 6 (fadd r.rmax x.negate) (.fin false 0))) (.fin false 1)
      rsum := fadd r.rsum x, argmax := col }
  else
    { r with esum := fadd r.esum (finishFunc 6 (fadd x r.rmax.negate) (.fin false 0)), rsum := fadd r.rsum x }

/-- The 16 bytes of a row record. -/
def RowRec.bytes (r : RowRec) : List Byte :=
  leBytes 4 (f32Code r.rmax) ++ leBytes 4 (f32Code r.esum) ++ leBytes 4 (f32Code r.rsum) ++ leBytes 4 r.argmax

/-- A row record read from memory (R156). -/
def RowRec.ofBytes (bs : List Byte) : RowRec :=
  { rmax := f32Val (fieldLE bs 0 4), esum := f32Val (fieldLE bs 4 4), rsum := f32Val (fieldLE bs 8 4)
    argmax := fieldLE bs 12 4 }

/-! ### Update programs (R253 to R255, R202) -/

/-- Integer square root by bisection on bits; fuel is the number of result bits. -/
def isqrtBits : Nat → Nat → Nat → Nat
  | 0, _, r => r
  | b + 1, n, r =>
    let c := r + 2 ^ b
    isqrtBits b n (if c * c ≤ n then c else r)

/-- The largest r with r² ≤ n. -/
def isqrt (n : Nat) : Nat := isqrtBits (Nat.log2 n / 2 + 1) n 0

/-- RNE of √x to F32 for x > 0: x is scaled so that the root keeps at least 60 bits and an inexact root is moved off
every tie by half a unit below. -/
def f32Sqrt (x : Rat) : Val :=
  let e := floorLog2 x / 2
  let k : Int := 64 - e
  let y := x * pow2 (2 * k)
  let n := y.floor.toNat
  let r := isqrt n
  let exact := decide (((r * r : Nat) : Rat) = y)
  let v : Rat := ((2 * r + (if exact then 0 else 1) : Nat) : Rat) * pow2 (-k - 1)
  f32Round (.fin false v)

/-- A result with the guard of R254: an overflow from finite operands saturates and is counted. -/
structure UVal where
  v : Val
  sat : Nat
  deriving DecidableEq, Repr

/-- Round to F32 under the guard (R254); fin says that every operand was finite. -/
def guardF32 (fin : Bool) (x : Val) : UVal :=
  match fF32.encodeRNE x with
  | (c, _, ovf) =>
    if ovf && fin then { v := .fin x.neg (fF32.mag fF32.maxIdx), sat := 1 } else { v := fF32.decode c, sat := 0 }

/-- Round to K40 under the guard (R254). -/
def guardK40 (fin : Bool) (x : Val) : UVal :=
  match fK40.encodeRNE x with
  | (c, _, ovf) =>
    if ovf && fin then { v := .fin x.neg (fK40.mag fK40.maxIdx), sat := 1 } else { v := fK40.decode c, sat := 0 }

/-- Every value finite. -/
def allFin (l : List Val) : Bool := l.all fun v => !v.nonFinite

/-- Guarded F32 product. -/
def gmul (a b : Val) : UVal := guardF32 (allFin [a, b]) (a.mul b)
/-- Guarded F32 sum. -/
def gadd (a b : Val) : UVal := guardF32 (allFin [a, b]) (a.add b)
/-- Guarded F32 fused multiply-add. -/
def gfma (a b c : Val) : UVal := guardF32 (allFin [a, b, c]) ((a.mul b).add c)

/-- gsqrt (R254). -/
def gsqrt (x : Val) : Val :=
  match x with
  | .nan => .nan
  | .inf n => if n then .fin false 0 else .inf false
  | .fin n m => if n ∨ m = 0 then .fin false 0 else f32Sqrt m

/-- gdiv (R254). -/
def gdiv (a b : Val) : UVal :=
  match a, b with
  | .nan, _ | _, .nan => { v := .nan, sat := 0 }
  | .inf _, .inf _ => { v := .nan, sat := 0 }
  | .inf n, .fin m y => if y = 0 then { v := .fin false 0, sat := 0 } else { v := .inf (xor n m), sat := 0 }
  | .fin n _, .inf m => { v := .fin (xor n m) 0, sat := 0 }
  | .fin n x, .fin m y =>
    if y = 0 then { v := .fin false 0, sat := 0 } else guardF32 true (.fin (xor n m) (x / y))

/-- The F32 words of an update descriptor (Table 7.11), as codes. -/
structure UpdDesc where
  kind : Nat
  lr : Nat
  b1 : Nat
  b2 : Nat
  eps : Nat
  wd : Nat
  gscale : Nat
  clip : Nat
  deriving DecidableEq, Repr

/-- b^t in F32 by binary powering in ascending bit order of t (R255); fuel is the bits of t. -/
def f32Pow : Nat → Nat → Val → Val → Val
  | 0, _, _, acc => acc
  | k + 1, t, b, acc =>
    f32Pow k (t / 2) (fmul b b) (if t % 2 = 1 then fmul acc b else acc)

/-- Constants computed once per tensor (R255). -/
structure UpdConst where
  c1 : Val
  c2 : Val
  bc1 : Val
  bc2 : Val
  clipf : Val
  deriving DecidableEq, Repr

/-- One. -/
def vOne : Val := .fin false 1
/-- Plus zero. -/
def vZero : Val := .fin false 0

/-- c1, c2, bc1, bc2 and clipf of a tensor at t = step + 1 (R255). -/
def updConst (d : UpdDesc) (norm : Val) (t : Nat) : UpdConst :=
  let b1 := f32Val d.b1
  let b2 := f32Val d.b2
  let clip := f32Val d.clip
  let inv := fun b => (gdiv vOne (fadd vOne (f32Pow 48 t b vOne).negate)).v
  { c1 := fadd vOne b1.negate, c2 := fadd vOne b2.negate, bc1 := inv b1, bc2 := inv b2
    clipf :=
      if clip = vZero ∨ norm = vZero then vOne
      else
        let q := (gdiv clip norm).v
        if q.gt vOne then vOne else q }

/-- What one element of an update writes. -/
structure UpdOut where
  w : Val
  m : Val
  v : Val
  sat : Nat
  deriving DecidableEq, Repr

/-- The two K40 lines shared by ADAMW and SGD (R255): decoupled decay, then the step along u. -/
def updMaster (d : UpdDesc) (w u : Val) : UVal :=
  let lr := f32Val d.lr
  let dec := guardK40 (allFin [lr, f32Val d.wd]) (lr.mul (f32Val d.wd))
  let w1 := guardK40 (allFin [w, dec.v]) (w.add (dec.v.mul w).negate)
  let w2 := guardK40 (allFin [w1.v, u]) (w1.v.add (lr.mul u).negate)
  { v := w2.v, sat := dec.sat + w1.sat + w2.sat }

/-- ADAMW for one element (R255). -/
def adamw (d : UpdDesc) (k : UpdConst) (w m v grad : Val) : UpdOut :=
  let g0 := gmul grad (f32Val d.gscale)
  let g := gmul g0.v k.clipf
  let c1g := gmul k.c1 g.v
  let m' := gfma (f32Val d.b1) m c1g.v
  let gg := gmul g.v g.v
  let c2g := gmul k.c2 gg.v
  let v' := gfma (f32Val d.b2) v c2g.v
  let mh := gmul m'.v k.bc1
  let vh := gmul v'.v k.bc2
  let den := gadd (gsqrt vh.v) (f32Val d.eps)
  let u := gdiv mh.v den.v
  let w' := updMaster d w u.v
  { w := w'.v, m := m'.v, v := v'.v
    sat := g0.sat + g.sat + c1g.sat + m'.sat + gg.sat + c2g.sat + v'.sat + mh.sat + vh.sat + den.sat + u.sat + w'.sat }

/-- SGD with momentum for one element (R255). -/
def sgd (d : UpdDesc) (k : UpdConst) (w m v grad : Val) : UpdOut :=
  let g0 := gmul grad (f32Val d.gscale)
  let g := gmul g0.v k.clipf
  let m' := gfma (f32Val d.b1) m g.v
  let w' := updMaster d w m'.v
  { w := w'.v, m := m'.v, v := v, sat := g0.sat + g.sat + m'.sat + w'.sat }

/-- Cyley AdamW for one element, masters in F32 (R202): moments; the step with the root taken before epsilon is added;
then decay as a separate multiplication. -/
def cyleyAdamw (d : UpdDesc) (k : UpdConst) (w m v grad : Val) : UpdOut :=
  let g0 := gmul grad (f32Val d.gscale)
  let g := gmul g0.v k.clipf
  let c1g := gmul k.c1 g.v
  let m0 := gmul (f32Val d.b1) m
  let m' := gadd m0.v c1g.v
  let gg := gmul g.v g.v
  let c2g := gmul k.c2 gg.v
  let v0 := gmul (f32Val d.b2) v
  let v' := gadd v0.v c2g.v
  let mh := gmul m'.v k.bc1
  let vh := gmul v'.v k.bc2
  let den := gadd (gsqrt vh.v) (f32Val d.eps)
  let u := gdiv mh.v den.v
  let st := gmul (f32Val d.lr) u.v
  let w1 := gadd w st.v.negate
  let dk := gmul (f32Val d.lr) (f32Val d.wd)
  let keep := gadd vOne dk.v.negate
  let w2 := gmul w1.v keep.v
  { w := w2.v, m := m'.v, v := v'.v
    sat := g0.sat + g.sat + c1g.sat + m0.sat + m'.sat + gg.sat + c2g.sat + v0.sat + v'.sat + mh.sat + vh.sat + den.sat
      + u.sat + st.sat + w1.sat + dk.sat + keep.sat + w2.sat }

end Sys2Proof.Machine
end

