-- ==== Sys2Proof/Machine/Flags.lean ====
section
/-!
DEFINITION. Event codes with their severities and ACTION bits (Table 18.3), status codes (Table 18.4) and the causes of
abandoned attempts (Tables 7.12, 7.16, R472).
-/
namespace Sys2Proof.Machine

open Sys2Proof

/-! ### Event codes (R570) -/
namespace Ev
def startStepFailed : Nat := 0x1001
def startAborted : Nat := 0x1002
def imageRejected : Nat := 0x1003
def alternateForm : Nat := 0x1004
def refclkLost : Nat := 0x1005
def healthReset : Nat := 0x1006
def faultVerdict : Nat := 0x2001
def faultUnresolved : Nat := 0x2002
def fallback : Nat := 0x2003
def storm : Nat := 0x2004
def ladderExhausted : Nat := 0x2005
def recipe : Nat := 0x2006
def silence : Nat := 0x2007
def a64Retry : Nat := 0x2008
def a64Saturated : Nat := 0x2009
def escapeMismatch : Nat := 0x200A
def historyRefill : Nat := 0x200B
def seedMismatch : Nat := 0x200C
def categoricalNan : Nat := 0x200D
def bulkRedirect : Nat := 0x200E
def tagFailure : Nat := 0x200F
def exportRefused : Nat := 0x2010
def addSaturated : Nat := 0x2011
def updateNonfinite : Nat := 0x2012
def abandoned : Nat := 0x3001
def jobStopped : Nat := 0x3002
def queueStopped : Nat := 0x3003
def sampleRejected : Nat := 0x3004
def queueConfig : Nat := 0x3005
def bankDenied : Nat := 0x4001
def uncorrectable : Nat := 0x4002
def unwritten : Nat := 0x4003
def scrubRemap : Nat := 0x4004
def bankDegraded : Nat := 0x4005
def bankFailed : Nat := 0x4006
def pageRetired : Nat := 0x4007
def thermalLevel : Nat := 0x4008
def protectionLost : Nat := 0x4009
def ddrOffline : Nat := 0x400A
def farError : Nat := 0x400B
def quarantine : Nat := 0x5001
def peerDiffers : Nat := 0x5002
def portDown : Nat := 0x5003
def portNarrowed : Nat := 0x5004
def txnRejected : Nat := 0x5005
def neighbourFailed : Nat := 0x5006
def linkFault : Nat := 0x5007
def castNotFormed : Nat := 0x5008
def interval : Nat := 0x6001
def drainGivenUp : Nat := 0x6002
def correlated : Nat := 0x6003
def exportDone : Nat := 0x6004
def restored : Nat := 0x6005
def takeover : Nat := 0x7001
def noSpare : Nat := 0x7002
def memberFailed : Nat := 0x7003
def orderRejected : Nat := 0x7004
def unwitnessed : Nat := 0x7005
def rehearsalFailed : Nat := 0x7006
def expulsion : Nat := 0x7007
def shield : Nat := 0x7008
def exportFallback : Nat := 0x7009
def unitState : Nat := 0x8001
def engineWatchdog : Nat := 0x8002
def requestDropped : Nat := 0x8003
def powerLimit : Nat := 0x8004
def cap : Nat := 0x8005
def sensorFault : Nat := 0x8006
def vinRange : Nat := 0x8007
def mcRestart : Nat := 0x8008
def slotIdChanged : Nat := 0x8009
def badAccess : Nat := 0x9001
def holeWrite : Nat := 0x9002
def ideInsecure : Nat := 0x9003
def mailboxAccepted : Nat := 0xA001
def testResult : Nat := 0xA002
def svnRaised : Nat := 0xA003
def writeDiscarded : Nat := 0xB001
end Ev

/-- Severity and ACTION of each event code (Table 18.3). UNIT_STATE and ABANDONED take their severity from what they
report, and are given here at their lower one. -/
def evTable : List (Nat × Nat × Bool) :=
  [ (0x1001, 3, true), (0x1002, 4, true), (0x1003, 3, true), (0x1004, 2, true), (0x1005, 2, true), (0x1006, 2, false),
    (0x2001, 3, true), (0x2002, 3, true), (0x2003, 1, true), (0x2004, 2, true), (0x2005, 2, true), (0x2006, 1, true),
    (0x2007, 2, true), (0x2008, 1, false), (0x2009, 2, false), (0x200A, 2, true), (0x200B, 1, false), (0x200C, 3, true),
    (0x200D, 1, false), (0x200E, 1, false), (0x200F, 3, true), (0x2010, 3, true), (0x2011, 2, false), (0x2012, 2, true),
    (0x3001, 1, false), (0x3002, 3, true), (0x3003, 3, true), (0x3004, 2, true), (0x3005, 2, true) ]
  ++ [ (0x4001, 3, true), (0x4002, 3, false), (0x4003, 3, true), (0x4004, 1, false), (0x4005, 2, true), (0x4006, 3, true),
    (0x4007, 2, true), (0x4008, 2, true), (0x4009, 2, false), (0x400A, 3, true), (0x400B, 3, true),
    (0x5001, 3, true), (0x5002, 0, false), (0x5003, 3, true), (0x5004, 2, true), (0x5005, 2, true), (0x5006, 3, true),
    (0x5007, 2, true), (0x5008, 3, true), (0x6001, 0, false), (0x6002, 3, false), (0x6003, 2, true), (0x6004, 0, false),
    (0x6005, 1, true) ]
  ++ [ (0x7001, 2, false), (0x7002, 3, true), (0x7003, 3, true), (0x7004, 3, true), (0x7005, 2, false), (0x7006, 4, true),
    (0x7007, 3, true), (0x7008, 3, false), (0x7009, 4, true), (0x7101, 4, true), (0x7102, 4, true), (0x7103, 4, true),
    (0x7104, 4, true), (0x7105, 4, true), (0x7106, 4, true), (0x7107, 4, true), (0x7108, 4, true), (0x7109, 4, true),
    (0x710A, 4, true), (0x8001, 0, false), (0x8002, 3, false), (0x8003, 1, true), (0x8004, 0, false), (0x8005, 2, true),
    (0x8006, 2, true), (0x8007, 2, true), (0x8008, 2, true), (0x8009, 2, true), (0x9001, 2, true), (0x9002, 2, true),
    (0x9003, 3, true), (0xA001, 0, false), (0xA002, 1, true), (0xA003, 1, false), (0xB001, 2, true) ]

/-- Severity and ACTION of one code. -/
def evInfo (code : Nat) : Nat × Bool := ((evTable.find? fun e => e.1 == code).map (·.2)).getD (0, false)

/-! ### Status codes (R571) -/
namespace St
def success : Nat := 0
def reservedBit : Nat := 0x0101
def version : Nat := 0x0102
def format : Nat := 0x0103
def opcode : Nat := 0x0104
def jobId : Nat := 0x0105
def dependency : Nat := 0x0106
def range : Nat := 0x0107
def alignment : Nat := 0x0108
def operands : Nat := 0x0109
def fallback : Nat := 0x010A
def runahead : Nat := 0x010B
def nonrepro : Nat := 0x010C
def streamId : Nat := 0x010D
def replay : Nat := 0x010E
def placement : Nat := 0x010F
def package : Nat := 0x0110
def cast : Nat := 0x0111
def consistency : Nat := 0x0112
def correlated : Nat := 0x0113
def busy : Nat := 0x0114
def notAllowed : Nat := 0x0115
def abandoned : Nat := 0x0201
def denied : Nat := 0x0202
def off : Nat := 0x0203
def align : Nat := 0x0204
def unwritten : Nat := 0x0205
def uncorrectable : Nat := 0x0206
def address : Nat := 0x0207
def atomicTier : Nat := 0x0208
def offline : Nat := 0x0209
def farError : Nat := 0x020A
def timeout : Nat := 0x020B
def torusError : Nat := 0x020C
def linkDown : Nat := 0x020D
def sample : Nat := 0x020E
def wide : Nat := 0x020F
def saturated : Nat := 0x0210
def signature : Nat := 0x0301
def svn : Nat := 0x0302
def target : Nat := 0x0303
def staleOrder : Nat := 0x0304
def state : Nat := 0x0305
def length : Nat := 0x0306
end St

/-! ### Causes of abandonment (LAST_ABANDON.CAUSE, Table 7.16; 0x0A is R472's) -/
namespace Cause
def nfLoss : Nat := 0x01
def nfNorm : Nat := 0x02
def normLimit : Nat := 0x03
def saturation : Nat := 0x04
def verdict : Nat := 0x05
def stop : Nat := 0x06
def badData : Nat := 0x07
def fault : Nat := 0x08
def device : Nat := 0x09
def shield : Nat := 0x0A
end Cause

/-! ### Unit classes, states and sources (Tables 0.8, 16.3, 16.8) -/
namespace UId
def engine (i : Nat) : Nat := 0x1000 + i
def cluster (i : Nat) : Nat := 0x2000 + i
def bank (i : Nat) : Nat := 0x3000 + i
def stack (i : Nat) : Nat := 0x4000 + i
def channel (i : Nat) : Nat := 0x5000 + i
def port (i : Nat) : Nat := 0x6000 + i
def updateUnit (i : Nat) : Nat := 0x7000 + i
def cipher (i : Nat) : Nat := 0x8000 + i
def ioNorth : Nat := 0x9000
def ioSouth : Nat := 0x9001
def security : Nat := 0xA000
def stageManager : Nat := 0xB000
end UId

namespace US
def off : Nat := 0
def active : Nat := 1
def idle : Nat := 2
def draining : Nat := 3
def fenced : Nat := 4
def failed : Nat := 5
def spare : Nat := 6
def test : Nat := 7
end US

/-! Sources of a unit state change (Table 16.8). -/
namespace Src
def start : Nat := 0
def device : Nat := 1
def host : Nat := 2
def mgmt : Nat := 3
end Src

/-- The number of units of each class, by class code (Table 0.8). -/
def unitCount (cls : Nat) : Nat :=
  match cls with
  | 1 => 144 | 2 => 16 | 3 => 3072 | 4 => 8 | 5 => 8 | 6 => 6 | 7 => 16 | 8 => 2304 | 9 => 2 | 10 => 1 | 11 => 1
  | _ => 0

/-- A unit id that names a unit of the device (R8, R9). -/
def unitValid (u : Nat) : Bool := u < 0x10000 && u % 4096 < unitCount (u / 4096)

end Sys2Proof.Machine
end

