-- ==== Sys2Proof/Machine/Regs.lean ====
section
/-!
DEFINITION. The register map of BAR0: every register of every block with its fields, access codes, ranges and reset
values, and names for the registers and fields the machine itself reads and sets.
Windows that repeat (engines, banks, stacks, channels, ports, job slots, units, vectors) are one block with a stride.
-/
namespace Sys2Proof.Machine

open Sys2Proof

/-- Access codes of Table 0.10 (R18). No register of the device is W1C. -/
inductive Acc where
  | ro
  | rw
  | wo
  | rwl
  deriving DecidableEq, Repr

/-- One field of a register: bits [hi:lo], access, reset value, and the range a write must keep (R574). -/
structure Field where
  hi : Nat
  lo : Nat
  acc : Acc
  reset : Nat
  min : Nat
  max : Nat
  deriving DecidableEq, Repr

/-- One register of a block: offset within the block's window, width in bits, fields; bits of no field are reserved.
`step` is what the reset value grows by from one window to the next (unit ids, port numbers). -/
structure RegDesc where
  off : Nat
  width : Nat
  fields : List Field
  step : Nat
  deriving DecidableEq, Repr

/-- `count` windows of `stride` bytes from `base`, each holding the registers `regs`. -/
structure Block where
  base : Nat
  stride : Nat
  count : Nat
  regs : List RegDesc
  deriving DecidableEq, Repr

/-- A named field: the register's BAR0 offset and bits [hi:lo]. -/
structure Fld where
  off : Nat
  hi : Nat
  lo : Nat
  deriving DecidableEq, Repr

/-- A read-only field. -/
def ro (hi lo : Nat) (reset : Nat := 0) : Field := ⟨hi, lo, .ro, reset, 0, 2 ^ (hi + 1 - lo) - 1⟩

/-- A writable field with its stated range. -/
def rw (hi lo reset min max : Nat) : Field := ⟨hi, lo, .rw, reset, min, max⟩

/-- A field the image may lock, with its stated range. -/
def rwl (hi lo reset min max : Nat) : Field := ⟨hi, lo, .rwl, reset, min, max⟩

/-- A command field: reads as zero. -/
def wo (hi lo : Nat) : Field := ⟨hi, lo, .wo, 0, 0, 2 ^ (hi + 1 - lo) - 1⟩

/-- A 32-bit register. -/
def r32 (off : Nat) (fields : List Field) : RegDesc := ⟨off, 32, fields, 0⟩

/-- A 64-bit register. -/
def r64 (off : Nat) (fields : List Field) : RegDesc := ⟨off, 64, fields, 0⟩

/-- A whole 32-bit read-only register. -/
def v32 (off : Nat) (reset : Nat := 0) : RegDesc := r32 off [ro 31 0 reset]

/-- A whole 64-bit read-only register, such as a counter. -/
def v64 (off : Nat) (reset : Nat := 0) : RegDesc := r64 off [ro 63 0 reset]

/-- A command register whose bit 0 clears counters. -/
def clr (off : Nat) : RegDesc := r32 off [wo 0 0]

/-- The eight bits of a 64-bit full range. -/
def max64 : Nat := 2 ^ 64 - 1

/-- n 64-bit counters from `off`. -/
def counters (off n : Nat) : List RegDesc := (List.range n).map fun i => v64 (off + 8 * i)

/-! ### The blocks -/

/-- DEV (R492). The MSI-X table's vector control resets to masked (PRESUMED, log entry 21). -/
def devBlock : List Block :=
  [ ⟨0x0, 0x1000, 1,
      [ r32 0x000 [ro 31 16 0x4800, ro 15 0 0x1F3D], r32 0x004 [ro 23 16, ro 11 8 2],
        r32 0x008 [ro 31 24 0x90, ro 23 16 0x10, ro 15 12 6, ro 11 8 8, ro 7 4 8], v64 0x010, v32 0x018,
        r32 0x01C [ro 25 21, ro 20 18, ro 17 17, ro 16 16, ro 9 9, ro 8 8, ro 3 0],
        r32 0x020 [rwl 9 0 4 0 1000], r64 0x030 [wo 63 62, wo 61 60, wo 59 40, wo 19 0], r32 0x038 [ro 1 1, ro 0 0] ]⟩,
    ⟨0x7000, 8, 32, [v64 0]⟩,
    ⟨0x8000, 16, 2048,
      [ r32 0 [rw 31 0 0 0 0xFFFFFFFF], r32 4 [rw 31 0 0 0 0xFFFFFFFF], r32 8 [rw 31 0 0 0 0xFFFFFFFF],
        r32 12 [rw 0 0 1 0 1] ]⟩ ]

/-- EVT (R572). -/
def evtBlock : List Block :=
  [ ⟨0x10000, 0x8000, 1,
      [ r32 0x000 [ro 31 24 1, ro 15 0 0x1000], r32 0x004 [ro 2 2, ro 1 1, ro 0 0],
        r32 0x008 [rwl 26 16 0 0 2047, rwl 2 0 3 0 4], v64 0x010 1, v64 0x018, r64 0x020 [rw 63 0 0 0 max64],
        r32 0x028 [rw 31 31 0 0 1, rw 4 0 0 6 16], r64 0x030 [rw 63 0 0 0 max64], v64 0x100, v64 0x108, v64 0x110,
        clr 0x1C0 ]⟩ ]

/-- QUE (R266). -/
def queBlock : List Block :=
  [ ⟨0x20000, 0x20000, 1,
      [ r32 0x000 [ro 31 24 1, ro 23 16 1, ro 15 8 0x10, ro 7 0 0x14], r32 0x004 [ro 14 0], r32 0x008 [rw 0 0 0 0 1],
        r32 0x00C [rwl 15 0 1 0 0xFFFF], r64 0x010 [rw 63 0 0 0 max64], r32 0x018 [wo 31 30, wo 19 0], v32 0x040 ]
        ++ counters 0x100 4 ++ [clr 0x1C0]⟩ ]

/-- JOB (R267). -/
def jobBlock : List Block :=
  [ ⟨0x40000, 0x100, 1, [r32 0 [ro 15 8 1, ro 7 0 4]]⟩,
    ⟨0x40100, 0x100, 4,
      [ r32 0x00 [ro 17 17, ro 16 16, ro 15 8, ro 7 4, ro 3 0], v32 0x04, r64 0x08 [ro 47 0], v64 0x10, v64 0x18,
        v64 0x20, v64 0x28, v64 0x30, r64 0x38 [ro 63 32, ro 31 0], r32 0x40 [ro 31 24, ro 23 0], v32 0x44, v32 0x48 ]⟩ ]

/-- NUM (R204). -/
def numBlock : List Block :=
  [ ⟨0x80000, 0x20000, 1,
      [ r32 0x000 [ro 23 16 1, ro 11 8 1, ro 7 0 1], r32 0x004 [ro 31 16, ro 4 4, ro 3 3, ro 2 2, ro 1 1, ro 0 0],
        r32 0x008 [rwl 15 8 24 16 255, rwl 4 0 12 8 16], r32 0x00C [rwl 15 0 64 1 65535],
        r32 0x010 [rwl 31 24 1 1 255, rwl 15 8 8 1 255, rwl 7 0 4 1 255], r32 0x014 [rwl 15 0 256 1 65535],
        r32 0x018 [rwl 12 0 64 8 4096], v64 0x020, v32 0x028, v64 0x030, v32 0x038 ]
        ++ counters 0x100 13 ++ [clr 0x1C0]⟩ ]

/-- RNG (R234). -/
def rngBlock : List Block :=
  [ ⟨0xA0000, 0x20000, 1,
      [ r32 0x000 [ro 31 24 1, ro 23 16 1, ro 15 8 0x10, ro 7 0 0x10],
        r32 0x004 [ro 4 4, ro 3 3, ro 2 2, ro 1 1, ro 0 0],
        r32 0x008 [rwl 4 4 0 0 1, rwl 3 3 1 0 1, rwl 2 2 0 0 1, rwl 1 1 1 0 1, rwl 0 0 0 0 1],
        r32 0x00C [rwl 3 0 4 0 15],
        r64 0x010 ((List.range 16).map fun c => rwl (4 * c + 3) (4 * c) 8 0 8),
        v64 0x018 0x8888888888888888, v64 0x020, r32 0x028 [ro 23 0], v32 0x02C ]
        ++ counters 0x100 7 ++ [clr 0x1C0]⟩ ]

/-- CKP (R439). -/
def ckpBlock : List Block :=
  [ ⟨0xC0000, 0x20000, 1,
      [ r32 0x000 [ro 31 24 1, ro 23 16 1, ro 15 8 2, ro 7 0 2],
        r32 0x004 [ro 31 16, ro 8 8, ro 7 7, ro 6 6, ro 5 5, ro 4 4, ro 3 3, ro 2 2, ro 1 0],
        r32 0x008 [rwl 31 24 4 1 255, rwl 15 0 1 1 65535],
        r32 0x00C [rwl 23 18 1 1 63, rwl 17 16 0 0 2, rwl 9 8 0 0 2, rwl 4 0 8 4 16],
        r32 0x010 [rwl 31 16 16 1 65535, rwl 15 0 0 0 65535], r64 0x018 [rwl 63 0 0 0 max64],
        r64 0x020 [rwl 63 0 0 0 max64], r64 0x028 [rw 63 0 0 0 max64], r64 0x030 [ro 47 0], r64 0x038 [ro 47 0],
        r64 0x040 [ro 47 0], v32 0x048, v32 0x04C, r32 0x050 [ro 23 0 0xFFFFFF], r32 0x054 [ro 23 0 0xFFFFFF],
        r32 0x058 [ro 28 24, ro 23 0 0xFFFFFF], v64 0x060 ]
        ++ counters 0x100 8 ++ [clr 0x1C0]⟩ ]

/-- FOV (R473). FOV_STATUS.ROLE shows FOV_CTRL.ROLE as of the last reset. -/
def fovBlock : List Block :=
  [ ⟨0xE0000, 0x20000, 1,
      [ r32 0x000 [ro 31 24 1, ro 23 16 1, ro 7 0 0x10], r32 0x004 [ro 20 16, ro 11 10, ro 9 8, ro 7 7, ro 3 0],
        r32 0x008 [rwl 25 24 0 0 2, rwl 22 16 4 1 64, rwl 11 8 6 1 8, rwl 4 0 10 4 23],
        r32 0x00C [rwl 31 16 1000 100 10000, rwl 9 0 10 1 600], r64 0x010 [ro 47 0],
        r64 0x018 [ro 47 32, ro 23 0 0xFFFFFF], v32 0x020, r32 0x024 [ro 23 0 0xFFFFFF], v64 0x028, r64 0x030 [ro 62 0],
        v64 0x038, v64 0x040 ]
        ++ counters 0x100 11 ++ [clr 0x1C0]⟩ ]

/-- LNK: six port windows and the fabric window (R401, R402). CAST_EXTENT, CAST_ORIGIN and TORUS_EXTENT hold all 24 bits: R372 reserves the
top 2 bits of each byte of a coordinate, and an extent of 64 needs one of them (R373, R374; DESIGN CHOICE, log entry 123). -/
def lnkBlock : List Block :=
  [ ⟨0x100000, 0x10000, 6,
      [ ⟨0x000, 32, [ro 15 8 0x10, ro 2 0], 1⟩,
        r32 0x004 [ro 27 24, ro 23 16, ro 13 12, ro 11 11, ro 10 10, ro 9 5, ro 3 0], r32 0x008 [rw 0 0 0 0 1],
        r32 0x00C [wo 1 1, wo 0 0], r32 0x010 [rwl 15 12 1 1 15, rwl 11 8 2 1 15, rwl 7 4 4 1 15, rwl 3 0 4 1 15],
        r32 0x014 [ro 31 16, ro 15 0], r32 0x018 [ro 31 24, ro 23 0], v32 0x01C,
        r32 0x020 [ro 31 24, ro 23 16, ro 14 12, ro 11 8, ro 7 0], v32 0x024, v64 0x028,
        r64 0x030 [ro 47 32, ro 31 16, ro 15 0] ]
        ++ counters 0x100 11 ++ [clr 0x1C0]⟩,
    ⟨0x160000, 0x10000, 1,
      [ r32 0x000 [ro 23 16 1, ro 15 8 0, ro 7 0 6], r32 0x004 [ro 17 12, ro 11 6, ro 1 0],
        r32 0x008 [rwl 23 0 0xFFFFFF 0 0xFFFFFF], r32 0x00C [rwl 23 16 1 1 64, rwl 15 8 1 1 64, rwl 7 0 1 1 64],
        r32 0x010 [rw 31 0 0 0 0xFFFFFFFF], r32 0x014 [rw 21 16 0 0 63, rw 13 8 0 0 63, rw 5 0 0 0 63], r32 0x018 [rw 23 0 0 0 0xFFFFFF],
        r32 0x01C [rw 1 1 0 0 1, rw 0 0 0 0 1], r64 0x020 [rwl 47 32 0 0 65535, rwl 31 16 0 0 65535, rwl 15 0 0 0 65535],
        r32 0x028 [rwl 25 16 100 10 1000, rwl 7 0 10 1 255] ]
        ++ (List.range 32).map (fun i =>
            if i % 2 = 0 then r64 (0x100 + 8 * i) [rw 63 0 0 0 max64]
            else r64 (0x100 + 8 * i) [rw 63 48 0 0 65535, rw 35 32 0 0 15, rw 31 0 0 0 0xFFFFFFFF])
        ++ counters 0x200 5 ++ [clr 0x2C0]⟩ ]

/-- MEM (R325). -/
def memBlock : List Block :=
  [ ⟨0x200100, 0x40, 8,
      [ r32 0x00 [ro 31 24, ro 23 16, ro 11 11, ro 10 8, ro 0 0], r32 0x04 [ro 24 16, ro 8 0], r32 0x08 [rw 8 0 0 0 511],
        r32 0x0C [ro 31 31, ro 30 30, ro 29 26, ro 25 20, ro 19 0], v32 0x10, v32 0x14, v32 0x18, v32 0x1C, v32 0x20 ]⟩,
    ⟨0x200300, 0x40, 8, [r32 0x00 [ro 23 16, ro 15 8, ro 2 2, ro 1 1, ro 0 0], v32 0x04, v32 0x08, v32 0x0C, v32 0x10]⟩,
    ⟨0x200000, 0x100000, 1,
      [ r32 0x000 [ro 27 24 8, ro 23 20 8, ro 15 8 0x10, ro 7 4 8], r32 0x004 [ro 23 20, ro 15 8, ro 3 3, ro 2 0],
        r32 0x008 [rwl 31 24 105 95 110, rwl 23 16 100 0 255, rwl 15 8 95 0 255, rwl 7 0 85 70 255],
        r32 0x00C [rwl 15 8 25 10 100, rwl 7 0 50 10 100],
        r32 0x010 [rwl 26 16 50 1 1000, rwl 15 8 12 1 48, rwl 7 0 24 1 96],
        r64 0x020 [rwl 63 0 0xC000000000 0 max64], r64 0x028 [rwl 63 0 0x1000000000 0 max64],
        r64 0x030 [rwl 63 0 0x10000000000 0 max64], r64 0x038 [rwl 63 0 0 0 max64],
        r64 0x040 [rwl 63 0 0x18000000000 0 max64], r64 0x048 [rwl 63 0 0 0 max64] ]
        ++ counters 0x600 6 ++ [clr 0x7C0]⟩ ]

/-- The registers of one bank entry (R296). Ports B of single-port banks are handled where banks are accessed. -/
def bankEntry : List RegDesc :=
  [ r32 0x00 [ro 27 27, rw 26 24 0 0 7, rw 23 16 0 0 255, ro 10 8, ro 7 0],
    r32 0x04 [ro 27 27, rw 26 24 0 0 7, rw 23 16 0 0 255, ro 10 8, ro 7 0],
    r32 0x08 [ro 3 2, rw 1 0 0 0 2], r32 0x0C [ro 4 4, ro 3 3, ro 2 2, rwl 1 0 1 0 1], r32 0x10 [ro 7 7, ro 6 6, ro 2 0],
    r32 0x14 [ro 31 31, ro 11 0], v32 0x18, v32 0x1C, v32 0x20, r32 0x24 [ro 31 28, ro 17 0], r32 0x28 [ro 14 0],
    r32 0x30 [ro 31 31, ro 14 0], r32 0x34 [ro 31 31, ro 14 0], r32 0x38 [ro 31 31, ro 14 0], r32 0x3C [ro 31 31, ro 14 0] ]

/-- BNK: the bank entries and the block registers (R296, R297). -/
def bnkBlock : List Block :=
  [ ⟨0x300000, 0x40, 3072, bankEntry⟩,
    ⟨0x330000, 0xD0000, 1,
      [ r32 0x000 [ro 27 24 4, ro 23 16 0x40, ro 11 0 0xC00], r32 0x004 [ro 31 16, ro 15 4], r32 0x008 [rwl 0 0 1 0 1],
        r64 0x010 ((List.range 8).map fun c => rwl (8 * c + 5) (8 * c) 43 0 43),
        r64 0x018 ((List.range 8).map fun c => rwl (8 * c + 5) (8 * c) 43 0 43) ]
        ++ counters 0x100 6 ++ [clr 0x1C0]⟩ ]

/-- One entry of the unit state table (R546). -/
def unitEntry : List RegDesc := [r64 0 [ro 63 32, ro 31 16, ro 15 12, ro 11 8, ro 7 4, ro 3 0]]

/-- The registers of one engine window (R131, R132, R133, R166). -/
def engWindow : List RegDesc :=
  [ ⟨0x000, 32, [ro 18 16, ro 15 0 0x1000], 1⟩, r32 0x004 [ro 3 3, ro 2 2, ro 1 1, ro 0 0],
    r32 0x008 [rwl 15 0 100 10 10000], r32 0x010 [ro 26 18, ro 17 9, ro 8 0], r32 0x014 [ro 23 20, ro 18 16, ro 13 8, ro 5 0],
    r32 0x018 ((List.range 4).map (fun j => ro (8 * j + 7) (8 * j + 7)) ++ (List.range 4).map (fun j => ro (8 * j + 5) (8 * j))),
    r32 0x040 [rw 24 16 0 0 259, rw 7 0 0 0 255], clr 0x044, v32 0x048, r32 0x04C [ro 0 0] ]
    ++ counters 0x080 6 ++ [clr 0x0C0]
    ++ [ r32 0x100 [ro 12 12 1, ro 11 9, ro 8 6, ro 3 2, ro 1 0], r32 0x104 [ro 31 16, ro 15 0], r32 0x108 [ro 24 16, ro 8 0] ]
    ++ counters 0x110 7 ++ [clr 0x1C0]

/-- UNIT: the block registers, the entries of the eleven classes and the engine windows (R131, R546). -/
def unitBlock : List Block :=
  [ ⟨0x400000, 0x8000, 1,
      [ r32 0x000 [ro 31 24 1, ro 23 16 0x0B, ro 15 0 0x15CA], v32 0x004, r64 0x008 [wo 63 32, wo 31 28, wo 27 27, wo 15 0],
        r64 0x010 [ro 63 32, ro 31 28, ro 27 27, ro 15 0], v64 0x100, v64 0x108, clr 0x1C0 ]⟩,
    ⟨0x408000, 8, 144, unitEntry⟩, ⟨0x410000, 8, 16, unitEntry⟩, ⟨0x418000, 8, 3072, unitEntry⟩,
    ⟨0x420000, 8, 8, unitEntry⟩, ⟨0x428000, 8, 8, unitEntry⟩, ⟨0x430000, 8, 6, unitEntry⟩,
    ⟨0x438000, 8, 16, unitEntry⟩, ⟨0x440000, 8, 2304, unitEntry⟩, ⟨0x448000, 8, 2, unitEntry⟩,
    ⟨0x450000, 8, 1, unitEntry⟩, ⟨0x458000, 8, 1, unitEntry⟩,
    ⟨0x480000, 0x400, 144, engWindow⟩ ]

/-- SEC (R528). -/
def secBlock : List Block :=
  [ ⟨0x500100, 8, 64, [v64 0]⟩, ⟨0x500300, 8, 32, [v64 0]⟩,
    ⟨0x500000, 0x100000, 1,
      [ r32 0x000 [ro 31 24 1, ro 23 16 1, ro 15 8 1, ro 7 0 1],
        r32 0x004 [ro 8 8, ro 7 7, ro 6 6, ro 5 4, ro 3 3, ro 2 2, ro 1 1, ro 0 0], r32 0x008 [wo 0 0],
        r64 0x010 [rw 63 0 0 0 max64], r64 0x018 [rw 63 0 0 0 max64], r32 0x020 [rw 31 0 0 0 0xFFFFFFFF], v32 0x024,
        r32 0x028 [ro 31 16, ro 15 0], r32 0x02C [ro 15 12, ro 11 8, ro 7 4, ro 3 0], r32 0x400 [ro 23 8, ro 1 0] ]⟩ ]

/-- MGT (R547). -/
def mgtBlock : List Block :=
  [ ⟨0x600000, 0x100000, 1,
      [ r32 0x000 [ro 31 24 1, ro 7 0 0x28], r32 0x004 [ro 8 8 1, ro 7 7, ro 6 6, ro 5 4, ro 3 3, ro 2 2],
        r32 0x008 [rwl 11 0 2400 1200 2400], r32 0x00C [rwl 7 0 100 85 105], r32 0x010 [ro 23 18, ro 15 8, ro 6 0],
        r32 0x020 [ro 15 0], r32 0x024 [ro 15 0], r32 0x028 [ro 15 0], r32 0x02C [ro 15 0], r32 0x030 [ro 15 0],
        r32 0x034 [ro 31 24, ro 23 16, ro 15 8, ro 7 0], v64 0x040 ]
        ++ counters 0x100 4 ++ [clr 0x1C0]⟩ ]

/-- BAR0 (Table 0.9). -/
def bar0 : List Block :=
  devBlock ++ evtBlock ++ queBlock ++ jobBlock ++ numBlock ++ rngBlock ++ ckpBlock ++ fovBlock ++ lnkBlock ++ memBlock
    ++ bnkBlock ++ unitBlock ++ secBlock ++ mgtBlock

/-- The register of window-relative offset `o`, if any. -/
def findIn (o : Nat) : List RegDesc → Option RegDesc
  | [] => none
  | r :: rs => if r.off ≤ o ∧ o < r.off + r.width / 8 then some r else findIn o rs

/-- The register that covers BAR0 offset `off`, its own BAR0 offset and its window's index. -/
def findReg (off : Nat) : List Block → Option (RegDesc × Nat × Nat)
  | [] => none
  | b :: bs =>
    if b.base ≤ off ∧ off < b.base + b.stride * b.count then
      let i := (off - b.base) / b.stride
      match findIn (off - b.base - i * b.stride) b.regs with
      | some r => some (r, b.base + i * b.stride + r.off, i)
      | none => findReg off bs
    else findReg off bs

/-- The bits of a register that are not reserved (R16). -/
def RegDesc.mask (r : RegDesc) : Nat :=
  r.fields.foldl (fun m f => m ||| (if f.acc = .wo then 0 else (2 ^ (f.hi + 1 - f.lo) - 1) <<< f.lo)) 0

/-- The value a register holds after reset. -/
def RegDesc.resetValue (r : RegDesc) (i : Nat) : Nat :=
  r.fields.foldl (fun m f => m ||| (f.reset <<< f.lo)) (i * r.step)

/-- The bits of the register at BAR0 offset `off` that can hold a value; a reserved offset holds none (R16). -/
def regMask (off : Nat) : Nat :=
  match findReg off bar0 with
  | some (r, o, _) => if o = off then r.mask else 0
  | none => 0

/-- BANK_CFG.STANDBY at reset: bank n = 43 of each cluster, which BNK_STANDBY names where no image does (R296, R297). -/
def standbyReset (off : Nat) : Nat :=
  let b := (off - 0x300000) / 0x40
  if 0x300000 + 0x40 * 2304 ≤ off ∧ off < 0x330000 ∧ off % 0x40 = 0x0C ∧ (b - 2304) % 48 = 43 then 8 else 0

/-- The reset value of the register at BAR0 offset `off`. -/
def regReset (off : Nat) : Nat :=
  match findReg off bar0 with
  | some (r, o, i) => if o = off then r.resetValue i ||| standbyReset off else 0
  | none => 0

/-- A logical coordinate as FAB_COORD holds it: the top 2 bits of each byte are reserved, and all ones means none (R16, R372). -/
def coordWord (v : Nat) : Nat := if v % 2 ^ 24 = 0xFFFFFF then 0xFFFFFF else v &&& 0x3F3F3F

/-- The same field in a window `d` bytes further on. -/
def Fld.plus (f : Fld) (d : Nat) : Fld := ⟨f.off + d, f.hi, f.lo⟩

/-- A whole register as a field. -/
def Fld.whole (off w : Nat) : Fld := ⟨off, w - 1, 0⟩

end Sys2Proof.Machine
end

