-- ==== Sys2Proof/Machine/Names.lean ====
section
/-!
DEFINITION. The names of the registers and fields that the machine itself reads and sets, as BAR0 offsets (Table 0.9 and
the register tables of each chapter). A field of a window is named for window 0 and moved by `Fld.plus`.
-/
namespace Sys2Proof.Machine.Reg

open Sys2Proof.Machine

/-! DEV (Table 14.10) -/
def devRev : Nat := 0x4
def serialHash : Nat := 0x10
def fwBuild : Nat := 0x18
def lastStep : Fld := ⟨0x1C, 3, 0⟩
def ready : Fld := ⟨0x1C, 8, 8⟩
def refclkLost : Fld := ⟨0x1C, 9, 9⟩
def ideSecure : Fld := ⟨0x1C, 16, 16⟩
def cxlMode : Fld := ⟨0x1C, 17, 17⟩
def linkSpeed : Fld := ⟨0x1C, 20, 18⟩
def linkWidth : Fld := ⟨0x1C, 25, 21⟩
def biasCmd : Nat := 0x30
def biasBusy : Fld := ⟨0x38, 0, 0⟩
def biasRefused : Fld := ⟨0x38, 1, 1⟩
def pba : Nat := 0x7000
def msixTable : Nat := 0x8000

/-! EVT (Table 18.6) -/
def evtWrapped : Fld := ⟨0x10004, 0, 0⟩
def evtHostOn : Fld := ⟨0x10004, 1, 1⟩
def evtHostFull : Fld := ⟨0x10004, 2, 2⟩
def evtVector : Fld := ⟨0x10008, 26, 16⟩
def irqMin : Fld := ⟨0x10008, 2, 0⟩
def nextSeq : Nat := 0x10010
def oldestSeq : Nat := 0x10018
def hostRingBase : Nat := 0x10020
def hostRingCtrl : Nat := 0x10028
def hostRingOn : Fld := ⟨0x10028, 31, 31⟩
def hostRingLog2 : Fld := ⟨0x10028, 4, 0⟩
def hostRingHead : Nat := 0x10030
def evtRecords : Fld := ⟨0x10100, 63, 0⟩
def evtOverwritten : Fld := ⟨0x10108, 63, 0⟩
def evtDropped : Fld := ⟨0x10110, 63, 0⟩
def evtWindow : Nat := 0x18000

/-! QUE (Table 7.14) -/
def queStatus : Nat := 0x20004
def queEnable : Fld := ⟨0x20008, 0, 0⟩
def directorMask : Fld := ⟨0x2000C, 15, 0⟩
def queTableBase : Nat := 0x20010
def queCmd : Nat := 0x20018
def treeRoot : Nat := 0x20040
def cuesFetched : Fld := ⟨0x20100, 63, 0⟩
def cuesRejected : Fld := ⟨0x20108, 63, 0⟩
def cuesHeld : Fld := ⟨0x20110, 63, 0⟩
def doorbells : Fld := ⟨0x20118, 63, 0⟩

/-! JOB (Table 7.16), slot 0; slot s is 0x100 × s further -/
def jobState : Fld := ⟨0x40100, 3, 0⟩
def jobPhase : Fld := ⟨0x40100, 7, 4⟩
def jobAttempt : Fld := ⟨0x40100, 15, 8⟩
def jobAhead : Fld := ⟨0x40100, 16, 16⟩
def jobNonrepro : Fld := ⟨0x40100, 17, 17⟩
def jobId : Fld := ⟨0x40104, 31, 0⟩
def jobStep : Fld := ⟨0x40108, 47, 0⟩
def jobSkipped : Fld := ⟨0x40110, 63, 0⟩
def jobRepeats : Fld := ⟨0x40118, 63, 0⟩
def jobRollbacks : Fld := ⟨0x40120, 63, 0⟩
def jobPkgBase : Fld := ⟨0x40128, 63, 0⟩
def jobUpdSat : Fld := ⟨0x40130, 63, 0⟩
def jobShard : Fld := ⟨0x40138, 63, 32⟩
def jobSample : Fld := ⟨0x40138, 31, 0⟩
def jobAbandonCause : Fld := ⟨0x40140, 31, 24⟩
def jobAbandonStep : Fld := ⟨0x40140, 23, 0⟩
def jobHoldUsed : Fld := ⟨0x40144, 31, 0⟩
def jobOutboundUsed : Fld := ⟨0x40148, 31, 0⟩

/-! NUM (Tables 5.9 to 5.16) -/
def numRaised : Fld := ⟨0x80004, 31, 16⟩
def numCheckOnActive : Fld := ⟨0x80004, 4, 4⟩
def numChecksPending : Fld := ⟨0x80004, 3, 3⟩
def numReplay : Fld := ⟨0x80004, 2, 2⟩
def numStorm : Fld := ⟨0x80004, 1, 1⟩
def numCastLarge : Fld := ⟨0x80004, 0, 0⟩
def numFactor : Fld := ⟨0x80008, 15, 8⟩
def numSampleLog2 : Fld := ⟨0x80008, 4, 0⟩
def numSmallMax : Fld := ⟨0x8000C, 15, 0⟩
def numDamageLimit : Fld := ⟨0x80010, 31, 24⟩
def numOverbTile : Fld := ⟨0x80010, 15, 8⟩
def numClipTile : Fld := ⟨0x80010, 7, 0⟩
def numStormMin : Fld := ⟨0x80014, 15, 0⟩
def numSilenceSteps : Fld := ⟨0x80018, 12, 0⟩
def numWatchBase : Fld := ⟨0x80020, 63, 0⟩
def numWatchCount : Fld := ⟨0x80028, 31, 0⟩
def numSampleBufBase : Fld := ⟨0x80030, 63, 0⟩
def numSampleBufSize : Fld := ⟨0x80038, 31, 0⟩
def samplesPlanned : Fld := ⟨0x80100, 63, 0⟩
def samplesDropped : Fld := ⟨0x80108, 63, 0⟩
def damageDropped : Fld := ⟨0x80110, 63, 0⟩
def faultChecks : Fld := ⟨0x80118, 63, 0⟩
def faultMismatches : Fld := ⟨0x80120, 63, 0⟩
def faultUnresolved : Fld := ⟨0x80128, 63, 0⟩
def damageChecks : Fld := ⟨0x80130, 63, 0⟩
def damagedTiles : Fld := ⟨0x80138, 63, 0⟩
def fallbackTiles : Fld := ⟨0x80140, 63, 0⟩
def storms : Fld := ⟨0x80148, 63, 0⟩
def recipeEvents : Fld := ⟨0x80150, 63, 0⟩
def silenceEvents : Fld := ⟨0x80158, 63, 0⟩
def checksOnActive : Fld := ⟨0x80160, 63, 0⟩

/-! RNG (Tables 6.10 to 6.12) -/
def rngKeyReady : Fld := ⟨0xA0004, 0, 0⟩
def rngNextKey : Fld := ⟨0xA0004, 1, 1⟩
def rngSecret : Fld := ⟨0xA0004, 2, 2⟩
def rngBulkBusy : Fld := ⟨0xA0004, 3, 3⟩
def rngRedirected : Fld := ⟨0xA0004, 4, 4⟩
def bulkPlainOk : Fld := ⟨0xA0008, 4, 4⟩
def bulkParityMac : Fld := ⟨0xA0008, 3, 3⟩
def bulkParityEnc : Fld := ⟨0xA0008, 2, 2⟩
def bulkMirrorMac : Fld := ⟨0xA0008, 1, 1⟩
def bulkMirrorEnc : Fld := ⟨0xA0008, 0, 0⟩
def bulkEngines : Nat := 0xA0010
def bulkActive : Nat := 0xA0018
def seedCheckReg : Fld := ⟨0xA0020, 63, 0⟩
def keyEpochReg : Fld := ⟨0xA0028, 23, 0⟩
def exportKeyId : Fld := ⟨0xA002C, 31, 0⟩
def addrBlocks : Fld := ⟨0xA0100, 63, 0⟩
def freeBlocks : Fld := ⟨0xA0108, 63, 0⟩
def bulkEncBytes : Fld := ⟨0xA0118, 63, 0⟩
def bulkDecBytes : Fld := ⟨0xA0120, 63, 0⟩
def tagFailures : Fld := ⟨0xA0128, 63, 0⟩
def bulkObjects : Fld := ⟨0xA0130, 63, 0⟩

/-! CKP (Table 12.10) -/
def ckpDeferRun : Fld := ⟨0xC0004, 31, 16⟩
def ckpCorrelated : Fld := ⟨0xC0004, 8, 8⟩
def ckpFullNext : Fld := ⟨0xC0004, 7, 7⟩
def ckpExporting : Fld := ⟨0xC0004, 6, 6⟩
def ckpDrainFailed : Fld := ⟨0xC0004, 5, 5⟩
def ckpDrainBusy : Fld := ⟨0xC0004, 4, 4⟩
def ckpPSlot : Fld := ⟨0xC0004, 3, 3⟩
def ckpSSealed : Fld := ⟨0xC0004, 2, 2⟩
def ckpPhase : Fld := ⟨0xC0004, 1, 0⟩
def ckpCtrl : Nat := 0xC0008
def ckpProt : Nat := 0xC000C
def ckpExport : Nat := 0xC0010
def exportBase : Nat := 0xC0018
def exportSlotSize : Nat := 0xC0020
def restoreBase : Nat := 0xC0028
def protectedStep : Fld := ⟨0xC0030, 47, 0⟩
def sealedStep : Fld := ⟨0xC0038, 47, 0⟩
def exportStep : Fld := ⟨0xC0040, 47, 0⟩
def lastStopUs : Fld := ⟨0xC0048, 31, 0⟩
def protMib : Fld := ⟨0xC004C, 31, 0⟩
def mirrorPartner : Fld := ⟨0xC0050, 23, 0⟩
def mirrorSource : Fld := ⟨0xC0054, 23, 0⟩
def parityIndex : Fld := ⟨0xC0058, 28, 24⟩
def parityRunStart : Fld := ⟨0xC0058, 23, 0⟩
def parityUnit : Fld := ⟨0xC0060, 63, 0⟩
def intervals : Fld := ⟨0xC0100, 63, 0⟩
def deferrals : Fld := ⟨0xC0108, 63, 0⟩
def fullIntervals : Fld := ⟨0xC0110, 63, 0⟩
def mirrorBytes : Fld := ⟨0xC0118, 63, 0⟩
def parityBytes : Fld := ⟨0xC0120, 63, 0⟩
def exports : Fld := ⟨0xC0128, 63, 0⟩
def exportFails : Fld := ⟨0xC0130, 63, 0⟩
def drainFails : Fld := ⟨0xC0138, 63, 0⟩

/-! FOV (Table 13.10) -/
def fovSpares : Fld := ⟨0xE0004, 20, 16⟩
def fovLastVote : Fld := ⟨0xE0004, 11, 10⟩
def fovRole : Fld := ⟨0xE0004, 9, 8⟩
def fovDonorFill : Fld := ⟨0xE0004, 7, 7⟩
def fovState : Fld := ⟨0xE0004, 3, 0⟩
def fovCtrl : Nat := 0xE0008
def fovCtrlRole : Fld := ⟨0xE0008, 25, 24⟩
def fovEngMin : Fld := ⟨0xE0008, 11, 8⟩
def fovTimers : Nat := 0xE000C
def votedStep : Fld := ⟨0xE0010, 47, 0⟩
def lastFailedEvent : Fld := ⟨0xE0018, 47, 32⟩
def lastFailedCoord : Fld := ⟨0xE0018, 23, 0⟩
def lastOrderId : Fld := ⟨0xE0020, 31, 0⟩
def donor : Fld := ⟨0xE0024, 23, 0⟩
def runDigestLo : Fld := ⟨0xE0028, 63, 0⟩
def runDigestHi : Fld := ⟨0xE0030, 62, 0⟩
def fillBytes : Fld := ⟨0xE0038, 63, 0⟩
def fillDone : Fld := ⟨0xE0040, 63, 0⟩
def takeovers : Fld := ⟨0xE0100, 63, 0⟩
def deviceFailures : Fld := ⟨0xE0108, 63, 0⟩
def fills : Fld := ⟨0xE0110, 63, 0⟩
def donorFills : Fld := ⟨0xE0118, 63, 0⟩
def rehearsals : Fld := ⟨0xE0120, 63, 0⟩
def rehearsalFails : Fld := ⟨0xE0128, 63, 0⟩
def unwitnessed : Fld := ⟨0xE0130, 63, 0⟩
def votes : Fld := ⟨0xE0138, 63, 0⟩
def expulsions : Fld := ⟨0xE0140, 63, 0⟩
def shields : Fld := ⟨0xE0148, 63, 0⟩
def fallbacks : Fld := ⟨0xE0150, 63, 0⟩

/-! LNK (Tables 11.5 and 11.7), port 0; port p is 0x10000 × p further -/
def portState : Fld := ⟨0x100004, 3, 0⟩
def portWidth : Fld := ⟨0x100004, 9, 5⟩
def portInCast : Fld := ⟨0x100004, 10, 10⟩
def portSlowIn : Fld := ⟨0x100004, 11, 11⟩
def portNeighbour : Fld := ⟨0x100004, 13, 12⟩
def portMinor : Fld := ⟨0x100004, 23, 16⟩
def portQuarCause : Fld := ⟨0x100004, 27, 24⟩
def portEnable : Fld := ⟨0x100008, 0, 0⟩
def portCmd : Nat := 0x10000C
def arbWeights : Nat := 0x100010
def failedLocal : Fld := ⟨0x100014, 15, 0⟩
def failedRemote : Fld := ⟨0x100014, 31, 16⟩
def peerCoord : Fld := ⟨0x100018, 23, 0⟩
def peerRole : Fld := ⟨0x100018, 31, 24⟩
def peerCast : Fld := ⟨0x10001C, 31, 0⟩
def peerVersion : Nat := 0x100020
def peerFw : Fld := ⟨0x100024, 31, 0⟩
def peerSerial : Fld := ⟨0x100028, 63, 0⟩
def peerFd : Fld := ⟨0x100030, 63, 0⟩
def flitsTx : Fld := ⟨0x100100, 63, 0⟩
def flitsRx : Fld := ⟨0x100108, 63, 0⟩
def crcFails : Fld := ⟨0x100110, 63, 0⟩
def replays : Fld := ⟨0x100118, 63, 0⟩
def uncorrCw : Fld := ⟨0x100120, 63, 0⟩
def corrSymbols : Fld := ⟨0x100128, 63, 0⟩
def retrains : Fld := ⟨0x100130, 63, 0⟩
def txnRejected : Fld := ⟨0x100138, 63, 0⟩
def stale : Fld := ⟨0x100140, 63, 0⟩
def missedPulses : Fld := ⟨0x100148, 63, 0⟩
def forwarded : Fld := ⟨0x100150, 63, 0⟩
def fabUp : Fld := ⟨0x160004, 17, 12⟩
def fabInCast : Fld := ⟨0x160004, 11, 6⟩
def castState : Fld := ⟨0x160004, 1, 0⟩
def fabCoord : Fld := ⟨0x160008, 23, 0⟩
def torusExtent : Fld := ⟨0x16000C, 23, 0⟩
def castId : Fld := ⟨0x160010, 31, 0⟩
def castOrigin : Fld := ⟨0x160014, 23, 0⟩
def castExtent : Fld := ⟨0x160018, 23, 0⟩
def castForm : Fld := ⟨0x16001C, 0, 0⟩
def castCorrAck : Fld := ⟨0x16001C, 1, 1⟩
def fdIds : Fld := ⟨0x160020, 47, 0⟩
def openBase : Nat := 0x160100
def openCtrl : Nat := 0x160108
def collectives : Fld := ⟨0x160200, 63, 0⟩
def collSat : Fld := ⟨0x160208, 63, 0⟩
def queriesSent : Fld := ⟨0x160210, 63, 0⟩
def failedDeclared : Fld := ⟨0x160218, 63, 0⟩
def linkFaults : Fld := ⟨0x160220, 63, 0⟩

/-! MEM (Tables 9.8 to 9.12); stack and channel windows are 0x40 × index further -/
def ddrActive : Fld := ⟨0x200004, 23, 20⟩
def stackOnline : Fld := ⟨0x200004, 15, 8⟩
def memSlow : Fld := ⟨0x200004, 3, 3⟩
def memMaxLevel : Fld := ⟨0x200004, 2, 0⟩
def hot1 : Fld := ⟨0x200008, 7, 0⟩
def hot2 : Fld := ⟨0x200008, 15, 8⟩
def hot3 : Fld := ⟨0x200008, 23, 16⟩
def crit : Fld := ⟨0x200008, 31, 24⟩
def snapBase : Nat := 0x200020
def snapSize : Nat := 0x200028
def mirrorBase : Nat := 0x200030
def mirrorSize : Nat := 0x200038
def parityBase : Nat := 0x200040
def paritySize : Nat := 0x200048
def stackTemp : Fld := ⟨0x200100, 31, 24⟩
def stackRate : Fld := ⟨0x200100, 23, 16⟩
def stackConservative : Fld := ⟨0x200100, 11, 11⟩
def stackLevel : Fld := ⟨0x200100, 10, 8⟩
def stackUp : Fld := ⟨0x200100, 0, 0⟩
def stackRetired : Fld := ⟨0x200104, 24, 16⟩
def stackRemapUsed : Fld := ⟨0x200104, 8, 0⟩
def remapSel : Fld := ⟨0x200108, 8, 0⟩
def remapData : Nat := 0x20010C
def stackCorrected : Fld := ⟨0x200110, 31, 0⟩
def stackHeavy : Fld := ⟨0x200114, 31, 0⟩
def stackUncorr : Fld := ⟨0x200118, 31, 0⟩
def stackDie : Fld := ⟨0x20011C, 31, 0⟩
def stackThrottleMs : Fld := ⟨0x200120, 31, 0⟩
def ddrRate : Fld := ⟨0x200300, 23, 16⟩
def ddrCapacity : Fld := ⟨0x200300, 15, 8⟩
def ddrConservative : Fld := ⟨0x200300, 2, 2⟩
def ddrInSet : Fld := ⟨0x200300, 1, 1⟩
def ddrTrained : Fld := ⟨0x200300, 0, 0⟩
def ddrCorrected : Fld := ⟨0x200304, 31, 0⟩
def ddrDeviceCorr : Fld := ⟨0x200308, 31, 0⟩
def ddrUncorr : Fld := ⟨0x20030C, 31, 0⟩
def ddrRetired : Fld := ⟨0x200310, 31, 0⟩
def atomicOps : Fld := ⟨0x200600, 63, 0⟩
def atomicSat : Fld := ⟨0x200608, 63, 0⟩
def farReadBytes : Fld := ⟨0x200610, 63, 0⟩
def farWriteBytes : Fld := ⟨0x200618, 63, 0⟩
def farErrors : Fld := ⟨0x200620, 63, 0⟩
def noticesSent : Fld := ⟨0x200628, 63, 0⟩

/-! BNK (Tables 8.4 to 8.7), bank 0; bank b is 0x40 × b further -/
def ownerA : Nat := 0x300000
def bankState : Fld := ⟨0x300008, 3, 2⟩
def bankReq : Fld := ⟨0x300008, 1, 0⟩
def bankAddOpen : Fld := ⟨0x30000C, 4, 4⟩
def bankStandby : Fld := ⟨0x30000C, 3, 3⟩
def bankLocked : Fld := ⟨0x30000C, 2, 2⟩
def bankInit : Fld := ⟨0x30000C, 1, 0⟩
def bankFailed : Fld := ⟨0x300010, 7, 7⟩
def bankDegraded : Fld := ⟨0x300010, 6, 6⟩
def bankRemapUsed : Fld := ⟨0x300010, 2, 0⟩
def bankAlias : Fld := ⟨0x300014, 11, 0⟩
def bankAliasValid : Fld := ⟨0x300014, 31, 31⟩
def bankCorrected : Fld := ⟨0x300018, 31, 0⟩
def bankUncorr : Fld := ⟨0x30001C, 31, 0⟩
def bankDenied : Fld := ⟨0x300020, 31, 0⟩
def bankLastError : Nat := 0x300024
def bankScrubPos : Fld := ⟨0x300028, 14, 0⟩
def bankRemap : Nat := 0x300030
def bnkDegradedCount : Fld := ⟨0x330004, 31, 16⟩
def bnkFailedCount : Fld := ⟨0x330004, 15, 4⟩
def moveDegraded : Fld := ⟨0x330008, 0, 0⟩
def bnkStandby : Nat := 0x330010
def bnkCorrected : Fld := ⟨0x330100, 63, 0⟩
def bnkUncorr : Fld := ⟨0x330108, 63, 0⟩
def bnkUnwritten : Fld := ⟨0x330110, 63, 0⟩
def bnkDenied : Fld := ⟨0x330118, 63, 0⟩
def bnkRemaps : Fld := ⟨0x330120, 63, 0⟩
def bnkScrubRounds : Fld := ⟨0x330128, 63, 0⟩

/-! UNIT (Table 16.8) -/
def unitGen : Fld := ⟨0x400004, 31, 0⟩
def unitCmd : Nat := 0x400008
def unitCmdStatus : Nat := 0x400010
def unitRequests : Fld := ⟨0x400100, 63, 0⟩
def unitRejected : Fld := ⟨0x400108, 63, 0⟩

/-! Engine windows (Tables 3.7 to 3.15, 4.12 to 4.15), engine 0; engine e is 0x400 × e further -/
def sparesUsed : Fld := ⟨0x480000, 18, 16⟩
def wdogFired : Fld := ⟨0x480004, 3, 3⟩
def arrayBusy : Fld := ⟨0x480004, 0, 0⟩
def passShape : Nat := 0x480010
def passFmt : Nat := 0x480014
def spareMap : Nat := 0x480018
def testRow : Fld := ⟨0x480040, 24, 16⟩
def testCol : Fld := ⟨0x480040, 7, 0⟩
def testA20 : Fld := ⟨0x480048, 31, 0⟩
def testValid : Fld := ⟨0x48004C, 0, 0⟩
def passes : Fld := ⟨0x480080, 63, 0⟩
def streamRows : Fld := ⟨0x480088, 63, 0⟩
def tileLoads : Fld := ⟨0x480090, 63, 0⟩
def feedWaits : Fld := ⟨0x480098, 63, 0⟩
def drainWaits : Fld := ⟨0x4800A0, 63, 0⟩
def escapes : Fld := ⟨0x4800A8, 63, 0⟩
def satMode : Fld := ⟨0x480100, 12, 12⟩
def setState0 : Fld := ⟨0x480100, 1, 0⟩
def setState1 : Fld := ⟨0x480100, 3, 2⟩
def setRun0 : Fld := ⟨0x480100, 8, 6⟩
def setRun1 : Fld := ⟨0x480100, 11, 9⟩
def setEt0 : Fld := ⟨0x480104, 15, 0⟩
def setEt1 : Fld := ⟨0x480104, 31, 16⟩
def setRows0 : Fld := ⟨0x480108, 8, 0⟩
def setRows1 : Fld := ⟨0x480108, 24, 16⟩
def tilesDrained : Fld := ⟨0x480110, 63, 0⟩
def retryRuns : Fld := ⟨0x480118, 63, 0⟩
def boundRuns : Fld := ⟨0x480120, 63, 0⟩
def satTiles : Fld := ⟨0x480128, 63, 0⟩
def lostContrib : Fld := ⟨0x480130, 63, 0⟩
def nvTiles : Fld := ⟨0x480138, 63, 0⟩
def atomicRows : Fld := ⟨0x480140, 63, 0⟩

/-! SEC (Table 15.15) -/
def secAborted : Fld := ⟨0x500004, 8, 8⟩
def secDebug : Fld := ⟨0x500004, 7, 7⟩
def secNoOwner : Fld := ⟨0x500004, 6, 6⟩
def secImage : Fld := ⟨0x500004, 5, 4⟩
def mbxError : Fld := ⟨0x500004, 3, 3⟩
def mbxBusy : Fld := ⟨0x500004, 2, 2⟩
def mbxDone : Fld := ⟨0x500004, 1, 1⟩
def measDone : Fld := ⟨0x500004, 0, 0⟩
def mbxCmd : Nat := 0x500008
def mbxReq : Nat := 0x500010
def mbxResp : Nat := 0x500018
def mbxRespMax : Nat := 0x500020
def bootCount : Fld := ⟨0x500024, 31, 0⟩
def svn : Fld := ⟨0x500028, 15, 0⟩
def svnFloor : Fld := ⟨0x500028, 31, 16⟩
def keyState : Nat := 0x50002C
def measBase : Nat := 0x500100
def startRecord : Nat := 0x500300
def testStateF : Fld := ⟨0x500400, 1, 0⟩
def patternsDone : Fld := ⟨0x500400, 23, 8⟩

/-! MGT (Table 16.10) -/
def mgtStatus : Nat := 0x600004
def romOnly : Fld := ⟨0x600004, 8, 8⟩
def mgtFault : Fld := ⟨0x600004, 7, 7⟩
def mgtTherm : Fld := ⟨0x600004, 6, 6⟩
def mgtCap : Fld := ⟨0x600004, 5, 4⟩
def mgtExcursion : Fld := ⟨0x600004, 3, 3⟩
def sensorDegraded : Fld := ⟨0x600004, 2, 2⟩
def limitW : Fld := ⟨0x600008, 11, 0⟩
def tjWarn : Fld := ⟨0x60000C, 7, 0⟩
def slotIdReg : Fld := ⟨0x600010, 23, 18⟩
def eid : Fld := ⟨0x600010, 15, 8⟩
def dynAddr : Fld := ⟨0x600010, 6, 0⟩
def pIn : Fld := ⟨0x600020, 15, 0⟩
def pAvg : Fld := ⟨0x600024, 15, 0⟩
def vIn : Fld := ⟨0x600028, 15, 0⟩
def vCore : Fld := ⟨0x60002C, 15, 0⟩
def beatRate : Fld := ⟨0x600030, 15, 0⟩
def tjCompute : Fld := ⟨0x600034, 31, 24⟩
def tjIo : Fld := ⟨0x600034, 23, 16⟩
def hbmMax : Fld := ⟨0x600034, 15, 8⟩
def dimmMax : Fld := ⟨0x600034, 7, 0⟩
def energy : Fld := ⟨0x600040, 63, 0⟩
def capMs : Fld := ⟨0x600100, 63, 0⟩
def sensorFaults : Fld := ⟨0x600108, 63, 0⟩
def mctpMsgs : Fld := ⟨0x600110, 63, 0⟩
def mcRestarts : Fld := ⟨0x600118, 63, 0⟩

end Sys2Proof.Machine.Reg
end

