-- ==== Sys2Proof/Machine/State.lean ====
section
/-!
DEFINITION. The machine's state: registers, memory and everything the manual gives the device besides, as plain data,
and the state right after power-on.
-/
namespace Sys2Proof.Machine

open Sys2Proof

/-- What a command is answered with or what leaves the device at its boundary while a command runs. `State.out` holds
those of the last command, in order. -/
inductive Out where
  /-- An I3C in-band interrupt with its payload byte (R531). -/
  | ibi (payload : Nat)
  /-- An MSI-X message (R488). -/
  | msix (vector addr data : Nat)
  /-- A flit sent on a port (R336). -/
  | flit (port : Nat) (bytes : List Byte)
  /-- What the port's lanes send, as PAM4 levels by logical lane: a training frame (R328), or a FEC frame (R334). -/
  | lanes (port : Nat) (levels : List (Nat × List Nat))
  /-- A message answered over the mailbox, DOE or the management path. -/
  | response (bytes : List Byte)
  /-- A register value returned. -/
  | value (v : Nat)
  /-- The status of an access and the bytes it returns. -/
  | access (status : Nat) (bytes : List Byte)
  /-- Poison returned to the host (R480). -/
  | poison
  /-- Unsupported Request (Table 14.1). -/
  | unsupported
  /-- The answer to a snoop (R474). -/
  | snoopRspIHitI
  /-- A far-tier access sent over the host link: address, byte count, write (R482). -/
  | far (addr bytes : Nat) (write : Bool)
  deriving DecidableEq, Repr

/-- One record of the call board (R564). -/
structure EvRec where
  code : Nat
  sev : Nat
  action : Bool
  coalesced : Bool
  unit : Nat
  seq : Nat
  /-- LOCAL_US: a free value, no clock is modelled. -/
  us : BitVec 64
  job : Nat
  epoch : Nat
  step : Nat
  count : Nat
  gen : Nat
  status : Nat
  args : List Nat
  deriving DecidableEq, Repr

/-- The levels of the pins and supplies as they count (R529, R530, R550 to R554). -/
structure Pins where
  /-- The 3.3 V standby supply is up. -/
  vsb : Bool
  stby : Bool
  pwr : Bool
  /-- PERST_N is asserted. -/
  perst : Bool
  /-- The 48 V input is above the lockout threshold. -/
  vin : Bool
  ref : Bool
  fclk : Bool
  /-- SLOT_ID as strapped now. -/
  slot : Nat
  /-- A change of SLOT_ID has been recorded in this start. -/
  slotSeen : Bool
  /-- PERST_N is released and its release counts: the device is not held in reset (R552). -/
  counted : Bool
  /-- The timers' last calibration (R4): a free value. -/
  cal : BitVec 64
  deriving DecidableEq, Repr

/-- What a bank holds besides its register entry and its bytes (08). -/
structure Bank where
  /-- Initialised in valid-bit mode at its last power-up (R282). -/
  validBit : Bool
  /-- By line: which of its 64 bytes are defined (R283), all or none in valid-bit mode (R285). -/
  defined : SMap Nat
  /-- Correction tracker, most recently corrected first (R286). -/
  tracker : List Nat
  /-- A BANK_DENIED record has been made in this step (R273). -/
  denied : Bool
  /-- Job slots whose tensors lock the bank (R275). -/
  holders : List Nat
  /-- Power was removed and the bank has not been initialised since (Table 8.1, R282). -/
  lost : Bool
  /-- Patrol scrub has reached the bank's last word in this round (R290, R297). -/
  scrubbed : Bool
  deriving DecidableEq, Repr

/-- A row of a remap table or retired list (Table 9.12). -/
structure RowEntry where
  ppr : Bool
  spare : Nat
  pc : Nat
  row : Nat
  deriving DecidableEq, Repr

/-- An HBM stack besides its register window (09). -/
structure Stack where
  tracker : List (Nat × Nat)
  remap : List RowEntry
  retired : List RowEntry
  /-- By pseudo channel, bit k: its spare row k is in use or left for good (R308). -/
  spares : SMap Nat
  /-- Consecutive samples that would let the level fall (R314). -/
  cool : Nat
  /-- The temperature sensor is faulty (R544), and how many samples in a row gave no reading. -/
  faulty : Bool
  silent : Nat
  deriving DecidableEq, Repr

/-- A DDR channel besides its register window (09). -/
structure Channel where
  level : Nat
  cool : Nat
  temp : Nat
  faulty : Bool
  silent : Nat
  /-- Retired 4 KiB pages by device address (R320). -/
  retired : List Nat
  /-- Lines corrected since reset, for the health record's repair list (R320). -/
  corrected : List Nat
  /-- Rows listed for hard repair (R320). -/
  repair : List Nat
  deriving DecidableEq, Repr
/-! ### Cues, queues and operation slots (07) -/

/-- A fetched cue: its 64 bytes as the ring held them, where it came from, and what it was given when it was fetched. -/
structure CueRec where
  /-- Arrival number: held cues issue in this order (R241). -/
  id : Nat
  raw : List Byte
  /-- The queue it was posted on; none for the program queue of its job (R239) and for the MATINEE section. -/
  queue : Option Nat
  /-- The job slot it belongs to, if its JOB_ID names a loaded job. -/
  job : Option Nat
  /-- Epoch of its attempt, or the matinee epoch 0xFFFF_FFFF; none outside any attempt (R249). -/
  epoch : Option Nat
  /-- Step counter of its attempt. -/
  step : Nat
  /-- Its attempt has not opened yet (R244, R259). -/
  ahead : Bool
  /-- It was moved into its job's hold store (R241). -/
  held : Bool
  deriving DecidableEq, Repr

/-- An operation slot (R243). -/
structure OpSlot where
  cue : CueRec
  /-- Run number under R147. -/
  run : Nat
  /-- Rows acknowledged under R145. -/
  rows : Nat
  /-- The operation's row of the table has been carried out (its tiles or transfers may still be under way). -/
  started : Bool
  /-- Tiles or transfers still to be acknowledged. -/
  left : Nat
  status : Nat
  /-- TAG returned instead of the cue's own (R264). -/
  tagOut : Option Nat
  /-- Byte offset of the field that rejected the cue, or 0xFFFF (Table 14.5). -/
  detail : Nat
  /-- A64_SATURATED has been recorded for the product (R149). -/
  satNoted : Bool
  /-- Rungs raised per tensor when the cue issued: its tiles keep them (R188). -/
  rungs : SMap Nat
  deriving DecidableEq, Repr

/-- The device's copy of a queue descriptor while the queue is enabled or stopped (Table 7.3), the applied CPL_HEAD
(R485), the queue's level-3 bit of the doorbell tree (R238) and its waiting completion records. -/
structure Queue where
  /-- 0 DISABLED, 1 ENABLED, 2 STOPPED. -/
  state : Nat
  log2 : Nat
  bound : Bool
  slot : Nat
  cplLog2 : Nat
  vector : Nat
  ring : Nat
  cplBase : Nat
  head : Nat
  tail : Nat
  cplTail : Nat
  cplHead : Nat
  bell : Bool
  /-- A disable command waits for the cues in flight (R266). -/
  disabling : Bool
  /-- Records that wait for room (R485), oldest first. -/
  recs : List (List Byte)
  deriving DecidableEq, Repr

/-- A queue never enabled since the start. -/
def Queue.off : Queue :=
  { state := 0, log2 := 0, bound := false, slot := 0, cplLog2 := 0, vector := 0, ring := 0
    cplBase := 0, head := 0, tail := 0, cplTail := 0, cplHead := 0, bell := false, disabling := false, recs := [] }

/-! ### Jobs (07) -/

/-- A lent shard buffer (R248). -/
structure Shard where
  source : Nat
  shard : Nat
  samples : Nat
  buf : Nat
  newEpoch : Bool
  /-- The DATA cue's operation slot, completed when a snapshot lies after the last sample. -/
  op : Nat
  /-- Its samples that attempts have consumed, newest first: the step counter from which a snapshot lies behind them, and how many
  from its first on. -/
  taken : List (Nat × Nat)
  deriving DecidableEq, Repr

/-- A write held in the outbound buffer until COMMIT (R252, R261). -/
inductive Held where
  | cpl (queue : Nat) (rec : List Byte)
  | metric (addr : Nat) (bytes : List Byte)
  | torus (port : Nat) (msg : List Byte)
  deriving DecidableEq, Repr

/-- The tensor-level choices of a step (R95). -/
structure TensorExp where
  /-- Pre-scale p of the tensor. -/
  pre : Int
  /-- Et or Ec by history; none: bound mode (R96). -/
  hist : Option Rat
  /-- The B-mode step counter of the tensor advances at the update (R96). -/
  bmode : Bool
  deriving DecidableEq, Repr

/-- What a tile of the step's sample plan is (R169, R170). -/
structure Planned where
  prod : Nat
  mb : Nat
  tile : Nat
  damage : Bool
  /-- Where its room in the sample buffer begins (R170). -/
  room : Nat
  deriving DecidableEq, Repr

/-- A loaded job: the parsed package and everything of the attempt that is not a register of the JOB block. -/
structure Job where
  /-- The 128 header bytes; the seed is in them and no register reads it (R208). -/
  header : List Byte
  program : List (List Byte)
  layout : List (List Byte)
  recipe : List (List Byte)
  data : List (List Byte)
  finish : List (List Byte)
  draw : List (List Byte)
  coll : List (List Byte)
  upd : List (List Byte)
  hist : List (List Byte)
  matinee : List (List Byte)
  /-- Device addresses of the history records and of the collective descriptors. -/
  histBase : Nat
  collBase : Nat
  /-- Every member restored the same step, so the job may start (R438). -/
  startOk : Bool
  /-- F32 codes that the attempt's LOSS cues read, by step-program index (R432). -/
  losses : SMap (List Nat)
  /-- Changes that wait for the next attempt open (R247, R253, R262). -/
  pendRecipe : List (Nat × List Byte)
  pendParam : List (Nat × Nat × Nat)
  pendMatinee : Option Nat
  /-- Engines the matinee slice holds: 0, 8 or 16 (R262). -/
  matineeSize : Nat
  /-- An attempt is open. -/
  isOpen : Bool
  /-- The attempt of `epoch` was abandoned and no other has opened since: no epoch is open (R358). -/
  lapsed : Bool
  epoch : Nat
  /-- Consecutive abandoned attempts of this step (R249). -/
  failed : Nat
  /-- Next program cue to replay, and INDEX values completed in the attempt (R240). -/
  pc : Nat
  /-- Next cue of the MATINEE section to replay; its end once a pass over it is done (R263). -/
  mpc : Nat
  issued : List Nat
  completed : List Nat
  fwdIssued : Nat
  /-- FWD cues issued ahead, for the attempt that opens next. -/
  aheadFwd : Nat
  /-- Micro-batch boundaries reached (R188). -/
  boundaries : Nat
  exps : List TensorExp
  /-- Those of the attempt that opens next, once a cue has run ahead for it (R95). -/
  expsAhead : Option (List TensorExp)
  /-- The attempt reduces every Ec in B mode after a saturation (Table 7.10). -/
  allB : Bool
  plan : List Planned
  /-- Rungs raised per tensor in the step, triggers met since the last boundary (R187). -/
  rungs : SMap Nat
  trig : List Nat
  /-- Tensors flagged in a large cast (R192); ladder-exhausted events already made (R185). -/
  flagged : List Nat
  exhausted : List Nat
  stormW : Nat
  stormF : Nat
  /-- Records written so far, each in an attempt or by a cue outside any (R575): scope and tensor. -/
  recWritten : List (Nat × Nat)
  /-- Escapes granted in the same scopes: scope, tensor, band block, outer index (R81). -/
  granted : List (Nat × Nat × Nat × Nat)
  /-- NUM_POLICY, NUM_THRESH and NUM_STORM as of the step's start (R195). -/
  policy : Nat
  thresh : Nat
  stormMin : Nat
  /-- Rung-up blocks that the sample buffer holds, by the address of their codes (R172). -/
  rungUp : List Nat
  /-- Engines that have computed a tile of the attempt other than check runs (Table 5.3). -/
  worked : List Nat
  /-- The rung-up copies' records, by the address of their part (R172); a copy of a raised tensor's blocks has the address after it. -/
  rungUpRec : SMap (List Byte)
  /-- Rung-up blocks of raised tensors, which the plan reserved no room for: scale entry and codes by the block's name in `rungUp`
  (R172, log entry 73). -/
  wideUp : SMap (List Nat)
  /-- Per-tensor step amax as a W16 magnitude code, for the histories (R94); that of the cues run ahead, for the next step. -/
  amax : SMap Nat
  amaxAhead : SMap Nat
  /-- History records of a job whose package brings none, by index (R99). -/
  ownHist : SMap (List Byte)
  /-- Silent-gradient evidence of the step: tensor with a nonzero block seen (1) or only zero blocks (0) (R197). -/
  blocksSeen : SMap Nat
  /-- Curtain inputs: LOSS cues that saw a non-finite element, collectives that saturated (R251). -/
  nfLoss : Nat
  sat : Nat
  /-- LOSS cues run ahead that saw a non-finite element, for the attempt that opens next (R251, R260). -/
  nfLossAhead : Nat
  /-- s_T of the gradients as they were complete, as F32 codes by tensor (R576). -/
  gradSums : SMap Nat
  /-- The reduced S of the curtain as an F32 code (R251). -/
  normS : Nat
  curtainPassed : Bool
  /-- Data cursor: the shards lent, the sample a restored cursor begins at in the first one, and the data epoch of the samples
  consumed (R248). -/
  shards : List Shard
  sample : Nat
  dataEpoch : Nat
  /-- The outbound buffer (R261), oldest first, each with the epoch of its attempt. -/
  outbound : List (Nat × Held)
  large : Bool
  /-- Working copies are to be rebuilt from the masters before the next attempt (R149, R403). -/
  rebuildDue : Bool
  /-- JOB_STOP without IMMEDIATE waits for the step boundary. -/
  stopNext : Bool
  /-- Bank or row of the uncorrectable data that caused the last rollback (R293). -/
  lastBad : Option Nat
  /-- ADD_SATURATED already recorded for these target tiles in this step (R159). -/
  addSat : List Nat
  deriving DecidableEq, Repr

/-! ### Engines (03, 04, 05) -/

/-- One element of an accumulator set. -/
structure AccEl where
  v : Int
  ovf : Bool
  deriving DecidableEq, Repr

/-- A tile's work on an engine: which tile of which operation, and in which role (R167, R168, R176). -/
structure TileWork where
  op : Nat
  /-- 0 the tile itself, 1 fault-check run, 2 third run, 3 rung-up run. -/
  role : Nat
  tile : Nat
  engine : Nat
  r0 : Nat
  rows : Nat
  c0 : Nat
  cols : Nat
  et0 : Int
  etB : Int
  bound : Bool
  sampled : Bool
  /-- Slice count the product was issued at (R112, R183). -/
  slices : Nat
  /-- The tile's rows have been acknowledged by the memory (R145). -/
  acked : Bool
  deriving DecidableEq, Repr

/-- An accumulator set that is not IDLE (R140). -/
structure AccSet where
  work : TileWork
  et : Int
  run : Nat
  /-- Passes still to be made, as K-tile, i, j (R113). -/
  passes : List (Nat × Nat × Nat)
  elems : List AccEl
  nv : Bool
  lost : Nat
  bound : Bool
  /-- OVF carried from an UPDATE-mode base (R143). -/
  ovf : Bool
  /-- An overflow in normal service waits for the retry (R147). -/
  overflow : Bool
  /-- The narrow tile has been drained and waits for its second drain (R187). -/
  second : Bool
  /-- A pass of the run has been made. -/
  begun : Bool
  deriving DecidableEq, Repr

/-! What a quantiser and a drain hand on (R78, R151 to R158) -/

/-- What the quantiser counts over the blocks of one write (R78). -/
structure WStats where
  clip : Nat
  flush : Nat
  granted : Nat
  excess : Nat
  nv : Nat
  blocks : Nat
  zeros : Nat
  scaleMax : Nat
  escAmax : Nat
  /-- Largest source magnitude, W16 rounded upward (R94). -/
  amax : Nat
  deriving DecidableEq, Repr

/-- A run of source values: outer index, first position (a multiple of the segment length), values. -/
structure Span where
  r : Nat
  k : Nat
  vals : List Val
  deriving DecidableEq, Repr

/-- Everything one quantised write does besides storing: the writes of its planes and those of its fall-back copy, its records (tensor,
address, own bytes), its counts and the copy's, the positions that drew random bits, the segments whose signs were drawn, the blocks
written as (band block, outer index), and those of them with a granted escape. -/
structure QuantOut where
  writes : List (Nat × List Byte)
  wide : List (Nat × List Byte)
  recs : List (Nat × Nat × List Byte)
  stats : WStats
  /-- Tensor and counts of the fall-back copy. -/
  copy : Option (Nat × WStats)
  drawn : List (Nat × Nat)
  segs : Nat
  /-- Key epoch of its rotation signs, if they go by STEP (R88). -/
  rotEpoch : Option Nat
  blocks : List (Nat × Nat)
  granted : List (Nat × Nat)
  deriving DecidableEq, Repr

/-- Everything the drain of a tile produces. -/
structure Drained where
  status : Nat
  /-- The writes of an output that is not block-scaled. -/
  plain : List (Nat × List Byte)
  /-- Row records (R155, R156). -/
  rows : List (Nat × List Byte)
  quant : Option QuantOut
  /-- The tile counts as one with OVF: its header carries it, or a conversion overflowed to infinity (R59). -/
  ovf : Bool
  nv : Bool
  /-- What was quantised, and its pre-scale. -/
  spans : List Span
  pre : Int
  deriving DecidableEq, Repr

/-- A drained tile in a pair of capture areas (R170, R173): its set, and the finishing stage's output. -/
structure TileResult where
  engine : Nat
  et : Int
  elems : List Int
  ovf : Bool
  nv : Bool
  lost : Nat
  retries : Nat
  bound : Bool
  out : Drained
  deriving DecidableEq, Repr

/-- A held tile (R173). -/
structure HeldTile where
  work : TileWork
  damage : Bool
  a : TileResult
  b : Option TileResult
  c : Option TileResult
  wide : Option TileResult
  /-- 0 none yet, 1 agreed, 2 B faulty, 3 A faulty, 4 unresolved, 5 a mismatch that waits for the third run. -/
  verdict : Nat
  deriving DecidableEq, Repr

/-! ### Ports and the cast (10, 11) -/

/-- A transaction message: the 48-byte header and the body (R351). -/
structure Msg where
  vc : Nat
  bytes : List Byte
  /-- Input slots that its flits still hold (R344). -/
  flits : Nat
  /-- Held apart for a later epoch (R358). -/
  apart : Bool
  deriving DecidableEq, Repr

/-- A request awaiting its response (R360): its tag, opcode, the operation slots it works for or covers (R356) and where
its data goes. -/
structure Outstanding where
  tag : Nat
  opcode : Nat
  ops : List Nat
  dst : Nat
  bytes : Nat
  /-- What the response is for: 0 an operation, 1 a fill, 2 a book read, 3 the covering of forwarded transactions, 4 a drain. -/
  use : Nat
  deriving DecidableEq, Repr

/-- A torus port besides its register window. -/
structure Port where
  /-- Step of Table 10.4 reached, 0 before lock. -/
  train : Nat
  /-- Full trainings failed in a row (R348). -/
  failed : Nat
  /-- Per physical lane: last control words' logical lane number plus 1 (0 none) and how many valid ones in a row. -/
  lanes : List (Nat × Nat)
  inverted : Nat
  reversed : Bool
  /-- At 8 lanes: logical lanes 8 to 15 are the ones in use (R329). -/
  upper : Bool
  /-- PHASE received; COEF_REQ and COEF_STATUS received and ready frames received, by logical lane; LAST received. -/
  phaseIn : Nat
  coefIn : List Nat
  coefDone : List Nat
  readyIn : List Nat
  lastIn : Bool
  /-- Ready frames sent on each lane; LAST sent (Table 10.4, step 5). -/
  readyOut : Nat
  lastOut : Bool
  /-- The transmitter's pre, main and post taps as steps from the preset, at 3 × logical lane; the outcome of each lane's last request
  (R330). -/
  taps : List Int
  coefStatus : List Nat
  /-- Bytes of the link stream that wait for a whole FEC frame (R333). -/
  stream : List Byte
  /-- Consecutive good FEC frames (R330). -/
  fecGood : Nat
  /-- Frames and flits since FEC lock, and the uncorrectable codewords as (frame, codeword) (R335). -/
  fecCount : Nat
  flitCount : Nat
  badCw : List (Nat × Nat)
  /-- Corrected symbols per logical lane and uncorrectable codewords of the running 1 ms window (R348). -/
  winCorr : List Nat
  winUncorr : Nat
  txSeq : Nat
  rxSeq : Nat
  /-- Unacknowledged DATA flits with their SEQ, oldest first (R340). -/
  replay : List (Nat × List Byte)
  /-- SEQ from which the next flits are resent, while a replay runs. -/
  resend : Option Nat
  replays : Nat
  nakSend : Bool
  nakArmed : Bool
  /-- Per VC 0 to 5: credits, freed total last reported to and received from the partner, freed not reported. -/
  credits : List Nat
  crRx : List Nat
  crTx : List Nat
  freed : List Nat
  crNext : Nat
  /-- Round robin place among VCs 0, 1, 2, 5: flits left of the current turn. -/
  arbVc : Nat
  arbLeft : Nat
  initRx : Bool
  initSeenTx : Bool
  initSeenRx : Bool
  /-- The partner's last INIT: RESUME, NEXT_RX, REPLAY, GRANT of VCs 0 to 5. -/
  initIn : List Nat
  /-- Link state is kept from before a training, and the next INIT carries RESUME (R349). -/
  live : Bool
  /-- The link came back with its state kept, so flits of every VC may be replayed in HELLO (R349). -/
  resumed : Bool
  /-- Partly received messages per VC: bytes so far, flits, and input slots that these still hold (R344). -/
  partly : List (List Byte × Nat × Nat)
  /-- Assembled messages not yet applied, in order of arrival. -/
  inbox : List Msg
  /-- Messages to send per VC, oldest first, cut into payloads; the first one may be partly sent. A payload that is forwarded names the
  port whose input slot it holds until it is sent (R380). -/
  outbox : List (Nat × Bool × Bool × Option Nat × List Byte)
  outstanding : List Outstanding
  nextTag : Nat
  /-- The running fence report (R357): ERRORS, FIRST_TAG, FIRST_STATUS; a TXN_REJECTED record was made this step. -/
  errors : Nat
  firstTag : Nat
  firstStatus : Nat
  rejectedStep : Bool
  /-- Ports to which transactions received here were forwarded, with the tag of the FENCE that covers them once it is sent
  (R380). -/
  fwd : List (Nat × Option Nat)
  /-- HELLO: sent and acknowledged, received (R362). -/
  helloAcked : Bool
  helloIn : Bool
  testOpen : Bool
  /-- Hash recorded when the neighbour became FAILED (R447). -/
  hash : Option Nat
  pulseTx : Nat
  /-- Last PULSE_SEQ received within the last 240 local µs, consecutive missed pulses (R365). -/
  pulseRx : Option Nat
  missed : Nat
  deriving DecidableEq, Repr

/-- A port that is OFF. -/
def Port.off : Port :=
  { train := 0, failed := 0, lanes := List.replicate 16 (0, 0), inverted := 0, reversed := false, upper := false, phaseIn := 0
    coefIn := List.replicate 16 0, coefDone := List.replicate 16 0, readyIn := List.replicate 16 0, lastIn := false, readyOut := 0
    lastOut := false, taps := List.replicate 48 0, coefStatus := List.replicate 16 0, stream := [], fecGood := 0, fecCount := 0, flitCount := 0, badCw := [], winCorr := List.replicate 16 0
    winUncorr := 0, txSeq := 0, rxSeq := 0, replay := [], resend := none, replays := 0, nakSend := false, nakArmed := true
    credits := List.replicate 6 0, crRx := List.replicate 6 0, crTx := List.replicate 6 0, freed := List.replicate 6 0
    crNext := 0, arbVc := 0, arbLeft := 0, initRx := false, initSeenTx := false, initSeenRx := false, initIn := []
    live := false, resumed := false, partly := List.replicate 6 ([], 0, 0), inbox := [], outbox := [], outstanding := []
    nextTag := 0, errors := 0, firstTag := 0, firstStatus := 0, rejectedStep := false, fwd := [], helloAcked := false
    helloIn := false, testOpen := false, hash := none, pulseTx := 0, pulseRx := none, missed := 0 }

/-- A query this device originated (R398, R399). -/
structure Query where
  port : Nat
  subject : Nat
  /-- A REPORT of liveness has arrived. -/
  alive : Bool
  deriving DecidableEq, Repr

/-- One transfer of a collective's schedule (R387, R391, R394, R395): sent or awaited, on which port, with which round field,
for which positions of the data, and how a received value joins the one held: 0 stored, 1 added, 2 the larger, 3 XOR. -/
structure Hop where
  send : Bool
  port : Nat
  round : Nat
  elems : List Nat
  how : Nat
  deriving DecidableEq, Repr

/-- A collective in progress: of an operation slot, or one of the device's own by its reserved index. -/
structure Coll where
  op : Option Nat
  desc : List Byte
  index : Nat
  epoch : Nat
  /-- Bytes of one position on the wire: 4 for I32 elements, 1 for bytes. -/
  width : Nat
  /-- Partial sums, totals or bytes, by position. -/
  data : List Int
  /-- The transfers left on the axis that runs now, one list for each half. -/
  tracks : List (List Hop)
  /-- Axes still to run: axis, and whether in the gather order. -/
  passes : List (Nat × Bool)
  /-- The positions held now, and those held before each ring axis. -/
  share : List Nat
  shares : List (Nat × List Nat)
  /-- Ports that it has sent transfers on (R356). -/
  sent : List Nat
  /-- Chunks of the awaited transfers that have come: round field × 2^24 + chunk. -/
  got : List Nat
  ec : Int
  bound : Bool
  sat : Bool
  deriving DecidableEq, Repr

/-- The device's part of the cast and the notices (R366 to R377, R398 to R402). -/
structure Fabric where
  nseq : Nat
  /-- The last 256 (ORIGIN, NSEQ) pairs seen, newest first (R368). -/
  seen : List (Nat × Nat)
  queries : List Query
  /-- Subjects whose QUERY is still to be answered (R398). -/
  toReport : List Nat
  /-- Open windows in force since the last JOB_LOAD: base, size in bytes, permissions, exponent (R381, R402). -/
  windows : List (Nat × Nat × Nat × Int)
  /-- Ports with a link fault's full training running (R399). -/
  faulted : List Nat
  /-- Slow-progress notices are being sent (R315). -/
  slow : Bool
  /-- CAST_ID, CAST_ORIGIN and CAST_EXTENT of the cast that forms or stands (R376). -/
  formed : Nat × Nat × Nat
  /-- In-cast ports whose neighbour FAILED and that have not been UP since (R377). -/
  broken : List Nat
  deriving DecidableEq, Repr

/-! ### Interval, checkpoints and failover (12, 13) -/

/-- A protected item (Table 12.1) with its placement in a slot and its protection (R404, R416 to R418). -/
structure Item where
  kind : Nat
  index : Nat
  /-- Live bytes: device address and length of each piece, in order; none for items the device holds itself. -/
  src : List (Nat × Nat)
  bytes : Nat
  slotOff : Nat
  /-- Offset of its base in the partner's region, if it has one. -/
  base : Option Nat
  baseValid : Bool
  /-- Dirty 4 KiB blocks since the base's generation (R417). -/
  dirty : List Nat
  /-- Method at the last interval: 0 NONE, 1 MIRROR, 2 PARITY; every block shipped; blocks shipped; PROT_OFF. -/
  method : Nat
  fullMirror : Bool
  shipped : Nat
  protOff : Nat
  deriving DecidableEq, Repr

/-- The interval, its slots and its drain, exports and votes. -/
structure Ckp where
  /-- Job slot the protection belongs to. -/
  job : Option Nat
  items : List Item
  /-- Slots sealed, by slot: the step of each (R405). -/
  sealed : List (Option Nat)
  /-- A protected step exists (R410). -/
  hasP : Bool
  index : Nat
  /-- Settings latched at JOB_LOAD (R439): SNAP, MIRROR and PARITY base and size; CKP_CTRL, CKP_PROT, CKP_EXPORT;
  export base and slot size; FOV_CTRL and FOV_TIMERS. -/
  snapBase : Nat
  snapSize : Nat
  mirrorBase : Nat
  mirrorSize : Nat
  parityBase : Nat
  paritySize : Nat
  ctrl : Nat
  prot : Nat
  exportCtl : Nat
  exportBase : Nat
  exportSize : Nat
  fovCtrl : Nat
  /-- The partner's, source's and group's place (R414, R415). -/
  mirrorOk : Bool
  parityOk : Bool
  correlated : Bool
  /-- The next commit takes an interval whatever INTERVAL_STEPS says (R408). -/
  mustRun : Bool
  /-- The next interval is full (R410, R433). -/
  full : Bool
  /-- A JOB_START's full interval and its barrier are still to run before the first attempt opens (R410). -/
  starting : Bool
  /-- An interval stop is under way, and what waits for its end (R472): 0 a shield, 1 this device's expulsion. -/
  stopping : Bool
  afterStop : List Nat
  /-- The barrier of R409 must be passed before anything else of the job runs. -/
  barrier : Bool
  /-- Sums of the protection vote that take effect at COMMIT: PENDING, FAILED (R407, R408). -/
  vote : Option (Nat × Nat)
  /-- Journal of the mirror source held for its pending slot (R418): where each piece goes, where it lies, its bytes. -/
  journal : List (Nat × Nat × Nat)
  /-- Blocks of each item that the drain ships, and whether the mirror's transfers are to be sent again (Table 12.7). -/
  ship : List (List Nat)
  reship : Bool
  /-- This member's own witness ring (R421), by index. -/
  ring : SMap (List Byte)
  /-- Stored parity: P's block is the upper one; staging holds a stripe (R423). -/
  parityUpper : Bool
  staged : Bool
  stored : Bool
  /-- Headers of the bulk objects whose bodies the lower and the upper block hold (R226, R228). -/
  heads : List (List Byte)
  /-- Export under way: export slot, step; last export slot used (R437). -/
  exporting : Option (Nat × Nat)
  exportSlot : Nat
  exportRetry : Bool
  deriving DecidableEq, Repr

/-- Failover, understudies and votes. -/
structure Fov where
  /-- Failed members acted on: coordinate and event code, oldest first (R445). -/
  failed : List (Nat × Nat)
  recovery : Bool
  /-- The recovery epoch has an understudy's fill behind the barrier (R454). -/
  barrierPassed : Bool
  /-- This device is an understudy that accepted an order and has not finished its fill. -/
  filling : Bool
  book : List Byte
  bookOk : Bool
  witness : List Byte
  /-- The first attempt after a rollback is a rehearsal (R460). -/
  rehearsal : Bool
  /-- A vote has been started and not acted on: its step (R469). -/
  voting : Option Nat
  /-- Running digest of the open attempt's update pass (R467). -/
  d : Nat
  /-- Numbers of the book's items that are being filled (R313, R455). -/
  filled : List Nat
  /-- The donor (R470), and as an understudy the donor's book (R457). -/
  donor : Nat
  donorBook : List Byte
  fillFailed : Bool
  /-- The device has declared itself failed (R443). -/
  dead : Bool
  /-- FOV_CTRL.ROLE as of reset (R473). -/
  role : Nat
  deriving DecidableEq, Repr

/-! ### Host link (14) -/

/-- A committed HDM decoder: base and size (R480). -/
structure Decoder where
  base : Nat
  size : Nat
  deriving DecidableEq, Repr

/-- The host link besides the DEV registers. -/
structure HostLink where
  d3hot : Bool
  decoders : List (Option Decoder)
  /-- Pages in host bias, as tier × 2^20 + page index (R481). -/
  hostPages : SMap Bool
  /-- The bias change in progress: to host, tier, first page, pages. -/
  bias : Option (Bool × Nat × Nat × Nat)
  /-- IDE keys loaded; a stream is enabled; it is insecure (R491). -/
  ideKeys : List (List Byte)
  ideInsecure : Bool
  /-- ATS is enabled in configuration space; translations held, as 4 KiB host pages (Table 14.1, R482). -/
  ats : Bool
  atc : List Nat
  /-- A DOE request in progress. -/
  doe : Option (List Byte)
  /-- A HOLE_WRITE record has been made in this step (R480). -/
  holeStep : Bool
  /-- Vectors with records visible since their last message (R488). -/
  due : SMap Bool
  deriving DecidableEq, Repr

/-! ### Random streams (06) -/

/-- The cipher cores' keys and counters besides the RNG registers. -/
structure Rng where
  /-- Job slot whose keys are loaded. -/
  job : Option Nat
  /-- Key epoch of the rotation key register (R209). -/
  rotEpoch : Option Nat
  /-- Free-running lane counters, by engine × 256 + lane (R218). -/
  lanes : SMap Nat
  /-- The export secret's 32 bytes (R232). -/
  secret : Option (List Byte)
  deriving DecidableEq, Repr

/-! ### Start and security (15) -/

/-- The fuses (R516). -/
structure Fuses where
  serial : List Byte
  entropy : List Byte
  vendorKeys : List (List Byte)
  vendorRevoked : Nat
  ownerKeys : List (List Byte)
  ownerRevoked : Nat
  svnFloor : Nat
  debugOk : Bool
  /-- Repaired words: bank × 32768 + word. -/
  repairs : List Nat
  deriving DecidableEq, Repr

/-- A fleet test that runs in job slot 3 (R524 to R526). -/
structure TestRun where
  id : Nat
  /-- First 32 bytes of the package's digest. -/
  digest : List Byte
  /-- Units in use, with their earlier states. -/
  held : List (Nat × Nat)
  /-- Pattern index, unit id and outcome, once there is one. -/
  entries : List (Nat × Nat × Option Nat)
  deriving DecidableEq, Repr

/-- The start under way or last made (R505 to R513). -/
structure Boot where
  /-- CAUSE of its record, and self-restarts since the last external start. -/
  cause : Nat
  restarts : Nat
  /-- The image chosen, and whether it is the one not PREFERRED. -/
  image : Nat
  imgAlt : Bool
  /-- Units in their alternate form or left out (Table 15.7); S10 is skipped. -/
  altHbm : Nat
  altDdr : Nat
  dropDdr : Nat
  skip10 : Bool
  /-- Place of its record in the ledger, once begun; the entries of S0 and S1 kept until then. -/
  pos : Option Nat
  early : List (List Byte)
  /-- PREF_SEQ of the NVM header used. -/
  prefSeq : Nat
  /-- The health record in use. -/
  health : List Byte
  /-- d_fw, the digest of the settings part, and COMMIT_SVN of the running image. -/
  dFw : List Byte
  dSet : List Byte
  commitSvn : Bool
  deriving DecidableEq, Repr

/-- The security controller: configuration memory, fuses and everything of the running start that is no register. -/
structure Sec where
  /-- The configuration memory; an erased byte reads 0xFF and is not listed. -/
  nor : SMap Byte
  fuses : Fuses
  /-- Signatures that verify: (key hash, message, signature) (log entry 5). -/
  sigs : List (List Byte × List Byte × List Byte)
  /-- Start step in progress that has not finished (R505); a failed start is to be run again at once (R507). -/
  step : Option Nat
  again : Bool
  /-- The next start is the first since the supplies came up (CAUSE 0x01). -/
  powerOn : Bool
  boot : Boot
  /-- The running image's settings by register: value and ADJ_MASK (R499, R501). -/
  settings : SMap (Nat × Nat)
  /-- Its start settings (Table 15.5) and its keys: kind and public key (R499). -/
  startSet : SMap Nat
  keys : List (Nat × List Byte)
  /-- The runtime log of M6, oldest first (R518). -/
  log : List (List Byte)
  aliasSeed : List Byte
  /-- The fuses that are in effect: changes by KEY_FUSE take effect at the next start (R523). -/
  live : Fuses
  test : Option TestRun
  /-- PACKAGE_ID and result record of the last fleet test. -/
  testDone : Option (Nat × List Byte)
  /-- Health record changes not yet written (R310). -/
  healthDirty : Bool
  /-- Bank words found by patrol scrub: bank × 32768 + word (R515). -/
  words : List Nat
  /-- JTAG: the instruction register. -/
  jtag : Nat
  deriving DecidableEq, Repr

/-! ### Management (16) -/

/-- The management controller and the sensors besides the MGT registers. -/
structure Mgt where
  /-- The first packet of a message has arrived, the rest has not (R533). -/
  assembling : Bool
  /-- Sensors found faulty since reset, and those that gave no reading at their last sample: 0 to 39 the junction sensors, 40 input
  voltage, 41 input current, 42 core voltage (R544). -/
  faulty : List Nat
  silent : List Nat
  /-- Consecutive samples with TJ at 115 °C or above; consecutive cool samples (R541, R543). -/
  trip : Nat
  cool : Nat
  /-- The last 10,000 averages of 100 local µs, newest first, in W; consecutive ones above LIMIT_W (R541). -/
  window : List Nat
  excess : Nat
  /-- Input energy since reset, in units of 0.1 mJ. -/
  energy : Nat
  /-- Core supply in mV (R541, R557). -/
  supply : Nat
  /-- Input voltage at its last sample, in mV; it has been outside 40 to 60 V for over 1 local ms (R544). -/
  vin : Nat
  vinLow : Bool
  /-- Rails removed (R543, R550). -/
  railsOff : Bool
  /-- TJ, and the highest valid readings of the compute die and the I/O dies. -/
  tj : Int
  tjCompute : Int
  tjIo : Int
  /-- Pending unit requests: unit and path (R539). -/
  fences : List (Nat × Nat)
  deriving DecidableEq, Repr

/-! ### The state -/

/-- The whole machine. -/
structure State where
  /-- Every register of BAR0 that differs from its reset value, by offset; a 32-bit register stands in the low half. -/
  regs : SMap DWord
  /-- Bank space, HBM, DDR and the far window, by device address; an unlisted byte reads zero. -/
  mem : Mem
  /-- Counter of free values drawn: the model's own field (log entry 1). -/
  fresh : Nat
  out : List Out
  pins : Pins
  /-- The call board, oldest first, and the occurrences suppressed by code × 65536 + unit (R563, R567). -/
  board : List EvRec
  suppressed : SMap Nat
  queues : SMap Queue
  /-- Last ordinary queue served (R238). -/
  rr : Nat
  /-- Fetched cues not yet issued, in arrival order (R241). -/
  waiting : List CueRec
  nextCue : Nat
  ops : SMap OpSlot
  jobs : SMap Job
  /-- Tiles not yet bound to a set. -/
  tiles : List TileWork
  sets : SMap AccSet
  heldTiles : List HeldTile
  /-- Captured-cell outputs held per engine: the last pass's column sums by cell (R132). -/
  cells : SMap Int
  /-- Engines whose test capture waits for the selected cell's next handshake (R132). -/
  captures : List Nat
  rng : Rng
  banks : SMap Bank
  hbmStacks : SMap Stack
  channels : SMap Channel
  /-- Voided HBM sectors and DDR lines by address (R304, R320). -/
  voided : SMap Bool
  /-- Device address of the last data that an access met uncorrectable, unwritten or denied: what an abort names (R273, R291, R312). The
  model's own field. -/
  badAt : Nat
  ports : SMap Port
  fabric : Fabric
  colls : SMap Coll
  ckp : Ckp
  fov : Fov
  host : HostLink
  sec : Sec
  mgt : Mgt
  /-- The commands that wait, oldest first. -/
  pending : List Instr
  deriving DecidableEq, Repr

/-! ### Stops -/

/-- Reasons a step stops with a fault. -/
inductive Fault where
  /-- A command names a port, bank, engine, queue, slot or other unit that the device does not have (Table 0.8). Raised by
  every meaning whose operand is such a number, before anything changes; safe (log entry 98). -/
  | noSuchUnit
  deriving DecidableEq, Repr

/-- Reasons a step is refused. -/
inductive Refusal where
  /-- The command has no meaning yet. Raised by `exec` only; safe. -/
  | notModelled (mnemonic : String)
  /-- A debug instruction of the test access port while debug is enabled: R527 names it and gives no effect. Raised by
  `execJtagTapInstruction`; safe. -/
  | debugUnit
  deriving DecidableEq, Repr

/-! ### Reset -/

/-- A bank before its first power-up (log entry 6). -/
def Bank.off : Bank :=
  { validBit := true, defined := [], tracker := [], denied := false, holders := [], lost := false, scrubbed := false }

/-- A stack before training. -/
def Stack.off : Stack :=
  { tracker := [], remap := [], retired := [], spares := [], cool := 0, faulty := false, silent := 0 }

/-- A channel before training. -/
def Channel.off : Channel :=
  { level := 0, cool := 0, temp := 0, faulty := false, silent := 0, retired := [], corrected := [], repair := [] }

/-- No cast, no notice seen. -/
def Fabric.off : Fabric :=
  { nseq := 0, seen := [], queries := [], toReport := [], windows := [], faulted := [], slow := false, formed := (0, 0, 0), broken := [] }

/-- No job protected. -/
def Ckp.off : Ckp :=
  { job := none, items := [], sealed := [none, none], hasP := false, index := 0, snapBase := 0, snapSize := 0
    mirrorBase := 0, mirrorSize := 0, parityBase := 0, paritySize := 0, ctrl := 0, prot := 0, exportCtl := 0
    exportBase := 0, exportSize := 0, fovCtrl := 0, mirrorOk := false, parityOk := false, correlated := false
    mustRun := false, full := false, starting := false, stopping := false, afterStop := [], barrier := false, vote := none, journal := [], ship := [], reship := false
    ring := [], parityUpper := false, staged := false, stored := false, heads := [[], []], exporting := none, exportSlot := 1
    exportRetry := false }

/-- No failure seen. -/
def Fov.off : Fov :=
  { failed := [], recovery := false, barrierPassed := false, filling := false, book := [], bookOk := false, witness := []
    rehearsal := false, voting := none, d := 0, filled := [], donor := 0xFFFFFF, donorBook := [], fillFailed := false, dead := false
    role := 0 }

/-- A host link that is down. -/
def HostLink.off : HostLink :=
  { d3hot := false, decoders := [none, none], hostPages := [], bias := none, ideKeys := [], ideInsecure := false
    ats := false, atc := [], doe := none, holeStep := false, due := [] }

/-- No key loaded. -/
def Rng.off : Rng := { job := none, rotEpoch := none, lanes := [], secret := none }

/-- Blank fuses (log entry 8). -/
def Fuses.blank : Fuses :=
  { serial := [], entropy := [], vendorKeys := [[], [], [], []], vendorRevoked := 0, ownerKeys := [[], [], [], []]
    ownerRevoked := 0, svnFloor := 0, debugOk := false, repairs := [] }

/-- No start made. -/
def Boot.off : Boot :=
  { cause := 0, restarts := 0, image := 0, imgAlt := false, altHbm := 0, altDdr := 0, dropDdr := 0, skip10 := false, pos := none
    early := [], prefSeq := 0, health := [], dFw := [], dSet := [], commitSvn := false }

/-- A security controller with erased configuration memory and blank fuses (log entry 8). -/
def Sec.off : Sec :=
  { nor := [], fuses := Fuses.blank, sigs := [], step := none, again := false, powerOn := true, boot := Boot.off
    settings := [], startSet := [], keys := [], log := [], aliasSeed := [], live := Fuses.blank, test := none, testDone := none, healthDirty := false
    words := [], jtag := 0 }

/-- A management controller that has just come up. -/
def Mgt.off : Mgt :=
  { assembling := false, faulty := [], silent := [], trip := 0, cool := 0, window := [], excess := 0, energy := 0, supply := 650
    vin := 0, vinLow := false, railsOff := false, tj := 0, tjCompute := 0, tjIo := 0, fences := [] }

/-- The installation's levels at power-on: standby present, the rest not yet asserted (log entry 7). -/
def Pins.off : Pins :=
  { vsb := true, stby := false, pwr := false, perst := true, vin := true, ref := true, fclk := true, slot := 0
    slotSeen := false, counted := false, cal := 0 }

/-- The device right after power-on: VSB is up, PERST_N is asserted, every register at its reset value, nothing stored. -/
def State.reset : State :=
  { regs := [], mem := [], fresh := 0, out := [], pins := Pins.off, board := [], suppressed := [], queues := [], rr := 0
    waiting := [], nextCue := 0, ops := [], jobs := [], tiles := [], sets := [], heldTiles := [], cells := [], captures := []
    rng := Rng.off, banks := [], hbmStacks := [], channels := [], voided := [], badAt := 0, ports := [], fabric := Fabric.off
    colls := [], ckp := Ckp.off, fov := Fov.off, host := HostLink.off, sec := Sec.off, mgt := Mgt.off, pending := [] }

end Sys2Proof.Machine
end

