-- ==== Sys2Proof/Machine/Ops.lean ====
section
/-!
DEFINITION. The named operations every family uses: registers, raw memory, free values, outputs at the boundary, event
records and interrupts, the unit state table, and the frame every command runs in.
-/
namespace Sys2Proof.Machine

open Sys2Proof

/-! ### Registers (R16, R18) -/

/-- The value of the register at BAR0 offset `off`. -/
def State.rd (s : State) (off : Nat) : Nat :=
  match SMap.find s.regs off with
  | some v => v.toNat
  | none => regReset off

/-- s with the register at `off` at v; reserved bits stay zero (R16). -/
def State.wr (s : State) (off v : Nat) : State :=
  let w := BitVec.ofNat 64 (v &&& regMask off)
  if w.toNat = regReset off then { s with regs := SMap.del s.regs off }
  else { s with regs := SMap.put s.regs off w }

/-- A field's value. -/
def State.fld (s : State) (f : Fld) : Nat := bits f.hi f.lo (s.rd f.off)

/-- s with a field set. -/
def State.setF (s : State) (f : Fld) (v : Nat) : State := s.wr f.off (setBits f.hi f.lo v (s.rd f.off))

/-- s with a counter advanced by n, stopping at its largest value (R133). -/
def State.addF (s : State) (f : Fld) (n : Nat) : State := s.setF f (satAdd (f.hi + 1 - f.lo) (s.fld f) n)

/-- s with a counter advanced by 1. -/
def State.inc (s : State) (f : Fld) : State := s.addF f 1

/-- s with a whole window of counters set to zero: n registers of `step` bytes from `off`. -/
def State.clearRegs (s : State) (off step n : Nat) : State :=
  (List.range n).foldl (fun s i => s.wr (off + step * i) 0) s

/-- The same in window i of `count` windows of `stride` bytes. -/
def State.clearWin (s : State) (off stride count i step n : Nat) : State :=
  if i < count then s.clearRegs (off + stride * i) step n else s

/-- Counters of an engine's window. -/
def State.clearEng (s : State) (e off n : Nat) : State := s.clearWin off 0x400 144 e 8 n

/-- The eleven counters of a port's window (R401). -/
def State.clearPort (s : State) (p : Nat) : State := s.clearWin 0x100100 0x10000 6 p 8 11

/-- The registers of a job slot's window (R267). -/
def State.clearJob (s : State) (slot : Nat) : State := s.clearWin 0x40100 0x100 4 slot 4 0x13

/-! ### Raw bytes -/

/-- The far window (Table 9.1). -/
def farBase : Nat := 0x8000_0000_0000
def farEnd : Nat := 0x1_0000_0000_0000

/-- The byte at a device address; nothing listed reads zero (R299; log entry 9 for the far window). -/
def State.byte (s : State) (a : Nat) : Byte := SMap.get 0 s.mem a

/-- n bytes from address a. -/
def State.bytes (s : State) (a n : Nat) : List Byte := (List.range n).map fun i => s.byte (a + i)

/-- s with bytes written from address a. -/
def State.putBytes (s : State) (a : Nat) (bs : List Byte) : State :=
  { s with mem := SMap.setAll 0 s.mem ((List.range bs.length).zip bs |>.map fun p => (a + p.1, p.2)) }

/-- s with bytes written to the far window; an address below it is none of the window's. -/
def State.putFar (s : State) (a : Nat) (bs : List Byte) : State := if farBase ≤ a then s.putBytes a bs else s

/-- The k-byte little-endian number at address a (R17). -/
def State.num (s : State) (a k : Nat) : Nat := leNat (s.bytes a k)

/-- s with a k-byte little-endian number at address a. -/
def State.putNum (s : State) (a k v : Nat) : State := s.putBytes a (leBytes k v)

/-- s with n zero bytes from address a. -/
def State.zeroBytes (s : State) (a n : Nat) : State :=
  { s with mem := s.mem.filter fun e => !(decide (a ≤ e.1) && decide (e.1 < a + n)) }

/-! ### Outputs and free values -/

/-- s with one more output of the command. -/
def State.emit (s : State) (o : Out) : State := { s with out := s.out ++ [o] }

/-- A free value, and the state with the counter advanced (log entry 1). -/
def State.draw (s : State) : BitVec 64 × State := (Config.freeWord s.fresh, { s with fresh := s.fresh + 1 })

/-- The frame of a command: outputs of the command before are gone, the queue of commands is not the command's. A command
that names a unit the device does not have stops the step. -/
def run (ok : Bool) (f : State → State) (s : State) : Host.Outcome State Fault Refusal :=
  if ok then .next { f { s with out := [] } with pending := s.pending } else .fault .noSuchUnit

/-! ### Interrupts (R488) -/

/-- A record visible behind vector v: v has a message due. -/
def State.signal (s : State) (v : Nat) : State :=
  { s with host := { s.host with due := SMap.put s.host.due v true } }

/-! ### The call board (R563 to R569) -/

/-- The job slot an event names: the first slot whose job is RUNNING (DESIGN CHOICE, log entry 11). -/
def State.runningSlot (s : State) : Option Nat :=
  (List.range 4).find? fun j => s.fld (Reg.jobState.plus (0x100 * j)) == 3

/-- The open epoch of a job slot's attempt, 0 if none is open. -/
def State.slotEpoch (s : State) (j : Nat) : Nat :=
  match SMap.find s.jobs j with
  | some job => if job.isOpen then job.epoch else 0
  | none => 0

/-- The 64 bytes of a record (Table 18.1). -/
def EvRec.bytes (r : EvRec) : List Byte :=
  leBytes 2 0x0801 ++ leBytes 2 r.code ++ leBytes 1 r.sev ++ leBytes 1 (2 * b2n r.action + b2n r.coalesced)
    ++ leBytes 2 r.unit ++ leBytes 8 r.seq ++ leBytes 8 r.us.toNat ++ leBytes 4 r.job ++ leBytes 4 r.epoch
    ++ leBytes 6 r.step ++ leBytes 2 r.count ++ leBytes 4 r.gen ++ leBytes 2 r.status ++ leBytes 2 0
    ++ (List.range 4).flatMap fun i => leBytes 4 (r.args.getD i 0)

/-- Copy a record to the host ring if it is on and has room; else count it dropped (R569). -/
def State.copyToHost (s : State) (r : EvRec) : State :=
  if s.fld Reg.hostRingOn = 1 then
    let n := 2 ^ s.fld Reg.hostRingLog2
    if r.seq - s.rd Reg.hostRingHead ≤ n then
      let s := s.putFar (s.rd Reg.hostRingBase + 64 * (r.seq % n)) r.bytes
      (s.addF Reg.farWriteBytes 64).setF Reg.evtHostFull 0
    else (s.inc Reg.evtDropped).setF Reg.evtHostFull 1
  else s

/-- Write one record to the call board: numbered, counted, signalled and copied. The board runs on standby power (R563). -/
def State.record (s : State) (sev : Nat) (code unit : Nat) (args : List Nat) (status gen : Nat) : State :=
  if s.pins.vsb then
    let key := code * 65536 + unit
    let sup := SMap.get 0 s.suppressed key
    let j := s.runningSlot
    let (us, s) := s.draw
    let r : EvRec :=
      { code, sev, action := (evInfo code).2, coalesced := 0 < sup, unit, seq := s.rd Reg.nextSeq, us
        job := (j.map fun j => s.fld (Reg.jobId.plus (0x100 * j))).getD 0, epoch := (j.map s.slotEpoch).getD 0
        step := (j.map fun j => s.fld (Reg.jobStep.plus (0x100 * j))).getD 0, count := min (sup + 1) 65535
        gen, status, args }
    let full := 4096 ≤ s.board.length
    let s := { s with board := (if full then s.board.drop 1 else s.board) ++ [r]
                      suppressed := SMap.set 0 s.suppressed key 0 }
    let s := (s.wr Reg.nextSeq (r.seq + 1)).inc Reg.evtRecords
    let s := if full then ((s.inc Reg.evtOverwritten).setF Reg.evtWrapped 1).wr Reg.oldestSeq (s.rd Reg.oldestSeq + 1)
             else s.wr Reg.oldestSeq (r.seq - (s.board.length - 1))
    let s := if 3 ≤ sev then s.emit (.ibi 0x01) else s
    let s := if s.fld Reg.irqMin ≤ sev then s.signal (s.fld Reg.evtVector) else s
    s.copyToHost r
  else s

/-- A record of Table 18.3 at the severity the table gives its code. -/
def State.event (s : State) (code unit : Nat) (args : List Nat := []) (status : Nat := 0) : State :=
  s.record (evInfo code).1 code unit args status 0

/-- An occurrence that a rule keeps from making its own record (R567). -/
def State.suppress (s : State) (code unit : Nat) : State :=
  let key := code * 65536 + unit
  { s with suppressed := SMap.put s.suppressed key (SMap.get 0 s.suppressed key + 1) }

/-! ### FAULT_N and THERM_N (R531, R541, R543) -/

/-- Drive FAULT_N; each change raises an in-band interrupt (R531). -/
def State.setFault (s : State) (low : Bool) : State :=
  if s.fld Reg.mgtFault = b2n low then s else (s.setF Reg.mgtFault (b2n low)).emit (.ibi 0x02)

/-- Drive THERM_N; each change raises an in-band interrupt (R531). -/
def State.setTherm (s : State) (low : Bool) : State :=
  if s.fld Reg.mgtTherm = b2n low then s else (s.setF Reg.mgtTherm (b2n low)).emit (.ibi 0x03)

/-! ### The unit state table (R534 to R540) -/

/-- BAR0 offset of a unit's entry (R546). -/
def unitOff (u : Nat) : Nat := 0x400000 + (u / 4096) * 0x8000 + (u % 4096) * 8

/-- Write the entry of a unit that the device has. -/
def State.wrUnit (s : State) (u v : Nat) : State := if unitValid u then s.wr (unitOff u) v else s

/-- A unit's entry. -/
def State.unitEntry (s : State) (u : Nat) : Nat := s.rd (unitOff u)

/-- The state stored for a unit; CLUSTER and CIPHER_GROUP are derived (`State.unitSt`). -/
def State.unitRaw (s : State) (u : Nat) : Nat := bits 3 0 (s.unitEntry u)

/-- The state of engine i. -/
def State.engSt (s : State) (i : Nat) : Nat := s.unitRaw (UId.engine i)

/-- ENG_MIN in effect: as JOB_LOAD latched it, and as FOV_CTRL holds it before any (R473). -/
def State.engMin (s : State) : Nat := bits 11 8 (if s.ckp.fovCtrl = 0 then s.rd 0xE0008 else s.ckp.fovCtrl)

/-- A unit's state with the derived classes of R536. -/
def State.unitSt (s : State) (u : Nat) : Nat :=
  if u / 4096 = 2 then
    let engs := (List.range 9).map fun k => s.engSt ((u % 4096) * 9 + k)
    if engs.countP (fun e => e == US.active || e == US.spare) < s.engMin then US.failed
    else if engs.any (· == US.active) then US.active else US.idle
  else if u / 4096 = 8 then s.engSt ((u % 4096) / 16)
  else s.unitRaw u

/-- Lay out an entry (Table 16.8). -/
def unitWord (gen cause source pend prior st : Nat) : Nat :=
  gen % 2 ^ 32 * 2 ^ 32 + cause % 2 ^ 16 * 2 ^ 16 + source * 4096 + pend * 256 + prior * 16 + st

/-- Change an entry: the generation advances (R535) and one UNIT_STATE record is written (R566). -/
def State.setEntry (s : State) (u cause source pend prior st : Nat) : State :=
  let gen := (s.fld Reg.unitGen + 1) % 2 ^ 32
  let s := (s.setF Reg.unitGen gen).wrUnit u (unitWord gen cause source pend prior st)
  s.record (if st = US.failed then 2 else 0) Ev.unitState u [cause, st, source] 0 gen

/-- Choose the lending engine of a cluster for bulk work (R227): the configured slot, or the next one whose engine may lend, shown in
BULK_ACTIVE with an event; 0xF where none may. -/
def State.lendCluster (s : State) (c : Nat) : State :=
  let want := nibble c (s.rd Reg.bulkEngines)
  let may := fun k =>
    let st := s.engSt (9 * c + k)
    st == US.active || st == US.idle || st == US.spare
  let use := (((List.range 9).map fun k => (want + k) % 9).find? may).getD 15
  let shown := nibble c (s.rd Reg.bulkActive)
  let s := s.wr Reg.bulkActive (setBits (4 * c + 3) (4 * c) use (s.rd Reg.bulkActive))
  if use ≠ want ∧ use ≠ shown ∧ use ≠ 15 then s.event Ev.bulkRedirect (UId.cluster c) [use] else s

/-- The lending engines of all clusters. -/
def State.lend (s : State) : State := (List.range 16).foldl State.lendCluster s

/-- Bulk work is under way: an export, or the drain of a snapshot (R226). -/
def State.bulkBusy (s : State) : Bool := s.fld Reg.ckpExporting == 1 || s.fld Reg.ckpDrainBusy == 1

/-- The lending engine of an object in progress has failed or left the states of R227: the cluster's next eligible engine takes its
place (R228). An object is formed whole, with its nonce, when it is done, so nothing of the discarded part shows. -/
def State.relend (s : State) (e : Nat) : State :=
  let st := s.engSt e
  if s.bulkBusy && nibble (e / 9) (s.rd Reg.bulkActive) == e % 9 && !(st == US.active || st == US.idle || st == US.spare) then
    s.lendCluster (e / 9)
  else s

/-- Set a unit's state. A change by the device while a request is pending drops the request, with a record (R540). -/
def State.putUnit (s : State) (u st cause source : Nat) (prior : Nat := 0) : State :=
  let pend := bits 11 8 (s.unitEntry u)
  let dropped := pend != 0 && source == Src.device
  let path := bits 15 12 (s.unitEntry u)
  let s := s.setEntry u cause source 0 prior st
  if dropped then
    let s := { s with mgt := { s.mgt with fences := s.mgt.fences.filter fun f => f.1 != u } }
    s.event Ev.requestDropped u [pend, path]
  else s

/-- The same for any unit: an engine that lends may have to be replaced for bulk work (R228). -/
def State.setUnit (s : State) (u st cause source : Nat) (prior : Nat := 0) : State :=
  let s := s.putUnit u st cause source prior
  if u / 4096 = 1 then s.relend (u % 4096) else s

/-- The SPARE engine of a cluster with the lowest slot (Table 13.2). -/
def State.spareOf (s : State) (c : Nat) : Option Nat :=
  ((List.range 9).map (9 * c + ·)).find? fun e => s.engSt e == US.spare

/-- A unit that a fleet test holds, with this earlier state (R525). -/
def State.testHolds (s : State) (u st : Nat) : Bool :=
  match s.sec.test with
  | some t => t.held.contains (u, st)
  | none => false

/-- A fleet test holds the unit. -/
def State.inFleetTest (s : State) (u : Nat) : Bool :=
  match s.sec.test with
  | some t => t.held.any fun h => h.1 == u
  | none => false

/-- The engine that can take over in a cluster: a SPARE one, else one that runs a fleet pattern as a spare (R525). -/
def State.spareFor (s : State) (c : Nat) : Option Nat :=
  (s.spareOf c).or (((List.range 9).map (9 * c + ·)).find? fun e => s.testHolds (UId.engine e) US.spare)

/-- A unit leaves the fleet test that holds it; its patterns without an outcome report `outcome` (R525). -/
def State.stopPattern (s : State) (u outcome : Nat) : State :=
  match s.sec.test with
  | some t =>
    { s with sec := { s.sec with test := some { t with
        held := t.held.filter fun h => h.1 != u
        entries := t.entries.map fun e => if e.2.1 = u ∧ e.2.2.isNone then (e.1, e.2.1, some outcome) else e } } }
  | none => s

/-! ### Discarded register writes (R574) -/

/-- The unit whose window or block a BAR0 offset lies in, as WRITE_DISCARDED names it; 0 for a block that belongs to no unit
of Table 0.8 (log entry 32). -/
def blockUnit (off : Nat) : Nat :=
  if 0x20000 ≤ off ∧ off < 0x80000 then UId.stageManager
  else if 0x100000 ≤ off ∧ off < 0x160000 then UId.port ((off - 0x100000) / 0x10000)
  else if 0x200100 ≤ off ∧ off < 0x200300 then UId.stack ((off - 0x200100) / 0x40)
  else if 0x200300 ≤ off ∧ off < 0x200500 then UId.channel ((off - 0x200300) / 0x40)
  else if 0x300000 ≤ off ∧ off < 0x330000 then UId.bank ((off - 0x300000) / 0x40)
  else if 0x480000 ≤ off ∧ off < 0x4A4000 then UId.engine ((off - 0x480000) / 0x400)
  else if 0x400000 ≤ off ∧ off < 0x480000 then UId.stageManager
  else if 0x500000 ≤ off ∧ off < 0x600000 then UId.security
  else 0

/-- A control register write discarded whole, with its one event; reason 1 locked, 2 range, 3 state, 4 test access. -/
def State.discardWrite (s : State) (off v reason : Nat) : State :=
  s.event Ev.writeDiscarded (blockUnit off) [off, v % 2 ^ 32, reason]

/-! ### Small readings used everywhere -/

/-- Start step S11 has completed and the start has not aborted (R478, R508): Memory_Active. -/
def State.served (s : State) : Bool := 11 ≤ s.fld Reg.lastStep && s.fld Reg.secAborted == 0

/-- A register offset is served now: before S11 only DEV and SEC (R478). -/
def State.open0 (s : State) (off : Nat) : Bool := s.served || off < 0x10000 || (0x500000 ≤ off && off < 0x600000)

/-- A job register field of slot j. -/
def State.jf (s : State) (j : Nat) (f : Fld) : Nat := s.fld (f.plus (0x100 * j))

/-- Set a job register field of slot j. -/
def State.setJf (s : State) (j : Nat) (f : Fld) (v : Nat) : State :=
  if j < 4 then s.setF (f.plus (0x100 * j)) v else s

/-- The bank's register field. -/
def State.bf (s : State) (b : Nat) (f : Fld) : Nat := s.fld (f.plus (0x40 * b))

/-- Set a bank's register field. -/
def State.setBf (s : State) (b : Nat) (f : Fld) (v : Nat) : State :=
  if b < 3072 then s.setF (f.plus (0x40 * b)) v else s

/-- Advance a bank's counter. -/
def State.addBf (s : State) (b : Nat) (f : Fld) (n : Nat) : State :=
  if b < 3072 then s.addF (f.plus (0x40 * b)) n else s

/-- Write a register of a bank's entry. -/
def State.wrBank (s : State) (b off v : Nat) : State := if b < 3072 then s.wr (off + 0x40 * b) v else s

/-- Write the owner register of a port of a bank: 0 for A, 1 for B. -/
def State.wrOwner (s : State) (b port v : Nat) : State := if port < 2 then s.wrBank b (Reg.ownerA + 4 * port) v else s

/-- Write one of a bank's four remap entries. -/
def State.wrRemap (s : State) (b k v : Nat) : State := if k < 4 then s.wrBank b (Reg.bankRemap + 4 * k) v else s

/-- Set a stack's register field. -/
def State.setStackF (s : State) (i : Nat) (f : Fld) (v : Nat) : State :=
  if i < 8 then s.setF (f.plus (0x40 * i)) v else s

/-- Advance a stack's counter. -/
def State.addStackF (s : State) (i : Nat) (f : Fld) (n : Nat) : State :=
  if i < 8 then s.addF (f.plus (0x40 * i)) n else s

/-- Set a DDR channel's register field. -/
def State.setChanF (s : State) (i : Nat) (f : Fld) (v : Nat) : State :=
  if i < 8 then s.setF (f.plus (0x40 * i)) v else s

/-- Advance a DDR channel's counter. -/
def State.addChanF (s : State) (i : Nat) (f : Fld) (n : Nat) : State :=
  if i < 8 then s.addF (f.plus (0x40 * i)) n else s

/-- An engine's register field. -/
def State.ef (s : State) (e : Nat) (f : Fld) : Nat := s.fld (f.plus (0x400 * e))

/-- Set an engine's register field. -/
def State.setEf (s : State) (e : Nat) (f : Fld) (v : Nat) : State :=
  if e < 144 then s.setF (f.plus (0x400 * e)) v else s

/-- Advance an engine's counter. -/
def State.addEf (s : State) (e : Nat) (f : Fld) (n : Nat) : State :=
  if e < 144 then s.addF (f.plus (0x400 * e)) n else s

/-- Write a register of an engine's window. -/
def State.wrEng (s : State) (e off v : Nat) : State := if e < 144 then s.wr (off + 0x400 * e) v else s

/-- A port's register field. -/
def State.pf (s : State) (p : Nat) (f : Fld) : Nat := s.fld (f.plus (0x10000 * p))

/-- Set a port's register field. -/
def State.setPf (s : State) (p : Nat) (f : Fld) (v : Nat) : State :=
  if p < 6 then s.setF (f.plus (0x10000 * p)) v else s

/-- Advance a port's counter. -/
def State.addPf (s : State) (p : Nat) (f : Fld) (n : Nat) : State :=
  if p < 6 then s.addF (f.plus (0x10000 * p)) n else s

/-- Write a register of a port's window. -/
def State.wrPort (s : State) (p off v : Nat) : State := if p < 6 then s.wr (off + 0x10000 * p) v else s

/-- PBA bit of a vector. -/
def pbaFld (v : Nat) : Fld := ⟨Reg.pba + 8 * (v / 64), v % 64, v % 64⟩

/-- Set a vector's PBA bit. -/
def State.setPba (s : State) (v x : Nat) : State := if v < 2048 then s.setF (pbaFld v) x else s

/-- Write a vector's control word, whose bit 0 masks it. -/
def State.wrMask (s : State) (v x : Nat) : State := if v < 2048 then s.wr (Reg.msixTable + 16 * v + 12) x else s

/-- Job slot j of the device, if a job is there. -/
def State.job (s : State) (j : Nat) : Option Job := SMap.find s.jobs j

/-- Store job slot j's job. -/
def State.setJob (s : State) (j : Nat) (job : Job) : State := { s with jobs := SMap.put s.jobs j job }

/-- Change job slot j's job, if there is one. -/
def State.modJob (s : State) (j : Nat) (f : Job → Job) : State :=
  match s.job j with
  | some job => s.setJob j (f job)
  | none => s

/-- A port's link state. -/
def State.port (s : State) (p : Nat) : Port := SMap.get Port.off s.ports p

/-- Store a port's link state. -/
def State.setPort (s : State) (p : Nat) (x : Port) : State := { s with ports := SMap.set Port.off s.ports p x }

/-- Change a port's link state. -/
def State.modPort (s : State) (p : Nat) (f : Port → Port) : State := s.setPort p (f (s.port p))

/-- A bank's state. -/
def State.bank (s : State) (b : Nat) : Bank := SMap.get Bank.off s.banks b

/-- Store a bank's state. -/
def State.setBank (s : State) (b : Nat) (x : Bank) : State := { s with banks := SMap.set Bank.off s.banks b x }

/-- A stack's state. -/
def State.stack (s : State) (i : Nat) : Stack := SMap.get Stack.off s.hbmStacks i

/-- Store a stack's state. -/
def State.setStack (s : State) (i : Nat) (x : Stack) : State := { s with hbmStacks := SMap.set Stack.off s.hbmStacks i x }

/-- A channel's state. -/
def State.channel (s : State) (i : Nat) : Channel := SMap.get Channel.off s.channels i

/-- Store a channel's state. -/
def State.setChannel (s : State) (i : Nat) (x : Channel) : State :=
  { s with channels := SMap.set Channel.off s.channels i x }

/-- A queue's state. -/
def State.queue (s : State) (q : Nat) : Queue := SMap.get Queue.off s.queues q

/-- Store a queue's state. -/
def State.setQueue (s : State) (q : Nat) (x : Queue) : State := { s with queues := SMap.set Queue.off s.queues q x }

/-- Every job slot is IDLE. -/
def State.allIdle (s : State) : Bool := (List.range 4).all fun j => s.jf j Reg.jobState == 0

/-- Some job slot is RUNNING. -/
def State.anyRunning (s : State) : Bool := (List.range 4).any fun j => s.jf j Reg.jobState == 3

end Sys2Proof.Machine
end

