-- ==== Sys2Proof/Machine/Memory.lean ====
section
/-!
DEFINITION. Accesses to device addresses (08, 09): tiers, bank ownership and power, the unwritten pattern, voided sectors,
bias, the far window, and what each refused access counts and records.
-/
namespace Sys2Proof.Machine

open Sys2Proof

/-- Who makes an access: an owner kind and index of R271, and the job slot it works for. -/
structure Requester where
  kind : Nat
  index : Nat
  job : Option Nat
  deriving DecidableEq, Repr

/-- The stage manager working for a job slot. -/
def Requester.manager (j : Option Nat) : Requester := ⟨6, 0, j⟩

/-- The host. -/
def Requester.host : Requester := ⟨5, 0, none⟩

/-- The unit id of a requester, for event records (R273); a mover channel counts as its cluster (log entry 12). -/
def Requester.unit (r : Requester) : Nat :=
  match r.kind with
  | 1 => UId.engine r.index
  | 2 => UId.updateUnit r.index
  | 3 => UId.cluster (r.index / 4)
  | 4 => UId.port r.index
  | 5 => UId.ioNorth
  | 6 => UId.stageManager
  | _ => 0

/-- The tiers of Table 9.1. -/
inductive Tier where
  | bank
  | hbm
  | ddr
  | far
  deriving DecidableEq, Repr

/-- Base addresses of Table 9.1. -/
def hbmBase : Nat := 0x0010_0000_0000
def hbmEnd : Nat := 0x00D0_0000_0000
def ddrBase : Nat := 0x0100_0000_0000

/-- The channels of the active set, ascending (R319). -/
def State.activeChannels (s : State) : List Nat :=
  (List.range 8).filter fun c => s.fld (Reg.ddrInSet.plus (0x40 * c)) == 1

/-- Populated DDR capacity: active channels times the smallest DIMM of the set (R298, R319). -/
def State.ddrSize (s : State) : Nat :=
  let act := s.activeChannels
  if s.fld Reg.ddrActive = 0 then 0
  else
    let caps := act.map fun c => s.fld (Reg.ddrCapacity.plus (0x40 * c))
    act.length * (caps.foldl min 16) * 2 ^ 34

/-- The tier that holds every byte of [a, a + n), or none (R298). -/
def State.tierOf (s : State) (a n : Nat) : Option Tier :=
  if a + n ≤ 0x3000_0000 then some .bank
  else if hbmBase ≤ a ∧ a + n ≤ hbmEnd then some .hbm
  else if ddrBase ≤ a ∧ a + n ≤ ddrBase + s.ddrSize then some .ddr
  else if farBase ≤ a ∧ a + n ≤ farEnd then some .far
  else none

/-- The stack of an HBM address (Table 9.3). -/
def hbmStack (a : Nat) : Nat := bits 13 11 (a - hbmBase)
/-- The pseudo channel of an HBM address. -/
def hbmPc (a : Nat) : Nat := bits 19 14 (a - hbmBase)
/-- The row of an HBM address. -/
def hbmRow (a : Nat) : Nat := bits 39 20 (a - hbmBase)
/-- The page of an HBM address: its row's 2 KiB (R301). -/
def hbmPage (a : Nat) : Nat := a / 2048 * 2048

/-- The channel that serves a DDR address (R319). -/
def State.ddrChannel (s : State) (a : Nat) : Nat :=
  let act := s.activeChannels
  act.getD (((a - ddrBase) / 4096) % act.length) 0

/-- Aligned units of `k` bytes that [a, a + n) touches, by their first address. -/
def unitsOf (k a n : Nat) : List Nat :=
  if n = 0 then [] else (List.range ((a + n - 1) / k + 1 - a / k)).map fun i => (a / k + i) * k

/-! ### Bank ports -/

/-- The bank that serves addresses of bank b (R289). -/
def State.served1 (s : State) (b : Nat) : Nat :=
  if s.bf b Reg.bankAliasValid = 1 then s.bf b Reg.bankAlias else b

/-- A dual-port bank: n = 44 to 47 of its cluster (R9, R268). -/
def dualPort (b : Nat) : Bool := 2304 ≤ b && 44 ≤ (b - 2304) % 48

/-- Owner register of a port of a bank: 0 for A, 1 for B. -/
def State.owner (s : State) (b port : Nat) : Nat := s.rd (Reg.ownerA + 0x40 * b + 4 * port)

/-- A port's owner is this unit (R271). -/
def ownedBy (w : Nat) (r : Requester) : Bool := bits 10 8 w == r.kind && bits 7 0 w == r.index

/-- Make a unit the owner of a port, as the stage manager does for the cues of a job (R275). NEW_KIND and
NEW_INDEX keep the last request, PENDING clears (R274). -/
def State.giveBank (s : State) (b port : Nat) (kind index : Nat) : State :=
  s.wrOwner b port (bits 26 16 (s.owner b port) * 65536 + kind * 256 + index)

/-- The bank's UNIT entry follows its use: ACTIVE while it has an owner, IDLE without (Table 16.4). -/
def State.bankUse (s : State) (b cause source : Nat) : State :=
  let u := UId.bank b
  let owned := bits 10 8 (s.owner b 0) != 0 || (dualPort b && bits 10 8 (s.owner b 1) != 0)
  let st := s.unitRaw u
  if owned && st == US.idle then s.putUnit u US.active cause source
  else if !owned && st == US.active then s.putUnit u US.idle cause source
  else s

/-- Record a denied access of a bank: counter, LAST_ERROR, at most one event per bank per step (R273, R276). -/
def State.denyBank (s : State) (b : Nat) (r : Requester) (byte : Nat) : State :=
  let s := ((s.addBf b Reg.bankDenied 1).inc Reg.bnkDenied).wrBank b Reg.bankLastError
    (4 * 2 ^ 28 + byte)
  let s : State := { s with badAt := b * 0x40000 + byte }
  let x := s.bank b
  if x.denied then s.suppress Ev.bankDenied (UId.bank b)
  else (s.setBank b { x with denied := true }).event Ev.bankDenied (UId.bank b) [r.unit, byte] St.denied

/-- Power a bank up under its INIT mode: nothing defined, the tracker empty (R282, R283, R285, R286). -/
def State.initBank (s : State) (b : Nat) : State :=
  let x := s.bank b
  (s.setBank b { x with validBit := s.bf b Reg.bankInit != 0, defined := [], tracker := [], lost := false }).zeroBytes
    (b * 0x40000) 0x40000

/-- Complete a handover: KIND and INDEX take the new values (R274). -/
def State.handOver (s : State) (b port : Nat) : State :=
  let w := s.owner b port
  (s.giveBank b port (bits 26 24 w) (bits 23 16 w)).bankUse b Ev.unitState Src.device

/-- A request of the new owner waits for the handover and is then served (R274). -/
def State.settle (s : State) (r : Requester) (b port : Nat) : State :=
  let w := s.owner b port
  if bitAt 27 w && bits 26 24 w == r.kind && bits 23 16 w == r.index then s.handOver b port else s

/-- A port serves this unit now: it is the owner, and no handover to another has begun (R272, R274). -/
def State.portServes (s : State) (r : Requester) (b port : Nat) : Bool :=
  let w := s.owner b port
  ownedBy w r && !bitAt 27 w

/-- The port's owner still serves another cue: an engine with a tile on one of its sets (R275). -/
def State.ownerServes (s : State) (b port : Nat) : Bool :=
  let w := s.owner b port
  bits 10 8 w == 1 && s.sets.any fun x => x.1 / 2 == bits 7 0 w

/-- The port that a unit of the job is made owner of: A, or B of a dual-port bank while A's owner still serves another cue (R275). Where
no port is free the unit waits for A, which changes timing only (DEDUCED, log entry 139). -/
def State.freePort (s : State) (b : Nat) : Nat := if s.ownerServes b 0 && dualPort b && !s.ownerServes b 1 then 1 else 0

/-- May this unit access the bank, and if so, what the stage manager did for it: a unit working for the job that locks the
bank is made owner of a port that is not its own yet (R272, R275). `add` is an add of Table 8.2 (ADD_OPEN). -/
def State.permit (s : State) (r : Requester) (b : Nat) (add : Bool) : Option State :=
  let s := s.settle r b 0
  let s := if dualPort b then s.settle r b 1 else s
  if s.unitRaw (UId.bank b) = US.fenced ∨ s.unitRaw (UId.bank b) = US.failed then none
  else if s.portServes r b 0 || (dualPort b && s.portServes r b 1) then some s
  else
    let x := s.bank b
    if r.job.any x.holders.contains then
      if add && s.bf b Reg.bankAddOpen == 1 then some s
      else some ((s.giveBank b (s.freePort b) r.kind r.index).bankUse b Ev.unitState Src.device)
    else none

/-- The stage manager powers up a locked bank in OFF for a cue of a job that holds it, and the access waits (R275, R282; DEDUCED, log
entry 106). -/
def State.wakeBank (s : State) (r : Requester) (t : Nat) : State :=
  if s.bf t Reg.bankState = 2 ∧ r.job.any (s.bank t).holders.contains then
    let s := ((s.initBank t).setBf t Reg.bankState 0).setBf t Reg.bankReq 0
    if s.unitRaw (UId.bank t) = US.off then s.putUnit (UId.bank t) US.idle Ev.unitState Src.device else s
  else s

/-- One bank of an access, before its bytes: alias, power and ownership. The second component is the bank that serves it;
an error status ends the access (R273, R276, R289). A bank that is powering up is waited for (R282). -/
def State.openBank (s : State) (r : Requester) (b byte : Nat) (add : Bool) : Nat × Nat × State :=
  let t := s.served1 b
  let s := s.wakeBank r t
  let st := s.bf t Reg.bankState
  if st = 2 then (St.off, t, s.denyBank t r byte)
  else
    let s := if st = 1 then s.setBf t Reg.bankState 0
             else if st = 3 ∧ (s.bank t).lost then (s.initBank t).setBf t Reg.bankState 0 else s
    match s.permit r t add with
    | some s => (St.success, t, s)
    | none => (St.denied, t, s.denyBank t r byte)

/-- The 64-bit mask of a line's defined bytes. -/
def Bank.line (x : Bank) (l : Nat) : Nat := SMap.get 0 x.defined l

/-- Is a byte of the bank defined (R283, R285)? -/
def Bank.isDefined (x : Bank) (byte : Nat) : Bool := (x.line (byte / 64)).testBit (byte % 64)

/-- The bank with bytes written: in write-first mode those bytes, in valid-bit mode their whole line (R283, R285). -/
def Bank.define (x : Bank) (byte : Nat) : Bank :=
  let l := byte / 64
  let m := if x.validBit then 2 ^ 64 - 1 else x.line l ||| 2 ^ (byte % 64)
  { x with defined := SMap.set 0 x.defined l m }

/-! ### Bank corrections (R281, R286, R287) -/

/-- Give a word of a bank a remap entry; false where a fifth would be needed. A word that has one keeps it. -/
def State.remapWord (s : State) (b w : Nat) : Bool × State :=
  let used := s.bf b Reg.bankRemapUsed
  let at' := fun j => Reg.bankRemap + 0x40 * b + 4 * j
  if (List.range used).any fun j => bits 14 0 (s.rd (at' j)) == w then (true, s)
  else if used < 4 then
    (true, ((s.wrRemap b used (2 ^ 31 + w)).setBf b Reg.bankRemapUsed (used + 1)).inc Reg.bnkRemaps)
  else (false, s)

/-- A corrected byte is counted and recorded (R281, Table 8.4). -/
def State.noteCorrected (s : State) (b byte : Nat) : State :=
  ((s.addBf b Reg.bankCorrected 1).inc Reg.bnkCorrected).wrBank b Reg.bankLastError (2 ^ 28 + byte)

/-- A word corrected by one read: into the tracker, or, corrected twice, to a remap entry or a degraded bank (R286, R287). -/
def State.trackWord (s : State) (b w : Nat) : State :=
  let x := s.bank b
  if x.tracker.contains w then
    let s := s.setBank b { x with tracker := x.tracker.filter (· != w) }
    match s.remapWord b w with
    | (true, s) => s
    | (false, s) => s.setBf b Reg.bankDegraded 1
  else s.setBank b { x with tracker := (w :: x.tracker).take 16 }

/-- The bytes that one read corrects, by bank and byte: each is counted, each word meets the tracker once (R281, R286). -/
def State.correctBytes (s : State) (bytes : List (Nat × Nat)) : State :=
  let s := bytes.foldl (fun s p => s.noteCorrected p.1 p.2) s
  (bytes.map fun p => (p.1, p.2 / 8)).eraseDups.foldl (fun s w => s.trackWord w.1 w.2) s

/-- A read decodes a byte of the bank: an invalid line's read returns zeros instead (R281, R285). -/
def Bank.decodes (x : Bank) (byte : Nat) : Bool := !x.validBit || x.line (byte / 64) != 0

/-- Errors in a byte that leave uncorrectable data: two bits, or one in an unwritten byte, which then differs from the pattern
(R281, R284). -/
def Bank.breaks (x : Bank) (byte n : Nat) : Bool := 2 ≤ n || (n == 1 && !x.validBit && !x.isDefined byte)

/-- The word of an uncorrectable byte loses its content: unwritten in write-first mode, its line invalid in valid-bit mode
(Table 8.3, step 2). -/
def State.voidWord (s : State) (b byte : Nat) : State :=
  let x := s.bank b
  let l := byte / 64
  let gone := if x.validBit then 0 else setBits (byte % 64 / 8 * 8 + 7) (byte % 64 / 8 * 8) 0 (x.line l)
  let s := s.setBank b { x with defined := SMap.set 0 x.defined l gone }
  if x.validBit then s.zeroBytes (b * 0x40000 + l * 64) 64 else s.zeroBytes (b * 0x40000 + byte / 8 * 8) 8

/-- An uncorrectable byte of a bank is counted and recorded (R281, Table 8.3, step 1). -/
def State.noteUncorrByte (s : State) (b byte : Nat) : State :=
  let s := ((s.addBf b Reg.bankUncorr 1).inc Reg.bnkUncorr).wrBank b Reg.bankLastError
    (2 * 2 ^ 28 + byte)
  { s with badAt := b * 0x40000 + byte }.event Ev.uncorrectable (UId.bank b) [b * 0x40000 + byte, 0] St.uncorrectable

/-- Count and record a read of an unwritten byte (R284). -/
def State.noteUnwritten (s : State) (b byte : Nat) : State :=
  let s := (((s.addBf b Reg.bankUncorr 1).inc Reg.bnkUnwritten).wrBank b Reg.bankLastError
    (3 * 2 ^ 28 + byte))
  { s with badAt := b * 0x40000 + byte }.event Ev.unwritten (UId.bank b) [byte] St.unwritten

/-- The address that stores the byte of a bank-space address (R289). -/
def State.storeAddr (s : State) (a : Nat) : Nat :=
  if a < 0x3000_0000 then s.served1 (a / 0x40000) * 0x40000 + a % 0x40000 else a

/-! ### The other tiers -/

/-- A page's bias key: tier × 2^20 + 2 MiB page index (R481). -/
def biasKey (a : Nat) : Nat :=
  if a < hbmEnd then (a - hbmBase) / 2 ^ 21 else 2 ^ 20 + (a - ddrBase) / 2 ^ 21

/-- Some page of the range is in host bias (R481). -/
def State.hostBias (s : State) (a n : Nat) : Bool :=
  !s.host.hostPages.isEmpty && (unitsOf (2 ^ 21) a n).any fun p => SMap.get false s.host.hostPages (biasKey p)

/-- Some stack the range touches is offline or fenced (Tables 9.6, 16.3). -/
def State.stackOff (s : State) (a n : Nat) : Bool :=
  let off := (List.range 8).filter fun i => s.fld (Reg.stackUp.plus (0x40 * i)) != 1 || s.unitRaw (UId.stack i) == US.fenced
  !off.isEmpty && (unitsOf 2048 a (min n 16384)).any fun p => off.contains (hbmStack p)

/-- Some channel the range touches is fenced (Table 16.3). -/
def State.channelOff (s : State) (a n : Nat) : Bool :=
  let off := (List.range 8).filter fun c => s.unitRaw (UId.channel c) == US.fenced
  !off.isEmpty && (unitsOf 4096 a (min n 32768)).any fun p => off.contains (s.ddrChannel p)

/-- The unit of the outer memories that a code spans: an HBM sector's 256 bytes, a DDR line's 64 (R303, R320). -/
def codeUnit (a : Nat) : Nat := if a < hbmEnd then 256 else 64

/-- Voided sectors (HBM) or lines (DDR) that a range touches. -/
def State.voidsIn (s : State) (a n : Nat) : List Nat :=
  (s.voided.map (·.1)).filter fun v => v < a + n && a < v + codeUnit v

/-- A write that covers a voided sector or line whole clears the void (R304). -/
def State.clearVoids (s : State) (a n : Nat) : State :=
  { s with voided := s.voided.filter fun e => !(a ≤ e.1 && e.1 + codeUnit e.1 ≤ a + n) }

/-- Record an uncorrectable read outside the banks (R304, R312, R320). -/
def State.noteUncorr (s : State) (a : Nat) : State :=
  let args := [a % 2 ^ 32, a / 2 ^ 32]
  let s : State := { s with badAt := a }
  if a < hbmEnd then
    (s.addStackF (hbmStack a) Reg.stackUncorr 1).event Ev.uncorrectable (UId.stack (hbmStack a)) args
      St.uncorrectable
  else
    (s.addChanF (s.ddrChannel a) Reg.ddrUncorr 1).event Ev.uncorrectable (UId.channel (s.ddrChannel a)) args
      St.uncorrectable

/-- HBM and DDR: what stops an access before its bytes. A write of less than a voided sector or line is refused (R304). -/
def State.openOuter (s : State) (t : Tier) (a n : Nat) (write : Bool) : Nat × State :=
  if (t = .hbm ∧ s.stackOff a n) ∨ (t = .ddr ∧ s.channelOff a n) then (St.offline, s)
  else if s.hostBias a n then (St.denied, s)
  else
    match (s.voidsIn a n).filter fun v => !write || v < a || a + n < v + codeUnit v with
    | v :: _ => (St.uncorrectable, s.noteUncorr v)
    | [] => (St.success, s)

/-- The translation cache after host page g is used: 512 entries, newest first (Table 14.1). -/
def HostLink.touch (h : HostLink) (g : Nat) : HostLink := { h with atc := (g :: h.atc.filter (· != g)).take 512 }

/-- What a far-window access is for (R324), by what lies at its address: 0 a shard buffer that a DATA cue posts or lends, 1 a ring of a queue,
2 a write held for COMMIT, 3 an export slot or the export to restore from, 4 anything else (DEDUCED, log entry 132). -/
def State.farUse (s : State) (a : Nat) : Nat :=
  let within := fun (base n : Nat) => decide (base ≤ a) && decide (a < base + n)
  if s.queues.any fun q => q.2.state != 0 && (within q.2.ring (64 * 2 ^ q.2.log2) || within q.2.cplBase (32 * 2 ^ q.2.cplLog2)) then 1
  else if s.jobs.any fun j => j.2.outbound.any fun h => match h.2 with | .metric b bs => within b bs.length | _ => false then 2
  else if s.jobs.any fun j => j.2.data.any fun d =>
      (j.2.shards.any fun sh => sh.source == fieldLE d 2 1 && within sh.buf (sh.samples * fieldLE d 4 4))
        || s.ops.any fun o => fieldLE o.2.cue.raw 2 1 == 0x06 && o.2.cue.job == some j.1 && fieldLE o.2.cue.raw 36 1 == fieldLE d 2 1
            && within (fieldLE o.2.cue.raw 48 8) (fieldLE o.2.cue.raw 42 4 * fieldLE d 4 4) then 0
  else
    let n := s.rd Reg.exportSlotSize
    let book := s.rd Reg.restoreBase
    if within s.ckp.exportBase (2 * s.ckp.exportSize) || within (s.rd Reg.exportBase) (2 * n) || within (book - n) (2 * n) then 3 else 4

/-- The far tier: refused while IDE is insecure (R491); otherwise one request over the host link, translated first while ATS
is enabled (R482). -/
def State.openFar (s : State) (a n : Nat) (write : Bool) : Nat × State :=
  if s.host.ideInsecure then
    (St.farError, (s.inc Reg.farErrors).event Ev.farError UId.ioNorth [a % 2 ^ 32, a / 2 ^ 32, s.farUse a] St.farError)
  else
    let s := if write then s.addF Reg.farWriteBytes n else s.addF Reg.farReadBytes n
    let s : State := if s.host.ats then
        { s with host := (unitsOf 4096 (a - farBase) n).foldl (fun (h : HostLink) p => h.touch (p / 4096)) s.host }
      else s
    (St.success, s.emit (.far (a - farBase) n write))

/-! ### Whole accesses -/

/-- Open every bank of a range; the first refusal decides. -/
def State.openBanks (s : State) (r : Requester) (add : Bool) : List Nat → Nat × State
  | [] => (St.success, s)
  | b :: bs =>
    match s.openBank r (b / 0x40000) (b % 0x40000) add with
    | (0, _, s) => s.openBanks r add bs
    | (st, _, s) => (st, s)

/-- The first requested byte of a write-first bank that is not defined. -/
def State.firstUndefined (s : State) (a n : Nat) : Option Nat :=
  (List.range n).map (a + ·) |>.find? fun c =>
    let t := s.storeAddr c
    let x := s.bank (t / 0x40000)
    !x.validBit && !x.isDefined (t % 0x40000)

/-- Before the bytes of an access: address, tier and every refusal. -/
def State.openRange (s : State) (r : Requester) (a n : Nat) (write add : Bool) : Nat × State :=
  if n = 0 then (St.success, s)
  else match s.tierOf a n with
  | none => (St.address, s)
  | some .bank => s.openBanks r add ((unitsOf 0x40000 a n).map fun b => max a b)
  | some .hbm => s.openOuter .hbm a n write
  | some .ddr => s.openOuter .ddr a n write
  | some .far => s.openFar a n write

/-- Read n bytes at a device address: status, bytes, state (R269, R298). -/
def State.devRead (s : State) (r : Requester) (a n : Nat) : Nat × List Byte × State :=
  match s.openRange r a n false false with
  | (0, s) =>
    if s.tierOf a n = some .bank then
      match s.firstUndefined a n with
      | some c => (St.unwritten, [], s.noteUnwritten (s.storeAddr c / 0x40000) (s.storeAddr c % 0x40000))
      | none => (St.success, (List.range n).map fun i => s.byte (s.storeAddr (a + i)), s)
    else (St.success, s.bytes a n, s)
  | (st, s) => (st, [], s)

/-- Mark the 4 KiB blocks of protected items that a write touches (R417). -/
def State.markDirty (s : State) (a n : Nat) : State :=
  let hit (it : Item) : Item :=
    let step (acc : Nat × List Nat) (p : Nat × Nat) : Nat × List Nat :=
      let lo := max a p.1
      let hi := min (a + n) (p.1 + p.2)
      let blocks := if lo < hi then (unitsOf 4096 (acc.1 + (lo - p.1)) (hi - lo)).map (· / 4096) else []
      (acc.1 + p.2, acc.2 ++ blocks.filter fun b => !acc.2.contains b)
    { it with dirty := (it.src.foldl step (0, it.dirty)).2 }
  { s with ckp := { s.ckp with items := s.ckp.items.map fun it => if it.base.isSome then hit it else it } }

/-- Mark blocks of a protected item that the device holds itself (R417). -/
def State.markItem (s : State) (kind off n : Nat) : State :=
  let blocks := (unitsOf 4096 off n).map (· / 4096)
  let items := s.ckp.items.map fun (it : Item) =>
    if it.kind = kind ∧ it.base.isSome then { it with dirty := it.dirty ++ blocks.filter fun b => !it.dirty.contains b } else it
  { s with ckp := { s.ckp with items } }

/-- Store bytes that an access has been allowed to write: define them in their banks, keep the dirty bitmaps. -/
def State.storeBytes (s : State) (a : Nat) (bs : List Byte) : State :=
  let cells := (List.range bs.length).zip bs
  let s := if a < 0x3000_0000 then
      cells.foldl (fun s p =>
        let t := s.storeAddr (a + p.1)
        let b := t / 0x40000
        (s.setBank b ((s.bank b).define (t % 0x40000))).putBytes t [p.2]) s
    else (s.clearVoids a bs.length).putBytes a bs
  s.markDirty a bs.length

/-- The device changes bytes of a structure of its own. A part of a voided sector or line cannot be changed: nothing is stored, and the
sector's read counts (R304). -/
def State.ownWrite (s : State) (a : Nat) (bs : List Byte) : State :=
  match (s.voidsIn a bs.length).filter fun v => v < a || a + bs.length < v + codeUnit v with
  | v :: _ => s.noteUncorr v
  | [] => s.storeBytes a bs

/-- The same for a k-byte little-endian number. -/
def State.ownNum (s : State) (a k v : Nat) : State := s.ownWrite a (leBytes k v)

/-- The device writes a structure of its own over whole sectors or lines, zeros after it: what was voided there is whole again
(R304). -/
def State.putWhole (s : State) (a : Nat) (bs : List Byte) : State :=
  let n := ceilDiv bs.length 256 * 256
  (s.clearVoids a n).putBytes a (bs ++ List.replicate (n - bs.length) 0)

/-- Write bytes at a device address: status and state. A refused write stores nothing. -/
def State.devWrite (s : State) (r : Requester) (a : Nat) (bs : List Byte) : Nat × State :=
  match s.openRange r a bs.length true false with
  | (0, s) => (St.success, s.storeBytes a bs)
  | (st, s) => (st, s)

/-- Several writes in order; the first refusal ends them (R273). -/
def State.devWrites (s : State) (r : Requester) : List (Nat × List Byte) → Nat × State
  | [] => (St.success, s)
  | (a, bs) :: ws =>
    match s.devWrite r a bs with
    | (0, s) => s.devWrites r ws
    | (st, s) => (st, s)

/-- A little-endian number of k bytes read from a device address: status, number, state. -/
def State.devNum (s : State) (r : Requester) (a k : Nat) : Nat × Nat × State :=
  let (st, bs, s) := s.devRead r a k
  (st, leNat bs, s)

end Sys2Proof.Machine
end

