-- ==== Sys2Proof/Machine/Operands.lean ====
section
/-!
DEFINITION. Every operand form: the fields of cues, job packages, tensor layouts, recipes, records and descriptors
(Tables 2.5, 2.8, 4.5, 4.8, 5.6, 6.4, 7.1 to 7.12, 11.2, 11.3), and where the elements of a tensor lie.
-/
namespace Sys2Proof.Machine

open Sys2Proof

/-! ### Cues (Tables 7.1 and 7.2) -/

/-- Cue opcodes (Table 7.2). -/
def cProduct : Nat := 0x01
def cFill : Nat := 0x02
def cMove : Nat := 0x03
def cCollective : Nat := 0x04
def cUpdate : Nat := 0x05
def cData : Nat := 0x06
def cJoin : Nat := 0x07
def cLoss : Nat := 0x08
def cMetric : Nat := 0x09
def cJobLoad : Nat := 0x40
def cJobStart : Nat := 0x41
def cJobStop : Nat := 0x42
def cJobUnload : Nat := 0x43
def cRecipe : Nat := 0x44
def cParam : Nat := 0x45
def cMatinee : Nat := 0x46
def cCancelAhead : Nat := 0x47

/-- Phases of a cue: NONE, FWD, BWD, REDUCE, UPDATE, EVAL. -/
def phNone : Nat := 0
def phFwd : Nat := 1
def phBwd : Nat := 2
def phReduce : Nat := 3
def phUpdate : Nat := 4
def phEval : Nat := 5

/-- The index of a cue outside the step program. -/
def noIndex : Nat := 0xFFFFF

/-- An operand of a cue: n bytes at offset o. -/
def CueRec.op (c : CueRec) (o n : Nat) : Nat := fieldLE c.raw o n
def CueRec.opcode (c : CueRec) : Nat := c.op 2 1
def CueRec.phase (c : CueRec) : Nat := bits 7 5 (c.op 3 1)
def CueRec.runahead (c : CueRec) : Bool := bitAt 4 (c.op 3 1)
def CueRec.cpl (c : CueRec) : Bool := bitAt 3 (c.op 3 1)
def CueRec.fence (c : CueRec) : Bool := bitAt 2 (c.op 3 1)
def CueRec.jobId (c : CueRec) : Nat := c.op 4 4
def CueRec.index (c : CueRec) : Nat := bits 19 0 (c.op 8 4)
def CueRec.mb (c : CueRec) : Nat := c.op 12 1
def CueRec.deps (c : CueRec) : List Nat :=
  [bits 19 0 (c.op 20 4), bits 19 0 (c.op 24 4), bits 19 0 (c.op 28 4)].filter fun d => d != noIndex
def CueRec.tag (c : CueRec) : Nat := c.op 32 4

/-- Bytes of operands an opcode uses from offset 36 (Table 7.2); none for an opcode that is not listed. -/
def operandBytes (op : Nat) : Option Nat :=
  match op with
  | 0x01 => some 28 | 0x02 => some 3 | 0x03 => some 22 | 0x04 => some 3 | 0x05 => some 15 | 0x06 => some 20
  | 0x07 => some 0 | 0x08 => some 3 | 0x09 => some 16 | 0x40 => some 20 | 0x41 => some 1 | 0x42 => some 2
  | 0x43 => some 1 | 0x44 => some 12 | 0x45 => some 8 | 0x46 => some 2 | 0x47 => some 0
  | _ => none

/-- What R13 asks of any structure the device reads: a version of at most 1, else VERSION. A reserved LENGTH of 0 (R12) is passed over
here: the spec gives no status for one (DESIGN CHOICE, log entry 122; for what software writes see `entryStatus`). -/
def formStatus (bs : List Byte) : Nat := if 1 < fieldLE bs 0 1 then St.version else 0

/-- The same of an entry or descriptor that software writes, whose reserved LENGTH of 0 is rejected like that of a cue (R12, R15; DEDUCED,
log entry 55). -/
def entryStatus (bs : List Byte) : Nat :=
  if formStatus bs ≠ 0 then formStatus bs else if fieldLE bs 1 1 = 0 then St.reservedBit else 0

/-- The checks of a cue that need no state, as (byte offset, status, broken): version, a reserved length of 0 (R12; log 55), reserved bits and codes, the opcode's
queue, and the operands' stated ranges (R13, R15, R22, R235, R239). `director` says that it came from a director queue. -/
def cueChecks (raw : List Byte) (director : Bool) : List (Nat × Nat × Bool) :=
  let f := fun o n => fieldLE raw o n
  let op := f 2 1
  let n := (operandBytes op).getD 28
  let slotOp := op == cJobLoad || op == cJobStart || op == cJobStop || op == cJobUnload
  [ (0, St.version, decide (1 < f 0 1)), (1, St.reservedBit, f 1 1 == 0),
    (2, St.opcode, (operandBytes op).isNone || (!director && 0x40 ≤ op)),
    (3, St.reservedBit, bits 1 0 (f 3 1) != 0 || decide (5 < bits 7 5 (f 3 1))),
    (3, St.runahead, !director && bitAt 4 (f 3 1)), (3, St.range, !director && bits 7 5 (f 3 1) == phEval),
    (8, St.reservedBit, bits 31 20 (f 8 4) != 0), (13, St.reservedBit, f 13 3 != 0),
    (20, St.reservedBit, bits 31 20 (f 20 4) != 0), (24, St.reservedBit, bits 31 20 (f 24 4) != 0),
    (28, St.reservedBit, bits 31 20 (f 28 4) != 0), (36 + n, St.reservedBit, f (36 + n) (28 - n) != 0),
    (36, St.range, slotOp && decide (4 ≤ f 36 1)), (37, St.reservedBit, op == cJobLoad && f 37 3 != 0),
    (37, St.reservedBit, (op == cJobStop || op == cMatinee || op == cData) && bits 7 1 (f 37 1) != 0),
    (36, St.reservedBit, op == cMatinee && f 36 1 != 0 && f 36 1 != 8 && f 36 1 != 16),
    (39, St.reservedBit, op == cRecipe && f 39 1 != 0), (39, St.range, op == cParam && (f 39 1 == 0 || decide (7 < f 39 1))),
    (42, St.reservedBit, op == cMove && (bits 7 2 (f 42 1) != 0 || bits 1 0 (f 42 1) == 3)),
    (39, St.reservedBit, op == cMetric && f 39 1 != 0), (46, St.reservedBit, op == cData && f 46 2 != 0),
    (48, St.alignment, op == cData && f 48 8 % 256 != 0) ]

/-- The first field that breaks a check: status and byte offset; status 0 where all hold. -/
def firstBroken (l : List (Nat × Nat × Bool)) : Nat × Nat :=
  (l.filter fun c => c.2.2).foldl (fun b c => if b.1 = 0 ∨ c.1 < b.2 then (c.2.1, c.1) else b) (0, 0xFFFF)

/-- A cue of the step program or of the MATINEE section, as a check or the plan reads it. -/
def CueRec.ofRaw (raw : List Byte) (step : Nat) : CueRec :=
  { id := 0, raw, queue := none, job := none, epoch := none, step, ahead := false, held := false }

/-! ### Job packages (Tables 7.4 to 7.7) -/

/-- A field of the package header. -/
def Job.hdr (j : Job) (o n : Nat) : Nat := fieldLE j.header o n
def Job.replay (j : Job) : Bool := bitAt 3 (j.hdr 3 1)
def Job.f32AddOk (j : Job) : Bool := bitAt 4 (j.hdr 3 1)
def Job.mbLast (j : Job) : Nat := j.hdr 9 1
def Job.maxAttempts (j : Job) : Nat := j.hdr 10 1
def Job.fwdCount (j : Job) : Nat := j.hdr 16 4
def Job.normLimit (j : Job) : Nat := j.hdr 20 4
def Job.watchBase (j : Job) : Nat := j.hdr 24 8
def Job.sampleBuf (j : Job) : Nat := j.hdr 32 8
def Job.sampleMib (j : Job) : Nat := j.hdr 40 4
def Job.stepQueue (j : Job) : Nat := j.hdr 44 4
def Job.outboundMib (j : Job) : Nat := j.hdr 56 4
def Job.skipBase (j : Job) : Nat := j.hdr 96 8
def Job.skipCount (j : Job) : Nat := j.hdr 104 4
def Job.seed (j : Job) : List Nat := natBytes ((j.header.drop 64).take 32)

/-- A tensor layout entry (Table 7.6). -/
structure Tensor where
  idx : Nat
  fmt : Nat
  flags : Nat
  redDim : Nat
  rank : Nat
  dims : List Nat
  base : Nat
  record : Nat
  fb : Nat
  history : Nat
  aux : Nat
  bytes : Nat
  deriving DecidableEq, Repr

/-- Parse a layout entry. -/
def tensorOf (idx : Nat) (bs : List Byte) : Tensor :=
  { idx, fmt := bits 5 0 (fieldLE bs 2 1), flags := fieldLE bs 3 1, redDim := bits 3 2 (fieldLE bs 4 1)
    rank := bits 1 0 (fieldLE bs 4 1) + 1, dims := (List.range 4).map fun i => fieldLE bs (8 + 4 * i) 4
    base := fieldLE bs 24 8, record := fieldLE bs 32 8, fb := fieldLE bs 40 4, history := fieldLE bs 44 4
    aux := fieldLE bs 48 4, bytes := fieldLE bs 56 8 }

/-- Tensor i of a job; index 0 and one past the section name none (R245). -/
def Job.tensor (j : Job) (i : Nat) : Option Tensor :=
  if i = 0 then none else (j.layout[i]?).map (tensorOf i)

def Tensor.isEval (t : Tensor) : Bool := bitAt 7 t.flags
def Tensor.isZero (t : Tensor) : Bool := bitAt 6 t.flags
def Tensor.isReduced (t : Tensor) : Bool := bitAt 5 t.flags
def Tensor.isProtected (t : Tensor) : Bool := bitAt 4 t.flags
def Tensor.isMaster (t : Tensor) : Bool := bitAt 3 t.flags
def Tensor.isWeight (t : Tensor) : Bool := bitAt 2 t.flags
def Tensor.isGradient (t : Tensor) : Bool := bitAt 1 t.flags
def Tensor.watchOff (t : Tensor) : Bool := bitAt 0 t.flags

/-- Reduction length K. -/
def Tensor.redLen (t : Tensor) : Nat := t.dims.getD t.redDim 1

/-- Outer indices: the product of the other dimensions (R64). -/
def Tensor.outer (t : Tensor) : Nat :=
  (t.dims.zipIdx.filter fun d => d.2 != t.redDim).foldl (fun n d => n * d.1) 1

/-- Elements of the tensor. -/
def Tensor.elems (t : Tensor) : Nat := t.outer * t.redLen

/-- Block-scaled: the layout names a quantisation record and the format has block scales (R158). -/
def Tensor.scaled (t : Tensor) : Bool := t.record != 0 && (eFmtOf t.fmt).isSome

/-- A recipe entry (Table 7.7). -/
structure Recipe where
  fmt : Nat
  rotStep : Bool
  rot : Nat
  escQ : Nat
  esc : Bool
  sf16 : Bool
  prescale : Nat
  margin : Nat
  bMode : Bool
  deriving DecidableEq, Repr

/-- Parse a recipe entry. -/
def recipeOf (bs : List Byte) : Recipe :=
  let b3 := fieldLE bs 3 1
  let b4 := fieldLE bs 4 1
  { fmt := bits 5 0 (fieldLE bs 2 1), rotStep := bitAt 7 b3, rot := bits 6 5 b3, escQ := bits 4 2 b3, esc := bitAt 1 b3
    sf16 := bitAt 0 b3, prescale := bits 7 6 b4, margin := bits 5 1 b4, bMode := bitAt 0 b4 }

/-- Recipe entry of tensor i. -/
def Job.recipeAt (j : Job) (i : Nat) : Recipe := recipeOf (j.recipe.getD i [])

/-- R13 and R15 of a recipe entry. -/
def recipeForm (bs : List Byte) : Nat :=
  if entryStatus bs ≠ 0 then entryStatus bs
  else if bits 7 6 (fieldLE bs 2 1) ≠ 0 ∨ fieldLE bs 5 3 ≠ 0 then St.reservedBit else 0

/-- A recipe entry within the ranges of Table 2.7 (R92). Escapes are for streaming operands: a tensor whose layout
entry has WEIGHT takes none (DEDUCED, log 53). -/
def Recipe.inRange (r : Recipe) (weight : Bool) : Bool :=
  match eFmtOf r.fmt with
  | none => false
  | some f => r.rot != 3 && r.prescale != 3 && r.margin ≤ 16 && (!r.esc || (!weight && f.fourBit && 1 ≤ r.escQ && r.escQ ≤ 6))

/-- A quantisation record (Table 2.5). -/
structure QRec where
  fmt : Nat
  sf16 : Bool
  sr : Bool
  rotStep : Bool
  rot : Nat
  fbCopy : Bool
  outliers : Bool
  scaleMax : Nat
  escAmax : Nat
  pre : Int
  rotKey : Nat
  step : Nat
  fbRef : Nat
  deriving DecidableEq, Repr

/-- Parse a quantisation record. -/
def qrecOf (bs : List Byte) : QRec :=
  let b4 := fieldLE bs 4 1
  { fmt := bits 5 0 (fieldLE bs 2 1), sf16 := bits 5 0 (fieldLE bs 3 1) == 0x21, sr := bitAt 5 b4, rotStep := bitAt 4 b4
    rot := bits 3 2 b4, fbCopy := bitAt 1 b4, outliers := bitAt 0 b4, scaleMax := fieldLE bs 5 1, escAmax := fieldLE bs 6 2
    pre := sext 16 (fieldLE bs 8 2), rotKey := bits 23 0 (fieldLE bs 12 4), step := bits 47 0 (fieldLE bs 16 8)
    fbRef := fieldLE bs 24 4 }

/-- The 32 bytes of a quantisation record. -/
def QRec.bytes (r : QRec) : List Byte :=
  leBytes 1 1 ++ leBytes 1 4 ++ leBytes 1 r.fmt ++ leBytes 1 (if r.sf16 then 0x21 else 0x20)
    ++ leBytes 1 (32 * b2n r.sr + 16 * b2n r.rotStep + 4 * r.rot + 2 * b2n r.fbCopy + b2n r.outliers)
    ++ leBytes 1 r.scaleMax ++ leBytes 2 r.escAmax ++ leBytes 2 (twos 16 r.pre) ++ leBytes 2 0 ++ leBytes 4 r.rotKey
    ++ leBytes 8 r.step ++ leBytes 4 r.fbRef ++ leBytes 4 0

/-- What a reader checks of a record (R13, R15, R22, R40, R71); 0 where it holds. -/
def qrecForm (bs : List Byte) : Nat :=
  let r := qrecOf bs
  if formStatus bs ≠ 0 then formStatus bs
  else if bits 7 6 (fieldLE bs 2 1) ≠ 0 ∨ bits 7 6 (fieldLE bs 3 1) ≠ 0 ∨ bits 7 6 (fieldLE bs 4 1) ≠ 0 ∨ r.rot = 3
      ∨ fieldLE bs 10 2 ≠ 0 ∨ fieldLE bs 15 1 ≠ 0 ∨ fieldLE bs 22 2 ≠ 0 ∨ fieldLE bs 28 4 ≠ 0 then St.reservedBit
  else if (eFmtOf r.fmt).isNone ∨ ¬(bits 5 0 (fieldLE bs 3 1) = 0x20 ∨ bits 5 0 (fieldLE bs 3 1) = 0x21) then St.format
  else if r.pre < -1024 ∨ 1024 < r.pre then St.range
  else if r.scaleMax = 255 then St.reservedBit
  else 0

/-- A history record (Table 2.8). -/
def histOf (bs : List Byte) : Hist :=
  { head := bits 3 0 (fieldLE bs 2 1), valid := fieldLE bs 3 1, entries := (List.range 16).map fun i => fieldLE bs (8 + 2 * i) 2 }

/-- The 40 bytes of a history record. -/
def Hist.bytes (h : Hist) : List Byte :=
  leBytes 1 1 ++ leBytes 1 5 ++ leBytes 1 h.head ++ leBytes 1 h.valid ++ leBytes 4 0 ++ h.entries.flatMap (leBytes 2)

/-- A finishing record (Table 4.8). -/
structure Fin where
  round : Nat
  outFmt : Nat
  blockDir : Bool
  dropout : Bool
  chain : Bool
  stats : Bool
  bias : Bool
  alphaOn : Bool
  func : Nat
  srFree : Bool
  acc : Nat
  keep : Nat
  alpha : Nat
  dropScale : Nat
  biasRef : Nat
  auxRef : Nat
  statsRef : Nat
  outRef : Nat
  deriving DecidableEq, Repr

/-- Parse a finishing record. -/
def finOf (bs : List Byte) : Fin :=
  let b3 := fieldLE bs 3 1
  { round := bits 7 6 (fieldLE bs 2 1), outFmt := bits 5 0 (fieldLE bs 2 1), blockDir := bitAt 5 b3, dropout := bitAt 4 b3
    chain := bitAt 3 b3, stats := bitAt 2 b3, bias := bitAt 1 b3, alphaOn := bitAt 0 b3, func := fieldLE bs 4 1
    srFree := bitAt 2 (fieldLE bs 5 1), acc := bits 1 0 (fieldLE bs 5 1), keep := fieldLE bs 6 2, alpha := fieldLE bs 8 4
    dropScale := fieldLE bs 12 4, biasRef := fieldLE bs 16 4, auxRef := fieldLE bs 20 4, statsRef := fieldLE bs 24 4
    outRef := fieldLE bs 28 4 }

/-- A target accepts a rounding mode (Table 1.8, R49). A block-scaled target is quantised by RNE or SR (R55, Q of R60), so a W16 target
with block scales takes no RTO (DESIGN CHOICE, log entry 113). -/
def modeFits (round fmt : Nat) (scaled : Bool) : Bool :=
  match rmodeOf round with
  | some .rne => true
  | some .rto => !scaled && (fmt == 0x10 || fmt == fmtF32)
  | some .sr => (eFmtOf fmt).isSome && fmt != 0x10
  | none => false

/-- The checks of R49 and R153 on a record and its output tensor, with M rows of output. `written` is the element format that a
block-scaled output is written in (R158), which the rounding mode is judged by. -/
def finCheck (bs : List Byte) (out : Option Tensor) (m rotN written : Nat) : Nat :=
  let f := finOf bs
  if entryStatus bs ≠ 0 then entryStatus bs
  else if bits 7 6 (fieldLE bs 3 1) ≠ 0 ∨ bits 7 3 (fieldLE bs 5 1) ≠ 0 ∨ f.acc = 3 ∨ (rmodeOf f.round).isNone
      ∨ !funcKnown f.func then St.reservedBit
  else if (eFmtOf f.outFmt).isNone ∧ f.outFmt ≠ fmtF32 ∧ f.outFmt ≠ fmtK40 ∧ f.outFmt ≠ fmtA64 then St.format
  else if !(if (out.map (·.record)).getD 0 = 0 then modeFits f.round f.outFmt false else modeFits f.round written true) then St.format
  else match out with
  | none => St.operands
  | some t =>
    if t.record ≠ 0 ∧ (eFmtOf f.outFmt).isNone then St.operands
    else if t.record = 0 ∧ f.outFmt ≠ t.fmt then St.operands
    else if f.outFmt = fmtA64 ∧ (f.alphaOn ∨ f.bias ∨ f.func ≠ 0 ∨ f.dropout) then St.operands
    else if f.acc = 1 ∧ f.outFmt ≠ fmtA64 then St.operands
    else if f.acc = 2 ∧ f.outFmt ≠ fmtA64 ∧ f.outFmt ≠ fmtF32 then St.operands
    else if funcBackward f.func ≠ (f.auxRef != 0) then St.operands
    else if f.blockDir ∧ m % (if rotN = 0 then 32 else rotN) ≠ 0 then St.operands
    else 0

/-- A draw descriptor (Table 6.4). -/
structure DrawDesc where
  kind : Nat
  free : Bool
  outFmt : Nat
  stream : Nat
  draw : Nat
  tensor : Nat
  count : Nat
  paramA : Nat
  paramB : Nat
  inRef : Nat
  outRef : Nat
  deriving DecidableEq, Repr

/-- Parse a draw descriptor. -/
def drawOf (bs : List Byte) : DrawDesc :=
  { kind := bits 7 4 (fieldLE bs 2 1), free := bitAt 0 (fieldLE bs 2 1), outFmt := bits 5 0 (fieldLE bs 3 1)
    stream := fieldLE bs 4 3, draw := fieldLE bs 7 1, tensor := fieldLE bs 8 3, count := fieldLE bs 12 4
    paramA := fieldLE bs 16 4, paramB := fieldLE bs 20 4, inRef := fieldLE bs 24 4, outRef := fieldLE bs 28 4 }

/-- A finite F32 code at or above zero; `pos` asks for more than zero (R220, R253). -/
def f32AtLeast (c : Nat) (pos : Bool) : Bool :=
  match f32Val c with
  | .fin n m => if pos then !n && decide (0 < m) else !n || decide (m = 0)
  | _ => false

/-- The checks of R220 and R212 on a draw descriptor. -/
def drawCheck (bs : List Byte) : Nat :=
  let d := drawOf bs
  let fin := fun c => !(f32Val c).nonFinite
  if entryStatus bs ≠ 0 then entryStatus bs
  else if bits 3 1 (fieldLE bs 2 1) ≠ 0 ∨ bits 7 6 (fieldLE bs 3 1) ≠ 0 ∨ fieldLE bs 11 1 ≠ 0 then St.reservedBit
  else if 3 < d.kind ∨ !streamSoftware d.stream then St.range
  else
    let ok := match d.kind with
      | 0 => d.paramA == 0 && d.paramB == 0 && d.inRef == 0 && d.outFmt == 0
      | 1 => d.paramA < 65536 && d.paramB == 0 && d.inRef == 0 && d.outFmt == 0
      | 2 => (d.outFmt == 0x10 || d.outFmt == fmtF32) && fin d.paramA && fin d.paramB && d.inRef == 0
      | _ => d.outFmt == fmtI32 && f32AtLeast d.paramA false && 1 ≤ d.paramB && d.paramB ≤ 262144
             && 1 ≤ d.count && d.count ≤ 2 ^ 22
    if ok then 0 else St.range

/-- A data-source descriptor (R248). -/
structure DataDesc where
  source : Nat
  sampleBytes : Nat
  perMb : Nat
  dst : Nat
  deriving DecidableEq, Repr

/-- Parse a data-source descriptor. -/
def dataOf (bs : List Byte) : DataDesc :=
  { source := fieldLE bs 2 1, sampleBytes := fieldLE bs 4 4, perMb := fieldLE bs 8 4, dst := fieldLE bs 12 4 }

/-- An update descriptor (Table 7.11). -/
def updOf (bs : List Byte) : UpdDesc :=
  { kind := bits 3 0 (fieldLE bs 2 1), lr := fieldLE bs 4 4, b1 := fieldLE bs 8 4, b2 := fieldLE bs 12 4
    eps := fieldLE bs 16 4, wd := fieldLE bs 20 4, gscale := fieldLE bs 24 4, clip := fieldLE bs 28 4 }

/-- An F32 code in [0, 1). -/
def f32Below1 (c : Nat) : Bool :=
  match f32Val c with
  | .fin n m => (!n || decide (m = 0)) && decide (m < 1)
  | _ => false

/-- The ranges of R253. -/
def UpdDesc.inRange (d : UpdDesc) : Bool :=
  f32AtLeast d.lr false && f32AtLeast d.wd false && f32Below1 d.b1 && f32Below1 d.b2 && f32AtLeast d.eps true
    && f32AtLeast d.gscale true && (d.clip == 0 || f32AtLeast d.clip true)

/-- The checks of R253 on an update descriptor. -/
def updCheck (bs : List Byte) (replay : Bool) : Nat :=
  let d := updOf bs
  if entryStatus bs ≠ 0 then entryStatus bs
  else if bits 7 4 (fieldLE bs 2 1) ≠ 0 ∨ fieldLE bs 3 1 ≠ 0 then St.reservedBit
  else if d.kind = 0 ∨ 3 < d.kind then St.range
  else if d.kind = 3 ∧ !replay then St.replay
  else if d.inRange then 0 else St.range

/-- A collective descriptor (Table 11.2). -/
structure CollDesc where
  kind : Nat
  axes : Nat
  ecMode : Nat
  inFmt : Nat
  inRef : Nat
  outRef : Nat
  chunk : Nat
  depth : Nat
  exp : Int
  peer : Nat
  runLen : Nat
  channel : Nat
  bytes : Nat
  runStart : Nat
  deriving DecidableEq, Repr

/-- Parse a collective descriptor. -/
def collOf (bs : List Byte) : CollDesc :=
  { kind := bits 7 4 (fieldLE bs 2 1), axes := bits 2 0 (fieldLE bs 2 1), ecMode := bits 7 6 (fieldLE bs 3 1)
    inFmt := bits 5 0 (fieldLE bs 3 1), inRef := fieldLE bs 4 4, outRef := fieldLE bs 8 4, chunk := fieldLE bs 12 1
    depth := fieldLE bs 13 1, exp := sext 16 (fieldLE bs 14 2), peer := fieldLE bs 16 3, runLen := fieldLE bs 19 1
    channel := fieldLE bs 20 4, bytes := fieldLE bs 24 8, runStart := fieldLE bs 36 1 }

/-- The tensors a cue reads, and those it writes, by its operands (Table 7.2). -/
def Job.touches (j : Job) (c : CueRec) : List Nat × List Nat :=
  let fin := finOf (j.finish.getD (c.op 42 3) [])
  let draw := drawOf (j.draw.getD (c.op 36 3) [])
  let coll := collOf (j.coll.getD (c.op 36 3) [])
  match c.opcode with
  | 0x01 => ([c.op 36 3, c.op 39 3, fin.biasRef, fin.auxRef], [fin.outRef, fin.statsRef])
  | 0x02 => ([draw.inRef], [draw.outRef])
  | 0x03 => ([c.op 36 3], [c.op 39 3])
  | 0x04 => ([coll.inRef], [coll.outRef])
  | 0x05 => ([c.op 42 3, c.op 39 3, c.op 45 3], [c.op 39 3, c.op 45 3, c.op 45 3 + 1, c.op 48 3])
  | 0x08 => ([c.op 36 3], [])
  | 0x09 => ([c.op 36 3], [])
  | _ => ([], [])

/-- Byte ranges that a cue's tensors take: themselves, their records, and the same of their fall-back copies and of the tensors beside
them (Table 7.6). A DATA cue names its shard buffer. -/
def Job.cueRanges (j : Job) (c : CueRec) : List (Nat × Nat) :=
  let named := (j.touches c).1 ++ (j.touches c).2
  let own := fun (i : Nat) => (j.tensor i).toList
  let all := (named.flatMap own).flatMap fun t => t :: (own t.fb ++ own t.aux)
  all.flatMap (fun t => [(t.base, t.bytes), (t.record, 32)])
    ++ (if c.opcode = cData then
        ((j.data.map dataOf).filter (·.source == c.op 36 1)).map fun d => (c.op 48 8, c.op 42 4 * d.sampleBytes)
      else [])

/-- The checks of R385 on a collective descriptor: its own fields, the coordinate in PEER (R372), and a PEER_CHANNEL that ARG [23:0] can
carry and that names no collective of the device's own (R353, R393). -/
def collCheck (bs : List Byte) : Nat :=
  let d := collOf bs
  if entryStatus bs ≠ 0 then entryStatus bs
  else if bitAt 3 (fieldLE bs 2 1) ∨ fieldLE bs 34 2 ≠ 0 ∨ (bs.drop 37).any (· != 0)
      ∨ ((d.kind = 2 ∨ d.kind = 5 ∨ d.kind = 6) ∧ coordWord d.peer ≠ d.peer) then St.reservedBit
  else if d.kind = 0 ∨ 7 < d.kind ∨ d.chunk < 12 ∨ 24 < d.chunk then St.range
  else
    let ok := match d.kind with
      | 1 => d.ecMode ≤ 1 && (d.inFmt == fmtA64 || d.inFmt == fmtF32 || d.inFmt == fmtI32)
      | 3 => d.ecMode == 0 && d.inFmt == fmtI32
      | 4 => d.ecMode == 0 && d.inFmt == 0 && (d.bytes == 8 || d.bytes == 16)
      | 5 => d.ecMode == 0 && d.inFmt == 0 && 2 ≤ d.runLen && d.runLen ≤ 16 && d.runStart ≤ 63 && (d.axes == 1 || d.axes == 2 || d.axes == 4)
      | 7 => d.ecMode == 0 && d.inFmt == 0 && 1 ≤ d.depth && d.depth ≤ 16 && d.inRef == 0
      | 6 => d.ecMode == 0 && d.inFmt == 0 && d.outRef == 0 && d.channel < 0xFFFFF0
      | _ => d.ecMode == 0 && d.inFmt == 0
    if ok && (d.kind == 7 || d.depth == 0) then 0 else St.range

/-- A reduced tensor record (Table 11.3). -/
def reducedRecord (bound sat : Bool) (ec : Int) (step : Nat) : List Byte :=
  leBytes 1 1 ++ leBytes 1 4 ++ leBytes 1 fmtI32 ++ leBytes 1 (2 * b2n bound + b2n sat) ++ leBytes 2 0
    ++ leBytes 2 (twos 16 ec) ++ leBytes 8 0 ++ leBytes 8 step ++ leBytes 8 0

/-! ### A64 tiles (Table 4.5) -/

/-- An A64 tile header. -/
structure TileHdr where
  bound : Bool
  nv : Bool
  empty : Bool
  ovf : Bool
  retries : Nat
  et : Int
  rows : Nat
  cols : Nat
  lost : Nat
  step : Nat
  deriving DecidableEq, Repr

/-- The 64 bytes in front of a tile's elements. -/
def TileHdr.bytes (h : TileHdr) : List Byte :=
  leBytes 1 1 ++ leBytes 1 4 ++ leBytes 1 fmtA64 ++ leBytes 1 (8 * b2n h.bound + 4 * b2n h.nv + 2 * b2n h.empty + b2n h.ovf)
    ++ leBytes 1 h.retries ++ leBytes 1 0 ++ leBytes 2 (twos 16 h.et) ++ leBytes 2 h.rows ++ leBytes 2 h.cols
    ++ leBytes 4 (min h.lost (2 ^ 32 - 1)) ++ leBytes 8 h.step ++ leBytes 40 0

/-- Parse a tile header. -/
def tileHdrOf (bs : List Byte) : TileHdr :=
  let b3 := fieldLE bs 3 1
  { bound := bitAt 3 b3, nv := bitAt 2 b3, empty := bitAt 1 b3, ovf := bitAt 0 b3, retries := bits 2 0 (fieldLE bs 4 1)
    et := sext 16 (fieldLE bs 6 2), rows := bits 8 0 (fieldLE bs 8 2), cols := bits 8 0 (fieldLE bs 10 2)
    lost := fieldLE bs 12 4, step := bits 47 0 (fieldLE bs 16 8) }

/-- The next 256-byte boundary. -/
def align256 (n : Nat) : Nat := ceilDiv n 256 * 256

/-- Bytes of a tile of R rows and C columns, up to the next boundary. -/
def tileBytes (r c : Nat) : Nat := align256 (64 + 8 * r * c)

/-- Address of tile (i, j) of an A64 tensor whose tiles lie one after the other, rows of tiles first (R142, R246; log
entry 22), with the tile's rows and columns. A tensor without columns has no tile. -/
def Tensor.tileAt (t : Tensor) (i j : Nat) : Nat × Nat × Nat :=
  if t.redLen = 0 then (t.base, 0, 0)
  else
  let rows := t.outer
  let cols := t.redLen
  let h := min 256 (rows - 256 * i)
  let w := min 256 (cols - 256 * j)
  let full := cols / 256
  let rowBytes := full * tileBytes 256 256 + (if cols % 256 = 0 then 0 else tileBytes 256 (cols % 256))
  (t.base + i * rowBytes + j * tileBytes h 256, h, w)

/-- Every tile of an A64 tensor. -/
def Tensor.tiles (t : Tensor) : List (Nat × Nat × Nat) :=
  (List.range (ceilDiv t.outer 256)).flatMap fun i => (List.range (ceilDiv t.redLen 256)).map fun j => t.tileAt i j

/-! ### Planes (R65, R246) -/

/-- Blocks of an outer index: those of K′ positions for a rotated tensor (R64, R87). -/
def Tensor.blocksPer (t : Tensor) (rotN : Nat) : Nat :=
  if rotN = 0 then ceilDiv t.redLen 32 else rotN * ceilDiv t.redLen rotN / 32

/-- Bases of the element, scale and last plane (tag, or outlier words) of a block-scaled tensor. -/
def Tensor.planes (t : Tensor) (f : EFmt) (sf16 : Bool) (rotN : Nat) : Nat × Nat × Nat :=
  let n := t.outer * t.blocksPer rotN
  let sc := t.base + align256 (n * f.blockBytes)
  (t.base, sc, sc + align256 (n * scaleBytes sf16))

/-- The element format, scale format, rotation and outlier plane a tensor is stored with. -/
structure Stored where
  fmt : EFmt
  sf16 : Bool
  rotN : Nat
  outliers : Bool
  deriving DecidableEq, Repr

/-- How a record says its tensor is stored. -/
def QRec.stored (r : QRec) : Stored := ⟨(eFmtOf r.fmt).getD .n4, r.sf16, rotLen r.rot, r.outliers⟩

/-! ### Reading elements -/

/-- Block number `blk` of planes stored as `st` (R64 to R69), by the bases of their elements, scales and tags: the block and its tag
byte. -/
def State.readBlockAt (s : State) (rq : Requester) (planes : Nat × Nat × Nat) (st : Stored) (blk : Nat) : Nat × RBlock × Nat × State :=
  match s.devRead rq (planes.1 + blk * st.fmt.blockBytes) st.fmt.blockBytes with
  | (0, codes, s) =>
    (match s.devRead rq (planes.2.1 + blk * scaleBytes st.sf16) (scaleBytes st.sf16) with
     | (0, sc, s) =>
       let n := if st.outliers then 4 else 1
       (match s.devRead rq (planes.2.2 + blk * n) n with
        | (0, w, s) =>
          (0, readBlock st.fmt st.sf16 (leNat sc) (unpackCodes st.fmt codes) (if st.outliers then some (leNat w) else none),
            if st.outliers then leNat w / 2 ^ 24 else leNat w, s)
        | (e, _, s) => (e, .nv, 0, s))
     | (e, _, s) => (e, .nv, 0, s))
  | (e, _, s) => (e, .nv, 0, s)

/-- Block number `blk` of a tensor stored as `st`. -/
def State.readQBlock (s : State) (rq : Requester) (t : Tensor) (st : Stored) (blk : Nat) : Nat × RBlock × Nat × State :=
  s.readBlockAt rq (t.planes st.fmt st.sf16 st.rotN) st blk

/-- Element k of a block is the negative zero of W16 (R47). -/
def RBlock.negZero (f : EFmt) (b : RBlock) (k : Nat) : Bool :=
  match b with
  | .num _ _ codes _ _ => f == .w16 && codes.getD k 0 == 0x8000
  | _ => false

/-- Element k of a block as a value under pre-scale p (R72); a zero keeps its sign (R47). -/
def blockVal (f : EFmt) (p : Int) (b : RBlock) (k : Nat) : Val :=
  match b.elem f k with
  | some x => if b.negZero f k then .fin true 0 else Val.ofRat (x * pow2 (-p))
  | none => .nan

/-- Several blocks in order. -/
def State.readQBlocks (s : State) (rq : Requester) (t : Tensor) (st : Stored) (p : Int) :
    List Nat → Nat × List (List Val) × State
  | [] => (0, [], s)
  | b :: bs =>
    match s.readQBlock rq t st b with
    | (0, blk, _, s) =>
      (match s.readQBlocks rq t st p bs with
       | (0, rest, s) => (0, ((List.range 32).map (blockVal st.fmt p blk)) :: rest, s)
       | r => r)
    | (e, _, _, s) => (e, [], s)

/-- Cut a byte list into k-byte little-endian numbers. -/
def leWords (k n : Nat) (bs : List Byte) : List Nat := (List.range n).map fun i => fieldLE bs (k * i) k

/-- The header of the tile at address a; one of a later version is rejected (R13; log entry 66). -/
def State.readHdr (s : State) (rq : Requester) (a : Nat) : Nat × TileHdr × State :=
  match s.devRead rq a 64 with
  | (0, hd, s) => (formStatus hd, tileHdrOf hd, s)
  | (e, _, s) => (e, tileHdrOf [], s)

/-- Logical element p of an A64 tensor as its tile holds it, and the tile's header. -/
def State.readA64 (s : State) (rq : Requester) (t : Tensor) (p : Nat) : Nat × Val × TileHdr × State :=
  let m := p / t.redLen
  let n := p % t.redLen
  let tile := t.tileAt (m / 256) (n / 256)
  let a := tile.1
  let w := tile.2.2
  match s.readHdr rq a with
  | (0, h, s) =>
    (match s.devNum rq (a + 64 + 8 * ((m % 256) * w + n % 256)) 8 with
     | (0, v, s) => (0, Val.ofRat ((sext 64 v : Rat) * pow2 h.et), h, s)
     | (e, _, s) => (e, .nan, h, s))
  | (e, h, s) => (e, .nan, h, s)

/-- Several A64 elements, each with its tile's header. -/
def State.readA64s (s : State) (rq : Requester) (t : Tensor) : List Nat → Nat × List (Val × TileHdr) × State
  | [] => (0, [], s)
  | p :: ps =>
    match s.readA64 rq t p with
    | (0, x, h, s) =>
      (match s.readA64s rq t ps with
       | (0, l, s) => (0, (x, h) :: l, s)
       | r => r)
    | (e, _, _, s) => (e, [], s)

/-- Exponent of an I32 tensor: EC of its reduced tensor record (R255), 0 without one; a record of a later version is rejected (R13;
log entry 66). -/
def State.i32Exp (s : State) (rq : Requester) (t : Tensor) : Nat × Int × State :=
  if t.record = 0 then (0, 0, s)
  else match s.devRead rq t.record 8 with
    | (0, bs, s) => (formStatus bs, sext 16 (fieldLE bs 6 2), s)
    | (e, _, s) => (e, 0, s)

/-- A quantisation record as its readers check it (R13, R71). -/
def State.readForm (s : State) (rq : Requester) (a : Nat) : Nat × QRec × State :=
  match s.devRead rq a 32 with
  | (0, bs, s) => (qrecForm bs, qrecOf bs, s)
  | (e, _, s) => (e, qrecOf [], s)

/-- Logical elements p to p + n − 1 of a tensor as exact values: status, values, whether an OVF tile was read, state. -/
def State.readVals (s : State) (rq : Requester) (t : Tensor) (p n : Nat) : Nat × List Val × Bool × State :=
  if t.scaled then
    match s.readForm rq t.record with
    | (0, q, s) =>
      let st := q.stored
      let per := t.blocksPer st.rotN
      let at' := fun i => ((p + i) / t.redLen, (p + i) % t.redLen)
      let blks := ((List.range n).map fun i => (at' i).1 * per + (at' i).2 / 32).eraseDups
      (match s.readQBlocks rq t st q.pre blks with
       | (0, vs, s) =>
         let tab := blks.zip vs
         (0, (List.range n).map fun i =>
           let b := (at' i).1 * per + (at' i).2 / 32
           (((tab.find? fun e => e.1 == b).map (·.2)).getD []).getD ((at' i).2 % 32) .nan, false, s)
       | (e, _, s) => (e, [], false, s))
    | (e, _, s) => (e, [], false, s)
  else if t.fmt = fmtA64 then
    match s.readA64s rq t ((List.range n).map (p + ·)) with
    | (0, xs, s) => (0, xs.map fun x => if x.2.nv then .nan else x.1, xs.any (·.2.ovf), s)
    | (e, _, s) => (e, [], false, s)
  else if t.fmt = fmtK40 then
    match s.devRead rq (t.base + 4 * p) (4 * n) with
    | (0, hi, s) =>
      (match s.devRead rq (t.base + align256 (4 * t.elems) + p) n with
       | (0, lo, s) => (0, (List.zipWith (fun h l => fK40.decode (h * 256 + l)) (leWords 4 n hi) (leWords 1 n lo)), false, s)
       | (e, _, s) => (e, [], false, s))
    | (e, _, s) => (e, [], false, s)
  else if t.fmt = fmtI32 then
    match s.i32Exp rq t with
    | (0, ec, s) =>
      (match s.devRead rq (t.base + 4 * p) (4 * n) with
       | (0, bs, s) => (0, (leWords 4 n bs).map fun w => Val.ofRat ((sext 32 w : Rat) * pow2 ec), false, s)
       | (e, _, s) => (e, [], false, s))
    | (e, _, s) => (e, [], false, s)
  else if t.fmt = 0x10 then
    match s.devRead rq (t.base + 2 * p) (2 * n) with
    | (0, bs, s) => (0, (leWords 2 n bs).map fW16.decode, false, s)
    | (e, _, s) => (e, [], false, s)
  else
    match s.devRead rq (t.base + 4 * p) (4 * n) with
    | (0, bs, s) => (0, (leWords 4 n bs).map f32Val, false, s)
    | (e, _, s) => (e, [], false, s)

/-- Bytes of one element of a wide tensor as its planes hold it: writes of (address, bytes). -/
def Tensor.wideWrites (t : Tensor) (p : Nat) (codes : List Nat) : List (Nat × List Byte) :=
  if t.fmt = fmtK40 then
    [(t.base + 4 * p, codes.flatMap fun c => leBytes 4 (k40HiPlane c)),
     (t.base + align256 (4 * t.elems) + p, codes.flatMap fun c => leBytes 1 (k40LoPlane c))]
  else if t.fmt = 0x10 then [(t.base + 2 * p, codes.flatMap (leBytes 2))]
  else [(t.base + 4 * p, codes.flatMap (leBytes 4))]

/-- The code of a value in a wide float format. -/
def wideCode (fmt mode : Nat) (v : Val) : Nat :=
  let m := (rmodeOf mode).getD .rne
  if fmt = fmtK40 then (fK40.encode m v).1 else if fmt = 0x10 then (fW16.encode m v).1 else (fF32.encode m v).1

/-! ### Watch records (Table 5.6) -/

/-- Address of a tensor's watch record (R196). -/
def Job.watchAt (j : Job) (i : Nat) : Nat := j.watchBase + 64 * i

/-- Add to a counter of a watch record, stopping at its largest value (R196). -/
def State.addWatch (s : State) (j : Job) (i o k n : Nat) : State :=
  if n = 0 then s
  else
    let a := j.watchAt i + o
    s.ownNum a k (satAdd (8 * k) (s.num a k) n)

/-- Set a flag bit of a watch record's byte 3. -/
def State.setWatchFlag (s : State) (j : Job) (i b : Nat) (on : Bool) : State :=
  let a := j.watchAt i + 3
  s.ownNum a 1 (setBits b b (b2n on) (s.num a 1))

end Sys2Proof.Machine
end

