-- ==== Sys2Proof/Machine/Link.lean ====
section
/-!
DEFINITION. The torus port's shared operations (10_link_protocol.md, 11_casts_and_collectives.md): coordinates and casts,
transaction headers, flits, replay and credits, notices, and the port state machine.
-/
namespace Sys2Proof.Machine

open Sys2Proof

/-! ### Coordinates and casts (R372 to R375) -/

/-- No coordinate; as a destination, the device at the far end of the port (R352, R372). -/
def noCoord : Nat := 0xFFFFFF

/-- Axis of a port: 0 X, 1 Y, 2 Z (Table 0.8). -/
def portAxis (p : Nat) : Nat := p / 2

/-- A − port. -/
def portMinus (p : Nat) : Bool := p % 2 == 1

/-- The opposite port (R362). -/
def portOpposite (p : Nat) : Nat := if portMinus p then p - 1 else p + 1

/-- Component of a coordinate on an axis (R372). -/
def comp (c a : Nat) : Nat := bits (21 - 8 * a) (16 - 8 * a) c

/-- A coordinate with one component replaced. -/
def setComp (c a v : Nat) : Nat := setBits (21 - 8 * a) (16 - 8 * a) v c

/-- Extent field of an axis in TORUS_EXTENT or CAST_EXTENT. -/
def extentOf (w a : Nat) : Nat := bits (23 - 8 * a) (16 - 8 * a) w

/-- The device's coordinate. -/
def State.coord (s : State) : Nat := s.fld Reg.fabCoord

/-- Torus extent on an axis (R373). -/
def State.torusE (s : State) (a : Nat) : Nat := extentOf (s.fld Reg.torusExtent) a

/-- Cast extent on an axis (R374). -/
def State.castE (s : State) (a : Nat) : Nat := extentOf (s.fld Reg.castExtent) a

/-- Position of a coordinate in the cast on an axis (R374). -/
def State.castPos (s : State) (c a : Nat) : Nat :=
  (comp c a + 64 * s.torusE a - comp (s.fld Reg.castOrigin) a) % s.torusE a

/-- A coordinate is a member of the cast (R374). -/
def State.isMember (s : State) (c : Nat) : Bool :=
  c != noCoord && (List.range 3).all fun a => decide (s.castPos c a < s.castE a)

/-- Devices of the cast (R374). -/
def State.castN (s : State) : Nat := s.castE 0 * s.castE 1 * s.castE 2

/-- An axis of the cast is a ring: 1; a line: 2; neither: 0 (R374). -/
def State.axisKind (s : State) (a : Nat) : Nat :=
  if s.castE a < 2 then 0 else if s.castE a = s.torusE a then 1 else 2

/-- An in-cast port (R375), by the cast registers. -/
def State.castPort (s : State) (p : Nat) : Bool :=
  let a := portAxis p
  match s.axisKind a with
  | 1 => true
  | 2 => if portMinus p then s.castPos s.coord a != 0 else s.castPos s.coord a + 1 != s.castE a
  | _ => false

/-- The expected neighbour of a port (R362); none while the device has no coordinate. -/
def State.expected (s : State) (p : Nat) : Option Nat :=
  if s.coord = noCoord then none
  else
    let a := portAxis p
    let e := s.torusE a
    some (setComp s.coord a ((comp s.coord a + (if portMinus p then e - 1 else 1)) % e))

/-- The port facing a coordinate, the + port where both do (R378). -/
def State.facing (s : State) (c : Nat) : Option Nat := (List.range 6).find? fun p => s.expected p == some c

/-- CAST_ID as the device sends and checks it: 0 while it belongs to no cast (R361, R376). -/
def State.ownCast (s : State) : Nat := if s.fld Reg.castState = 0 then 0 else s.fld Reg.castId

/-- The next port of a route in dimension order, which never uses a wrap link (R378). -/
def State.hopTo (s : State) (dst : Nat) : Option Nat :=
  ((List.range 3).find? fun a => comp dst a != comp s.coord a).map fun a =>
    if comp s.coord a < comp dst a then 2 * a else 2 * a + 1

/-- The port on which a transaction of this device's own leaves: the single link to an adjacent member, else its route's first (R378). -/
def State.route (s : State) (dst : Nat) : Option Nat := (s.facing dst).or (s.hopTo dst)

/-- A route that no FAILED member cuts (R400). -/
def State.openRoute (s : State) (dst : Nat) : Option Nat := (s.route dst).filter fun p => s.pf p Reg.portNeighbour != 3

/-! ### Epochs -/

/-- The job slot whose open epoch counts: that of the running job, or of a job being loaded (R358, R393), or of a stopped job whose drain
goes on (R434; DEDUCED, log entry 128). -/
def State.epochSlot (s : State) : Option Nat :=
  match s.runningSlot with
  | some j => some j
  | none =>
    ((List.range 4).find? fun j => s.jf j Reg.jobState == 1 || s.jf j Reg.jobState == 2).or
      (s.ckp.job.filter fun j => s.jf j Reg.jobState == 4 && s.fld Reg.ckpSSealed == 1)

/-- The device's open epoch (R249, R358): that of the running job, or of a job being loaded (R393); 0 without one. -/
def State.openEpoch (s : State) : Nat := ((s.epochSlot.bind s.job).map (·.epoch)).getD 0

/-- The matinee epoch (R249). -/
def matineeEpoch : Nat := 0xFFFFFFFF

/-- What becomes of an epoch-bound transaction: 0 applied, 1 held apart, 2 STALE (Table 10.12). Between the end of an abandoned attempt
and the next ATTEMPT_OPEN no epoch is open: the next attempt's traffic waits, and any other is STALE. -/
def State.epochRule (s : State) (epoch : Nat) : Nat :=
  if epoch = matineeEpoch then 0
  else
    match s.epochSlot.bind fun k => (s.job k).map fun j => (k, j) with
    | none => 2
    | some (k, j) =>
      let step := s.jf k Reg.jobStep
      if j.lapsed then (if epoch = step % 2 ^ 24 * 256 + s.jf k Reg.jobAttempt then 1 else 2)
      else if epoch = j.epoch then 0
      else if epoch = (step + 1) % 2 ^ 24 * 256 ∨ epoch = (j.epoch + 1) % 2 ^ 32 then 1
      else 2

/-- The epoch a cue's torus traffic carries (R249, R259, R383). -/
def CueRec.torusEpoch (c : CueRec) (s : State) : Nat := c.epoch.getD s.openEpoch

/-! ### Transaction headers (Table 10.9) -/

/-- A transaction header. -/
structure Txn where
  opcode : Nat
  resp : Bool
  a64 : Bool
  epoch : Nat
  cast : Nat
  dst : Nat
  status : Nat
  src : Nat
  retries : Nat
  aflags : Nat
  bytes : Nat
  tag : Nat
  exp : Nat
  offset : Nat
  arg : Nat
  lost : Nat
  deriving DecidableEq, Repr

/-- Opcodes of Table 10.10. -/
def opSend : Nat := 1
def opPut : Nat := 2
def opGet : Nat := 3
def opAtomic : Nat := 4
def opStep : Nat := 5
def opPulse : Nat := 6
def opHello : Nat := 7
def opNotice : Nat := 8
def opFence : Nat := 9

/-- Transaction status codes (Table 10.11). -/
def tsOk : Nat := 0
def tsDenied : Nat := 1
def tsAddress : Nat := 2
def tsUncorrectable : Nat := 3
def tsSat : Nat := 4
def tsExp : Nat := 5
def tsCast : Nat := 6
def tsMalformed : Nat := 7
def tsUnsupported : Nat := 8
def tsStale : Nat := 9
def tsLinkDown : Nat := 10
def tsTimeout : Nat := 11

/-- The 48 header bytes. -/
def Txn.head (t : Txn) : List Byte :=
  leBytes 1 1 ++ leBytes 1 6 ++ leBytes 1 t.opcode ++ leBytes 1 (128 * b2n t.resp + 16 * b2n t.a64) ++ leBytes 4 t.epoch
    ++ leBytes 4 t.cast ++ leBytes 3 t.dst ++ leBytes 1 t.status ++ leBytes 3 t.src
    ++ leBytes 1 (8 * (t.retries % 8) + t.aflags % 8) ++ leBytes 4 t.bytes ++ leBytes 2 t.tag ++ leBytes 2 t.exp
    ++ leBytes 4 t.offset ++ leBytes 8 t.arg ++ leBytes 4 t.lost ++ leBytes 4 0

/-- The header of a received message. -/
def txnOf (bs : List Byte) : Txn :=
  { opcode := fieldLE bs 2 1, resp := bitAt 7 (fieldLE bs 3 1), a64 := bitAt 4 (fieldLE bs 3 1), epoch := fieldLE bs 4 4
    cast := fieldLE bs 8 4, dst := fieldLE bs 12 3, status := fieldLE bs 15 1, src := fieldLE bs 16 3
    retries := bits 5 3 (fieldLE bs 19 1), aflags := bits 2 0 (fieldLE bs 19 1), bytes := fieldLE bs 20 4
    tag := fieldLE bs 24 2, exp := fieldLE bs 26 2, offset := fieldLE bs 28 4, arg := fieldLE bs 32 8
    lost := fieldLE bs 40 4 }

/-- Body bytes that a message carries: none in a GET request (R352, R353). -/
def Txn.bodyLen (t : Txn) : Nat := if t.opcode = opGet ∧ !t.resp then 0 else t.bytes

/-- The body of a message. -/
def Msg.body (m : Msg) : List Byte := (m.bytes.drop 48).take (txnOf m.bytes).bodyLen

/-- A header from this device to `dst` with everything else zero. -/
def State.txn (s : State) (opcode dst : Nat) : Txn :=
  { opcode, resp := false, a64 := false, epoch := s.openEpoch, cast := s.ownCast, dst, status := 0, src := s.coord
    retries := 0, aflags := 0, bytes := 0, tag := 0, exp := 0, offset := 0, arg := 0, lost := 0 }

/-- VCs an opcode may use (Table 10.10). -/
def vcAllowed (opcode vc : Nat) : Bool :=
  match opcode with
  | 1 | 2 | 3 => vc == 0 || vc == 2 || vc == 5
  | 4 | 5 => vc == 1
  | 6 | 7 => vc == 4
  | 8 | 9 => vc == 3
  | _ => false

/-! ### Port states (Table 10.19) -/
namespace PS
def off : Nat := 0
def detect : Nat := 1
def train : Nat := 2
def init : Nat := 3
def hello : Nat := 4
def up : Nat := 5
def boundary : Nat := 6
def standby : Nat := 7
def quarantine : Nat := 8
def retrain : Nat := 9
def down : Nat := 10
end PS

/-- State of a port. -/
def State.pst (s : State) (p : Nat) : Nat := s.pf p Reg.portState

/-- FEC lock holds and flits flow: INIT to QUARANTINE. -/
def linked (st : Nat) : Bool := PS.init ≤ st && st ≤ PS.quarantine

/-- Only HELLO is carried (Table 10.19, R363). -/
def helloOnly (st : Nat) : Bool := st == PS.hello || st == PS.quarantine

/-- VCs a port state carries (Table 10.19, R363). -/
def vcCarried (st : Nat) (test : Bool) (vc : Nat) : Bool :=
  match st with
  | 4 | 8 => vc == 4
  | 5 => true
  | 6 => vc == 4 || (test && vc == 5)
  | 7 => vc == 3 || vc == 4
  | _ => false

/-! ### Sending (R346, R351) -/

/-- Cut a message into 240-byte payloads marked SOM and EOM; fuel bounds their number. -/
def cutMsg (vc : Nat) : Nat → Bool → List Byte → List (Nat × Bool × Bool × Option Nat × List Byte)
  | 0, _, _ => []
  | k + 1, som, bs =>
    let last := bs.length ≤ 240
    (vc, som, last, none, bs.take 240) :: (if last then [] else cutMsg vc k false (bs.drop 240))

/-- Queue a message on a port (R351). -/
def State.sendMsg (s : State) (p vc : Nat) (t : Txn) (body : List Byte) : State :=
  let bs := t.head ++ body
  s.modPort p fun x => { x with outbox := x.outbox ++ cutMsg vc (bs.length / 240 + 1) true bs }

/-- Answer a GET (R353, R358). -/
def State.answerGet (s : State) (p vc : Nat) (t : Txn) (status : Nat) (body : List Byte) : State :=
  let q := match (if t.src = noCoord then none else s.route t.src) with
    | some q => if vc = 2 ∨ vc = 5 then q else p
    | none => p
  s.sendMsg q vc { s.txn opGet t.src with resp := true, epoch := t.epoch, bytes := body.length, tag := t.tag, arg := t.arg, status } body

/-- A fresh tag of a port (R360). -/
def State.newTag (s : State) (p : Nat) : Nat × State :=
  let x := s.port p
  (x.nextTag, s.setPort p { x with nextTag := (x.nextTag + 1) % 65536 })

/-- Queue a request that is answered, and remember it (R360). -/
def State.sendRequest (s : State) (p vc : Nat) (t : Txn) (ops : List Nat) (use dst : Nat) : State :=
  let (tag, s) := s.newTag p
  let s := s.modPort p fun x =>
    { x with outstanding := x.outstanding ++ [{ tag, opcode := t.opcode, ops, dst, bytes := t.bytes, use }] }
  s.sendMsg p vc { t with tag := tag } []

/-- The FENCE after the last transaction of a cue (R356). -/
def State.sendFence (s : State) (p : Nat) (ops : List Nat) (use : Nat := 0) : State :=
  s.sendRequest p 3 (s.txn opFence noCoord) ops use 0

/-- A PUT of `body` to a device address of `dst` on VC 2 or 0. -/
def State.sendPut (s : State) (p vc dst epoch addr : Nat) (body : List Byte) : State :=
  let (tag, s) := s.newTag p
  s.sendMsg p vc { s.txn opPut dst with epoch := epoch, bytes := body.length, tag := tag, arg := addr } body

/-! ### NOTICE, PULSE and HELLO bodies (Tables 10.13, 10.15, 10.17) -/

/-- Notice kinds (Table 10.18). -/
def nkSlow : Nat := 1
def nkClear : Nat := 2
def nkCancel : Nat := 3
def nkSelfFailed : Nat := 4
def nkQuery : Nat := 5
def nkReport : Nat := 6
def nkFailed : Nat := 7

/-- A NOTICE body. -/
def noticeBody (kind flood nseq cause origin subject epoch value : Nat) : List Byte :=
  leBytes 1 1 ++ leBytes 1 4 ++ leBytes 1 kind ++ leBytes 1 flood ++ leBytes 2 nseq ++ leBytes 2 cause ++ leBytes 3 origin
    ++ leBytes 1 0 ++ leBytes 3 subject ++ leBytes 1 0 ++ leBytes 4 epoch ++ leBytes 4 value ++ leBytes 8 0

/-- Queue a notice on one port. -/
def State.sendNotice (s : State) (p : Nat) (body : List Byte) : State :=
  let (tag, s) := s.newTag p
  s.sendMsg p 3 { s.txn opNotice noCoord with bytes := 32, tag := tag } body

/-- Queue a notice on every port in UP but one (R368). -/
def State.spread (s : State) (except : Option Nat) (body : List Byte) : State :=
  (List.range 6).foldl (fun s p => if some p ≠ except ∧ s.pst p = PS.up then s.sendNotice p body else s) s

/-- Flood a notice of this device's own (R366, R368). -/
def State.flood (s : State) (kind cause subject epoch value : Nat) : State :=
  let n := (s.fabric.nseq + 1) % 65536
  let s := { s with fabric := { s.fabric with nseq := n, seen := ((s.coord, n) :: s.fabric.seen).take 256 } }
  s.spread none (noticeBody kind 1 n cause s.coord subject epoch value)

/-- The HELLO body of a port (Table 10.13). -/
def State.helloBody (s : State) (p : Nat) : List Byte :=
  leBytes 1 1 ++ leBytes 1 8 ++ leBytes 1 1 ++ leBytes 1 0 ++ leBytes 1 2 ++ leBytes 1 1 ++ leBytes 1 p
    ++ leBytes 1 (s.fld Reg.fovRole) ++ leBytes 3 s.coord ++ leBytes 1 0 ++ leBytes 4 s.ownCast ++ leBytes 4 (s.rd Reg.fwBuild)
    ++ leBytes 8 (s.rd Reg.serialHash) ++ leBytes 6 (s.fld Reg.fdIds) ++ leBytes 30 0

/-- Queue a HELLO (R362). -/
def State.sendHello (s : State) (p : Nat) : State :=
  let (tag, s) := s.newTag p
  s.sendMsg p 4 { s.txn opHello noCoord with bytes := 64, tag := tag } (s.helloBody p)

/-- PULSE STATE of the device (Table 10.15). -/
def State.pulseState (s : State) : Nat :=
  if s.fov.dead then 4
  else if s.fov.recovery then 3
  else match s.runningSlot with
  | some j => if s.jf j Reg.jobPhase = 7 then 2 else 1
  | none => 0

/-- A PULSE body (Table 10.15). -/
def State.pulseBody (s : State) (seq : Nat) : List Byte :=
  let view := (List.range 6).foldl (fun v p => v + s.pf p Reg.portNeighbour * 4 ^ p) 0
  let step := match s.runningSlot with
    | some j => s.jf j Reg.jobStep
    | none => 0
  leBytes 1 1 ++ leBytes 1 4 ++ leBytes 1 s.pulseState ++ leBytes 1 (b2n s.fabric.slow) ++ leBytes 2 seq ++ leBytes 2 view
    ++ leBytes 6 step ++ leBytes 18 0

/-! ### Operation slots that wait for the torus -/

/-- An operation's output has been acknowledged, or has failed with a status; the first failure stays (R240, R357). -/
def State.opAck (s : State) (i status : Nat) : State :=
  match SMap.find s.ops i with
  | some o =>
    { s with ops := SMap.put s.ops i { o with left := o.left - 1, status := if o.status = 0 then status else o.status } }
  | none => s

/-! ### Neighbour status, confirmation and the cast state (R365, R377, R398) -/

/-- CAST_STATE follows the in-cast ports (R376, R377): BROKEN from a neighbour's failure until that port is UP again; a forming cast
is FORMED once all are UP. -/
def State.castRefresh (s : State) : State :=
  let st := s.fld Reg.castState
  let ins := (List.range 6).filter fun p => s.pf p Reg.portInCast == 1
  let gone := fun p => s.pf p Reg.portNeighbour == 3
  let broken := ins.filter fun p => gone p || (s.fabric.broken.contains p && s.pst p != PS.up)
  let s : State := { s with fabric := { s.fabric with broken := if st = 0 then [] else broken } }
  if st = 0 then s
  else if !broken.isEmpty then s.setF Reg.castState 3
  else if st = 3 ∨ (st = 1 ∧ ins.all fun p => s.pst p == PS.up) then s.setF Reg.castState 2
  else s

/-- Flood a QUERY that names the neighbour of a port (R398). -/
def State.startConfirm (s : State) (p : Nat) : State :=
  match s.expected p with
  | some c =>
    let s := (s.flood nkQuery 0 c 0 0).inc Reg.queriesSent
    { s with fabric := { s.fabric with queries := s.fabric.queries ++ [{ port := p, subject := c, alive := false }] } }
  | none => s

/-- Answer QUERYs about the device a port faces, once each (R398). -/
def State.report (s : State) (p value : Nat) : State :=
  match s.expected p with
  | some c =>
    if s.fabric.toReport.contains c then
      ({ s with fabric := { s.fabric with toReport := s.fabric.toReport.filter (· != c) } }).flood nkReport 0 c 0 value
    else s
  | none => s

/-- A port's neighbour becomes SUSPECT (Table 10.16): confirmation starts. -/
def State.suspect (s : State) (p : Nat) : State :=
  if s.pf p Reg.portNeighbour = 1 then ((s.setPf p Reg.portNeighbour 2).startConfirm p).report p 0xFFFFFFFF else s

/-- A port's neighbour becomes FAILED: the port keeps the serial hash it had (R447). -/
def State.neighbourFailed (s : State) (p : Nat) : State :=
  if s.pf p Reg.portNeighbour = 3 then s
  else
    let h := s.pf p Reg.peerSerial
    ((s.setPf p Reg.portNeighbour 3).modPort p fun x => { x with hash := some h }).castRefresh

/-- One more error of a port's fence report; the first one names it (R357). -/
def State.countError (s : State) (p status tag n : Nat) : State :=
  s.modPort p fun x =>
    { x with errors := x.errors + n, firstTag := if x.errors = 0 then tag else x.firstTag
             firstStatus := if x.errors = 0 then status else x.firstStatus }

/-- A FENCE that covered forwarded transactions is over: the port they came in on takes its errors (R380). -/
def State.covered (s : State) (q tag dst status errTag errors : Nat) : State :=
  let s := s.modPort dst fun x => { x with fwd := x.fwd.filter fun f => f != (q, some tag) }
  if 0 < errors then s.countError dst status errTag errors else s

/-- A request that port q sent ends without its answer (R349, R360): by its use, its operations complete with the status, the
fill has failed, a covering counts as an error, or the mirror's transfers are sent again. -/
def State.requestOver (s : State) (q : Nat) (o : Outstanding) (status : Nat) : State :=
  match o.use with
  | 0 => o.ops.foldl (fun s i => s.opAck i status) s
  | 3 => s.covered q o.tag o.dst (if status = St.timeout then tsTimeout else tsLinkDown) o.tag 1
  | 4 => { s with ckp := { s.ckp with reship := true } }
  | _ => { s with fov := { s.fov with fillFailed := true } }

/-- Requests of a port that will not be answered end with a status (R349, R360). -/
def State.failOutstanding (s : State) (p status : Nat) : State :=
  let x := s.port p
  x.outstanding.foldl (fun s o => s.requestOver p o status) (s.setPort p { x with outstanding := [] })

/-- Free slots of a VC whose flits transport has consumed (R344). -/
def State.freeSlots (s : State) (p vc n : Nat) : State :=
  s.modPort p fun x => { x with freed := x.freed.set vc (x.freed.getD vc 0 + n) }

/-- Payloads that wait on a port are discarded; the input slots of those it forwards are freed (R380). -/
def State.dropOutbox (s : State) (p : Nat) : State :=
  let out := (s.port p).outbox
  out.foldl (fun s e => match e.2.2.2.1 with
    | some q => s.freeSlots q e.1 1
    | none => s) (s.modPort p fun x => { x with outbox := [] })

/-- What a port drops when it passes through OFF or DOWN (R349). The silence of its neighbour goes on (R365). -/
def State.dropLink (s : State) (p : Nat) : State :=
  let s := (s.failOutstanding p St.linkDown).dropOutbox p
  s.modPort p fun x =>
    { Port.off with hash := x.hash, failed := x.failed, nextTag := x.nextTag, pulseTx := x.pulseTx, pulseRx := x.pulseRx
                    missed := x.missed }

/-- Show whether a port is in the cast: one that faces an understudy in STANDBY is not (R397). -/
def State.markPort (s : State) (p : Nat) : State :=
  s.setPf p Reg.portInCast (b2n (s.fld Reg.castState != 0 && s.castPort p && s.pst p != PS.standby))

/-- A port enters a state: its traffic state, its neighbour status (Table 10.16), its unit state (Table 16.4), its width
and the cast (R377). -/
def State.portEnter (s : State) (p st : Nat) : State :=
  let old := s.pst p
  let nb := s.pf p Reg.portNeighbour
  let s := s.setPf p Reg.portState st
  let s := if st ≠ PS.quarantine then s.setPf p Reg.portQuarCause 0 else s
  let s :=
    if st = PS.up then
      if nb = 0 then s.setPf p Reg.portNeighbour 1
      else if nb = 3 ∧ (s.port p).hash ≠ some (s.pf p Reg.peerSerial) then
        (s.setPf p Reg.portNeighbour 1).modPort p fun x => { x with hash := none }
      else s
    else if st = PS.boundary ∨ st = PS.standby ∨ st = PS.quarantine then
      (if nb = 3 then s else s.setPf p Reg.portNeighbour 0)
    else s
  let s := if st = PS.off ∨ st = PS.down then (s.dropLink p).setPf p Reg.portWidth 0 else s
  let u := s.unitRaw (UId.port p)
  let s := if st = PS.up ∧ u = US.idle then s.putUnit (UId.port p) US.active Ev.unitState Src.device
           else if st ≠ PS.up ∧ u = US.active then s.putUnit (UId.port p) US.idle Ev.unitState Src.device else s
  let s := if old = PS.up ∧ (st = PS.boundary ∨ st = PS.standby ∨ st = PS.quarantine) ∧ s.pf p Reg.portInCast = 1
              ∧ s.fld Reg.castState = 2 then s.startConfirm p else s
  (s.markPort p).castRefresh

/-! ### Flits (R336 to R346) -/

/-- A 256-byte flit with its CRC (Table 10.6, R338). -/
def flitOf (seq ack kind vc nak som eom crVc crTotal : Nat) (payload : List Byte) : List Byte :=
  let body := leBytes 1 1 ++ leBytes 1 32 ++ leBytes 2 seq ++ leBytes 2 ack
    ++ leBytes 1 (64 * kind + 8 * vc + 4 * nak + 2 * som + eom) ++ leBytes 1 (32 * crVc + crTotal % 32)
    ++ payload.take 240 ++ List.replicate (240 - payload.length) 0
  body ++ leBytes 8 (crcMsb 64 0x42F0E1EBA9EA3693 0 (natBytes body))

/-- CRC, VERSION and LENGTH of a received flit hold (R338, R13). -/
def flitGood (bs : List Byte) : Bool :=
  bs.length == 256 && fieldLE bs 248 8 == crcMsb 64 0x42F0E1EBA9EA3693 0 (natBytes (bs.take 248))
    && decide (fieldLE bs 0 1 ≤ 1)

/-- TYPE of a flit: 0 IDLE, 1 DATA, 2 INIT, 3 LINK. -/
def flitKind (bs : List Byte) : Nat := bits 7 6 (fieldLE bs 6 1)

/-- The credit return of the next flit (R345): the next VC in rotation with unreported slots, never more than 31 at once;
without one, the total of the VC last reported again (log entry 30). -/
def Port.creditReturn (x : Port) : Nat × Nat :=
  match ((List.range 6).map fun i => (x.crNext + 1 + i) % 6).find? fun v => x.freed.getD v 0 != x.crTx.getD v 0 with
  | some v => (v, min (x.freed.getD v 0) (x.crTx.getD v 0 + 31))
  | none => (x.crNext, x.crTx.getD x.crNext 0)

/-! ### FEC frames (R332 to R334) -/

/-- A product in GF(2^10) with the field polynomial x^10 + x^3 + 1 (R332). -/
def gfMul (a b : Nat) : Nat :=
  (List.range 10).foldl (fun acc k =>
    let d := if 1024 ≤ 2 * acc then Nat.xor (2 * acc) 0x409 else 2 * acc
    if b.testBit (9 - k) then Nat.xor d a else d) 0

/-- The generator (x − α^0)…(x − α^29), highest coefficient first (R332). -/
def rsGen : List Nat :=
  ((List.range 30).foldl (fun (acc : List Nat × Nat) _ =>
    ((acc.1 ++ [0]).zipWith Nat.xor (0 :: acc.1.map (gfMul acc.2)), gfMul acc.2 2)) ([1], 1)).1

/-- The 30 check symbols of 514 message symbols (R332). -/
def rsCheck (msg : List Nat) : List Nat :=
  let g := rsGen.drop 1
  msg.foldl (fun (r : List Nat) m =>
    let k := Nat.xor m (r.headD 0)
    (r.drop 1 ++ [0]).zipWith Nat.xor (g.map (gfMul k))) (List.replicate 30 0)

/-- The four codewords of 2,570 bytes of the link stream (R333). -/
def fecCodewords (bs : List Byte) : List (List Nat) :=
  let v := leNat bs
  (List.range 4).map fun c =>
    let msg := (List.range 514).map fun k => bits (10 * (4 * k + c) + 9) (10 * (4 * k + c)) v
    msg ++ rsCheck msg

/-- Logical lanes in use, ascending (R329). -/
def State.lanesInUse (s : State) (p : Nat) : List Nat :=
  if s.pf p Reg.portWidth = 8 then (List.range 8).map (· + 8 * b2n (s.port p).upper) else List.range 16

/-- The codeword whose symbol the l-th lane in use carries in round r (R334). -/
def fecCodeword (r l : Nat) : Nat := (l + r) % 4

/-- Its position in that codeword, with n lanes in use: the l-th lane is the (l / 4)-th of the n / 4 that carry it (R334). -/
def fecPosition (n r l : Nat) : Nat := n / 4 * r + l / 4

/-- The PAM4 level of a bit pair, by Gray code (R326). -/
def pamLevel (pair : Nat) : Nat := [0, 1, 3, 2].getD pair 0

/-- The PAM4 levels of a 10-bit symbol, most significant bit pair first (R326, R334). -/
def symbolLevels (v : Nat) : List Nat := (List.range 5).map fun i => pamLevel (v / 4 ^ (4 - i) % 4)

/-- What the l-th of n lanes in use carries of a frame: the symbols of its 2,176 / n rounds, as levels, without gaps (R334). -/
def laneLevels (n l : Nat) (frame : Nat → Nat → Nat) : List Nat :=
  (List.range (2176 / n)).flatMap fun r => symbolLevels (frame (fecCodeword r l) (fecPosition n r l))

/-- A FEC frame as the lanes in use carry it (R333, R334). -/
def fecFrame (lanes : List Nat) (bs : List Byte) : List (Nat × List Nat) :=
  let cws := fecCodewords bs
  lanes.zipIdx.map fun e => (e.1, laneLevels lanes.length e.2 fun c pos => (cws.getD c []).getD pos 0)

/-- The bytes of a flit enter the link stream; each 2,570 of them leave as a FEC frame (R333, R335). -/
def State.streamOut (s : State) (p : Nat) (f : List Byte) : State :=
  let all := (s.port p).stream ++ f
  let s := s.modPort p fun x => { x with stream := all.drop (if all.length < 2570 then 0 else 2570) }
  if all.length < 2570 then s else s.emit (.lanes p (fecFrame (s.lanesInUse p) (all.take 2570)))

/-- Send one flit with fresh ACK, NAK and credit fields (R342). -/
def State.sendFlit (s : State) (p kind seq low : Nat) (payload : List Byte) : State :=
  let x := s.port p
  let (v, total) := x.creditReturn
  let s := s.setPort p { x with nakSend := false, crNext := v, crTx := x.crTx.set v total }
  let f := flitOf seq ((x.rxSeq + 65535) % 65536) kind (low / 8) (b2n x.nakSend) (bits 1 1 low) (bits 0 0 low) v total payload
  (s.emit (.flit p f)).streamOut p f

/-- The payload of a LINK flit (R350): kind 1 RETRAIN, 2 DOWN. -/
def linkPayload (kind cause mask : Nat) : List Byte := leBytes 1 1 ++ leBytes 1 4 ++ leBytes 1 kind ++ leBytes 1 cause ++ leBytes 2 mask

/-- A port leaves for OFF or DOWN by its own decision: 16 LINK flits of kind DOWN first (R337, R350). -/
def State.portStop (s : State) (p st cause : Nat) : State :=
  let down := fun (s : State) => s.sendFlit p 3 (s.port p).txSeq 0 (linkPayload 2 cause (s.pf p Reg.failedLocal))
  (if linked (s.pst p) then (List.range 16).foldl (fun s _ => down s) s else s).portEnter p st

/-! ### Training frames (R326, R328, R330) -/

/-- n bits of PRBS13 from a register (Table 10.2): the sum of the stages that the generator names is shifted in, and the bit shifted out
is sent (DESIGN CHOICE, log entry 125). -/
def prbs13 : Nat → Nat → List Nat
  | 0, _ => []
  | n + 1, r =>
    let new := (bits 12 12 r + bits 11 11 r + bits 1 1 r + bits 0 0 r) % 2
    bits 12 12 r :: prbs13 n (2 * r % 2 ^ 13 + new)

/-- A training control word with its CRC8 (Table 10.3). -/
def controlWord (lane phase retrain last req status mask : Nat) : Nat :=
  let w := lane + 2 ^ 4 * phase + 2 ^ 6 * retrain + 2 ^ 7 * last + 2 ^ 8 * req + 2 ^ 16 * status + 2 ^ 24 * mask
  w + 2 ^ 56 * crcMsb 8 0x07 0 (leNats 7 w)

/-- The 1,024 levels of a training frame (Table 10.2). -/
def trainingFrame (lane word : Nat) : List Nat :=
  let pairs := prbs13 1792 (Nat.xor 0x1E5A lane)
  List.replicate 32 3 ++ List.replicate 32 0 ++ ((List.range 64).map fun i => 3 * bits i i word)
    ++ (List.range 896).map fun k => pamLevel (2 * pairs.getD (2 * k) 0 + pairs.getD (2 * k + 1) 0)

/-- Lanes that send training frames: all, but in a retrain and once the width is chosen those in use (R329). -/
def State.trainingLanes (s : State) (p : Nat) : List Nat :=
  if s.pst p = PS.retrain ∨ 5 ≤ (s.port p).train then s.lanesInUse p else List.range 16

/-- One training frame on every lane that sends them, with each lane's request (R328, R330). -/
def State.sendTraining (s : State) (p last : Nat) (req : Nat → Nat) : State :=
  let x := s.port p
  let phase := if x.train ≤ 3 then 0 else if x.train = 4 then 1 else 2
  let word := fun n =>
    controlWord n phase (b2n (s.pst p == PS.retrain)) last (req n) (x.coefStatus.getD n 0) (s.pf p Reg.failedLocal)
  s.emit (.lanes p ((s.trainingLanes p).map fun n => (n, trainingFrame n (word n))))

/-- Training begins again at step 1 of Table 10.4; sequence state stays (R349). A retrain keeps the taps (R330). The first training frames
go out. -/
def State.restartTraining (s : State) (p st : Nat) : State :=
  -- A full training begins with every lane usable until it is found otherwise (R329).
  let s := if st = PS.retrain then s else (s.setPf p Reg.failedLocal 0).setPf p Reg.failedRemote 0
  let s := s.modPort p fun x =>
    { x with train := 1, lanes := List.replicate 16 (0, 0), phaseIn := 0, readyIn := List.replicate 16 0, lastIn := false
             readyOut := 0, lastOut := false, coefIn := List.replicate 16 0, coefDone := List.replicate 16 0
             coefStatus := List.replicate 16 0, taps := if st = PS.retrain then x.taps else List.replicate 48 0, fecGood := 0, stream := []
             fecCount := 0, flitCount := 0, badCw := [], initRx := false, initSeenTx := false, initSeenRx := false }
  (s.portEnter p st).sendTraining p 0 fun _ => 0

/-- Enter RETRAIN from INIT to QUARANTINE; the INIT that follows carries RESUME, out of a first INIT too (R348, R349, Table 10.20). -/
def State.enterRetrain (s : State) (p : Nat) : State :=
  if linked (s.pst p) then ((s.addPf p Reg.retrains 1).modPort p fun x => { x with live := true }).restartTraining p PS.retrain else s

/-- Start a full training (R348, R349, R401). -/
def State.fullTrain (s : State) (p : Nat) : State :=
  if PS.detect ≤ s.pst p ∧ s.pst p ≤ PS.retrain then s.restartTraining p PS.train else s

/-- A full training failed: the third in a row, or no usable half, takes the port DOWN (R329, R348, Table 10.20), or back to
DETECT while the neighbour is FAILED (R447). -/
def State.trainFailed (s : State) (p : Nat) (cause : Nat) : State :=
  let n := (s.port p).failed + 1
  if s.pf p Reg.portNeighbour = 3 ∧ (3 ≤ n ∨ cause = 4) then
    (s.modPort p fun x => { x with failed := 0 }).restartTraining p PS.detect
  else if 3 ≤ n ∨ cause = 4 then
    let mask := s.pf p Reg.failedLocal ||| s.pf p Reg.failedRemote
    ((s.modPort p fun x => { x with failed := 0 }).portStop p PS.down cause).event Ev.portDown (UId.port p) [cause, mask]
  else (s.modPort p fun x => { x with failed := n }).restartTraining p PS.train

/-! ### Link-up checks (Table 10.14) -/

/-- QUARANTINE with its cause, and one event on entry (R363). -/
def State.quarantine (s : State) (p cause : Nat) : State :=
  let h := s.pf p Reg.peerSerial
  let again := s.pst p == PS.quarantine
  let s := (s.portEnter p PS.quarantine).setPf p Reg.portQuarCause cause
  if again then s
  else s.event Ev.quarantine (UId.port p) [cause, s.pf p Reg.peerCoord, h % 2 ^ 32, h / 2 ^ 32]

/-- Apply Table 10.14 to the last HELLO received; the first row that matches decides. -/
def State.helloDecide (s : State) (p : Nat) : State :=
  let ver := s.rd (Reg.peerVersion + 0x10000 * p)
  let role := s.pf p Reg.peerRole
  let mine := s.fld Reg.fovRole
  let s := s.modPort p fun x => { x with testOpen := role == 2 || mine == 2 }
  if bits 31 24 ver ≠ 1 then s.quarantine p 1
  else if role = 2 ∨ mine = 2 then s.portEnter p PS.boundary
  else if role = 1 ∨ mine = 1 then s.portEnter p PS.standby
  else if s.pf p Reg.portNeighbour = 3 ∧ (s.port p).hash = some (s.pf p Reg.peerSerial) then s.quarantine p 4
  else if s.expected p ≠ some (s.pf p Reg.peerCoord) ∨ bits 14 12 ver ≠ portOpposite p then s.quarantine p 2
  else if s.pf p Reg.peerCast ≠ s.ownCast ∨ s.ownCast = 0 then s.portEnter p PS.boundary
  else if bits 7 0 ver ≠ 1 then s.quarantine p 3
  else
    let again := s.pst p == PS.up
    let s := (s.portEnter p PS.up).setPf p Reg.portMinor (min (bits 23 16 ver) 0)
    if !again ∧ (s.pf p Reg.peerFw ≠ s.rd Reg.fwBuild ∨ bits 11 8 ver ≠ 2) then
      s.event Ev.peerDiffers (UId.port p) [s.pf p Reg.peerFw, bits 11 8 ver]
    else s

/-- A new HELLO on every port, when a field of it changes (R362). A port past the exchange also applies the checks again to the
last HELLO it received, with its own fields as they are now: only so is a cast FORMED by the last member's write (R376; DEDUCED,
log entry 57). -/
def State.helloAll (s : State) : State :=
  (List.range 6).foldl (fun s p =>
    let st := s.pst p
    if st = PS.hello then s.sendHello p
    else if PS.up ≤ st ∧ st ≤ PS.quarantine then (s.sendHello p).helloDecide p
    else s) s

/-! ### Transmission (R340 to R346) -/

/-- The weight of a VC in the round robin (R346). -/
def State.vcWeight (s : State) (p vc : Nat) : Nat :=
  let w := s.rd (Reg.arbWeights + 0x10000 * p)
  match vc with
  | 0 => bits 3 0 w
  | 1 => bits 7 4 w
  | 2 => bits 11 8 w
  | _ => bits 15 12 w

/-- A waiting payload is a HELLO. -/
def helloPiece (e : Nat × Bool × Bool × Option Nat × List Byte) : Bool := fieldLE e.2.2.2.2 2 1 == opHello

/-- A payload waits on a VC and may go in a port state: in HELLO and QUARANTINE only a HELLO (Table 10.19). -/
def onVc (st vc : Nat) (e : Nat × Bool × Bool × Option Nat × List Byte) : Bool := e.1 == vc && (!helloOnly st || helloPiece e)

/-- The first payload waiting on a VC. -/
def Port.nextOn (x : Port) (st vc : Nat) : Option (Nat × Bool × Bool × Option Nat × List Byte) := x.outbox.find? (onVc st vc)

/-- A new DATA flit of a VC may be sent: payload waiting, credit held, VC carried, replay buffer not full (R340, R344). -/
def Port.ready (x : Port) (st vc : Nat) : Bool :=
  (x.nextOn st vc).isSome && decide (0 < x.credits.getD vc 0) && vcCarried st x.testOpen vc && decide (x.replay.length < 4096)

/-- The VC that R346 chooses, and the round robin's new turn. -/
def State.pickVc (s : State) (p : Nat) : Option (Nat × Nat × Nat) :=
  let x := s.port p
  let st := s.pst p
  if x.ready st 4 then some (4, x.arbVc, x.arbLeft)
  else if x.ready st 3 then some (3, x.arbVc, x.arbLeft)
  else if 0 < x.arbLeft ∧ x.ready st x.arbVc then some (x.arbVc, x.arbVc, x.arbLeft - 1)
  else
    let ring := [0, 1, 2, 5]
    let after := (ring.filter fun v => decide (x.arbVc < v)) ++ ring.filter fun v => decide (v ≤ x.arbVc)
    match after.find? fun v => x.ready st v with
    | some v => some (v, v, s.vcWeight p v - 1)
    | none => none

/-- Remove the first payload of a VC that may go. -/
def dropFirst (st vc : Nat) : List (Nat × Bool × Bool × Option Nat × List Byte) → List (Nat × Bool × Bool × Option Nat × List Byte)
  | [] => []
  | e :: es => if onVc st vc e then es else e :: dropFirst st vc es

/-- The transmitter's choice at a flit boundary (R346): replay, VC 4, VC 3, a weighted VC, or IDLE. INIT carries no DATA flit
(Table 10.19), and FEC frames that follow LAST before the partner's lock carry IDLE flits (Table 10.4, step 5). -/
def State.transmit (s : State) (p : Nat) : State :=
  let x := s.port p
  if !linked (s.pst p) ∧ !x.lastOut then s
  else if !linked (s.pst p) ∨ s.pst p = PS.init then s.sendFlit p 0 x.txSeq 0 []
  else
    let again := match x.resend with
      | some q => (x.replay.find? fun e => e.1 == q)
      | none => none
    match again with
    | some (q, flit) =>
      let s := s.setPort p { x with resend := some ((q + 1) % 65536) }
      (s.addPf p Reg.flitsTx 1).sendFlit p 1 q (fieldLE flit 0 1) (flit.drop 1)
    | none =>
      let s := s.setPort p { x with resend := none }
      match s.pickVc p with
      | some (vc, av, al) =>
        match x.nextOn (s.pst p) vc with
        | some (_, som, eom, src, payload) =>
          let low := 8 * vc + 2 * b2n som + b2n eom
          let s := match src with
            | some q => s.freeSlots q vc 1
            | none => s
          let s := s.modPort p fun x =>
            { x with outbox := dropFirst (s.pst p) vc x.outbox, arbVc := av, arbLeft := al, txSeq := (x.txSeq + 1) % 65536
                     credits := x.credits.set vc (x.credits.getD vc 0 - 1)
                     replay := x.replay ++ [(x.txSeq, leBytes 1 low ++ payload)] }
          (s.addPf p Reg.flitsTx 1).sendFlit p 1 x.txSeq low payload
        | none => s
      | none => s.sendFlit p 0 x.txSeq 0 []

/-- Is a replay-buffer flit a HELLO (R362)? -/
def isHelloFlit (f : List Byte) : Bool := fieldLE f 0 1 / 8 == 4 && fieldLE f 3 1 == opHello

/-- A replay begins at SEQ q (R343): counted; the eighth without progress enters RETRAIN. -/
def State.replayFrom (s : State) (p q : Nat) : State :=
  let x := s.port p
  let s := (s.setPort p { x with resend := some q, replays := x.replays + 1 }).addPf p Reg.replays 1
  if 8 ≤ x.replays + 1 then s.enterRetrain p else s

/-- The ACK, NAK and credit fields of every good flit (R342, R343, R345). -/
def State.flitFields (s : State) (p : Nat) (bs : List Byte) : State :=
  let x := s.port p
  let ack := fieldLE bs 4 2
  let gone := x.replay.filter fun e => e.1 == ack || serialAfter 16 ack e.1
  let keep := x.replay.filter fun e => !(e.1 == ack || serialAfter 16 ack e.1)
  let v := bits 7 5 (fieldLE bs 7 1)
  let total := bits 4 0 (fieldLE bs 7 1)
  let credits := if v < 6 then x.credits.set v (x.credits.getD v 0 + (total + 32 - x.crRx.getD v 0) % 32) else x.credits
  let acked := x.helloAcked || gone.any fun e => isHelloFlit e.2
  let s := s.setPort p { x with replay := keep, replays := (if gone.isEmpty then x.replays else 0), credits
                                crRx := (if v < 6 then x.crRx.set v total else x.crRx), helloAcked := acked }
  let s := if acked ∧ (s.port p).helloIn ∧ s.pst p = PS.hello then s.helloDecide p else s
  if bitAt 2 (fieldLE bs 6 1) ∧ !keep.isEmpty then s.replayFrom p ((ack + 1) % 65536) else s

/-- Ask for a replay in the next flit, once until progress or until 10 local µs have passed (R342). -/
def State.askReplay (s : State) (p : Nat) (late : Bool) : State :=
  s.modPort p fun x => if x.nakArmed || late then { x with nakSend := true, nakArmed := false } else x

/-! ### Receiving messages (R351, R354) -/

/-- Count a rejected transaction, name the first, and record at most one event a port a step (R354, R357). -/
def State.rejectTxn (s : State) (p status tag : Nat) : State :=
  let again := (s.port p).rejectedStep
  let s := ((s.countError p status tag 1).modPort p fun x => { x with rejectedStep := true }).addPf p Reg.txnRejected 1
  let x := s.port p
  if again then s.suppress Ev.txnRejected (UId.port p)
  else s.event Ev.txnRejected (UId.port p) [x.firstStatus, x.firstTag]

/-- Reserved bits of a header (R15, Table 10.9, Table 10.10). -/
def txnReserved (bs : List Byte) : Bool :=
  let t := txnOf bs
  let badCoord := fun c => c != noCoord && (bits 23 22 c != 0 || bits 15 14 c != 0 || bits 7 6 c != 0)
  bits 6 5 (fieldLE bs 3 1) != 0 || bits 3 0 (fieldLE bs 3 1) != 0 || bits 7 6 (fieldLE bs 19 1) != 0
    || fieldLE bs 44 4 != 0 || badCoord t.dst || badCoord t.src || (!t.resp && t.status != 0)
    || (t.opcode == opSend && t.arg / 2 ^ 24 != 0) || (opPulse ≤ t.opcode && t.arg != 0)
    || (t.opcode != opAtomic && (t.a64 || t.exp != 0)) || (t.opcode != opAtomic || !t.a64) &&
      (t.retries != 0 || t.aflags != 0 || t.offset != 0 || t.lost != 0)

/-- A device forwards routed transactions to other members on VCs 2 and 5 (R379, R380). -/
def State.forwards (s : State) (vc dst : Nat) : Bool := (vc == 2 || vc == 5) && s.isMember dst && dst != s.coord

/-- The receiver's checks (R354, R363, R380, R381); 0 where all hold. A version 1 header is 6 words long. On a link that came back with
its state kept, flits of any VC are replayed in HELLO, and none is lost (R349). -/
def State.txnCheck (s : State) (p vc : Nat) (bs : List Byte) (flits : Nat) : Nat :=
  let t := txnOf bs
  let fwd := t.dst != noCoord && s.forwards vc t.dst
  let carried := if (s.port p).resumed ∧ s.pst p = PS.hello then true
    else vcCarried (s.pst p) (s.port p).testOpen vc && (!helloOnly (s.pst p) || t.opcode == opHello)
  if 1 < fieldLE bs 0 1 ∨ fieldLE bs 1 1 ≠ 6 then tsMalformed
  else if !fwd ∧ (t.opcode = 0 ∨ opFence < t.opcode) then tsUnsupported
  else if !fwd ∧ !vcAllowed t.opcode vc ∨ !carried then tsMalformed
  else if (fwd ∨ (t.opcode ≠ opPulse ∧ t.opcode ≠ opHello)) ∧ (t.cast ≠ s.ownCast ∨ s.fld Reg.castState = 0) then tsCast
  else if t.dst ≠ s.coord ∧ t.dst ≠ noCoord ∧ !fwd then tsCast
  else if !fwd ∧ (2 ^ 24 < t.bytes ∨ flits ≠ ceilDiv (48 + t.bodyLen) 240) then tsMalformed
  else if !fwd ∧ (txnReserved bs || (t.resp && t.opcode != opGet && t.opcode != opFence)) then tsMalformed
  else if !fwd ∧ t.opcode = opNotice ∧ (t.bytes < 32 ∨ fieldLE bs 50 1 = 0 ∨ nkFailed < fieldLE bs 50 1) then tsUnsupported
  else 0

/-- A transaction is epoch-bound (R358). -/
def Txn.bound (t : Txn) (vc : Nat) : Bool := !t.resp && (t.opcode == opStep || (vc == 0 && opSend ≤ t.opcode && t.opcode ≤ opGet))

/-- The RECV operation that takes a SEND for micro-batch mb of a channel in an epoch. -/
def State.recvOp (s : State) (channel mb epoch : Nat) : Option (Nat × OpSlot) :=
  (s.ops.find? fun e =>
    e.2.cue.opcode == cCollective && e.2.cue.op 36 3 == channel && e.2.cue.mb == mb && e.2.started && decide (0 < e.2.left)
      && (e.2.cue.torusEpoch s == epoch)).map fun e => (e.1, e.2)

/-- A running collective awaits the transfer of a COLLECTIVE_STEP next on a port. -/
def State.awaited (s : State) (p : Nat) (t : Txn) : Bool :=
  s.colls.any fun e => e.2.index == t.arg % 2 ^ 24 && e.2.epoch == t.epoch && e.2.tracks.any fun k => match k with
    | h :: _ => !h.send && h.port == p && h.round == bits 39 24 t.arg
    | [] => false

/-- Transport consumes the flits of a message as they come (R344): its epoch is open, and what takes its data is there. Forwarded flits
keep their slots for the output port, but for a message that its channel's buffer cannot hold. -/
def State.flows (s : State) (p vc : Nat) (bs : List Byte) : Bool :=
  let t := txnOf bs
  if bs.length < 48 then false
  else if t.dst != noCoord && s.forwards vc t.dst then decide ([1024, 1024, 512, 128, 16, 64].getD vc 0 < ceilDiv (48 + t.bodyLen) 240)
  else if t.bound vc && s.epochRule t.epoch == 1 then false
  else if t.resp || s.epochRule t.epoch == 2 then true
  else if t.opcode = opSend then (s.recvOp (t.arg % 2 ^ 24) (fieldLE bs 50 1) (if vc = 0 then t.epoch else s.openEpoch)).isSome
  else if t.opcode = opStep then s.awaited p t
  else true

/-- Slots of partly received messages whose flits flow are freed. -/
def State.flowPart (s : State) (p : Nat) : State :=
  (List.range 6).foldl (fun s vc =>
    let (got, n, kept) := (s.port p).partly.getD vc ([], 0, 0)
    if 0 < kept ∧ s.flows p vc got then
      (s.modPort p fun x => { x with partly := x.partly.set vc (got, n, 0) }).freeSlots p vc kept
    else s) s

/-- An assembled message of so many flits, of which `kept` hold their slots: into the inbox, or discarded and counted (R354). -/
def State.msgArrived (s : State) (p vc : Nat) (bs : List Byte) (flits kept : Nat) : State :=
  match s.txnCheck p vc bs flits with
  | 0 => s.modPort p fun x => { x with inbox := x.inbox ++ [{ vc, bytes := bs, flits := kept, apart := false }] }
  | e => (s.freeSlots p vc kept).rejectTxn p e (txnOf bs).tag

/-- Add an accepted DATA flit to its VC's message (R351). -/
def State.assemble (s : State) (p : Nat) (bs : List Byte) : State :=
  let b := fieldLE bs 6 1
  let vc := bits 5 3 b
  let payload := (bs.drop 8).take 240
  if 6 ≤ vc then s.rejectTxn p tsMalformed 0
  else
    let (got, n, kept) := (s.port p).partly.getD vc ([], 0, 0)
    let (got, n, kept) := if bitAt 1 b then (payload, 1, 1) else (got ++ payload, n + 1, kept + 1)
    if bitAt 0 b then
      (s.modPort p fun x => { x with partly := x.partly.set vc ([], 0, 0) }).msgArrived p vc got n kept
    else (s.modPort p fun x => { x with partly := x.partly.set vc (got, n, kept) }).flowPart p

/-- The flit at position k of the link stream touches an uncorrectable codeword (R333, R335). -/
def Port.spoiled (x : Port) (k : Nat) : Bool :=
  x.badCw.any fun (f, c) =>
    (List.range 256).any fun i =>
      let b := 256 * k + i
      decide (b / 2570 = f) && ((8 * (b % 2570) / 10) % 4 == c || ((8 * (b % 2570) + 7) / 10) % 4 == c)

/-- Every received flit: counted in the stream, checked, its fields taken; `data` goes on with a good flit of the kind
wanted. A bad flit is discarded whole and asks for a replay (R335, R338, R342). -/
def State.receive (s : State) (p kind : Nat) (bs : List Byte) (late : Bool) (go : State → State) : State :=
  if !linked (s.pst p) then s
  else
    let x := s.port p
    let s := s.setPort p { x with flitCount := x.flitCount + 1 }
    if x.spoiled x.flitCount || !flitGood bs then (s.addPf p Reg.crcFails 1).askReplay p late
    else if flitKind bs ≠ kind then s
    else go (s.flitFields p bs)

/-- A DATA flit by its SEQ (R341). -/
def State.acceptData (s : State) (p : Nat) (bs : List Byte) (late : Bool) : State :=
  let x := s.port p
  let seq := fieldLE bs 2 2
  if seq = x.rxSeq then
    ((s.setPort p { x with rxSeq := (x.rxSeq + 1) % 65536, nakArmed := true }).addPf p Reg.flitsRx 1).assemble p bs
  else if serialAfter 16 seq x.rxSeq then s.askReplay p late
  else s

/-! ### Link initialisation (R347, R349) -/

/-- Receiver buffers of Table 10.7. -/
def vcBuffer (vc : Nat) : Nat := [1024, 1024, 512, 128, 16, 64].getD vc 0

/-- Slots of a VC that hold flits. -/
def Port.held (x : Port) (vc : Nat) : Nat :=
  (x.partly.getD vc ([], 0, 0)).2.2 + (x.inbox.filter (·.vc == vc)).foldl (fun n m => n + m.flits) 0

/-- Slots of a port that forwarded flits hold until their output port sends them (R380). -/
def State.heldOut (s : State) (p vc : Nat) : Nat :=
  ((List.range 6).map fun q => (s.port q).outbox.countP fun e => e.1 == vc && e.2.2.2.1 == some p).foldl (· + ·) 0

/-- The INIT payload (Table 10.8); `out` slots of each VC are held by forwarded flits. -/
def Port.initPayload (x : Port) (out : Nat → Nat) : List Byte :=
  leBytes 1 1 ++ leBytes 1 4 ++ leBytes 1 (2 * b2n x.live + b2n x.initRx) ++ leBytes 1 0
    ++ leBytes 2 (if x.live then x.rxSeq else 0) ++ leBytes 2 4096
    ++ ((List.range 6).flatMap fun v => leBytes 2 (vcBuffer v - x.held v - out v)) ++ leBytes 12 0

/-- Start fresh: sequence numbers at 0, nothing kept (R347, R349). -/
def State.freshLink (s : State) (p : Nat) : State :=
  let x := s.port p
  let s := s.failOutstanding p St.linkDown
  (if x.live then s.dropOutbox p else s).modPort p fun y =>
    { y with txSeq := 0, rxSeq := 0, replay := [], resend := none, replays := 0, partly := List.replicate 6 ([], 0, 0), inbox := [] }

/-- Link initialisation completes once an INIT with SEEN has been sent and one received (R347): credits, totals and
sequence state, then HELLO. -/
def State.initDone (s : State) (p : Nat) : State :=
  let x := s.port p
  if x.initSeenTx && x.initSeenRx && s.pst p == PS.init then
    let next := x.initIn.getD 1 0
    let resume := x.live && x.initIn.getD 0 0 == 1
    let keep := x.replay.filter fun e => e.1 == next || serialAfter 16 e.1 next
    let inside := next == x.txSeq || x.replay.any fun e => e.1 == next
    let s := if resume && inside then
        s.modPort p fun x => { x with replay := keep, resend := (keep.head?).map (·.1), replays := 0 }
      else s.freshLink p
    let s := s.modPort p fun y =>
      { y with credits := (List.range 6).map fun v => x.initIn.getD (3 + v) 0, crRx := List.replicate 6 0
               crTx := List.replicate 6 0, freed := List.replicate 6 0, nakSend := false, nakArmed := true, live := true, resumed := resume && inside
               helloAcked := false, helloIn := false }
    s.portEnter p PS.hello
  else s

end Sys2Proof.Machine
end

