-- ==== Sys2Proof/Machine/Tensors.lean ====
section
/-!
DEFINITION. Writing tensors: the quantised write with its planes, record, fall-back copy and watch counts (R74 to R82,
R158, R183, R575), wide writes, and the tensor-level exponents of a step (R95 to R98).
-/
namespace Sys2Proof.Machine

open Sys2Proof

/-- Nothing written. -/
def WStats.zero : WStats := ⟨0, 0, 0, 0, 0, 0, 0, 0, 0, 0⟩

/-- One more block. -/
def WStats.add (w : WStats) (b : QBlock) : WStats :=
  { w with
    clip := w.clip + b2n (b.tag.testBit 0), flush := w.flush + b.flushed, granted := w.granted + b2n (b.tag.testBit 2)
    excess := w.excess + b2n b.excess, nv := w.nv + b2n (b.scale == .nv), blocks := w.blocks + 1
    zeros := w.zeros + b2n (b.scale == .zero)
    scaleMax := max w.scaleMax (match b.scale with | .num c _ => c | _ => 0)
    escAmax := if b.tag.testBit 2 then max w.escAmax (w16Up (.fin false b.escaped)) else w.escAmax }

/-- A block as it is written: its number in the tensor, outer index, block index and what the quantiser made of it. -/
structure Placed where
  no : Nat
  r : Nat
  b : Nat
  q : QBlock
  deriving DecidableEq, Repr

/-- Positions of a placed block for which an SR conversion drew ten bits: every element of a scaled block but the escaped one (R57,
R79); W16 is never written by SR. -/
def Placed.drawn (x : Placed) (f : EFmt) (mode : RMode) (len : Nat) : List (Nat × Nat) :=
  match x.q.scale with
  | .num _ _ =>
    if mode = .sr ∧ f ≠ .w16 then
      ((List.range 32).filter fun i => !(x.q.tag.testBit 2 && x.q.entry >>> 19 == i) && decide (32 * x.b + i < len)).map
        fun i => (x.r, 32 * x.b + i)
    else []
  | _ => []

/-- The band block of an outer index and a block index (R81). -/
def bandKey (r b : Nat) : Nat := r / 256 * 2 ^ 32 + b

/-- How a write is stored and where its random bits come from. -/
structure WMode where
  st : Stored
  mode : RMode
  ratio : Rat
  pre : Int
  signs : Nat → Nat → Bool
  r10 : Nat → Nat → Nat
  /-- The tensor scale's exponent in replay (R200). -/
  fixed : Option Int
  /-- Escapes granted by the earlier writes of the same attempt or cue: band block and outer index (R81). -/
  prior : List (Nat × Nat)

/-- Rotate, pre-scale and cut a span into blocks: (block number, outer index, block index, first position, values). -/
def spanBlocks (t : Tensor) (w : WMode) (sp : Span) : List (Nat × Nat × Nat × Nat × List Val) :=
  let n := w.st.rotN
  let seg := if n = 0 then 32 else n
  let nseg := ceilDiv sp.vals.length seg
  let vals := (List.range nseg).flatMap fun i =>
    let raw := (List.range seg).map fun j => sp.vals.getD (seg * i + j) (.fin false 0)
    let rot := if n = 0 then raw else rotateVals n (w.signs (sp.k / seg + i)) raw
    rot.map (Val.scale w.pre)
  let per := t.blocksPer n
  (List.range (nseg * seg / 32)).map fun i =>
    let b := sp.k / 32 + i
    (sp.r * per + b, sp.r, b, 32 * b, (vals.drop (32 * i)).take 32)

/-- Quantise spans in ascending outer index, W16 blocks always by RNE (R52): at most 8 candidates of a band block are granted, those
of rows written earlier in the same attempt or cue included: an earlier part's escapes stand, as its blocks are in memory (R81; log
entry 68). -/
def quantSpans (t : Tensor) (w : WMode) (spans : List Span) : List Placed × WStats :=
  let blocks := spans.flatMap (spanBlocks t w)
  let ratio := if w.st.outliers then some w.ratio else none
  let old := w.prior.filter fun g => !spans.any fun sp => sp.r == g.2
  let go := blocks.foldl (fun (acc : List Placed × WStats × SMap Nat) (b : Nat × Nat × Nat × Nat × List Val) =>
    let (no, r, bi, k0, vs) := b
    let key := bandKey r bi
    let used := SMap.get 0 acc.2.2 key + old.countP fun g => g.1 == key
    let q := match w.fixed with
      | some e => quantiseFixed w.st.fmt e vs
      | none => quantiseBlock w.st.fmt w.st.sf16 (if w.st.fmt = .w16 then .rne else w.mode) ratio (decide (used < 8)) (fun i => w.r10 r (k0 + i)) vs
    (acc.1 ++ [⟨no, r, bi, q⟩], acc.2.1.add q,
      if q.tag.testBit 2 then SMap.put acc.2.2 key (SMap.get 0 acc.2.2 key + 1) else acc.2.2))
    ([], WStats.zero, [])
  let amax := (spans.flatMap (·.vals)).foldl (fun m v => max m (w16Up v)) 0
  (go.1, { go.2.1 with amax := amax })

/-- Writes of one quantised block as block `no` of planes; `wide` sets WIDE in its tag (R183). -/
def blockWrite (planes : Nat × Nat × Nat) (st : Stored) (wide : Bool) (no : Nat) (q : QBlock) : List (Nat × List Byte) :=
  let tag := q.tag + (if wide then tagWide else 0)
  [ (planes.1 + no * st.fmt.blockBytes, packCodes st.fmt q.codes),
    (planes.2.1 + no * scaleBytes st.sf16, leBytes (scaleBytes st.sf16) (encodeScale st.sf16 q.scale)),
    if st.outliers then (planes.2.2 + no * 4, leBytes 4 (tag * 2 ^ 24 + q.entry)) else (planes.2.2 + no, leBytes 1 tag) ]

/-- Plane writes of a tensor's quantised blocks. -/
def blockWrites (t : Tensor) (st : Stored) (wide : Bool) (bs : List Placed) : List (Nat × List Byte) :=
  bs.flatMap fun b => blockWrite (t.planes st.fmt st.sf16 st.rotN) st wide b.no b.q

/-- The element format at a rung of the ladder (Table 5.1). -/
def rungFmt (f : EFmt) (gradient : Bool) (rung : Nat) : EFmt :=
  match rung with
  | 0 => f
  | 1 => if f.fourBit then (if gradient then .m8 else .n8) else .w16
  | _ => .w16

/-- The last rung of a recipe format (Table 5.1). -/
def lastRung (f : EFmt) : Nat := if f.fourBit then 2 else if f = .w16 then 0 else 1

/-- A tensor's rung now (R182). -/
def Job.rung (j : Job) (i : Nat) : Nat :=
  match eFmtOf (j.recipeAt i).fmt with
  | some f => min (SMap.get 0 j.rungs i) (lastRung f)
  | none => 0

/-- A tensor's rung after the raise that a trigger asks for (R187). -/
def Job.raisedRung (j : Job) (i : Nat) : Job := { j with rungs := SMap.put j.rungs i (j.rung i + 1) }

/-- A job as an operation sees it: the rungs in force when its cue issued (R188), and for a cue run ahead the exponents chosen for its
own step (R95). -/
def Job.viewOf (j : Job) (o : OpSlot) : Job :=
  { j with rungs := o.rungs, exps := if o.cue.ahead then j.expsAhead.getD j.exps else j.exps }

/-- How a tensor is stored under its recipe (R158). -/
def Job.storedAs (j : Job) (i : Nat) : Stored :=
  let r := j.recipeAt i
  { fmt := (eFmtOf r.fmt).getD .n4, sf16 := r.sf16, rotN := rotLen r.rot, outliers := r.esc }

/-- A tensor is written at W16 now: by its recipe, or raised there (R181). -/
def Job.atW16 (j : Job) (t : Tensor) : Bool := rungFmt (j.storedAs t.idx).fmt t.isGradient (j.rung t.idx) == .w16

/-- The tensor's fall-back copy as it is stored: no outlier plane (R69, R183). -/
def fallbackStored (st : Stored) (f : EFmt) : Stored :=
  { fmt := f, sf16 := st.sf16 && f != .w16, rotN := st.rotN, outliers := false }

/-- The stream key of a step: K_F of the device's coordinate for free-running draws, K_A otherwise (R208). -/
def State.key (s : State) (j : Job) (step : Nat) (free : Bool) : List Nat :=
  let c := s.fld Reg.fabCoord
  if free then keyF j.seed (keyEpoch step) (bits 23 16 c) (bits 15 8 c) (bits 7 0 c) else keyA j.seed (keyEpoch step)

/-- The block of an element draw (R214, R217): addressed, or free-running on an engine's lane. -/
def elemBits (key : List Nat) (step tensor mb p draw : Nat) (free : Option (Nat × Nat × Nat)) : Nat :=
  match free with
  | some (eng, lane, ctr) => drawBits key (freeBlock streamElem eng lane ctr (step % 2 ^ 24) draw)
  | none => drawBits key (addrBlock streamElem tensor (elemPos mb p) (step % 2 ^ 24) draw)

/-- A lane counter (R218). -/
def State.lane (s : State) (eng lane : Nat) : Nat := SMap.get 0 s.rng.lanes (eng * 256 + lane)

/-- Advance lane counters (R218). -/
def State.bumpLane (s : State) (eng lane n : Nat) : State :=
  let i := eng * 256 + lane
  ({ s with rng := { s.rng with lanes := SMap.set 0 s.rng.lanes i ((s.lane eng lane + n) % 2 ^ 48) } } : State).markItem 7 (8 * i) 8

/-- The record of one write by itself (Table 2.5). -/
def recordOwn (st : Stored) (rec : Recipe) (sr : Bool) (pre : Int) (rotKey step fbRef : Nat) (raised : Bool) (w : WStats) : QRec :=
  { fmt := st.fmt.code, sf16 := st.sf16, sr, rotStep := rec.rotStep, rot := rec.rot, fbCopy := raised, outliers := st.outliers
    scaleMax := w.scaleMax, escAmax := w.escAmax, pre, rotKey, step, fbRef := if raised then fbRef else 0 }

/-- The record in memory after a write (R575): the first write of its attempt or cue replaces SCALE_MAX, ESC_AMAX and SR, later ones
widen them. -/
def QRec.merge (old own : QRec) (first : Bool) : QRec :=
  if first then own
  else
    { own with
      sr := own.sr || old.sr, fbCopy := own.fbCopy || old.fbCopy, scaleMax := max old.scaleMax own.scaleMax
      escAmax := max old.escAmax own.escAmax, fbRef := if own.fbCopy then own.fbRef else if old.fbCopy then old.fbRef else 0 }

/-- The scopes of R575 besides the attempts, which go by their epoch: the cues run ahead for the attempt that opens next, the
rebuild of matinee copies, and each cue outside any attempt. -/
def scopeAhead : Nat := 2 ^ 32
def scopeRebuild : Nat := 2 ^ 32 + 1
def CueRec.scope (c : CueRec) : Nat :=
  if c.ahead then scopeAhead
  else match c.epoch with
    | some e => if e = 0xFFFFFFFF then 2 ^ 33 + c.id else e
    | none => 2 ^ 33 + c.id

/-- The writes of records as their tensors stand now: tensor, address and own bytes each (R575). -/
def State.mergedRecs (s : State) (j : Job) (scope : Nat) (recs : List (Nat × Nat × List Byte)) : List (Nat × List Byte) :=
  recs.map fun (i, a, bs) =>
    (a, ((qrecOf (s.bytes (s.storeAddr a) 32)).merge (qrecOf bs) (!j.recWritten.contains (scope, i))).bytes)

/-- Store a quantised write with its records. A quantiser reads the record that it finds (ROT_KEY, the merged fields), so one of a later
version is rejected (R13): status and state. -/
def State.writeQuant (s : State) (rq : Requester) (j : Job) (scope : Nat) (writes : List (Nat × List Byte))
    (recs : List (Nat × Nat × List Byte)) : Nat × State :=
  match (recs.map fun r => formStatus (s.bytes (s.storeAddr r.2.1) 32)).find? (· != 0) with
  | some e => (e, s)
  | none => s.devWrites rq (writes ++ s.mergedRecs j scope recs)

/-- The history records that a job keeps itself, in layout order: those its tensors name where its package has no HISTORY section (R99). -/
def Job.ownHists (j : Job) : List Nat :=
  if j.hist.isEmpty then (((j.layout.zipIdx.drop 1).map fun e => (tensorOf e.2 e.1).history).filter (· != 0xFFFFFFFF)).eraseDups else []

/-- The history record of an index: in memory, or the job's own where its package brings none (R99). -/
def State.histBytes (s : State) (j : Job) (h : Nat) : List Byte :=
  if h < j.hist.length then s.bytes (s.storeAddr (j.histBase + 40 * h)) 40 else SMap.get Hist.empty.bytes j.ownHist h

/-- The pre-scale of a write (R97, R98, Table 2.7): chosen for the step; by bound, from the source's Et if it is A64. -/
def Job.preOf (j : Job) (i : Nat) (et : Option Int) : Int :=
  let r := j.recipeAt i
  let e := j.exps[i]?
  match r.prescale with
  | 1 => (match e with
    | some x => if x.bmode then (match et with | some e => bPre e | none => 0) else x.pre
    | none => 0)
  | 2 => (match et with | some e => bPre e | none => 0)
  | _ => 0

/-- The key epoch of a record's signs. -/
def rotEpochOf (rot : Nat) (byStep : Bool) (step : Nat) : Option Nat := if rot ≠ 0 ∧ byStep then some (keyEpoch step) else none

/-- Largest magnitude among values, non-finite ones left out (R200). -/
def topOf (vs : List Val) : Rat := vs.foldl (fun (m : Rat) v => max m (rabs ((v.rat?).getD 0))) 0

/-- The exponent of a replay tensor's scale (R200): from its history, or from `top`, the amax of the current source. R200 gives no
exponent for an amax of 0; the least scale 2^−126 stands (DESIGN CHOICE, log entry 115). -/
def State.tensorScale (s : State) (j : Job) (t : Tensor) (top : Rat) : Option Int :=
  let st := j.storedAs t.idx
  if j.replay ∧ (st.fmt = .n8 ∨ st.fmt = .m8) then
    let a := ((histOf (s.histBytes j t.history)).usable).getD top
    if a = 0 then some (-126) else some (ceilLog2 (a / (if st.fmt = .n8 then 480 else 114688)))
  else none

/-- Quantise spans for tensor t of a job (R158): narrow planes, and at a raised rung the fall-back copy as well (R183). -/
def State.quantise (s : State) (j : Job) (t : Tensor) (mode : RMode) (step : Nat) (pre : Int) (scope : Nat) (top : Rat)
    (r10 : Nat → Nat → Nat) (spans : List Span) : QuantOut :=
  let rec' := j.recipeAt t.idx
  let st := j.storedAs t.idx
  let old := qrecOf (s.bytes (s.storeAddr t.record) 32)
  let signs := fun seg => rotSigns j.seed old.rotKey step rec'.rotStep seg
  let prior := (j.granted.filter fun g => g.1 == scope && g.2.1 == t.idx).map fun g => g.2.2
  let w : WMode := { st, mode, ratio := pow2 rec'.escQ, pre, signs, r10, fixed := s.tensorScale j t top, prior }
  let (bs, stats) := quantSpans t w spans
  let rung := j.rung t.idx
  let copyOf := if rung = 0 then none else j.tensor t.fb
  let sr := fun (f : EFmt) => decide (mode = .sr) && f != .w16
  let len := if st.rotN = 0 then t.redLen else 32 * t.blocksPer st.rotN
  let segs := if st.rotN = 0 then 0 else ((spans.flatMap fun sp => (List.range (ceilDiv sp.vals.length st.rotN)).map (sp.k / st.rotN + ·)).eraseDups).length
  let out : QuantOut :=
    { writes := blockWrites t st copyOf.isSome bs, wide := []
      recs := [(t.idx, t.record, (recordOwn st rec' (sr st.fmt) pre old.rotKey step t.fb copyOf.isSome stats).bytes)]
      stats, copy := none, drawn := bs.flatMap fun b => b.drawn st.fmt mode len, segs
      rotEpoch := rotEpochOf rec'.rot rec'.rotStep step
      blocks := bs.map fun b => (bandKey b.r b.b, b.r)
      granted := (bs.filter fun b => b.q.tag.testBit 2).map fun b => (bandKey b.r b.b, b.r) }
  match copyOf with
  | some fb =>
    let fst' := fallbackStored st (rungFmt st.fmt t.isGradient rung)
    let (fbs, fstats) := quantSpans fb { w with st := fst', prior := [] } spans
    let fold := qrecOf (s.bytes (s.storeAddr fb.record) 32)
    -- Every element of a copy by SR draws; those that the narrow block's SR drew for too share the block.
    let drawn := fbs.flatMap fun b => b.drawn fst'.fmt mode len
    { out with
      wide := blockWrites fb fst' false fbs, copy := some (fb.idx, fstats), drawn := if drawn.isEmpty then out.drawn else drawn
      recs := out.recs ++ [(fb.idx, fb.record, (recordOwn fst' rec' (sr fst'.fmt) pre fold.rotKey step 0 false fstats).bytes)] }
  | none => out

/-- Every write of a quantised write's planes. -/
def QuantOut.planes (q : QuantOut) : List (Nat × List Byte) := q.writes ++ q.wide

/-- The tile was written above its recipe rung (R187). -/
def QuantOut.raised (q : QuantOut) : Bool := q.copy.isSome

/-- Note that a quantised write has been made (R81, R575): its records and its escapes, in their scope. A row written again has only the
grants of its last write. -/
def Job.noteRecs (j : Job) (scope : Nat) (t : Tensor) (q : QuantOut) : Job :=
  let new := (q.recs.map fun r => (scope, r.1)).filter fun r => !j.recWritten.contains r
  let kept := j.granted.filter fun x => !(x.1 == scope && x.2.1 == t.idx && q.blocks.contains x.2.2)
  { j with recWritten := new ++ j.recWritten, granted := q.granted.map (fun g => (scope, t.idx, g.1, g.2)) ++ kept }

/-- A scope begins anew: no record of it has been written. -/
def Job.newScope (j : Job) (scope : Nat) : Job :=
  { j with recWritten := j.recWritten.filter (fun r => r.1 != scope), granted := j.granted.filter fun g => g.1 != scope }

/-- Everything the cues run ahead have left in a job is discarded (R260, R575). -/
def Job.dropAhead (j : Job) : Job :=
  { j.newScope scopeAhead with aheadFwd := 0, amaxAhead := [], expsAhead := none, nfLossAhead := 0 }

/-- The block counts of R78 in a tensor's watch record. -/
def State.countBlocks (s : State) (j : Job) (i : Nat) (w : WStats) : State :=
  ((((s.addWatch j i 8 4 w.clip).addWatch j i 12 4 w.flush).addWatch j i 16 4 w.granted).addWatch j i 20 4 w.excess).addWatch j i 24 4 w.nv

/-- The blocks of a fall-back copy count in the watch record of the copy's own tensor (R69, R78; DEDUCED, log entry 116). -/
def State.countCopy (s : State) (j : Job) (q : QuantOut) : State :=
  match q.copy with
  | some c => s.countBlocks j c.1 c.2
  | none => s

/-- Note what a write of a tensor means: its records, the watch counters of every block written (R78), and, inside an attempt, the
amax, the silence evidence and the storm counts of the step (R94, R197). Products of the matinee slice change no watch record
(R171): `watch` is false. -/
def State.noteWrite (s : State) (slot scope : Nat) (t : Tensor) (q : QuantOut) (watch : Bool) : State :=
  match s.job slot with
  | none => s
  | some j =>
    let j := j.noteRecs scope t q
    let inStep := decide (scope ≤ scopeAhead)
    let w := q.stats
    let seen := SMap.get 2 j.blocksSeen t.idx
    let now := if seen = 1 ∨ w.blocks ≠ w.zeros then 1 else 0
    let put := fun (m : SMap Nat) => SMap.put m t.idx (max (SMap.get 0 m t.idx) w.amax)
    let s := s.setJob slot
      (if inStep then
        { j with amax := if scope = scopeAhead then j.amax else put j.amax
                 amaxAhead := if scope = scopeAhead then put j.amaxAhead else j.amaxAhead
                 blocksSeen := SMap.put j.blocksSeen t.idx now, stormW := j.stormW + 1, stormF := j.stormF + b2n q.raised }
       else j)
    if !watch then s
    else
      let s := ((s.countBlocks j t.idx w).countCopy j q).addWatch j t.idx 30 2 (b2n q.raised)
      if q.raised then s.inc Reg.fallbackTiles else s

/-- The event of R185, once a tensor a step. -/
def State.exhaust (s : State) (slot i : Nat) : State :=
  match s.job slot with
  | some j =>
    if j.exhausted.contains i then s
    else (s.setJob slot { j with exhausted := i :: j.exhausted }).event Ev.ladderExhausted UId.stageManager [i]
  | none => s

/-- A trigger of Table 5.4 fired for a tensor: in a small cast a raise is due at the next boundary, in a large cast the
tensor is flagged (R187, R192). Replay jobs have no triggers (R203). -/
def State.trigger (s : State) (slot i : Nat) : State :=
  match s.job slot with
  | some j =>
    if j.replay then s
    else if j.large then
      (s.setJob slot { j with flagged := if j.flagged.contains i then j.flagged else i :: j.flagged }).setWatchFlag j i 4 true
    else
      let f := (eFmtOf (j.recipeAt i).fmt).getD .w16
      if lastRung f ≤ j.rung i ∨ ((j.tensor i).map (·.fb)).getD 0 = 0 then s.exhaust slot i
      else s.setJob slot { j with trig := if j.trig.contains i then j.trig else i :: j.trig }
  | none => s

/-- The clipping and over-budget triggers of one tile's write (Table 5.4): does one fire? -/
def Job.tileTrigger (j : Job) (w : WStats) : Bool :=
  decide (bits 7 0 j.thresh ≤ w.clip) || decide (bits 15 8 j.thresh ≤ w.excess)

/-- Escapes of a block-scaled source that match no outlier entry: one event a block (R29). -/
def State.srcMismatches (s : State) (rq : Requester) (t : Tensor) (q : QRec) (p n : Nat) : State :=
  let per := t.blocksPer q.stored.rotN
  let blks := ((List.range n).map fun i => (p + i) / t.redLen * per + (p + i) % t.redLen / 32).eraseDups
  blks.foldl (fun (s : State) b => match (s.readQBlock rq t q.stored b).2.1 with
    | .num _ _ _ _ true => s.event Ev.escapeMismatch rq.unit [t.idx, b]
    | _ => s) s

/-- Elements of a tensor as `State.readVals` gives them, its unmatched escapes recorded (R68). -/
def State.readNoted (s : State) (rq : Requester) (t : Tensor) (p n : Nat) : Nat × List Val × Bool × State :=
  match s.readVals rq t p n with
  | (0, vs, o, s) => (0, vs, o, if t.scaled then s.srcMismatches rq t (qrecOf (s.bytes (s.storeAddr t.record) 32)) p n else s)
  | e => e

/-! ### The partial sums of the norm (R576) -/

/-- Gradient tensors that the program's UPDATE cues name, ascending, each with the GSCALE of the cue of lowest index (R576). -/
def Job.gradScales (j : Job) : List (Nat × Nat) :=
  let cues := j.program.filter fun raw => fieldLE raw 2 1 == cUpdate
  let grads := cues.map fun raw => fieldLE raw 42 3
  ((List.range j.layout.length).filter fun i => grads.contains i).map fun i =>
    let first := (cues.find? fun raw => fieldLE raw 42 3 == i).getD []
    (i, (updOf (j.upd.getD (fieldLE first 36 3) [])).gscale)

/-- s_T of one tensor (R576). -/
def gradSum (scale : Val) (gs : List Val) : Val :=
  gs.foldl (fun acc g => let x := fmul (f32Round g) scale; ffma x x acc) (.fin false 0)

/-- s_T of tensor i, read from memory: status, value, the address that failed, state. -/
def State.sumOf (s : State) (rq : Requester) (j : Job) (i sc : Nat) : Nat × Val × Nat × State :=
  match j.tensor i with
  | none => (0, .fin false 0, 0, s)
  | some t =>
    match s.readNoted rq t 0 t.elems with
    | (0, gs, _, s) => (0, gradSum (f32Val sc) gs, 0, s)
    | (e, _, _, s) => (e, .nan, t.base, s)

/-- Form the partial sums that are due: those of the gradients for which `final` holds and that have none yet. One that cannot be read is
left to the curtain. -/
def State.formSums (s : State) (slot : Nat) (final : Tensor → Bool) : State :=
  match s.job slot with
  | none => s
  | some j =>
    let due := j.gradScales.filter fun g => !(SMap.find j.gradSums g.1).isSome && ((j.tensor g.1).map final).getD false
    due.foldl (fun (s : State) g =>
      match s.sumOf (.manager (some slot)) j g.1 g.2 with
      | (0, v, _, s) => s.modJob slot fun (j : Job) => { j with gradSums := SMap.put j.gradSums g.1 (f32Code v) }
      | (_, _, _, s) => s) s

/-! ### Tensor-level exponents (R95 to R98) -/

/-- A choice of the step would use the tensor's history (R96, R97): its pre-scale by history, or in H mode the Et of a product whose
output it is or the Ec of an all-reduce of it. -/
def Job.choosesFor (j : Job) (i : Nat) : Bool :=
  let r := j.recipeAt i
  let scaled := ((j.tensor i).map (·.scaled)).getD false
  (scaled && r.prescale == 1) || (!r.bMode && j.program.any fun c =>
    let op := fieldLE c 2 1
    (op == cProduct && ((j.finish[fieldLE c 42 3]?).map fun f => (finOf f).outRef == i).getD false)
      || (op == cCollective && ((j.coll[fieldLE c 36 3]?).map fun d => (collOf d).kind == 1 && (collOf d).ecMode == 0 && (collOf d).outRef == i).getD false))

/-- The choices of a step for one tensor, from its history as it stands (R95, R96). -/
def State.chooseExp (s : State) (j : Job) (i : Nat) : TensorExp :=
  match j.tensor i with
  | none => { pre := 0, hist := none, bmode := false }
  | some t =>
    let r := j.recipeAt i
    let h := (histOf (s.histBytes j t.history)).usable
    { pre := (match h with | some a => hPre a | none => 0), hist := if r.bMode then none else h, bmode := j.choosesFor i && h.isNone }

/-- The choices of a step (R95). -/
def State.chooseExps (s : State) (j : Job) : List TensorExp := (List.range j.layout.length).map (s.chooseExp j)

/-- Et₀ of a product (R97, R98): by the history of its output tensor in H mode, else by bound. -/
def Job.productEt (j : Job) (out : Nat) (nb : Nat) (a b : QRec) : Int × Bool :=
  let bound := fun (q : QRec) =>
    ({ fmt := (eFmtOf q.fmt).getD .n4, sf16 := q.sf16, scaleMax := q.scaleMax, escAmax := q.escAmax, prescale := q.pre } : BoundArg)
  match (j.exps[out]?).bind (·.hist) with
  | some m => (hEt m (j.recipeAt out).margin, false)
  | none => (bEt nb (bound a) (bound b) (rotShift a.rot), true)

end Sys2Proof.Machine
end

