-- ==== Sys2Proof/Machine/Restore.lean ====
section
/-!
DEFINITION. Places in the cast for protection (R414, R415), the snapshot slots, and fetching lost items of a slot from mirror,
parity or a donor (R313, R455 to R457).
-/
namespace Sys2Proof.Machine

open Sys2Proof

/-- Round up to 2 MiB. -/
def align2M (n : Nat) : Nat := ceilDiv n (2 ^ 21) * 2 ^ 21

/-! ### Places in the cast (R414, R415) -/

/-- Mirror axis and offset, parity axis and group size of a CKP_PROT value. -/
def mirrorAxis (w : Nat) : Nat := bits 17 16 w
def mirrorOff (w : Nat) : Nat := bits 23 18 w
def parityAxis (w : Nat) : Nat := bits 9 8 w
def groupSize (w : Nat) : Nat := bits 4 0 w

/-- The member at a position offset of k on an axis from coordinate c, within the cast (R374, R414). -/
def State.shiftMember (s : State) (c a : Nat) (k : Int) : Nat :=
  let e := s.castE a
  let p := (((s.castPos c a : Nat) : Int) + k) % ((max 1 e : Nat) : Int)
  setComp c a ((comp (s.fld Reg.castOrigin) a + p.toNat) % max 1 (s.torusE a))

/-- Mirror is available on this cast (R414). -/
def State.mirrorThere (s : State) (w : Nat) : Bool := mirrorOff w % max 1 (s.castE (mirrorAxis w)) != 0

/-- Parity is available on this cast (R415). -/
def State.parityThere (s : State) (w : Nat) : Bool := decide (4 ≤ s.castE (parityAxis w))

/-- First coordinate of the parity group of a member (R415). -/
def State.groupStart (s : State) (w c : Nat) : Nat :=
  let p := s.castPos c (parityAxis w)
  s.shiftMember c (parityAxis w) (-(p % max 1 (groupSize w) : Nat))

/-! ### Slots and books (R404, R405, Table 12.6) -/

/-- Size of a slot. -/
def Ckp.slotSize (c : Ckp) : Nat := c.snapSize / 2 ^ 22 * 2 ^ 21

/-- Base of slot k. -/
def Ckp.slotAt (c : Ckp) (k : Nat) : Nat := c.snapBase + k * c.slotSize

/-- The slot that holds P. -/
def State.pSlot (s : State) : Nat := s.fld Reg.ckpPSlot

/-- The slot that an interval writes (R406): the one that does not hold P; slot 0 while there is no P (DESIGN CHOICE, log entry 59). -/
def State.sSlot (s : State) : Nat := if s.ckp.hasP then 1 - s.pSlot else s.pSlot

/-- First 32 bytes of SHA3-512. -/
def digest32 (bs : List Byte) : List Byte := toBytes ((sha3_512 (natBytes bs)).take 32)

/-- Entry i of a book. -/
def bookEntry (bs : List Byte) (i : Nat) : List Byte := (bs.drop (128 + 80 * i)).take 80

/-! ### Parity collectives (R395, R415, R425) -/

/-- The port of an axis in a direction. -/
def portOn (a : Nat) (minus : Bool) : Nat := 2 * a + b2n minus

/-- The key of a collective of the device's own, by index and stripe. -/
def deviceKey (index stripe : Nat) : Nat := 2 ^ 20 + (index - 0xFFFFF0) * 16 + stripe

/-- XOR along a run (R395): chunks travel toward the target from both ends; `stripe` is the field of R425. -/
def State.xorTracks (s : State) (a start len target n stripe : Nat) : List (List Hop) :=
  let e := max 1 (s.torusE a)
  let i := (comp s.coord a + e - start) % e
  let t := (comp target a + e - start) % e
  let hop := fun (send minus back : Bool) =>
    ({ send, port := portOn a minus, round := 2 * stripe + b2n back, elems := List.range n, how := 3 } : Hop)
  if i < t then [(if i = 0 then [] else [hop false true false]) ++ [hop true false false]]
  else if t < i then [(if i + 1 = len then [] else [hop false false true]) ++ [hop true true true]]
  else [if t = 0 then [] else [hop false true false], if t + 1 = len then [] else [hop false false true]]

/-- A collective without a schedule yet. -/
def collNew (op : Option Nat) (desc : List Byte) (index epoch width : Nat) (data : List Int) : Coll :=
  { op, desc, index, epoch, width, data, tracks := [], passes := [], share := [], shares := [], sent := [], got := [], ec := 0, bound := false
    sat := false }

/-- Group size, index within the group and first coordinate of the group. -/
def State.parityPlace (s : State) : Nat × Nat × Nat :=
  (max 1 (groupSize s.ckp.prot), s.fld Reg.parityIndex, s.fld Reg.parityRunStart)

/-- A descriptor of the device's own: kind, axes, first coordinate and length of a run, bytes, target (R385, R393). -/
def deviceDesc (kind axes start g u peer : Nat) : List Byte :=
  leBytes 1 1 ++ leBytes 1 8 ++ leBytes 1 (16 * kind + axes) ++ leBytes 1 0 ++ leBytes 8 0 ++ leBytes 1 20 ++ leBytes 3 0
    ++ leBytes 3 peer ++ leBytes 1 g ++ leBytes 4 0 ++ leBytes 8 u ++ leBytes 4 0 ++ leBytes 1 start ++ leBytes 27 0

/-- The descriptor of a parity collective (R425). -/
def parityDesc (axis start g u peer : Nat) : List Byte := deviceDesc 5 (2 ^ axis) start g u peer

/-- The member of the group at an index. -/
def State.groupMember (s : State) (i : Nat) : Nat :=
  let a := parityAxis s.ckp.prot
  let (_, _, first) := s.parityPlace
  setComp first a ((comp first a + i) % max 1 (s.torusE a))

/-! ### Fetching items (R313, R418, R455 to R457) -/

/-- How an item of a book is protected: 0 NONE, 1 MIRROR, 2 PARITY (Table 12.6). -/
def entMethod (e : List Byte) : Nat := bits 7 6 (fieldLE e 3 1)

/-- Items that every replica holds alike (R455). -/
def Job.replicated (j : Job) (kind index : Nat) : Bool :=
  kind == 8 || (kind == 1 && (List.range j.layout.length).any fun i =>
    match j.tensor i with
    | some t => t.isMaster && (i == index || t.aux == index || t.aux + 1 == index)
    | none => false)

/-- Ask a member for bytes in pieces of at most 16 MiB, each answered into its place here; without a route, or with one that a
FAILED member cuts (R400), the fill fails. -/
def State.getPieces (s : State) (c epoch addr bytes dst : Nat) : State :=
  match s.openRoute c with
  | none => { s with fov := { s.fov with fillFailed := true } }
  | some p =>
    (List.range (ceilDiv bytes (2 ^ 24))).foldl (fun (s : State) i =>
      let n := min (2 ^ 24) (bytes - 2 ^ 24 * i)
      s.sendRequest p 2 { s.txn opGet c with epoch, bytes := n, arg := addr + 2 ^ 24 * i } [] 1 (dst + 2 ^ 24 * i)) s

/-- Await the units of this member's own parity list, as the target of each stripe (R456). -/
def State.awaitUnits (s : State) (epoch u : Nat) : State :=
  let a := parityAxis s.ckp.prot
  let (g, i, first) := s.parityPlace
  (List.range (g - 1)).foldl (fun (s : State) k =>
    let stripe := (i + k + 1) % g
    let x := collNew none (parityDesc a (comp first a) g u s.coord) 0xFFFFFA epoch 1 (List.replicate u 0)
    let tracks := (s.xorTracks a (comp first a) g s.coord u stripe).filter fun t => !t.isEmpty
    { s with colls := SMap.put s.colls (deviceKey 0xFFFFFA stripe) { x with tracks } }) s

/-- Begin to fill items of slot k from their protection: those of METHOD MIRROR from the partner's bases, those of METHOD PARITY
by their units, the others not at all (Table 13.5). -/
def State.fetchItems (s : State) (k : Nat) (book : List Byte) (nums : List Nat) : State :=
  let epoch := fieldLE book 24 6 % 2 ^ 24 * 256
  let ents := nums.map (bookEntry book)
  let s := ents.foldl (fun (s : State) e =>
    match entMethod e with
    | 1 =>
      if s.ckp.mirrorOk then
        s.getPieces (s.fld Reg.mirrorPartner) epoch (s.ckp.mirrorBase + fieldLE e 24 8) (fieldLE e 16 8)
          (s.ckp.slotAt k + fieldLE e 8 8)
      else { s with fov := { s.fov with fillFailed := true } }
    | 2 => s
    | _ => { s with fov := { s.fov with fillFailed := true } }) s
  let s : State := { s with fov := { s.fov with filled := nums } }
  if ents.any fun e => entMethod e == 2 then s.awaitUnits epoch (fieldLE book 64 8) else s

end Sys2Proof.Machine
end

