-- ==== Sys2Proof/Machine/Attempt.lean ====
section
/-!
DEFINITION. What several families share about a step: completion records, the snapshot slots, abandoned attempts and
rollback (07, 12), and the failure of an engine, of this device and of a member (13).
-/
namespace Sys2Proof.Machine

open Sys2Proof

/-! ### Completion records (R485, R486) -/

/-- The 32 bytes of a record; HEAD and PHASE are filled in when it is written. -/
def cplRecord (kind outcome status detail tag index epoch step : Nat) : List Byte :=
  leBytes 1 1 ++ leBytes 1 4 ++ leBytes 1 kind ++ leBytes 1 outcome ++ leBytes 2 status ++ leBytes 2 detail ++ leBytes 4 tag
    ++ leBytes 4 index ++ leBytes 4 epoch ++ leBytes 4 0 ++ leBytes 6 step ++ leBytes 2 0

/-- A record with its HEAD and PHASE. -/
def cplPatch (rec : List Byte) (head phase : Nat) : List Byte :=
  rec.take 20 ++ leBytes 4 (if fieldLE rec 2 1 = 1 then head else 0) ++ (rec.drop 24).take 7 ++ leBytes 1 (128 * phase)

/-- Is queue q a director queue (R239)? -/
def State.isDirector (s : State) (q : Nat) : Bool := decide (q < 16) && bitAt q (s.fld Reg.directorMask)

/-- A queue goes to STOPPED with one event; records are still written to it (R237, R485). -/
def State.stopQueue (s : State) (q reason : Nat) : State :=
  (s.setQueue q { s.queue q with state := 2 }).event Ev.queueStopped UId.stageManager [q, reason]

/-- The device's own copy of a queue changes, and with it STATE, DIRECTOR, HEAD, TAIL and CPL_TAIL of the descriptor in
memory; LOG2_SIZE of a DISABLED queue is software's. A write that fails stops the queue (R237). -/
def State.updateQueue (s : State) (q : Nat) (x : Queue) : State :=
  let a := s.rd Reg.queTableBase + 64 * q
  let log2 := if x.state = 0 then bits 4 0 (s.num (s.storeAddr (a + 2)) 1) else x.log2
  let b2 := x.state * 64 + 32 * b2n (s.isDirector q) + log2
  let s := s.setQueue q x
  let (st, s) := s.devWrites (.manager none)
    [(a + 2, leBytes 1 b2), (a + 24, leBytes 4 x.head ++ leBytes 4 x.tail ++ leBytes 4 x.cplTail)]
  if st = 0 then s else s.stopQueue q 4

/-- STOPPED, shown in the descriptor too (R237, R484, R485). -/
def State.haltQueue (s : State) (q reason : Nat) : State :=
  (s.updateQueue q { s.queue q with state := 2 }).event Ev.queueStopped UId.stageManager [q, reason]

/-- Hand a record to its queue's ring; a DISABLED queue gets QUEUE_CONFIG instead (R485). -/
def State.putRecord (s : State) (q : Nat) (rec : List Byte) : State :=
  let x := s.queue q
  if x.state = 0 then s.event Ev.queueConfig UId.stageManager [q, 4]
  else s.setQueue q { x with recs := x.recs ++ [rec] }

/-- Records written and not consumed. -/
def Queue.unread (x : Queue) : Nat := (x.cplTail + 2 ^ 32 - x.cplHead) % 2 ^ 32

/-- Write the oldest waiting record of a queue if its ring has room (R485): the ring entry, CPL_TAIL in the descriptor
(R237), and the vector (R488). -/
def State.writeRecord (s : State) (q : Nat) : State :=
  let x := s.queue q
  let size := 2 ^ x.cplLog2
  match x.recs with
  | r :: rest =>
    if x.unread < size then
      let phase := if x.cplTail / size % 2 = 0 then 1 else 0
      let (st, s) := s.devWrite (.manager none) (x.cplBase + 32 * (x.cplTail % size)) (cplPatch r x.head phase)
      let s := s.updateQueue q { x with recs := rest, cplTail := (x.cplTail + 1) % 2 ^ 32 }
      (if st = 0 then s else s.haltQueue q 3).signal x.vector
    else s
  | [] => s

/-- Cues of a queue fetched and not completed. -/
def State.inFlight (s : State) (q : Nat) : Bool :=
  s.waiting.any (fun c => c.queue == some q) || s.ops.any fun e => e.2.cue.queue == some q

/-- A disable command takes effect once the queue has no cue in flight (R266): records that have room are written first,
the others are lost with an event each (R485). -/
def State.settleQueue (s : State) (q : Nat) : State :=
  if (s.queue q).disabling && !s.inFlight q then
    let s := (List.range (s.queue q).recs.length).foldl (fun s _ => s.writeRecord q) s
    let left := (s.queue q).recs
    let s := left.foldl (fun s _ => s.event Ev.queueConfig UId.stageManager [q, 4]) s
    s.updateQueue q { s.queue q with state := 0, disabling := false, bell := false, recs := [] }
  else s

/-- A cue belongs to an attempt (R244, R249). -/
def CueRec.inAttempt (c : CueRec) : Bool := c.epoch.isSome && c.epoch != some matineeEpoch

/-- The record of a cue that completed or was rejected, if Table 14.6 asks for one; that of an attempt's cue waits for
COMMIT (R252), unless the attempt is over. A disable command that waited for the cue may now take effect. -/
def State.cueRecord (s : State) (c : CueRec) (status detail tag : Nat) (now : Bool) : State :=
  match c.queue with
  | none => s
  | some q =>
    let s :=
      if c.cpl ∨ status ≠ 0 then
        let r := cplRecord 1 0 status detail tag c.index (c.epoch.getD 0) c.step
        match (if c.inAttempt && !now then c.job else none) with
        | some j => s.modJob j fun x => { x with outbound := x.outbound ++ [(c.epoch.getD 0, .cpl q r)] }
        | none => s.putRecord q r
      else s
    s.settleQueue q

/-! ### Snapshot slots (R403 to R405) -/

/-- The 36,864 lane counters as item 0x07 (Table 12.1). -/
def State.laneBytes (s : State) : List Byte := (List.range 36864).flatMap fun i => leBytes 8 (SMap.get 0 s.rng.lanes i)

/-- The running digest V (R467). -/
def State.digestV (s : State) : Nat := s.rd (Reg.runDigestLo.off) + 2 ^ 64 * s.fld Reg.runDigestHi

/-- Set V, whose item is written. -/
def State.setV (s : State) (v : Nat) : State :=
  ((s.setF Reg.runDigestLo (v % 2 ^ 64)).setF Reg.runDigestHi (v / 2 ^ 64)).markItem 8 0 16

/-- The live bytes of a protected item (Table 12.1): status and bytes. -/
def State.itemLive (s : State) (job : Job) (slot : Nat) (it : Item) : Nat × List Byte × State :=
  match it.kind with
  | 4 => (0, job.recipe.flatten, s)
  | 5 => (0, job.upd.flatten, s)
  | 7 => (0, s.laneBytes, s)
  | 8 => (0, leBytes 16 s.digestV, s)
  | k =>
    if k = 2 ∧ it.src.isEmpty then (0, job.ownHists.flatMap (s.histBytes job), s)
    else it.src.foldl (fun (acc : Nat × List Byte × State) pc =>
      if acc.1 ≠ 0 then acc
      else
        let (st, bs, s) := acc.2.2.devRead (.manager (some slot)) pc.1 pc.2
        (st, acc.2.1 ++ bs, s)) (0, [], s)

/-- Cut a byte list into entries of n bytes; k of them. -/
def cutBytes (n k : Nat) (bs : List Byte) : List (List Byte) := (List.range k).map fun i => (bs.drop (n * i)).take n

/-- Put an item's bytes back to its live place (R433). -/
def State.itemRestore (s : State) (slot : Nat) (it : Item) (bs : List Byte) : State :=
  match it.kind with
  | 4 => s.modJob slot fun j => { j with recipe := cutBytes 8 j.recipe.length bs }
  | 5 => s.modJob slot fun j => { j with upd := cutBytes 32 j.upd.length bs }
  | 7 =>
    { s with rng := { s.rng with lanes := SMap.setAll 0 [] ((List.range 36864).map fun i => (i, fieldLE bs (8 * i) 8)) } }
  | 8 => s.setV (fieldLE bs 0 16)
  | k =>
    if k = 2 ∧ it.src.isEmpty then s.modJob slot fun j =>
        { j with ownHist := (j.ownHists.zip (cutBytes 40 j.ownHists.length bs)).foldl (fun (m : SMap (List Byte)) e => SMap.put m e.1 e.2) [] }
    else (it.src.foldl (fun (acc : Nat × State) pc =>
      (acc.1 + pc.2, (acc.2.devWrite (.manager (some slot)) pc.1 ((bs.drop acc.1).take pc.2)).2)) (0, s)).2

/-- Read one item from a slot and verify its DIGEST against the slot's book (R430). -/
def State.itemFromSlot (s : State) (k i : Nat) (it : Item) : Option (List Byte) × State :=
  let base := s.ckp.slotAt k
  match s.devRead (.manager none) (base + it.slotOff) it.bytes with
  | (0, bs, s) =>
    (match s.devRead (.manager none) (base + 128 + 80 * i + 48) 32 with
     | (0, d, s) => (if d = digest32 bs then some bs else none, s)
     | (_, _, s) => (none, s))
  | (_, _, s) => (none, s)

/-- Copy every item of a slot to live (R433); the numbers of those that cannot be read. -/
def State.copySlot (s : State) (slot k : Nat) : List Nat × State :=
  s.ckp.items.zipIdx.foldl (fun (acc : List Nat × State) p =>
    match acc.2.itemFromSlot k p.2 p.1 with
    | (some bs, s) => (acc.1, s.itemRestore slot p.1 bs)
    | (none, s) => (acc.1 ++ [p.2], s)) ([], s)

/-- Where the holder keeps the dirty bitmaps of the pending journal: offset in the mirror region and bytes (R418). -/
def bitmapOff : Nat := 2 ^ 25 + 2 ^ 15
def bitmapLen : Nat := 2 ^ 25 - 2 ^ 15

/-- The mirror source's journal is over, applied or discarded, and its dirty bitmaps are clear (R418, R420). -/
def State.endJournal (s : State) : State :=
  let a := s.ckp.mirrorBase + bitmapOff
  if s.ckp.journal.isEmpty then s
  else { (s.clearVoids a bitmapLen).zeroBytes a bitmapLen with ckp := { s.ckp with journal := [] } }

/-- Discard a sealed slot S newer than P: SEALED is cleared in its book and its drain ends (R408, R433). The bases keep the generation they
held, so the blocks that were shipped are dirty again (R417; DEDUCED, log entry 60). -/
def State.discardS (s : State) : State :=
  let k := s.sSlot
  match s.ckp.sealed.getD k none with
  | some _ =>
    let a := s.ckp.slotAt k + 3
    let s := s.ownNum a 1 (setBits 7 7 0 (s.num a 1))
    let c := s.ckp
    let items := c.items.zipIdx.map fun (e : Item × Nat) =>
      if e.1.method = 1 then { e.1 with dirty := e.1.dirty ++ (c.ship.getD e.2 []).filter fun b => !e.1.dirty.contains b } else e.1
    let s := { s with ckp := { c with items, sealed := c.sealed.set k none, staged := false }
                      colls := s.colls.filter fun e => !(e.2.index == 0xFFFFF9 && e.2.op.isNone) }
    ((((s.setF Reg.ckpSSealed 0).setF Reg.ckpDrainBusy 0).setF Reg.ckpDrainFailed 0).setF Reg.sealedStep
      (s.fld Reg.protectedStep)).endJournal
  | none => s

/-! ### The array and its test access (R128, R132) -/

/-- The logical cell row that a physical row serves now (R128, Table 3.13). -/
def State.cellRow (s : State) (e row : Nat) : Option Nat :=
  let m := s.rd (Reg.spareMap + 0x400 * e)
  let at' := fun j => bits (8 * j + 7) (8 * j) m
  if 256 ≤ row then
    let j := row - 256
    if bitAt 7 (at' j) then some (64 * j + at' j % 64) else none
  else if bitAt 7 (at' (row / 64)) && at' (row / 64) % 64 == row % 64 then none
  else some row

/-- The key of the cell that TEST_SEL selects; none for a spare row that is not mapped and for a row that a spare has replaced. -/
def State.testCell (s : State) (e : Nat) : Option Nat :=
  (s.cellRow e (s.ef e Reg.testRow)).map fun r => e * 2 ^ 17 + r * 256 + s.ef e Reg.testCol

/-- A capture completes with a value (R132). -/
def State.captured (s : State) (e : Nat) (v : Int) : State :=
  let s : State := { s with captures := s.captures.filter (· != e) }
  (s.setEf e Reg.testA20 (twos 32 v)).setEf e Reg.testValid 1

/-- A capture gives the value that the selected cell holds: 0 for a row that takes no part in the array, an unmapped spare or a row a
spare has replaced, of which the manual gives no value (DESIGN CHOICE, log entry 92). -/
def State.captureHeld (s : State) (e : Nat) : State :=
  s.captured e (((s.testCell e).map fun k => SMap.get 0 s.cells k).getD 0)

/-- ARRAY_BUSY (Table 3.9): a set of the engine has made a pass and has passes left. When the array goes idle a capture that waits
takes the held value (R132). -/
def State.arrayState (s : State) (e : Nat) : State :=
  let busy := s.sets.any fun x => x.1 / 2 == e && x.2.begun && !x.2.passes.isEmpty && !x.2.overflow
  let s := s.setEf e Reg.arrayBusy (b2n busy)
  if !busy && s.captures.contains e then s.captureHeld e else s

/-! ### Ending what belongs to an attempt -/

/-- Drop everything that works for operation slots: unbound tiles, accumulator sets, held tiles, collectives. -/
def State.dropWork (s : State) (ids : List Nat) : State :=
  let keys := (s.sets.filter fun e => ids.contains e.2.work.op).map (·.1)
  let s := { s with
    tiles := s.tiles.filter fun t => !ids.contains t.op
    sets := s.sets.filter fun e => !ids.contains e.2.work.op
    heldTiles := s.heldTiles.filter fun h => !ids.contains h.work.op
    colls := s.colls.filter fun e => match e.2.op with
      | some i => !ids.contains i
      | none => true }
  keys.foldl (fun s k => (s.setEf (k / 2) (if k % 2 = 0 then Reg.setState0 else Reg.setState1) 0).arrayState (k / 2)) s

/-- Remove operation slots and everything that works for them. -/
def State.dropOps (s : State) (gone : CueRec → Bool) : State :=
  let ids := (s.ops.filter fun e => gone e.2.cue).map (·.1)
  let s := s.dropWork ids
  { s with ops := s.ops.filter fun e => !ids.contains e.1 }

/-- Complete with status ABANDONED the host cues a predicate picks, fetched or issued, and remove them all (R244, R256,
R260). -/
def State.abandonCues (s : State) (gone : CueRec → Bool) : State :=
  let cues := (s.waiting.filter gone) ++ ((s.ops.filter fun e => gone e.2.cue).map fun e => e.2.cue)
  let s := s.dropOps gone
  let s := { s with waiting := s.waiting.filter fun c => !gone c }
  cues.foldl (fun s c => s.cueRecord c St.abandoned 0xFFFF c.tag true) s

/-- Samples that an attempt takes from a source: PER_MB for every micro-batch (R248). -/
def Job.perAttempt (j : Job) (d : DataDesc) : Nat := d.perMb * (j.mbLast + 1)

/-- Samples of an attempt. -/
def Job.samplesPerAttempt (j : Job) : Nat := (j.data.map fun d => j.perAttempt (dataOf d)).foldl (· + ·) 0

/-- Samples of a shard that attempts have consumed. -/
def Shard.used (sh : Shard) : Nat := ((sh.taken.head?).map (·.2)).getD 0

/-- Every sample of a shard was consumed before a snapshot of this step (R248). -/
def Shard.behind (sh : Shard) (step : Nat) : Bool := sh.samples == 0 || sh.taken.any fun x => decide (sh.samples ≤ x.2 ∧ x.1 ≤ step)

/-- Consume n samples of a source in the order of its shards; a snapshot of `step` lies behind them. -/
def takeFrom (source step : Nat) : List Shard → Nat → List Shard
  | [], _ => []
  | sh :: rest, n =>
    let m := if sh.source = source then min n (sh.samples - sh.used) else 0
    (if m = 0 then sh else { sh with taken := (step, sh.used + m) :: sh.taken }) :: takeFrom source step rest (n - m)

/-- The data cursor after the samples of an attempt (R248): NEW_EPOCH advances the data epoch with a shard's first sample. -/
def Job.advance (j : Job) (step : Nat) : Job :=
  let shards := (j.data.map dataOf).foldl (fun l d => takeFrom d.source step l (j.perAttempt d)) j.shards
  let begun := (j.shards.zip shards).countP fun x => x.2.newEpoch && x.1.used == 0 && x.2.used != 0
  { j with shards, dataEpoch := j.dataEpoch + begun }

/-- The shard of the next sample. -/
def Job.nextShard (j : Job) : Option Shard := j.shards.find? fun sh => decide (sh.used < sh.samples)

/-- The data epoch of the next sample. -/
def Job.nextDataEpoch (j : Job) : Nat := j.dataEpoch + b2n ((j.nextShard.map fun sh => sh.newEpoch && sh.used == 0).getD false)

/-- Show the data cursor in CURSOR (Table 7.15): the next sample, or the end of the last shard lent. -/
def State.showCursor (s : State) (slot : Nat) : State :=
  match s.job slot with
  | some j =>
    (match j.nextShard.or j.shards.getLast? with
     | some sh => (s.setJf slot Reg.jobSample sh.used).setJf slot Reg.jobShard sh.shard
     | none => s.setJf slot Reg.jobSample j.sample)
  | none => s

/-- The skip log entry (R257). -/
def State.skipLog (s : State) (slot cause : Nat) : State :=
  match s.job slot with
  | some j =>
    let idx := s.jf slot Reg.jobSkipped % max 1 j.skipCount
    let e := leBytes 1 1 ++ leBytes 1 4 ++ leBytes 1 cause ++ leBytes 1 (s.jf slot Reg.jobAttempt)
      ++ leBytes 4 (s.jf slot Reg.jobShard) ++ leBytes 4 (s.jf slot Reg.jobSample) ++ leBytes 4 j.samplesPerAttempt
      ++ leBytes 8 (s.jf slot Reg.jobStep) ++ leBytes 4 j.nextDataEpoch ++ leBytes 4 0
    (s.devWrite (.manager (some slot)) (j.skipBase + 32 * idx) e).2
  | none => s

/-- Events that close a step of the watch: the fall-back summary of a small cast (Table 5.7) or the recipe event of a large
one (R193). -/
def State.watchClose (s : State) (j : Job) : State :=
  if j.large then
    if j.flagged.isEmpty ∨ j.curtainPassed then s
    else (s.event Ev.recipe UId.stageManager [j.flagged.length, j.flagged.foldl min (2 ^ 24)]).inc Reg.recipeEvents
  else if 0 < j.stormF then s.event Ev.fallback UId.stageManager [(j.rungs.filter fun e => 0 < e.2).length, j.stormF]
  else s

/-- A step boundary: flags that a rule limits to one event a step start afresh, and a change to BULK_ENGINES takes effect on every cluster
without an object in progress (R227): which those are while an export or a drain runs is a free value (log entry 133). -/
def State.stepBoundary (s : State) : State :=
  let s : State :=
    { s with
      banks := s.banks.map fun e => (e.1, { e.2 with denied := false })
      ports := s.ports.map fun e => (e.1, { e.2 with rejectedStep := false })
      host := { s.host with holeStep := false } }
  if s.bulkBusy then
    let (w, s) := s.draw
    (List.range 16).foldl (fun (s : State) c => if w.getLsbD c then s else s.lendCluster c) s
  else s.lend

/-- Discard the traffic held apart for an epoch (R358, R369): its slots are freed, it counts as STALE, and a GET is answered so. -/
def State.dropApart (s : State) (bad : Nat → Bool) : State :=
  (List.range 6).foldl (fun s p =>
    let x := s.port p
    let gone := fun (m : Msg) => m.apart && bad (txnOf m.bytes).epoch
    let out := x.inbox.filter gone
    if out.isEmpty then s
    else
      let s := s.setPort p { x with inbox := x.inbox.filter fun m => !gone m }
      (out.foldl (fun s m =>
        let t := txnOf m.bytes
        let s := s.freeSlots p m.vc m.flits
        if t.opcode = opGet ∧ !t.resp then s.answerGet p m.vc t tsStale [] else s) s).addPf p Reg.stale out.length) s

/-- Release the traffic held apart for an epoch that opens, in arrival order (R358). -/
def State.releaseApart (s : State) (epoch : Nat) : State :=
  (List.range 6).foldl (fun s p =>
    s.modPort p fun x =>
      { x with inbox := x.inbox.map fun (m : Msg) => if m.apart && (txnOf m.bytes).epoch == epoch then { m with apart := false } else m }) s

/-- An interval stop has begun: it is under way, or a forced interval stands at its barrier, step 1 of Table 12.2 (R411, R413). The barrier
that follows a JOB_START's full interval is no part of a stop. -/
def State.inStop (s : State) : Bool := s.ckp.stopping || (s.ckp.barrier && (!s.ckp.starting || s.ckp.full))

/-- A job goes to STOPPED with one event (R249, R273, R284, R293). -/
def State.stopJob (s : State) (slot cause unit : Nat) : State :=
  (s.setJf slot Reg.jobState 4).event Ev.jobStopped UId.stageManager [cause, unit]

/-- The export fallback (R466), restricted to exports up to a step where R472 asks for it. -/
def State.exportFallback (s : State) (limit : Nat := 2 ^ 48) : State :=
  let first := ((s.fov.failed.head?).map (·.1)).getD noCoord
  let s := (s.inc Reg.fallbacks).event Ev.exportFallback UId.stageManager [first, s.fld Reg.exportStep]
  let st := if s.fld Reg.exports = 0 ∨ limit < s.fld Reg.exportStep then 5 else 4
  let filling := s.fld Reg.fovState == 3 || s.fld Reg.fovState == 4
  let s := (List.range 4).foldl (fun s j =>
    if s.jf j Reg.jobState = 3 ∨ (filling ∧ s.ckp.job = some j) then s.setJf j Reg.jobState st else s) s
  { s with fov := { s.fov with recovery := false, barrierPassed := false, filling := false, rehearsal := false, filled := []
                               fillFailed := false } }.setF Reg.fovState (if s.fov.dead then s.fld Reg.fovState else 0)

/-- BOOK_DIGEST of a book: over bytes 0 to 95 and every entry. -/
def bookDigest (bs : List Byte) : List Byte := digest32 (bs.take 96 ++ bs.drop 128)

/-- A book may be used (R431). -/
def bookUsable (bs : List Byte) : Bool :=
  decide (fieldLE bs 0 1 ≤ 1) && (bs.drop 96).take 32 == bookDigest bs

/-- The prompt book of slot k, read as R431 asks: none where it cannot be read or is not used. -/
def State.readBook (s : State) (k : Nat) : Option (List Byte) × State :=
  match s.devRead (.manager none) (s.ckp.slotAt k) (128 + 80 * s.ckp.items.length) with
  | (0, book, s) => (if bookUsable book then some book else none, s)
  | (_, _, s) => (none, s)

/-- Roll back to P (R433): every item of slot P to live, the book's counters, cursor and interval index, slot S and a source's journal discarded, every base
invalid, the next interval full, and a rehearsal step to follow (R460). Attempts of the step itself stay counted (R249). Items that cannot be read are fetched (R313). Without a P, or with a
book of P that is not used (R431; DEDUCED, log entry 103), the job goes to FAILED (R410, R445). -/
def State.rollback (s : State) (slot : Nat) : State :=
  match (if s.ckp.hasP then s.readBook s.pSlot else (none, s)) with
  | (none, s) => s.setJf slot Reg.jobState 5
  | (some book, s) =>
    let k := s.pSlot
    let p := fieldLE book 24 6
    let step0 := s.jf slot Reg.jobStep
    let (bad, s) := s.copySlot slot k
    let s := s.discardS.endJournal
    let s := ((((s.setJf slot Reg.jobStep p).setJf slot Reg.jobSkipped (fieldLE book 32 8)).setJf slot
      Reg.jobAttempt 0).setJf slot Reg.jobPhase 9).setJf slot Reg.jobRollbacks (satAdd 64 (s.jf slot Reg.jobRollbacks) 1)
    let s := s.modJob slot fun (j : Job) =>
      let back : List Shard := j.shards.map fun (sh : Shard) => { sh with taken := sh.taken.filter fun x => x.1 ≤ p }
      { j with shards := back, dataEpoch := fieldLE book 48 4, failed := if p = step0 then j.failed else 0, allB := false, lapsed := false
               epoch := p % 2 ^ 24 * 256, rebuildDue := true }
    let c := s.ckp
    let s := { s with
      ckp := { c with items := c.items.map (fun (it : Item) => { it with baseValid := false }), full := true, stopping := false
                      barrier := false, vote := none, index := fieldLE book 52 4 }
      colls := s.colls.filter fun e => e.2.op.isSome
      fov := { s.fov with rehearsal := true, voting := none, filled := [], fillFailed := false, d := 0 } }
    let s := ((s.setF Reg.ckpFullNext 1).setF Reg.ckpPhase 0).showCursor slot
    if bad.isEmpty then s else s.fetchItems k book bad

/-! ### Witness records (R421, R432, R460) -/

/-- LOSS of an attempt (R432): the F32 sum, in step-program order, over the elements that its LOSS cues read. -/
def Job.lossSum (j : Job) : Nat :=
  f32Code (((j.losses.filter fun e => e.1 < 0xFFFFF).flatMap (·.2)).foldl (fun a c => fadd a (f32Val c)) (.fin false 0))

/-- A witness record (R432). -/
def witnessRecord (nonrepro loss normS step : Nat) : List Byte :=
  leBytes 1 1 ++ leBytes 1 4 ++ leBytes 1 nonrepro ++ leBytes 1 0 ++ leBytes 4 loss ++ leBytes 4 normS ++ leBytes 4 0
    ++ leBytes 8 step ++ leBytes 8 0

/-- The witness of a rehearsal of step P (R460): the record read as an understudy, or the own ring's. None if its STEP is
another. -/
def State.witnessOf (s : State) (p : Nat) : Option (List Byte) :=
  let w := if s.fov.witness.isEmpty then SMap.get [] s.ckp.ring (p % 1024) else s.fov.witness
  if !w.isEmpty && fieldLE w 16 6 == p then some w else none

/-- Abandon the open attempt of a job slot (R256, Table 7.10). A rehearsal abandoned for a skip cause counts as a failed
comparison (R461). `roll` is false when this device itself has failed. -/
def State.abandon (s : State) (slot cause : Nat) (roll : Bool := true) : State :=
  match s.job slot with
  | none => s
  | some j =>
    if !j.isOpen then s
    else
      let s := s.setJf slot Reg.jobPhase 8
      let mine := fun (c : CueRec) => c.job == some slot && c.inAttempt
      let s := s.abandonCues mine
      let held := j.outbound.filterMap fun h => match h.2 with
        | .cpl q r => some (q, r.take 4 ++ leBytes 2 St.abandoned ++ r.drop 6)
        | _ => none
      let s := held.foldl (fun s h => s.putRecord h.1 h.2) s
      let step := s.jf slot Reg.jobStep
      let attempt := s.jf slot Reg.jobAttempt
      let s := (s.setJf slot Reg.jobAbandonCause cause).setJf slot Reg.jobAbandonStep (step % 2 ^ 24)
      let s := s.record (if 7 ≤ cause then 3 else 1) Ev.abandoned UId.stageManager [cause, attempt] 0 0
      let s := s.flood nkCancel cause 0 j.epoch 0
      let s := s.dropApart fun e => e == (step + 1) % 2 ^ 24 * 256 || e == j.epoch
      let s := s.watchClose j
      let s := s.modJob slot fun j =>
        { j.dropAhead with isOpen := false, lapsed := true, failed := j.failed + 1, outbound := [], nfLoss := 0, sat := 0
                           lastBad := if cause = Cause.badData then j.lastBad else none }
      let s := (s.setJf slot Reg.jobAhead 0).setF Reg.numStorm 0
      let s := s.stepBoundary
      let s :=
        if cause ≤ 3 then
          let s := s.skipLog slot cause
          let s := s.modJob slot fun j => { j.advance (step + 1) with allB := false }
          ((s.setJf slot Reg.jobSkipped (satAdd 64 (s.jf slot Reg.jobSkipped) 1)).setJf slot Reg.jobAttempt (satAdd 8 attempt 1)).showCursor slot
        else if cause ≤ 6 then
          let s := s.modJob slot fun j => { j with allB := cause == Cause.saturation }
          (s.setJf slot Reg.jobRepeats (satAdd 64 (s.jf slot Reg.jobRepeats) 1)).setJf slot Reg.jobAttempt (satAdd 8 attempt 1)
        else if roll then s.rollback slot
        else s.setJf slot Reg.jobAttempt (satAdd 8 attempt 1)
      let s := s.putRecord j.stepQueue (cplRecord 2 cause 0 0xFFFF 0 0xFFFFF j.epoch (s.jf slot Reg.jobStep))
      -- A JOB_STOP that waits for the step boundary takes effect here (R267).
      let s := if j.stopNext ∧ s.jf slot Reg.jobState = 3 then
          (s.setJf slot Reg.jobState 4).modJob slot fun (j : Job) => { j with stopNext := false }
        else s
      match (if s.fov.rehearsal ∧ cause ≤ 3 then s.witnessOf step else none) with
      | some w =>
        ((s.inc Reg.rehearsalFails).event Ev.rehearsalFailed UId.stageManager [j.lossSum, fieldLE w 4 4]).exportFallback
      | none => s

/-- Abandon every open attempt. -/
def State.abandonAll (s : State) (cause : Nat) (roll : Bool := true) : State :=
  (List.range 4).foldl (fun s j => s.abandon j cause roll) s

/-! ### This device fails (R443) -/

/-- A port's waiting notices go out, after what its replay still has to send; without credit they stay (R443: after 1 local ms the port
goes DOWN all the same). -/
def State.flushNotices (s : State) (p : Nat) : State :=
  let x := s.port p
  let n := x.outbox.countP (fun e => 3 ≤ e.1 && e.1 ≤ 4) + (if x.resend.isSome then x.replay.length else 0)
  (List.range n).foldl (fun s _ => s.transmit p) s

/-- Declare this device failed: abandon, flood SELF_FAILED, whose SUBJECT is not used (R367), take the ports DOWN once it has gone out,
show it, and signal FAULT_N. -/
def State.declareFailed (s : State) (code unit : Nat) : State :=
  if s.fov.dead then s
  else
    let s := s.abandonAll Cause.device false
    let s := { s with fov := { s.fov with dead := true } }
    let s := s.flood nkSelfFailed code 0 0 0
    let s := s.event code unit [code]
    let s := (s.setF Reg.fovState (if code = 0x7107 then 7 else 6)).setFault true
    (List.range 6).foldl (fun s p => if s.pst p = PS.off ∨ s.pst p = PS.down then s else (s.flushNotices p).portStop p PS.down 5) s

/-! ### Uncorrectable data in an attempt (R291 to R293) -/

/-- Abandon for cause 0x07 or go on outside an attempt (R291, R292, R312); a second time in the same place stops the job
(R293). -/
def State.badData (s : State) (slot place unit : Nat) : State :=
  match s.job slot with
  | some j =>
    if !j.isOpen then s
    else if j.lastBad = some place ∧ s.fov.rehearsal then
      let s := s.abandon slot Cause.badData false
      s.stopJob slot Cause.badData unit
    else
      let s := s.setJob slot { j with lastBad := some place }
      s.abandon slot Cause.badData
  | none => s

/-! ### Engines and the wings (R227, R440 to R442) -/

/-- Engine banks of an engine: sixteen in a row (R9, R268). -/
def engineBanks (e : Nat) : List Nat := (List.range 16).map (16 * e + ·)

/-- A set's key: engine × 2 + set. -/
def setKey (e k : Nat) : Nat := 2 * e + k

/-- Tiles in flight on an engine run again from their first pass, spread over `dests` (R145, R441, R442). Check runs stop: FAULT_CHECK_RUN
issues them again, to the next engine in the order of R175. -/
def State.rerunOver (s : State) (e : Nat) (dests : List Nat) : State :=
  let bound := (s.sets.filter fun x => x.1 / 2 == e && x.2.work.role == 0).map (·.2.work)
  let mine := bound ++ s.tiles.filter fun (t : TileWork) => t.engine == e && t.role == 0
  let works := mine.zipIdx.map fun (w : TileWork × Nat) => { w.1 with engine := dests.getD (w.2 % max 1 dests.length) e }
  let s := { s with sets := s.sets.filter fun x => x.1 / 2 != e, tiles := works ++ s.tiles.filter fun (t : TileWork) => t.engine != e }
  ((s.setEf e Reg.setState0 0).setEf e Reg.setState1 0).arrayState e

/-- The same on one engine. -/
def State.rerunTiles (s : State) (e dest : Nat) : State := s.rerunOver e [dest]

/-- What the reads of a copy of an engine's banks find wrong: device addresses and the wrong bits of each byte, as in an access's
operands. No command brings them, so they are free (log entry 130). -/
def State.copyErrors (s : State) : Upsets × State := (Config.copyErrors s.fresh, { s with fresh := s.fresh + 1 })

/-- The bytes of a bank, as the copy reads it, that are uncorrectable (R281, R284). -/
def State.lostIn (s : State) (b : Nat) (ups : Upsets) : List Nat :=
  let x := s.bank b
  (ups.filter fun u => u.1 / 0x40000 == b && x.decodes (u.1 % 0x40000) && x.breaks (u.1 % 0x40000) u.2).map (·.1 % 0x40000)

/-- The copy meets an uncorrectable byte: its word is remapped, or its bank marked FAILED, whose engine is out of use already
(Table 8.3; Table 13.2, step 3'). -/
def State.copyLost (s : State) (b byte : Nat) : State :=
  match (s.noteUncorrByte b byte).remapWord b (byte / 8) with
  | (true, s) => s.voidWord b byte
  | (false, s) =>
    let u := UId.bank b
    (((s.setBf b Reg.bankFailed 1).putUnit u US.failed Ev.bankFailed Src.device).event Ev.bankFailed u [0]).voidWord b byte

/-- The reads of a bank's copy, corrected as usual (R288, Table 13.2). -/
def State.copyReads (s : State) (b : Nat) (ups : Upsets) : State :=
  let lost := s.lostIn b ups
  let fixed := ups.filter fun u => u.1 / 0x40000 == b && u.2 == 1 && (s.bank b).decodes (u.1 % 0x40000) && !lost.contains (u.1 % 0x40000)
  let s := s.correctBytes (fixed.map fun u => (b, u.1 % 0x40000))
  lost.foldl (fun s byte => s.copyLost b byte) s

/-- One bank's content, mode, owner and locks move to another bank, and its addresses with them (R288, R289). Aliases that
led to it lead on. -/
def State.moveBank (s : State) (b dest : Nat) (ups : Upsets) : State :=
  let src := s.served1 b
  let s := s.copyReads src ups
  let x := s.bank src
  let kept := (s.mem.filter fun c => src * 0x40000 ≤ c.1 && c.1 < (src + 1) * 0x40000).map fun c =>
    (c.1 - src * 0x40000 + dest * 0x40000, c.2)
  let s := s.zeroBytes (dest * 0x40000) 0x40000
  let s := { s with mem := SMap.setAll 0 s.mem kept }
  let y := s.bank dest
  let s := s.setBank dest { y with validBit := x.validBit, defined := x.defined, holders := x.holders, lost := x.lost }
  let s := (((s.setBf dest Reg.bankState (s.bf src Reg.bankState)).setBf dest Reg.bankAddOpen (s.bf src Reg.bankAddOpen)).setBf dest
    Reg.bankLocked (s.bf src Reg.bankLocked)).wrBank dest Reg.ownerA (s.owner src 0)
  (s.setBf b Reg.bankAlias dest).setBf b Reg.bankAliasValid 1

/-- The failed engine's banks are copied to the spare's and aliased (Table 13.2, step 3; R289). -/
def State.aliasBanks (s : State) (e dest : Nat) (ups : Upsets) : State :=
  (engineBanks e).zip (engineBanks dest) |>.foldl (fun s p =>
    let led := (List.range 9).map fun k => 16 * (e / 9 * 9 + k) + p.1 % 16
    let led := led.filter fun b => b != p.1 && s.bf b Reg.bankAliasValid == 1 && s.bf b Reg.bankAlias == p.1
    led.foldl (fun s b => s.setBf b Reg.bankAlias p.2) (s.moveBank p.1 p.2 ups)) s

/-- The engine that plays the role of engine e now: the one whose banks serve e's (R441). -/
def State.roleOf (s : State) (e : Nat) : Nat := s.served1 (16 * e) / 16

/-- The engines a matinee slice takes (R262). -/
def matineeEngine (size e : Nat) : Bool := e % 9 == 7 && (size == 16 || (size == 8 && e / 9 % 2 == 0))

/-- Some job's matinee slice holds this engine. -/
def State.inMatinee (s : State) (e : Nat) : Bool :=
  let l := 9 * (e / 9) + 7
  s.roleOf l == e && s.jobs.any fun j => matineeEngine j.2.matineeSize l

/-- The role of an engine passes to another (Table 13.2, steps 2 to 5). Uncorrectable data that the copy met then rolls the attempt back
(step 3'). -/
def State.takeover (s : State) (e dest : Nat) : State :=
  let (ups, s) := s.copyErrors
  let lost := ((engineBanks e).map s.served1).filter fun b => !(s.lostIn b ups).isEmpty
  let hit := lost.flatMap fun b => (s.bank b).holders.map fun j => (b, j)
  let s := (s.stopPattern (UId.engine dest) 2).aliasBanks e dest ups
  let s := (s.event Ev.takeover (UId.engine e) [UId.engine dest]).inc Reg.takeovers
  let s := s.setUnit (UId.engine dest) US.active Ev.takeover Src.device
  let s := (s.rerunTiles dest dest).rerunTiles e dest
  hit.foldl (fun s p => s.badData p.2 p.1 (UId.bank p.1)) s

/-- What happens once an engine is lost (R441, R442): the spare, the matinee engine, the remaining engines, or the device
fails. -/
def State.replaceEngine (s : State) (e : Nat) : State :=
  let c := e / 9
  match s.spareFor c with
  | some sp => s.takeover e sp
  | none =>
    let mat := (List.range 9).map (9 * c + ·) |>.find? fun x => s.inMatinee x && s.engSt x == US.active && x != e
    let acts := (List.range 9).map (9 * c + ·) |>.filter fun x => s.engSt x == US.active && x != e && some x != mat
    match mat with
    | some m => (s.event Ev.noSpare (UId.cluster c) [1]).takeover e m
    | none =>
      if acts.length < s.engMin then (s.event Ev.noSpare (UId.cluster c) [3]).declareFailed 0x7105 (UId.cluster c)
      else (s.event Ev.noSpare (UId.cluster c) [2]).rerunOver e acts

/-- An engine goes to TEST for a self-test of the device's own; PRIOR keeps its state (R177, R471, R472). -/
def State.toTest (s : State) (e cause : Nat) : State :=
  let st := s.engSt e
  if st = US.test ∨ st = US.failed then s else s.setUnit (UId.engine e) US.test cause Src.device st

/-- Mark an engine FAILED and replace it if it was in use (R440, R441). -/
def State.engineFail (s : State) (e cause : Nat) : State :=
  let was := s.engSt e
  if was = US.failed then s
  else
    let was := if was = US.test then bits 7 4 (s.unitEntry (UId.engine e)) else was
    let s := s.setUnit (UId.engine e) US.failed cause Src.device
    if was = US.active then s.replaceEngine e else s.rerunTiles e e

/-! ### A member fails (R445, Table 13.3) -/

/-- Second failures that end in the export fallback (R464, R465): a source of another fill, either way round. -/
def State.conflicts (s : State) (f g : Nat) : Bool :=
  let partner := fun c =>
    let a := bits 17 16 s.ckp.prot
    let off := bits 23 18 s.ckp.prot
    setComp c a ((comp (s.fld Reg.castOrigin) a + (s.castPos c a + off) % s.castE a) % s.torusE a)
  let pa := bits 9 8 s.ckp.prot
  let gsz := max 1 (bits 4 0 s.ckp.prot)
  let sameGroup := decide (s.castPos f pa / gsz = s.castPos g pa / gsz) &&
    (List.range 3).all fun a => a == pa || comp f a == comp g a
  partner f == g || partner g == f || (sameGroup && s.castE pa ≥ 4) || s.fov.donor == g

/-- React to a member's failure once (R445, R465). Before the first P the protected job goes to FAILED, be it RUNNING, LOADED or STOPPED,
but for one that an understudy is about to fill (R410). A failure counts until P next advances after its recovery; one of a
member whose understudy is at work starts its recovery again. -/
def State.memberFailed (s : State) (f code : Nat) : State :=
  if f = s.coord ∨ (s.fov.failed.any fun x => x.1 == f && s.fov.recovery && !s.fov.barrierPassed) then s
  else
    let ports := (List.range 6).filter fun p => s.expected p == some f
    let s := ports.foldl (fun s p => s.neighbourFailed p) s
    let unit := (ports.head?.map UId.port).getD UId.stageManager
    let hash := (ports.head?.map fun p => s.pf p Reg.peerSerial).getD 0
    let s := (s.setF Reg.lastFailedCoord f).setF Reg.lastFailedEvent code
    let s := (s.event Ev.memberFailed unit [f, code, hash % 2 ^ 32]).inc Reg.deviceFailures
    let others := (s.fov.failed.map (·.1)).filter fun g => g != f
    let bad := others.any fun g => s.conflicts f g
    let s : State := { s with fov := { s.fov with failed := s.fov.failed.filter (fun x => x.1 != f) ++ [(f, code)] } }
    if !s.ckp.hasP then
      let s := s.abandonAll Cause.device false
      let filling := s.fld Reg.fovState == 3 || s.fld Reg.fovState == 4
      (List.range 4).foldl (fun s j =>
        let st := s.jf j Reg.jobState
        if st = 3 ∨ ((st = 2 ∨ st = 4) ∧ s.ckp.job = some j ∧ !filling) then s.setJf j Reg.jobState 5 else s) s
    else if bad then (s.abandonAll Cause.device false).exportFallback
    else
      let wasOpen := (List.range 4).any fun j => ((s.job j).map (·.isOpen)).getD false
      let s := s.abandonAll Cause.device
      let s := if wasOpen then s else match s.ckp.job with
        | some j => s.rollback j
        | none => s
      ({ s with fov := { s.fov with recovery := true, barrierPassed := false } }).setF Reg.fovState 1

/-- What a failed operation means for its attempt, by its status: a denied access stops the job (R273, R276), an unwritten
byte stops it without a rollback (R284), uncorrectable data rolls back (R291, R312), and any other failure during UPDATE is a
fault of Table 7.10, but for one of the far tier (R324). The manual names no cause for the first; the repeat column's 0x06 is taken (log entry 31). -/
def State.opFailed (s : State) (slot status : Nat) (place unit : Nat) : State :=
  match s.job slot with
  | none => s
  | some j =>
    if !j.isOpen then s
    else if status = St.denied ∨ status = St.off then
      let cause := if s.jf slot Reg.jobPhase = 5 then Cause.fault else Cause.stop
      (s.abandon slot cause).stopJob slot cause unit
    else if status = St.unwritten then (s.abandon slot Cause.badData false).stopJob slot Cause.badData unit
    else if status = St.uncorrectable then s.badData slot place unit
    else if status = St.farError ∨ status = St.timeout then s
    else if s.jf slot Reg.jobPhase = 5 then s.abandon slot Cause.fault
    else s

/-! ### Operations (R240, R243) -/

/-- An operation has done its work, with a status; it completes once nothing of it is outstanding (R240). -/
def State.opDone (s : State) (i status left : Nat) : State :=
  match SMap.find s.ops i with
  | some o =>
    { s with ops := SMap.put s.ops i { o with started := true, left, status := if o.status = 0 then status else o.status } }
  | none => s

/-! ### The phase of an attempt (Table 7.8, R241) -/

/-- Phase of a program cue's bytes. -/
def rawPhase (raw : List Byte) : Nat := bits 7 5 (fieldLE raw 3 1)

/-- Step-program indices of a phase. -/
def Job.progOf (j : Job) (ph : Nat) : List Nat :=
  (j.program.zipIdx.filter fun p => rawPhase p.1 == ph).map (·.2)

/-- A cue of the attempt that is open in a job slot. -/
def CueRec.ofAttempt (c : CueRec) (slot : Nat) : Bool := c.job == some slot && c.inAttempt && !c.ahead

/-- Some BWD cue of the attempt has not issued (R241). -/
def State.bwdLeft (s : State) (slot : Nat) (j : Job) : Bool :=
  (j.progOf phBwd).any (fun i => !j.issued.contains i) || s.waiting.any fun c => c.ofAttempt slot && c.phase == phBwd

/-- The phase of a cue is not open yet in the attempt (R241, R242). -/
def State.closed (s : State) (slot : Nat) (j : Job) (ph : Nat) : Bool :=
  (ph == phUpdate && !j.curtainPassed) || (ph == phBwd && decide (j.fwdIssued < j.fwdCount))
    || (ph == phReduce && (decide (j.fwdIssued < j.fwdCount) || s.bwdLeft slot j))

/-- Every cue of a phase has completed: those of the program, and those posted by the host that are in flight. -/
def State.phaseDone (s : State) (slot : Nat) (j : Job) (ph : Nat) : Bool :=
  (j.progOf ph).all (fun i => j.completed.contains i)
    && !s.waiting.any (fun c => c.ofAttempt slot && c.phase == ph)
    && !s.ops.any fun e => e.2.cue.ofAttempt slot && e.2.cue.phase == ph

/-- A tile of the job's operations is held (R173). -/
def State.tileHeld (s : State) (slot : Nat) : Bool :=
  s.heldTiles.any fun h => match SMap.find s.ops h.work.op with
    | some o => o.cue.job == some slot
    | none => false

/-- The step phase machine's own moves (Table 7.8): to BACKWARD, REDUCE, CURTAIN, and from UPDATE to COMMIT. -/
def State.phaseMove (s : State) (slot : Nat) : State :=
  match s.job slot with
  | some j =>
    if !j.isOpen then s
    else
      let ph := s.jf slot Reg.jobPhase
      if ph = 1 ∧ j.fwdCount ≤ j.fwdIssued then s.setJf slot Reg.jobPhase 2
      else if ph = 2 ∧ !s.bwdLeft slot j then s.setJf slot Reg.jobPhase 3
      else if ph = 3 ∧ s.phaseDone slot j phFwd ∧ s.phaseDone slot j phBwd ∧ s.phaseDone slot j phReduce
          ∧ !s.tileHeld slot then s.setJf slot Reg.jobPhase 4
      else if ph = 5 ∧ s.phaseDone slot j phUpdate then
        s.setJf slot Reg.jobPhase 6
      else s
  | none => s

/-- Every move that is due, in order. -/
def State.phaseStep (s : State) (slot : Nat) : State := (((s.phaseMove slot).phaseMove slot).phaseMove slot)

/-- A cue completes: its slot is free, its index counts as completed in its attempt, its record is written or held (R240,
R243, R252). -/
def State.completeOp (s : State) (i : Nat) (now : Bool := false) : State :=
  match SMap.find s.ops i with
  | some o =>
    let c := o.cue
    let s := { s with ops := SMap.del s.ops i }
    let s := match c.job with
      | some slot => s.modJob slot fun j =>
          if c.index ≠ noIndex ∧ c.epoch = some j.epoch ∧ !c.ahead then { j with completed := c.index :: j.completed } else j
      | none => s
    let s := match c.job with
      | some slot => s.setJf slot Reg.jobAhead (b2n (s.ops.any fun e => e.2.cue.job == some slot && e.2.cue.ahead))
      | none => s
    s.cueRecord c o.status o.detail (o.tagOut.getD c.tag) now
  | none => s

/-- The moves that are due for the attempt of an operation. -/
def State.phaseOf (s : State) (o : OpSlot) : State :=
  match o.cue.job with
  | some slot => s.phaseStep slot
  | none => s

/-- A cue is rejected when it would execute: it completes at once with the status and the offending field, and nothing of it
is executed (R22, R235). -/
def State.opReject (s : State) (i status detail : Nat) : State :=
  match SMap.find s.ops i with
  | some o =>
    (({ s with ops := SMap.put s.ops i { o with started := true, left := 0, status, detail } }).inc Reg.cuesRejected).completeOp i |>.phaseOf o
  | none => s

/-- An operation aborts: nothing more of it runs, its cue completes with the status, and its attempt follows (R273, R284,
R291). `place` names the bank or row of bad data, `unit` the unit of a stop. -/
def State.opAbort (s : State) (i status place unit : Nat) : State :=
  match SMap.find s.ops i with
  | some o =>
    let s := s.opDone i status 0
    let s := s.dropWork [i]
    let s := s.completeOp i (o.cue.inAttempt)
    match o.cue.job with
    | some slot => (if o.cue.inAttempt then s.opFailed slot status place unit else s).phaseStep slot
    | none => s
  | none => s

/-- The place and the unit that a refused access to an address names: its bank, or its row's page number past the banks. -/
def State.placeOf (s : State) (a : Nat) : Nat × Nat :=
  if a < 0x3000_0000 then (s.served1 (a / 0x40000), UId.bank (s.served1 (a / 0x40000)))
  else if a < hbmEnd then (4096 + a / 2048, UId.stack (hbmStack a))
  else if a < farBase then (4096 + a / 2048, UId.channel (s.ddrChannel a))
  else (4096, UId.ioNorth)

/-- The address that a failed access which began at `a` names: that of the data it met (R273, R284, R291, R312). -/
def State.failAt (s : State) (status a : Nat) : Nat :=
  if status = St.uncorrectable ∨ status = St.unwritten ∨ ((status = St.denied ∨ status = St.off) ∧ a < 0x3000_0000) then s.badAt else a

/-- An operation aborts for what an access at address `a` returned. -/
def State.opAbortAt (s : State) (i status a : Nat) : State :=
  s.opAbort i status (s.placeOf (s.failAt status a)).1 (s.placeOf (s.failAt status a)).2

/-- An operation's end: done with its outstanding count, or aborted by the status of its accesses. -/
def State.opEnd (s : State) (i status left a : Nat) : State :=
  if status = 0 then s.opDone i 0 left else s.opAbortAt i status a

end Sys2Proof.Machine
end

