-- ==== Sys2Proof/Machine/Clears.lean ====
section
/-!
DEFINITION. The fourteen counter clears: a host write of 1 to bit 0 of a block's clear register. Until S11 completes only
DEV and SEC are served, so the write is discarded (R478).
-/
namespace Sys2Proof.Machine

open Sys2Proof

/-- A host write to the register at `off`: it reaches the device only where the device serves that offset (R478). -/
def State.hostWrite (s : State) (off : Nat) (f : State → State) : State := if s.open0 off then f s else s

/-- Every counter of every stack and channel window and of the block (Table 9.11). -/
def State.clearMem (s : State) : State :=
  let s := (List.range 8).foldl (fun s i => (s.clearWin 0x200110 0x40 8 i 4 5).clearWin 0x200304 0x40 8 i 4 4) s
  s.clearRegs 0x200600 8 6

/-- The six block counters and the three counters of every bank entry (R297). -/
def State.clearBnk (s : State) : State :=
  let s := { s with regs := s.regs.filter fun e =>
    !(decide (0x300000 ≤ e.1) && decide (e.1 < 0x330000) && (e.1 % 0x40 == 0x18 || e.1 % 0x40 == 0x1C || e.1 % 0x40 == 0x20)) }
  s.clearRegs 0x330100 8 6

/-- COUNT_CLEAR (R133): the six engine counters of an engine read zero. -/
def execCountClear (engine : Nat) (s : State) : Host.Outcome State Fault Refusal :=
  run (decide (engine < 144)) (fun s =>
    s.hostWrite (0x4800C0 + 0x400 * engine) fun s => s.clearEng engine 0x480080 6) s

/-- DRAIN_CLEAR (R166): the seven drain counters of an engine read zero. -/
def execDrainClear (engine : Nat) (s : State) : Host.Outcome State Fault Refusal :=
  run (decide (engine < 144)) (fun s =>
    s.hostWrite (0x4801C0 + 0x400 * engine) fun s => s.clearEng engine 0x480110 7) s

/-- NUM_CLEAR (R204): the thirteen NUM counters read zero. -/
def execNumClear (s : State) : Host.Outcome State Fault Refusal :=
  run true (fun s => s.hostWrite 0x801C0 fun s => s.clearRegs 0x80100 8 13) s

/-- RNG_CLEAR (R234): the seven RNG counters read zero. -/
def execRngClear (s : State) : Host.Outcome State Fault Refusal :=
  run true (fun s => s.hostWrite 0xA01C0 fun s => s.clearRegs 0xA0100 8 7) s

/-- QUE_CLEAR (R266): the four QUE counters read zero. -/
def execQueClear (s : State) : Host.Outcome State Fault Refusal :=
  run true (fun s => s.hostWrite 0x201C0 fun s => s.clearRegs 0x20100 8 4) s

/-- PORT_CLEAR (R401): a port's eleven counters read zero. -/
def execPortClear (port : Nat) (s : State) : Host.Outcome State Fault Refusal :=
  run (decide (port < 6)) (fun s =>
    s.hostWrite (0x1001C0 + 0x10000 * port) fun s => s.clearPort port) s

/-- FAB_CLEAR (R402): the five fabric counters read zero. -/
def execFabClear (s : State) : Host.Outcome State Fault Refusal :=
  run true (fun s => s.hostWrite 0x1602C0 fun s => s.clearRegs 0x160200 8 5) s

/-- CKP_CLEAR (R439): the eight CKP counters read zero. -/
def execCkpClear (s : State) : Host.Outcome State Fault Refusal :=
  run true (fun s => s.hostWrite 0xC01C0 fun s => s.clearRegs 0xC0100 8 8) s

/-- FOV_CLEAR (R473): the eleven FOV counters read zero. -/
def execFovClear (s : State) : Host.Outcome State Fault Refusal :=
  run true (fun s => s.hostWrite 0xE01C0 fun s => s.clearRegs 0xE0100 8 11) s

/-- UNIT_CLEAR (R546): the two UNIT counters read zero. -/
def execUnitClear (s : State) : Host.Outcome State Fault Refusal :=
  run true (fun s => s.hostWrite 0x4001C0 fun s => s.clearRegs 0x400100 8 2) s

/-- MGT_CLEAR (R547): the four MGT counters read zero. -/
def execMgtClear (s : State) : Host.Outcome State Fault Refusal :=
  run true (fun s => s.hostWrite 0x6001C0 fun s => s.clearRegs 0x600100 8 4) s

/-- EVT_CLEAR (R572): the three EVT counters read zero. -/
def execEvtClear (s : State) : Host.Outcome State Fault Refusal :=
  run true (fun s => s.hostWrite 0x101C0 fun s => s.clearRegs 0x10100 8 3) s

/-- BNK_CLEAR (R297): the six block counters and every bank's three counters read zero; LAST_ERROR and SCRUB_POS stay. -/
def execBnkClear (s : State) : Host.Outcome State Fault Refusal :=
  run true (fun s => s.hostWrite 0x3301C0 State.clearBnk) s

/-- MEM_CLEAR (R325): every counter of the block and of every window reads zero. -/
def execMemClear (s : State) : Host.Outcome State Fault Refusal :=
  run true (fun s => s.hostWrite 0x2007C0 State.clearMem) s

end Sys2Proof.Machine
end

