-- ==== Sys2Proof/Machine/Banks.lean ====
section
/-!
DEFINITION. The on-chip banks' own work (08_on_chip_banks.md) and the codes of the outer memories (R303 to R312, R320):
corrections, remapping, retirement, uncorrectable data; and the bank rows: line reads and writes, handovers, power states,
patrol scrub and the move of a degraded engine.
-/
namespace Sys2Proof.Machine

open Sys2Proof

/-- The valid bits of a bank's group g of 8 lines are uncorrectable (R285; what a read then does is DESIGN CHOICE, log entry 104). -/
def Bank.groupGone (x : Bank) (b g : Nat) (ups : Upsets) : Bool :=
  x.validBit && ups.any fun u => u.1 == 2 ^ 52 + 512 * b + g && decide (2 ≤ u.2)

/-- The standby bank of a cluster in force (R294, R297): the one marked, else the one BNK_STANDBY names. -/
def State.standbyOf (s : State) (c : Nat) : Nat :=
  let base := 2304 + 48 * c
  match (List.range 44).find? fun n => s.bf (base + n) Reg.bankStandby == 1 with
  | some n => base + n
  | none => base + bits 5 0 (s.rd (Reg.bnkStandby + 8 * (c / 8)) >>> (8 * (c % 8)))

/-- A bank that ran out of remap entries is marked FAILED and replaced (R291 step 2′, R294). -/
def State.bankFail (s : State) (b : Nat) : State :=
  let u := UId.bank b
  let s := (s.setBf b Reg.bankFailed 1).putUnit u US.failed Ev.bankFailed Src.device
  if b < 2304 then (s.event Ev.bankFailed u [0]).engineFail (b / 16) Ev.bankFailed
  else
    let t := s.standbyOf ((b - 2304) / 48)
    let inUse := t == b || (List.range 48).any fun n =>
      let o := 2304 + 48 * ((b - 2304) / 48) + n
      s.bf o Reg.bankAliasValid == 1 && s.bf o Reg.bankAlias == t
    if dualPort b || inUse then (s.event Ev.bankFailed u [0]).declareFailed 0x7104 u
    else
      let s := (s.event Ev.bankFailed u [UId.bank t]).initBank t
      let s := s.setBank t { s.bank t with holders := (s.bank b).holders }
      let s := ((s.setBf t Reg.bankLocked (s.bf b Reg.bankLocked)).setBf t Reg.bankAddOpen (s.bf b Reg.bankAddOpen)).wrBank t
        Reg.ownerA (s.owner b 0)
      (s.setBf b Reg.bankAlias t).setBf b Reg.bankAliasValid 1

/-- An uncorrectable byte of a bank: counted, recorded, and its word remapped or its bank failed (R281, R291). -/
def State.uncorrByte (s : State) (b byte : Nat) : State :=
  let s := s.noteUncorrByte b byte
  match s.remapWord b (byte / 8) with
  | (true, s) => s.voidWord b byte
  | (false, s) => s.bankFail b

/-! ### HBM rows (R303 to R309) -/

/-- Show a stack's remap and retired counts (Table 9.11) and note the change for the health record (R310). -/
def State.showRemap (s : State) (i : Nat) : State :=
  let x := s.stack i
  let s := (s.setStackF i Reg.stackRemapUsed x.remap.length).setStackF i Reg.stackRetired x.retired.length
  { s with sec := { s.sec with healthDirty := true } }

/-- The stack's retired list is full: it is FAILED, and the device declares itself failed (R309). -/
def State.stackFull (s : State) (i : Nat) : State :=
  (s.putUnit (UId.stack i) US.failed Ev.pageRetired Src.device).declareFailed 0x7103 (UId.stack i)

/-- Retire the page of a row (R309): the device fails once the list of 256 is full, and nothing joins a full list. -/
def State.retireRow (s : State) (a : Nat) : State :=
  let i := hbmStack a
  let x := s.stack i
  let e : RowEntry := { ppr := false, spare := 0, pc := hbmPc a, row := hbmRow a }
  if x.retired.any fun r => r.pc == e.pc && r.row == e.row then s
  else if 256 ≤ x.retired.length then s.stackFull i
  else
    let s := (s.setStack i { x with retired := x.retired ++ [e] }).showRemap i
    let s := s.event Ev.pageRetired (UId.stack i) [hbmPage a % 2 ^ 32, hbmPage a / 2 ^ 32]
    if 256 ≤ x.retired.length + 1 then s.stackFull i else s

/-- The lowest spare row of a pseudo channel that no bit of the mask holds. -/
def freeSpare (mask : Nat) : Option Nat := (List.range 16).find? fun k => !mask.testBit k

/-- Void a sector or line: its content is gone (R304, R320). -/
def State.voidUnit (s : State) (k a : Nat) : State :=
  ({ s with voided := SMap.put s.voided (a / k * k) true }).zeroBytes (a / k * k) k

/-- The bases that the mirror source keeps here, by the book it has here for P: offset in the region, length, tensor (R418, R429). -/
def State.heldBases (s : State) : List (Nat × Nat × Nat) :=
  let b := s.ckp.mirrorBase
  ((List.range (s.num (b + 20) 4)).map fun i => s.bytes (b + 128 + 80 * i) 32).filterMap fun e =>
    if bits 7 6 (fieldLE e 3 1) = 1 then some (fieldLE e 24 8, fieldLE e 16 8, fieldLE e 4 4) else none

/-- Uncorrectable data in a region that the device holds for others loses that protection copy: the voided sector fails every fill from
it, and one event names its owner and tensor (R313). A parity block holds parts of many tensors: tensor 0 (log entry 131). -/
def State.protectionLost (s : State) (a unit : Nat) : State :=
  let c := s.ckp
  if c.mirrorBase ≤ a ∧ a < c.mirrorBase + c.mirrorSize then
    let off := a - c.mirrorBase
    let hit := s.heldBases.find? fun e => decide (e.1 ≤ off) && decide (off < e.1 + e.2.1)
    s.event Ev.protectionLost unit [s.fld Reg.mirrorSource, (hit.map (·.2.2)).getD 0]
  else if c.parityBase ≤ a ∧ a < c.parityBase + c.paritySize then
    let upper := decide (c.parityBase + c.paritySize / 2 ^ 22 * 2 ^ 21 ≤ a)
    let c := if upper = c.parityUpper then { c with stored := false } else { c with staged := false }
    { s with ckp := c }.event Ev.protectionLost unit [s.fld Reg.parityRunStart, 0]
  else s

/-- Remap the row of an address to a free spare row of its pseudo channel, or retire it (R308, R309). A sector that the copy finds
uncorrectable is voided in it. A row remapped once more leaves its spare row for good and keeps PPR_TRIED. -/
def State.remapRow (s : State) (a : Nat) (ups : Upsets) : State :=
  let i := hbmStack a
  let x := s.stack i
  let mine := fun (r : RowEntry) => r.pc == hbmPc a && r.row == hbmRow a
  match freeSpare (SMap.get 0 x.spares (hbmPc a)) with
  | some k =>
    if x.remap.any mine ∨ x.remap.length < 256 then
      let e : RowEntry := { ppr := false, spare := k, pc := hbmPc a, row := hbmRow a }
      let remap := if x.remap.any mine then x.remap.map fun r => if mine r then { r with spare := k } else r else x.remap ++ [e]
      let spares := SMap.set 0 x.spares (hbmPc a) (SMap.get 0 x.spares (hbmPc a) ||| 2 ^ k)
      let s := (s.setStack i { x with remap, spares }).showRemap i
      let gone := ((ups.filter fun u => hbmPage u.1 == hbmPage a && decide (9 ≤ u.2)).map (·.1 / 256 * 256)).eraseDups
      (gone.filter fun q => !SMap.get false s.voided q).foldl (fun s q =>
        ((s.addStackF i Reg.stackUncorr 1).event Ev.uncorrectable (UId.stack i) [q % 2 ^ 32, q / 2 ^ 32] St.uncorrectable
          |>.voidUnit 256 q).protectionLost q (UId.stack i)) s
    else s.retireRow a
  | none => s.retireRow a

/-- A corrected sector (R303, R307). -/
def State.correctSector (s : State) (a symbols : Nat) (ups : Upsets) : State :=
  let i := hbmStack a
  let key := (hbmPc a, hbmRow a)
  let s := s.addStackF i Reg.stackCorrected 1
  let s := if 3 ≤ symbols then s.addStackF i Reg.stackHeavy 1 else s
  let x := s.stack i
  if 3 ≤ symbols ∨ x.tracker.contains key then
    (s.setStack i { x with tracker := x.tracker.filter (· != key) }).remapRow a ups
  else s.setStack i { x with tracker := (key :: x.tracker).take 64 }

/-- An uncorrectable sector: counted, voided, its row remapped or retired (R303, R307, R312). -/
def State.uncorrSector (s : State) (a : Nat) (ups : Upsets) : State :=
  let i := hbmStack a
  let s : State := { s with badAt := a }
  let s := (s.addStackF i Reg.stackUncorr 1).event Ev.uncorrectable (UId.stack i) [a % 2 ^ 32, a / 2 ^ 32]
    St.uncorrectable
  ((s.voidUnit 256 a).remapRow a ups).protectionLost a (UId.stack i)

/-- Corrections by the stacks' on-die ECC that accompany an access are counted (R300). -/
def State.dieReports (s : State) (ups : Upsets) : State :=
  (List.range 8).foldl (fun s i =>
    let n := ((ups.filter (·.1 == 2 ^ 53 + i)).map (·.2)).foldl (· + ·) 0
    if n = 0 then s else s.addStackF i Reg.stackDie n) s

/-! ### DDR lines (R320) -/

/-- A corrected line; the rows that hold repeated corrections are listed for repair. -/
def State.correctLine (s : State) (a devices : Nat) : State :=
  let c := s.ddrChannel a
  let s := s.addChanF c Reg.ddrCorrected 1
  let s := if devices = 2 then s.addChanF c Reg.ddrDeviceCorr 1 else s
  let x := s.channel c
  let row := a / 4096
  if x.corrected.contains row then
    let s := s.setChannel c { x with repair := if x.repair.contains row then x.repair else x.repair ++ [row] }
    { s with sec := { s.sec with healthDirty := true } }
  else s.setChannel c { x with corrected := x.corrected ++ [row] }

/-- An uncorrectable line retires its 4 KiB page (R320, in the way of R309). -/
def State.uncorrLine (s : State) (a : Nat) : State :=
  let c := s.ddrChannel a
  let u := UId.channel c
  let page := a / 4096 * 4096
  let s : State := { s with badAt := a }
  let s := (s.addChanF c Reg.ddrUncorr 1).event Ev.uncorrectable u [a % 2 ^ 32, a / 2 ^ 32] St.uncorrectable
  let s := s.voidUnit 64 a
  let x := s.channel c
  let s :=
    if x.retired.contains page then s
    else if 256 ≤ x.retired.length then (s.putUnit u US.failed Ev.pageRetired Src.device).declareFailed 0x7103 u
    else
      let s := (s.setChannel c { x with retired := x.retired ++ [page] }).addChanF c Reg.ddrRetired 1
      let s := { s with sec := { s.sec with healthDirty := true } }
      let s := s.event Ev.pageRetired u [page % 2 ^ 32, page / 2 ^ 32]
      if 256 ≤ x.retired.length + 1 then (s.putUnit u US.failed Ev.pageRetired Src.device).declareFailed 0x7103 u else s
  s.protectionLost a u

/-! ### An access with the errors it meets -/

/-- The codes of every unit an access decodes: corrections first, then the first uncorrectable one ends it. `whole` lists
nothing to decode: a write of whole units (R281, R302, R320). -/
def State.meet (s : State) (a n : Nat) (write : Bool) (ups : Upsets) : Nat × State :=
  match s.tierOf a n with
  | some .bank =>
    if write then (0, s)
    else
      let loc := fun (u : Nat × Nat) => (s.storeAddr u.1 / 0x40000, s.storeAddr u.1 % 0x40000)
      let hit := ups.filter fun u => a / 64 * 64 ≤ u.1 && u.1 < (a + n + 63) / 64 * 64 && (s.bank (loc u).1).decodes (loc u).2
      let dead := fun u => (s.bank (loc u).1).breaks (loc u).2 u.2
      let group := ((unitsOf 64 a n).map fun l => loc (max a l, 0)).find? fun p => (s.bank p.1).groupGone p.1 (p.2 / 512) ups
      let s := s.correctBytes ((hit.filter fun u => u.2 == 1 && !dead u).map loc)
      (match group.or ((hit.find? dead).map loc) with
       | some p => (St.uncorrectable, s.uncorrByte p.1 p.2)
       | none => (0, s))
  | some .hbm =>
    let s := s.dieReports ups
    let hit := ups.filter fun u =>
      let q := u.1 / 256 * 256
      q < a + n && a < q + 256 && (!write || q < a || a + n < q + 256)
    let s := hit.foldl (fun s u => if 1 ≤ u.2 ∧ u.2 ≤ 8 then s.correctSector u.1 u.2 ups else s) s
    (match hit.find? fun u => 9 ≤ u.2 && !SMap.get false s.voided (u.1 / 256 * 256) with
     | some u => (St.uncorrectable, s.uncorrSector u.1 ups)
     | none => (if hit.any (fun u => 9 ≤ u.2) then St.uncorrectable else 0, s))
  | some .ddr =>
    let hit := ups.filter fun u =>
      let q := u.1 / 64 * 64
      q < a + n && a < q + 64 && (!write || q < a || a + n < q + 64)
    let s := hit.foldl (fun s u => if 1 ≤ u.2 ∧ u.2 ≤ 2 then s.correctLine u.1 u.2 else s) s
    (match hit.find? fun u => 3 ≤ u.2 with
     | some u => (St.uncorrectable, s.uncorrLine u.1)
     | none => (0, s))
  | _ => (0, s)

/-- A read with the errors it meets: status, bytes, state (R269, R281, R284, R302, R320). -/
def State.accessRead (s : State) (r : Requester) (a n : Nat) (add : Bool) (ups : Upsets) : Nat × List Byte × State :=
  match s.openRange r a n false add with
  | (0, s) =>
    (match s.meet a n false ups with
     | (0, s) =>
       if s.tierOf a n = some .bank then
         match s.firstUndefined a n with
         | some c => (St.unwritten, [], s.noteUnwritten (s.storeAddr c / 0x40000) (s.storeAddr c % 0x40000))
         | none => (0, (List.range n).map fun i => s.byte (s.storeAddr (a + i)), s)
       else (0, s.bytes a n, s)
     | (st, s) => (st, [], s))
  | (st, s) => (st, [], s)

/-- A write with the errors its read-modify-write meets. -/
def State.accessWrite (s : State) (r : Requester) (a : Nat) (bs : List Byte) (ups : Upsets) : Nat × State :=
  match s.openRange r a bs.length true false with
  | (0, s) =>
    (match s.meet a bs.length true ups with
     | (0, s) => (0, s.storeBytes a bs)
     | r => r)
  | r => r

/-- The requester a command names for an access to some ranges, with the job of its operation. A bank address outside the tensors that
the cue names is not the job's to touch (R275). -/
def State.requesterOf (s : State) (w : Sender) (at' : List (Nat × Nat)) : Requester :=
  let o := w.op.bind fun i => SMap.find s.ops i
  let within := fun (o : OpSlot) => at'.all fun e => decide (0x3000_0000 ≤ e.1) || (o.cue.job.bind s.job).any fun j =>
    (j.cueRanges o.cue).any fun r => decide (r.1 ≤ e.1) && decide (e.1 + e.2 ≤ r.1 + r.2)
  ⟨w.kind, w.index, o.bind fun o => if within o then o.cue.job else none⟩

/-- The requester of an access of n bytes at a. -/
def State.requester (s : State) (w : Sender) (a n : Nat) : Requester := s.requesterOf w [(a, n)]

/-- Owner kinds and indices of R271 that an access can come from. -/
def senderOk (w : Sender) : Bool :=
  match w.kind with
  | 1 => w.index < 144
  | 2 => w.index < 16
  | 3 => w.index < 64
  | 4 => w.index < 6
  | 5 | 6 => w.index == 0
  | _ => false

/-- Answer an access at the boundary, and abort the operation it was for if it failed (R273, R284, R291). -/
def State.answer (s : State) (w : Sender) (status a : Nat) (bs : List Byte) : State :=
  let s := s.emit (.access status bs)
  match w.op with
  | some i => if status = 0 then s else s.opAbortAt i status a
  | none => s

/-! ### The rows -/

/-- A line access lies within one line of bank space (R268, R269). -/
def lineOk (a n : Nat) : Bool := a + n ≤ 0x3000_0000 && 0 < n && a % 64 + n ≤ 64

/-- BANK_READ (R269): a port accepts a read within one line and returns it, corrected. -/
def execBankRead (who : Sender) (addr len : Nat) (ups : Upsets) (s : State) : Host.Outcome State Fault Refusal :=
  run (senderOk who && lineOk addr len) (fun s =>
    let (st, bs, s) := s.accessRead (s.requester who addr len) addr len false ups
    s.answer who st addr bs) s

/-- BANK_WRITE (R269): a masked write within one line; cells are byte positions of the line at `line` and values. -/
def execBankWrite (who : Sender) (line : Nat) (cells : List (Nat × Byte)) (s : State) :
    Host.Outcome State Fault Refusal :=
  run (senderOk who && line % 64 == 0 && lineOk line 64 && cells.all fun c => c.1 < 64) (fun s =>
    let (st, s) := s.openRange (s.requesterOf who (cells.map fun c => (line + c.1, 1))) line 64 true false
    if st = 0 then (cells.foldl (fun s c => s.storeBytes (line + c.1) [c.2]) s).answer who 0 line []
    else s.answer who st line []) s

/-- A request for a new owner of a port (R274), written as `raw`. -/
def State.ownerWrite (s : State) (bank port kind index raw : Nat) : State :=
  let off := Reg.ownerA + 0x40 * bank + 4 * port
  let w := s.owner bank port
  if port = 1 ∧ !dualPort bank then s
  else if s.bf bank Reg.bankLocked = 1 then s.discardWrite off raw 3
  else if !(senderOk ⟨kind, index, none⟩ || (kind == 0 && index == 0)) then s.discardWrite off raw 2
  else if bitAt 27 w then s.discardWrite off raw 3
  else if bits 10 8 w = kind ∧ bits 7 0 w = index then s
  else s.wrOwner bank port (setBits 27 16 (2 ^ 11 + kind * 256 + index) w)

/-- BANK_OWNER_WRITE (R274): a host write of NEW_KIND and NEW_INDEX starts a handover. -/
def execBankOwnerWrite (bank port kind index : Nat) (s : State) : Host.Outcome State Fault Refusal :=
  run (decide (bank < 3072) && decide (port < 2) && decide (kind < 8) && decide (index < 256)) (fun s =>
    s.hostWrite (Reg.ownerA + 0x40 * bank + 4 * port) fun s => s.ownerWrite bank port kind index (kind * 2 ^ 24 + index * 2 ^ 16)) s

/-- HANDOVER_COMPLETE (R274): the old owner's accepted requests have completed. -/
def execHandoverComplete (bank port : Nat) (s : State) : Host.Outcome State Fault Refusal :=
  run (decide (bank < 3072) && decide (port < 2)) (fun s =>
    if bitAt 27 (s.owner bank port) then s.handOver bank port else s) s

/-- A request for a power state (R275, R277, Table 8.5), written as `raw`. -/
def State.powerWrite (s : State) (bank req raw : Nat) : State :=
  let off := 0x300008 + 0x40 * bank
  if s.bf bank Reg.bankLocked = 1 then s.discardWrite off raw 3
  else if req = 3 then s.discardWrite off raw 2
  else if req = 2 ∧ (bits 10 8 (s.owner bank 0) ≠ 0 ∨ (dualPort bank ∧ bits 10 8 (s.owner bank 1) ≠ 0)) then
    s.discardWrite off raw 3
  else
    let s := s.setBf bank Reg.bankReq req
    if s.bf bank Reg.bankState = req then s else s.setBf bank Reg.bankState 3

/-- BANK_POWER_REQUEST (R277). -/
def execBankPowerRequest (bank req : Nat) (s : State) : Host.Outcome State Fault Refusal :=
  run (decide (bank < 3072) && decide (req < 4)) (fun s =>
    s.hostWrite (0x300008 + 0x40 * bank) fun s => s.powerWrite bank req req) s

/-- A bank loses power: its data and its correction tracker are gone (Table 8.1). -/
def State.bankOff (s : State) (b : Nat) : State :=
  let x := s.bank b
  (s.setBank b { x with defined := [], tracker := [], lost := true }).zeroBytes (b * 0x40000) 0x40000

/-- BANK_POWER_STATE_ENTRY (R277): the bank's accepted requests have completed and it enters RETENTION or OFF. -/
def execBankPowerStateEntry (bank : Nat) (s : State) : Host.Outcome State Fault Refusal :=
  run (decide (bank < 3072)) (fun s =>
    let req := s.bf bank Reg.bankReq
    if s.bf bank Reg.bankState ≠ 3 then s
    else if req = 1 ∧ !(s.bank bank).lost then s.setBf bank Reg.bankState 1
    else if req = 2 then
      let s := (s.bankOff bank).setBf bank Reg.bankState 2
      if s.unitRaw (UId.bank bank) = US.idle then s.putUnit (UId.bank bank) US.off Ev.unitState Src.host else s
    else s) s

/-- BANK_POWER_UP_DONE (R277, R282): a bank that is powering up is initialised if it was off, and enters ON; one asked for
RETENTION enters it from there by BANK_POWER_STATE_ENTRY. -/
def execBankPowerUpDone (bank : Nat) (s : State) : Host.Outcome State Fault Refusal :=
  run (decide (bank < 3072)) (fun s =>
    let req := s.bf bank Reg.bankReq
    if s.bf bank Reg.bankState = 3 ∧ (req = 0 ∨ (s.bank bank).lost) then
      let s := if (s.bank bank).lost then s.initBank bank else s
      let s := if req = 1 then s else s.setBf bank Reg.bankState 0
      if s.unitRaw (UId.bank bank) = US.off then s.putUnit (UId.bank bank) US.idle Ev.unitState Src.host else s
    else s) s

/-- Scrub reaches a bank's last word: the round is over once every bank that is not OFF has been read (R290, R297). -/
def State.scrubRound (s : State) (bank : Nat) : State :=
  let s := s.setBank bank { s.bank bank with scrubbed := true }
  if (List.range 3072).all fun b => s.bf b Reg.bankState == 2 || (s.bank b).scrubbed then
    ((List.range 3072).foldl (fun s b =>
      if (s.bank b).scrubbed then s.setBank b { s.bank b with scrubbed := false } else s) s).inc Reg.bnkScrubRounds
  else s

/-- BANK_PATROL_SCRUB (R290): scrub reads the next word of a bank. Banks in OFF, invalid lines and bytes that hold the exact
unwritten pattern are skipped; an uncorrectable word of a bank with an owner is handled under R291. That of a bank without one
is remapped if an entry is free and recorded, with no further action. -/
def execBankPatrolScrub (bank : Nat) (ups : Upsets) (s : State) : Host.Outcome State Fault Refusal :=
  run (decide (bank < 3072)) (fun s =>
    if s.bf bank Reg.bankState = 2 then s
    else
      let w := s.bf bank Reg.bankScrubPos
      let x := s.bank bank
      let hit := ups.filter fun u => u.1 / 8 == w && u.1 < 0x40000 && x.decodes u.1
      let gone := if x.groupGone bank (w / 64) ups then some (8 * w, 2) else hit.find? fun u => x.breaks u.1 u.2
      let s := s.setBf bank Reg.bankScrubPos ((w + 1) % 32768)
      let s := if w = 32767 then s.scrubRound bank else s
      let s : State := if (hit.isEmpty ∧ gone.isNone) ∨ s.sec.words.contains (bank * 32768 + w) then s
        else { s with sec := { s.sec with words := (s.sec.words ++ [bank * 32768 + w]).take 1024, healthDirty := true } }
      let s := s.correctBytes ((hit.filter fun u => u.2 == 1 && !x.breaks u.1 u.2).map fun u => (bank, u.1))
      match gone with
      | some u =>
        if bits 10 8 (s.owner bank 0) = 0 ∧ (!dualPort bank ∨ bits 10 8 (s.owner bank 1) = 0) then
          let s := ((s.addBf bank Reg.bankUncorr 1).inc Reg.bnkUncorr).wrBank bank Reg.bankLastError
            (2 * 2 ^ 28 + u.1)
          match s.remapWord bank w with
          | (true, s) => (s.voidWord bank u.1).event Ev.scrubRemap (UId.bank bank) [w]
          | (false, s) => s.event Ev.scrubRemap (UId.bank bank) [w]
        else x.holders.foldl (fun s j => s.badData j bank (UId.bank bank)) (s.uncorrByte bank u.1)
      | none => s) s

/-- DEGRADED_ENGINE_MOVE (R288): at a step boundary an engine with a degraded bank gives its role to its cluster's spare
and is fenced until reset; without a spare it goes on and the event says so. -/
def execDegradedEngineMove (engine : Nat) (s : State) : Host.Outcome State Fault Refusal :=
  run (decide (engine < 144)) (fun s =>
    let worn := (engineBanks engine).find? fun b => s.bf b Reg.bankDegraded == 1
    let boundary := !(s.jobs.any fun j => j.2.isOpen)
    match worn with
    | some b =>
      if s.fld Reg.moveDegraded = 1 ∧ boundary ∧ s.engSt engine = US.active then
        match s.spareOf (engine / 9) with
        | some sp =>
          let (ups, s) := s.copyErrors
          let s := s.aliasBanks engine sp ups
          let s := s.event Ev.bankDegraded (UId.bank b) [UId.engine engine, UId.engine sp]
          let s := (s.setUnit (UId.engine sp) US.active Ev.bankDegraded Src.device).rerunTiles engine sp
          s.setUnit (UId.engine engine) US.fenced Ev.bankDegraded Src.device
        | none => s.event Ev.bankDegraded (UId.bank b) [UId.engine engine, 0]
      else s
    | none => s) s

end Sys2Proof.Machine
end

