-- ==== Sys2Proof/Machine/Atomics.lean ====
section
/-!
DEFINITION. The atomic operations of Table 8.2, in banks and in HBM (R278 to R280, R306), and the exact row add of R159.
-/
namespace Sys2Proof.Machine

open Sys2Proof

/-- What stops an atomic before its bytes: alignment, the address map, the tiers without atomic units (R278, R298, R306). -/
def State.atomicOpen (s : State) (a n align : Nat) : Nat :=
  if a % align ≠ 0 then St.align
  else match s.tierOf a n with
  | none => St.address
  | some .ddr | some .far => St.atomicTier
  | _ => 0

/-- An atomic request applied in HBM is counted (Table 9.7). -/
def State.countAtomic (s : State) (a : Nat) (sat : Bool) : State :=
  if a < hbmBase then s
  else
    let s := s.inc Reg.atomicOps
    if sat then s.inc Reg.atomicSat else s

/-- Who makes an atomic access: an add goes through ADD_OPEN for any unit working for the job (R272), another access, or an add where
ADD_OPEN is clear, for the cue that names the bytes (R275). -/
def State.adder (s : State) (w : Sender) (a n : Nat) (add : Bool) : Requester :=
  if add ∧ a < 0x3000_0000 ∧ s.bf (s.served1 (a / 0x40000)) Reg.bankAddOpen = 1 then ⟨w.kind, w.index, (w.op.bind fun i => SMap.find s.ops i).bind fun o => o.cue.job⟩ else s.requester w a n

/-- An atomic on one operand of n bytes: f gives the new value and whether it saturated. The old value goes back when it is
asked for. -/
def State.atomic (s : State) (w : Sender) (a n : Nat) (add want : Bool) (ups : Upsets) (f : Nat → Nat × Bool) : State :=
  match s.atomicOpen a n n with
  | 0 =>
    (match s.accessRead (s.adder w a n add) a n add ups with
     | (0, old, s) =>
       let (new, sat) := f (leNat old)
       let s := (s.storeBytes a (leBytes n new)).countAtomic a sat
       s.emit (.access (if sat then St.saturated else 0) (if want then old else []))
     | (st, _, s) => s.answer w st a [])
  | st => s.answer w st a []

/-- Mark a job non-reproducible for the rest of the job (R258). -/
def State.markNonrepro (s : State) (slot : Option Nat) : State :=
  match slot with
  | some j => s.setJf j Reg.jobNonrepro 1
  | none => s

/-- The job that an F32 add concerns: the requester's, or that of the bank. -/
def State.addJob (s : State) (r : Requester) (a : Nat) : Option Nat :=
  r.job.or (if a < 0x3000_0000 then (s.bank (s.served1 (a / 0x40000))).holders.head? else s.runningSlot)

/-- ADD_SATURATED, once for each target tile in each step (R159, R567). -/
def State.noteAddSat (s : State) (slot : Option Nat) (a tile : Nat) (torus : Bool) (coord : Nat) : State :=
  let u := (s.placeOf a).2
  let args := [tile % 2 ^ 32, tile / 2 ^ 32, b2n torus, coord]
  match slot.bind fun j => (s.job j).map fun x => (j, x) with
  | some (j, x) =>
    if x.addSat.contains tile then s.suppress Ev.addSaturated u
    else (s.setJob j { x with addSat := tile :: x.addSat }).event Ev.addSaturated u args
  | none => s.event Ev.addSaturated u args

/-- Merge of a row's header information into the target's (R159). -/
def TileHdr.merge (h : TileHdr) (i : RowInfo) (ovf : Bool) (lost : Nat) : TileHdr :=
  { h with ovf := h.ovf || i.ovf || ovf, nv := h.nv || i.nv, bound := h.bound || i.bound
           retries := max h.retries i.retries, lost := min (h.lost + i.lost + lost) (2 ^ 32 - 1) }

/-- A row add of A64 elements (R159): re-expressed to the target's ET, added with saturation, the header merged; all of it
or none (R279). A header of a later version is rejected (R13; log entry 66). Status, whether a sum saturated, state. -/
def State.addRow (s : State) (r : Requester) (hdr : Option Nat) (a : Nat) (i : RowInfo) (xs : List Int) (torus : Bool)
    (coord : Nat) (ups : Upsets) : Nat × Bool × State :=
  let n := 8 * xs.length
  let st := s.atomicOpen a n 8
  if st ≠ 0 then (st, false, s)
  else
    match (match hdr with
      | some h =>
        (match s.atomicOpen h 32 8 with
         | 0 => s.accessRead r h 32 true ups
         | e => (e, [], s))
      | none => (0, [], s)) with
    | (0, hb, s) =>
      if hdr.isSome ∧ formStatus hb ≠ 0 then (St.version, false, s)
      else
      (match s.accessRead r a n true ups with
       | (0, old, s) =>
         let h := tileHdrOf hb
         let et := if hdr.isSome then h.et else i.et
         let moved := xs.map fun x => if et = i.et then (x, 0, false) else reexpress i.et et x
         let sums := (moved.zip (leWords 8 xs.length old)).map fun p => clampA64 (sext 64 p.2 + p.1.1)
         let sat := sums.any (·.2)
         let lost := moved.foldl (fun n m => n + m.2.1) 0
         let s := s.storeBytes a (sums.flatMap fun x => leBytes 8 (twos 64 x.1))
         let s := match hdr with
           | some ha =>
             let h := h.merge i (sat || moved.any (·.2.2)) lost
             s.storeBytes ha (h.bytes.take 32)
           | none => s
         let s := if sat then s.noteAddSat (s.addJob r a) a (hdr.getD a) torus coord else s
         (0, sat, s.countAtomic a sat)
       | (e, _, s) => (e, false, s))
    | (e, _, s) => (e, false, s)

/-- Operands of an atomic that name a sender of the device. -/
def atomicOk (w : Sender) : Bool := senderOk w

/-- ADD_W32: sum modulo 2^32 (R278). -/
def execAddW32 (who : Sender) (addr v : Nat) (want : Bool) (ups : Upsets) (s : State) :
    Host.Outcome State Fault Refusal :=
  run (atomicOk who) (fun s => s.atomic who addr 4 true want ups fun old => ((old + v) % 2 ^ 32, false)) s

/-- ADD_W64: sum modulo 2^64 (R278). -/
def execAddW64 (who : Sender) (addr v : Nat) (want : Bool) (ups : Upsets) (s : State) :
    Host.Outcome State Fault Refusal :=
  run (atomicOk who) (fun s => s.atomic who addr 8 true want ups fun old => ((old + v) % 2 ^ 64, false)) s

/-- ADD_I32: exact sum, saturating under R43; SAT status on saturation (R278). -/
def execAddI32 (who : Sender) (addr v : Nat) (ups : Upsets) (s : State) : Host.Outcome State Fault Refusal :=
  run (atomicOk who) (fun s => s.atomic who addr 4 true false ups fun old =>
    let (x, sat) := satSum 32 (sext 32 old) (sext 32 v)
    (twos 32 x, sat)) s

/-- ADD_A64: one element, or one row with its tile header update (R159, R278). -/
def execAddA64 (who : Sender) (hdr : Option Nat) (addr : Nat) (info : RowInfo) (elems : List Int) (ups : Upsets)
    (s : State) : Host.Outcome State Fault Refusal :=
  run (atomicOk who && decide (0 < elems.length) && decide (elems.length ≤ 256)) (fun s =>
    let (st, sat, s) := s.addRow (s.adder who addr (8 * elems.length) true) hdr addr info elems false s.coord ups
    if st = 0 then s.emit (.access (if sat then St.saturated else 0) []) else s.answer who st addr []) s

/-- ADD_F32: RNE sum (R160, R278); it marks the job non-reproducible (R258). -/
def execAddF32 (who : Sender) (addr v : Nat) (ups : Upsets) (s : State) : Host.Outcome State Fault Refusal :=
  run (atomicOk who) (fun s =>
    let r := s.adder who addr 4 true
    match s.atomicOpen addr 4 4 with
    | 0 =>
      (match s.accessRead r addr 4 true ups with
       | (0, old, s) =>
         let x := f32Code (fadd (f32Val (leNat old)) (f32Val (v % 2 ^ 32)))
         (((s.storeBytes addr (leBytes 4 x)).countAtomic addr false).markNonrepro (s.addJob r addr)).emit (.access 0 [])
       | (st, _, s) => s.answer who st addr [])
    | st => s.answer who st addr []) s

/-- SWAP32: stores the new value and returns the old one (R278). -/
def execSwap32 (who : Sender) (addr v : Nat) (ups : Upsets) (s : State) : Host.Outcome State Fault Refusal :=
  run (atomicOk who) (fun s => s.atomic who addr 4 false true ups fun _ => (v % 2 ^ 32, false)) s

/-- SWAP64: stores the new value and returns the old one (R278). -/
def execSwap64 (who : Sender) (addr v : Nat) (ups : Upsets) (s : State) : Host.Outcome State Fault Refusal :=
  run (atomicOk who) (fun s => s.atomic who addr 8 false true ups fun _ => (v % 2 ^ 64, false)) s

end Sys2Proof.Machine
end

