-- ==== Sys2Proof/Machine/Queue.lean ====
section
/-!
DEFINITION. Queues, doorbells, fetching, issue and completion of cues, completion records and interrupts (R235 to R244,
R259, R261, R263, R484 to R488).
-/
namespace Sys2Proof.Machine

open Sys2Proof

/-! ### Phases of a step (R241, R250) -/

/-- The job slot that holds the job a JOB_ID names (R245). -/
def State.jobOf (s : State) (id : Nat) : Option Nat :=
  (List.range 4).find? fun j => s.jf j Reg.jobState != 0 && (s.job j).isSome && s.jf j Reg.jobId == id

/-! ### Fetch (R238, R241) -/

/-- Epoch of the next attempt to open: the one after the open attempt if that commits (R249, R259). -/
def State.nextEpoch (s : State) (slot : Nat) : Nat :=
  match s.job slot with
  | some j =>
    if j.isOpen then (s.jf slot Reg.jobStep + 1) % 2 ^ 24 * 256
    else s.jf slot Reg.jobStep % 2 ^ 24 * 256 + s.jf slot Reg.jobAttempt
  | none => 0

/-- Give a posted cue its attempt (R244, R259, R263); one that comes while no attempt is open joins the next. A control cue belongs to
an attempt if its PHASE is FWD to UPDATE (R242, R244). -/
def State.bindCue (s : State) (c : CueRec) (slot : Nat) : CueRec :=
  let opened := match s.job slot with
    | some j => j.isOpen
    | none => false
  let step := s.jf slot Reg.jobStep
  if 0x40 ≤ c.opcode ∧ !c.runahead ∧ (c.phase = phNone ∨ c.phase = phEval) then { c with job := some slot }
  else if c.phase = phEval then { c with job := some slot, epoch := some matineeEpoch, step }
  else if c.runahead ∨ (c.phase ≠ phNone ∧ !opened) then
    { c with job := some slot, epoch := some (s.nextEpoch slot), ahead := true, step := if opened then step + 1 else step }
  else if c.phase ≠ phNone then { c with job := some slot, epoch := some (s.slotEpoch slot), step }
  else { c with job := some slot }

/-- What R235 and R240 ask of a posted cue beyond its form. -/
def State.postChecks (s : State) (c : CueRec) (slot : Option Nat) : List (Nat × Nat × Bool) :=
  let n := ((slot.bind s.job).map (·.program.length)).getD 0
  let dep := fun o => c.op o 4 != noIndex && decide (n ≤ c.op o 4)
  [ (4, St.jobId, c.opcode != cJobLoad && slot.isNone), (8, St.range, c.index != noIndex),
    (20, St.dependency, dep 20), (24, St.dependency, dep 24), (28, St.dependency, dep 28) ]

/-- A cue is rejected when it is fetched: counted, and completed with its status (R235). -/
def State.rejectCue (s : State) (c : CueRec) (r : Nat × Nat) : State :=
  (s.inc Reg.cuesRejected).cueRecord c r.1 r.2 c.tag true

/-- Two cues of one queue; the program queue and the MATINEE section of a job are queues of their own (R239). -/
def sameQueue (c d : CueRec) : Bool :=
  c.queue == d.queue && (c.queue.isSome || (c.job == d.job && (c.epoch == some matineeEpoch) == (d.epoch == some matineeEpoch)))

/-- An earlier cue of the same queue has not completed (R240). -/
def State.behind (s : State) (c : CueRec) : Bool :=
  s.waiting.any (fun d => sameQueue c d && decide (d.id < c.id))
    || s.ops.any fun e => sameQueue c e.2.cue && decide (e.2.cue.id < c.id)

/-- Cues in a job's hold store (R241). -/
def State.holdUsed (s : State) (slot : Nat) : Nat := s.waiting.countP fun c => c.held && c.job == some slot

/-- A bound cue of an ordinary queue that would go to the hold store: its phase is not open, or no attempt is. -/
def State.wouldHold (s : State) (c : CueRec) : Bool :=
  match c.job with
  | some slot => (match s.job slot with
    | some j => c.ahead || (c.ofAttempt slot && s.closed slot j c.phase)
    | none => false)
  | none => false

/-- Take a fetched and accepted cue into the waiting list. -/
def State.enqueue (s : State) (c : CueRec) (held : Bool) : State :=
  let s := { s with waiting := s.waiting ++ [{ c with held }] }
  if held then s.inc Reg.cuesHeld else s

/-- The record of a cue just read from a ring or a section. -/
def State.freshCue (s : State) (raw : List Byte) (queue job epoch : Option Nat) (step : Nat) : CueRec :=
  { id := s.nextCue, raw, queue, job, epoch, step, ahead := false, held := false }

/-- A FENCE cue behind a cue of its queue is checked against the loaded jobs only when it issues, since the earlier cue may
load its job (R242). -/
def State.checksLater (s : State) (c : CueRec) : Bool := (s.jobOf c.jobId).isNone && c.fence && s.behind c

/-- One cue read from the ring of queue q: checked, bound, and queued, held or rejected. None if its job's hold store is
full, so that it stays in the ring. -/
def State.acceptCue (s : State) (q : Nat) (raw : List Byte) : Option State :=
  let c := s.freshCue raw (some q) none none 0
  let slot := s.jobOf c.jobId
  let director := s.isDirector q
  let b := match slot with
    | some j => s.bindCue c j
    | none => c
  let later := s.checksLater c
  let bad := firstBroken (cueChecks raw director ++ (if later then [] else s.postChecks c slot))
  let held := !director && bad.1 = 0 && s.wouldHold b
  if held && 4096 ≤ (b.job.map s.holdUsed).getD 0 then none
  else
    let x := s.queue q
    let s := ({ s with nextCue := s.nextCue + 1 }.updateQueue q { x with head := (x.head + 1) % 2 ^ 32 }).inc Reg.cuesFetched
    some (if bad.1 ≠ 0 then s.rejectCue c bad else s.enqueue b held)

/-- Fetch at most k cues from a host queue (R237, R238). -/
def State.fetchHost (s : State) (q : Nat) : Nat → State
  | 0 =>
    let x := s.queue q
    if x.head = x.tail then s.setQueue q { x with bell := false } else s
  | k + 1 =>
    let x := s.queue q
    if x.state ≠ 1 then s
    else if x.head = x.tail then s.setQueue q { x with bell := false }
    else
      let a := x.ring + 64 * (x.head % 2 ^ x.log2)
      match s.devRead (.manager none) a 64 with
      | (0, raw, s) =>
        (match s.acceptCue q raw with
         | some s => s.fetchHost q k
         | none => s)
      | (_, _, s) => s.haltQueue q (if farBase ≤ a then 3 else 5)

/-- Replay at most k cues of a job's step program (R239). -/
def State.fetchProgram (s : State) (slot : Nat) : Nat → State
  | 0 => s
  | k + 1 =>
    match s.job slot with
    | some j =>
      (match j.program[j.pc]? with
       | some raw =>
         let c := s.freshCue raw none (some slot) (some j.epoch) (s.jf slot Reg.jobStep)
         let held := s.closed slot j c.phase
         if held && 4096 ≤ s.holdUsed slot then s
         else
           let s := ({ s with nextCue := s.nextCue + 1 }.setJob slot { j with pc := j.pc + 1 }).enqueue c held
           s.fetchProgram slot k
       | none => s)
    | none => s

/-- Replay at most k cues of a job's MATINEE section (R263). -/
def State.fetchMatinee (s : State) (slot : Nat) : Nat → State
  | 0 => s
  | k + 1 =>
    match s.job slot with
    | some j =>
      (match j.matinee[j.mpc]? with
       | some raw =>
         let c := s.freshCue raw none (some slot) (some matineeEpoch) (s.jf slot Reg.jobStep)
         let s := ({ s with nextCue := s.nextCue + 1 }.setJob slot { j with mpc := j.mpc + 1 }).enqueue c false
         s.fetchMatinee slot k
       | none => s)
    | none => s

/-- A host queue has cues to fetch now: rung, enabled, not being disabled, no completion record waiting for room (R238,
R485). -/
def Queue.ready (x : Queue) : Bool :=
  x.state == 1 && !x.disabling && x.bell && (x.recs.isEmpty || decide (x.unread < 2 ^ x.cplLog2))

/-- The sources of cues in round-robin order: ordinary queues by index, then the program queue and the MATINEE section of each
job slot (R238, R239). -/
def State.sources (s : State) : List Nat :=
  let hosts := (s.queues.filter fun e => e.2.ready && !s.isDirector e.1).map (·.1)
  let progs := (List.range 4).filter fun j => match s.job j with
    | some x => s.jf j Reg.jobState == 3 && x.isOpen && decide (x.pc < x.program.length)
    | none => false
  let mats := (List.range 4).filter fun j => match s.job j with
    | some x => x.matineeSize != 0 && decide (x.mpc < x.matinee.length)
    | none => false
  hosts ++ progs.map (2 ^ 20 + ·) ++ mats.map (2 ^ 20 + 4 + ·)

/-- Serve one source. -/
def State.visit (s : State) (src : Nat) : State :=
  if src < 2 ^ 20 then s.fetchHost src 16
  else if src < 2 ^ 20 + 4 then s.fetchProgram (src - 2 ^ 20) 16
  else s.fetchMatinee (src - 2 ^ 20 - 4) 16

/-- CUE_FETCH (R238, R241, R266): one visit. Director queues come before all others, the lowest first; the others in turn,
after the last one served. -/
def execCueFetch (s : State) : Host.Outcome State Fault Refusal :=
  run true (fun s =>
    if s.fld Reg.queEnable = 1 ∧ s.served then
      match (List.range 16).find? fun q => s.isDirector q && (s.queue q).ready with
      | some q => s.visit q
      | none =>
        let src := s.sources
        (match (src.find? fun x => decide (s.rr < x)).or src.head? with
         | some x => { s with rr := x }.visit x
         | none => s)
    else s) s

/-! ### Issue (R240 to R243) -/

/-- Run-ahead and EVAL cues that touch what they may not, or send what they may not (R259, R263): the status. -/
def Job.issueCheck (j : Job) (c : CueRec) : Nat :=
  let (r, w) := j.touches c
  let some' := fun (l : List Nat) (f : Tensor → Bool) => l.any fun i => (j.tensor i).any f
  let kind := (collOf (j.coll.getD (c.op 36 3) [])).kind
  if c.ahead && c.runahead && (some' r (fun t => t.isMaster || t.isWeight) || some' w (fun t => t.isProtected || t.isReduced)
      || (c.opcode == cCollective && kind != 6 && kind != 7)) then St.runahead
  else if c.phase == phEval && c.inAttempt = false && c.opcode < 0x40 && some' w (fun t => !t.isEval) then St.operands
  else 0

/-- Bytes held in a job's outbound buffer (R261). -/
def Job.outboundBytes (j : Job) : Nat :=
  (j.outbound.map fun h => match h.2 with
    | .cpl _ r => r.length
    | .metric _ b => b.length
    | .torus _ m => m.length).foldl (· + ·) 0

/-- Bytes that a cue of an attempt will hold in the outbound buffer: a METRIC's, and its completion record's if it asks for one
(R252, R261). -/
def CueRec.holds (c : CueRec) : Nat :=
  if c.inAttempt then (if c.opcode = cMetric then c.op 48 4 else 0) + (if c.cpl ∧ c.queue.isSome then 32 else 0) else 0

/-- Bytes that the issued cues of a job are still to hold. -/
def State.owedBytes (s : State) (slot : Nat) : Nat :=
  ((s.ops.filter fun e => e.2.cue.job == some slot).map fun e =>
    if e.2.started ∧ e.2.cue.opcode = cMetric then e.2.cue.holds - e.2.cue.op 48 4 else e.2.cue.holds).foldl (· + ·) 0

/-- FWD cues of an earlier micro-batch have not issued (R250). -/
def State.batchBefore (s : State) (slot : Nat) (j : Job) (mb : Nat) : Bool :=
  (j.program.zipIdx.any fun p => rawPhase p.1 == phFwd && decide (fieldLE p.1 12 1 < mb) && !j.issued.contains p.2)
    || s.waiting.any fun d => d.ofAttempt slot && d.phase == phFwd && decide (d.mb < mb)

/-- The order rules of a job: dependencies, phases, micro-batches, the curtain, run-ahead, the hold store's order, the outbound buffer
(R240 to R242, R250, R259, R261, R263). Of two held cues whose phase is open the earlier issues first. -/
def State.mayIssue (s : State) (c : CueRec) : Bool :=
  match c.job.bind fun slot => (s.job slot).map fun j => (slot, j) with
  | none => true
  | some (slot, j) =>
    let deps := if c.ahead then c.deps.isEmpty else c.deps.all fun d => j.completed.contains d
    let director := match c.queue with
      | some q => s.isDirector q
      | none => false
    let inTime := !c.inAttempt || (if c.ahead then c.runahead && j.isOpen else j.isOpen)
    let phase := director || !c.ofAttempt slot || !s.closed slot j c.phase
    let curtain := c.phase != phUpdate || !c.inAttempt || (j.curtainPassed && !c.ahead)
    let batch := director || !c.ofAttempt slot || c.phase != phFwd || !s.batchBefore slot j c.mb
    let older := c.held && s.waiting.any fun d =>
      d.held && d.job == c.job && decide (d.id < c.id) && !s.closed slot j d.phase
    let eval := c.phase != phEval || 0x40 ≤ c.opcode || j.matineeSize != 0
    let room := c.holds == 0 || decide (j.outboundBytes + s.owedBytes slot + c.holds ≤ j.outboundMib * 2 ^ 20)
    deps && inTime && phase && batch && curtain && !older && eval && room

/-- The lowest key from k on that a sorted map does not list. -/
def firstGap {α : Type} (k : Nat) : SMap α → Nat
  | [] => k
  | e :: m => if e.1 = k then firstGap (k + 1) m else k

/-- An operation slot for a cue (R243): the lowest free one; 64 are kept for director cues, and EVAL cues hold at most
2,048. -/
def State.freeSlot (s : State) (c : CueRec) : Option Nat :=
  let director := fun (d : CueRec) => match d.queue with
    | some q => s.isDirector q
    | none => false
  let evals := s.ops.countP fun e => e.2.cue.phase == phEval
  if (!director c && 16320 ≤ s.ops.countP fun e => !director e.2.cue) || (c.phase == phEval && 2048 ≤ evals) then none
  else if 16384 ≤ s.ops.length then none else some (firstGap 0 s.ops)

/-- A cue as it issues: one whose job was not loaded when it was fetched is bound now (R240, R242). -/
def State.boundNow (s : State) (c : CueRec) : CueRec :=
  match c.job, (if c.opcode = cJobLoad then none else s.jobOf c.jobId) with
  | none, some j => s.bindCue c j
  | _, _ => c

/-- What R235 and R240 still ask of a cue that was not checked against the loaded jobs when it was fetched (`checksLater`): the first
rule it breaks. -/
def State.lateCheck (s : State) (c : CueRec) : Nat × Nat :=
  if c.job.isNone && c.queue.isSome then firstBroken (s.postChecks c (s.boundNow c).job) else (0, 0xFFFF)

/-- A cue issues into an operation slot; one that breaks a rule checked at issue is rejected there (R259). It keeps the rungs in force
(R188; none are raised outside a step and for the next one, R189); the first cue run ahead of a step has the step's exponents chosen
(R95). -/
def State.issue (s : State) (c : CueRec) (i : Nat) : State :=
  let b := s.boundNow c
  let slot := b.job
  let bad := s.lateCheck c
  let bad := if bad.1 ≠ 0 then bad else
    match slot.bind s.job with
    | some j => (j.issueCheck b, 0xFFFF)
    | none => bad
  let o : OpSlot := { cue := b, run := 0, rows := 0, started := false, left := 0, status := 0, tagOut := none, detail := 0xFFFF
                      satNoted := false
                      rungs := if b.ahead then [] else ((slot.bind s.job).filter (·.isOpen)).elim [] (·.rungs) }
  let s := { s with waiting := s.waiting.filter (fun d => d.id != c.id), ops := SMap.put s.ops i o }
  if bad.1 ≠ 0 then s.opReject i bad.1 bad.2
  else match slot with
    | some j =>
      let s := s.modJob j fun x =>
        if b.ofAttempt j then
          { x with issued := if b.index = noIndex then x.issued else b.index :: x.issued
                   fwdIssued := x.fwdIssued + b2n (b.phase == phFwd) }
        else if b.ahead then { x with aheadFwd := x.aheadFwd + b2n (b.phase == phFwd), expsAhead := x.expsAhead.or (some (s.chooseExps x)) }
        else x
      let s := if b.ahead then s.setJf j Reg.jobAhead 1 else s
      s.phaseStep j
    | none => s

/-- CUE_ISSUE (R240): the waiting cue of arrival number `id` issues if all of R240 holds and no interval stop is under way
(R411). One that the late check rejects waits for no dependency (R235). -/
def execCueIssue (id : Nat) (s : State) : Host.Outcome State Fault Refusal :=
  run true (fun s =>
    match s.waiting.find? fun c => c.id == id with
    | some c =>
      if s.ckp.stopping ∨ (c.fence ∧ s.behind c) ∨ ((s.lateCheck c).1 = 0 ∧ !s.mayIssue (s.boundNow c)) then s
      else
        (match s.freeSlot c with
         | some i => s.issue c i
         | none => s)
    | none => s) s

/-! ### Completion (R240, R485 to R488) -/

/-- Once every BWD cue of the attempt has completed, the update units form the partial sums of the gradients that no all-reduce makes
final (R576). -/
def State.bwdSums (s : State) (slot : Nat) : State :=
  match s.job slot with
  | some j =>
    let ph := s.jf slot Reg.jobPhase
    if j.isOpen ∧ (ph = 3 ∨ ph = 4) ∧ s.phaseDone slot j phBwd then s.formSums slot fun t => !t.isReduced else s
  | none => s

/-- CUE_COMPLETE (R240): the operation in slot `op` has been carried out and every output of it is acknowledged. -/
def execCueComplete (op : Nat) (s : State) : Host.Outcome State Fault Refusal :=
  run (decide (op < 16384)) (fun s =>
    match SMap.find s.ops op with
    | some o =>
      if o.started ∧ o.left = 0 then
        let s := s.completeOp op
        (match o.cue.job with
         | some j => (s.phaseStep j).bwdSums j
         | none => s)
      else s
    | none => s) s

/-- COMPLETION_RECORD_WRITE (R485): the oldest waiting record of a queue is written if its ring has room. -/
def execCompletionRecordWrite (queue : Nat) (s : State) : Host.Outcome State Fault Refusal :=
  run (decide (queue < 2 ^ 20)) (fun s => if (s.queue queue).state = 0 then s else s.writeRecord queue) s

/-- Address, data and mask bit of an MSI-X vector. -/
def State.msixEntry (s : State) (v : Nat) : Nat × Nat × Bool :=
  let a := Reg.msixTable + 16 * v
  (s.rd a + 2 ^ 32 * s.rd (a + 4), s.rd (a + 8), s.rd (a + 12) % 2 == 1)

/-- MSIX_MESSAGE (R488): a vector with records to report sends its message, or sets its PBA bit while it is masked. -/
def execMsixMessage (vector : Nat) (s : State) : Host.Outcome State Fault Refusal :=
  run (decide (vector < 2048)) (fun s =>
    if SMap.get false s.host.due vector then
      let s := { s with host := { s.host with due := SMap.set false s.host.due vector false } }
      let (a, d, m) := s.msixEntry vector
      if m then s.setPba vector 1 else s.emit (.msix vector a d)
    else s) s

/-- Unmask a vector: a message whose PBA bit is still set is sent (R488). -/
def State.unmask (s : State) (v : Nat) : State :=
  let s := s.wrMask v 0
  if s.fld (pbaFld v) = 1 then
    let (a, d, _) := s.msixEntry v
    (s.setPba v 0).emit (.msix v a d)
  else s

/-- MSIX_UNMASK (R488): the host clears a vector's mask bit. -/
def execMsixUnmask (vector : Nat) (s : State) : Host.Outcome State Fault Refusal :=
  run (decide (vector < 2048)) (fun s => s.unmask vector) s

/-! ### Doorbells and queue commands (R237, R238, R484, R485, R266) -/

/-- DOORBELL_CUE_TAIL (R237, R238, R484): a host write of CUE_TAIL. -/
def execDoorbellCueTail (queue tail : Nat) (s : State) : Host.Outcome State Fault Refusal :=
  run (decide (queue < 2 ^ 20) && decide (tail < 2 ^ 32)) (fun s =>
    let x := s.queue queue
    let posted := (tail + 2 ^ 32 - x.head) % 2 ^ 32
    if !s.served then s
    else if x.state ≠ 1 then s.event Ev.queueConfig UId.stageManager [queue, 0]
    else if 2 ^ x.log2 < posted then s.haltQueue queue 0
    else if posted < (x.tail + 2 ^ 32 - x.head) % 2 ^ 32 then s.haltQueue queue 1
    else (s.updateQueue queue { x with tail, bell := true }).inc Reg.doorbells) s

/-- DOORBELL_CPL_HEAD (R484, R485): a host write of CPL_HEAD. -/
def execDoorbellCplHead (queue head : Nat) (s : State) : Host.Outcome State Fault Refusal :=
  run (decide (queue < 2 ^ 20) && decide (head < 2 ^ 32)) (fun s =>
    let x := s.queue queue
    if !s.served then s
    else if x.state = 0 then s.event Ev.queueConfig UId.stageManager [queue, 0]
    else if x.unread < (head + 2 ^ 32 - x.cplHead) % 2 ^ 32 then s.haltQueue queue 2
    else s.setQueue queue { x with cplHead := head }) s

/-- What an enable command finds wrong in a descriptor (R237, R485): 0 nothing, 1 CPL_BASE outside the far window, 2 another
field. -/
def State.descCheck (s : State) (d : List Byte) : Nat :=
  let f := fun o n => fieldLE d o n
  let log2 := bits 4 0 (f 2 1)
  let cplLog2 := bits 15 11 (f 4 4)
  let ring := s.tierOf (f 8 8) (64 * 2 ^ log2)
  let cpl := f 16 8
  if entryStatus d ≠ 0 ∨ bits 7 3 (f 3 1) ≠ 0 ∨ bits 31 16 (f 4 4) ≠ 0 ∨ (d.drop 36).any (· != 0) ∨ log2 < 4 ∨ 16 < log2
      ∨ cplLog2 < 4 ∨ 16 < cplLog2 ∨ f 8 8 % 4096 ≠ 0 ∨ cpl % 4096 ≠ 0 ∨ (ring ≠ some .hbm ∧ ring ≠ some .far) then 2
  else if cpl < farBase ∨ farEnd ≤ cpl then 1
  else if farEnd < cpl + 32 * 2 ^ cplLog2 then 2 else 0

/-- Enable a queue (R237). -/
def State.queEnable (s : State) (q : Nat) : State :=
  let x := s.queue q
  if x.state ≠ 0 then s.event Ev.queueConfig UId.stageManager [q, 3]
  else match s.devRead (.manager none) (s.rd Reg.queTableBase + 64 * q) 64 with
  | (0, d, s) =>
    (match s.descCheck d with
     | 0 =>
       let f := fun o n => fieldLE d o n
       s.updateQueue q { x with
         state := 1, log2 := bits 4 0 (f 2 1), bound := bitAt 2 (f 3 1), slot := bits 1 0 (f 3 1)
         cplLog2 := bits 15 11 (f 4 4), vector := bits 10 0 (f 4 4), ring := f 8 8, cplBase := f 16 8 }
     | e => s.event Ev.queueConfig UId.stageManager [q, e])
  | (_, _, s) => s.event Ev.queueConfig UId.stageManager [q, 2]

/-- Disable an ENABLED or STOPPED queue once its cues in flight have completed (R237, R266). -/
def State.queDisable (s : State) (q : Nat) : State :=
  let x := s.queue q
  if x.state = 0 then s else (s.setQueue q { x with disabling := true }).settleQueue q

/-- Reset the counts of a DISABLED queue (R266). -/
def State.queReset (s : State) (q : Nat) : State :=
  let x := s.queue q
  if x.state ≠ 0 then s else s.updateQueue q { x with head := 0, tail := 0, cplTail := 0, cplHead := 0, bell := false }

/-- QUE_CMD_ENABLE (R237, R266). -/
def execQueCmdEnable (queue : Nat) (s : State) : Host.Outcome State Fault Refusal :=
  run (decide (queue < 2 ^ 20)) (fun s => if s.served then s.queEnable queue else s) s

/-- QUE_CMD_DISABLE (R237, R266). -/
def execQueCmdDisable (queue : Nat) (s : State) : Host.Outcome State Fault Refusal :=
  run (decide (queue < 2 ^ 20)) (fun s => if s.served then s.queDisable queue else s) s

/-- QUE_CMD_RESET (R266). -/
def execQueCmdReset (queue : Nat) (s : State) : Host.Outcome State Fault Refusal :=
  run (decide (queue < 2 ^ 20)) (fun s => if s.served then s.queReset queue else s) s

end Sys2Proof.Machine
end

