-- ==== Sys2Proof/Machine/Package.lean ====
section
/-!
DEFINITION. Job packages and what a load checks: the package itself (R245 to R248, R92, R153, R199, R220, R253, R385,
R468), the placement of its tensors and regions (R295, R311, R322, R404, R481), the protected items (R403, R404, R418), the
cast-wide exchanges (R210, R426 to R428, R438) and the prompt book of a restore or an understudy (R438, R453).
-/
namespace Sys2Proof.Machine

open Sys2Proof

/-! ### Small helpers -/

/-- The status of the first check that fails, 0 where none does. -/
def firstFail (l : List (Nat × Bool)) : Nat := ((l.find? fun c => c.2).map (·.1)).getD 0

/-- The first nonzero status. -/
def firstStatus (l : List Nat) : Nat := (l.find? (· != 0)).getD 0

/-- Devices that hold replicas of a stage (R382). -/
def State.replicas (s : State) : Nat := s.castE 1 * s.castE 2

/-- Byte ranges overlap. -/
def overlap (a n b m : Nat) : Bool := decide (a < b + m) && decide (b < a + n) && decide (0 < n) && decide (0 < m)

/-! ### Parsing (Tables 7.4 and 7.5) -/

/-- Entry size of a section kind; none for a reserved kind. -/
def sectionEntry (kind : Nat) : Option Nat :=
  match kind with
  | 1 | 2 | 7 | 10 => some 64
  | 3 => some 8
  | 4 | 5 | 6 | 8 => some 32
  | 9 => some 40
  | _ => none

/-- One section table entry: kind, count, offset. -/
def sectionOf (bs : List Byte) : Nat × Nat × Nat := (fieldLE bs 0 1, fieldLE bs 4 4, fieldLE bs 8 8)

/-- The header's own checks (R245, Table 7.4). -/
def headerCheck (h : List Byte) (smallMax : Nat) : Nat :=
  let f := fun o n => fieldLE h o n
  let skip := f 104 4
  firstFail
    [ (entryStatus h, entryStatus h != 0),
      (St.reservedBit, bits 7 4 (f 2 1) != 0 || bits 7 5 (f 3 1) != 0 || bits 2 1 (f 3 1) == 3 || f 14 2 != 0
        || (h.drop 108).any (· != 0)),
      (St.package, bits 3 0 (f 2 1) != 2), (St.package, f 8 1 != 1), (St.package, f 12 2 != smallMax),
      (St.package, f 10 1 == 0), (St.package, f 11 1 == 0 || decide (32 < f 11 1)),
      (St.package, decide (f 56 4 < f 60 4)),
      (St.package, decide (skip < 16) || decide (65536 < skip) || 2 ^ Nat.log2 skip != skip) ]

/-- The section table's checks (R245, Table 7.5): kinds known and single, required ones present, inside the package. -/
def sectionsCheck (table : List (List Byte)) (bytes : Nat) : Nat :=
  let es := table.map sectionOf
  let kinds := es.map (·.1)
  let count : Nat → Nat := fun k => ((es.find? fun e => e.1 == k).map (·.2.1)).getD 0
  firstFail
    [ (St.reservedBit, table.any fun e => (sectionEntry (fieldLE e 0 1)).isNone || fieldLE e 1 3 != 0),
      (St.package, kinds.eraseDups.length != kinds.length), (St.package, !(kinds.contains 1 && kinds.contains 2 && kinds.contains 3)),
      (St.package, count 2 != count 3), (St.package, decide (0xFFFFF < count 1)),
      (St.package, es.any fun e => e.1 != 1 && decide (2 ^ 24 ≤ e.2.1)),
      (St.package, es.any fun e => e.2.2 % 256 != 0 || decide (bytes < e.2.2 + e.2.1 * (sectionEntry e.1).getD 0)),
      -- Collective indices from 0xFF_FFF0 on are the device's (R393).
      (St.package, decide (0xFFFFF0 < count 7)) ]

/-- A job as its package gives it, before any attempt. -/
def jobOfPackage (hdr : List Byte) (sec : Nat → List (List Byte)) (histBase collBase : Nat) : Job :=
  { header := hdr, program := sec 1, layout := sec 2, recipe := sec 3, data := sec 4, finish := sec 5, draw := sec 6
    coll := sec 7, upd := sec 8, hist := sec 9, matinee := sec 10, histBase, collBase, startOk := true, losses := []
    pendRecipe := [], pendParam := [], pendMatinee := none
    matineeSize := 8 * bits 2 1 (fieldLE hdr 3 1), isOpen := false, lapsed := false, epoch := 0, failed := 0, pc := 0
    mpc := (sec 10).length, issued := [], completed := [], fwdIssued := 0, aheadFwd := 0, boundaries := 0, exps := [], expsAhead := none, allB := false
    plan := [], rungs := [], trig := [], flagged := [], exhausted := [], stormW := 0, stormF := 0
    recWritten := [], granted := [], policy := 0, thresh := 0, stormMin := 0, rungUp := [], rungUpRec := [], wideUp := [], worked := [], amax := []
    amaxAhead := [], ownHist := [], blocksSeen := [], nfLoss := 0, sat := 0, nfLossAhead := 0, gradSums := [], normS := 0
    curtainPassed := false, shards := [], sample := 0, dataEpoch := 0, outbound := [], large := false
    rebuildDue := false, stopNext := false, lastBad := none, addSat := [] }

/-- Read the sections of a table: status, the entries of each by its kind, state. -/
def State.readSections (s : State) (rq : Requester) (base : Nat) : List (Nat × Nat × Nat) →
    Nat × List (Nat × List (List Byte)) × State
  | [] => (0, [], s)
  | e :: rest =>
    let w := (sectionEntry e.1).getD 0
    match s.devRead rq (base + e.2.2) (w * e.2.1) with
    | (0, bs, s) =>
      let (st, got, s) := s.readSections rq base rest
      (st, (e.1, cutBytes w e.2.1 bs) :: got, s)
    | (st, _, s) => (st, [], s)

/-- Read a package: status, job, the header with its section table, state. -/
def State.readPackage (s : State) (base bytes : Nat) : Nat × Option Job × List Byte × State :=
  let rq := Requester.manager none
  match s.devRead rq base 128 with
  | (0, hdr, s) =>
    let e := headerCheck hdr (s.fld Reg.numSmallMax)
    if e ≠ 0 then (e, none, hdr, s)
    else
      let n := fieldLE hdr 11 1
      (match s.devRead rq (base + 128) (16 * n) with
       | (0, tb, s) =>
         let table := cutBytes 16 n tb
         let e := sectionsCheck table bytes
         if e ≠ 0 then (e, none, hdr ++ tb, s)
         else
           let at' := fun k => ((table.map sectionOf).find? fun e => e.1 == k).getD (k, 0, 0)
           (match s.readSections rq base (table.map sectionOf) with
            | (0, got, s) =>
              let sec := fun k => ((got.find? fun e => e.1 == k).map (·.2)).getD []
              (0, some (jobOfPackage hdr sec (base + (at' 9).2.2) (base + (at' 7).2.2)), hdr ++ tb, s)
            | (e, _, s) => (e, none, hdr ++ tb, s))
       | (e, _, s) => (e, none, hdr, s))
  | (e, _, s) => (e, none, [], s)

/-! ### Entries (R245, R246) -/

/-- A layout entry's checks (Table 7.6, R22, R65, R213). FMT may be any kind that is not a scale: A20 and X24 too, and an element
format without a quantisation record, which is then read and written as F32 words (DESIGN CHOICE, log entry 100). -/
def Job.layoutCheck (j : Job) (i : Nat) (bs : List Byte) : Nat :=
  let t := tensorOf i bs
  if i = 0 then firstFail [(formStatus bs, formStatus bs != 0), (St.package, (bs.drop 2).any (· != 0))]
  else firstFail
    [ (entryStatus bs, entryStatus bs != 0),
      (St.reservedBit, bits 7 6 (fieldLE bs 2 1) != 0 || bits 7 4 (fieldLE bs 4 1) != 0 || fieldLE bs 5 3 != 0
        || fieldLE bs 52 4 != 0),
      (St.format, !fmtKnown t.fmt || fmtIsScale t.fmt), (St.package, decide (t.rank ≤ t.redDim)),
      (St.package, t.dims.zipIdx.any fun d => d.1 == 0 || (decide (t.rank ≤ d.2) && d.1 != 1)),
      (St.alignment, t.record != 0 && t.base % 256 != 0), (St.package, decide (2 ^ 40 ≤ t.elems)),
      (St.package, decide (j.layout.length ≤ t.fb) || decide (j.layout.length ≤ t.aux)),
      (St.package, t.history != 0xFFFFFFFF && !j.hist.isEmpty && decide (j.hist.length ≤ t.history)) ]

/-- A recipe entry's checks (R92, R199). -/
def Job.recipeCheck (j : Job) (i : Nat) (bs : List Byte) : Nat :=
  let r := recipeOf bs
  let t := j.tensor i
  let used := match t with
    | some t => t.record != 0
    | none => false
  let form := recipeForm bs
  let four := fun f => ((eFmtOf f).map (·.fourBit)).getD false
  if form ≠ 0 then form
  else if j.replay ∧ (r.rot ≠ 0 ∨ r.esc ∨ (used && four r.fmt) ∨ ((t.map fun t => four t.fmt).getD false)) then St.replay
  else if !used then 0
  else if !r.inRange ((t.map Tensor.isWeight).getD false) then St.range
  else 0

/-- An index of LAYOUT that a field may leave at 0 (R245). -/
def Job.refOk (j : Job) (i : Nat) : Bool := decide (i < j.layout.length) || i == 0

/-- The sections' entries that a cue's operands name exist (R245, Table 7.2). -/
def Job.operandsOk (j : Job) (c : CueRec) : Bool :=
  let t := fun o => (j.tensor (c.op o 3)).isSome
  match c.opcode with
  | 0x01 => t 36 && t 39 && decide (c.op 42 3 < j.finish.length)
  | 0x02 => decide (c.op 36 3 < j.draw.length)
  | 0x03 => t 36 && t 39
  | 0x04 => decide (c.op 36 3 < j.coll.length)
  | 0x05 => decide (c.op 36 3 < j.upd.length) && t 39 && t 42 && t 45 && (j.tensor (c.op 45 3 + 1)).isSome && j.refOk (c.op 48 3)
  | 0x08 | 0x09 => t 36
  | _ => true

/-- What a replay job refuses of a section's cue: a MOVE by SR (R199). -/
def Job.replayRefuses (j : Job) (c : CueRec) : Bool := j.replay && c.opcode == cMove && rmodeOf (c.op 42 1 % 4) == some .sr

/-- A program cue's checks (R245): position, job, micro-batch, dependencies, and what any cue is checked for. -/
def Job.programCheck (j : Job) (i : Nat) (raw : List Byte) : Nat :=
  let form := (firstBroken (cueChecks raw false)).1
  let dep := fun o => fieldLE raw o 4 != noIndex && decide (i ≤ fieldLE raw o 4)
  if form ≠ 0 then form
  else firstFail
    [ (St.package, bits 19 0 (fieldLE raw 8 4) != i), (St.package, fieldLE raw 4 4 != j.hdr 4 4),
      (St.package, decide (j.mbLast < fieldLE raw 12 1)), (St.dependency, dep 20 || dep 24 || dep 28),
      (St.package, !j.operandsOk (CueRec.ofRaw raw 0)), (St.replay, j.replayRefuses (CueRec.ofRaw raw 0)) ]

/-- A MATINEE section cue's checks (R240, R259, R263): its dependencies name program cues, and run-ahead is for director queues. -/
def Job.matineeCheck (j : Job) (raw : List Byte) : Nat :=
  let form := (firstBroken (cueChecks raw true)).1
  if form ≠ 0 then form
  else firstFail
    [ (St.package, rawPhase raw != phEval || decide (0x40 ≤ fieldLE raw 2 1)), (St.package, fieldLE raw 4 4 != j.hdr 4 4),
      (St.package, bits 19 0 (fieldLE raw 8 4) != noIndex), (St.runahead, bitAt 4 (fieldLE raw 3 1)),
      (St.dependency, [20, 24, 28].any fun o => fieldLE raw o 4 != noIndex && decide (j.program.length ≤ fieldLE raw o 4)),
      (St.package, !j.operandsOk (CueRec.ofRaw raw 0)), (St.replay, j.replayRefuses (CueRec.ofRaw raw 0)) ]

/-- A data-source descriptor's checks (R248). -/
def Job.dataCheck (j : Job) (bs : List Byte) : Nat :=
  firstFail [ (entryStatus bs, entryStatus bs != 0),
    (St.reservedBit, fieldLE bs 3 1 != 0 || (bs.drop 16).any (· != 0)), (St.package, (j.tensor (dataOf bs).dst).isNone) ]

/-- A history record's checks (Table 2.8). -/
def histCheck (bs : List Byte) : Nat :=
  firstFail [ (entryStatus bs, entryStatus bs != 0),
    (St.reservedBit, bits 7 4 (fieldLE bs 2 1) != 0 || fieldLE bs 4 4 != 0), (St.package, decide (16 < fieldLE bs 3 1)) ]

/-- The vote descriptor of a job with two or more replicas, and that no program cue names it (R468). -/
def Job.voteCheck (j : Job) (replicas : Nat) : Nat :=
  if replicas < 2 then 0
  else
    let d := j.coll.getD 0 []
    let want := leBytes 1 1 ++ leBytes 1 8 ++ leBytes 1 0x46 ++ leBytes 9 0 ++ leBytes 1 12 ++ leBytes 11 0 ++ leBytes 8 16
      ++ leBytes 32 0
    let named := (j.program ++ j.matinee).any fun c => fieldLE c 2 1 == cCollective && fieldLE c 36 3 == 0
    if d = want ∧ !named then 0 else St.consistency

/-- Every entry of every section. -/
def Job.entriesCheck (j : Job) (replicas : Nat) : Nat :=
  let finish := fun (bs : List Byte) =>
    let f := finOf bs
    let e := finCheck bs (j.tensor f.outRef) 0 0 (j.recipeAt f.outRef).fmt
    if e ≠ 0 then e
    else if [f.biasRef, f.auxRef, f.statsRef].any fun i => !j.refOk i then St.package
    else if j.replay ∧ (f.outFmt = fmtA64 ∨ f.outFmt = fmtK40 ∨ f.acc = 2 ∨ rmodeOf f.round = some .sr) then St.replay
    else 0
  let draw := fun (bs : List Byte) =>
    let d := drawOf bs
    let bad := (j.tensor d.outRef).isNone || (if d.kind = 3 then (j.tensor d.inRef).isNone else false)
    firstFail [(drawCheck bs, drawCheck bs != 0), (St.package, bad)]
  let coll := fun (bs : List Byte) =>
    firstFail [(collCheck bs, collCheck bs != 0), (St.package, !j.refOk (collOf bs).inRef || !j.refOk (collOf bs).outRef)]
  firstStatus
    ((j.layout.zipIdx.map fun e => j.layoutCheck e.2 e.1) ++ (j.recipe.zipIdx.map fun e => j.recipeCheck e.2 e.1)
      ++ j.finish.map finish ++ j.draw.map draw ++ j.coll.map coll
      ++ (j.upd.map fun u => updCheck u j.replay) ++ j.data.map j.dataCheck ++ j.hist.map histCheck
      ++ (j.program.zipIdx.map fun e => j.programCheck e.2 e.1) ++ j.matinee.map j.matineeCheck ++ [j.voteCheck replicas])

/-! ### Placement (R295, R311, R322, R404, R481) -/

/-- The byte ranges a package names: its tensors, and its buffers. -/
def Job.tensorRanges (j : Job) : List (Nat × Nat) :=
  (j.layout.zipIdx.drop 1).map fun e => let t := tensorOf e.2 e.1; (t.base, t.bytes)
/-- Sample buffer, outbound buffer and skip log. -/
def Job.bufferRanges (j : Job) : List (Nat × Nat) :=
  [(j.sampleBuf, j.sampleMib * 2 ^ 20), (j.hdr 48 8, j.outboundMib * 2 ^ 20), (j.skipBase, 32 * j.skipCount)]

/-- The three regions as their registers stand (R322). -/
def State.regions (s : State) : List (Nat × Nat) :=
  [(s.rd Reg.snapBase, s.rd Reg.snapSize), (s.rd Reg.mirrorBase, s.rd Reg.mirrorSize), (s.rd Reg.parityBase, s.rd Reg.paritySize)]

/-- A region lies wholly in one of HBM and DDR, on 2 MiB boundaries (R322). -/
def State.regionOk (s : State) (r : Nat × Nat) : Bool :=
  r.2 == 0 || (r.1 % 2 ^ 21 == 0 && r.2 % 2 ^ 21 == 0
    && (s.tierOf r.1 r.2 == some .hbm || s.tierOf r.1 r.2 == some .ddr))

/-- The retired pages of the device, as ranges (R309, R320). -/
def State.retiredPages (s : State) : List (Nat × Nat) :=
  (s.hbmStacks.flatMap fun e => e.2.retired.map fun r => (hbmBase + r.row * 2 ^ 20 + r.pc * 2 ^ 14 + e.1 * 2 ^ 11, 2048))
    ++ s.channels.flatMap fun e => e.2.retired.map fun p => (p, 4096)

/-- A range touches a standby bank (R295). -/
def State.inStandby (s : State) (r : Nat × Nat) : Bool :=
  (List.range 16).any fun c =>
    let base := 2304 + 48 * c
    let b := match (List.range 44).find? fun n => s.bf (base + n) Reg.bankStandby == 1 with
      | some n => base + n
      | none => base + bits 5 0 (s.rd (Reg.bnkStandby + 8 * (c / 8)) >>> (8 * (c % 8)))
    overlap r.1 r.2 (b * 0x40000) 0x40000

/-- The placement rules a package must meet. -/
def State.placementCheck (s : State) (j : Job) : Nat :=
  let regs := s.regions
  let all := j.tensorRanges ++ j.bufferRanges
  let bad := s.retiredPages
  let pair := fun (a b : Nat × Nat) => overlap a.1 a.2 b.1 b.2
  let twice := (regs.zipIdx.any fun a => regs.zipIdx.any fun b => decide (a.2 < b.2) && pair a.1 b.1)
  if regs.any (fun r => !s.regionOk r) ∨ twice ∨ all.any (fun a => regs.any (pair a))
      ∨ j.tensorRanges.any (fun a => bad.any (pair a)) ∨ regs.any (fun a => bad.any (pair a))
      ∨ j.tensorRanges.any s.inStandby
      ∨ (all ++ regs).any (fun a => decide (0 < a.2) && decide (hbmBase ≤ a.1) && decide (a.1 + a.2 ≤ farBase) && s.hostBias a.1 a.2)
  then St.placement else 0

/-! ### Protected items (Table 12.1, R404, R418) -/

/-- Items before placement: kind, index, live pieces, bytes. -/
def Job.itemList (j : Job) : List (Nat × Nat × List (Nat × Nat) × Nat) :=
  let tensors := ((j.layout.zipIdx.drop 1).map fun e => tensorOf e.2 e.1).filter fun t => t.isMaster || t.isProtected
  let n := j.layout.length
  (tensors.map fun t => (1, t.idx, [(t.base, t.bytes)], t.bytes))
    ++ [if j.hist.isEmpty then (2, 0, [], 40 * j.ownHists.length) else (2, 0, [(j.histBase, 40 * j.hist.length)], 40 * j.hist.length), (3, 0, [(j.watchBase, 64 * n)], 64 * n),
        (4, 0, [], 8 * j.recipe.length), (5, 0, [], 32 * j.upd.length), (6, 0, [(j.skipBase, 32 * j.skipCount)], 32 * j.skipCount),
        (7, 0, [], 294912), (8, 0, [], 16)].filter fun i => i.2.2.2 != 0

/-- Place items in a slot: in order, each on a 2 MiB boundary from 16 MiB (R404). -/
def placeItems : Nat → List (Nat × Nat × List (Nat × Nat) × Nat) → List Item
  | _, [] => []
  | off, (kind, index, src, bytes) :: rest =>
    { kind, index, src, bytes, slotOff := off, base := none, baseValid := false, dirty := [], method := 0, fullMirror := false
      shipped := 0, protOff := 0 } :: placeItems (off + align2M bytes) rest

/-- Bytes of an item that a large item is (R416). -/
def bigItem : Nat := 2 ^ 28

/-- Allocate bases at a holder: small items first, then larger ones, as long as `fits` takes them at the place reached (R418; a large item
that does not fit ends it, DEDUCED, log entry 136). -/
def allocBases (fits : Nat → Item × Nat → Bool) (items : List Item) : List Item :=
  let order := (items.zipIdx.filter fun e => e.1.bytes < bigItem) ++ items.zipIdx.filter fun e => bigItem ≤ e.1.bytes
  let given := (order.foldl (fun (acc : Bool × Nat × List (Nat × Nat)) e =>
    if acc.1 && fits acc.2.1 e then (true, acc.2.1 + align2M e.1.bytes, acc.2.2 ++ [(e.2, 2 ^ 26 + acc.2.1)])
    else (false, acc.2)) (true, 0, [])).2.2
  items.zipIdx.map fun (e : Item × Nat) => { e.1 with base := (given.find? fun g => g.1 == e.2).map (·.2) }

/-- Items that fit in a holder's region of capacity h (R418). -/
def fitsIn (h off : Nat) (e : Item × Nat) : Bool := decide (off + align2M e.1.bytes ≤ h)

/-- Capacity H of a mirror region (R418). -/
def mirrorCap (size : Nat) : Nat := (size - 2 ^ 26) / 2 ^ 22 * 2 ^ 21

/-- Capacity of one block of a parity region (R423). -/
def parityCap (size : Nat) : Nat := size / 2 ^ 22 * 2 ^ 21

/-- The parity unit for a largest list of l bytes in groups of g (R422). -/
def parityUnitOf (l g : Nat) : Nat := if g < 2 then 0 else 2 ^ 21 * ceilDiv l (2 ^ 21 * (g - 1))

/-! ### The cast-wide exchanges (R210, R426, R427, R428) -/

/-- This device's 16 bytes of R426. Each item counts in whole 2 MiB units, as its base and its place in the parity list take them
(R418, R422; DEDUCED, log entry 58). -/
def State.protBytes (s : State) (items : List Item) : List Byte :=
  let sum := fun f => ((items.filter f).map fun i => align2M i.bytes).foldl (· + ·) 0
  leBytes 4 (s.rd Reg.mirrorSize / 2 ^ 21) ++ leBytes 4 (s.rd Reg.paritySize / 2 ^ 21)
    ++ leBytes 4 (sum (fun i => decide (i.bytes < bigItem)) / 2 ^ 21)
    ++ leBytes 4 (sum (fun i => decide (bigItem ≤ i.bytes)) / 2 ^ 21)

/-- This device's 16 bytes of R427. -/
def State.placeBytes (s : State) : List Byte :=
  let c := s.rd Reg.ckpCtrl
  let p := s.rd Reg.ckpProt
  let x := s.rd Reg.ckpExport
  leBytes 6 (s.fld Reg.fdIds) ++ leBytes 2 (bits 15 0 c) ++ leBytes 1 (groupSize p)
    ++ leBytes 1 (mirrorAxis p + 4 * parityAxis p + 16 * s.fld Reg.castCorrAck) ++ leBytes 1 (mirrorOff p)
    ++ leBytes 1 (bits 31 24 c) ++ leBytes 2 (bits 15 0 x) ++ leBytes 2 (bits 31 16 x)

/-- Every member of the cast, this device among them. -/
def State.members (s : State) (j : Job) (items : List Item) (step : Nat) (peers : List Peer) : List Peer :=
  { coord := s.coord, seed := seedCheck j.seed, prot := s.protBytes items, place := s.placeBytes, restored := step } :: peers

/-- What members must agree on, and what their regions must hold (R426, R427). -/
def State.castFits (s : State) (ms : List Peer) : Bool :=
  let w := s.rd Reg.ckpProt
  let same := fun (p : Peer) => bits 4 0 (fieldLE p.place 8 1) + 32 * bits 3 0 (fieldLE p.place 9 1)
    + 1024 * fieldLE p.place 6 2 + 2 ^ 32 * fieldLE p.place 10 6
  let of' := fun c => ms.find? fun p => p.coord == c
  let small := fun (p : Peer) => fieldLE p.prot 8 4 * 2 ^ 21
  let other := fun (p : Peer) => fieldLE p.prot 12 4 * 2 ^ 21
  let cap := fun (p : Peer) => mirrorCap (fieldLE p.prot 0 4 * 2 ^ 21)
  let mirror := s.mirrorThere w
  let parity := s.parityThere w
  let list := fun (p : Peer) => other p + (if mirror then 0 else small p)
  let holds := fun (p : Peer) =>
    match of' (s.shiftMember p.coord (mirrorAxis w) (mirrorOff w : Nat)) with
    | some h => decide (small p + (if parity then 0 else other p) ≤ cap h)
    | none => true
  let group := fun (p : Peer) => ms.filter fun q => s.groupStart w q.coord == s.groupStart w p.coord
  let unit := fun (p : Peer) => parityUnitOf ((group p).map list |>.foldl max 0) (groupSize w)
  (ms.all fun p => some (same p) == ms.head?.map same) && (!mirror || ms.all holds)
    && (!parity || ms.all fun p => decide (unit p ≤ parityCap (fieldLE p.prot 4 4 * 2 ^ 21)))

/-- Failure domains of two members are separated (R428). -/
def separated (a b : List Byte) : Bool :=
  (List.range 3).all fun i => fieldLE a (2 * i) 2 != fieldLE b (2 * i) 2 && fieldLE a (2 * i) 2 != 0 && fieldLE b (2 * i) 2 != 0

/-- Pairs of members whose protection is not separated, each once (R428). -/
def State.unseparated (s : State) (ms : List Peer) : List (Nat × Nat) :=
  let w := s.rd Reg.ckpProt
  let mirrors := ms.filterMap fun p =>
    match ms.find? fun q => q.coord == s.shiftMember p.coord (mirrorAxis w) (mirrorOff w : Nat) with
    | some q => if s.mirrorThere w && !separated p.place q.place then some (min p.coord q.coord, max p.coord q.coord) else none
    | none => none
  let groups := ms.flatMap fun p => (ms.filter fun q =>
    decide (p.coord < q.coord) && s.parityThere w && s.groupStart w p.coord == s.groupStart w q.coord
      && !separated p.place q.place).map fun q => (p.coord, q.coord)
  (mirrors ++ groups).eraseDups

/-- The pairs that the events of correlated protection name; without an unseparated pair, this member with
itself (R428, Table 12.4; DEDUCED, log 51). -/
def State.correlatedPairs (s : State) (ms : List Peer) : List (Nat × Nat) :=
  let me := s.fld Reg.fabCoord
  match s.unseparated ms with
  | [] => [(me, me)]
  | ps => ps

/-- Protection is correlated (R428). -/
def State.correlated (s : State) (ms : List Peer) : Bool :=
  let w := s.rd Reg.ckpProt
  !s.mirrorThere w || !s.parityThere w || !(s.unseparated ms).isEmpty

/-! ### Prompt books (Tables 12.5, 12.6, R429 to R431) -/

/-- What the book of an understudy's place is checked for (R453). -/
def State.bookMatches (s : State) (j : Job) (items : List Item) (book : List Byte) : Bool :=
  let w := s.rd Reg.ckpProt
  let f := fun o n => fieldLE book o n
  bookUsable book && f 56 8 == seedCheck j.seed && f 4 4 == j.hdr 4 4 && f 8 1 == j.hdr 8 1 && f 12 3 == s.coord
    && f 9 1 == (if s.parityThere w then groupSize w else 0) && bits 3 2 (f 10 1) == parityAxis w
    && bits 1 0 (f 10 1) == mirrorAxis w && f 20 4 == items.length
    && items.zipIdx.all fun e => fieldLE (bookEntry book e.2) 8 8 == e.1.slotOff && fieldLE (bookEntry book e.2) 16 8 == e.1.bytes

/-- The secrets an import may use: by KEY_ID, the loaded export secret (R231, R232). -/
def State.secrets (s : State) : List (Nat × List Nat) :=
  match s.rng.secret with
  | some k => [(s.fld Reg.exportKeyId, natBytes k)]
  | none => []

/-- Open a bulk object (R231, R234): its body, its bytes counted if they were encrypted; or none, with one event and TAG_FAILURES. -/
def State.openObject (s : State) (kind : Nat) (seed : List Nat) (obj : List Byte) : Option (List Byte) × State :=
  match bulkOpen [kind] s.secrets seed (natBytes obj) with
  | some p => (some (toBytes p), (s.addF Reg.bulkDecBytes (if bitAt 0 (fieldLE obj 3 1) then p.length else 0)).inc Reg.bulkObjects)
  | none => (none, (s.inc Reg.tagFailures).event Ev.tagFailure (UId.cipher 0) [bits 3 0 (fieldLE obj 2 1), fieldLE obj 4 4])

/-- Import the bulk object at a far-window address (R231): status, body, state. -/
def State.importObject (s : State) (j : Job) (kind a : Nat) : Nat × List Byte × State :=
  match s.devRead (.manager none) a 64 with
  | (0, h, s) =>
    (match s.devRead (.manager none) (a + 64) (fieldLE h 8 8) with
     | (0, body, s) =>
       (match s.openObject kind j.seed (h ++ body) with
        | (some bs, s) => (0, bs, s)
        | (none, s) => (St.consistency, [], s))
     | (e, _, s) => (e, [], s))
  | (e, _, s) => (e, [], s)

/-- The restore of a package with RESTORE set (R438): the book and the items it carries, or the status of the rejection. -/
def State.readExport (s : State) (j : Job) (items : List Item) : Nat × List Byte × List (Item × List Byte) × State :=
  let at' := s.rd Reg.restoreBase
  match s.importObject j 1 at' with
  | (0, book, s) =>
    let f := fun o n => fieldLE book o n
    let n := f 20 4
    let entries := (List.range n).map (bookEntry book)
    let last := entries.getD (n - 1) []
    let slot := at' - ceilDiv (fieldLE last 32 8 + 64 + fieldLE last 16 8) 4096 * 4096
    if !bookUsable book ∨ bits 3 0 (f 2 1) ≠ 2 ∨ f 8 1 ≠ 1 ∨ f 4 4 ≠ j.hdr 4 4 ∨ f 56 8 ≠ seedCheck j.seed ∨ f 12 3 ≠ s.coord then
      (St.consistency, book, [], s)
    else
      items.foldl (fun (acc : Nat × List Byte × List (Item × List Byte) × State) it =>
        let (st, book, got, s) := acc
        if st ≠ 0 then acc
        else match entries.find? fun e => fieldLE e 2 1 == it.kind && fieldLE e 4 4 == it.index with
        | none => if it.kind = 2 then acc else (St.consistency, book, got, s)
        | some e =>
          if fieldLE e 16 8 ≠ it.bytes then (St.consistency, book, got, s)
          else match s.importObject j 1 (slot + fieldLE e 32 8) with
          | (0, bs, s) =>
            if digest32 bs = (e.drop 48).take 32 ∧ bs.length = it.bytes then (0, book, got ++ [(it, bs)], s)
            else (St.consistency, book, got, s)
          | (e, _, s) => (e, book, got, s)) (0, book, [], s)
  | (e, _, s) => (e, [], [], s)

end Sys2Proof.Machine
end

