-- ==== Sys2Proof/Machine/Schedule.lean ====
section
/-!
DEFINITION. The schedules of collectives: the transfers of each kind on each axis (R387, R391, R394), their chunks, and what the
device sends in its own exchanges (R392, R393).
-/
namespace Sys2Proof.Machine

open Sys2Proof

/-! ### Schedules -/

/-- The round field (R387). -/
def roundField (gather : Bool) (a : Nat) (half : Bool) (r : Nat) : Nat := b2n gather * 2 ^ 15 + a * 2 ^ 13 + b2n half * 2 ^ 12 + r

/-- Segment j of c of a half (R387). -/
def segOf (l : List Nat) (c j : Nat) : List Nat :=
  let lo := j * l.length / c
  (l.drop lo).take ((j + 1) * l.length / c - lo)

/-- The forward and the backward half. -/
def halvesOf (l : List Nat) : List Nat × List Nat := (l.take ((l.length + 1) / 2), l.drop ((l.length + 1) / 2))

/-- One half on a ring (R387): in round r a segment goes out and another comes in. `back` is the backward half; the segment
sent in round 0 is `first`. -/
def ringTrack (a p c : Nat) (back gather : Bool) (l : List Nat) (how : Nat) : List Hop :=
  let seg := fun (k : Int) => segOf l c (k % (c : Int)).toNat
  let first : Int := if gather then (if back then (p : Int) - 1 else p + 1) else p
  let step : Int := if back then 1 else -1
  (List.range (c - 1)).flatMap fun r =>
    let f := roundField gather a back r
    [ { send := true, port := portOn a back, round := f, elems := seg (first + step * r), how := 0 },
      { send := false, port := portOn a (!back), round := f, elems := seg (first + step * (r + 1)), how := if gather then 0 else how } ]

/-- One half on a line (R387): it collects along the line and its total returns. The round number is 0 (log entry 50). -/
def lineTrack (a p c : Nat) (back : Bool) (l : List Nat) (how : Nat) : List Hop :=
  let q := if back then c - 1 - p else p
  let up := roundField false a back 0
  let down := roundField true a back 0
  let hop := fun (send : Bool) (minus : Bool) (f h : Nat) => ({ send, port := portOn a minus, round := f, elems := l, how := h } : Hop)
  let collect := (if q = 0 then [] else [hop false (!back) up how]) ++ (if q + 1 = c then [] else [hop true back up 0])
  let return' := (if q + 1 = c then [] else [hop false back down 0]) ++ (if q = 0 then [] else [hop true (!back) down 0])
  collect ++ return'

/-- Data of at most 192 bytes takes the single-flit form (R391). -/
def Coll.single (x : Coll) : Bool := decide (x.width * x.data.length ≤ 192)

/-- The transfers of ALLREDUCE and MAX on one axis, and the share after it (R387, R391). -/
def State.reduceAxis (s : State) (x : Coll) (a : Nat) (gather : Bool) (how : Nat) : List (List Hop) × List Nat :=
  let p := s.castPos s.coord a
  let c := s.castE a
  if x.single then (if gather then ([], x.share) else ([lineTrack a p c false x.share how], x.share))
  else if s.axisKind a = 1 then
    if gather then
      let l := ((x.shares.find? fun e => e.1 == a).map (·.2)).getD x.share
      let (f, b) := halvesOf l
      ([ringTrack a p c false true f how, ringTrack a p c true true b how], l)
    else
      let (f, b) := halvesOf x.share
      ([ringTrack a p c false false f how, ringTrack a p c true false b how], segOf f c ((p + 1) % c) ++ segOf b c ((p + c - 1) % c))
  else if gather then ([], x.share)
  else
    let (f, b) := halvesOf x.share
    ([lineTrack a p c false f how, lineTrack a p c true b how], x.share)

/-- Positions of a member on the axes of a collective: (axis, position, extent), X first. -/
def State.groupPos (s : State) (axes c : Nat) : List (Nat × Nat × Nat) :=
  ((List.range 3).filter fun a => bitAt a axes).map fun a => (a, s.castPos c a, s.castE a)

/-- Rank order within the group (R385). -/
def rankOf (pos : List (Nat × Nat × Nat)) : Nat := (pos.foldl (fun (acc : Nat × Nat) p => (acc.1 + acc.2 * p.2.1, acc.2 * p.2.2)) (0, 1)).1

/-- Members of the group (R385). -/
def groupCount (pos : List (Nat × Nat × Nat)) : Nat := pos.foldl (fun n p => n * p.2.2) 1

/-- DIGEST on one axis (R394): entries gathered on earlier axes go both ways along the line of positions; in the single-flit form they
pass to the last position and return from it (R391; the round fields DEDUCED, log entry 50). -/
def State.digestAxis (s : State) (single : Bool) (axes : Nat) (bytes a : Nat) : List (List Hop) :=
  let pos := s.groupPos axes s.coord
  let g := groupCount pos
  let p := s.castPos s.coord a
  let c := s.castE a
  let posOf := fun (r : Nat) => (pos.foldl (fun (acc : Nat × List (Nat × Nat)) q => (acc.1 / max 1 q.2.2, acc.2 ++ [(q.1, acc.1 % max 1 q.2.2)]))
    (r, [])).2
  let at' := fun (q : Nat) (r : Nat) => (posOf r).all fun e =>
    if e.1 = a then e.2 == q else if a < e.1 then e.2 == s.castPos s.coord e.1 else true
  let of' := fun (f : Nat → Bool) =>
    ((List.range g).filter fun r => (List.range c).any fun q => f q && at' q r).flatMap fun r => (List.range bytes).map (r * bytes + ·)
  let hop := fun (send minus back gather : Bool) (l : List Nat) =>
    ({ send, port := portOn a minus, round := roundField gather a back 0, elems := l, how := 0 } : Hop)
  let all := of' fun _ => true
  if single then
    [ (if p = 0 then [] else [hop false true false false (of' fun q => decide (q < p))])
        ++ (if p + 1 = c then [] else [hop true false false false (of' fun q => decide (q ≤ p)), hop false false false true all])
        ++ (if p = 0 then [] else [hop true true false true all]) ]
  else
    [ (if p = 0 then [] else [hop false true false true (of' fun q => decide (q < p))])
        ++ (if p + 1 = c then [] else [hop true false false true (of' fun q => decide (q ≤ p))]),
      (if p + 1 = c then [] else [hop false false true true (of' fun q => decide (p < q))])
        ++ (if p = 0 then [] else [hop true true true true (of' fun q => decide (p ≤ q))]) ]

/-- BROADCAST on one axis (R394): outward from the root's position, for the members that the axes before have reached; in the single-flit
form the root's data passes to the last position and returns from it (R391). -/
def State.broadcastAxis (s : State) (single : Bool) (axes root n a : Nat) : List (List Hop) :=
  let later := (s.groupPos axes s.coord).filter fun e => a < e.1
  let p := s.castPos s.coord a
  let q := s.castPos root a
  let c := s.castE a
  if later.any fun e => e.2.1 != s.castPos root e.1 then []
  else
    let hop := fun (send minus back gather : Bool) =>
      ({ send, port := portOn a minus, round := roundField gather a back 0, elems := List.range n, how := 0 } : Hop)
    if single then
      [ (if p ≤ q then [] else [hop false true false false])
          ++ (if p + 1 = c then [] else (if p < q then [] else [hop true false false false]) ++ [hop false false false true])
          ++ (if p = 0 then [] else [hop true true false true]) ]
    else
      [ if p < q then [] else (if p = q then [] else [hop false true false true]) ++ (if p + 1 = c then [] else [hop true false false true]),
        if q < p then [] else (if p = q then [] else [hop false false true true]) ++ (if p = 0 then [] else [hop true true true true]) ]

/-! ### Sending (R387, R353) -/

/-- Chunk i of a transfer. -/
def Coll.chunk (x : Coll) (h : Hop) (i : Nat) : List Nat :=
  let k := 2 ^ (collOf x.desc).chunk / max 1 x.width
  (h.elems.drop (k * i)).take k

/-- Chunks of a transfer; an empty one has none. -/
def Coll.chunks (x : Coll) (h : Hop) : Nat := ceilDiv h.elems.length (2 ^ (collOf x.desc).chunk / max 1 x.width)

/-- Bytes of positions as they travel. -/
def Coll.wire (x : Coll) (l : List Nat) : List Byte := l.flatMap fun i => leBytes x.width (twos (8 * x.width) (x.data.getD i 0))

/-- A transfer that may not go out: toward a FAILED member (R400). -/
def State.cutOff (s : State) (h : Hop) : Bool := s.pf h.port Reg.portNeighbour == 3

/-- Send one transfer chunk by chunk (R387, R353). -/
def State.sendHop (s : State) (x : Coll) (h : Hop) : State :=
  (List.range (x.chunks h)).foldl (fun s i =>
    let body := x.wire (x.chunk h i)
    let (tag, s) := s.newTag h.port
    let dst := (s.expected h.port).getD noCoord
    s.sendMsg h.port 1
      { s.txn opStep dst with epoch := x.epoch, bytes := body.length, tag, arg := x.index + h.round * 2 ^ 24 + i * 2 ^ 40 } body) s

/-! ### The device's own exchanges (R392, R393, R407, R426, R427)

The commands that end one of them bring the other members' values as operands; what this member sends in it goes out here (DESIGN
CHOICE, log entry 140). -/

/-- What this member sends in an exact all-reduce or maximum exchange of a few I32 values over axes in ascending order, by every member's
contribution: on each axis the sum so far toward the last position, then the result toward position 0 (R391, R392). -/
def State.sendSteps (s : State) (index : Nat) (axes : List Nat) (join : Int → Int → Int) (vals : List (Nat × List Int)) : State :=
  axes.foldl (fun (s : State) a =>
    let p := s.castPos s.coord a
    let c := s.castE a
    let line := vals.filter fun e => (List.range 3).all fun b =>
      (axes.contains b && decide (b ≤ a)) || s.castPos e.1 b == s.castPos s.coord b
    let joined := fun (l : List (Nat × List Int)) =>
      (l.drop 1).foldl (fun acc e => acc.zipWith join e.2) ((l.head?.map (·.2)).getD [])
    let send := fun (s : State) (minus gather : Bool) (xs : List Int) =>
      if s.pf (portOn a minus) Reg.portNeighbour = 3 then s
      else
        let (tag, s) := s.newTag (portOn a minus)
        let body := xs.flatMap fun x => leBytes 4 (twos 32 x)
        s.sendMsg (portOn a minus) 1
          { s.txn opStep ((s.expected (portOn a minus)).getD noCoord) with
            bytes := body.length, tag, arg := index + roundField gather a false 0 * 2 ^ 24 } body
    let s := if p + 1 < c then send s false false (joined (line.filter fun e => decide (s.castPos e.1 a ≤ p))) else s
    if 0 < p ∧ p < c then send s true true (joined line) else s) (s.inc Reg.collectives)

/-- What this member sends in a DIGEST over the whole cast in an epoch, by every member's entry (R394). -/
def State.sendDigest (s : State) (index epoch bytes : Nat) (entries : List (Nat × List Byte)) : State :=
  let g := groupCount (s.groupPos 7 s.coord)
  let data := entries.foldl (fun (d : List Int) e =>
    let r := rankOf (s.groupPos 7 e.1)
    (e.2.zipIdx).foldl (fun (d : List Int) b => d.set (r * bytes + b.2) b.1.toNat) d) (List.replicate (g * bytes) 0)
  let x := collNew none (deviceDesc 4 7 0 0 bytes 0) index epoch 1 data
  (List.range 3).foldl (fun (s : State) a =>
    if s.castE a < 2 then s
    else (s.digestAxis x.single 7 bytes a).flatten.foldl (fun (s : State) h => if h.send ∧ !s.cutOff h then s.sendHop x h else s) s)
    (s.inc Reg.collectives)

end Sys2Proof.Machine
end

