-- ==== Sys2Proof/Machine/Jobs.lean ====
section
/-!
DEFINITION. The director cues (R245, R247, R248, R253, R260, R262, R264, R267): loading, starting, stopping and unloading a
job, changes of its recipe, parameters and matinee slice; and the DATA, JOIN, LOSS and METRIC cues.
-/
namespace Sys2Proof.Machine

open Sys2Proof

/-- The operation of a slot, if its cue has the opcode and has not been carried out. -/
def State.withOp (s : State) (i opcode : Nat) (f : OpSlot → State) : State :=
  match SMap.find s.ops i with
  | some o => if o.cue.opcode = opcode ∧ !o.started then f o else s
  | none => s

/-- Numbers of operation slots (R243). -/
def opOk (i : Nat) : Bool := decide (i < 16384)

/-! ### The runtime log (R518) -/

/-- The 64 bytes of measurement register k. -/
def State.measured (s : State) (k : Nat) : List Byte := (List.range 8).flatMap fun i => leBytes 8 (s.rd (Reg.measBase + 64 * k + 8 * i))

/-- Set measurement register k. -/
def State.setMeas (s : State) (k : Nat) (bs : List Byte) : State :=
  if k < 8 then (List.range 8).foldl (fun s i => s.wr (Reg.measBase + 64 * k + 8 * i) (fieldLE bs (8 * i) 8)) s else s

/-- Extend measurement register k with a value (R518). -/
def State.extendMeas (s : State) (k : Nat) (v : List Byte) : State :=
  s.setMeas k (toBytes (sha3_512 (natBytes (s.measured k ++ v))))

/-- One entry of the runtime log: M6 is extended and the last 1,024 entries are kept (R518). -/
def State.logEntry (s : State) (e : List Byte) : State :=
  let log := s.sec.log ++ [e]
  { s.extendMeas 6 e with sec := { s.sec with log := log.drop (log.length - 1024) } }

/-! ### JOB_LOAD -/

/-- The slots' standing that rejects a load before the package is read (R245, R448, R525, R376): status and cue offset. -/
def State.loadRefused (s : State) (slot jobId : Nat) : Nat × Nat :=
  let held : Bool := match s.sec.test with
    | some _ => slot == 3 || (List.range 144).any fun e => s.engSt e == US.test
        && bits 7 4 (s.unitEntry (UId.engine e)) != US.spare
    | none => false
  if s.jf slot Reg.jobState ≠ 0 ∨ held then (St.busy, 36)
  else if (s.jobOf jobId).isSome then (St.jobId, 4)
  else if s.fld Reg.fovRole = 1 then (St.notAllowed, 0xFFFF)
  else if s.fld Reg.castState ≠ 2 then (St.cast, 0xFFFF)
  else (0, 0xFFFF)

/-- What a load checks on this device alone, once the package has been read (R245, R295, R311, R322, R404, R415, R418). -/
def State.loadLocal (s : State) (j : Job) (items : List Item) : Nat :=
  let z := s.rd Reg.snapSize / 2 ^ 22 * 2 ^ 21
  let last := match items.getLast? with
    | some it => it.slotOff + it.bytes
    | none => 2 ^ 24
  let w := s.rd Reg.ckpProt
  firstStatus
    [ j.entriesCheck s.replicas, s.placementCheck j, firstFail
      [ (St.placement, decide (z < last)), (St.package, s.parityThere w && s.castE (parityAxis w) % max 1 (groupSize w) != 0),
        (St.package, (s.queue j.stepQueue).state != 1) ] ]

/-- The exchanges of a load with the other members (R210, R393, R426, R427, R428): status and state. SEED_CHECK shows what this device
sent. -/
def State.loadExchange (s : State) (j : Job) (items : List Item) (peers : List Peer) : Nat × State :=
  let ms := s.members j items 0 peers
  let s := s.setF Reg.seedCheckReg (seedCheck j.seed)
  match peers.find? fun p => p.seed != seedCheck j.seed with
  | some p =>
    let port := (s.route p.coord).getD 0
    (St.package, s.event Ev.seedMismatch (UId.port port) [(s.expected port).getD p.coord])
  | none =>
    if !s.castFits ms ∨ 2 ^ 24 < 128 + 80 * items.length then (St.consistency, s)
    else
      let corr := s.correlated ms
      let s := if corr then (s.correlatedPairs ms).foldl (fun s p => s.event Ev.correlated UId.stageManager [p.1, p.2]) s else s
      let ack := ms.all fun p => bitAt 4 (fieldLE p.place 9 1)
      let due := corr || bits 15 0 (s.rd Reg.ckpExport) != 0
      if corr ∧ !ack then (St.correlated, s)
      else if due ∧ s.rd Reg.exportBase = 0 then (St.correlated, s)
      else (0, s)

/-- What this member sends in the DIGESTs of a load (R393, R426, R427, R438): seed checks, places, sizes and restored steps, in the epoch of
the job's first attempt at `step`. -/
def State.loadDigests (s : State) (j : Job) (items : List Item) (step restored : Nat) (peers : List Peer) : State :=
  let ms := s.members j items restored peers
  let send := fun (s : State) (index n : Nat) (f : Peer → List Byte) =>
    s.sendDigest index (step % 2 ^ 24 * 256) n (ms.map fun p => (p.coord, f p))
  let s := send s 0xFFFFF3 8 fun p => leBytes 8 p.seed
  let s := send s 0xFFFFF6 16 fun p => p.prot
  let s := send s 0xFFFFF5 16 fun p => p.place
  send s 0xFFFFF8 8 fun p => leBytes 8 p.restored

/-- The open windows as their registers stand (R402). -/
def State.openWindows (s : State) : List (Nat × Nat × Nat × Int) :=
  (List.range 16).filterMap fun i =>
    let c := s.rd (Reg.openCtrl + 16 * i)
    if bits 31 0 c = 0 then none
    else some (s.rd (Reg.openBase + 16 * i), bits 31 0 c * 2 ^ 21, bits 35 32 c, sext 16 (bits 63 48 c))

/-- A watch record as its layout entry starts it (Table 5.6). -/
def Job.watchInit (j : Job) (i : Nat) : List Byte :=
  let t := (j.tensor i).getD (tensorOf i [])
  leBytes 1 1 ++ leBytes 1 8 ++ leBytes 1 (j.recipeAt i).fmt
    ++ leBytes 1 (4 * b2n t.watchOff + 2 * b2n t.isWeight + b2n t.isGradient) ++ leBytes 4 i ++ leBytes 56 0

/-- Banks in which a job's tensors lie, by the bank their addresses name. -/
def Job.banks (j : Job) : List Nat :=
  (j.tensorRanges.flatMap fun r => if r.1 < 0x3000_0000 then (unitsOf 0x40000 r.1 r.2).map (· / 0x40000) else []).eraseDups

/-- The banks that a job's tensors lock: those their addresses name, and those that serve them (R275, R289). -/
def State.heldBanks (s : State) (j : Job) : List Nat := (j.banks.flatMap fun b => [b, s.served1 b]).eraseDups

/-- The banks that the ADD-mode outputs of a job's step program open to the adds of Table 8.2 (R272). -/
def State.addBanks (s : State) (j : Job) : List Nat :=
  let named := j.program.filterMap fun raw => if fieldLE raw 2 1 = cProduct then j.finish[fieldLE raw 42 3]? else none
  let targets := named.filterMap fun r => let f := finOf r; if f.acc = 2 then j.tensor f.outRef else none
  targets.flatMap fun t => if t.base < 0x3000_0000 then
    (unitsOf 0x40000 t.base t.bytes).map fun b => s.served1 (b / 0x40000) else []

/-- Lock or unlock the banks of a job's tensors (R275). A bank that another job still holds stays locked, and open for adds if a
started holder named it so (R272). -/
def State.lockBanks (s : State) (slot : Nat) (j : Job) (on : Bool) : State :=
  (s.heldBanks j).foldl (fun s t =>
    let left := (s.bank t).holders.filter (· != slot)
    let holders := if on then left ++ [slot] else left
    let s := (s.setBank t { s.bank t with holders }).setBf t Reg.bankLocked (b2n (!holders.isEmpty))
    if on then s
    else
      let adds := left.any fun k => decide (3 ≤ s.jf k Reg.jobState) && (s.job k).any fun x => (s.addBanks x).contains t
      s.setBf t Reg.bankAddOpen (b2n adds)) s

/-- Mark the standby banks that BNK_STANDBY names, where none is in use yet: before a load looks at its package (R294, R295, R297). -/
def State.markStandby (s : State) : State :=
  (List.range 16).foldl (fun s c =>
    let base := 2304 + 48 * c
    let n := bits 5 0 (s.rd (Reg.bnkStandby + 8 * (c / 8)) >>> (8 * (c % 8)))
    if (List.range 48).any fun k => s.bf (base + k) Reg.bankAliasValid == 1 then s
    else
      let s := (List.range 44).foldl (fun s k => s.setBf (base + k) Reg.bankStandby 0) s
      s.setBf (base + n) Reg.bankStandby 1) s

/-- Latch the settings of the interval and of failover for a job, and show its place (R414, R415, R439). -/
def State.latchCkp (s : State) (slot index : Nat) (items : List Item) (correlated : Bool) : State :=
  let w := s.rd Reg.ckpProt
  let a := mirrorAxis w
  let off : Int := (mirrorOff w : Nat)
  let mirror := s.mirrorThere w
  let parity := s.parityThere w
  let bytes := (items.map (·.bytes)).foldl (· + ·) 0
  let s := { s with
    ckp := { Ckp.off with
      job := some slot, items, index, snapBase := s.rd Reg.snapBase, snapSize := s.rd Reg.snapSize
      mirrorBase := s.rd Reg.mirrorBase, mirrorSize := s.rd Reg.mirrorSize, parityBase := s.rd Reg.parityBase
      paritySize := s.rd Reg.paritySize, ctrl := s.rd Reg.ckpCtrl, prot := w, exportCtl := s.rd Reg.ckpExport
      exportBase := s.rd Reg.exportBase, exportSize := s.rd Reg.exportSlotSize, fovCtrl := s.rd Reg.fovCtrl
      mirrorOk := mirror, parityOk := parity, correlated, exportSlot := s.ckp.exportSlot }
    fabric := { s.fabric with windows := s.openWindows } }
  let s := ((s.wr 0xC0004 0).setF Reg.ckpCorrelated (b2n correlated)).setF Reg.ckpFullNext 1
  let s := (s.setF Reg.mirrorPartner (if mirror then s.shiftMember s.coord a off else noCoord)).setF Reg.mirrorSource
    (if mirror then s.shiftMember s.coord a (-off) else noCoord)
  let s := s.setF Reg.parityRunStart (if parity then s.groupStart w s.coord else noCoord)
  let s := s.setF Reg.parityIndex (if parity then s.castPos s.coord (parityAxis w) % max 1 (groupSize w) else 0)
  let s := s.setF Reg.parityUnit 0
  (((s.setF Reg.protectedStep 0).setF Reg.sealedStep 0).setF Reg.protMib (ceilDiv bytes (2 ^ 20)))

/-- Tensors whose history starts a refill (R99). -/
def State.refills (s : State) (j : Job) : Nat :=
  (List.range j.layout.length).countP fun i =>
    match j.tensor i with
    | some t => t.history != 0xFFFFFFFF
        && fieldLE (s.histBytes j t.history) 3 1 != 16
    | none => false

/-- A job is LOADED (R245, R196, R204, R208, R218, R275, R438, R453): its registers, its streams' keys, its watch records, its
banks; `book` is the prompt book it takes its counters from, if any, and `got` the items of a restore. -/
def State.putJob (s : State) (slot base : Nat) (j : Job) (items : List Item) (correlated : Bool) (book : List Byte)
    (got : List (Item × List Byte)) (restored startOk : Bool) : State :=
  let f := fun o n => fieldLE book o n
  let step := f 24 6
  let s := s.setJob slot
    { j with startOk, rebuildDue := !book.isEmpty, epoch := step % 2 ^ 24 * 256, sample := f 44 4, dataEpoch := f 48 4, large := decide (s.fld Reg.numSmallMax < s.castN) }
  let s : State := s.clearJob slot
  let s := (((s.setJf slot Reg.jobState 2).setJf slot Reg.jobId (j.hdr 4 4)).setJf slot Reg.jobStep step).setJf slot
    Reg.jobSkipped (f 32 8)
  let s := ((s.setJf slot Reg.jobPkgBase base).setJf slot Reg.jobShard (f 40 4)).setJf slot Reg.jobSample (f 44 4)
  let s := s.setJf slot Reg.jobNonrepro (bits 4 4 (f 3 1))
  let s := ((s.wr 0x80004 0).setF Reg.numCastLarge (b2n (decide (s.fld Reg.numSmallMax < s.castN)))).setF Reg.numReplay (b2n j.replay)
  let s := ((s.setF Reg.numWatchBase j.watchBase).setF Reg.numWatchCount j.layout.length).setF Reg.numSampleBufBase j.sampleBuf
  let s := s.setF Reg.numSampleBufSize j.sampleMib
  let s := ((s.setF Reg.seedCheckReg (seedCheck j.seed)).setF Reg.keyEpochReg (keyEpoch step)).setF Reg.rngKeyReady 1
  let s := { s with rng := { s.rng with job := some slot, rotEpoch := none, lanes := [] } }
  let s := s.setV 0
  let s := (s.devWrite (.manager (some slot)) j.watchBase ((List.range j.layout.length).flatMap j.watchInit)).2
  let s := s.lockBanks slot j true
  let s := s.latchCkp slot (f 52 4) items correlated
  let s : State := got.foldl (fun s g => s.itemRestore slot g.1 g.2) s
  let s : State := if restored && !got.any (fun g => g.1.kind == 2) then
      (s.devWrite (.manager (some slot)) j.histBase ((List.range j.hist.length).flatMap fun _ => Hist.empty.bytes)).2
    else s
  let n : Nat := s.refills ((s.job slot).getD j)
  let s : State := if 0 < n then s.event Ev.historyRefill UId.stageManager [n] else s
  if restored then s.event Ev.restored UId.stageManager [step, f 40 4, f 44 4] else s

/-- JOB_LOAD once its package lies in HBM and its slot is free (R245): the operation completes with a status. A restore that the far tier
fails takes the export fallback (R324). -/
def State.load (s : State) (i slot base bytes jobId : Nat) (peers : List Peer) : State :=
  match s.markStandby.readPackage base bytes with
  | (e, job, head, s) =>
    let s := if 128 < head.length then s.logEntry (toBytes (sha3_512 (natBytes head))) else s
    match job with
    | none => s.opReject i e 0xFFFF
    | some j =>
      let items := placeItems (2 ^ 24) j.itemList
      let e := s.loadLocal j items
      if j.hdr 4 4 ≠ jobId then s.opReject i St.jobId 4
      else if e ≠ 0 then s.opReject i e 0xFFFF
      else if s.fld Reg.fovState = 3 then
        if !s.fov.bookOk ∨ !s.bookMatches j items s.fov.book ∨ bitAt 0 (j.hdr 3 1) then s.opReject i St.consistency 0xFFFF
        else
          let has := fun _ (e : Item × Nat) => bitAt 4 (fieldLE (bookEntry s.fov.book e.2) 3 1)
          (s.putJob slot base j (allocBases has items) (bitAt 5 (fieldLE s.fov.book 3 1)) s.fov.book [] false true).opDone i 0 0
      else
        match s.loadExchange j items peers with
        | (0, s) =>
          let w := s.rd Reg.ckpProt
          let partner := s.shiftMember s.coord (mirrorAxis w) (mirrorOff w : Nat)
          let cap := match peers.find? fun p => p.coord == partner with
            | some p => mirrorCap (fieldLE p.prot 0 4 * 2 ^ 21)
            | none => 0
          let items := if s.mirrorThere w then allocBases (fitsIn cap) items else items
          let corr := s.correlated (s.members j items 0 peers)
          if bitAt 0 (j.hdr 3 1) then
            match s.readExport j items with
            | (0, book, got, s) =>
              let step := fieldLE book 24 6
              let same := peers.all fun p => p.restored == step
              ((s.loadDigests j items step step peers).putJob slot base j items corr book got true same).opDone i 0 0
            | (e, _, _, s) => if e = St.farError ∨ e = St.timeout then (s.opReject i e 0xFFFF).exportFallback else s.opReject i e 0xFFFF
          else ((s.loadDigests j items 0 0 peers).putJob slot base j items corr [] [] false (peers.all fun p => p.restored == 0)).opDone i 0 0
        | (e, s) => s.opReject i e 0xFFFF

/-- JOB_LOAD (R245). `peers` are the other members' contributions to the exchanges of a load. -/
def execJobLoad (op : Nat) (peers : List Peer) (s : State) : Host.Outcome State Fault Refusal :=
  run (opOk op) (fun s =>
    s.withOp op cJobLoad fun o =>
      let slot := o.cue.op 36 1
      let base := o.cue.op 40 8
      let bytes := o.cue.op 48 8
      match s.loadRefused slot o.cue.jobId with
      | (0, _) =>
        if s.tierOf base bytes = some .hbm then s.load op slot base bytes o.cue.jobId peers
        else s.opReject op St.address 40
      | (e, d) => s.opReject op e d) s

/-! ### JOB_START, JOB_STOP, JOB_UNLOAD (R267, R410, R438) -/

/-- The job of the slot that a director cue acts on, if it is the one the cue names. -/
def State.withSlot (s : State) (i : Nat) (o : OpSlot) (f : Nat → Job → State) : State :=
  let slot := o.cue.op 36 1
  match s.job slot with
  | some j => if s.jf slot Reg.jobId = o.cue.jobId ∧ s.jf slot Reg.jobState ≠ 0 then f slot j else s.opReject i St.jobId 4
  | none => s.opReject i St.jobId 4

/-- Banks that hold the targets of ADD-mode outputs accept the requests of Table 8.2 (R272). -/
def State.openAdds (s : State) (j : Job) : State :=
  (s.addBanks j).foldl (fun s b => s.setBf b Reg.bankAddOpen 1) s

/-- JOB_START (R267, R410): the job runs from the next attempt, which a full interval precedes. -/
def execJobStart (op : Nat) (s : State) : Host.Outcome State Fault Refusal :=
  run (opOk op) (fun s =>
    s.withOp op cJobStart fun o => s.withSlot op o fun slot j =>
      let st := s.jf slot Reg.jobState
      if st ≠ 2 ∧ st ≠ 4 then s.opReject op St.notAllowed 36
      else if !j.startOk then s.opReject op St.consistency 36
      else
        let s := (s.setJf slot Reg.jobState 3).modJob slot fun (j : Job) => { j with failed := 0, stopNext := false }
        let s := s.openAdds j
        let s := if s.ckp.job = some slot then
            { s with ckp := { s.ckp with starting := true, full := true, barrier := s.fld Reg.ckpSSealed == 1 } }.setF
              Reg.ckpFullNext 1
          else s
        s.opDone op 0 0) s

/-- JOB_STOP (R256, R267): at the step boundary, or with IMMEDIATE before UPDATE at once. -/
def execJobStop (op : Nat) (s : State) : Host.Outcome State Fault Refusal :=
  run (opOk op) (fun s =>
    s.withOp op cJobStop fun o => s.withSlot op o fun slot j =>
      let now := bitAt 0 (o.cue.op 37 1)
      let ph := s.jf slot Reg.jobPhase
      if s.jf slot Reg.jobState ≠ 3 then s.opDone op 0 0
      else if !j.isOpen then
        (if s.inStop ∧ s.ckp.job = some slot then s.modJob slot fun (j : Job) => { j with stopNext := true }
         else s.setJf slot Reg.jobState 4).opDone op 0 0
      else if now ∧ ph < 5 then ((s.abandon slot Cause.stop).setJf slot Reg.jobState 4).opDone op 0 0
      else (s.modJob slot fun (j : Job) => { j with stopNext := true }).opDone op 0 0) s

/-- Release a slot: its cues end with status ABANDONED, its banks are unlocked, its protection ends. -/
def State.unload (s : State) (slot : Nat) (j : Job) : State :=
  let s := s.abandonCues fun c => c.job == some slot && c.opcode < 0x40
  let s := s.lockBanks slot j false
  let s : State := { s with jobs := SMap.del s.jobs slot }
  let s : State := s.clearJob slot
  let s : State := if s.rng.job = some slot then { s with rng := { s.rng with job := none } }.setF Reg.rngKeyReady 0 else s
  if s.ckp.job = some slot then { s with ckp := { s.ckp with job := none, items := [], stopping := false, exporting := none } }
  else s

/-- JOB_UNLOAD (R267). -/
def execJobUnload (op : Nat) (s : State) : Host.Outcome State Fault Refusal :=
  run (opOk op) (fun s =>
    s.withOp op cJobUnload fun o => s.withSlot op o fun slot j =>
      if s.jf slot Reg.jobState = 3 then s.opReject op St.notAllowed 36 else (s.unload slot j).opDone op 0 0) s

/-! ### Changes between steps (R247, R253, R260, R262) -/

/-- The job of a cue that is bound to one. -/
def State.withJob (s : State) (i : Nat) (o : OpSlot) (f : Nat → Job → State) : State :=
  match o.cue.job.bind fun slot => (s.job slot).map fun j => (slot, j) with
  | some (slot, j) => f slot j
  | none => s.opReject i St.jobId 4

/-- Bits an element format takes for each element. -/
def fmtBits (c : Nat) : Nat := ((eFmtOf c).map EFmt.width).getD 0

/-- What a RECIPE cue's entry is checked for (R92, R199, R247): status and cue offset. -/
def Job.recipeChange (j : Job) (i : Nat) (bs : List Byte) : Nat × Nat :=
  let r := recipeOf bs
  let form := recipeForm bs
  match j.tensor i with
  | none => (St.operands, 36)
  | some t =>
    let fb := ((j.tensor t.fb).map fun f => fmtBits f.fmt).getD 0
    if form ≠ 0 then (form, 40)
    else if t.record = 0 then (0, 0xFFFF)
    else if (eFmtOf r.fmt).isNone then (St.range, 42)
    else if max (fmtBits t.fmt) fb < fmtBits r.fmt then (St.placement, 42)
    else if r.esc ∧ (t.isWeight ∨ !((eFmtOf r.fmt).map EFmt.hasEscape).getD false) then (St.operands, 43)
    else if !r.inRange t.isWeight then (St.range, 43)
    else if j.replay ∧ (r.rot ≠ 0 ∨ r.esc ∨ ((eFmtOf r.fmt).map EFmt.fourBit).getD false) then (St.replay, 40)
    else (0, 0xFFFF)

/-- RECIPE (R247): the entry changes at the next attempt open. -/
def execRecipe (op : Nat) (s : State) : Host.Outcome State Fault Refusal :=
  run (opOk op) (fun s =>
    s.withOp op cRecipe fun o => s.withJob op o fun slot j =>
      let i := o.cue.op 36 3
      let bs := (o.cue.raw.drop 40).take 8
      match j.recipeChange i bs with
      | (0, _) => (s.modJob slot fun (j : Job) => { j with pendRecipe := j.pendRecipe ++ [(i, bs)] }).opDone op 0 0
      | (e, d) => s.opReject op e d) s

/-- PARAM (R253): one word of an update descriptor changes at the next attempt open. -/
def execParam (op : Nat) (s : State) : Host.Outcome State Fault Refusal :=
  run (opOk op) (fun s =>
    s.withOp op cParam fun o => s.withJob op o fun slot j =>
      let i := o.cue.op 36 3
      let w := o.cue.op 39 1
      let v := o.cue.op 40 4
      match j.upd[i]? with
      | none => s.opReject op St.operands 36
      | some bs =>
        if (updOf (bs.take (4 * w) ++ leBytes 4 v ++ bs.drop (4 * w + 4))).inRange then
          (s.modJob slot fun (j : Job) => { j with pendParam := j.pendParam ++ [(i, w, v)] }).opDone op 0 0
        else s.opReject op St.range 40) s

/-- The held outputs of a later epoch are discarded; the completions among them are written with status ABANDONED (R256, R260). -/
def State.dropHeld (s : State) (slot epoch : Nat) : State :=
  match s.job slot with
  | some j =>
    let s := (j.outbound.filter fun h => h.1 == epoch).foldl (fun (s : State) h => match h.2 with
      | .cpl q r => s.putRecord q (r.take 4 ++ leBytes 2 St.abandoned ++ r.drop 6)
      | _ => s) s
    s.modJob slot fun (j : Job) => { j with outbound := j.outbound.filter fun h => h.1 != epoch }
  | none => s

/-- CANCEL_AHEAD (R260): the run-ahead cues end with status ABANDONED, their held outputs are discarded, and their epoch is cancelled. -/
def execCancelAhead (op : Nat) (s : State) : Host.Outcome State Fault Refusal :=
  run (opOk op) (fun s =>
    s.withOp op cCancelAhead fun o => s.withJob op o fun slot _ =>
      let e := s.nextEpoch slot
      let s := s.abandonCues fun c => c.job == some slot && c.ahead && c.runahead
      let s := (s.dropHeld slot e).modJob slot Job.dropAhead
      let s := (s.setJf slot Reg.jobAhead 0).flood nkCancel Cause.stop 0 e 0
      s.opDone op 0 0) s

/-! ### DATA, JOIN, LOSS, METRIC (R235, R248, R251, R261, R265) -/

/-- A sample's header holds and its tokens fit (R265); log entry 40 for the bytes of a token. -/
def sampleOk (h : List Byte) (bytes : Nat) : Bool :=
  formStatus h == 0 && fieldLE h 2 2 == 0 && bits 31 20 (fieldLE h 8 4) == 0 && fieldLE h 12 4 == 0
    && decide ((bits 19 0 (fieldLE h 8 4) + 1) * Config.tokenBytes + 16 ≤ bytes)

/-- Check samples k of a shard buffer from its first: 0, or the status that fails the DATA cue. -/
def State.checkSamples (s : State) (rq : Requester) (buf bytes : Nat) : Nat → Nat → Nat × State
  | _, 0 => (0, s)
  | k, n + 1 =>
    match s.devRead rq (buf + k * bytes) 16 with
    | (0, h, s) => if sampleOk h bytes then s.checkSamples rq buf bytes (k + 1) n else (St.sample, s)
    | (e, _, s) => (e, s)

/-- DATA (R248, R265): a shard buffer is lent; the cue completes once a snapshot lies after its last sample. The first shard lent after
a restore is taken up at the restored SAMPLE. -/
def execData (op : Nat) (s : State) : Host.Outcome State Fault Refusal :=
  run (opOk op) (fun s =>
    s.withOp op cData fun o => s.withJob op o fun slot j =>
      let src := o.cue.op 36 1
      match (j.data.map dataOf).find? fun d => d.source == src with
      | none => s.opReject op St.operands 36
      | some d =>
        let n := o.cue.op 42 4
        let buf := o.cue.op 48 8
        match s.checkSamples (.manager (some slot)) buf d.sampleBytes 0 n with
        | (0, s) =>
          let taken := if j.shards.isEmpty ∧ 0 < j.sample then [(0, min j.sample n)] else []
          let sh : Shard := { source := src, shard := o.cue.op 38 4, samples := n, buf, newEpoch := bitAt 0 (o.cue.op 37 1), op, taken }
          ((s.modJob slot fun (j : Job) => { j with shards := j.shards ++ [sh], sample := 0 }).showCursor slot).opDone op 0 1
        | (e, s) =>
          let s := if e = St.sample then
              s.event Ev.sampleRejected UId.stageManager [o.cue.queue.getD 0xFFFFFFFF, o.cue.index] St.sample
            else s
          s.opDone op e 0) s

/-- JOIN (Table 7.2): completes when its dependencies have completed. -/
def execJoin (op : Nat) (s : State) : Host.Outcome State Fault Refusal :=
  run (opOk op) (fun s => s.withOp op cJoin fun _ => s.opDone op 0 0) s

/-- LOSS (R251): the loss tensor's elements are kept for the witness record; a non-finite one cancels the attempt at once
(R256); one that a LOSS run ahead meets counts for the attempt that opens next (R251, R260). A LOSS of no attempt has no part in
either. -/
def execLoss (op : Nat) (s : State) : Host.Outcome State Fault Refusal :=
  run (opOk op) (fun s =>
    s.withOp op cLoss fun o => s.withJob op o fun slot j =>
      match j.tensor (o.cue.op 36 3) with
      | none => s.opReject op St.operands 36
      | some t =>
        if t.fmt ≠ fmtF32 then s.opReject op St.format 36
        else match s.devRead (.manager (some slot)) t.base (4 * t.elems) with
        | (0, bs, s) =>
          let codes := leWords 4 t.elems bs
          let bad := codes.any fun c => (f32Val c).nonFinite
          let s := (s.modJob slot fun (j : Job) =>
            if o.cue.ofAttempt slot then { j with losses := SMap.put j.losses o.cue.index codes, nfLoss := j.nfLoss + b2n bad }
            else if o.cue.ahead then { j with nfLossAhead := j.nfLossAhead + b2n bad } else j).opDone op 0 0
          if bad ∧ o.cue.ofAttempt slot then s.abandon slot Cause.nfLoss else s
        | (e, _, s) => s.opEnd op e 0 t.base) s

/-- METRIC (R252, R261): bytes of a tensor go to the far tier, at COMMIT for a cue of an attempt. -/
def execMetric (op : Nat) (s : State) : Host.Outcome State Fault Refusal :=
  run (opOk op) (fun s =>
    s.withOp op cMetric fun o => s.withJob op o fun slot j =>
      let a := o.cue.op 40 8
      let n := o.cue.op 48 4
      match j.tensor (o.cue.op 36 3) with
      | none => s.opReject op St.operands 36
      | some t =>
        if t.bytes < n ∨ s.tierOf a n ≠ some .far then s.opReject op (if t.bytes < n then St.operands else St.address) 40
        else match s.devRead (.manager (some slot)) t.base n with
        | (0, bs, s) =>
          if o.cue.inAttempt then
            let s := s.modJob slot fun (j : Job) => { j with outbound := j.outbound ++ [(o.cue.epoch.getD 0, .metric a bs)] }
            ((match s.job slot with
              | some j => s.setJf slot Reg.jobOutboundUsed (ceilDiv j.outboundBytes (2 ^ 20))
              | none => s).opDone op 0 0)
          else
            let (e, s) := s.devWrite (.manager (some slot)) a bs
            s.opDone op e 0
        | (e, _, s) => s.opEnd op e 0 t.base) s

end Sys2Proof.Machine
end

