-- ==== Sys2Proof/Machine/Collective.lean ====
section
/-!
DEFINITION. Collectives: how a schedule runs (R387), its chunks and their reduction (R386, R388), the common exponent (R389), SEND and RECV (R383, R384), and what a finished collective writes.
-/
namespace Sys2Proof.Machine

open Sys2Proof

/-! ### Running a schedule -/

/-- The key of an operation's collective. -/
def collKey (op : Nat) : Nat := op

/-- Every transfer of a list that can go out now; what is left starts with one that is awaited, or that a FAILED member stops (R400). -/
def State.sendHops (s : State) (x : Coll) : List Hop → List Hop × State
  | [] => ([], s)
  | h :: hs =>
    if h.send then (if s.cutOff h then (h :: hs, s) else (s.sendHop x h).sendHops x hs)
    else if h.elems.isEmpty then s.sendHops x hs else (h :: hs, s)

/-- Ports on which the transfers before what is left have gone out. -/
def sentPorts (all left : List Hop) : List Nat :=
  ((all.take (all.length - left.length)).filter fun h => h.send && !h.elems.isEmpty).map (·.port)

/-- A transfer is stopped by a FAILED member. -/
def Coll.stuck (x : Coll) : Bool := x.tracks.any fun t => (t.head?.map (·.send)).getD false

/-- The transfers of the next axis. -/
def State.nextAxis (s : State) (x : Coll) (a : Nat) (gather : Bool) : Coll :=
  let d := collOf x.desc
  match d.kind with
  | 1 | 3 =>
    let (t, share) := s.reduceAxis x a gather (if d.kind = 1 then 1 else 2)
    { x with tracks := t, share, shares := if gather then x.shares else (a, x.share) :: x.shares }
  | 2 => { x with tracks := s.broadcastAxis x.single d.axes d.peer x.data.length a }
  | 4 => { x with tracks := s.digestAxis x.single d.axes d.bytes a }
  | _ => { x with tracks := [] }

/-- Run a collective as far as it goes without another chunk; fuel bounds the axes entered. -/
def State.driveColl (s : State) (x : Coll) : Nat → Coll × State
  | 0 => (x, s)
  | k + 1 =>
    let (tracks, s) := x.tracks.foldl (fun (acc : List (List Hop) × State) t =>
      let (l, s) := acc.2.sendHops x t
      (acc.1 ++ [l], s)) ([], s)
    let sent := (x.tracks.zip tracks).flatMap fun e => sentPorts e.1 e.2
    let x := { x with tracks := tracks.filter fun t => !t.isEmpty, sent := (x.sent ++ sent).eraseDups }
    match x.tracks, x.passes with
    | [], (a, g) :: ps => s.driveColl (s.nextAxis { x with passes := ps } a g) k
    | _, _ => (x, s)

/-- Nothing of it is left. -/
def Coll.done (x : Coll) : Bool := x.tracks.isEmpty && x.passes.isEmpty

/-- Axes in reduce order, and for a full reduction in gather order after it (R387). -/
def State.passesOf (s : State) (x : Coll) : List (Nat × Bool) :=
  let d := collOf x.desc
  let up := (List.range 3).filter fun a => bitAt a d.axes && decide (2 ≤ s.castE a)
  match d.kind with
  | 1 | 3 => up.map (·, false) ++ (if x.single then [] else (up.reverse.filter fun a => s.axisKind a == 1).map (·, true))
  | 2 | 4 => up.map (·, false)
  | _ => []

/-! ### What a finished collective leaves -/

/-- The requester of an operation of a job. -/
def collRq (o : OpSlot) : Requester := .manager o.cue.job

/-- The operation's own part is done: a FENCE follows on every port that its collective sent transfers on, and acknowledges them (R240,
R356). -/
def State.fenceColl (s : State) (i : Nat) (x : Coll) : State := (x.sent.foldl (fun s p => s.sendFence p [i]) s).opDone i 0 x.sent.length

/-- Write the result of an operation's collective (R388, R394, R395); the operation then waits for its FENCEs. -/
def State.finishOpColl (s : State) (i : Nat) (x : Coll) : State :=
  match SMap.find s.ops i with
  | none => s
  | some o =>
    match o.cue.job.bind fun slot => (s.job slot).map fun j => (slot, j) with
    | none => s
    | some (slot, j) =>
      let d := collOf x.desc
      let s := s.inc Reg.collectives
      let isTarget := d.kind != 5 || d.peer == s.coord
      match j.tensor d.outRef with
      | none => s.fenceColl i x
      | some t =>
        let body := if isTarget then [(t.base, x.wire (List.range x.data.length))] else []
        let rec' := if d.kind = 1 ∧ t.record ≠ 0 then [(t.record, reducedRecord x.bound x.sat x.ec o.cue.step)] else []
        let (e, s) := s.devWrites (collRq o) (body ++ rec')
        let s := if d.kind = 1 then s.ownWrite (j.collBase + 64 * x.index + 32) (leBytes 2 (twos 16 x.ec)) else s
        let top := x.data.foldl (fun m v => max m v.natAbs) 0
        let s := if d.kind = 1 ∧ o.cue.ofAttempt slot then s.modJob slot fun (j : Job) =>
            { j with sat := j.sat + b2n x.sat, amax := SMap.put j.amax d.outRef (w16Up (Val.ofRat ((top : Rat) * pow2 x.ec))) }
          else s
        let s := if d.kind = 1 ∧ x.sat then s.inc Reg.collSat else s
        let s := if d.kind = 1 ∧ e = 0 ∧ o.cue.ofAttempt slot then s.formSums slot fun g => g.isReduced && g.idx == t.idx else s
        if e = 0 then s.fenceColl i x else s.opAbortAt i e t.base

/-- Keep a collective, or finish it; an operation's whose way a FAILED member cuts ends with LINK_DOWN (R400). -/
def State.putColl (s : State) (key : Nat) (x : Coll) : State :=
  let (x, s) := s.driveColl x 8
  if x.done then
    match x.op with
    | some i => { s with colls := SMap.del s.colls key }.finishOpColl i x
    | none => { s with colls := SMap.put s.colls key x }.inc Reg.collectives
  else match (if x.stuck then x.op else none) with
    | some i => { s with colls := SMap.del s.colls key }.opDone i St.linkDown 0
    | none => { s with colls := SMap.put s.colls key x }

/-- Start a collective: its data and its first transfers. -/
def State.startColl (s : State) (key : Nat) (x : Coll) : State :=
  let x := { x with share := List.range x.data.length }
  s.putColl key { x with passes := s.passesOf x }

/-! ### Receiving a chunk (R387, R388) -/

/-- The transfer that a chunk belongs to: its track and itself, if it is the next one awaited there. -/
def Coll.awaits (x : Coll) (p round : Nat) : Option (Nat × Hop) :=
  (x.tracks.zipIdx.findSome? fun t => match t.1 with
    | h :: _ => if !h.send && h.port == p && h.round == round then some (t.2, h) else none
    | [] => none)

/-- Bring a received value to the one held (R388, R394, R395). -/
def joinVal (how : Nat) (old new : Int) : Int × Bool :=
  match how with
  | 0 => (new, false)
  | 1 => satSum 32 old new
  | 2 => (max old new, false)
  | _ => ((Nat.xor old.toNat new.toNat : Nat), false)

/-- A chunk joins the data; the transfer ends with its last chunk. -/
def Coll.take (x : Coll) (track : Nat) (h : Hop) (chunk : Nat) (body : List Byte) : Coll :=
  let at' := x.chunk h chunk
  let vals := (leWords x.width at'.length body).map fun w => if x.width = 4 then sext 32 w else (w : Int)
  let joined := (at'.zip vals).map fun e => (e.1, joinVal h.how (x.data.getD e.1 0) e.2)
  let data := joined.foldl (fun (d : List Int) e => d.set e.1 e.2.1) x.data
  let got := (h.round * 2 ^ 24 + chunk) :: x.got
  let n := got.countP fun k => k / 2 ^ 24 == h.round
  let x := { x with data, sat := x.sat || joined.any fun e => e.2.2 }
  if x.chunks h ≤ n then
    { x with got := got.filter fun k => k / 2 ^ 24 != h.round, tracks := x.tracks.set track ((x.tracks.getD track []).drop 1) }
  else { x with got }

/-- The running collective that a COLLECTIVE_STEP belongs to (R385, R425): key, collective, track and transfer. -/
def State.collFor (s : State) (p : Nat) (t : Txn) : Option (Nat × Coll × Nat × Hop) :=
  let index := t.arg % 2 ^ 24
  let round := bits 39 24 t.arg
  s.colls.findSome? fun e =>
    if e.2.index == index && e.2.epoch == t.epoch then (e.2.awaits p round).map fun h => (e.1, e.2, h.1, h.2) else none

/-- Apply a COLLECTIVE_STEP that a running collective awaits; none if none does yet. -/
def State.applyStep (s : State) (p : Nat) (t : Txn) (body : List Byte) : Option State :=
  match s.collFor p t with
  | some f => some (s.putColl f.1 (f.2.1.take f.2.2.1 f.2.2.2 (bits 63 40 t.arg) body))
  | none => none

/-! ### Inputs (R386, R389) -/

/-- One element on the grid 2^ec (R386): its integer and whether SAT is set. -/
def toI32 (ec : Int) (v : Val) : Int × Bool :=
  let (i, excess, _) := toGrid 32 ec v
  (i, excess || v.nonFinite)

/-- E of a member (R389): the ceiling logarithm of its largest finite input, −32,768 for none. -/
def maxExp (vs : List Val) : Int :=
  let top := vs.foldl (fun (m : Rat) v => max m (rabs ((v.rat?).getD 0))) 0
  if top = 0 then -32768 else ceilLog2 top

/-- Ec by bound over a group of g members (Table 2.9, R389). -/
def boundEc (es : List Int) (g : Nat) : Int :=
  let e := es.foldl max (-32768)
  if e = -32768 then 0 else e + ceilLog2 (g : Rat) - 30

/-- The operation of a COLLECTIVE cue of one kind: its job, its descriptor and index. An index past the section is an operand
error (R235); the vote descriptor's is R468's. -/
def State.withColl (s : State) (i kind : Nat) (f : OpSlot → Nat → Job → Nat → CollDesc → List Byte → State) : State :=
  s.withOp i cCollective fun o => s.withJob i o fun slot j =>
    let index := o.cue.op 36 3
    match j.coll[index]? with
    | none => s.opReject i St.operands 36
    | some bs =>
      if index = 0 ∧ 2 ≤ s.castE 1 * s.castE 2 then s.opReject i St.consistency 36
      else if (collOf bs).kind = kind then f o slot j index (collOf bs) bs else s

/-- COLLECTIVE, kind ALLREDUCE (R386 to R391). `exps` are the other members' contributions to the maximum exchange of a B-mode
exponent. The integers of an I32 input are taken as they are, already on the grid 2^Ec (R386, R389; DEDUCED, log entry 138). -/
def execCollectiveAllreduce (op : Nat) (exps : List Int) (s : State) : Host.Outcome State Fault Refusal :=
  run (opOk op) (fun s =>
    s.withColl op 1 fun o _ j index d bs =>
      match j.tensor d.inRef, j.tensor d.outRef with
      | some t, some out =>
        if t.fmt ≠ d.inFmt ∨ out.fmt ≠ fmtI32 ∨ out.elems ≠ t.elems then s.opReject op St.format 36
        else match s.readVals (collRq o) t 0 t.elems with
        | (0, vs, ovf, s) =>
          let g := groupCount (s.groupPos d.axes s.coord)
          let byHist := match (j.exps[d.outRef]?).bind (·.hist) with
            | some a => if j.allB then none else some a
            | none => none
          let (ec, bound) :=
            if d.ecMode = 1 ∧ !j.allB then (d.exp, false)
            else match byHist with
            | some a => (hEc a (j.recipeAt d.outRef).margin, false)
            | none => (boundEc (maxExp vs :: exps) g, true)
          match (if t.fmt = fmtI32 then s.i32Exp (collRq o) t else (0, ec, s)) with
          | (0, grid, s) =>
            let xs := vs.map (toI32 grid)
            let x := { collNew (some op) bs index (o.cue.torusEpoch s) 4 (xs.map (·.1)) with
                       ec, bound, sat := ovf || xs.any (·.2) }
            (s.opDone op 0 1).startColl (collKey op) x
          | (e, _, s) => s.opAbortAt op e t.record
        | (e, _, _, s) => s.opAbortAt op e t.base
      | _, _ => s.opReject op St.operands 36) s

/-- COLLECTIVE, kind MAX (R394): the elementwise signed maximum of I32 inputs. -/
def execCollectiveMax (op : Nat) (s : State) : Host.Outcome State Fault Refusal :=
  run (opOk op) (fun s =>
    s.withColl op 3 fun o _ j index d bs =>
      match j.tensor d.inRef, j.tensor d.outRef with
      | some t, some out =>
        if t.fmt ≠ fmtI32 ∨ out.fmt ≠ fmtI32 ∨ out.elems ≠ t.elems then s.opReject op St.format 36
        else match s.devRead (collRq o) t.base (4 * t.elems) with
        | (0, raw, s) =>
          let xs := (leWords 4 t.elems raw).map (sext 32 ·)
          (s.opDone op 0 1).startColl (collKey op) (collNew (some op) bs index (o.cue.torusEpoch s) 4 xs)
        | (e, _, s) => s.opAbortAt op e t.base
      | _, _ => s.opReject op St.operands 36) s

/-- Bytes of a tensor as numbers. -/
def byteVals (bs : List Byte) : List Int := bs.map fun b => (b.toNat : Int)

/-- COLLECTIVE, kind DIGEST (R394): every member's bytes at its rank order. -/
def execCollectiveDigest (op : Nat) (s : State) : Host.Outcome State Fault Refusal :=
  run (opOk op) (fun s =>
    s.withColl op 4 fun o _ j index d bs =>
      match j.tensor d.inRef, j.tensor d.outRef with
      | some t, some out =>
        let pos := s.groupPos d.axes s.coord
        let g := groupCount pos
        if t.bytes < d.bytes ∨ out.bytes < g * d.bytes then s.opReject op St.operands 36
        else match s.devRead (collRq o) t.base d.bytes with
        | (0, raw, s) =>
          let r := rankOf pos
          let data := List.replicate (r * d.bytes) 0 ++ byteVals raw ++ List.replicate ((g - 1 - r) * d.bytes) 0
          (s.opDone op 0 1).startColl (collKey op) (collNew (some op) bs index (o.cue.torusEpoch s) 1 data)
        | (e, _, s) => s.opAbortAt op e t.base
      | _, _ => s.opReject op St.operands 36) s

/-- COLLECTIVE, kind BROADCAST (R394): the root's bytes on every member. -/
def execCollectiveBroadcast (op : Nat) (s : State) : Host.Outcome State Fault Refusal :=
  run (opOk op) (fun s =>
    s.withColl op 2 fun o _ j index d bs =>
      match j.tensor d.inRef, j.tensor d.outRef with
      | some t, some out =>
        let n := if d.bytes = 0 then t.bytes else d.bytes
        if t.bytes < n ∨ out.bytes < n then s.opReject op St.operands 36
        else if d.peer = s.coord then
          match s.devRead (collRq o) t.base n with
          | (0, raw, s) => (s.opDone op 0 1).startColl (collKey op) (collNew (some op) bs index (o.cue.torusEpoch s) 1 (byteVals raw))
          | (e, _, s) => s.opAbortAt op e t.base
        else (s.opDone op 0 1).startColl (collKey op) (collNew (some op) bs index (o.cue.torusEpoch s) 1 (List.replicate n 0))
      | _, _ => s.opReject op St.operands 36) s

/-- A member of an XOR collective that others send through: a FENCE from its target's side is answered only after one to the side that
its chunks come from (R380's covering; DEDUCED, log entry 129). -/
def State.coverXor (s : State) (tracks : List (List Hop)) : State :=
  tracks.foldl (fun (s : State) t =>
    match (t.find? fun h => !h.send), t.find? (·.send) with
    | some i, some o => s.modPort o.port fun x => if x.fwd.contains (i.port, none) then x else { x with fwd := x.fwd ++ [(i.port, none)] }
    | _, _ => s) s

/-- COLLECTIVE, kind XOR (R395, R396): contributions meet at the target, which fences the ports they come on. A member that cannot read its
own passes the others' on and reports UNCORRECTABLE toward the target, whose cue ends with TORUS_ERROR. -/
def execCollectiveXor (op : Nat) (s : State) : Host.Outcome State Fault Refusal :=
  run (opOk op) (fun s =>
    s.withColl op 5 fun o _ j index d bs =>
      match j.tensor d.inRef with
      | some t =>
        let n := if d.bytes = 0 then t.bytes else d.bytes
        let a := if d.axes = 1 then 0 else if d.axes = 2 then 1 else 2
        let tracks := s.xorTracks a d.runStart d.runLen d.peer n 0
        let start := fun (s : State) (status : Nat) (data : List Int) =>
          let x := collNew (some op) bs index (o.cue.torusEpoch s) 1 data
          let from' := if d.peer = s.coord then (tracks.flatten.map (·.port)).eraseDups else []
          ((s.coverXor tracks).opDone op status 1).putColl (collKey op) { x with tracks, sent := from' }
        if t.bytes < n then s.opReject op St.operands 36
        else if d.peer = s.coord then
          (match j.tensor d.outRef with
           | some out => if out.bytes < n then s.opReject op St.operands 36 else start s 0 (List.replicate n 0)
           | none => s.opReject op St.operands 36)
        else match s.devRead (collRq o) t.base n with
        | (0, raw, s) => start s 0 (byteVals raw)
        | (e, _, s) =>
          let toward := (tracks.flatten.filter (·.send)).map (·.port)
          let s := if e = St.uncorrectable then toward.foldl (fun s p => s.countError p tsUncorrectable 0 1) s else s
          if e = St.uncorrectable ∧ !o.cue.inAttempt then start s e (List.replicate n 0) else s.opAbortAt op e t.base
      | none => s.opReject op St.operands 36) s

/-! ### SEND and RECV (R383, R384) -/

/-- The prefix of a SEND (Table 11.1). -/
def sendPrefix (mb off : Nat) : List Byte := leBytes 1 1 ++ leBytes 1 2 ++ leBytes 1 mb ++ leBytes 1 0 ++ leBytes 5 off ++ leBytes 7 0

/-- A port takes this device's own transactions: it is UP, or trains again with its state kept (R349), and faces no FAILED member (R400). -/
def State.canSend (s : State) (p : Nat) : Bool :=
  s.pf p Reg.portNeighbour != 3
    && (s.pst p == PS.up || ((s.port p).live && (s.pst p == PS.retrain || (PS.train ≤ s.pst p && s.pst p ≤ PS.hello))))

/-- The sender rejects a transaction before sending it (R354, R379): an event names its status, and its cue completes with TORUS_ERROR, for
Table 18.4 has no status of its own for it (DEDUCED, log entry 124). -/
def State.senderReject (s : State) (op dst status : Nat) : State :=
  (s.event Ev.txnRejected (UId.port ((s.route dst).getD 0)) [status, 0]).opDone op St.torusError 0

/-- COLLECTIVE, kind SEND (R383, R379): the slice leaves in SENDs on VC 0 and a FENCE. A peer outside the cast or not adjacent is refused
before anything is sent (R354, R379). -/
def execCollectiveSend (op : Nat) (s : State) : Host.Outcome State Fault Refusal :=
  run (opOk op) (fun s =>
    s.withColl op 6 fun o _ j _ d _ =>
      match j.tensor d.inRef, s.facing d.peer with
      | some t, some p =>
        if t.bytes < (o.cue.mb + 1) * d.bytes then s.opReject op St.operands 36
        else if !s.isMember d.peer then s.senderReject op d.peer tsCast
        else if !s.canSend p then s.opDone op St.linkDown 0
        else match s.devRead (collRq o) (t.base + o.cue.mb * d.bytes) d.bytes with
        | (0, raw, s) =>
          let k := 2 ^ d.chunk
          let s := (List.range (ceilDiv d.bytes k)).foldl (fun (s : State) i =>
            let body := sendPrefix o.cue.mb (k * i) ++ (raw.drop (k * i)).take k
            let (tag, s) := s.newTag p
            s.sendMsg p 0 { s.txn opSend d.peer with epoch := o.cue.torusEpoch s, bytes := body.length, tag, arg := d.channel } body) s
          (s.sendFence p [op]).opDone op 0 1
        | (e, _, s) => s.opAbortAt op e t.base
      | none, _ => s.opReject op St.operands 36
      | some _, none => s.senderReject op d.peer (if s.isMember d.peer then tsMalformed else tsCast)) s

/-- COLLECTIVE, kind RECV (R384): the channel takes SENDs of its micro-batch from now on, until BYTES bytes have come. -/
def execCollectiveRecv (op : Nat) (s : State) : Host.Outcome State Fault Refusal :=
  run (opOk op) (fun s =>
    s.withColl op 7 fun _ _ j _ d _ =>
      match j.tensor d.outRef with
      | some t => if t.bytes < d.depth * d.bytes then s.opReject op St.operands 36 else s.opDone op 0 (b2n (decide (0 < d.bytes)))
      | none => s.opReject op St.operands 36) s

end Sys2Proof.Machine
end

