-- ==== Sys2Proof/Machine/Products.lean ====
section
/-!
DEFINITION. Products: their shape and checks (R71, R83, R89, R102, R103, R153), the feeders and passes (R104 to R116, R134 to
R139), the finishing stage (R151 to R158) and what a drained tile writes (R141 to R145, R159, R160), shared by the engines'
commands.
-/
namespace Sys2Proof.Machine

open Sys2Proof

/-! ### Shape (Table 7.2, R83, R103) -/

/-- A product as its cue, its tensors and their records give it. -/
structure Prod where
  a : Tensor
  b : Tensor
  qa : QRec
  qb : QRec
  fin : Fin
  out : Tensor
  row0 : Nat
  rows : Nat
  k0 : Nat
  /-- Reduction positions in use; whole segments for rotated operands (R87). -/
  klen : Nat
  col0 : Nat
  cols : Nat
  deriving DecidableEq, Repr

/-- The products of a job, parsed without their records. -/
def Job.prodShape (j : Job) (c : CueRec) : Option Prod :=
  let fin := finOf (j.finish.getD (c.op 42 3) [])
  match j.tensor (c.op 36 3), j.tensor (c.op 39 3), j.tensor fin.outRef with
  | some a, some b, some out =>
    let col0 := 256 * c.op 61 2
    let n := c.op 63 1
    let stop := if n = 0 then b.outer else min b.outer (col0 + 256 * n)
    let q := qrecOf []
    some { a, b, qa := q, qb := q, fin, out, row0 := c.op 45 4, rows := c.op 49 4, k0 := c.op 53 4, klen := c.op 57 4, col0
           cols := stop - col0 }
  | _, _, _ => none

/-- Column tiles of a product. -/
def Prod.colTiles (p : Prod) : Nat := ceilDiv p.cols 256

/-- Tiles of a product, rows of tiles first (log entry 23). -/
def Prod.tiles (p : Prod) : Nat := ceilDiv p.rows 256 * p.colTiles

/-- First row, rows, first column and columns of tile i. -/
def Prod.tileBox (p : Prod) (i : Nat) : Nat × Nat × Nat × Nat :=
  let r := i / max 1 p.colTiles * 256
  let c := i % max 1 p.colTiles * 256
  (p.row0 + r, min 256 (p.rows - r), p.col0 + c, min 256 (p.cols - c))

/-- Read a tensor's quantisation record. -/
def State.readRec (s : State) (rq : Requester) (t : Tensor) : Nat × QRec × State := s.readForm rq t.record

/-- K′: the reduction length of a tensor in whole segments of n elements, K itself without rotation (R87). -/
def paddedLen (k n : Nat) : Nat := if n = 0 then k else n * ceilDiv k n

/-- What a product's cue is checked for before its operands are read (R22, R83, R153, R236, Table 7.2): status and offset. -/
def Job.prodCheck (j : Job) (c : CueRec) : Nat × Nat :=
  match j.prodShape c with
  | none => (St.operands, if (j.tensor (c.op 36 3)).isNone then 36 else if (j.tensor (c.op 39 3)).isNone then 39 else 42)
  | some p =>
    let stop := 256 * (c.op 61 2 + c.op 63 1)
    let rot := if p.out.record = 0 then 0 else rotLen (j.recipeAt p.out.idx).rot
    let form := finCheck (j.finish.getD (c.op 42 3) []) (some p.out) p.rows rot (j.recipeAt p.out.idx).fmt
    let n := rotLen (j.recipeAt p.a.idx).rot
    firstBroken
      [ (36, St.format, !p.a.scaled), (39, St.format, !p.b.scaled), (39, St.operands, p.a.redLen != p.b.redLen),
        (42, form, form != 0), (45, St.operands, p.row0 % 256 != 0), (49, St.range, decide (p.a.outer < p.row0 + p.rows)),
        (53, St.alignment, p.k0 % 32 != 0), (57, St.range, decide (paddedLen p.a.redLen n < p.k0 + p.klen)),
        (61, St.range, decide (p.b.outer ≤ p.col0)),
        (63, St.range, c.op 63 1 != 0 && decide ((p.b.outer + 255) / 256 * 256 < stop)),
        (42, St.nonrepro, p.fin.acc == 2 && p.fin.outFmt == fmtF32 && !j.f32AddOk) ]

/-- The rotation key register holds K_A of a key epoch that is neither 0 nor the current one before its signs are used (R209): the work
waits until it is loaded, which changes timing only. -/
def State.loadRot (s : State) (epoch : Option Nat) : State :=
  match epoch with
  | some h => if h = 0 ∨ h = s.fld Reg.keyEpochReg ∨ s.rng.rotEpoch = some h then s else { s with rng := { s.rng with rotEpoch := some h } }
  | none => s

/-- Read the operands' records and check them against each other (R71, R89): status, offset, the whole product. -/
def State.prodRead (s : State) (rq : Requester) (j : Job) (c : CueRec) : Nat × Nat × Option Prod × State :=
  match j.prodShape c with
  | none => (St.operands, 36, none, s)
  | some p =>
    match s.readRec rq p.a with
    | (0, qa, s) =>
      (match s.readRec rq p.b with
       | (0, qb, s) =>
         let n := rotLen qa.rot
         let same := qa.rot == qb.rot && qa.rotKey == qb.rotKey && qa.rotStep == qb.rotStep && (!qa.rotStep || qa.step == qb.step)
         if qb.outliers ∨ !same then (St.operands, 39, none, s)
         else if n ≠ 0 ∧ p.k0 % n ≠ 0 then (St.alignment, 53, none, s)
         else if paddedLen p.a.redLen n < p.k0 + p.klen then (St.range, 57, none, s)
         else (0, 0xFFFF, some { p with qa, qb, klen := paddedLen p.klen n }, s.loadRot (rotEpochOf qa.rot qa.rotStep qa.step))
       | (e, _, s) => (e, 39, none, s))
    | (e, _, s) => (e, 36, none, s)

/-- The product of an operation as it stands, for a later part of it; none if its records no longer read. -/
def State.prodOf (s : State) (rq : Requester) (j : Job) (c : CueRec) : Option Prod × State :=
  match s.prodRead rq j c with
  | (0, _, p, s) => (p, s)
  | (_, _, _, s) => (none, s)

/-- The fall-back copy a record names (R69, R183): the status of its record, its tensor and record. -/
def State.fbOf (s : State) (rq : Requester) (j : Job) (q : QRec) : Nat × Option (Tensor × QRec) × State :=
  if q.fbCopy then
    match j.tensor q.fbRef with
    | some t => (match s.readRec rq t with
      | (0, r, s) => (0, some (t, r), s)
      | (e, _, s) => (e, none, s))
    | none => (0, none, s)
  else (0, none, s)

/-- Slices of an operand as it is read (R112, R183). -/
def slicesOf (q : QRec) (fb : Option (Tensor × QRec)) : Nat :=
  max q.stored.fmt.slices ((fb.map fun f => f.2.stored.fmt.slices).getD 1)

/-! ### The sample buffer (R170, R172, R173) -/

/-- How a rung-up copy of a tensor is stored: one rung above its recipe's format. -/
def Job.rungUpAs (j : Job) (t : Tensor) : Stored :=
  let st := j.storedAs t.idx
  fallbackStored st (rungFmt st.fmt t.isGradient 1)

/-- A rung-up copy of the part of an operand that a tile reads: `rows` outer indices from r0, n blocks of each from b0, in planes of
its own from `at'`, each on a 256-byte boundary, with a record behind them (R170; DESIGN CHOICE for the order, log entry 73). -/
structure Part where
  at' : Nat
  st : Stored
  r0 : Nat
  rows : Nat
  b0 : Nat
  n : Nat
  deriving DecidableEq, Repr

def Part.planes (x : Part) : Nat × Nat × Nat :=
  let c := x.rows * x.n
  let sc := x.at' + align256 (c * x.st.fmt.blockBytes)
  (x.at', sc, sc + align256 (c * scaleBytes x.st.sf16))
def Part.recAt (x : Part) : Nat := x.planes.2.2 + align256 (x.rows * x.n)
def Part.bytes (x : Part) : Nat := x.recAt + 256 - x.at'
def Part.has (x : Part) (r b : Nat) : Bool := decide (x.r0 ≤ r) && decide (r < x.r0 + x.rows) && decide (x.b0 ≤ b) && decide (b < x.b0 + x.n)
def Part.no (x : Part) (r b : Nat) : Nat := (r - x.r0) * x.n + (b - x.b0)
/-- Address of a block's codes: its name in `Job.rungUp`. -/
def Part.name (x : Part) (r b : Nat) : Nat := x.at' + x.no r b * x.st.fmt.blockBytes

/-- The product of a cue over whole segments, from its recipe (R87). -/
def Job.planShape (j : Job) (c : CueRec) : Option Prod :=
  (j.prodShape c).map fun p => { p with klen := paddedLen p.klen (rotLen (j.recipeAt p.a.idx).rot) }

/-- Bytes of a tile's planes and record as they are stored: each row `n` elements long, in whole segments where it is rotated (R87). -/
def planeBytes (st : Stored) (rows n : Nat) : Nat :=
  rows * ceilDiv (paddedLen n st.rotN) 32 * (st.fmt.blockBytes + scaleBytes st.sf16 + (if st.outliers then 4 else 1)) + 32

/-- Bytes of a tile's A64 set and of its finishing output (R170); `up` sizes the output at the next rung. -/
def Job.outBytes (j : Job) (p : Prod) (rows cols : Nat) (up : Bool) : Nat :=
  if p.fin.outFmt = fmtA64 then tileBytes rows cols
  else if p.out.record ≠ 0 then
    let st := if up then j.rungUpAs p.out else j.storedAs p.out.idx
    let (r, n) := if p.fin.blockDir then (cols, rows) else (rows, cols)
    planeBytes st r n
  else rows * cols * (if p.out.fmt = fmtK40 then 5 else if p.out.fmt = 0x10 then 2 else 4)

/-- Bytes of a pair of capture areas of a tile (R170). -/
def Job.pairBytes (j : Job) (p : Prod) (rows cols : Nat) (up : Bool) : Nat :=
  tileBytes rows cols + align256 (j.outBytes p rows cols up)

/-- The rung-up copies of a tile's operands, one behind the other; an operand at W16 by its recipe has none (R170, R181). -/
def Job.partsAt (j : Job) (p : Prod) (tile at' : Nat) : Option Part × Option Part :=
  let (r0, rows, c0, cols) := p.tileBox tile
  let n := ceilDiv p.klen 32
  let part := fun (t : Tensor) (a r m : Nat) =>
    if (j.storedAs t.idx).fmt = .w16 then none else some ({ at' := a, st := j.rungUpAs t, r0 := r, rows := m, b0 := p.k0 / 32, n } : Part)
  let a := part p.a at' r0 rows
  (a, part p.b (at' + (a.map Part.bytes).getD 0) c0 cols)

/-- Bytes of the rung-up copies that a tile's damage check needs. -/
def Job.rungUpBytes (j : Job) (p : Prod) (tile : Nat) : Nat :=
  let (a, b) := j.partsAt p tile 0
  (a.map Part.bytes).getD 0 + (b.map Part.bytes).getD 0

/-- The raw cue of an entry of the plan: one of the step program, or from 2^20 on of the MATINEE section, whose cues carry no index
(R168, R171; DESIGN CHOICE, log entry 74). -/
def Job.planRaw (j : Job) (k : Nat) : Option (List Byte) := if k < 2 ^ 20 then j.program[k]? else j.matinee[k - 2 ^ 20]?

/-- The product and the rung-up copies of an entry of the plan. -/
def Job.partsOf (j : Job) (q : Planned) : Option (Prod × Option Part × Option Part) :=
  ((j.planRaw q.prod).bind fun raw => j.planShape (CueRec.ofRaw raw 0)).map fun p =>
    let (_, rows, _, cols) := p.tileBox q.tile
    (p, j.partsAt p q.tile (q.room + 2 * j.pairBytes p rows cols false))

/-- The entry of the plan for a tile of a cue, if it is sampled (R168, R169, R171). -/
def Job.planned (j : Job) (c : CueRec) (tile : Nat) : Option Planned :=
  let k := if c.phase ≠ phEval then c.index else if c.queue.isSome then noIndex else 2 ^ 20 + j.matinee.idxOf c.raw
  j.plan.find? fun q => q.prod == k && q.mb == c.mb && q.tile == tile

/-- The parts of a tensor that the damage-checked tiles of the plan read. -/
def Job.rungUpParts (j : Job) (t : Tensor) : List Part :=
  (j.plan.filter (·.damage)).flatMap fun q => match j.partsOf q with
    | some (p, a, b) => (if p.a.idx = t.idx then a.toList else []) ++ (if p.b.idx = t.idx then b.toList else [])
    | none => []

/-- How a tensor's rung-up copy is written at its rung now (R172): one rung above it; none at W16 (R181). -/
def Job.copyAs (j : Job) (t : Tensor) : Option Stored :=
  let st := j.storedAs t.idx
  if j.atW16 t then none else some (fallbackStored st (rungFmt st.fmt t.isGradient (j.rung t.idx + 1)))

/-- The record of a rung-up copy in the sample buffer after one more write of it (R575). -/
def Job.mergeCopy (j : Job) (at' : Nat) (own : QRec) : List Byte :=
  (match SMap.find j.rungUpRec at' with
    | some o => (qrecOf o).merge own false
    | none => own).bytes

/-- The blocks of one part that a write at the rungs of `view` has made, with the part's record; what it held of them before is gone. A
tensor at its recipe rung has its copy in the sample buffer; for one that is raised the plan reserved no room, and the copy is kept
beside it (log entry 73). -/
def State.keepPart (s : State) (slot : Nat) (view : Job) (t : Tensor) (st : Option Stored) (x : Part) (own : WStats → QRec)
    (bs : List Placed) : State :=
  let bs := bs.filter fun b => x.has b.r b.b
  match s.job slot with
  | none => s
  | some j =>
    let names := bs.map fun b => x.name b.r b.b
    let new := own (bs.foldl (fun w b => w.add b.q) WStats.zero)
    let j := { j with rungUp := j.rungUp.filter fun a => !names.contains a, wideUp := names.foldl SMap.del j.wideUp }
    match st with
    | none => s.setJob slot j
    | some st =>
      if bs.isEmpty then s
      else if view.rung t.idx ≠ 0 then
        s.setJob slot { j with
          wideUp := bs.foldl (fun (m : SMap (List Nat)) b => SMap.put m (x.name b.r b.b) (encodeScale st.sf16 b.q.scale :: b.q.codes)) j.wideUp
          rungUpRec := SMap.put j.rungUpRec (x.at' + 1) (j.mergeCopy (x.at' + 1) new) }
      else
        let rec' := j.mergeCopy x.at' new
        let writes := (bs.flatMap fun b => blockWrite x.planes x.st false (x.no b.r b.b) b.q) ++ [(x.recAt, rec')]
        match (s.setJob slot j).devWrites (.manager (some slot)) writes with
        | (0, s) => s.modJob slot fun (j : Job) => { j with rungUp := names ++ j.rungUp, rungUpRec := SMap.put j.rungUpRec x.at' rec' }
        | (_, s) => s

/-- Keep the rung-up copies of what is written to a tensor at the rungs of `j` (R172): from the same source, SR with the draw field at
1, whose blocks are counted (R234). -/
def State.keepRungUp (s : State) (slot : Nat) (j : Job) (t : Tensor) (mode : RMode) (step : Nat) (pre : Int) (r10 : Nat → Nat → Nat)
    (spans : List Span) : State :=
  let parts := j.rungUpParts t
  if parts.isEmpty then s
  else
    let up := j.copyAs t
    let st := up.getD (j.storedAs t.idx)
    let rec' := j.recipeAt t.idx
    let old := qrecOf (s.bytes (s.storeAddr t.record) 32)
    let w : WMode := { st, mode, ratio := pow2 rec'.escQ, pre, r10, fixed := none, prior := []
                       signs := fun seg => rotSigns j.seed old.rotKey step rec'.rotStep seg }
    let bs := ((quantSpans t w spans).1).filter fun b => parts.any fun x => x.has b.r b.b
    let len := if st.rotN = 0 then t.redLen else 32 * t.blocksPer st.rotN
    let own := recordOwn st rec' (decide (mode = .sr) && st.fmt != .w16) pre old.rotKey step 0 false
    let s := parts.foldl (fun (s : State) x => s.keepPart slot j t up x own bs) s
    s.addF Reg.addrBlocks (if up.isSome then (bs.flatMap fun b => b.drawn st.fmt mode len).length else 0)

/-- A rung-up operand of a run for a damage check: the part of the tensor that its tile reads, and the records of its copies, of those at
the recipe rung and of those of a raised tensor. -/
structure UpOp where
  part : Part
  low : Option QRec
  high : Option QRec
  deriving DecidableEq, Repr

/-- The records of a rung-up operand's copies. -/
def UpOp.recs (u : UpOp) : List QRec := u.low.toList ++ u.high.toList

/-- The copies of a part, if a producer has written any of it in the attempt. -/
def Job.upOp (j : Job) (x : Option Part) : Option UpOp :=
  (x.map fun x => ({ part := x, low := (SMap.find j.rungUpRec x.at').map qrecOf, high := (SMap.find j.rungUpRec (x.at' + 1)).map qrecOf } : UpOp)).filter
    fun u => !u.recs.isEmpty

/-- The rung-up operands of a tile of a cue. -/
def Job.rungUpOps (j : Job) (c : CueRec) (tile : Nat) : Option UpOp × Option UpOp :=
  match (j.planned c tile).bind j.partsOf with
  | some (_, a, b) => (j.upOp a, j.upOp b)
  | none => (none, none)

/-! ### Feeders (R106 to R114) -/

/-- A block of a rung-up operand for a feeder, as a W16 producer of the attempt made it. -/
def Job.upWide (j : Job) (u : UpOp) (k r b : Nat) : Option FBlock :=
  let x := u.part
  if !x.has r b then none
  else match SMap.find j.wideUp (x.name r b), u.high with
  | some (sc :: codes), some q => some (feedBlock .w16 false k q.pre (readBlock .w16 false sc codes none))
  | _, _ => none

/-- The planes that hold a block of a rung-up operand at a rung below W16, with their record; none where no producer of the attempt wrote
it. -/
def Job.upLow (j : Job) (u : UpOp) (r b : Nat) : Option QRec :=
  let x := u.part
  if x.has r b && j.rungUp.contains (x.name r b) then u.low else none

/-- Block b of outer index r of an operand for a feeder, with k elements in use: status, the feeder's block, state. `up` is the rung-up
copy to be read in its place; a block that no producer has written in the attempt is read as it stands (DESIGN CHOICE, log entry 75). -/
def State.feed (s : State) (rq : Requester) (j : Job) (t : Tensor) (q : QRec) (fb : Option (Tensor × QRec)) (slices k r b : Nat)
    (up : Option UpOp) : Nat × FBlock × State :=
  match up.bind fun u => j.upWide u k r b with
  | some x => (0, x, s)
  | none =>
  match up.bind fun u => (j.upLow u r b).map fun q => (u.part, q) with
  | some (x, q) =>
    (match s.readBlockAt rq x.planes x.st (x.no r b) with
     | (0, blk, _, s) => (0, feedBlock x.st.fmt x.st.sf16 k q.pre blk, s)
     | (e, _, _, s) => (e, feedBlock .n4 false 0 0 .zero, s))
  | none =>
    let blk := r * t.blocksPer q.stored.rotN + b
    match s.readQBlock rq t q.stored blk with
    | (0, b, tag, s) =>
      if tag.testBit 3 then
        (match fb with
         | none => (if q.fbCopy then St.wide else St.fallback, feedBlock .n4 false 0 0 .zero, s)
         | some (ft, fq) =>
           if slices < fq.stored.fmt.slices then (St.wide, feedBlock .n4 false 0 0 .zero, s)
           else match s.readQBlock rq ft fq.stored blk with
           | (0, b, _, s) => (0, feedBlock fq.stored.fmt fq.sf16 k fq.pre b, s)
           | (e, _, _, s) => (e, feedBlock .n4 false 0 0 .zero, s))
      else (0, feedBlock q.stored.fmt q.sf16 k q.pre b, s)
    | (e, _, _, s) => (e, feedBlock .n4 false 0 0 .zero, s)

/-- The blocks of outer index r of an operand, by their block number within it. -/
def State.feedRow (s : State) (rq : Requester) (j : Job) (t : Tensor) (q : QRec) (fb : Option (Tensor × QRec)) (slices : Nat)
    (r : Nat) (up : Option UpOp) : List (Nat × Nat) → Nat × List FBlock × State
  | [] => (0, [], s)
  | (b, k) :: bs =>
    match s.feed rq j t q fb slices k r b up with
    | (0, x, s) =>
      (match s.feedRow rq j t q fb slices r up bs with
       | (0, xs, s) => (0, x :: xs, s)
       | e => e)
    | (e, _, s) => (e, [], s)

/-- The blocks of several outer indices. -/
def State.feedRows (s : State) (rq : Requester) (j : Job) (t : Tensor) (q : QRec) (fb : Option (Tensor × QRec)) (slices : Nat)
    (bs : List (Nat × Nat)) (up : Option UpOp) : List Nat → Nat × List (List FBlock) × State
  | [] => (0, [], s)
  | r :: rs =>
    match s.feedRow rq j t q fb slices r up bs with
    | (0, x, s) =>
      (match s.feedRows rq j t q fb slices bs up rs with
       | (0, xs, s) => (0, x :: xs, s)
       | e => e)
    | (e, _, s) => (e, [], s)

/-- Blocks of K-tile kt of a product, with the elements of each in use (R103, R109, R126): band b of a K-tile holds block 8kt + b of
the operands, so a range that begins inside a K-tile leaves the bands before it bypassed (DEDUCED, log entry 69). -/
def Prod.kBlocks (p : Prod) (kt : Nat) : List (Nat × Nat) :=
  (List.range 8).filterMap fun b =>
    let lo := 32 * (8 * kt + b)
    if p.k0 ≤ lo ∧ lo < p.k0 + p.klen then some (8 * kt + b, min 32 (p.k0 + p.klen - lo)) else none

/-- Passes of a product over the K-tiles that its range meets: K-tile, i, j (R113). A product with K = 0 makes none, so PASSES,
PASS_SHAPE and PASS_FMT do not show it (DESIGN CHOICE, log entry 117). -/
def Prod.passes (p : Prod) (slices : Nat) : List (Nat × Nat × Nat) :=
  if p.klen = 0 then []
  else (passList (p.k0 % 256 + p.klen) slices).map fun x => (p.k0 / 256 + x.1, x.2)

/-! ### Passes (R113 to R116, R136 to R139) -/

/-- Overflow saturates here (R149): before S12, in TEST, and during recovery. -/
def State.satMode (s : State) (e : Nat) : Bool :=
  s.fld Reg.ready == 0 || s.engSt e == US.test || s.fov.recovery || (s.fov.rehearsal && s.jobs.all fun x => !x.2.isOpen)

/-- An unset set. -/
def AccSet.start (w : TileWork) (passes : List (Nat × Nat × Nat)) : AccSet :=
  { work := w, et := w.et0, run := 0, passes, elems := List.replicate (w.rows * w.cols) ⟨0, false⟩, nv := false, lost := 0
    bound := w.bound, ovf := false, overflow := false, second := false, begun := false }

/-- Escape-code mismatches of the blocks a pass reads (R29, R68): one event each. -/
def State.mismatches (s : State) (e : Nat) (t : Tensor) (per : Nat) (rows : List Nat) (ks : List (Nat × Nat))
    (bs : List (List FBlock)) : State :=
  (rows.zip bs).foldl (fun s rb =>
    ((ks.zip rb.2).foldl (fun s kb =>
      if kb.2.mismatch then s.event Ev.escapeMismatch (UId.engine e) [t.idx, rb.1 * per + kb.1.1] else s) s)) s

/-- A20 outputs the cells hold when a pass has ended: those of its last streaming row (R104, R132), by engine, cell row and
column; `bands` are the bands of the blocks. -/
def heldCells (e s i j : Nat) (bands : List Nat) (last : List FBlock) (cols : List (List FBlock)) : List (Nat × Int) :=
  cols.zipIdx.flatMap fun (col, n) =>
    ((last.zip col).zip bands).flatMap fun (ab, b) =>
      let prods := List.zipWith (fun x y => if s = 1 then x * y else sliceOf s j x * sliceOf s i y) ab.1.imgs ab.2.imgs
      (List.range 32).map fun k => (e * 2 ^ 17 + (32 * b + k) * 256 + n, (prods.take (k + 1)).foldl (· + ·) 0)

/-- The registers that show a pass (Tables 3.11, 3.12): its masks, its formats and its place among the slice passes. An operand with a
fall-back copy shows the copy's format in every pass, since all run at its slice count, and a rung-up operand that of its widest copy
(DESIGN CHOICE, log entry 70). -/
def State.showPass (s : State) (e : Nat) (p : Prod) (w : TileWork) (fa fb : Option (Tensor × QRec)) (up : Option UpOp × Option UpOp)
    (kt i jx : Nat) : State :=
  let kMask := ((p.kBlocks kt).map (·.2)).foldl (· + ·) 0
  let s := s.wrEng e Reg.passShape (w.rows * 2 ^ 18 + w.cols * 2 ^ 9 + kMask)
  let fmt := fun (q : QRec) (f : Option (Tensor × QRec)) (u : Option UpOp) =>
    ((u.bind fun u => u.high.or u.low).or (f.map (·.2))).elim q.fmt QRec.fmt
  s.wrEng e Reg.passFmt ((i * w.slices + jx) * 2 ^ 20 + w.slices * 2 ^ 16 + fmt p.qb fb up.2 * 2 ^ 8 + fmt p.qa fa up.1)

/-- A capture that waits completes at the selected cell's handshake, if it makes one in a pass: at the pass's first row (R132). -/
def State.captureAt (s : State) (e : Nat) (first : List (Nat × Int)) : State :=
  if s.captures.contains e then
    match s.testCell e with
    | some k => (match first.find? fun c => c.1 == k with
      | some c => s.captured e c.2
      | none => s)
    | none => s.captured e 0
  else s

/-- One pass of a set (R102 to R116, R134 to R139): its status, the set after it, state; `up` are the rung-up operands of a run for a
damage check. Cells outside the pass make no transitions
and keep what they hold (R125, R126). TILE_LOADS counts one stationary tile for each K-tile and stationary slice of the product; a
tile that the next product could reuse is loaded again (R120 asks for no reuse; DESIGN CHOICE, log entry 71). -/
def State.pass (s : State) (rq : Requester) (e : Nat) (j : Job) (p : Prod) (x : AccSet) (up : Option UpOp × Option UpOp)
    (kt i jx : Nat) : Nat × AccSet × State :=
  let w := x.work
  let ks := p.kBlocks kt
  match s.fbOf rq j p.qa with
  | (0, fa, s) =>
   (match s.fbOf rq j p.qb with
    | (0, fb, s) =>
      let rows := (List.range w.rows).map (w.r0 + ·)
      let cols := (List.range w.cols).map (w.c0 + ·)
      (match s.feedRows rq j p.a p.qa fa w.slices ks up.1 rows with
       | (0, as, s) =>
         (match s.feedRows rq j p.b p.qb fb w.slices ks up.2 cols with
          | (0, bs, s) =>
            let rho := rotShift p.qa.rot
            let elems := (List.range w.rows).flatMap fun m => (List.range w.cols).map fun n =>
              let el := x.elems.getD (m * w.cols + n) ⟨0, false⟩
              passColumn w.slices i jx rho x.et { v := el.v, lost := 0, ovf := false } (as.getD m []) (bs.getD n [])
            let excess := elems.any (·.ovf)
            let nv := (as.any fun r => r.any (·.nv)) || (bs.any fun r => r.any (·.nv))
            let lost := (elems.map (·.lost)).foldl (· + ·) 0
            let retry := excess && !s.satMode e && decide (x.run < 4)
            let top := i + 1 == w.slices && jx + 1 == w.slices
            let s := if top then (s.mismatches e p.a (p.a.blocksPer p.qa.stored.rotN) rows ks as) else s
            let s := if top then (s.mismatches e p.b (p.b.blocksPer p.qb.stored.rotN) cols ks bs) else s
            let esc := ((as.map fun r => r.countP fun b => b.esc.isSome).foldl (· + ·) 0)
            let s := ((s.addEf e Reg.passes 1).addEf e Reg.streamRows w.rows).addEf e Reg.tileLoads (b2n (jx + 1 == w.slices))
            let s := (s.addEf e Reg.escapes (if top then esc else 0)).addEf e Reg.lostContrib lost
            let s := s.showPass e p w fa fb up kt i jx
            let bands := ks.map fun k => k.1 % 8
            let s := s.captureAt e (heldCells e w.slices i jx bands (as.getD 0 []) bs)
            let s := { s with cells := SMap.setAll 0 s.cells (heldCells e w.slices i jx bands (as.getD (w.rows - 1) []) bs) }
            (0, { x with
              elems := (x.elems.zip elems).map fun (y : AccEl × AccRun) => { v := y.2.v, ovf := y.1.ovf || y.2.ovf }
              passes := if retry then [] else x.passes.drop 1, nv := x.nv || nv, lost := x.lost + lost, overflow := retry
              begun := true }, s)
          | (e, _, s) => (e, x, s))
       | (e, _, s) => (e, x, s))
    | (e, _, s) => (e, x, s))
  | (e, _, s) => (e, x, s)

/-- Preload an UPDATE-mode base (R141, R143): status, the set, state. A product with K = 0 stores its base unchanged, so the set takes
the base's own Et, OVF, NV and LOST; the BOUND stored is the product's, as R143 drops the base's (DESIGN CHOICE, log entry 118). -/
def State.preload (s : State) (rq : Requester) (e : Nat) (p : Prod) (x : AccSet) : Nat × AccSet × State :=
  let w := x.work
  let (a, _, _) := p.out.tileAt (w.r0 / 256) (w.c0 / 256)
  match s.devRead rq a (64 + 8 * w.rows * w.cols) with
  | (0, bs, s) =>
    let h := tileHdrOf bs
    if formStatus bs ≠ 0 then (formStatus bs, x, s)
    else
      let x := if p.klen = 0 then { x with et := h.et } else x
      let els := (leWords 8 (w.rows * w.cols) (bs.drop 64)).map fun v => reexpress h.et x.et (sext 64 v)
      let excess := els.any (·.2.2)
      let retry := excess && !s.satMode e && decide (x.run < 4)
      (0, { x with elems := els.map fun y => ⟨y.1, y.2.2⟩, ovf := h.ovf, nv := x.nv || h.nv
                   lost := x.lost + h.lost + (els.map (·.2.1)).foldl (· + ·) 0, overflow := retry
                   passes := if retry then [] else x.passes }, s)
  | (e, _, s) => (e, x, s)

/-! ### Finishing (R151 to R157) -/

/-- A value after the conversion of step 1. -/
def AccSet.val (x : AccSet) (i : Nat) : Val :=
  if x.nv then .nan else Val.ofRat (((x.elems.getD i ⟨0, false⟩).v : Rat) * pow2 x.et)

/-- The exact A64 value goes to step 7 (R151). -/
def Fin.direct (f : Fin) : Bool := !f.alphaOn && !f.bias && f.func == 0 && !f.dropout

/-- Rows of an operand over the range of K. -/
def State.readRows (s : State) (rq : Requester) (p : Prod) (t : Tensor) : List Nat → Nat × List (List Val) × State
  | [] => (0, [], s)
  | r :: rs =>
    match s.readVals rq t (r * t.redLen + p.k0) p.klen with
    | (0, v, _, s) => (match s.readRows rq p t rs with
      | (0, l, s) => (0, v :: l, s)
      | (e, _, s) => (e, [], s))
    | (e, _, _, s) => (e, [], s)

/-- Replay values of a tile (R201): operands at their tensor scales, groups of 16, and whether an operand block is NV, which gives the
whole tile the NV flag (R46). -/
def State.replayVals (s : State) (rq : Requester) (p : Prod) (w : TileWork) : Nat × List Val × Bool × State :=
  match s.readRows rq p p.a ((List.range w.rows).map (w.r0 + ·)) with
  | (0, as, s) =>
    (match s.readRows rq p p.b ((List.range w.cols).map (w.c0 + ·)) with
     | (0, bs, s) =>
       let nv := (as ++ bs).any fun r => r.any Val.nonFinite
       (0, as.flatMap fun a => bs.map fun b =>
         if nv then .nan
         else replayElement (List.zipWith (fun x y => ((x.rat?).getD 0, (y.rat?).getD 0)) a b), nv, s)
     | (e, _, s) => (e, [], false, s))
  | (e, _, s) => (e, [], false, s)

/-- The logical position of an element of a product's output (R64, R213): outer index and reduction index change places with
BLOCK_DIR. -/
def Prod.outPos (p : Prod) (m n : Nat) : Nat :=
  if p.fin.blockDir ∧ p.out.record ≠ 0 then n * p.out.redLen + m else m * p.out.redLen + n

/-- Steps 1 to 6 for every element of a tile: status, values in row order, row-record writes, state. In a set that carries the NV
flag a dropped element is no value either (R151). -/
def State.finishVals (s : State) (rq : Requester) (j : Job) (p : Prod) (c : CueRec) (w : TileWork) (vals : List Val) (nv : Bool)
    (step : Nat) : Nat × List Val × List (Nat × List Byte) × State :=
  let f := p.fin
  if f.direct ∧ !f.stats then (0, vals, [], s)
  else
    let key := s.key j step false
    let bias := if f.bias then
        match j.tensor f.biasRef with
        | some t => s.readVals rq t w.c0 w.cols
        | none => (St.operands, [], false, s)
      else (0, [], false, s)
    match bias with
    | (0, bs, _, s) =>
      let rec go (s : State) : List Nat → Nat × List Val × List (Nat × List Byte) × State
        | [] => (0, [], [], s)
        | m :: ms =>
          let r := w.r0 + m
          let aux := if funcBackward f.func then
              match j.tensor f.auxRef with
              | some t => s.readVals rq t (r * t.redLen + w.c0) w.cols
              | none => (St.operands, [], false, s)
            else (0, [], false, s)
          match aux with
          | (0, ax, _, s) =>
            let pre := (List.range w.cols).map fun n =>
              let x := f32Round (vals.getD (m * w.cols + n) vZero)
              let x := if f.alphaOn then fmul x (f32Val f.alpha) else x
              if f.bias then fadd x (bs.getD n vZero) else x
            let at' := (((j.tensor f.statsRef).map (·.base)).getD 0) + 16 * r
            let old := if f.stats && f.chain then s.devRead rq at' 16 else (0, [], s)
            (match old with
             | (0, rb, s) =>
               let r0 := if f.chain then RowRec.ofBytes rb else RowRec.fresh
               let rr := pre.zipIdx.foldl (fun (r : RowRec) x => r.step x.1 (w.c0 + x.2)) r0
               let outs := pre.zipIdx.map fun (x, n) =>
                 let y := finishFunc f.func x (ax.getD n vZero)
                 if f.dropout then
                   let blk := elemBits key step p.out.idx c.mb (p.outPos r (w.c0 + n)) 0 none
                   if dropKeep blk f.keep then fmul y (f32Val f.dropScale) else if nv then .nan else vZero
                 else y
               let outs := if f.direct then (vals.drop (m * w.cols)).take w.cols else outs
               (match go s ms with
                | (0, l, ws, s) => (0, outs ++ l, (if f.stats then [(at', rr.bytes)] else []) ++ ws, s)
                | e => e)
             | (e, _, s) => (e, [], [], s))
          | (e, _, _, s) => (e, [], [], s)
      go s (List.range w.rows)
    | (e, _, _, s) => (e, [], [], s)

/-! ### What a drained tile writes (R141, R142, R158) -/

/-- Spans of a tile for its quantiser: along n, or along m with BLOCK_DIR (R158). -/
def tileSpans (w : TileWork) (dir : Bool) (vals : List Val) : List Span :=
  if dir then (List.range w.cols).map fun n =>
      { r := w.c0 + n, k := w.r0, vals := (List.range w.rows).map fun m => vals.getD (m * w.cols + n) vZero }
  else (List.range w.rows).map fun m => { r := w.r0 + m, k := w.c0, vals := (vals.drop (m * w.cols)).take w.cols }

/-- The header of an A64 tile as a set is drained (Table 4.5). -/
def AccSet.header (x : AccSet) (empty : Bool) (step : Nat) : TileHdr :=
  { bound := x.bound, nv := x.nv, empty, ovf := x.ovf || x.elems.any (·.ovf), retries := x.run, et := x.et, rows := x.work.rows
    cols := x.work.cols, lost := min x.lost (2 ^ 32 - 1), step }

/-- The output draws of an SR conversion (R57, R157, R214, R217): addressed, or free-running on the lane of the column, whose counter
advances by one for each element that drew before it on the lane (R79, R218); `drawn` lists the elements that draw. -/
def State.outBits (s : State) (j : Job) (p : Prod) (c : CueRec) (w : TileWork) (step draw : Nat) (drawn : List (Nat × Nat))
    (r k : Nat) : Nat :=
  let free := p.fin.srFree && !p.out.isGradient && draw == 0
  let swap := fun (x : Nat × Nat) => if p.fin.blockDir && p.out.record != 0 then (x.2, x.1) else x
  let (m, n) := swap (r, k)
  let lane := n % 256
  let before := drawn.countP fun x => (swap x).2 == n && decide ((swap x).1 < m)
  srBits (elemBits (s.key j step free) step p.out.idx c.mb (r * p.out.redLen + k) draw
    (if free then some (w.engine, lane, (s.lane w.engine lane + before) % 2 ^ 48) else none))

/-- A conversion of a finite value to W16, F32 or K40 that overflowed to infinity (R52, R59). -/
def wideOvf (fmt mode : Nat) (v : Val) : Bool :=
  let m := (rmodeOf mode).getD .rne
  if fmt = fmtK40 then (fK40.encode m v).2.2 else if fmt = 0x10 then (fW16.encode m v).2.2 else (fF32.encode m v).2.2

/-- The amax of the source of a replay product (R200): the values of all its tiles after the finishing stage. -/
def State.replayTop (s : State) (rq : Requester) (j : Job) (p : Prod) (c : CueRec) (w : TileWork) (step : Nat) : Rat :=
  ((List.range p.tiles).map fun i =>
    let (r0, rows, c0, cols) := p.tileBox i
    let w := { w with tile := i, r0, rows, c0, cols }
    match s.replayVals rq p w with
    | (0, vals, nv, s) => topOf (s.finishVals rq j p c w vals nv step).2.1
    | _ => 0).foldl max 0

/-- The writes of a drained tile's output: its plain elements, or the planes of its quantised blocks. -/
def Drained.writes (d : Drained) : List (Nat × List Byte) := d.plain ++ (d.quant.map QuantOut.planes).getD []

/-- The quantiser's records of a drained tile. -/
def Drained.recs (d : Drained) : List (Nat × Nat × List Byte) := (d.quant.map (·.recs)).getD []

/-- The finishing stage of a set (R151 to R158): what it would write, and the state after its reads. An overflow of step 1 counts with
those of the output's own conversion (R59); in a tile of A64, whose elements step 1 does not convert, it shows in the row records
only (DEDUCED, log entry 114). -/
def State.drainOut (s : State) (rq : Requester) (j : Job) (p : Prod) (c : CueRec) (x : AccSet) (step : Nat) : Drained × State :=
  let w := x.work
  let f := p.fin
  let plain := fun (e : Nat) (ws rows : List (Nat × List Byte)) (ovf nv : Bool) =>
    ({ status := e, plain := ws, rows, quant := none, ovf, nv, spans := [], pre := 0 } : Drained)
  if f.outFmt = fmtA64 then
    let (a, _, _) := p.out.tileAt (w.r0 / 256) (w.c0 / 256)
    let hdr := x.header (p.klen == 0 && f.acc == 0) step
    match s.finishVals rq j p c w ((List.range (w.rows * w.cols)).map x.val) x.nv step with
    | (e, _, rows, s) => (plain e [(a, hdr.bytes ++ x.elems.flatMap fun e => leBytes 8 (twos 64 e.v))] rows hdr.ovf x.nv, s)
  else
    let src := if j.replay then s.replayVals rq p w else (0, (List.range (w.rows * w.cols)).map x.val, x.nv, s)
    match src with
    | (0, vals, nv, s) =>
      (match s.finishVals rq j p c w vals nv step with
       | (0, ys, rows, s) =>
         let mode := (rmodeOf f.round).getD .rne
         let step1 := (!f.direct || f.stats) && vals.any (wideOvf fmtF32 0)
         let ovf := (x.header false 0).ovf || step1
         if p.out.record ≠ 0 then
           let et := if f.direct && !j.replay then some w.et0 else none
           let pre := j.preOf p.out.idx et
           let spans := tileSpans w f.blockDir ys
           let top := if (s.tensorScale j p.out 0).isSome then s.replayTop rq j p c w step else 0
           let drawn := (s.quantise j p.out mode step pre c.scope top (fun _ _ => 0) spans).drawn
           let q := s.quantise j p.out mode step pre c.scope top (s.outBits j p c w step 0 drawn) spans
           ({ status := 0, plain := [], rows, quant := some q, ovf, nv, spans, pre }, s)
         else
           let codes := ys.map fun v => wideCode p.out.fmt f.round v
           let ws := (List.range w.rows).flatMap fun m =>
             p.out.wideWrites ((w.r0 + m) * p.out.redLen + w.c0) ((codes.drop (m * w.cols)).take w.cols)
           (plain 0 ws rows (ovf || ys.any (wideOvf p.out.fmt f.round)) nv, s)
       | (e, _, _, s) => (plain e [] [] false false, s))
    | (e, _, _, s) => (plain e [] [] false false, s)

/-- Row m of an ADD-mode A64 tile goes to the target as one request (R159): status and state. -/
def State.addTileRow (s : State) (rq : Requester) (p : Prod) (x : AccSet) (step m : Nat) : Nat × State :=
  let w := x.work
  let (a, _, _) := p.out.tileAt (w.r0 / 256) (w.c0 / 256)
  let h := x.header false step
  let info : RowInfo := { et := x.et, ovf := h.ovf, nv := h.nv, bound := h.bound, retries := h.retries, lost := if m = 0 then h.lost else 0 }
  let xs := ((x.elems.drop (m * w.cols)).take w.cols).map (·.v)
  let (st, _, s) := s.addRow rq (some a) (a + 64 + 8 * (m * w.cols)) info xs false s.coord []
  (st, s)

/-- The elements of one write of an ADD-mode F32 tile are added one by one (R160): status and state. -/
def State.addF32s (s : State) (rq : Requester) (w : Nat × List Byte) : Nat × State :=
  ((leWords 4 (w.2.length / 4) w.2).zipIdx).foldl (fun (acc : Nat × State) q =>
    if acc.1 ≠ 0 then acc
    else
      let a := w.1 + 4 * q.2
      match acc.2.accessRead rq a 4 true [] with
      | (0, old, s) => (0, s.storeBytes a (leBytes 4 (f32Code (fadd (f32Val (leNat old)) (f32Val q.1)))))
      | (e, _, s) => (e, s)) (0, s)

/-- The rows of an ADD-mode tile, in order (R159, R160): the status, and the rows sent before one failed counted (Table 4.12). -/
def State.addRows (s : State) (rq : Requester) (p : Prod) (x : AccSet) (d : Drained) (step : Nat) : Nat × State :=
  let wide := p.fin.outFmt == fmtA64
  let (e, n, s) := (List.range (if wide then x.work.rows else d.plain.length)).foldl (fun (acc : Nat × Nat × State) m =>
    if acc.1 ≠ 0 then acc
    else
      let (e, s) := if wide then acc.2.2.addTileRow rq p x step m else acc.2.2.addF32s rq (d.plain.getD m (0, []))
      (e, if e = 0 then acc.2.1 + 1 else acc.2.1, s)) (0, 0, s)
  (e, s.addEf x.work.engine Reg.atomicRows n)

/-- Store a drained tile to its target (R141, R145, R159, R160): its planes, its row records and its quantiser's records. Status and
state. -/
def State.storeTile (s : State) (rq : Requester) (j : Job) (p : Prod) (scope : Nat) (x : AccSet) (d : Drained) (step : Nat) : Nat × State :=
  if p.fin.acc = 2 then
    match s.devWrites rq d.rows with
    | (0, s) =>
      let (e, s) := s.addRows rq p x d step
      (e, if p.fin.outFmt = fmtA64 then s else s.markNonrepro rq.job)
    | e => e
  else s.writeQuant rq j scope (d.rows ++ d.writes) d.recs

/-- Draws that a drained tile made (R79, R218, R234): addressed and free-running blocks counted, free lanes advanced. A dropout draws
an addressed block for every element; a rotated output draws one for the signs of each segment (DESIGN CHOICE, log entry 72). A
finishing record with SR_STREAM = 1 that drains marks the job (R219, R258). -/
def State.noteDraws (s : State) (slot : Nat) (p : Prod) (w : TileWork) (q : Option QuantOut) : State :=
  let s := s.loadRot (q.bind (·.rotEpoch))
  let drawn := (q.map (·.drawn)).getD []
  let free := p.fin.srFree && !p.out.isGradient
  let cols := drawn.map fun x => if p.fin.blockDir && p.out.record != 0 then x.1 else x.2
  let s := s.addF Reg.addrBlocks ((q.map (·.segs)).getD 0
    + if p.fin.dropout then w.rows * w.cols else if free then 0 else drawn.length)
  let s := if free then
      ((List.range w.cols).foldl (fun s i => s.bumpLane w.engine ((w.c0 + i) % 256) (cols.countP (· == w.c0 + i))) s).addF
        Reg.freeBlocks drawn.length
    else s
  if p.fin.srFree then s.setJf slot Reg.jobNonrepro 1 else s

end Sys2Proof.Machine
end

