-- ==== Sys2Proof/Machine/Engine.lean ====
section
/-!
DEFINITION. The engines at work: products, passes, drains, the retry sequence, the watchdog, test access (R102 to R163), and
the prompter's checks on sampled tiles (R169 to R192).
-/
namespace Sys2Proof.Machine

open Sys2Proof

/-- An engine of the device. -/
def engOk (e : Nat) : Bool := decide (e < 144)

/-- End an operation for a status: a rejection by its group, or an abort at an address (R571). -/
def State.opStop (s : State) (i e d a : Nat) : State := if e / 256 = 1 then s.opReject i e d else s.opAbortAt i e a

/-! ### PRODUCT -/

/-- The records that an operand's values come from: its own and its fall-back copy's, or those of its rung-up copies in their place (R179,
R183). -/
def recsOf (q : QRec) (fb : Option (Tensor × QRec)) (up : Option UpOp) : List QRec :=
  match up with
  | some u => u.recs
  | none => q :: (fb.map (·.2)).toList

/-- Et_B (R98, R148, R183): the largest bound over the records of both operands, with a base's largest magnitude added. -/
def Prod.boundEt (p : Prod) (qas qbs : List QRec) (base : Rat) : Int :=
  let nb := p.a.blocksPer p.qa.stored.rotN
  let arg := fun (q : QRec) =>
    ({ fmt := q.stored.fmt, sf16 := q.sf16, scaleMax := q.scaleMax, escAmax := q.escAmax, prescale := q.pre } : BoundArg)
  let ets := qas.flatMap fun a => qbs.map fun b => bEt nb (arg a) (arg b) (rotShift p.qa.rot) base
  ets.foldl max (ets.headD 0)

/-- Et₀ of a product, whether by bound, and Et_B (R95 to R98, R148, R183). -/
def Job.etsOf (j : Job) (p : Prod) (qas qbs : List QRec) : Int × Bool × Int :=
  let etB := p.boundEt qas qbs 0
  let (et, byBound) := j.productEt p.out.idx (p.a.blocksPer p.qa.stored.rotN) p.qa p.qb
  (if byBound then etB else et, byBound, etB)

/-- The tiles of a product go to engines in turn. -/
def State.startProduct (s : State) (op : Nat) (j : Job) (c : CueRec) (p : Prod) (able : List Nat) : State :=
  let rq : Requester := ⟨1, able.headD 0, c.job⟩
  match s.fbOf rq j p.qa with
  | (0, fa, s) =>
    (match s.fbOf rq j p.qb with
     | (0, fb, s) =>
       let (et0, bound, etB) := j.etsOf p (recsOf p.qa fa none) (recsOf p.qb fb none)
       let slices := max (slicesOf p.qa fa) (slicesOf p.qb fb)
       let ts := (List.range p.tiles).map fun i =>
         let (r0, rows, c0, cols) := p.tileBox i
         ({ op, role := 0, tile := i, engine := able.getD (i % max 1 able.length) 0, r0, rows, c0, cols, et0, etB, bound
            sampled := (j.planned c i).isSome, slices, acked := false } : TileWork)
       { s with tiles := s.tiles ++ ts }.opDone op 0 p.tiles
     | (e, _, s) => s.opStop op e 39 (((j.tensor p.qb.fbRef).map (·.record)).getD 0))
  | (e, _, s) => s.opStop op e 36 (((j.tensor p.qa.fbRef).map (·.record)).getD 0)

/-- PRODUCT (R102 to R104, R235): checked and cut into tiles for the engines named. -/
def execProduct (op : Nat) (engines : List Nat) (s : State) : Host.Outcome State Fault Refusal :=
  run (opOk op && engines.all engOk) (fun s =>
    s.withOp op cProduct fun o => s.withJob op o fun slot j =>
      let j := j.viewOf o
      let able := engines.filter fun e => s.engSt e == US.active && s.inMatinee e == (o.cue.phase == phEval)
      if able.isEmpty then s
      else match j.prodCheck o.cue with
      | (0, _) =>
        (match s.prodRead ⟨1, able.headD 0, some slot⟩ j o.cue with
         | (0, _, some p, s) => s.startProduct op j o.cue p able
         | (e, d, _, s) => s.opStop op e d (((j.tensor (o.cue.op d 3)).map (·.record)).getD 0))
      | (e, d) => s.opReject op e d) s

/-! ### Sets -/

/-- What DRAIN_STATUS shows of a set that is not idle (Table 4.4): 1 PRELOADING while its base is in and no pass has been made, 2
FILLING, 3 DRAINING once the product is complete. -/
def AccSet.shown (x : AccSet) : Nat :=
  if x.passes.isEmpty && !x.overflow then 3 else if x.begun then 2 else 1

/-- Store a set and show it (Tables 4.13 to 4.15); ARRAY_BUSY follows. -/
def State.putSet (s : State) (e k : Nat) (x : AccSet) : State :=
  let s := { s with sets := SMap.put s.sets (setKey e k) x }
  let s := s.setEf e (if k = 0 then Reg.setState0 else Reg.setState1) x.shown
  let s := s.setEf e (if k = 0 then Reg.setRun0 else Reg.setRun1) x.run
  (s.setEf e (if k = 0 then Reg.setEt0 else Reg.setEt1) (twos 16 x.et)).arrayState e

/-- Free a set (R140). RUN_k, ET_k and ROWS_k keep what they showed of its last product; the manual says nothing of them for an IDLE
set (DESIGN CHOICE, log entry 76). -/
def State.freeSet (s : State) (e k : Nat) : State :=
  let s := { s with sets := SMap.del s.sets (setKey e k) }
  (s.setEf e (if k = 0 then Reg.setState0 else Reg.setState1) 0).arrayState e

/-- ROWS_k (Table 4.15). -/
def State.setRows (s : State) (e k n : Nat) : State := s.setEf e (if k = 0 then Reg.setRows0 else Reg.setRows1) n

/-- The requester of an engine working for an operation. -/
def engRq (e : Nat) (o : OpSlot) : Requester := ⟨1, e, o.cue.job⟩

/-- The job, as the tile's operation sees it (R188), and the product; none if they are gone. -/
def State.workOf (s : State) (e : Nat) (w : TileWork) : Option (OpSlot × Nat × Job × Prod) × State :=
  match SMap.find s.ops w.op with
  | some o =>
    (match o.cue.job.bind fun slot => (s.job slot).map fun j => (slot, j) with
     | some (slot, j) =>
       (match s.prodOf (engRq e o) (j.viewOf o) o.cue with
        | (some p, s) => (some (o, slot, j.viewOf o, p), s)
        | (none, s) => (none, s))
     | none => (none, s))
  | none => (none, s)

/-- The rung-up operands of a tile: those of its entry of the plan for the run of a damage check, none for any other (R172, R179). -/
def TileWork.upOps (w : TileWork) (j : Job) (c : CueRec) : Option UpOp × Option UpOp :=
  if w.role = 3 then j.rungUpOps c w.tile else (none, none)

/-- A pass of a replay product (R201): the array runs it like any other and all its registers show it; the value is formed in Cyley
order at the drain. It changes no held A20 output and completes no capture that waits: the manual gives the cells of such a pass no
values (DESIGN CHOICE, log entry 119). -/
def State.replayPass (s : State) (e : Nat) (p : Prod) (x : AccSet) (kt i jx : Nat) : AccSet × State :=
  let s := ((s.addEf e Reg.passes 1).addEf e Reg.streamRows x.work.rows).addEf e Reg.tileLoads (b2n (jx + 1 == x.work.slices))
  ({ x with passes := x.passes.drop 1, begun := true }, s.showPass e p x.work none none (none, none) kt i jx)

/-- The next pass of a set. -/
def State.runPass (s : State) (e k : Nat) (o : OpSlot) (j : Job) (p : Prod) (x : AccSet) : State :=
  match x.passes with
  | [] => s.putSet e k x
  | (kt, i, jx) :: _ =>
    if j.replay then
      let (x, s) := s.replayPass e p x kt i jx
      s.putSet e k x
    else match s.pass (engRq e o) e j p x (x.work.upOps j o.cue) kt i jx with
    | (0, x, s) => s.putSet e k x
    | (st, _, s) => s.opAbortAt x.work.op st p.a.base

/-- Begin a run of a set (R140, R141): from zero with its first pass, or, for UPDATE, by preloading the base, after which the next
command makes the first pass. -/
def State.beginRun (s : State) (e k : Nat) (o : OpSlot) (j : Job) (p : Prod) (x : AccSet) : State :=
  let s := s.setRows e k 0
  if p.fin.acc = 1 then
    match s.preload (engRq e o) e p x with
    | (0, x, s) => s.putSet e k x
    | (st, _, s) => s.opAbortAt x.work.op st p.out.base
  else s.runPass e k o j p x

/-- Elements of a set that a row failing in service has changed, as (element, amount) (R130). -/
def State.failRows (s : State) (e k : Nat) (wrong : List (Nat × Int)) : State :=
  match SMap.find s.sets (setKey e k) with
  | some x =>
    let elems := wrong.foldl (fun (l : List AccEl) w => l.modify w.1 fun (a : AccEl) => { a with v := sext 64 (twos 64 (a.v + w.2)) }) x.elems
    { s with sets := SMap.put s.sets (setKey e k) { x with elems } }
  | none => s

/-- An uncorrectable error in a set (R146): an event, and the product aborts as for uncorrectable data of a bank, the engine's sets
standing for the place (DEDUCED, log entry 67). -/
def State.setError (s : State) (e : Nat) (x : AccSet) : State :=
  (s.event Ev.uncorrectable (UId.engine e) [0, 0] St.uncorrectable).opAbort x.work.op St.uncorrectable (3072 + e) (UId.engine e)

/-- Does this command meet an uncorrectable error in a set that holds a product? -/
def State.badSet (s : State) (e k : Nat) (bad : Bool) : Option AccSet :=
  if bad then SMap.find s.sets (setKey e k) else none

/-- Matinee products change no watch record and trigger nothing (R171), and are no tiles of the attempt (R168, Table 5.3). -/
def OpSlot.counts (o : OpSlot) : Bool := o.cue.phase != phEval

/-- Bind the next tile that waits for an engine to an idle set (R140). -/
def State.bindTile (s : State) (e k : Nat) (w : TileWork) : State :=
  let s : State := { s with tiles := s.tiles.erase w }
  match s.workOf e w with
  | (some (o, slot, j, p), s) =>
    let s := if w.role = 0 ∧ o.counts then s.modJob slot fun (j : Job) =>
        { j with worked := if j.worked.contains e then j.worked else e :: j.worked } else s
    s.beginRun e k o j p (AccSet.start w (p.passes w.slices))
  | (none, s) => s

/-- PASS_START (R103, R113, R140, R146): the engine binds the next tile that waits for it to an idle set, or runs the next pass of a
bound one. `meet` is what the array and the set meet meanwhile. -/
def execPassStart (engine set : Nat) (meet : PassMeet) (s : State) : Host.Outcome State Fault Refusal :=
  run (engOk engine && decide (set < 2)) (fun s =>
    let st := s.engSt engine
    if st ≠ US.active ∧ st ≠ US.spare ∧ st ≠ US.test then s
    else match s.badSet engine set meet.setBad with
    | some x => s.setError engine x
    | none =>
      let s := (s.addEf engine Reg.feedWaits meet.feedWaits).addEf engine Reg.drainWaits meet.drainWaits
      (match SMap.find s.sets (setKey engine set) with
       | some x =>
         if x.passes.isEmpty ∨ x.overflow then s
         else
           (match s.workOf engine x.work with
            | (some (o, _, j, p), s) => s.runPass engine set o j p x
            | (none, s) => s.freeSet engine set)
       | none =>
         (match s.tiles.find? fun t => t.engine == engine with
          | none => s
          | some w => s.bindTile engine set w) : State).failRows engine set meet.wrong) s

/-! ### What a drain counts and triggers -/

/-- One damaged tile or run-4 overflow counted against each narrow operand, one that was not at W16 when the product issued (`view`;
R181, R184, R188): its trigger follows. True where a trigger fired. -/
def State.countDamage (s : State) (slot : Nat) (view : Job) (p : Prod) : Bool × State :=
  [p.a, p.b].foldl (fun (acc : Bool × State) t =>
    match acc.2.job slot with
    | some j =>
      if view.atW16 t then acc
      else
        let s := acc.2.addWatch j t.idx 28 2 1
        if bits 31 24 j.thresh ≤ s.num (j.watchAt t.idx + 28) 2 then (true, s.trigger slot t.idx) else (acc.1, s)
    | none => acc) (false, s)

/-- A tile of a tensor whose rung in `view` is its recipe's counts as written above it (R187); one that was raised counts already. Its
copy's blocks count (R78). -/
def State.noteWiden (s : State) (slot : Nat) (view : Job) (t : Tensor) (q : QuantOut) : State :=
  let s := s.countCopy view q
  if view.rung t.idx = 0 then
    ((s.addWatch view t.idx 30 2 1).inc Reg.fallbackTiles).modJob slot fun (j : Job) => { j with stormF := j.stormF + 1 }
  else s

/-- The second drain of a tile (R187): its planes again with WIDE set, and the fall-back copy at the next rung. Its row records stand as
the first drain wrote them. -/
def State.secondWrite (s : State) (rq : Requester) (slot : Nat) (j : Job) (p : Prod) (c : CueRec) (x : AccSet) : Nat × State :=
  match s.drainOut rq (j.raisedRung p.out.idx) p c x c.step with
  | ({ status := 0, quant := some q, .. }, s) =>
    let s := s.noteDraws slot p x.work (some q)
    (match s.writeQuant rq ((s.job slot).getD j) c.scope q.planes q.recs with
     | (0, s) => (0, (s.modJob slot fun (j : Job) => j.noteRecs c.scope p.out q).noteWiden slot j p.out q)
     | e => e)
  | (d, s) => (d.status, s)

/-- A written block-scaled tile: counted, and its triggers evaluated (R78, R184), unless it is a matinee product's (`watch` is false,
R171). True where the tile is to be widened: a small cast, below the last rung, with a fall-back copy (R187); `view` has the rungs it was
written at. -/
def State.afterWrite (s : State) (slot scope : Nat) (view : Job) (t : Tensor) (q : QuantOut) (watch : Bool) : Bool × State :=
  let s := s.noteWrite slot scope t q watch
  match s.job slot with
  | some j =>
    if watch && j.tileTrigger q.stats then
      let widen := !j.replay && !j.large && t.fb != 0
        && decide (view.rung t.idx < lastRung ((eFmtOf (j.recipeAt t.idx).fmt).getD .w16))
      (widen, s.trigger slot t.idx)
    else (false, s)
  | none => (false, s)

/-- Counters and events of a set that has been drained (R147 to R149, Table 4.12). The event of a retried product says by its status that
run 4 saturated (R148; DESIGN CHOICE, log entry 77); a saturation without a retry has its own, once a product. -/
def State.drained (s : State) (e : Nat) (o : OpSlot) (x : AccSet) (d : Drained) : State :=
  let s := ((s.addEf e Reg.tilesDrained 1).addEf e Reg.satTiles (b2n d.ovf)).addEf e Reg.nvTiles (b2n d.nv)
  let sat := x.elems.any (·.ovf)
  if 0 < x.run then
    s.event Ev.a64Retry (UId.engine e) [o.cue.index, x.run, twos 32 x.et] (if sat then St.saturated else 0)
  else if sat ∧ !o.satNoted then
    let s := s.event Ev.a64Saturated (UId.engine e) [o.cue.index]
    match SMap.find s.ops x.work.op with
    | some o => { s with ops := SMap.put s.ops x.work.op { o with satNoted := true } }
    | none => s
  else s

/-- Rows of an operation acknowledged by the memory (R145). -/
def State.ackRows (s : State) (op rows : Nat) : State :=
  match SMap.find s.ops op with
  | some o => { s with ops := SMap.put s.ops op { o with rows := o.rows + rows } }
  | none => s

/-- A drained set as a pair of capture areas keeps it (R170, R173). -/
def AccSet.capture (x : AccSet) (d : Drained) : TileResult :=
  { engine := x.work.engine, et := x.et, elems := x.elems.map (·.v), ovf := (x.header false 0).ovf, nv := d.nv, lost := x.lost
    retries := x.run, bound := x.bound, out := d }

/-- A capture as a set again, for its release. -/
def TileResult.set (r : TileResult) (w : TileWork) : AccSet :=
  { work := w, et := r.et, run := r.retries, passes := [], elems := r.elems.map fun v => ⟨v, false⟩, nv := r.nv, lost := r.lost
    bound := r.bound, ovf := r.ovf, overflow := false, second := false, begun := true }

/-- The address of a run's pair of capture areas in its tile's room (R170): engine A's, the check run's and, behind the rung-up copies,
the rung-up run's. -/
def Job.pairAt (j : Job) (q : Planned) (p : Prod) (rows cols role : Nat) : Nat :=
  let pair := j.pairBytes p rows cols false
  if role = 0 then q.room else if role = 3 then q.room + 2 * pair + j.rungUpBytes p q.tile else q.room + pair

/-- Write a drained tile into its capture areas in the sample buffer (R173): its A64 set, and its output's planes and records one after
the other, of a rung-up run those of the copy (R170, log entry 73). A tile whose plan is gone has no room any more. Status, the
areas' address, state. -/
def State.captureTile (s : State) (j : Job) (o : OpSlot) (p : Prod) (x : AccSet) (d : Drained) : Nat × Nat × State :=
  let w := x.work
  match j.planned o.cue w.tile with
  | none => (0, 0, s)
  | some q =>
    let a := j.pairAt q p w.rows w.cols w.role
    let hdr := x.header (p.klen == 0 && p.fin.acc == 0) o.cue.step
    let (ws, recs) := match d.quant with
      | some u => if w.role = 3 ∧ u.raised then (u.wide, u.recs.drop 1) else (u.planes, u.recs)
      | none => (d.plain, [])
    let out := (ws.flatMap (·.2) ++ recs.flatMap fun r => r.2.2).take (j.outBytes p w.rows w.cols (w.role == 3))
    let (e, s) := s.devWrites (.manager o.cue.job) [(a, hdr.bytes ++ x.elems.flatMap fun e => leBytes 8 (twos 64 e.v)),
      (a + tileBytes w.rows w.cols, out)]
    (e, a, s)

/-- A run of a check has been drained into its capture areas: its tile takes the result (R175, R177, R179). -/
def HeldTile.take (h : HeldTile) (w : TileWork) (r : TileResult) : HeldTile :=
  if h.work.op = w.op ∧ h.work.tile = w.tile then
    (if w.role = 1 then { h with b := some r } else if w.role = 2 then { h with c := some r } else { h with wide := some r })
  else h

/-- A tile's rows have been stored (R145, R184): its counts and triggers. True where it is to be drained a second time. -/
def State.stored (s : State) (slot : Nat) (o : OpSlot) (view : Job) (p : Prod) (run : Nat) (q : Option QuantOut) : Bool × State :=
  let s := if run = 4 ∧ o.counts then (s.countDamage slot view p).2 else s
  match q with
  | some q => s.afterWrite slot o.cue.scope view p.out q o.counts
  | none => (false, s)

/-- The finishing stage writes the rung-up copy of what it quantises (R172). -/
def State.keepOutput (s : State) (slot : Nat) (j : Job) (p : Prod) (c : CueRec) (w : TileWork) (d : Drained) : State :=
  if d.spans.isEmpty then s
  else s.keepRungUp slot j p.out ((rmodeOf p.fin.round).getD .rne) c.step d.pre (s.outBits j p c w c.step 1 []) d.spans

/-- A complete set of an unsampled tile goes to its target (R145, R187): its rows are acknowledged; a tile to be drained again stays in
its set. -/
def State.drainStore (s : State) (e k : Nat) (o : OpSlot) (slot : Nat) (j : Job) (p : Prod) (x : AccSet) (d : Drained) : State :=
  let w := x.work
  if w.acked then s.putSet e k { x with second := true }
  else match (s.keepOutput slot j p o.cue w d).storeTile (engRq e o) j p o.cue.scope x d o.cue.step with
  | (0, s) =>
    let (widen, s) := ((s.setRows e k w.rows).ackRows w.op w.rows).stored slot o j p x.run d.quant
    if widen then s.putSet e k { x with second := true, work := { w with acked := true } }
    else (s.freeSet e k).opAck w.op 0
  | (st, s) => s.opAbortAt w.op st p.out.base

/-- A complete set is drained (R145, R173): into its capture areas for a check run or a sampled tile, else to its target. -/
def State.drainSet (s : State) (e k : Nat) (o : OpSlot) (slot : Nat) (j : Job) (p : Prod) (x : AccSet) : State :=
  let w := x.work
  let up := if w.role = 3 ∧ p.out.record ≠ 0 then j.raisedRung p.out.idx else j
  let (d, s) := s.drainOut (engRq e o) up p o.cue x o.cue.step
  if d.status ≠ 0 then s.opAbortAt w.op d.status p.out.base
  else
    let s := (s.drained e o x d).noteDraws slot p w d.quant
    if w.role = 0 ∧ !w.sampled then s.drainStore e k o slot j p x d
    else match s.captureTile j o p x d with
    | (0, _, s) =>
      let s := (s.setRows e k w.rows).freeSet e k
      if w.role ≠ 0 then { s with heldTiles := s.heldTiles.map fun h => h.take w (x.capture d) }
      else
        let damage := ((j.planned o.cue w.tile).map (·.damage)).getD false
        { s with heldTiles := s.heldTiles ++ [{ work := w, damage, a := x.capture d, b := none, c := none, wide := none, verdict := 0 }] }
    | (st, a, s) => s.opAbortAt w.op st a

/-- TILE_DRAIN (R145, R146, R173, R184): a complete set goes through the finishing stage to its target, or, for a sampled tile or a
check run, to its capture areas. -/
def execTileDrain (engine : Nat) (set : SetRead) (s : State) : Host.Outcome State Fault Refusal :=
  run (engOk engine && decide (set.k < 2)) (fun s =>
    match s.badSet engine set.k set.bad with
    | some x => s.setError engine x
    | none =>
      (match SMap.find s.sets (setKey engine set.k) with
       | none => s
       | some x =>
         if !x.passes.isEmpty ∨ x.overflow ∨ x.second then s
         else match s.workOf engine x.work with
         | (none, s) => s.freeSet engine set.k
         | (some (o, slot, j, p), s) => s.drainSet engine set.k o slot j p x)) s

/-- SECOND_DRAIN (R146, R187): the held set drains to the fall-back copy. -/
def execSecondDrain (engine : Nat) (set : SetRead) (s : State) : Host.Outcome State Fault Refusal :=
  run (engOk engine && decide (set.k < 2)) (fun s =>
    match s.badSet engine set.k set.bad with
    | some x => s.setError engine x
    | none =>
      (match SMap.find s.sets (setKey engine set.k) with
       | none => s
       | some x =>
         if !x.second then s
         else match s.workOf engine x.work with
         | (none, s) => s.freeSet engine set.k
         | (some (o, slot, j, p), s) =>
           (match s.secondWrite (engRq engine o) slot j p o.cue x with
            | (0, s) => (s.freeSet engine set.k).opAck x.work.op 0
            | (e, s) => s.opAbortAt x.work.op e p.out.base))) s

/-- Et_B of a product in UPDATE mode: the bound over its operands' records, those of fall-back copies included, or of a rung-up run's
copies, grows by the base's largest element (R148, R179, R183). Status, Et_B, state. -/
def State.updateEtB (s : State) (rq : Requester) (j : Job) (c : CueRec) (p : Prod) (w : TileWork) : Nat × Int × State :=
  let (a, _, _) := p.out.tileAt (w.r0 / 256) (w.c0 / 256)
  match s.fbOf rq j p.qa with
  | (0, fa, s) =>
    (match s.fbOf rq j p.qb with
     | (0, fb, s) =>
       (match s.devRead rq a (64 + 8 * w.rows * w.cols) with
        | (0, bs, s) =>
          let h := tileHdrOf bs
          let top := (leWords 8 (w.rows * w.cols) (bs.drop 64)).foldl (fun m v => max m (sext 64 v).natAbs) 0
          let base : Rat := (top : Rat) * pow2 h.et
          let up := w.upOps j c
          (formStatus bs, max w.etB (p.boundEt (recsOf p.qa fa up.1) (recsOf p.qb fb up.2) base), s)
        | (e, _, s) => (e, w.etB, s))
     | (e, _, s) => (e, w.etB, s))
  | (e, _, s) => (e, w.etB, s)

/-- A64_OVERFLOW (R147, R148): the set's product runs again at a larger Et. -/
def execA64Overflow (engine set : Nat) (s : State) : Host.Outcome State Fault Refusal :=
  run (engOk engine && decide (set < 2)) (fun s =>
    match SMap.find s.sets (setKey engine set) with
    | none => s
    | some x =>
      if !x.overflow then s
      else match s.workOf engine x.work with
      | (none, s) => s.freeSet engine set
      | (some (o, _, j, p), s) =>
        let w := x.work
        let next := w.et0 + 8 * (x.run + 1 : Nat)
        let step := x.run + 1 ≤ 3 ∧ next ≤ 32767
        match (if p.fin.acc = 1 then s.updateEtB (engRq engine o) j o.cue p w else (0, w.etB, s)) with
        | (0, etB, s) =>
          let run := if step then x.run + 1 else 4
          let s := (s.addEf engine Reg.retryRuns 1).addEf engine Reg.boundRuns (b2n (decide (run = 4)))
          let s : State := { s with ops := SMap.put s.ops w.op { o with run } }
          let y := AccSet.start w (p.passes w.slices)
          s.beginRun engine set o j p { y with run, et := if step then next else etB, bound := w.bound || decide (run = 4) }
        | (e, _, s) => s.opAbortAt w.op e p.out.base) s

/-- ENGINE_WATCHDOG (R124): the engine marks itself FAILED and its tiles run on the spare (R441). -/
def execEngineWatchdog (engine : Nat) (s : State) : Host.Outcome State Fault Refusal :=
  run (engOk engine) (fun s =>
    if s.engSt engine = US.failed then s
    else
      let s := (s.setEf engine Reg.wdogFired 1).event Ev.engineWatchdog (UId.engine engine)
      s.engineFail engine Ev.engineWatchdog) s

/-- A capture command (R132): VALID is cleared; the value is that of the selected cell's next handshake, or at once its held value if
the array is idle. -/
def State.capture (s : State) (e : Nat) : State :=
  if s.engSt e ≠ US.test then s.discardWrite (0x480044 + 0x400 * e) 1 4
  else
    let s := s.setEf e Reg.testValid 0
    if s.ef e Reg.arrayBusy = 1 then
      (if s.captures.contains e then s else { s with captures := e :: s.captures })
    else s.captureHeld e

/-- TEST_CAPTURE (R132). -/
def execTestCapture (engine : Nat) (s : State) : Host.Outcome State Fault Refusal :=
  run (engOk engine) (fun s => s.hostWrite (0x480044 + 0x400 * engine) fun s => s.capture engine) s

/-! ### Checks of sampled tiles (R173 to R187) -/

/-- The engine a check run for cluster c goes to (R175): a spare of the clusters after it, else the lowest ACTIVE engine outside;
`skip` is a cluster left out. -/
def State.checkEngine (s : State) (c : Nat) (skip : Option Nat) : Option Nat :=
  let order := (List.range 15).map fun k => (c + 1 + k) % 16
  match (order.filter fun d => some d != skip).findSome? s.spareOf with
  | some e => some e
  | none => (List.range 144).find? fun e => e / 9 != c && some (e / 9) != skip && s.engSt e == US.active

/-- A tile leaves the capture areas for its target (R173): the narrow result, or in its place (`sub`) the rung-up run's, at the next rung
(R187). Run 4 of the narrow product counts in either case (R184). -/
def State.release (s : State) (h : HeldTile) (sub : Bool) : State :=
  let r := if sub then h.wide.getD h.a else h.a
  let gone : State := { s with heldTiles := s.heldTiles.filter fun x => !(x.work.op == h.work.op && x.work.tile == h.work.tile) }
  match gone.workOf r.engine h.work with
  | (none, s) => s
  | (some (o, slot, j, p), s) =>
    let j := if sub then j.raisedRung p.out.idx else j
    let rq := engRq r.engine o
    let x := r.set h.work
    match (s.keepOutput slot j p o.cue h.work r.out).storeTile rq j p o.cue.scope x r.out o.cue.step with
    | (0, s) =>
      let (widen, s) := (s.ackRows h.work.op h.work.rows).stored slot o j p h.a.retries r.out.quant
      let (e, s) := if widen then s.secondWrite rq slot j p o.cue x else (0, s)
      if e = 0 then s.opAck h.work.op 0 else s.opAbortAt h.work.op e p.out.base
    | (e, s) => s.opAbortAt h.work.op e p.out.base

/-- The result that the fault check settled on (Table 5.3). -/
def HeldTile.agreed (h : HeldTile) : TileResult := h.a

/-- A run for this tile waits or is under way. -/
def State.checking (s : State) (h : HeldTile) : Bool :=
  let mine := fun (w : TileWork) => w.op == h.work.op && w.tile == h.work.tile && w.role != 0
  s.tiles.any mine || s.sets.any fun x => mine x.2.work

/-- Which run of a held tile is due: role and engine (R175, R177, Table 5.2). -/
def State.checkDue (s : State) (h : HeldTile) : Option (Nat × Option Nat) :=
  let c := h.work.engine / 9
  if s.checking h then none
  else if h.b.isNone then some (1, s.checkEngine c none)
  else if h.verdict = 5 ∧ h.c.isNone then some (2, s.checkEngine c (h.b.map fun b => b.engine / 9))
  else if (h.verdict = 1 ∨ h.verdict = 2) ∧ h.damage ∧ h.wide.isNone then
    let e := ((if h.verdict = 2 then h.c else h.b).map (·.engine)).getD 144
    some (3, if s.engSt e = US.spare ∨ s.engSt e = US.active then some e else s.checkEngine c none)
  else none

/-- The rung-up copy of a stationary operand with masters is quantised from them when the check needs it (R172). -/
def State.masterRungUp (s : State) (slot : Nat) (j : Job) (p : Prod) : State :=
  if p.b.isWeight then
    match j.tensor p.b.aux with
    | some m =>
      (match s.readVals (.manager (some slot)) m 0 m.elems with
       | (0, vs, _, s) =>
         let spans := (List.range p.b.outer).map fun r => ({ r, k := 0, vals := (vs.drop (r * p.b.redLen)).take p.b.redLen } : Span)
         s.keepRungUp slot j p.b .rne p.qb.step p.qb.pre (fun _ _ => 0) spans
       | (_, _, _, s) => s)
    | none => s
  else s

/-- The tile of a check run (R175, R177, R179): that of the narrow run on another engine, or for a damage check the product of the
rung-up operands, with its Et from their records (R147). -/
def State.checkWork (s : State) (rq : Requester) (j : Job) (c : CueRec) (p : Prod) (h : HeldTile) (role engine : Nat) : TileWork × State :=
  let w := { h.work with role, engine, sampled := false, acked := false }
  if role ≠ 3 then (w, s)
  else
    let (ua, ub) := j.rungUpOps c w.tile
    let fa := s.fbOf rq j p.qa
    let fb := fa.2.2.fbOf rq j p.qb
    let qas := recsOf p.qa fa.2.1 ua
    let qbs := recsOf p.qb fb.2.1 ub
    let (et0, bound, etB) := j.etsOf p qas qbs
    ({ w with et0, bound, etB, slices := ((qas ++ qbs).map fun q => q.stored.fmt.slices).foldl max w.slices }, fb.2.2)

/-- Issue a check run of a held tile. -/
def State.issueCheck (s : State) (h : HeldTile) (role engine : Nat) : State :=
  match s.workOf engine h.work with
  | (none, s) => s
  | (some (o, slot, j, p), s) =>
    if role = 3 ∧ j.atW16 p.a ∧ j.atW16 p.b then s.release h false
    else
      let s := if role = 3 then s.masterRungUp slot j p else s
      let (w, s) := s.checkWork (engRq engine o) (((s.job slot).getD j).viewOf o) o.cue p h role engine
      let s : State := { s with tiles := s.tiles ++ [w] }
      if s.engSt engine = US.active then s.inc Reg.checksOnActive else s

/-- FAULT_CHECK_RUN (R175, R177, R179): the next run that a held tile needs is issued to `engine`, if that is the engine R175
gives. A tile for which no engine is left is released unchecked, or without its damage check. -/
def execFaultCheckRun (tile engine : Nat) (s : State) : Host.Outcome State Fault Refusal :=
  run (engOk engine) (fun s =>
    match s.heldTiles[tile]? with
    | none => s
    | some h =>
      match s.checkDue h with
      | some (1, none) => (s.inc Reg.samplesDropped).release h false
      | some (3, none) => (s.inc Reg.damageDropped).release h false
      | some (role, some e) => if e ≠ engine then s else s.issueCheck h role engine
      | _ => s) s

/-- Two runs of a tile agree in everything R176 compares. -/
def TileResult.same (a b : TileResult) (free : Bool) : Bool :=
  a.elems == b.elems && a.et == b.et && a.ovf == b.ovf && a.nv == b.nv && a.lost == b.lost && a.retries == b.retries
    && a.bound == b.bound && (free || (a.out.rows == b.out.rows && a.out.writes == b.out.writes && a.out.recs == b.out.recs))

/-- Free-running draws make the outputs differ between engines (R176, R219). -/
def Prod.freeOut (p : Prod) : Bool := decide (rmodeOf p.fin.round = some .sr) && p.fin.srFree && !p.out.isGradient

/-- Store a changed held tile. -/
def State.putHeld (s : State) (i : Nat) (h : HeldTile) : State := { s with heldTiles := s.heldTiles.set i h }

/-- FAULT_CHECK_COMPARE (R176): the two runs of a held tile are compared. -/
def execFaultCheckCompare (tile : Nat) (s : State) : Host.Outcome State Fault Refusal :=
  run true (fun s =>
    match s.heldTiles[tile]? with
    | none => s
    | some h =>
      match h.b with
      | none => s
      | some b =>
        if h.verdict ≠ 0 then s
        else match s.workOf h.work.engine h.work with
        | (none, s) => s
        | (some (_, _, _, p), s) =>
          let s := s.inc Reg.faultChecks
          if h.a.same b p.freeOut then
            let h1 := { h with verdict := 1 }
            if h.damage then s.putHeld tile h1 else s.release h1 false
          else (s.putHeld tile { h with verdict := 5 }).inc Reg.faultMismatches) s

/-- An engine that a verdict names faulty is lost; the spare takes over after the attempt has ended (Table 5.3, R441). -/
def State.faultyEngine (s : State) (e slot : Nat) (abandon : Bool) : State :=
  let was := s.engSt e
  let s := if was = US.failed then s else s.setUnit (UId.engine e) US.failed Ev.faultVerdict Src.device
  let s := if abandon then s.abandon slot Cause.verdict else s
  if was = US.active then s.replaceEngine e else if was = US.failed then s else s.rerunTiles e e

/-- A held tile is discarded (R178). One whose operation the abandoned step leaves alone, a matinee product's (R171), is computed again,
by an engine of its cluster that can. -/
def State.discardHeld (s : State) (h : HeldTile) : State :=
  let s : State := { s with heldTiles := s.heldTiles.filter fun x => !(x.work.op == h.work.op && x.work.tile == h.work.tile) }
  match SMap.find s.ops h.work.op with
  | none => s
  | some o =>
    let e := h.work.engine
    let near := s.roleOf e :: (List.range 9).map (9 * (e / 9) + ·)
    let able := near.find? fun x => s.engSt x == US.active && s.inMatinee x == (o.cue.phase == phEval)
    { s with tiles := s.tiles ++ [{ h.work with engine := able.getD e }] }

/-- FAULT_VERDICT (R177, R178): the third run decides, or no engine was left for it. -/
def execFaultVerdict (tile : Nat) (s : State) : Host.Outcome State Fault Refusal :=
  run true (fun s =>
    match s.heldTiles[tile]? with
    | none => s
    | some h =>
      match h.b with
      | none => s
      | some b =>
        if h.verdict ≠ 5 then s
        else match s.workOf h.work.engine h.work with
        | (none, s) => s
        | (some (o, slot, j, p), s) =>
          let ea := h.a.engine
          let eb := b.engine
          let args := fun (ec v : Nat) =>
            [UId.engine eb * 2 ^ 16 + UId.engine ea, v * 2 ^ 16 + (if ec < 144 then UId.engine ec else 0), o.cue.index, h.work.tile]
          let lost := fun (s : State) (ec : Nat) =>
            let s := (s.inc Reg.faultUnresolved).event Ev.faultUnresolved (UId.engine ea) (args ec 2)
            let s := ((s.toTest ea Ev.faultUnresolved).toTest eb Ev.faultUnresolved)
            let s := if ec < 144 then s.toTest ec Ev.faultUnresolved else s
            (s.abandon slot Cause.verdict).discardHeld h
          match h.c with
          | some c =>
            let ec := c.engine
            if c.same h.a p.freeOut then
              let s := s.event Ev.faultVerdict (UId.engine eb) (args ec 0)
              let again := j.worked.contains eb
              let h2 := { h with verdict := 2 }
              let s := s.putHeld tile h2
              let s := s.faultyEngine eb slot again
              if h.damage then s else s.release h2 false
            else if c.same b p.freeOut then
              ((s.event Ev.faultVerdict (UId.engine ea) (args ec 1)).faultyEngine ea slot true).discardHeld h
            else lost s ec
          | none => if (s.checkDue h).any fun d => d.2.isNone then lost s 144 else s) s

/-- ENGINE_SELF_TEST_DONE (R177, Table 16.6): an engine in TEST returns to its earlier state, or is marked FAILED. -/
def execEngineSelfTestDone (engine : Nat) (pass : Bool) (s : State) : Host.Outcome State Fault Refusal :=
  run (engOk engine) (fun s =>
    let u := UId.engine engine
    let w := s.unitEntry u
    let due := bits 15 12 w == Src.device && !s.inFleetTest u
    if s.unitRaw u ≠ US.test ∨ !due then s
    else if pass then s.setEntry u (bits 31 16 w) (bits 15 12 w) 0 0 (bits 7 4 w)
    else
      let s := s.setEntry u (bits 31 16 w) (bits 15 12 w) 0 0 US.failed
      if bits 7 4 w = US.active then s.replaceEngine engine else s) s

/-- Error of an element in units of its scale (Tables 1.12, 2.10), the alignment error of R110 included. -/
def epsOf (f : EFmt) (sr : Bool) : Rat :=
  match f with
  | .t2 => if sr then 1 else 1 / 2
  | .n4 => if sr then 2 else 1
  | .l4 => if sr then 4 else 2
  | .i4 => if sr then 1 else 1 / 2
  | .n8 => if sr then 36 else 20
  | .m8 => if sr then 17408 else 9216
  | .w16 => if sr then pow2 (-8) + pow2 (-14) else pow2 (-9) + pow2 (-14)

/-- Scale of a narrow block and its escape's VALUE. -/
def scaleOf (b : RBlock) : Rat × Rat :=
  match b with
  | .num c fr _ esc _ => (scaleVal c fr, (esc.map fun e => rabs e.2).getD 0)
  | _ => (0, 0)

/-- Narrow blocks of one outer index of an operand over a product's reduction range. -/
def State.narrowRow (s : State) (rq : Requester) (t : Tensor) (q : QRec) (r : Nat) (ks : List Nat) : List (Rat × Rat) :=
  ks.map fun k => scaleOf (s.readQBlock rq t q.stored (r * t.blocksPer q.stored.rotN + k)).2.1

/-- The right-hand side of R165 for one element. -/
def Prod.errBound (p : Prod) (slices : Nat) (et : Int) (as bs : List (Rat × Rat)) : Rat :=
  let fa := p.qa.stored.fmt
  let fb := p.qb.stored.fmt
  let beta := 32 * (epsOf fa p.qa.sr * fb.divisor + fa.divisor * epsOf fb p.qb.sr)
  let sum := (as.zip bs).foldl (fun (acc : Rat) x => acc + beta * x.1.1 * x.2.1 + pow2 (-8) * x.1.2 * fb.divisor * x.2.1) 0
  let nrot := max 1 (rotLen p.qa.rot)
  pow2 (-p.qa.pre - p.qb.pre) * sum / (nrot : Rat) + ((as.length * slices * slices : Nat) : Rat) * pow2 (et - 1)

/-- Some element of a tile is damaged (R179). -/
def State.damaged (s : State) (rq : Requester) (j : Job) (p : Prod) (h : HeldTile) (wide : TileResult) : Bool :=
  let w := h.work
  let n := h.agreed
  let ks := (List.range (ceilDiv p.klen 32)).map (p.k0 / 32 + ·)
  let as := (List.range w.rows).map fun m => s.narrowRow rq p.a p.qa (w.r0 + m) ks
  let bs := (List.range w.cols).map fun c => s.narrowRow rq p.b p.qb (w.c0 + c) ks
  let factor : Rat := (bits 15 8 j.policy : Rat) / 16
  !(n.nv || wide.nv) && (List.range w.rows).any fun m => (List.range w.cols).any fun c =>
    let i := m * w.cols + c
    let d := rabs (((n.elems.getD i 0 : Int) : Rat) * pow2 n.et - ((wide.elems.getD i 0 : Int) : Rat) * pow2 wide.et)
    decide (factor * p.errBound w.slices n.et (as.getD m []) (bs.getD c []) < d)

/-- DAMAGE_CHECK (R179, R181, R187, R192): the rung-up run is compared with the agreed result, and the tile is released. -/
def execDamageCheck (tile : Nat) (s : State) : Host.Outcome State Fault Refusal :=
  run true (fun s =>
    match s.heldTiles[tile]? with
    | none => s
    | some h =>
      match h.wide with
      | none => s
      | some wide =>
        if h.verdict ≠ 1 ∧ h.verdict ≠ 2 then s
        else match s.workOf h.work.engine h.work with
        | (none, s) => s
        | (some (o, slot, j, p), s) =>
          let s := s.inc Reg.damageChecks
          if s.damaged (engRq h.work.engine o) j p h wide then
            let (fired, s) := (s.inc Reg.damagedTiles).countDamage slot j p
            s.release h (fired && !j.large)
          else s.release h false) s

end Sys2Proof.Machine
end

