-- ==== Sys2Proof/Machine/ExtMem.lean ====
section
/-!
DEFINITION. The rows of the outer memories (09_external_memory.md): HBM and DDR accesses, patrol scrub, temperatures, thermal
levels and slow-progress notices.
-/
namespace Sys2Proof.Machine

open Sys2Proof

/-- HBM_ACCESS (R302): an access within one row, under the sector code; `die` corrections are reported by the stack's own
ECC. -/
def execHbmAccess (who : Sender) (addr len : Nat) (write : Bool) (bytes : List Byte) (ups : Upsets) (die : Nat) (s : State) :
    Host.Outcome State Fault Refusal :=
  run (senderOk who && decide (hbmBase ≤ addr) && decide (addr + len ≤ hbmEnd) && decide (0 < len)
      && decide (addr % 2048 + len ≤ 2048) && (!write || bytes.length == len)) (fun s =>
    let s := s.addStackF (hbmStack addr) Reg.stackDie die
    if write then
      let (st, s) := s.accessWrite (s.requester who addr len) addr bytes ups
      s.answer who st addr []
    else
      let (st, bs, s) := s.accessRead (s.requester who addr len) addr len false ups
      s.answer who st addr bs) s

/-- DDR_ACCESS (R320): an access within one line, under the line code. -/
def execDdrAccess (who : Sender) (addr len : Nat) (write : Bool) (bytes : List Byte) (ups : Upsets) (s : State) :
    Host.Outcome State Fault Refusal :=
  run (senderOk who && decide (ddrBase ≤ addr) && decide (addr + len ≤ ddrBase + 2 ^ 41) && decide (0 < len)
      && decide (addr % 64 + len ≤ 64) && (!write || bytes.length == len)) (fun s =>
    if write then
      let (st, s) := s.accessWrite (s.requester who addr len) addr bytes ups
      s.answer who st addr []
    else
      let (st, bs, s) := s.accessRead (s.requester who addr len) addr len false ups
      s.answer who st addr bs) s

/-- HBM_PATROL_SCRUB (R305): scrub reads one sector of an online stack. -/
def execHbmPatrolScrub (addr : Nat) (symbols : SectorRead) (s : State) : Host.Outcome State Fault Refusal :=
  run (decide (hbmBase ≤ addr) && decide (addr < hbmEnd)) (fun s =>
    let a := addr / 256 * 256
    if s.fld (Reg.stackUp.plus (0x40 * hbmStack a)) ≠ 1 then s
    else
      let s := s.dieReports symbols.ups
      if SMap.get false s.voided a ∨ symbols.wrong = 0 then s
      else if symbols.wrong ≤ 8 then s.correctSector a symbols.wrong symbols.ups
      else s.uncorrSector a symbols.ups) s

/-- DDR_PATROL_SCRUB (R320): scrub reads one line of the active set. -/
def execDdrPatrolScrub (addr devices : Nat) (s : State) : Host.Outcome State Fault Refusal :=
  run (decide (ddrBase ≤ addr) && decide (addr < ddrBase + 2 ^ 41)) (fun s =>
    let a := addr / 64 * 64
    if s.tierOf a 64 ≠ some .ddr ∨ SMap.get false s.voided a then s
    else if devices = 0 then s
    else if devices ≤ 2 then s.correctLine a devices
    else s.uncorrLine a) s

/-! ### Heat (R314 to R316, R321, R544) -/

/-- The threshold of a thermal level (Table 9.5). -/
def State.threshold (s : State) (level : Nat) : Int :=
  match level with
  | 1 => s.fld Reg.hot1
  | 2 => s.fld Reg.hot2
  | 3 => s.fld Reg.hot3
  | _ => s.fld Reg.crit

/-- The level whose threshold a temperature has reached. -/
def State.levelAt (s : State) (t : Int) : Nat :=
  if s.threshold 4 ≤ t then 4 else if s.threshold 3 ≤ t then 3 else if s.threshold 2 ≤ t then 2
  else if s.threshold 1 ≤ t then 1 else 0

/-- Levels of the eight stacks and the eight channels. -/
def State.levels (s : State) : List Nat :=
  (List.range 8).map (fun i => s.fld (Reg.stackLevel.plus (0x40 * i))) ++ (List.range 8).map fun c => (s.channel c).level

/-- A plausible stack or DIMM temperature (Table 16.6). -/
def plausible (t : Int) : Bool := -40 ≤ t && t ≤ 125

/-- A sensor becomes faulty: counted and recorded once in each start (R544). -/
def State.sensorFault (s : State) (unit sensor : Nat) (reading : Int) : State :=
  ((s.inc Reg.sensorFaults).setF Reg.sensorDegraded 1).event Ev.sensorFault unit [sensor, twos 32 reading]

/-- THERM_N follows the levels at once upward; it is released by the junction samples (R541). -/
def State.thermCheck (s : State) : State := if s.levels.any (2 ≤ ·) then s.setTherm true else s

/-- A stack's level changes, with its event and, at CRIT, Table 9.6. -/
def State.stackToLevel (s : State) (i new : Nat) (t : Int) : State :=
  let old := s.fld (Reg.stackLevel.plus (0x40 * i))
  if old = new then s
  else
    let u := UId.stack i
    let s := (s.setStackF i Reg.stackLevel new).event Ev.thermalLevel u [old, new, twos 32 t]
    if new = 4 then
      let s := (s.setStackF i Reg.stackUp 0).setF Reg.stackOnline (setBits i i 0 (s.fld Reg.stackOnline))
      ((s.putUnit u US.failed 0x7101 Src.device)).declareFailed 0x7101 u
    else s

/-- What one sample of a stack's sensor leaves: a faulty sensor's hold at level 2, or the reading and its level. -/
def State.stackSample (s : State) (stack : Nat) (temp : Option Int) (bad : Bool) : State :=
  let x := s.stack stack
  if bad then
    let s := (s.setStack stack { x with faulty := true }).sensorFault (UId.stack stack) 0 (temp.getD 0)
    s.stackToLevel stack (max 2 (s.fld (Reg.stackLevel.plus (0x40 * stack)))) (temp.getD 0)
  else match temp with
  | none => s.setStack stack { x with silent := x.silent + 1 }
  | some t =>
    let s := s.setStackF stack Reg.stackTemp (twos 8 t)
    let cur := s.fld (Reg.stackLevel.plus (0x40 * stack))
    let cool := if cur ≠ 0 ∧ t < s.threshold cur - 3 then x.cool + 1 else 0
    let s := s.setStack stack { x with cool, silent := 0 }
    s.stackToLevel stack (max cur (s.levelAt t)) t

/-- HBM_TEMP_SAMPLE (R314, R544): one sample of a stack's sensor, or none. A level rises at once; a faulty sensor holds the
stack at level 2, which its time at level 2 goes on counting (R325). -/
def execHbmTempSample (stack : Nat) (temp : Option Int) (s : State) : Host.Outcome State Fault Refusal :=
  run (decide (stack < 8)) (fun s =>
    let x := s.stack stack
    if s.fld (Reg.stackUp.plus (0x40 * stack)) ≠ 1 then s
    else
      let bad := match temp with
        | some t => !plausible t
        | none => decide (1 ≤ x.silent)
      let s := if x.faulty then s else s.stackSample stack temp bad
      let lvl := s.fld (Reg.stackLevel.plus (0x40 * stack))
      let s := if lvl = 2 ∨ lvl = 3 then s.addStackF stack Reg.stackThrottleMs 1 else s
      s.thermCheck) s

/-- A region lies in DDR space (R322). -/
def inDdr (base size : Nat) : Bool := size != 0 && decide (ddrBase ≤ base)

/-- The DDR tier goes offline (R321): the device fails if its snapshot region lies there, else the mirror copies and parity blocks that it
held there for others are lost, with an event for each base and one for the parity blocks (R313). -/
def State.ddrOffline (s : State) (c : Nat) : State :=
  let u := UId.channel c
  let s := (s.setF Reg.ddrActive 0).event Ev.ddrOffline u
  let k := s.ckp
  if (if k.job.isSome then inDdr k.snapBase k.snapSize else inDdr (s.rd Reg.snapBase) (s.rd Reg.snapSize)) then s.declareFailed 0x7102 u
  else
    let s := if inDdr k.mirrorBase k.mirrorSize then
        s.heldBases.foldl (fun (s : State) e => s.event Ev.protectionLost u [s.fld Reg.mirrorSource, e.2.2]) s
      else s
    if inDdr k.parityBase k.paritySize then
      { s with ckp := { s.ckp with stored := false, staged := false } }.event Ev.protectionLost u [s.fld Reg.parityRunStart, 0]
    else s

/-- A channel's level changes. -/
def State.channelToLevel (s : State) (c new : Nat) (t : Int) : State :=
  let x := s.channel c
  if x.level = new then s
  else
    let s := (s.setChannel c { x with level := new }).event Ev.thermalLevel (UId.channel c) [x.level, new, twos 32 t]
    if new = 4 then s.ddrOffline c else s

/-- DIMM_TEMP_SAMPLE (R321, R544): one sample of a DIMM's sensor, or none. -/
def execDimmTempSample (channel : Nat) (temp : Option Int) (s : State) : Host.Outcome State Fault Refusal :=
  run (decide (channel < 8)) (fun s =>
    let x := s.channel channel
    if s.fld (Reg.ddrTrained.plus (0x40 * channel)) ≠ 1 ∨ x.faulty then s
    else
      let bad := match temp with
        | some t => !plausible t
        | none => decide (1 ≤ x.silent)
      let s :=
        if bad then
          let s := (s.setChannel channel { x with faulty := true }).sensorFault (UId.channel channel) 0 (temp.getD 0)
          s.channelToLevel channel (max 2 x.level) (temp.getD 0)
        else match temp with
        | none => s.setChannel channel { x with silent := x.silent + 1 }
        | some t =>
          let cool := if x.level ≠ 0 ∧ t < s.threshold x.level - 3 then x.cool + 1 else 0
          let s := s.setChannel channel { x with cool, silent := 0, temp := twos 8 t }
          s.channelToLevel channel (max x.level (s.levelAt t)) t
      s.thermCheck) s

/-- THERMAL_LEVEL_FALL (R314): after 10 consecutive samples below the threshold minus 3 °C a level falls by one. -/
def execThermalLevelFall (dimm : Bool) (index : Nat) (s : State) : Host.Outcome State Fault Refusal :=
  run (decide (index < 8)) (fun s =>
    if dimm then
      let x := s.channel index
      if 10 ≤ x.cool ∧ !x.faulty ∧ x.level ≠ 0 ∧ x.level ≠ 4 then
        (s.setChannel index { x with cool := 0 }).channelToLevel index (x.level - 1) (sext 8 x.temp)
      else s
    else
      let x := s.stack index
      let lvl := s.fld (Reg.stackLevel.plus (0x40 * index))
      if 10 ≤ x.cool ∧ !x.faulty ∧ lvl ≠ 0 ∧ lvl ≠ 4 then
        (s.setStack index { x with cool := 0 }).stackToLevel index (lvl - 1)
          (sext 8 (s.fld (Reg.stackTemp.plus (0x40 * index))))
      else s) s

/-- Send an unflooded notice on every port in UP and count it (R315). -/
def State.slowNotice (s : State) (kind : Nat) : State :=
  (List.range 6).foldl (fun s p =>
    if s.pst p = PS.up then (s.sendNotice p (noticeBody kind 0 0 0 0 0 0 0)).inc Reg.noticesSent else s) s

/-- SLOW_NOTICE_SEND (R315): a SLOW notice while a stack or DIMM is at level 2 or 3, and one CLEAR once all have
fallen below level 2. -/
def execSlowNoticeSend (s : State) : Host.Outcome State Fault Refusal :=
  run true (fun s =>
    if s.levels.any fun l => l == 2 || l == 3 then
      let s := s.slowNotice nkSlow
      ({ s with fabric := { s.fabric with slow := true } }).setF Reg.memSlow 1
    else if s.fabric.slow ∧ s.levels.all (· < 2) then
      let s := s.slowNotice nkClear
      ({ s with fabric := { s.fabric with slow := false } }).setF Reg.memSlow 0
    else s) s

end Sys2Proof.Machine
end

