-- ==== Sys2Proof/Machine/Interval.lean ====
section
/-!
DEFINITION. The interval and its copies (12_checkpointing.md): the stop, the snapshot slot and its prompt book, the drain by
mirror and parity, the protection vote, exports, and what a shield or an expulsion does (R471, R472).
-/
namespace Sys2Proof.Machine

open Sys2Proof

/-- The job of a slot, if the protection is its. -/
def State.withCkp (s : State) (slot : Nat) (f : Job → State) : State :=
  match s.job slot with
  | some j => if s.ckp.job = some slot then f j else s
  | none => s

/-- Copy n bytes of memory from one place to another; a voided sector or line leaves its copy voided (R304). -/
def State.copyMem (s : State) (src dst n : Nat) : State :=
  let kept := (s.mem.filter fun c => decide (src ≤ c.1) && decide (c.1 < src + n)).map fun c => (c.1 - src + dst, c.2)
  let gone := ((s.voidsIn src n).filter (src ≤ ·)).flatMap fun v => unitsOf (codeUnit dst) (v - src + dst) (codeUnit v)
  let s := (s.clearVoids dst n).zeroBytes dst n
  { s with mem := SMap.setAll 0 s.mem kept, voided := gone.foldl (fun m v => SMap.put m v true) s.voided }

/-! ### Bulk objects (R226 to R232) -/

/-- A fresh nonce (Table 6.7): 128 free bits. -/
def State.nonce (s : State) : List Nat × State :=
  let (a, s) := s.draw
  let (b, s) := s.draw
  (leNats 8 a.toNat ++ leNats 8 b.toNat, s)

/-- Form a bulk object of a body: under the export secret if one is loaded, else in plain text with the seed's tag key (R229,
R232). -/
def State.seal (s : State) (j : Job) (kind : Nat) (mac enc : Bool) (body : List Byte) : List Byte × State :=
  let (n, s) := s.nonce
  let s := s.inc Reg.bulkObjects
  match s.rng.secret with
  | some k =>
    (toBytes (bulkSeal kind mac enc (s.fld Reg.exportKeyId) (natBytes k) n (natBytes body)),
      if enc then s.addF Reg.bulkEncBytes body.length else s)
  | none => (toBytes (bulkSeal kind mac false 0 j.seed n (natBytes body)), s)

/-! ### Parity (R415, R422 to R425) -/

/-- The parity list of some items of a slot, by their offsets in it and lengths, padded to G − 1 units of u bytes; none where an item cannot
be read (R304, R422). -/
def State.parityList (s : State) (k g u : Nat) (items : List (Nat × Nat)) : Option (List Byte) × State :=
  let (l, s) := items.foldl (fun (acc : Option (List Byte) × State) it =>
    match acc.1 with
    | none => acc
    | some l =>
      match acc.2.devRead (.manager none) (acc.2.ckp.slotAt k + it.1) it.2 with
      | (0, bs, s) => (some (l ++ bs ++ List.replicate (align2M it.2 - it.2) 0), s)
      | (_, _, s) => (none, s)) (some [], s)
  (l.map fun l => l ++ List.replicate ((g - 1) * u - l.length) 0, s)

/-- Start, or start again, the XOR of one stripe toward a target (R423, R424): `mine` is what this member contributes. -/
def State.startStripe (s : State) (index stripe u target : Nat) (mine : List Byte) : State :=
  let a := parityAxis s.ckp.prot
  let (g, _, first) := s.parityPlace
  let desc := parityDesc a (comp first a) g u target
  let x := collNew none desc index s.openEpoch 1 (if target = s.coord then List.replicate u 0 else byteVals mine)
  s.putColl (deviceKey index stripe) { x with tracks := s.xorTracks a (comp first a) g target u stripe }

/-- Start some stripes of the snapshot in slot k; none does while an item cannot be read, and the drain is given up then (Table 12.7). -/
def State.startParity (s : State) (k u : Nat) (stripes : List Nat) : State :=
  let (g, i, _) := s.parityPlace
  match s.parityList k g u ((s.ckp.items.filter fun it => it.method == 2).map fun it => (it.slotOff, it.bytes)) with
  | (none, s) => s
  | (some l, s) => stripes.foldl (fun (s : State) t =>
      s.startStripe 0xFFFFF9 t u (s.groupMember t) ((l.drop ((t + g - i - 1) % g * u)).take u)) s

/-- Stripes that have not finished start again from their first chunk in the epoch that is open now (R424). -/
def State.restartStripes (s : State) : State :=
  let todo := s.colls.filter fun e => e.2.index == 0xFFFFF9 && e.2.op.isNone && !e.2.done && e.2.epoch != s.openEpoch
  if todo.isEmpty then s else s.startParity s.sSlot (s.rd 0xC0060) (todo.map fun e => e.1 % 16)

/-- Base of a block of the parity region. -/
def Ckp.parityBlock (c : Ckp) (upper : Bool) : Nat := c.parityBase + b2n upper * parityCap c.paritySize

/-! ### P advances (R408, R420, R436) -/

/-- The holder applies its source's journal: its pieces go to the bases, and the pending book becomes P's book (R420). -/
def State.applyJournal (s : State) : State :=
  let base := s.ckp.mirrorBase
  let s := s.ckp.journal.foldl (fun (s : State) e => s.copyMem e.2.1 e.1 e.2.2) s
  (s.copyMem (base + 2 ^ 24) base (2 ^ 24)).endJournal

/-- The export period in intervals (R436). -/
def Ckp.exportPeriod (c : Ckp) : Nat :=
  let every := bits 15 0 c.exportCtl
  let corr := if c.correlated then bits 31 16 c.exportCtl else 0
  if every = 0 then corr else if corr = 0 then every else min every corr

/-- Offsets of the objects of an export, in entry order, and of its book (R437). -/
def exportOffsets : Nat → List Item → List Nat
  | off, [] => [off]
  | off, it :: rest => off :: exportOffsets (off + ceilDiv (64 + it.bytes) 4096 * 4096) rest

/-- An export ends without success (R324, R437): one event, and whether it is tried again. -/
def State.exportFails (s : State) (reason : Nat) (again : Bool) : State :=
  let s := { s with ckp := { s.ckp with exporting := none, exportRetry := again } }
  ((s.setF Reg.ckpExporting 0).inc Reg.exportFails).event Ev.exportRefused UId.stageManager [reason]

/-- An export is to begin (R437): the header of the book object that stood in its slot is zeroed first. `step` is P's. -/
def State.openExport (s : State) (step : Nat) : State :=
  let c := s.ckp
  if s.rng.secret.isNone ∧ s.fld Reg.bulkPlainOk = 0 then s.exportFails 0 false
  else
    let bookOff := (exportOffsets 0 c.items).getLastD 0
    if c.exportSize < bookOff + 64 + 128 + 80 * c.items.length then s.exportFails 1 false
    else
      let e := 1 - c.exportSlot
      match s.devWrite (.manager none) (c.exportBase + e * c.exportSize + bookOff) (List.replicate 64 0) with
      | (0, s) =>
        ({ s with ckp := { s.ckp with exporting := some (e, step), exportRetry := false } }.setF Reg.ckpExporting 1).lend
      | (_, s) => s.exportFails 2 true

/-- Begin an export of slot P if one is due by the index in its book (R429, R436). An export that would begin finds a book that may not be
used fails and is tried again (R431). -/
def State.startExport (s : State) : State :=
  let c := s.ckp
  if c.exporting.isSome ∨ (!c.exportRetry ∧ c.exportPeriod = 0) then s
  else
    match s.readBook s.pSlot with
    | (none, s) => if c.exportRetry then s.exportFails 2 true else s
    | (some book, s) =>
      if c.exportRetry ∨ (c.exportPeriod ≠ 0 ∧ fieldLE book 52 4 % c.exportPeriod = 0) then s.openExport (fieldLE book 24 6) else s

/-- P becomes the step of the sealed slot S (R408): holders take over its mirror and parity copies, the DATA cues whose last
samples it holds complete, and an export may begin. -/
def State.advanceP (s : State) (slot : Nat) : State :=
  let k := s.sSlot
  match s.ckp.sealed.getD k none with
  | none => s
  | some step =>
    let old := s.ckp.slotAt (1 - k) + 3
    let s := if s.ckp.hasP then s.ownNum old 1 (setBits 7 7 0 (s.num old 1)) else s
    let s := if s.ckp.mirrorOk then s.applyJournal else s
    let c := s.ckp
    let s := { s with
      ckp := { c with
        items := c.items.map (fun (it : Item) => if it.method = 1 then { it with baseValid := true } else it)
        hasP := true, sealed := c.sealed.set (1 - k) none, parityUpper := xor c.parityUpper c.staged, stored := c.staged
        staged := false } }
    let s := (((s.setF Reg.ckpPSlot k).setF Reg.ckpSSealed 0).setF Reg.ckpDrainFailed 0).setF Reg.protectedStep step
    let due : List Shard := ((s.job slot).map (·.shards)).getD [] |>.filter fun (sh : Shard) => sh.behind step
    let s := due.foldl (fun (s : State) (sh : Shard) => s.opAck sh.op 0) s
    let s := s.modJob slot fun (j : Job) => { j with shards := j.shards.filter fun sh => !due.contains sh }
    let s : State := if s.fov.recovery then s else { s with fov := { s.fov with failed := [], donor := noCoord } }
    s.startExport

/-- This member's PENDING and FAILED (R407). -/
def State.drainVote (s : State) : Nat × Nat :=
  let open' := s.fld Reg.ckpSSealed == 1 && (s.fld Reg.ckpDrainBusy == 1 || s.fld Reg.ckpDrainFailed == 1)
  (b2n (open' || s.fld Reg.ckpExporting == 1), s.fld Reg.ckpDrainFailed)

/-- The result of the protection vote (R408). -/
def State.applyVote (s : State) (slot pending failed : Nat) : State :=
  if 0 < failed then
    let s := s.discardS.endJournal
    { s with ckp := { s.ckp with mustRun := true } }
  else if pending = 0 then s.advanceP slot
  else s

/-! ### The stop (R409 to R417) -/

/-- The interval of a slot's job begins: nothing issues until it ends (Table 12.2, step 2). -/
def State.beginInterval (s : State) : State :=
  ({ s with ckp := { s.ckp with stopping := true } }.setF Reg.ckpPhase 1).setF Reg.ckpDeferRun 0

/-- FORCED_INTERVAL (R409, R410): the barrier behind the drain, with the sums of the other members. It stands before a forced
interval and before the first attempt of a job. -/
def execForcedInterval (slot pending failed : Nat) (s : State) : Host.Outcome State Fault Refusal :=
  run (decide (slot < 4)) (fun s =>
    s.withCkp slot fun _ =>
      let (p, f) := s.drainVote
      if !s.ckp.barrier ∨ s.fld Reg.ckpDrainBusy = 1 then s
      else if 0 < pending + p ∧ failed + f = 0 then s
      else
        let s := s.applyVote slot (pending + p) (failed + f)
        let c := s.ckp
        let s := { s with ckp := { c with barrier := false } }
        if c.starting then
          if 0 < failed + f then { s with ckp := { s.ckp with full := true } }.setF Reg.ckpFullNext 1
          else if c.full then s
          else { s with ckp := { s.ckp with starting := false } }
        else { s with ckp := { s.ckp with mustRun := false } }.beginInterval) s

/-- The method of an item at an interval, and whether every block is shipped (R416, Table 12.1). -/
def Ckp.methodOf (c : Ckp) (it : Item) : Nat × Bool :=
  let all := c.full || !it.baseValid
  if !c.mirrorOk then (if c.parityOk then 2 else 0, false)
  else if !c.parityOk then (1, all)
  else if it.base.isSome ∧ (c.full ∨ it.bytes < bigItem ∨ !it.baseValid ∨ 4 * it.dirty.length < ceilDiv it.bytes 4096) then (1, all)
  else (2, false)

/-- Methods, shipped blocks and protection offsets of every item (R416, R417, R422, Table 12.6). -/
def Ckp.choose (c : Ckp) : Nat → List Item → List Item
  | _, [] => []
  | off, it :: rest =>
    let (m, all) := c.methodOf it
    let n := if m ≠ 1 then 0 else if all then ceilDiv it.bytes 4096 else it.dirty.length
    let it' : Item := { it with method := m, fullMirror := m == 1 && n == ceilDiv it.bytes 4096, shipped := n,
                                protOff := if m = 1 then it.base.getD 0 else if m = 2 then off else 0 }
    it' :: c.choose (if m = 2 then off + align2M it.bytes else off) rest

/-- Length of the parity list (R422). -/
def Ckp.listLen (c : Ckp) : Nat := ((c.items.filter fun it => it.method == 2).map fun it => align2M it.bytes).foldl (· + ·) 0

/-- Copy every item into a slot; false at the first one that cannot be read or written. -/
def State.copyIn (s : State) (j : Job) (slot k : Nat) : Bool × State :=
  s.ckp.items.foldl (fun (acc : Bool × State) it =>
    if !acc.1 then acc
    else match acc.2.itemLive j slot it with
    | (0, bs, s) =>
      (match s.devWrite (.manager none) (s.ckp.slotAt k + it.slotOff) bs with
       | (0, s) => (true, s)
       | (_, s) => (false, s))
    | (_, _, s) => (false, s)) (true, s)

/-- INTERVAL_STOP (R410, R411, R417): methods are chosen, the dirty bitmaps of what is mirrored start again, and every item is
copied into the slot that does not hold P. `peers` brings the largest parity list of the other members of the group's line (R422), and the
items whose bases their holder has lost, which are mirrored in full (R313, R416). Uncorrectable data rolls back (Table 12.7). -/
def execIntervalStop (slot : Nat) (peers : IntervalPeers) (s : State) : Host.Outcome State Fault Refusal :=
  run (decide (slot < 4)) (fun s =>
    s.withCkp slot fun j =>
      let s := if s.ckp.starting ∧ s.ckp.full ∧ !s.ckp.stopping ∧ !s.ckp.barrier then s.beginInterval else s
      if !s.ckp.stopping ∨ s.fld Reg.ckpPhase ≠ 1 then s
      else
        let c := s.ckp
        let items := c.choose 0 (c.items.zipIdx.map fun (e : Item × Nat) =>
          if peers.lost.contains e.2 then { e.1 with baseValid := false } else e.1)
        let c : Ckp := { c with
          items := items.map (fun (it : Item) => if it.method = 1 then { it with dirty := [] } else it)
          ship := items.map fun (it : Item) => if it.fullMirror then List.range (ceilDiv it.bytes 4096) else it.dirty }
        let u := if c.parityOk then parityUnitOf (max c.listLen (peers.lmax * 2 ^ 21)) (groupSize c.prot) else 0
        let s := { s with ckp := c }
        let s := (s.setF Reg.ckpPhase 2).setF Reg.parityUnit u
        match s.copyIn j slot s.sSlot with
        | (true, s) => s
        | (false, s) =>
          let s := s.flood nkCancel Cause.badData 0 j.epoch 0
          let s := { s with ckp := { s.ckp with stopping := false } }
          (s.setF Reg.ckpPhase 0).rollback slot) s

/-! ### The prompt book (Tables 12.5 and 12.6) -/

/-- One entry; EXPORT_OFF is 0 outside exports. -/
def bookEntryOf (it : Item) (digest : List Byte) (exportOff : Nat) : List Byte :=
  leBytes 1 1 ++ leBytes 1 10 ++ leBytes 1 it.kind
    ++ leBytes 1 (it.method * 64 + b2n it.fullMirror * 32 + b2n it.base.isSome * 16) ++ leBytes 4 it.index
    ++ leBytes 8 it.slotOff ++ leBytes 8 it.bytes ++ leBytes 8 it.protOff ++ leBytes 8 exportOff ++ leBytes 8 it.shipped ++ digest

/-- Bytes 0 to 95 of the header for slot k. -/
def State.bookHead (s : State) (j : Job) (slot k us : Nat) : List Byte :=
  let c := s.ckp
  let flags := 128 + 64 * b2n c.full + 32 * b2n c.correlated + 16 * s.jf slot Reg.jobNonrepro + 4 * k
  leBytes 1 1 ++ leBytes 1 16 ++ leBytes 1 2 ++ leBytes 1 flags ++ leBytes 4 (j.hdr 4 4) ++ leBytes 1 1
    ++ leBytes 1 (if c.parityOk then groupSize c.prot else 0) ++ leBytes 1 (4 * parityAxis c.prot + mirrorAxis c.prot)
    ++ leBytes 1 (s.fld Reg.parityIndex) ++ leBytes 3 s.coord ++ leBytes 1 0 ++ leBytes 4 s.ownCast ++ leBytes 4 c.items.length
    ++ leBytes 8 (s.jf slot Reg.jobStep) ++ leBytes 8 (s.jf slot Reg.jobSkipped) ++ leBytes 4 (s.jf slot Reg.jobShard)
    ++ leBytes 4 (s.jf slot Reg.jobSample) ++ leBytes 4 j.dataEpoch ++ leBytes 4 (c.index + 1) ++ leBytes 8 (seedCheck j.seed)
    ++ leBytes 8 (s.fld Reg.parityUnit) ++ leBytes 3 (s.fld Reg.mirrorPartner) ++ leBytes 1 0 ++ leBytes 4 us ++ leBytes 16 0

/-- A whole book with its BOOK_DIGEST. -/
def bookWhole (head : List Byte) (entries : List (List Byte)) : List Byte :=
  head ++ digest32 (head ++ entries.flatten) ++ entries.flatten

/-! ### The drain (R417 to R425) -/

/-- The EPOCH that names the snapshot in slot k (R358, R419). -/
def State.slotEpochOf (s : State) (k : Nat) : Nat := (s.ckp.sealed.getD k none).getD 0 % 2 ^ 24 * 256

/-- Ship one item's blocks to the partner as bulk objects on VC 2 (R226, R419). A block that cannot be read is not shipped: the drain
cannot complete (Table 12.7). -/
def State.shipItem (s : State) (j : Job) (p k : Nat) (blocks : List Nat) (it : Item) : State :=
  let partner := s.fld Reg.mirrorPartner
  let epoch := s.slotEpochOf k
  let mac := s.fld Reg.bulkMirrorMac == 1
  let enc := s.fld Reg.bulkMirrorEnc == 1
  blocks.foldl (fun (s : State) b =>
    match s.devRead (.manager none) (s.ckp.slotAt k + it.slotOff + 4096 * b) (min 4096 (it.bytes - 4096 * b)) with
    | (0, body, s) =>
      let (obj, s) := s.seal j 2 mac enc body
      (s.sendPut p 2 partner epoch (s.ckp.mirrorBase + it.protOff + 4096 * b) obj).addF Reg.mirrorBytes body.length
    | (_, _, s) => s) s

/-- Ship the mirrored items and the book, and the FENCE behind them (R356, R419). -/
def State.shipMirror (s : State) (j : Job) (k : Nat) (book : List Byte) : State :=
  let blocks := s.ckp.ship
  match (if s.ckp.mirrorOk then s.openRoute (s.fld Reg.mirrorPartner) else none) with
  | none => s
  | some p =>
    let s := (s.ckp.items.zip blocks).foldl (fun (s : State) e => if e.1.method = 1 then s.shipItem j p k e.2 e.1 else s) s
    let (obj, s) := s.seal j 2 (s.fld Reg.bulkMirrorMac == 1) (s.fld Reg.bulkMirrorEnc == 1) book
    let epoch := s.slotEpochOf k
    (s.sendPut p 2 (s.fld Reg.mirrorPartner) epoch (s.ckp.mirrorBase + 2 ^ 24) obj).sendFence p [] 4

/-! ### Shield and expulsion (R471, R472) -/

/-- A shield (R472): with P from before the last agreed vote, every engine tests itself and the cast rolls back to P; otherwise
the export fallback. The flood is the abandonment's own when an attempt is open. -/
def State.shieldAct (s : State) (slot : Nat) : State :=
  let t := s.jf slot Reg.jobStep
  let w := t - bits 22 16 s.ckp.fovCtrl
  match s.job slot with
  | none => s
  | some j =>
    let s := (s.inc Reg.shields).event Ev.shield UId.stageManager [t]
    if s.ckp.hasP ∧ s.fld Reg.protectedStep ≤ w then
      let s := (List.range 144).foldl (fun (s : State) e =>
        let st := s.engSt e
        if st = US.active ∨ st = US.idle ∨ st = US.spare then s.toTest e Ev.shield else s) s
      if j.isOpen then s.abandon slot Cause.shield else (s.flood nkCancel Cause.shield 0 j.epoch 0).rollback slot
    else
      let s := if j.isOpen then s.abandon slot Cause.shield false else s.flood nkCancel Cause.shield 0 j.epoch 0
      s.exportFallback w

/-- Shield now, or after the interval stop that is under way (R472). -/
def State.shieldNow (s : State) (slot : Nat) : State :=
  if s.inStop then { s with ckp := { s.ckp with afterStop := s.ckp.afterStop ++ [0] } } else s.shieldAct slot

/-- This device is expelled (R470, R471): it declares itself failed and its engines go to TEST. -/
def State.expelAct (s : State) : State :=
  let s := s.declareFailed 0x7107 UId.stageManager
  (List.range 144).foldl (fun (s : State) e => if s.engSt e = US.off then s else s.toTest e Ev.expulsion) s

/-- Expulsion now, or after the interval stop that is under way (R472). -/
def State.expelNow (s : State) : State :=
  if s.inStop then { s with ckp := { s.ckp with afterStop := s.ckp.afterStop ++ [1] } } else s.expelAct

/-! ### The seal -/

/-- SNAPSHOT_SEAL (R405, R411, R412, R417): the book is written and the slot sealed, the drain begins, and what waited for the stop happens. -/
def execSnapshotSeal (slot : Nat) (s : State) : Host.Outcome State Fault Refusal :=
  run (decide (slot < 4)) (fun s =>
    s.withCkp slot fun j =>
      if !s.ckp.stopping ∨ s.fld Reg.ckpPhase ≠ 2 then s
      else
        let k := s.sSlot
        let step := s.jf slot Reg.jobStep
        let (free, s) := s.draw
        let us := free.toNat % 2 ^ 32
        let entries := s.ckp.items.map fun it => bookEntryOf it (digest32 (s.bytes (s.ckp.slotAt k + it.slotOff) it.bytes)) 0
        let book := bookWhole (s.bookHead j slot k us) entries
        let s := s.putWhole (s.ckp.slotAt k) book
        let c := s.ckp
        let s := { s with
          ckp := { c with
            sealed := c.sealed.set k (some step), index := c.index + 1, full := false, stopping := false
            barrier := c.starting, staged := false, afterStop := [], reship := false } }
        let s := ((s.setF Reg.sealedStep step).setF Reg.lastStopUs us).setF Reg.ckpFullNext 0
        let s := (((s.setF Reg.ckpSSealed 1).setF Reg.ckpDrainBusy 1).setF Reg.ckpPhase 0).setJf slot Reg.jobPhase 0
        let s := (s.inc Reg.intervals).addF Reg.fullIntervals (b2n c.full)
        let s := s.event Ev.interval UId.stageManager [step % 2 ^ 32, us, s.fld Reg.protMib]
        let s := s.lend
        let s := s.shipMirror j k book
        let u := s.fld Reg.parityUnit
        let (g, _, _) := s.parityPlace
        let s := if 0 < u then (s.startParity k u (List.range g)).addF Reg.parityBytes ((g - 1) * u) else s
        let s := if j.stopNext ∧ s.jf slot Reg.jobState = 3 then
            (s.setJf slot Reg.jobState 4).modJob slot fun (j : Job) => { j with stopNext := false }
          else s
        c.afterStop.foldl (fun (s : State) a => if a = 0 then s.shieldAct slot else s.expelAct) s) s

/-- Every item of slot S reads back under the DIGEST of a book that may be used (R430, R431); the first that does not. -/
def State.badItem (s : State) (k : Nat) : Option Item :=
  match s.ckp.items with
  | [] => none
  | first :: _ =>
    match (s.readBook k).1 with
    | none => some first
    | some _ => (s.ckp.items.zipIdx.find? fun e => (s.itemFromSlot k e.2 e.1).1.isNone).map (·.1)

/-- DRAIN_COMPLETE (R419, R423): digests hold, the mirror is fence-acknowledged, and this member's stripe is stored in its
staging block. Mirror transfers that were not acknowledged are sent again first (Table 12.7). -/
def execDrainComplete (slot : Nat) (s : State) : Host.Outcome State Fault Refusal :=
  run (decide (slot < 4)) (fun s =>
    s.withCkp slot fun j =>
      let k := s.sSlot
      let u := s.fld Reg.parityUnit
      let (_, i, _) := s.parityPlace
      let waits := (List.range 6).any fun p => (s.port p).outstanding.any fun o => o.use == 4
      let stripe := (SMap.find s.colls (deviceKey 0xFFFFF9 i)).bind fun x => if x.done then some x else none
      if s.fld Reg.ckpDrainBusy ≠ 1 ∨ waits then s
      else if s.ckp.reship then
        match s.readBook k with
        | (some book, s) => { s with ckp := { s.ckp with reship := false } }.shipMirror j k book
        | (none, s) => s
      else if (s.badItem k).isSome ∨ (0 < u ∧ stripe.isNone) then s
      else
        let s := match (if 0 < u then stripe else none) with
          | some x =>
            let enc := s.fld Reg.bulkParityEnc == 1
            let mac := enc || s.fld Reg.bulkParityMac == 1
            let raw := x.wire (List.range x.data.length)
            let (obj, s) := if mac then s.seal j 3 mac enc raw else (raw, s)
            let up := !s.ckp.parityUpper
            let s := s.putWhole (s.ckp.parityBlock up) (if mac then obj.drop 64 else obj)
            { s with
              ckp := { s.ckp with staged := true, heads := s.ckp.heads.set (b2n up) (if mac then obj.take 64 else []) }
              colls := s.colls.filter fun e => !(e.2.index == 0xFFFFF9 && e.2.op.isNone && e.2.done) }
          | none => s
        s.setF Reg.ckpDrainBusy 0) s

/-- DRAIN_GIVEN_UP (Table 12.7): an item of slot S cannot be read back; FAILED follows at the next vote. -/
def execDrainGivenUp (slot : Nat) (s : State) : Host.Outcome State Fault Refusal :=
  run (decide (slot < 4)) (fun s =>
    s.withCkp slot fun _ =>
      match (if s.fld Reg.ckpDrainBusy = 1 then s.badItem s.sSlot else none) with
      | none => s
      | some it =>
        let s := { s with colls := s.colls.filter fun e => !(e.2.index == 0xFFFFF9 && e.2.op.isNone) }
        (((s.setF Reg.ckpDrainBusy 0).setF Reg.ckpDrainFailed 1).inc Reg.drainFails).event Ev.drainGivenUp UId.stageManager
          [it.kind, it.index]) s

/-! ### Exports (R437) -/

/-- Write the objects of an export in entry order; false at the first the far tier refuses. -/
def State.writeObjects (s : State) (j : Job) (objs : List (Nat × List Byte)) : Bool × State :=
  objs.foldl (fun (acc : Bool × State) o =>
    if !acc.1 then acc
    else
      let (obj, s) := acc.2.seal j 1 true true o.2
      match s.devWrite (.manager none) o.1 obj with
      | (0, s) => (true, s)
      | (_, s) => (false, s)) (true, s)

/-- The book of an export: EXPORT set and every EXPORT_OFF filled, under its own BOOK_DIGEST (R437). -/
def exportBook (book : List Byte) (offs : List Nat) (n : Nat) : List Byte :=
  let head := book.take 3 ++ leBytes 1 (setBits 3 3 1 (fieldLE book 3 1)) ++ (book.drop 4).take 92
  bookWhole head ((List.range n).map fun i =>
    let e := bookEntry book i
    e.take 32 ++ leBytes 8 (offs.getD i 0) ++ e.drop 40)

/-- What an export writes: slot k's book and the bytes of its items, read as any access reads them (R304, R437). -/
def State.exportBodies (s : State) (k : Nat) : Option (List Byte × List (List Byte)) × State :=
  match s.readBook k with
  | (none, s) => (none, s)
  | (some book, s) =>
    s.ckp.items.foldl (fun (acc : Option (List Byte × List (List Byte)) × State) it =>
      match acc.1 with
      | none => acc
      | some (book, got) =>
        match acc.2.devRead (.manager none) (acc.2.ckp.slotAt k + it.slotOff) it.bytes with
        | (0, bs, s) => (some (book, got ++ [bs]), s)
        | (_, _, s) => (none, s)) (some (book, []), s)

/-- EXPORT_COMPLETE (R437): every item's object and then the book object are in the far tier, acknowledged; a refusal fails the
export, which is tried again at the next P advance (R324). -/
def execExportComplete (slot : Nat) (s : State) : Host.Outcome State Fault Refusal :=
  run (decide (slot < 4)) (fun s =>
    s.withCkp slot fun j =>
      match s.ckp.exporting with
      | none => s
      | some (e, step) =>
        let base := s.ckp.exportBase + e * s.ckp.exportSize
        let n := s.ckp.items.length
        let offs := exportOffsets 0 s.ckp.items
        match s.exportBodies s.pSlot with
        | (none, s) => s.exportFails 2 true
        | (some (book, bodies), s) =>
          let objs := (offs.zip bodies).map fun p => (base + p.1, p.2)
          match s.writeObjects j (objs ++ [(base + offs.getLastD 0, exportBook book offs n)]) with
          | (true, s) =>
            let s := { s with ckp := { s.ckp with exporting := none, exportSlot := e } }
            (((s.setF Reg.ckpExporting 0).setF Reg.exportStep step).inc Reg.exports).event Ev.exportDone UId.stageManager
              [step % 2 ^ 32]
          | (false, s) => s.exportFails 2 true) s

end Sys2Proof.Machine
end

