-- ==== Sys2Proof/Machine/Fill.lean ====
section
/-!
DEFINITION. The FILL cue (R220 to R223): random tensors by a draw descriptor, executed in an engine's finishing stage.
-/
namespace Sys2Proof.Machine

open Sys2Proof

/-- The key a descriptor's draws use in a step (R208). -/
def State.drawKey (s : State) (j : Job) (d : DrawDesc) (step : Nat) : List Nat := s.key j step d.free

/-- Block number n of output element i (R221): addressed at position p, or the n-th further block of the element's lane. -/
def State.fillBlock (s : State) (key : List Nat) (d : DrawDesc) (c : CueRec) (engine i p n : Nat) : Nat :=
  if d.free then
    drawBits key (freeBlock d.stream engine (i % 256) ((s.lane engine (i % 256) + n) % 2 ^ 48) (c.step % 2 ^ 24) d.draw)
  else drawBits key (addrBlock d.stream d.tensor (elemPos c.mb p) (c.step % 2 ^ 24) d.draw)

/-- Blocks of the elements of a fill that came before element i on the same lane: `per` for each (R221). -/
def laneBefore (i per : Nat) : Nat := i / 256 * per

/-- The lane counters after a fill of n elements of `per` blocks each, the block counts, and NONREPRO (R218, R258). -/
def State.noteFill (s : State) (slot engine n per : Nat) (free : Bool) : State :=
  if n * per = 0 then s
  else if free then
    let lanes := min n 256
    let s := (List.range lanes).foldl (fun (s : State) l => s.bumpLane engine l ((n - l + 255) / 256 * per)) s
    (s.addF Reg.freeBlocks (n * per)).setJf slot Reg.jobNonrepro 1
  else s.addF Reg.addrBlocks (n * per)

/-- A FILL of one KIND: the descriptor is checked (R220), the engine must serve the cue's phase, and `f` gives the output
bytes, or a status with the address that gave it. -/
def State.withFill (s : State) (op engine kind : Nat) (f : OpSlot → Nat → Job → DrawDesc → Tensor → State) : State :=
  s.withOp op cFill fun o => s.withJob op o fun slot j =>
    match j.draw[o.cue.op 36 3]? with
    | none => s.opReject op St.operands 36
    | some bs =>
      let d := drawOf bs
      if drawCheck bs ≠ 0 then s.opReject op (drawCheck bs) 36
      else match j.tensor d.outRef with
      | none => s.opReject op St.operands 36
      | some t =>
        if d.kind ≠ kind ∨ s.engSt engine ≠ US.active ∨ s.inMatinee engine ≠ (o.cue.phase == phEval) then s
        else f o slot j d t

/-- Store the bytes of a fill and complete it. -/
def State.putFill (s : State) (op engine slot : Nat) (t : Tensor) (bs : List Byte) (n per : Nat) (free : Bool) : State :=
  if t.bytes < bs.length then s.opReject op St.operands 36
  else
    let s := s.noteFill slot engine n per free
    let (e, s) := s.devWrite ⟨1, engine, some slot⟩ t.base bs
    s.opEnd op e 0 t.base

/-- FILL with a RAW descriptor (R221, Table 6.5): one output block of 16 bytes for each element. -/
def execFillRaw (op engine : Nat) (s : State) : Host.Outcome State Fault Refusal :=
  run (opOk op && engOk engine) (fun s =>
    s.withFill op engine 0 fun o slot j d t =>
      let key := s.drawKey j d o.cue.step
      let bs := (List.range d.count).flatMap fun i => leBytes 16 (s.fillBlock key d o.cue engine i i (laneBefore i 1))
      s.putFill op engine slot t bs d.count 1 d.free) s

/-- Bits packed eight to a byte, the first in bit 0. -/
def packBits (bs : List Bool) : List Byte :=
  (List.range (ceilDiv bs.length 8)).map fun i =>
    BitVec.ofNat 8 (((List.range 8).map fun k => b2n (bs.getD (8 * i + k) false) * 2 ^ k).foldl (· + ·) 0)

/-- FILL with a BERNOULLI descriptor (R221, Table 6.5): element i is 1 when bits [31:16] of its block are below KEEP. -/
def execFillBernoulli (op engine : Nat) (s : State) : Host.Outcome State Fault Refusal :=
  run (opOk op && engOk engine) (fun s =>
    s.withFill op engine 1 fun o slot j d t =>
      let key := s.drawKey j d o.cue.step
      let bs := (List.range d.count).map fun i => dropKeep (s.fillBlock key d o.cue engine i i (laneBefore i 1)) d.paramA
      s.putFill op engine slot t (packBits bs) d.count 1 d.free) s

/-- FILL with a NORMAL descriptor (R222, Table 6.5): mean + sd × z by F32 RNE, then RNE to W16 if selected. -/
def execFillNormal (op engine : Nat) (s : State) : Host.Outcome State Fault Refusal :=
  run (opOk op && engOk engine) (fun s =>
    s.withFill op engine 2 fun o slot j d t =>
      let key := s.drawKey j d o.cue.step
      let vs := (List.range d.count).map fun i =>
        ffma (f32Val d.paramB) (normalZ (s.fillBlock key d o.cue engine i i (laneBefore i 1))) (f32Val d.paramA)
      let n := if d.outFmt = fmtF32 then 4 else 2
      s.putFill op engine slot t (vs.flatMap fun v => leBytes n (wideCode d.outFmt 0 v)) d.count 1 d.free) s

/-- x / τ by F32 RNE (R223). -/
def f32Div (x t : Val) : Val :=
  match x, t with
  | .fin n a, .fin m b => f32Round (.fin (xor n m) (a / b))
  | .inf n, .fin m _ => .inf (xor n m)
  | _, _ => .nan

/-- The chosen column of one row of scores (R223): ARGMAX of the row record procedure over y; −1 if a score is NaN. `g` is
the Gumbel term of each column; with τ = 0 it is not used. -/
def categorical (tau : Val) (xs : List Val) (g : Nat → Rat) : Int :=
  if xs.any (· == .nan) then -1
  else
    let ys := xs.zipIdx.map fun x => if tau.rat? = some 0 then x.1 else fadd (f32Div x.1 tau) (Val.ofRat (g x.2))
    let best := ys.zipIdx.foldl (fun (r : Val × Nat) y => if y.1.gt r.1 then (y.1, y.2) else r) (.inf true, 0)
    (best.2 : Nat)

/-- The rows of a categorical fill: status, chosen columns, NaN rows, state. -/
def State.catRows (s : State) (rq : Requester) (t : Tensor) (tau : Val) (w : Nat) (g : Nat → Nat → Rat) :
    List Nat → Nat × List Int × List Nat × State
  | [] => (0, [], [], s)
  | i :: is =>
    match s.readVals rq t (i * w) w with
    | (0, xs, _, s) =>
      (match s.catRows rq t tau w g is with
       | (0, l, nans, s) =>
         let r := categorical tau xs (g i)
         (0, r :: l, if r < 0 then i :: nans else nans, s)
       | e => e)
    | (e, _, _, s) => (e, [], [], s)

/-- FILL with a CATEGORICAL descriptor (R223): one I32 column index for each row. -/
def execFillCategorical (op engine : Nat) (s : State) : Host.Outcome State Fault Refusal :=
  run (opOk op && engOk engine) (fun s =>
    s.withFill op engine 3 fun o slot j d t =>
      match j.tensor d.inRef with
      | none => s.opReject op St.operands 36
      | some x =>
        if x.scaled ∨ (x.fmt ≠ fmtF32 ∧ x.fmt ≠ 0x10) ∨ x.elems < d.count * d.paramB then s.opReject op St.operands 36
        else
          let key := s.drawKey j d o.cue.step
          let tau := f32Val d.paramA
          let w := d.paramB
          let g := fun i k => gumbelG (s.fillBlock key d o.cue engine i (i * 2 ^ 18 + k) (laneBefore i w + k))
          let per := if tau.rat? = some 0 then 0 else w
          match s.catRows ⟨1, engine, some slot⟩ x tau w g (List.range d.count) with
          | (0, cols, nans, s) =>
            let s := nans.foldl (fun (s : State) i => s.event Ev.categoricalNan (UId.engine engine) [i]) s
            s.putFill op engine slot t (cols.flatMap fun v => leBytes 4 (twos 32 v)) d.count per d.free
          | (e, _, _, s) => s.opAbortAt op e x.base) s

end Sys2Proof.Machine
end

