-- ==== Sys2Proof/Machine/Move.lean ====
section
/-!
DEFINITION. The MOVE cue (R60): a mover converts elements from one tensor to another; and the quantised writes of movers and
update units, tile by tile, with their triggers (R158, R183 to R187).
-/
namespace Sys2Proof.Machine

open Sys2Proof

/-! ### Quantised writes outside the finishing stage -/

/-- Cut spans at the borders of 256 × 256 tiles, and gather those of one tile (R184). -/
def tileCuts (spans : List Span) : List (List Span) :=
  let cut := spans.flatMap fun sp =>
    let first := sp.k / 256
    let last := (sp.k + sp.vals.length - 1) / 256
    (List.range (last + 1 - first)).map fun i =>
      let lo := max sp.k (256 * (first + i))
      ({ r := sp.r, k := lo, vals := (sp.vals.drop (lo - sp.k)).take (256 * (first + i + 1) - lo) } : Span)
  let key := fun (sp : Span) => sp.r / 256 * 2 ^ 32 + sp.k / 256
  ((cut.map key).eraseDups).map fun k => cut.filter fun sp => key sp == k

/-- A write by one quantiser to a tensor: the job as the writing operation sees it, its rounding mode, step, pre-scale, scope, the amax of
its whole source (R200), the bits of an element for a draw field, and whether the watch counts it. -/
structure QuantJob where
  view : Job
  mode : RMode
  step : Nat
  pre : Int
  scope : Nat
  top : Rat
  r10 : Nat → Nat → Nat → Nat
  watch : Bool

/-- The job now, at the rungs of a quantised write. -/
def QuantJob.job (w : QuantJob) (now : Option Job) : Job := { now.getD w.view with rungs := w.view.rungs }

/-- One pass of a quantiser over a tile, at the rungs of `j`: planes and records, and its addressed draws counted (R79, R158, R183,
R234). Status, what it did, state. -/
def State.quantPass (s : State) (rq : Requester) (j : Job) (t : Tensor) (w : QuantJob) (spans : List Span) : Nat × QuantOut × State :=
  let q := s.quantise j t w.mode w.step w.pre w.scope w.top (w.r10 0) spans
  let (e, s) := s.writeQuant rq j w.scope q.planes q.recs
  (e, q, (s.loadRot q.rotEpoch).addF Reg.addrBlocks (q.drawn.length + q.segs))

/-- One tile of a quantised write (R158, R172, R183): the rung-up copy, planes and record, and, if a trigger of the tile is due at
once, the fall-back copy by a second pass over the source (R187). Status and state. -/
def State.writeTile (s : State) (rq : Requester) (slot : Nat) (t : Tensor) (w : QuantJob) (spans : List Span) : Nat × State :=
  let s := s.keepRungUp slot (w.job (s.job slot)) t w.mode w.step w.pre (w.r10 1) spans
  let j := w.job (s.job slot)
  match s.quantPass rq j t w spans with
  | (0, q, s) =>
    let (widen, s) := s.afterWrite slot w.scope j t q w.watch
    if !widen then (0, s)
    else
      (match s.quantPass rq ((w.job (s.job slot)).raisedRung t.idx) t w spans with
       | (0, q, s) => (0, (s.modJob slot fun (j : Job) => j.noteRecs w.scope t q).noteWiden slot j t q)
       | (e, _, s) => (e, s))
  | (e, _, s) => (e, s)

/-- A whole quantised write, tile by tile; the first failure ends it. -/
def State.writeScaled (s : State) (rq : Requester) (slot : Nat) (t : Tensor) (w : QuantJob) (spans : List Span) : Nat × State :=
  (tileCuts spans).foldl (fun (acc : Nat × State) ts => if acc.1 ≠ 0 then acc else acc.2.writeTile rq slot t w ts) (0, s)

/-- Rows of logical elements p, p + 1, … as spans. -/
def rowSpans (k p : Nat) (vals : List Val) : List Span :=
  (List.range ((p + vals.length - 1) / max 1 k + 1 - p / max 1 k)).map fun i =>
    let r := p / max 1 k + i
    let lo := max p (r * k)
    ({ r, k := lo - r * k, vals := (vals.drop (lo - p)).take ((r + 1) * k - lo) } : Span)

/-! ### What a MOVE checks -/

/-- Column of Table 1.10 that a tensor belongs to: a block-scaled one by the format it is stored with. -/
def Tensor.kind (t : Tensor) (stored : Nat) : Option ConvKind := convKind (if t.scaled then stored else t.fmt)

/-- The conversion and its rounding (R22, R49, R60): a block-scaled W16 target is quantised from a wide source, by RNE. -/
def moveAllowed (src dst : ConvKind) (dstScaled : Bool) (mode : Nat) : Bool :=
  if dst = .w16 ∧ dstScaled then mode == 0 && (src == .f32 || src == .k40 || src == .a64)
  else convAllowed src dst && roundAccepted mode src dst

/-- What a MOVE is checked for: status and offset. A block-scaled target is written in whole segments (log entry 80). -/
def Job.moveCheck (j : Job) (c : CueRec) (src dst : Tensor) (srcFmt : Nat) : Nat × Nat :=
  let n := c.op 53 5
  let p := c.op 48 5
  let kindOk := match src.kind srcFmt, dst.kind (j.recipeAt dst.idx).fmt with
    | some a, some b => moveAllowed a b dst.scaled (c.op 42 1 % 4)
    | _, _ => false
  let rot := rotLen (j.recipeAt dst.idx).rot
  let seg := if rot = 0 then 32 else rot
  let k := max 1 dst.redLen
  let q := (p + n) % k
  firstBroken
    [ (42, St.format, !kindOk), (42, St.replay, j.replay && rmodeOf (c.op 42 1 % 4) == some .sr), (53, St.range, decide (src.elems < c.op 43 5 + n) || decide (dst.elems < p + n)),
      (48, St.alignment, dst.scaled && p % k % seg != 0), (53, St.alignment, dst.scaled && q % seg != 0) ]

/-! ### Wide targets -/

/-- One element onto an A64 tile's grid (R60): the integer, and whether it saturated. A FLUSH of a plain conversion (R62) shows in no
state that the manual gives: R59 names places only for block-scaled targets and for OVF (log entry 99). -/
def toA64 (et : Int) (v : Val) : Int × Bool :=
  let (i, excess, _) := toGrid 64 et v
  (i, excess || v.nonFinite)

/-- Write elements into an A64 tensor, tile by tile (R60, Table 4.5): each tile keeps its Et; OVF and NV are added, EMPTY is
cleared. Each value says whether it comes from an NV block or tile (R46). An element of an NV block, which is no number, becomes 0 and
sets NV and OVF both (DESIGN CHOICE, log entry 79); one of an NV tile keeps its integer's value. -/
def State.putA64 (s : State) (rq : Requester) (t : Tensor) (p step : Nat) (vals : List (Val × Bool)) (ovf : Bool) : Nat × State :=
  let place := vals.zipIdx.map fun v =>
    let m := (p + v.2) / t.redLen
    let n := (p + v.2) % t.redLen
    let (a, _, w) := t.tileAt (m / 256) (n / 256)
    (a, 64 + 8 * ((m % 256) * w + n % 256), v.1)
  ((place.map (·.1)).eraseDups).foldl (fun (acc : Nat × State) a =>
    if acc.1 ≠ 0 then acc
    else match acc.2.readHdr rq a with
    | (0, h, s) =>
      let mine := (place.filter fun x => x.1 == a).map fun x => (x.2.1, x.2.2.2, toA64 h.et x.2.2.1)
      let h' : TileHdr := { h with ovf := h.ovf || ovf || mine.any (·.2.2.2), nv := h.nv || mine.any (·.2.1), empty := false, step }
      s.devWrites rq ((a, h'.bytes) :: mine.map fun x => (a + x.1, leBytes 8 (twos 64 x.2.2.1)))
    | (e, _, s) => (e, s)) (0, s)

/-- The source of a MOVE into an A64 tensor: exact values with the NV of their blocks or tiles, and whether a tile had OVF. An element of
an NV tile is its integer under the tile's Et (R60: A64 to A64 is a change of Et). -/
def State.readForA64 (s : State) (rq : Requester) (t : Tensor) (p n : Nat) : Nat × List (Val × Bool) × Bool × State :=
  if t.fmt = fmtA64 ∧ !t.scaled then
    match s.readA64s rq t ((List.range n).map (p + ·)) with
    | (0, xs, s) => (0, xs.map fun x => (x.1, x.2.nv), xs.any (·.2.ovf), s)
    | (e, _, s) => (e, [], false, s)
  else
    match s.readVals rq t p n with
    | (0, vs, _, s) => (0, vs.map fun v => (v, t.scaled && v == .nan), false, s)
    | (e, _, _, s) => (e, [], false, s)

/-- Write elements into a wide tensor other than A64: status, whether an I32 element saturated, state. Every element of an NV-flagged A64
tile is read as NaN, so it becomes 0 in an I32 tensor and counts as a saturation (DESIGN CHOICE, log entry 79). -/
def State.putWide (s : State) (rq : Requester) (t : Tensor) (p mode : Nat) (vals : List Val) : Nat × Bool × State :=
  if t.fmt = fmtI32 then
    match s.i32Exp rq t with
    | (0, ec, s) =>
      let xs := vals.map (toI32 ec)
      let (e, s) := s.devWrites rq (t.wideWrites p (xs.map fun x => twos 32 x.1))
      (e, xs.any (·.2), s)
    | (e, _, s) => (e, false, s)
  else
    let (e, s) := s.devWrites rq (t.wideWrites p (vals.map (wideCode t.fmt mode)))
    (e, false, s)

/-- Et of the A64 tile that holds the first element read, for the bound-mode pre-scale (Table 2.9): a source of several tiles with
different Et has no one Et, and one pre-scale stands in the record (DESIGN CHOICE, log entry 120). -/
def State.srcEt (s : State) (t : Tensor) (p : Nat) : Option Int :=
  if t.fmt = fmtA64 then
    some (tileHdrOf (s.bytes (s.storeAddr (t.tileAt (p / t.redLen / 256) (p % t.redLen / 256)).1) 64)).et
  else none

/-- A MOVE into an A64 tensor (R60). -/
def State.moveToA64 (s : State) (op : Nat) (rq : Requester) (c : CueRec) (src dst : Tensor) (qs : QRec) : State :=
  let n := c.op 53 5
  match s.readForA64 rq src (c.op 43 5) n with
  | (0, vals, ovf, s) =>
    let s := if src.scaled then s.srcMismatches rq src qs (c.op 43 5) n else s
    let (e, s) := s.putA64 rq dst (c.op 48 5) c.step vals ovf
    s.opEnd op e 0 dst.base
  | (e, _, _, s) => s.opAbortAt op e src.base

/-- A MOVE into any other tensor (R60, R158). An overflow to infinity in a W16, F32 or K40 tensor, which has no header, shows nowhere
(log entry 99). -/
def State.moveToOther (s : State) (op slot : Nat) (rq : Requester) (j : Job) (c : CueRec) (src dst : Tensor) (qs : QRec) : State :=
  let n := c.op 53 5
  let p := c.op 48 5
  match s.readVals rq src (c.op 43 5) n with
  | (0, vals, _, s) =>
    let s := if src.scaled then s.srcMismatches rq src qs (c.op 43 5) n else s
    if dst.scaled then
      let key := s.key j c.step false
      let w : QuantJob :=
        { view := j, mode := (rmodeOf (c.op 42 1)).getD .rne, step := c.step, pre := j.preOf dst.idx (s.srcEt src (c.op 43 5)), scope := c.scope
          top := topOf vals, watch := true
          r10 := fun draw r k => srBits (elemBits key c.step dst.idx c.mb (r * dst.redLen + k) draw none) }
      let (e, s) := s.writeScaled rq slot dst w (rowSpans dst.redLen p vals)
      s.opEnd op e 0 dst.base
    else
      let (e, sat, s) := s.putWide rq dst p (c.op 42 1) vals
      if e = 0 ∧ sat then s.opDone op St.saturated 0 else s.opEnd op e 0 dst.base
  | (e, _, _, s) => s.opAbortAt op e src.base

/-- Carry out a checked MOVE. -/
def State.doMove (s : State) (op slot : Nat) (rq : Requester) (j : Job) (c : CueRec) (src dst : Tensor) (qs : QRec) : State :=
  if dst.fmt = fmtA64 ∧ !dst.scaled then s.moveToA64 op rq c src dst qs else s.moveToOther op slot rq j c src dst qs

/-- Mover channels (Table 0.8). -/
def moverOk (m : Nat) : Bool := decide (m < 64)

/-- MOVE (R60): COUNT elements from SRC at SRC_OFF to DST at DST_OFF. -/
def execMove (op mover : Nat) (s : State) : Host.Outcome State Fault Refusal :=
  run (opOk op && moverOk mover) (fun s =>
    s.withOp op cMove fun o => s.withJob op o fun slot j =>
      let j := j.viewOf o
      let rq : Requester := ⟨3, mover, some slot⟩
      match j.tensor (o.cue.op 36 3), j.tensor (o.cue.op 39 3) with
      | some src, some dst =>
        let (form, qs, s) := if src.scaled then s.readRec rq src else (0, qrecOf [], s)
        if form ≠ 0 then s.opStop op form 36 src.record
        else match j.moveCheck o.cue src dst qs.fmt with
        | (0, _) => if o.cue.op 53 5 = 0 then s.opDone op 0 0 else s.doMove op slot rq j o.cue src dst qs
        | (e, d) => s.opReject op e d
      | none, _ => s.opReject op St.operands 36
      | _, none => s.opReject op St.operands 39) s

end Sys2Proof.Machine
end

