-- ==== Sys2Proof/Machine/Update.lean ====
section
/-!
DEFINITION. UPDATE cues (R202, R253 to R255): the update programs over a master, its state, its working copy and the running
digest (R467); and the working copies that recovery rebuilds (R149, R403).
-/
namespace Sys2Proof.Machine

open Sys2Proof

/-! ### The running digest (R467) -/

/-- The modulus p. -/
def voteP : Nat := 2 ^ 127 - 1

/-- The job's key r. -/
def voteKey (seed : List Nat) : Nat := leSum (kmac256 seed (ascii "V") 128 (ascii "EDKUKU VOTE")) % (voteP - 2) + 2

/-- h of one tensor from its layout index and its 40-bit codes in ascending element order. -/
def voteTensor (r t : Nat) (codes : List Nat) : Nat := codes.foldl (fun h m => (h * r + m) % voteP) (t + 2 ^ 48)

/-! ### One UPDATE cue -/

/-- The tensors of an UPDATE cue. -/
structure UpdRefs where
  master : Tensor
  grad : Tensor
  m : Tensor
  v : Tensor
  work : Option Tensor

/-- The tensors an UPDATE cue names: them, or the status and offset that rejects it (Table 7.2). -/
def Job.updRefs (j : Job) (c : CueRec) : Except (Nat × Nat) UpdRefs :=
  let w := c.op 48 3
  match j.tensor (c.op 39 3), j.tensor (c.op 42 3), j.tensor (c.op 45 3), j.tensor (c.op 45 3 + 1) with
  | none, _, _, _ => .error (St.operands, 39)
  | _, none, _, _ => .error (St.operands, 42)
  | _, _, none, _ => .error (St.operands, 45)
  | _, _, _, none => .error (St.operands, 45)
  | some a, some g, some m, some v =>
    let n := a.elems
    if a.fmt ≠ fmtK40 then .error (St.format, 39)
    else if m.fmt ≠ fmtF32 ∨ v.fmt ≠ fmtF32 then .error (St.format, 45)
    else if g.elems ≠ n then .error (St.operands, 42)
    else if m.elems ≠ n ∨ v.elems ≠ n then .error (St.operands, 45)
    else if w = 0 then .ok { master := a, grad := g, m, v, work := none }
    else match j.tensor w with
    | some t => if t.elems = n then .ok { master := a, grad := g, m, v, work := some t } else .error (St.operands, 48)
    | none => .error (St.operands, 48)

/-- Several whole tensors as values: status, the values of each, state. -/
def State.readAll (s : State) (rq : Requester) : List Tensor → Nat × List (List Val) × Nat × State
  | [] => (0, [], 0, s)
  | t :: ts =>
    match s.readNoted rq t 0 t.elems with
    | (0, vs, _, s) =>
      (match s.readAll rq ts with
       | (0, l, a, s) => (0, vs :: l, a, s)
       | e => e)
    | (e, _, _, s) => (e, [], t.base, s)

/-- The F32 that the HI plane of a K40 value holds (R36). -/
def hiVal (v : Val) : Val := f32Val ((fK40.encodeRNE v).1 / 256)

/-- The 40-bit code that an update stores for a master: its LO plane is zero in Cyley replay (R202). -/
def masterCode (kind : Nat) (w : Val) : Nat := if kind = 3 then f32Code w * 256 else (fK40.encodeRNE w).1

/-- One element under the descriptor's program (R202, R253, R255); the gradient's conversion to F32 is guarded like every result (R254). -/
def updElem (d : UpdDesc) (k : UpdConst) (w m v g : Val) : UpdOut :=
  let x := guardF32 (!g.nonFinite) g
  let o := match d.kind with
    | 1 => adamw d k w m v x.v
    | 2 => sgd d k w m v x.v
    | _ => cyleyAdamw d k (hiVal w) m v x.v
  { o with sat := o.sat + x.sat }

/-- Every element of a tensor. -/
def updElems (d : UpdDesc) (k : UpdConst) : List Val → List Val → List Val → List Val → List UpdOut
  | w :: ws, m :: ms, v :: vs, g :: gs => updElem d k w m v g :: updElems d k ws ms vs gs
  | _, _, _, _ => []

/-- Quantise a working copy from a master's values (R158), or convert it to a plain format: status and state. -/
def State.writeWork (s : State) (rq : Requester) (slot : Nat) (j : Job) (t : Tensor) (step scope : Nat) (vals : List Val) : Nat × State :=
  if t.scaled then
    let w : QuantJob :=
      { view := j, mode := .rne, step, pre := j.preOf t.idx none, scope, top := topOf vals, r10 := fun _ _ _ => 0, watch := true }
    s.writeScaled rq slot t w (rowSpans t.redLen 0 vals)
  else
    let (e, _, s) := s.putWide rq t 0 0 vals
    (e, s)

/-- Silence evidence of a gradient that the update pass reads in A64 or I32 (R197). -/
def State.noteGrad (s : State) (slot : Nat) (t : Tensor) (vals : List Val) : State :=
  if t.isGradient && !t.scaled then
    s.modJob slot fun (j : Job) =>
      let zero := vals.all fun v => v.rat? == some 0
      let now := if SMap.get 2 j.blocksSeen t.idx = 1 ∨ !zero then 1 else 0
      { j with blocksSeen := SMap.put j.blocksSeen t.idx now }
  else s

/-- What an update counts and records besides its tensors (R254, R467). -/
def State.noteUpdate (s : State) (slot unit kind : Nat) (seed : List Nat) (t : Tensor) (outs : List UpdOut) : State :=
  let s := s.setJf slot Reg.jobUpdSat (satAdd 64 (s.jf slot Reg.jobUpdSat) ((outs.map (·.sat)).foldl (· + ·) 0))
  let bad := (outs.map fun o => (if kind = 2 then [o.w, o.m] else [o.w, o.m, o.v]).countP Val.nonFinite).foldl (· + ·) 0
  let s := if 0 < bad then s.event Ev.updateNonfinite (UId.updateUnit unit) [t.idx, bad] else s
  if t.isMaster then
    let h := voteTensor (voteKey seed) t.idx (outs.map fun o => masterCode kind o.w)
    { s with fov := { s.fov with d := (s.fov.d + h) % voteP } }
  else s

/-- Carry out a checked UPDATE. -/
def State.doUpdate (s : State) (op unit slot : Nat) (j : Job) (c : CueRec) (d : UpdDesc) (r : UpdRefs) : State :=
  let rq : Requester := ⟨2, unit, some slot⟩
  match s.readAll rq [r.master, r.m, r.v, r.grad] with
  | (0, [ws, ms, vs, gs], _, s) =>
    let k := updConst d (gsqrt (f32Val j.normS)) (s.jf slot Reg.jobStep + 1)
    let outs := updElems d k ws ms vs gs
    let writes := r.master.wideWrites 0 (outs.map fun o => masterCode d.kind o.w)
      ++ r.m.wideWrites 0 (outs.map fun o => f32Code o.m)
      ++ if d.kind = 2 then [] else r.v.wideWrites 0 (outs.map fun o => f32Code o.v)
    (match s.devWrites rq writes with
     | (0, s) =>
       let s := (s.noteGrad slot r.grad gs).noteUpdate slot unit d.kind j.seed r.master outs
       (match r.work with
        | some t =>
          let (e, s) := s.writeWork rq slot j t c.step c.scope (outs.map (·.w))
          s.opEnd op e 0 t.base
        | none => s.opDone op 0 0)
     | (e, s) => s.opAbortAt op e r.master.base)
  | (e, _, a, s) => s.opAbortAt op e a

/-- Update units (Table 0.8). -/
def unitOk16 (u : Nat) : Bool := decide (u < 16)

/-- An UPDATE whose descriptor names one program. -/
def State.withUpdate (s : State) (op unit kind : Nat) : State :=
  s.withOp op cUpdate fun o => s.withJob op o fun slot j =>
    match j.upd[o.cue.op 36 3]? with
    | none => s.opReject op St.operands 36
    | some bs =>
      let d := updOf bs
      if d.kind ≠ kind ∨ s.unitRaw (UId.updateUnit unit) ≠ US.active then s
      else match j.updRefs o.cue with
      | .ok r => s.doUpdate op unit slot (j.viewOf o) o.cue d r
      | .error (e, off) => s.opReject op e off

/-- UPDATE, ADAMW (R255). -/
def execUpdateAdamw (op unit : Nat) (s : State) : Host.Outcome State Fault Refusal :=
  run (opOk op && unitOk16 unit) (fun s => s.withUpdate op unit 1) s

/-- UPDATE, SGD with momentum (R255). -/
def execUpdateSgd (op unit : Nat) (s : State) : Host.Outcome State Fault Refusal :=
  run (opOk op && unitOk16 unit) (fun s => s.withUpdate op unit 2) s

/-- UPDATE, CYLEY_ADAMW (R202); only replay jobs load its descriptors (R253). -/
def execUpdateCyleyAdamw (op unit : Nat) (s : State) : Host.Outcome State Fault Refusal :=
  run (opOk op && unitOk16 unit) (fun s => s.withUpdate op unit 3) s

/-! ### Recovery (R149, R403) -/

/-- Rebuild every working copy of a job from its live masters, under the choices that stand for the attempt, as the update of
the step before wrote them (log entry 81). -/
def State.rebuildWork (s : State) (slot : Nat) : State :=
  match s.job slot with
  | none => s
  | some j =>
    let todo := (List.range j.layout.length).filterMap fun i =>
      match j.tensor i with
      | some t => if t.isWeight && !t.isEval then (j.tensor t.aux).map fun m => (t, m) else none
      | none => none
    let step := s.jf slot Reg.jobStep - 1
    let rq := Requester.manager (some slot)
    let s := s.modJob slot fun (j : Job) => j.newScope scopeRebuild
    let s := todo.foldl (fun (s : State) p =>
      match s.readVals rq p.2 0 p.2.elems with
      | (0, vals, _, s) => (s.writeWork rq slot j p.1 step scopeRebuild (if j.replay then vals.map hiVal else vals)).2
      | (_, _, _, s) => s) s
    s.modJob slot fun (j : Job) => { j with rebuildDue := false }

end Sys2Proof.Machine
end

