-- ==== Sys2Proof/Machine/Steps.lean ====
section
/-!
DEFINITION. The step phase machine (R249 to R252): attempts open with their exponents, sample plan and cleared tensors; micro-batch
boundaries and storms (R188 to R190); the curtain with its reductions and the rehearsal comparison (R251, R461, R576); COMMIT
with everything that takes effect there (R252, R408, R409, R421, R467, R469); the silence watch (R197, R198).
-/
namespace Sys2Proof.Machine

open Sys2Proof

/-- Job slots (R245). -/
def slotOk (slot : Nat) : Bool := decide (slot < 4)

/-- The job of a slot whose attempt is open. -/
def State.withOpen (s : State) (slot : Nat) (f : Job → State) : State :=
  match s.job slot with
  | some j => if j.isOpen then f j else s
  | none => s

/-! ### Samples (R248) -/

/-- The next n samples of a source, in the order of its shards. -/
def takeSamples (source : Nat) : List Shard → Nat → List (Shard × Nat)
  | [], _ => []
  | sh :: rest, n =>
    let m := if sh.source = source then min n (sh.samples - sh.used) else 0
    ((List.range m).map fun i => (sh, sh.used + i)) ++ takeSamples source rest (n - m)

/-- The samples that the next attempt takes from a source; fewer than it needs if not enough have been lent. -/
def Job.nextSamples (j : Job) (d : DataDesc) : List (Shard × Nat) := takeSamples d.source j.shards (j.perAttempt d)

/-- Every source has lent what an attempt takes. -/
def Job.samplesLent (j : Job) : Bool := (j.data.map dataOf).all fun d => (j.nextSamples d).length == j.perAttempt d

/-- Place an attempt's samples in the tensors of their sources, one after the other (log entry 82). -/
def State.placeSamples (s : State) (slot : Nat) (j : Job) : State :=
  let rq := Requester.manager (some slot)
  (j.data.map dataOf).foldl (fun (s : State) d =>
    match j.tensor d.dst with
    | none => s
    | some t =>
      (j.nextSamples d).zipIdx.foldl (fun (s : State) x =>
        if t.bytes < (x.2 + 1) * d.sampleBytes then s
        else match s.devRead rq (x.1.1.buf + x.1.2 * d.sampleBytes) d.sampleBytes with
        | (0, bs, s) => (s.devWrite rq (t.base + x.2 * d.sampleBytes) bs).2
        | (_, _, s) => s) s) s

/-! ### The sample plan (R169 to R171) -/

/-- What the plan has reserved so far; `room` is where the free part of the sample buffer begins. -/
structure PlanRun where
  room : Nat
  left : Nat
  plan : List Planned
  sampled : Nat
  dropped : Nat
  damageDropped : Nat
  drawn : Nat

/-- One tile of the plan (R169, R170). A tile whose operands are both at W16 has no damage check (R181), nor has one of the matinee
slice (R171). -/
def Job.planTile (j : Job) (log2 step k : Nat) (c : CueRec) (p : Prod) (r : PlanRun) (i : Nat) : PlanRun :=
  let blk := drawBits (keyA j.seed (keyEpoch step)) (addrBlock streamSample c.index (c.mb * 2 ^ 32 + i) (step % 2 ^ 24) 0)
  let r := { r with drawn := r.drawn + 1 }
  if blk % 2 ^ log2 ≠ 0 then r
  else
    let (_, rows, _, cols) := p.tileBox i
    let pairs := 2 * j.pairBytes p rows cols false
    let r := { r with sampled := r.sampled + 1 }
    if r.left < pairs then { r with dropped := r.dropped + 1 }
    else
      let more := j.rungUpBytes p i + j.pairBytes p rows cols true
      let want := !j.replay && decide (k < 2 ^ 20) && !((j.storedAs p.a.idx).fmt == .w16 && (j.storedAs p.b.idx).fmt == .w16)
      let damage := want && decide (pairs + more ≤ r.left)
      let used := pairs + if damage then more else 0
      { r with
        room := r.room + used, left := r.left - used, damageDropped := r.damageDropped + b2n (want && !damage)
        plan := r.plan ++ [{ prod := k, mb := c.mb, tile := i, damage, room := r.room }] }

/-- The plan over the product cues among a list of cues, each with its entry number (`Job.planRaw`). -/
def Job.planCues (j : Job) (log2 step : Nat) (cues : List (List Byte × Nat)) (r : PlanRun) : PlanRun :=
  cues.foldl (fun (r : PlanRun) x =>
    let c := CueRec.ofRaw x.1 step
    match (if c.opcode = cProduct then j.planShape c else none) with
    | some p => (List.range p.tiles).foldl (j.planTile log2 step x.2 c p) r
    | none => r) r

/-- The whole plan of a step: the program's products by ascending index, then those of the MATINEE section (R168, R171; DESIGN CHOICE,
log entry 74). -/
def Job.planRun (j : Job) (log2 step : Nat) : PlanRun :=
  let start : PlanRun :=
    { room := j.sampleBuf, left := j.sampleMib * 2 ^ 20, plan := [], sampled := 0, dropped := 0, damageDropped := 0, drawn := 0 }
  j.planCues log2 step (j.matinee.zipIdx (2 ^ 20)) (j.planCues log2 step j.program.zipIdx start)

/-! ### ATTEMPT_OPEN -/

/-- RECIPE, PARAM and MATINEE changes that wait take effect (R247, R249, R253, R262). -/
def Job.applyPending (j : Job) : Job :=
  let recipe := j.pendRecipe.foldl (fun (l : List (List Byte)) p => l.set p.1 p.2) j.recipe
  let upd := j.pendParam.foldl (fun (l : List (List Byte)) p =>
    l.set p.1 (let bs := l.getD p.1 []; bs.take (4 * p.2.1) ++ leBytes 4 p.2.2 ++ bs.drop (4 * p.2.1 + 4))) j.upd
  { j with recipe, upd, matineeSize := j.pendMatinee.getD j.matineeSize, pendRecipe := [], pendParam := [], pendMatinee := none }

/-- The blocks of the items that these changes write (R417). -/
def State.markPending (s : State) (slot : Nat) (j : Job) : State :=
  if s.ckp.job ≠ some slot then s
  else
    let s := j.pendRecipe.foldl (fun (s : State) p => s.markItem 4 (8 * p.1) 8) s
    j.pendParam.foldl (fun (s : State) p => s.markItem 5 (32 * p.1 + 4 * p.2.1) 4) s

/-- Et of the tiles of a ZERO tensor in A64 (R249): by history, else the largest bound of the program's products that write it
(log entry 83). -/
def State.zeroEt (s : State) (j : Job) (t : Tensor) : Int :=
  match (j.exps[t.idx]?).bind (·.hist) with
  | some m => hEt m (j.recipeAt t.idx).margin
  | none =>
    let prods := j.program.filterMap fun raw =>
      if fieldLE raw 2 1 = cProduct then
        j.prodShape (CueRec.ofRaw raw 0)
      else none
    let recAt := fun (x : Tensor) => qrecOf (s.bytes (s.storeAddr x.record) 32)
    let ets := (prods.filter fun p => p.out.idx == t.idx).map fun p =>
      let qa := recAt p.a
      (j.productEt t.idx (p.a.blocksPer qa.stored.rotN) qa (recAt p.b)).1
    ets.foldl max (ets.headD 0)

/-- A tensor marked ZERO is written as zero (R249). -/
def State.zeroTensor (s : State) (slot : Nat) (j : Job) (t : Tensor) : State :=
  let rq := Requester.manager (some slot)
  if t.fmt = fmtA64 then
    let et := s.zeroEt j t
    (s.devWrites rq (t.tiles.map fun (a, h, w) =>
      let hd : TileHdr := { bound := false, nv := false, empty := false, ovf := false, retries := 0, et, rows := h, cols := w
                            lost := 0, step := s.jf slot Reg.jobStep }
      (a, hd.bytes ++ List.replicate (8 * h * w) 0))).2
  else (s.devWrite rq t.base (List.replicate t.bytes 0)).2

/-- The per-step fields of a watch record start again (R189, R193, R196). -/
def State.clearWatch (s : State) (j : Job) (i : Nat) : State :=
  let a := j.watchAt i
  let s := s.ownWrite (a + 8) (List.replicate 24 0)
  s.ownWrite (a + 2) (leBytes 1 (j.recipeAt i).fmt ++ leBytes 1 (setBits 4 3 0 (s.num (a + 3) 1)))

/-- The stream keys of the step's epoch (R209): those of its own h if KEY_EPOCH differs, and K_A of the previous epoch at the
first step of an epoch. The next epoch's key is derived, and NEXT_KEY set, at the last step of an epoch (DESIGN CHOICE for when, log
entry 101). -/
def State.loadKeys (s : State) (step : Nat) : State :=
  let h := keyEpoch step
  let s := (s.setF Reg.keyEpochReg h).setF Reg.rngNextKey (b2n (step % 2 ^ 24 == 2 ^ 24 - 1))
  if step % 2 ^ 24 = 0 ∧ 0 < h then { s with rng := { s.rng with rotEpoch := some (h - 1) } } else s

/-- Cues fetched for this attempt before it opened are cues of it now (R244, R259). -/
def State.joinAhead (s : State) (slot epoch : Nat) : State :=
  let join := fun (c : CueRec) => if c.job == some slot && c.ahead then { c with ahead := false, epoch := some epoch } else c
  { s with waiting := s.waiting.map join, ops := s.ops.map fun e => (e.1, { e.2 with cue := join e.2.cue }) }

/-- May the next attempt of a slot open (R248, R249, R250, R267, R410, R411, R464)? ATTEMPT 255 is never opened, so that no attempt has
the matinee epoch (R249; DESIGN CHOICE, log entry 85). -/
def State.mayOpen (s : State) (slot : Nat) (j : Job) : Bool :=
  let ckp := s.ckp.job != some slot || (!s.ckp.stopping && !s.ckp.barrier && !s.ckp.starting && !s.fov.recovery && s.fov.filled.isEmpty)
  let tests := (List.range 144).any fun e => s.engSt e == US.test && bits 31 16 (s.unitEntry (UId.engine e)) == Ev.shield
  s.mgt.fences.isEmpty && s.jf slot Reg.jobState == 3 && !j.isOpen && !j.stopNext && decide (j.failed < j.maxAttempts) && ckp && !tests
    && j.samplesLent && decide (s.jf slot Reg.jobAttempt < 255)

/-- ATTEMPT_OPEN (R249): the epoch is assigned; pending changes, rebuilt working copies after a rollback (R149), exponents, sample
plan, watch fields, ZERO tensors and samples follow; traffic held for the epoch is released (R358). A repeated attempt may record
ADD_SATURATED of a tile once more: its list begins empty in each attempt (R159 speaks of each step; DESIGN CHOICE, log entry 121). -/
def State.openAttempt (s : State) (slot : Nat) (j : Job) : State :=
  let step := s.jf slot Reg.jobStep
  let epoch := step % 2 ^ 24 * 256 + s.jf slot Reg.jobAttempt
  let s := (s.loadKeys step).markPending slot j
  let j := j.applyPending
  let j := { j with exps := j.expsAhead.getD (s.chooseExps j), expsAhead := none }
  let j : Job :=
    { j with
      isOpen := true, lapsed := false, epoch, pc := 0, issued := [], completed := [], fwdIssued := j.aheadFwd, aheadFwd := 0, boundaries := 0
      rungs := [], trig := [], flagged := [], exhausted := [], stormW := 0, stormF := 0, policy := s.rd 0x80008
      recWritten := j.recWritten.filterMap fun r => if r.1 = scopeAhead then some (epoch, r.2) else if r.1 < scopeAhead then none else some r
      granted := j.granted.filterMap fun g => if g.1 = scopeAhead then some (epoch, g.2) else if g.1 < scopeAhead then none else some g
      thresh := s.rd 0x80010, stormMin := s.fld Reg.numStormMin, rungUp := [], rungUpRec := [], worked := [], amax := j.amaxAhead
      amaxAhead := [], blocksSeen := []
      nfLoss := j.nfLossAhead, nfLossAhead := 0, gradSums := [], wideUp := [], sat := 0, normS := 0, curtainPassed := false, losses := [], addSat := [] }
  let r := j.planRun (bits 4 0 j.policy) step
  let s := s.setJob slot { j with plan := r.plan }
  let s := ((s.addF Reg.samplesPlanned r.sampled).addF Reg.samplesDropped r.dropped).addF Reg.damageDropped r.damageDropped
  let s := s.addF Reg.addrBlocks r.drawn
  let s := ((s.setJf slot Reg.jobPhase 1).setF Reg.numRaised 0).setF Reg.numStorm 0
  let s := if s.fov.rehearsal then s.setF Reg.fovState 5 else s
  let s : State := { s with fov := { s.fov with d := 0 } }
  let s := (List.range j.layout.length).foldl (fun (s : State) i => s.clearWatch j i) s
  let s := if j.rebuildDue then s.rebuildWork slot else s
  let zero := (List.range j.layout.length).filterMap fun i => (j.tensor i).filter Tensor.isZero
  let s := zero.foldl (fun (s : State) t => s.zeroTensor slot j t) s
  let s := s.placeSamples slot j
  let s := (s.joinAhead slot epoch).setJf slot Reg.jobAhead 0
  let s := (s.releaseApart epoch).restartStripes
  s.phaseStep slot

/-- ATTEMPT_OPEN (R249). -/
def execAttemptOpen (slot : Nat) (s : State) : Host.Outcome State Fault Refusal :=
  run (slotOk slot) (fun s =>
    match s.job slot with
    | some j => if s.mayOpen slot j then s.openAttempt slot j else s
    | none => s) s

/-- ROTATION_KEY_LOAD (R209): K_A of a key epoch enters the rotation key register. -/
def execRotationKeyLoad (epoch : Nat) (s : State) : Host.Outcome State Fault Refusal :=
  run (decide (epoch < 2 ^ 24)) (fun s =>
    if s.rng.job.isSome then { s with rng := { s.rng with rotEpoch := some epoch } } else s) s

/-- MAX_ATTEMPTS_REACHED (R249). -/
def execMaxAttemptsReached (slot : Nat) (s : State) : Host.Outcome State Fault Refusal :=
  run (slotOk slot) (fun s =>
    match s.job slot with
    | some j =>
      if s.jf slot Reg.jobState = 3 ∧ !j.isOpen ∧ j.maxAttempts ≤ j.failed then
        s.stopJob slot (s.jf slot Reg.jobAbandonCause) UId.stageManager
      else s
    | none => s) s

/-! ### Micro-batch boundaries (R187 to R190) -/

/-- Every forward and backward cue of micro-batch m has completed: those of the program, and the host's that have issued. -/
def State.batchDone (s : State) (slot : Nat) (j : Job) (m : Nat) : Bool :=
  let fb := fun ph => ph == phFwd || ph == phBwd
  (j.program.zipIdx.all fun p => !(fb (rawPhase p.1) && fieldLE p.1 12 1 == m) || j.completed.contains p.2)
    && !s.ops.any fun e => e.2.cue.ofAttempt slot && fb e.2.cue.phase && e.2.cue.mb == m

/-- Raise one tensor to a rung, shown in its watch record (R182, R187). -/
def State.raise (s : State) (slot i rung : Nat) : State :=
  match s.job slot with
  | none => s
  | some j =>
    let f := (eFmtOf (j.recipeAt i).fmt).getD .w16
    let new := min rung (lastRung f)
    if new ≤ j.rung i ∨ ((j.tensor i).map (·.fb)).getD 0 = 0 then s
    else
      let first := j.rung i == 0
      let s := s.setJob slot { j with rungs := SMap.put j.rungs i new }
      let s := if first then s.addF Reg.numRaised 1 else s
      let s := s.setWatchFlag j i 3 true
      s.ownNum (j.watchAt i + 2) 1 (rungFmt f (((j.tensor i).map (·.isGradient)).getD false) new).code

/-- The storm rule at a boundary (R190). -/
def State.stormRule (s : State) (slot : Nat) : State :=
  match s.job slot with
  | none => s
  | some j =>
    if j.replay ∨ j.large then s
    else
      let begins := s.fld Reg.numStorm == 0 && decide (j.stormMin ≤ j.stormW) && decide (j.stormW < 4 * j.stormF)
      let s := if begins then
          ((s.setF Reg.numStorm 1).inc Reg.storms).event Ev.storm UId.stageManager [j.stormW, j.stormF]
        else s
      if s.fld Reg.numStorm = 1 then
        (List.range j.layout.length).foldl (fun (s : State) i =>
          if ((j.tensor i).map Tensor.scaled).getD false then s.raise slot i 1 else s) s
      else s

/-- MICRO_BATCH_BOUNDARY (R188): raises that are due take effect, and the storm rule is evaluated. -/
def execMicroBatchBoundary (slot mb : Nat) (s : State) : Host.Outcome State Fault Refusal :=
  run (slotOk slot && decide (mb < 256)) (fun s =>
    s.withOpen slot fun j =>
      if mb ≠ j.boundaries ∨ j.mbLast < mb ∨ !s.batchDone slot j mb then s
      else
        let s := s.setJob slot { j with boundaries := mb + 1, trig := [] }
        let s := j.trig.foldl (fun (s : State) i => s.raise slot i (j.rung i + 1)) s
        s.stormRule slot) s

/-! ### The curtain (R251, R407, R461, R576) -/

/-- The local S (R576), from the partial sums formed so far; one that is missing is formed now: status, value, the address that failed,
state. -/
def State.localS (s : State) (rq : Requester) (j : Job) : List (Nat × Nat) → Val → Nat × Val × Nat × State
  | [], acc => (0, acc, 0, s)
  | (i, sc) :: rest, acc =>
    match SMap.find j.gradSums i with
    | some c => s.localS rq j rest (fadd acc (f32Val c))
    | none =>
      match s.sumOf rq j i sc with
      | (0, v, _, s) => s.localS rq j rest (fadd acc v)
      | (e, _, a, s) => (e, acc, a, s)

/-- A member's S as it enters the exact all-reduce (R392): I32 on the common grid by RNE, 0 if it is not finite. -/
def curtainInt (ec : Int) (v : Val) : Int := if v.nonFinite then 0 else (toI32 ec v).1

/-- The exact all-reduce of S over a line on the common exponent (R392), and whether it saturates. -/
def sumS (ec : Int) (line : List Val) : Int × Bool :=
  line.foldl (fun (acc : Int × Bool) v =>
    let r := joinVal 1 acc.1 (curtainInt ec v)
    (r.1, acc.2 || r.2 || (!v.nonFinite && (toI32 ec v).2))) (0, false)

/-- S reduced over a line (R392): the common exponent by bound, each member's S onto its grid, the exact sum as F32; a sum that
saturates is not finite. -/
def reduceS (line : List Val) : Val :=
  let ec := boundEc [maxExp line] line.length
  let sum := sumS ec line
  if sum.2 then .nan else f32Round (Val.ofRat ((sum.1 : Rat) * pow2 ec))

/-- What this member sends in the three collectives of the curtain and in the protection vote (R392, R407): every member's S of the line,
its counts NF_LOSS, NF_NORM and SAT, and its PENDING and FAILED. -/
def State.curtainSends (s : State) (line : List (Nat × Val)) (counts votes : List (Nat × List Int)) : State :=
  let ec := boundEc [maxExp (line.map (·.2))] line.length
  let s := if (sumS ec (line.map (·.2))).2 then s.inc Reg.collSat else s
  let s := s.sendSteps 0xFFFFF0 [0] max (line.map fun e => (e.1, [maxExp [e.2]]))
  let s := s.sendSteps 0xFFFFF1 [0] (fun a b => (satSum 32 a b).1) (line.map fun e => (e.1, [curtainInt ec e.2]))
  (s.sendSteps 0xFFFFF2 [0, 1, 2] (· + ·) counts).sendSteps 0xFFFFF4 [0, 1, 2] (· + ·) votes

/-- |a − b| within the tolerance of R461, or the same pattern. -/
def withinTol (tol a b : Nat) : Bool :=
  a == b || match (f32Val a).rat?, (f32Val b).rat? with
    | some x, some y => decide (rabs (x - y) ≤ pow2 (-(tol : Int)) * max (rabs x) (rabs y))
    | _, _ => false

/-- The rehearsal comparison (R461): whether it fails, and what it counts and records. It is exact only by a book of P that may be used
(R431). -/
def State.rehearse (s : State) (slot : Nat) (j : Job) (normS : Nat) : Bool × State :=
  let p := s.jf slot Reg.jobStep
  match s.witnessOf p with
  | none => (false, (s.inc Reg.unwitnessed).event Ev.unwitnessed UId.stageManager [p % 2 ^ 32])
  | some w =>
    let loss := j.lossSum
    let (book, s) := s.readBook s.pSlot
    let exact := !bitAt 0 (fieldLE w 2 1) && book.any fun b => !bitAt 4 (fieldLE b 3 1)
    let tol := bits 4 0 s.ckp.fovCtrl
    let same := fun a b => if exact then a == b else withinTol tol a b
    if same loss (fieldLE w 4 4) && same normS (fieldLE w 8 4) then (false, s)
    else (true, (s.inc Reg.rehearsalFails).event Ev.rehearsalFailed UId.stageManager [loss, fieldLE w 4 4])

/-- The cause for which a curtain does not pass, 0 if it passes (R251, Table 7.10; log entry 84 for the order). -/
def curtainCause (limit nfLoss nfNorm sat : Nat) (total : Val) : Nat :=
  if 0 < nfLoss then Cause.nfLoss
  else if 0 < nfNorm then Cause.nfNorm
  else if 0 < sat then Cause.saturation
  else if total.nonFinite then Cause.nfNorm
  else
    let sq := fmul (f32Val limit) (f32Val limit)
    if f32Val limit ≠ .fin false 0 ∧ (sq = .nan ∨ total.gt sq) then Cause.normLimit else 0

/-- The other members of the cast, each once. -/
def State.wholeCast (s : State) (cs : List Nat) : Bool :=
  cs.length + 1 == max 1 s.castN && cs.eraseDups.length == cs.length && cs.all fun c => s.isMember c && c != s.coord

/-- The curtain with what the other members contribute (R251, R407, R462). -/
def State.curtain (s : State) (slot : Nat) (j : Job) (peers : List CurtainPeer) : State :=
  match s.localS (.manager (some slot)) j j.gradScales (.fin false 0) with
  | (0, own, _, s) =>
    let line := peers.filter fun p => comp p.coord 1 == comp s.coord 1 && comp p.coord 2 == comp s.coord 2
    let lineS := (s.coord, own) :: line.map fun p => (p.coord, f32Val p.s)
    let total := reduceS (lineS.map (·.2))
    let sum := fun (f : CurtainPeer → Nat) => (peers.map f).foldl (· + ·) 0
    let nfNorm := b2n own.nonFinite + sum fun p => b2n (f32Val p.s).nonFinite
    let ints := fun (l : List Nat) => l.map fun n => (n : Int)
    let (pend, fail) := s.drainVote
    let s := s.curtainSends lineS
      ((s.coord, ints [j.nfLoss, b2n own.nonFinite, j.sat])
        :: peers.map fun p => (p.coord, ints [p.nfLoss, b2n (f32Val p.s).nonFinite, p.sat]))
      ((s.coord, ints [pend, fail]) :: peers.map fun p => (p.coord, ints [p.pending, p.failed]))
    let cause := curtainCause j.normLimit (j.nfLoss + sum (·.nfLoss)) nfNorm (j.sat + sum (·.sat)) total
    if cause ≠ 0 then s.abandon slot cause
    else
      let normS := f32Code total
      let (bad, s) := if s.fov.rehearsal then s.rehearse slot j normS else (false, s)
      let (p, f) := s.drainVote
      let s := if j.large then s.watchClose j else s
      let vote := (p + sum (·.pending), f + b2n bad + sum (·.failed))
      let s : State := { s with ckp := { s.ckp with vote := if s.ckp.job = some slot then some vote else s.ckp.vote } }
      ((s.modJob slot fun (j : Job) => { j with normS, curtainPassed := true }).setJf slot Reg.jobPhase 5).phaseStep slot
  | (e, _, a, s) => s.opFailed slot e (s.placeOf (s.failAt e a)).1 (s.placeOf (s.failAt e a)).2

/-- CURTAIN (R251, R469): the curtain reduction completes; a replica vote that has begun is acted on first. -/
def execCurtain (slot : Nat) (peers : List CurtainPeer) (s : State) : Host.Outcome State Fault Refusal :=
  run (slotOk slot) (fun s =>
    s.withOpen slot fun j =>
      if s.jf slot Reg.jobPhase ≠ 4 ∨ s.fov.voting.isSome ∨ !s.wholeCast (peers.map (·.coord)) then s
      else s.curtain slot j peers) s

/-! ### COMMIT (R252) -/

/-- The history of a tensor gets the step's entry (R94): in memory, or the job's own record where its package brings none (R99). -/
def State.pushHistory (s : State) (slot : Nat) (j : Job) (h a : Nat) : State :=
  let new := ((histOf (s.histBytes j h)).push a).bytes
  if h < j.hist.length then s.ownWrite (j.histBase + 40 * h) new
  else (s.modJob slot fun (j : Job) => { j with ownHist := SMap.put j.ownHist h new }).markItem 2 (40 * j.ownHists.idxOf h) 40

/-- Every history gets the step's entry (R94). -/
def State.pushHistories (s : State) (slot : Nat) (j : Job) : State :=
  (List.range j.layout.length).foldl (fun (s : State) i =>
    match j.tensor i, SMap.find j.amax i with
    | some t, some a => if t.history = 0xFFFFFFFF then s else s.pushHistory slot j t.history a
    | _, _ => s) s

/-- The cumulative fields of a watch record at an update pass (R196, R197): STEP, the totals, B-mode steps, silent steps.
A tensor with WATCH_OFF is not watched, so its SILENT_STEPS stays (R198; DEDUCED, log 52). -/
def State.closeWatch (s : State) (j : Job) (i step : Nat) : State :=
  let a := j.watchAt i
  let s := s.ownNum (a + 40) 8 step
  let s := s.addWatch j i 48 8 (s.num (a + 30) 2)
  let s := s.addWatch j i 56 4 (s.num (a + 28) 2)
  let s := s.addWatch j i 36 4 (b2n (((j.exps[i]?).map (·.bmode)).getD false))
  let watched := ((j.tensor i).map Tensor.isGradient).getD false && !bitAt 2 (s.num (a + 3) 1)
  match (if watched then SMap.find j.blocksSeen i else none) with
  | some 0 => s.addWatch j i 32 4 1
  | some _ => (s.ownNum (a + 32) 4 0).setWatchFlag j i 5 false
  | none => s

/-- What the outbound buffer holds for the attempt leaves, oldest first (R252); what cues run ahead have put there stays (R260,
R261). -/
def State.releaseOutbound (s : State) (slot : Nat) (j : Job) : State :=
  let (out, stay) := j.outbound.partition fun h => h.1 == j.epoch
  let s := out.foldl (fun (s : State) h => match h.2 with
    | .cpl q r => s.putRecord q r
    | .metric a bs => (s.devWrite (.manager (some slot)) a bs).2
    | .torus p msg =>
      s.sendPut p 2 (s.fld Reg.mirrorPartner) j.epoch (s.ckp.mirrorBase + 2 ^ 25 + 32 * (fieldLE msg 16 6 % 1024)) msg) s
  let s := s.modJob slot fun (j : Job) => { j with outbound := stay }
  s.setJf slot Reg.jobOutboundUsed 0

/-- The witness record of the committed attempt (R421): into the own ring, and into the outbound buffer for the partner. -/
def State.witness (s : State) (slot : Nat) (j : Job) (step : Nat) : State :=
  let w := witnessRecord (s.jf slot Reg.jobNonrepro) j.lossSum j.normS step
  let s : State := { s with ckp := { s.ckp with ring := SMap.put s.ckp.ring (step % 1024) w } }
  match (if s.ckp.mirrorOk then s.route (s.fld Reg.mirrorPartner) else none) with
  | some p => s.modJob slot fun (j : Job) => { j with outbound := j.outbound ++ [(j.epoch, .torus p w)] }
  | none => s

/-- Whether an interval is due at a commit, runs, is deferred or is forced (R409); `must` says that R408 requires one. -/
def State.decideInterval (s : State) (slot : Nat) (must : Bool) : State :=
  let due := must || decide (bits 15 0 s.ckp.ctrl ≤ s.jf slot Reg.jobStep - s.fld Reg.sealedStep)
  if !due then s
  else if s.fld Reg.ckpSSealed = 0 then (s.setJf slot Reg.jobPhase 7).beginInterval
  else
    let n := s.fld Reg.ckpDeferRun + 1
    let s := (s.setF Reg.ckpDeferRun n).inc Reg.deferrals
    { s with ckp := { s.ckp with mustRun := s.ckp.mustRun || must, barrier := s.ckp.barrier || decide (bits 31 24 s.ckp.ctrl ≤ n) } }

/-- The result of a vote that waits for this commit is applied. -/
def State.takeVote (s : State) (slot failed : Nat) : State :=
  match s.ckp.vote with
  | some v =>
    let s : State := { s with ckp := { s.ckp with vote := none } }
    s.applyVote slot v.1 failed
  | none => s

/-- Every VOTE_STEPS commits of a replica set its members compare their digests (R469). -/
def State.openVote (s : State) (t : Nat) : State :=
  if 2 ≤ s.replicas ∧ t % max 1 (bits 22 16 s.ckp.fovCtrl) = 0 then { s with fov := { s.fov with voting := some t } } else s

/-- What the protection, votes and rehearsals do at a commit (R408, R409, R420, R462, R469). A FAILED vote that takes effect here asks the
next commit for an interval. -/
def State.commitCkp (s : State) (slot : Nat) (failed : Nat) : State :=
  if s.ckp.job ≠ some slot then s
  else
    let must := s.ckp.mustRun
    let s : State := { s with ckp := { s.ckp with mustRun := false } }
    let s := s.takeVote slot failed
    (s.openVote (s.jf slot Reg.jobStep)).decideInterval slot must

/-- A rehearsal step has committed (R462). -/
def State.rehearsed (s : State) : State :=
  if s.fov.rehearsal then
    { (s.setF Reg.fovState 0).inc Reg.rehearsals with
      fov := { s.fov with rehearsal := false, recovery := false, barrierPassed := false, witness := [] } }
  else s

/-- COMMIT of an attempt whose phase has come (R252). -/
def State.commit (s : State) (slot : Nat) (j : Job) : State :=
  let step := s.jf slot Reg.jobStep
  let failed := ((s.ckp.vote.map (·.2)).getD 0)
  if s.fov.rehearsal ∧ 0 < failed then (s.abandon slot Cause.fault).exportFallback
  else
    let next := satAdd 48 step 1
    let epoch := next % 2 ^ 24 * 256
    let s := s.pushHistories slot j
    let s := (List.range j.layout.length).foldl (fun (s : State) i => s.closeWatch j i step) s
    let s := s.setV ((s.digestV * voteKey j.seed + s.fov.d) % voteP)
    let s := if s.ckp.job = some slot then s.witness slot j step else s
    let s := if j.large then s else s.watchClose j
    let s := (s.setJf slot Reg.jobStep next).setJf slot Reg.jobAttempt 0
    let s := s.releaseOutbound slot ((s.job slot).getD j)
    let s := s.modJob slot fun (j : Job) => { j.advance next with isOpen := false, failed := 0, allB := false, epoch, lastBad := none }
    let s := s.showCursor slot
    let s := s.putRecord j.stepQueue (cplRecord 2 0 0 0xFFFF 0 0xFFFFF j.epoch next)
    let s := (s.dropApart fun e => e == j.epoch || e == (j.epoch + 1) % 2 ^ 32).releaseApart epoch
    let s := (s.rehearsed.setJf slot Reg.jobPhase 0).setF Reg.numStorm 0
    let s := s.commitCkp slot failed
    let s := s.restartStripes.stepBoundary
    if j.stopNext ∧ !s.inStop then
      (s.setJf slot Reg.jobState 4).modJob slot fun (j : Job) => { j with stopNext := false }
    else s

/-- COMMIT (R252). -/
def execCommit (slot : Nat) (s : State) : Host.Outcome State Fault Refusal :=
  run (slotOk slot) (fun s =>
    s.withOpen slot fun j => if s.jf slot Reg.jobPhase = 6 then s.commit slot j else s) s

/-! ### The silence watch (R198) -/

/-- SILENCE_REACHED (R198): SILENT_STEPS of a tensor has reached the setting; one event for the run of silent steps. -/
def execSilenceReached (slot tensor : Nat) (s : State) : Host.Outcome State Fault Refusal :=
  run (slotOk slot) (fun s =>
    match s.job slot with
    | some j =>
      let a := j.watchAt tensor
      let flags := s.num (a + 3) 1
      let n := s.num (a + 32) 4
      if j.layout.length ≤ tensor ∨ !bitAt 0 flags ∨ bitAt 2 flags ∨ bitAt 5 flags ∨ n < s.fld Reg.numSilenceSteps then s
      else ((s.setWatchFlag j tensor 5 true).inc Reg.silenceEvents).event Ev.silence UId.stageManager [tensor, n]
    | none => s) s

end Sys2Proof.Machine
end

