-- ==== Sys2Proof/Machine/Failover.lean ====
section
/-!
DEFINITION. Failover and votes (13_failover_and_voting.md): the understudy's book, the fill barrier, the fill and its seal, the
rehearsal barrier, and the replica vote.
-/
namespace Sys2Proof.Machine

open Sys2Proof

/-! ### The understudy's book (R453) -/

/-- Requests of one use that still wait for their answers, on any port. -/
def State.awaiting (s : State) (use : Nat) : Bool :=
  (List.range 6).any fun p => (s.port p).outstanding.any fun o => o.use == use

/-- Ask a member for n bytes of its memory for a book: `what` 0 the prompt book, 1 the witness record, 2 the donor's book. -/
def State.askBook (s : State) (c addr n what : Nat) : State :=
  match s.openRoute c with
  | some p => s.sendRequest p 2 { s.txn opGet c with bytes := n, arg := addr } [] 2 what
  | none => { s with fov := { s.fov with fillFailed := true } }

/-- The mirror partner that the CKP_PROT value now set gives this place (R414). -/
def State.partnerNow (s : State) : Nat :=
  let w := s.rd Reg.ckpProt
  s.shiftMember s.coord (mirrorAxis w) (mirrorOff w : Nat)

/-- UNDERSTUDY_BOOK_READ (R453): with the cast FORMED, an understudy that assumed its place begins to read P's book from its
mirror partner's region. -/
def execUnderstudyBookRead (s : State) : Host.Outcome State Fault Refusal :=
  run true (fun s =>
    if s.fld Reg.fovState ≠ 3 ∨ s.fld Reg.castState ≠ 2 ∨ s.awaiting 2 ∨ s.fov.bookOk then s
    else
      let s : State := { s with fov := { s.fov with book := [], witness := [], fillFailed := false } }
      if s.mirrorThere (s.rd Reg.ckpProt) then s.askBook s.partnerNow (s.rd Reg.mirrorBase) 128 0
      else { s with fov := { s.fov with fillFailed := true } }) s

/-- Length of a book with its header read. -/
def bookLen (head : List Byte) : Nat := 128 + 80 * fieldLE head 20 4

/-- Bytes of a book have come (R453, R431): the rest of it is asked for, then the witness record. A book that may not be used
ends the reading. -/
def State.bookBytes (s : State) (bs : List Byte) : State :=
  let book := s.fov.book ++ bs
  let s : State := { s with fov := { s.fov with book } }
  let n := bookLen book
  if book.length < n then s.askBook s.partnerNow (s.rd Reg.mirrorBase + book.length) (min (2 ^ 24) (n - book.length)) 0
  else if bookUsable book then
    s.askBook s.partnerNow (s.rd Reg.mirrorBase + 2 ^ 25 + 32 * (fieldLE book 24 6 % 1024)) 32 1
  else { s with fov := { s.fov with fillFailed := true } }

/-- Entry of the donor's book for an item: equal INDEX and BYTES (R457). -/
def donorEntry (donor : List Byte) (e : List Byte) : Option (List Byte) :=
  ((List.range (fieldLE donor 20 4)).map (bookEntry donor)).find? fun d =>
    fieldLE d 2 1 == fieldLE e 2 1 && fieldLE d 4 4 == fieldLE e 4 4 && fieldLE d 16 8 == fieldLE e 16 8

/-- Whether entry e of the book is filled from the donor. -/
def State.fromDonor (s : State) (j : Job) (e : List Byte) : Bool :=
  s.fld Reg.donor != noCoord && j.replicated (fieldLE e 2 1) (fieldLE e 4 4)

/-- The donor's book has come in part or whole; whole, the replicated items are asked for (R457). -/
def State.donorBytes (s : State) (bs : List Byte) : State :=
  let donor := s.fov.donorBook ++ bs
  let s : State := { s with fov := { s.fov with donorBook := donor } }
  let k := bits 2 2 (fieldLE s.fov.book 3 1)
  let n := bookLen donor
  if donor.length < n then s.askBook (s.fld Reg.donor) (s.ckp.slotAt k + donor.length) (min (2 ^ 24) (n - donor.length)) 2
  else
    match s.ckp.job.bind s.job with
    | none => s
    | some j =>
      if !bookUsable donor then { s with fov := { s.fov with fillFailed := true } }
      else
        let ents := ((List.range s.ckp.items.length).map (bookEntry s.fov.book)).filter (s.fromDonor j)
        ents.foldl (fun (s : State) e =>
          match donorEntry donor e with
          | some d => s.getPieces (s.fld Reg.donor) (fieldLE s.fov.book 24 6 % 2 ^ 24 * 256) (s.ckp.slotAt k + fieldLE d 8 8)
              (fieldLE d 16 8) (s.ckp.slotAt k + fieldLE e 8 8)
          | none => { s with fov := { s.fov with fillFailed := true } }) s

/-- The answer to a request for a book (uses 2) or for a piece of an item (use 1): its data, or a status that fails it. -/
def State.fillAnswer (s : State) (o : Outstanding) (status : Nat) (bs : List Byte) : State :=
  if status ≠ tsOk then { s with fov := { s.fov with fillFailed := true } }
  else if o.use = 1 then
    match s.devWrite (.manager none) o.dst bs with
    | (0, s) => s
    | (_, s) => { s with fov := { s.fov with fillFailed := true } }
  else match o.dst with
  | 0 => s.bookBytes bs
  | 1 => { s with fov := { s.fov with witness := bs, bookOk := true } }
  | _ => s.donorBytes bs

/-! ### The fill barrier (R454 to R456) -/

/-- Items of a book that an understudy fills from its own protection, by number. -/
def State.ownItems (s : State) (j : Job) : List Nat :=
  (List.range s.ckp.items.length).filter fun i => !s.fromDonor j (bookEntry s.fov.book i)

/-- This device is an understudy before its fill. -/
def State.understudy (s : State) : Bool := s.fld Reg.fovState == 3

/-- This member's stored stripe of P for parity rebuilds, as it contributes it: verified and decrypted where it was stored so
(R226, R231). -/
def State.storedUnit (s : State) (j : Job) (u : Nat) : Option (List Byte) × State :=
  let head := s.ckp.heads.getD (b2n s.ckp.parityUpper) []
  if !s.ckp.stored then (none, s)
  else match s.devRead (.manager none) (s.ckp.parityBlock s.ckp.parityUpper) u with
  | (0, raw, s) => if head.isEmpty then (some raw, s) else s.openObject 3 j.seed (head ++ raw)
  | (_, _, s) => (none, s)

/-- The failed members whose parity group is this device's, with their indices. -/
def State.lostMates (s : State) : List (Nat × Nat) :=
  let (g, i, _) := s.parityPlace
  ((List.range g).filter (· != i)).filterMap fun k =>
    let c := s.groupMember k
    if s.fov.failed.any fun f => f.1 == c then some (k, c) else none

/-- What a survivor contributes to the rebuild of a failed member of its parity group, read at the fill barrier: U by slot P's book, its own
stripe, and its parity list by that book. None of it may be missing (R231, R431, R454, R456); nothing is needed where no mate has
failed. -/
def State.ownUnits (s : State) (j : Job) : Option (Nat × List Byte × List Byte) × State :=
  if !s.ckp.parityOk ∨ s.lostMates.isEmpty then (some (0, [], []), s)
  else match s.readBook s.pSlot with
  | (none, s) => (none, s)
  | (some book, s) =>
    let u := fieldLE book 64 8
    if u = 0 then (some (0, [], []), s)
    else match s.storedUnit j u with
    | (none, s) => (none, s)
    | (some own, s) =>
      let (g, _, _) := s.parityPlace
      let ents := ((List.range s.ckp.items.length).map (bookEntry book)).filter fun e => entMethod e == 2
      let (l, s) := s.parityList s.pSlot g u (ents.map fun e => (fieldLE e 8 8, fieldLE e 16 8))
      (l.map fun l => (u, own, l), s)

/-- What this device contributes as FAILED at the fill barrier (R454): for an understudy, an unusable book or an item that has
no source; for a survivor, an item of slot P that cannot be restored, or units of a rebuild that it cannot give. -/
def State.fillVote (s : State) : Nat :=
  match s.ckp.job.bind s.job with
  | none => 1
  | some j =>
    if s.understudy then
      b2n (s.fov.fillFailed || !s.fov.bookOk || !s.ckp.mirrorOk
        || (s.ownItems j).any fun i => entMethod (bookEntry s.fov.book i) == 0)
    else b2n (s.fov.fillFailed || (s.ownUnits j).1.isNone)

/-- Can this device take its place at the fill barrier: a survivor after its rollback, an understudy after its JOB_LOAD, or with
a book it cannot use? -/
def State.atFillBarrier (s : State) : Bool :=
  if s.understudy then !s.awaiting 2 && (s.fov.fillFailed || s.ckp.job.isSome)
  else s.fov.recovery && !s.fov.barrierPassed && (s.fov.filled.isEmpty || s.fov.fillFailed)

/-- A survivor's contributions to the rebuild of a failed member's units (R456): the stored block where the stripe is its own,
else its unit of the list that slot P's book gives. -/
def State.giveUnits (s : State) (u : Nat) (own list : List Byte) (f : Nat × Nat) : State :=
  let (g, i, first) := s.parityPlace
  let a := parityAxis s.ckp.prot
  (List.range (g - 1)).foldl (fun (s : State) k =>
    let stripe := (f.1 + k + 1) % g
    let mine := if stripe = i then own else (list.drop ((stripe + g - i - 1) % g * u)).take u
    let x := collNew none (parityDesc a (comp first a) g u f.2) 0xFFFFFA s.openEpoch 1 (byteVals mine)
    s.putColl (deviceKey 0xFFFFFA stripe) { x with tracks := s.xorTracks a (comp first a) g f.2 u stripe }) s

/-- An understudy's fill begins (R455, R457, R458): FILL_BYTES is B, and every source is asked. -/
def State.beginFill (s : State) (j : Job) : State :=
  let book := s.fov.book
  let k := bits 2 2 (fieldLE book 3 1)
  let total := ((List.range s.ckp.items.length).map fun i => fieldLE (bookEntry book i) 16 8).foldl (· + ·) 0
  let s := (s.setF Reg.ckpPSlot k).setF Reg.fovState 4
  let s := (s.setF Reg.fillBytes total).setF Reg.fillDone 0
  let give := s.fld Reg.donor != noCoord
  let s := s.setF Reg.fovDonorFill (b2n give)
  let s : State := { s with fov := { s.fov with filling := true, fillFailed := false, donorBook := [] } }
  let s := s.fetchItems k book (s.ownItems j)
  if give then s.askBook (s.fld Reg.donor) (s.ckp.slotAt k) 128 2 else s

/-- FILL_BARRIER (R454): the vote before the fill, with the sum of the other members' FAILED. -/
def execFillBarrier (failed : Nat) (s : State) : Host.Outcome State Fault Refusal :=
  run true (fun s =>
    if !s.atFillBarrier then s
    else match s.ckp.job.bind s.job with
    | none => s.exportFallback
    | some j =>
      if s.understudy then if 0 < failed + s.fillVote then s.exportFallback else s.beginFill j
      else
        let bad := 0 < failed + s.fillVote
        let (mine, s) := s.ownUnits j
        if bad then s.exportFallback
        else
          let s : State := { s with fov := { s.fov with barrierPassed := true } }
          match mine with
          | some (u, own, list) => if 0 < u then s.lostMates.foldl (fun (s : State) f => s.giveUnits u own list f) s else s
          | none => s) s

/-- UNDERSTUDY_WAIT_EXPIRY (R454): a survivor that has not passed the fill barrier cancels the recovery epoch and takes the
export fallback (R446). -/
def execUnderstudyWaitExpiry (s : State) : Host.Outcome State Fault Refusal :=
  run true (fun s =>
    if s.fov.recovery ∧ !s.fov.barrierPassed then (s.flood nkCancel Cause.device 0 s.openEpoch 0).exportFallback else s) s

/-! ### The seal of a fill (R458, R313) -/

/-- The units that have come, in order, as this member's parity list (R456). -/
def State.unitsIn (s : State) (u : Nat) : List Byte :=
  let (g, i, _) := s.parityPlace
  (List.range (g - 1)).flatMap fun k =>
    match SMap.find s.colls (deviceKey 0xFFFFFA ((i + k + 1) % g)) with
    | some x => x.wire (List.range x.data.length)
    | none => List.replicate u 0

/-- Everything asked for has come. -/
def State.fillArrived (s : State) : Bool :=
  !s.awaiting 1 && !s.awaiting 2 && s.colls.all fun e => e.2.index != 0xFFFFFA || e.2.done

/-- Place the PARITY items from the units (R456). -/
def State.placeUnits (s : State) (k : Nat) (book : List Byte) (nums : List Nat) : State :=
  let u := fieldLE book 64 8
  let list := s.unitsIn u
  let s := (nums.map (bookEntry book)).foldl (fun (s : State) e =>
    if entMethod e = 2 then
      (s.devWrite (.manager none) (s.ckp.slotAt k + fieldLE e 8 8) ((list.drop (fieldLE e 24 8)).take (fieldLE e 16 8))).2
    else s) s
  { s with colls := s.colls.filter fun e => e.2.index != 0xFFFFFA }

/-- The digest that an item of slot k must have: the book's, or the donor's (R457). -/
def State.wantDigest (s : State) (j : Job) (e : List Byte) : List Byte :=
  let d := if s.fov.filling && s.fromDonor j e then (donorEntry s.fov.donorBook e).getD [] else e
  (d.drop 48).take 32

/-- Verify the items that were filled; FILL_DONE counts each that holds (R458). -/
def State.verifyFill (s : State) (j : Job) (k : Nat) (book : List Byte) (nums : List Nat) : Bool × State :=
  nums.foldl (fun (acc : Bool × State) i =>
    let e := bookEntry book i
    match acc.2.devRead (.manager none) (acc.2.ckp.slotAt k + fieldLE e 8 8) (fieldLE e 16 8) with
    | (0, bs, s) =>
      if digest32 bs = s.wantDigest j e then (acc.1, s.addF Reg.fillDone (fieldLE e 16 8)) else (false, s)
    | (_, _, s) => (false, s)) (true, s)

/-- The understudy's book with the donor's digests in the replicated items (R457). -/
def State.filledBook (s : State) (j : Job) : List Byte :=
  bookWhole (s.fov.book.take 96) ((List.range s.ckp.items.length).map fun i =>
    let e := bookEntry s.fov.book i
    e.take 48 ++ s.wantDigest j e)

/-- A verified fill: the book is written, the slot is sealed as P and copied to live; working copies are rebuilt before the
next attempt (R458, R149). -/
def State.sealFill (s : State) (slot k : Nat) (j : Job) : State :=
  let step := fieldLE s.fov.book 24 6
  let s := s.putWhole (s.ckp.slotAt k) (s.filledBook j)
  let c := s.ckp
  let s : State := { s with
    ckp := { c with hasP := true, sealed := c.sealed.set k (some step), full := true, starting := false }
    fov := { s.fov with filling := false, filled := [] } }
  let s := (((s.setF Reg.ckpPSlot k).setF Reg.protectedStep step).setF Reg.sealedStep step).setF Reg.ckpFullNext 1
  let (_, s) := s.copySlot slot k
  let s := s.modJob slot fun (j : Job) => { j with rebuildDue := true }
  let s := s.inc Reg.fills
  if s.fld Reg.fovDonorFill = 1 then s.inc Reg.donorFills else s

/-- FILL_SEAL (R458): once all of a fill has come, every item is verified; an understudy seals its slot, a survivor puts the
items it had lost back to live (R313). A mismatch is a failed fill. -/
def execFillSeal (s : State) : Host.Outcome State Fault Refusal :=
  run true (fun s =>
    match s.ckp.job.bind fun slot => (s.job slot).map fun j => (slot, j) with
    | none => s
    | some (slot, j) =>
      let k := s.pSlot
      if (!s.fov.filling && s.fov.filled.isEmpty) || !s.fillArrived then s
      else
        let (book, s) := if s.fov.filling then (some s.fov.book, s) else s.readBook k
        let nums := if s.fov.filling then List.range s.ckp.items.length else s.fov.filled
        let (ok, s) := match (if s.fov.fillFailed then none else book) with
          | some book => (s.placeUnits k book s.fov.filled).verifyFill j k book nums
          | none => (false, { s with colls := s.colls.filter fun e => e.2.index != 0xFFFFFA })
        if !ok then
          let s : State := { s with fov := { s.fov with fillFailed := true, filling := false, filled := [] } }
          if s.fov.recovery ∨ s.fld Reg.fovState = 4 then s else s.exportFallback
        else if s.fov.filling then s.sealFill slot k j
        else
          let lost := s.ckp.items.zipIdx.filter fun e => s.fov.filled.contains e.2
          let s := lost.foldl (fun (s : State) e => match s.devRead (.manager none) (s.ckp.slotAt k + e.1.slotOff) e.1.bytes with
            | (0, bs, s) => s.itemRestore slot e.1 bs
            | (_, _, s) => s) s
          { s with fov := { s.fov with filled := [] } }) s

/-! ### The rehearsal barrier (R459, R460) -/

/-- A device serves as donor from the fill barrier until the rehearsal barrier (R457). -/
def State.donating (s : State) : Bool := s.fov.recovery && s.fov.barrierPassed && s.fov.donor == s.coord

/-- REHEARSAL_BARRIER (R459): with no failed fill the recovery epoch opens for the rehearsal step. -/
def execRehearsalBarrier (failed : Nat) (s : State) : Host.Outcome State Fault Refusal :=
  run true (fun s =>
    let filledUp := s.fld Reg.fovState == 4 && !s.fov.filling
    let survivor := s.fov.recovery && s.fov.barrierPassed && s.fov.filled.isEmpty
    if !(filledUp || survivor) then s
    else if 0 < failed + b2n s.fov.fillFailed then s.exportFallback
    else
      let s := if s.donating then s.inc Reg.donorFills else s
      let s : State := match (if filledUp then s.ckp.job else none) with
        | some slot => (s.setJf slot Reg.jobState 3).modJob slot fun (j : Job) => { j with failed := 0, stopNext := false }
        | none => s
      ({ s with fov := { s.fov with recovery := false, rehearsal := true, fillFailed := false } }).setF Reg.fovState 5) s

/-! ### The replica vote (R468 to R470) -/

/-- The value held by more than half of a list, if any. -/
def majorityOf (vs : List Nat) : Option Nat := vs.find? fun v => decide (vs.length < 2 * vs.countP (· == v))

/-- The outcome of a vote (Table 13.8): the members with their values in rank order, this device's among them. -/
def State.decideVote (s : State) (slot t : Nat) (all : List (Nat × Nat)) : State :=
  let vals := all.map (·.2)
  let s := ({ s with fov := { s.fov with voting := none } }).inc Reg.votes
  let agreed := fun (s : State) (code : Nat) => (s.setF Reg.votedStep t).setF Reg.fovLastVote code
  if vals.all fun v => v == vals.headD 0 then agreed s 1
  else match (if 3 ≤ all.length then majorityOf vals else none) with
  | some m =>
    let donor := ((all.find? fun e => e.2 == m).map (·.1)).getD noCoord
    let out := (all.filter fun e => e.2 != m).map (·.1)
    let s := out.foldl (fun (s : State) c => s.event Ev.expulsion UId.stageManager [c, donor]) s
    let s := s.addF Reg.expulsions out.length
    let s : State := { s with fov := { s.fov with donor } }
    if out.contains s.coord then (s.setF Reg.fovLastVote 2).expelNow else agreed s 2
  | none => (s.setF Reg.fovLastVote 3).shieldNow slot

/-- REPLICA_VOTE (R469, R470): the vote's DIGEST collective has gathered every member's V; `values` are those of the other
members of the group. -/
def execReplicaVote (values : List (Nat × Nat)) (s : State) : Host.Outcome State Fault Refusal :=
  run true (fun s =>
    match s.fov.voting, s.ckp.job with
    | some t, some slot =>
      let all := (s.coord, s.digestV) :: values
      let rank := fun c => rankOf (s.groupPos 6 c)
      let mates := all.all fun e => s.isMember e.1 && comp e.1 0 == comp s.coord 0
      if all.length ≠ s.replicas ∨ (all.map (·.1)).eraseDups.length ≠ all.length ∨ !mates then s
      else s.decideVote slot t ((List.range s.replicas).filterMap fun r => all.find? fun e => rank e.1 == r)
    | _, _ => s) s

/-- VOTE_TIMEOUT (Table 13.8): the vote is incomplete when its time is up. -/
def execVoteTimeout (s : State) : Host.Outcome State Fault Refusal :=
  run true (fun s =>
    match s.fov.voting, s.ckp.job with
    | some _, some slot =>
      (({ s with fov := { s.fov with voting := none } }).setF Reg.fovLastVote 3).shieldNow slot
    | _, _ => s) s

end Sys2Proof.Machine
end

