-- ==== Sys2Proof/Machine/HostLink.lean ====
section
/-!
DEFINITION. The rows of the host link (14_cxl_host_interface.md, R324): bad register accesses, CXL.mem through the decoders,
bias, far-tier errors, DOE and the CDAT, IDE failures, and the host ring's head.
-/
namespace Sys2Proof.Machine

open Sys2Proof

/-- BAD_ACCESS (R479, R567): a register access of the wrong width or alignment. `newPeriod`: no such access has been recorded
in the period of 1,000 local ms. -/
def execBadAccess (offset width : Nat) (write newPeriod : Bool) (s : State) : Host.Outcome State Fault Refusal :=
  run (decide (offset < 2 ^ 26)) (fun s =>
    if (width = 4 ∨ width = 8) ∧ offset % width = 0 then s
    else
      let s := if write then s else s.emit (.value 0)
      if newPeriod then
        s.event Ev.badAccess UId.ioNorth [offset, width % 256 + 2 ^ 31 * b2n write]
      else s.suppress Ev.badAccess UId.ioNorth) s

/-! ### CXL.mem (R480, R481) -/

/-- The device address behind a host address range, through a committed decoder (R480). -/
def State.hdmAddr (s : State) (hpa len : Nat) : Option Nat :=
  let at' := fun (i base : Nat) => match s.host.decoders.getD i none with
    | some d => if d.base ≤ hpa ∧ hpa + len ≤ d.base + d.size then some (base + (hpa - d.base)) else none
    | none => none
  (at' 0 0).or (at' 1 ddrBase)

/-- An address that the host finds like the hole: the hole, or a bank whose port A is not the host's (R480). -/
def State.holeFor (s : State) (a : Nat) : Bool :=
  (decide (0x3000_0000 ≤ a) && decide (a < hbmBase))
    || (decide (a < 0x3000_0000) && !ownedBy (s.owner (s.served1 (a / 0x40000)) 0) .host)

/-- An access by the host, to which pages in host bias are open (R481). -/
def State.asHost (s : State) {α : Type} (f : State → α × State) : α × State :=
  let pages := s.host.hostPages
  let (r, s) := f { s with host := { s.host with hostPages := [] } }
  (r, { s with host := { s.host with hostPages := pages } })

/-- HOST_MEM_ACCESS (R480): a CXL.mem access that stays within one 256-byte sector (DESIGN CHOICE, log 54). One that finds a handover
of port A to the host in progress waits for it (R274). -/
def execHostMemAccess (hpa len : Nat) (write : Bool) (bytes : List Byte) (ups : Upsets) (s : State) :
    Host.Outcome State Fault Refusal :=
  run (decide (hpa < 2 ^ 52) && decide (0 < len) && decide (hpa % 256 + len ≤ 256) && (!write || bytes.length == len)) (fun s =>
    if !s.served ∨ s.host.ideInsecure then s.emit .unsupported
    else match s.hdmAddr hpa len with
    | none => s.emit .unsupported
    | some a =>
      let s := if a < 0x3000_0000 then s.settle .host (s.served1 (a / 0x40000)) 0 else s
      if s.holeFor a then
        if !write then s.emit .poison
        else if s.host.holeStep then s.suppress Ev.holeWrite UId.ioNorth
        else { s with host := { s.host with holeStep := true } }.event Ev.holeWrite UId.ioNorth [a % 2 ^ 32, a / 2 ^ 32]
      else if write then
        let (st, s) := s.asHost fun s => s.accessWrite .host a bytes ups
        s.emit (.access st [])
      else
        let (r, s) := s.asHost fun s => match s.accessRead .host a len false ups with
          | (st, bs, s) => ((st, bs), s)
        if r.1 = 0 then s.emit (.access 0 r.2) else s.emit .poison) s

/-- HDM_DECODER_COMMIT (R480): a decoder commits, once, one way only and within its range. Answers 1 committed, 2 error
(log entry 95). -/
def execHdmDecoderCommit (decoder base size ways : Nat) (s : State) : Host.Outcome State Fault Refusal :=
  run (decide (decoder < 2)) (fun s =>
    match s.host.decoders.getD decoder none with
    | some _ => s
    | none =>
      let limit := if decoder = 0 then 832 * 2 ^ 30 else s.ddrSize
      if ways ≠ 1 ∨ size = 0 ∨ size % 2 ^ 28 ≠ 0 ∨ base % 2 ^ 28 ≠ 0 ∨ limit < size then s.emit (.value 2)
      else
        let d : Decoder := { base, size }
        { s with host := { s.host with decoders := s.host.decoders.set decoder (some d) } }.emit (.value 1)) s

/-- D3HOT_REQUEST (Table 14.1): accepted only while every job slot is IDLE. -/
def execD3hotRequest (s : State) : Host.Outcome State Fault Refusal :=
  run true (fun s => if s.allIdle then { s with host := { s.host with d3hot := true } } else s.emit .unsupported) s

/-- ATS_INVALIDATION (Table 14.1): a translation is dropped and the invalidation completes. -/
def execAtsInvalidation (page : Nat) (s : State) : Host.Outcome State Fault Refusal :=
  run (decide (page < 2 ^ 52)) (fun s =>
    { s with host := { s.host with atc := s.host.atc.filter (· != page) } }.emit (.value page)) s

/-- CXL_CACHE_SNOOP (Table 14.1): the device holds no host line. -/
def execCxlCacheSnoop (addr : Nat) (s : State) : Host.Outcome State Fault Refusal :=
  run (decide (addr < 2 ^ 52)) (fun s => s.emit .snoopRspIHitI) s

/-! ### DOE and the CDAT (R489, R490) -/

/-- A data object: vendor, type, length in words, payload. -/
def doeObject (vendor type : Nat) (payload : List Byte) : List Byte :=
  leBytes 2 vendor ++ leBytes 1 type ++ leBytes 1 0 ++ leBytes 4 (2 + ceilDiv payload.length 4) ++ payload

/-- The data objects of Table 14.7. -/
def doeTypes : List (Nat × Nat) := [(0x0001, 0x00), (0x1E98, 0x02), (0x1F3D, 0x01)]

/-- DOE_DISCOVERY (R489). -/
def execDoeDiscovery (index : Nat) (s : State) : Host.Outcome State Fault Refusal :=
  run (decide (index < 256)) (fun s =>
    let (v, t) := doeTypes.getD index (0xFFFF, 0)
    let next := if index + 1 < doeTypes.length then index + 1 else 0
    s.emit (.response (doeObject 0x0001 0x00 (leBytes 2 v ++ leBytes 1 t ++ leBytes 1 next)))) s

/-- A DSMAS entry: handle, base, length; the non-volatile flag is clear (R490). -/
def dsmas (h base len : Nat) : List Byte :=
  leBytes 1 0 ++ leBytes 1 0 ++ leBytes 2 24 ++ leBytes 1 h ++ leBytes 3 0 ++ leBytes 8 base ++ leBytes 8 len

/-- A DSLBIS entry: handle, data type, unit, value. -/
def dslbis (h type unit v : Nat) : List Byte :=
  leBytes 1 1 ++ leBytes 1 0 ++ leBytes 2 24 ++ leBytes 1 h ++ leBytes 1 0 ++ leBytes 1 type ++ leBytes 1 0 ++ leBytes 8 unit
    ++ leBytes 2 v ++ leBytes 6 0

/-- Latencies in ns and bandwidths in GB/s of the ranges of Table 14.8: handle, read, write. -/
def cdatRanges : List (Nat × Nat × Nat) := [(0, 650, 600), (0, 450, 450), (1, 760, 700)]

/-- The CDAT's entries after its header. -/
def State.cdatEntries (s : State) : List (List Byte) :=
  [dsmas 0 0 (832 * 2 ^ 30), dsmas 1 ddrBase s.ddrSize]
    ++ cdatRanges.flatMap fun r => [dslbis r.1 1 1000 r.2.1, dslbis r.1 2 1000 r.2.2, dslbis r.1 4 1000 63, dslbis r.1 5 1000 63]

/-- The CDAT: its header and its entries. -/
def State.cdat (s : State) : List (List Byte) :=
  let es := s.cdatEntries
  let n := 16 + (es.map List.length).foldl (· + ·) 0
  let head := fun (sum : Nat) => leBytes 4 n ++ leBytes 1 1 ++ leBytes 1 sum ++ leBytes 10 0
  let total := ((head 0 ++ es.flatten).map BitVec.toNat).foldl (· + ·) 0
  head ((256 - total % 256) % 256) :: es

/-- CDAT_READ (R490): one entry of the table, by its handle. -/
def execCdatRead (entry : Nat) (s : State) : Host.Outcome State Fault Refusal :=
  run (decide (entry < 2 ^ 16)) (fun s =>
    let t := s.cdat
    match t[entry]? with
    | some e =>
      let next := if entry + 1 < t.length then entry + 1 else 0xFFFF
      s.emit (.response (doeObject 0x1E98 0x02 (leBytes 1 0 ++ leBytes 1 0 ++ leBytes 2 next ++ e)))
    | none => s.emit .unsupported) s

/-- DOE_ABORT (R489): a request in progress is discarded. -/
def execDoeAbort (s : State) : Host.Outcome State Fault Refusal :=
  run true (fun s => { s with host := { s.host with doe := none } }) s

/-- IDE_INTEGRITY_FAILURE (R491): an enabled stream enters the insecure state until new keys are loaded. -/
def execIdeIntegrityFailure (s : State) : Host.Outcome State Fault Refusal :=
  run true (fun s =>
    if s.host.ideKeys.isEmpty then s
    else
      let s : State := { s with host := { s.host with ideKeys := [], ideInsecure := true } }
      (s.setF Reg.ideSecure 0).event Ev.ideInsecure UId.ioNorth [0]) s

/-! ### Far-tier errors (R324) -/

/-- A far-tier request fails with a status: counted, recorded, and its effect by what it was for: 0 a DATA shard buffer,
1 a cue or completion ring, 2 a write released at COMMIT, 3 an export or import object (one of the JOB_LOAD in slot `who` is imported),
4 another cue. -/
def State.farFails (s : State) (addr use who status : Nat) : State :=
  let s := (s.inc Reg.farErrors).event Ev.farError UId.ioNorth [addr % 2 ^ 32, addr / 2 ^ 32, use] status
  match use with
  | 0 =>
    (match (SMap.find s.ops who).bind fun o => o.cue.job with
     | some slot =>
       (s.modJob slot fun (j : Job) => { j with shards := j.shards.filter fun x => x.op != who }).opDone who status 0
     | none => s)
  | 1 => s.haltQueue who 3
  | 2 => s
  | 3 =>
    if (SMap.find s.ops who).any fun o => o.cue.opcode == cJobLoad then (s.opDone who status 0).exportFallback
    else if s.ckp.exporting.isSome then s.exportFails 2 true
    else s.opDone who status 0
  | _ => s.opDone who status 0

/-- What the failed request was for names a queue or an operation slot. -/
def farOk (addr use who : Nat) : Bool :=
  decide (farBase ≤ addr) && decide (addr < farEnd) && decide (use < 5)
    && (if use = 1 then decide (who < 2 ^ 20) else opOk who)

/-- FAR_REQUEST_ERROR (R324): a far-tier request completes with an error or poison. -/
def execFarRequestError (addr use who : Nat) (s : State) : Host.Outcome State Fault Refusal :=
  run (farOk addr use who) (fun s => s.farFails addr use who St.farError) s

/-- FAR_REQUEST_TIMEOUT (R324): a far-tier request does not complete within FAR_TIMEOUT. -/
def execFarRequestTimeout (addr use who : Nat) (s : State) : Host.Outcome State Fault Refusal :=
  run (farOk addr use who) (fun s => s.farFails addr use who St.timeout) s

/-! ### The host ring's head (R569) -/

/-- A write of `raw` at offset a that leaves HOST_RING_HEAD at v: it may not fall behind its value or pass the next record. -/
def State.ringHead (s : State) (v a raw : Nat) : State :=
  if v < s.rd Reg.hostRingHead ∨ s.rd Reg.nextSeq ≤ v then s.discardWrite a raw 2 else s.wr Reg.hostRingHead v

/-- HOST_RING_HEAD_WRITE (R569). -/
def execHostRingHeadWrite (head : Nat) (s : State) : Host.Outcome State Fault Refusal :=
  run (decide (head < 2 ^ 64)) (fun s => s.hostWrite Reg.hostRingHead fun s => s.ringHead head Reg.hostRingHead head) s

/-! ### Bias (R481) -/

/-- Device address of a page of a tier: 0 HBM, 1 DDR. -/
def biasAddr (tier page : Nat) : Nat := (if tier = 0 then hbmBase else ddrBase) + page * 2 ^ 21

/-- Bytes of a tier. -/
def State.biasSize (s : State) (tier : Nat) : Nat := if tier = 0 then hbmEnd - hbmBase else s.ddrSize

/-- The regions in effect: as the last JOB_LOAD latched them (R322). -/
def Ckp.regions (c : Ckp) : List (Nat × Nat) :=
  [(c.snapBase, c.snapSize), (c.mirrorBase, c.mirrorSize), (c.parityBase, c.paritySize)]

/-- A range that a loaded job uses: its tensors, its buffers and the regions. -/
def State.usedByJob (s : State) (a n : Nat) : Bool :=
  s.jobs.any fun e => (e.2.tensorRanges ++ e.2.bufferRanges ++ s.ckp.regions).any fun r => overlap r.1 r.2 a n

/-- A BIAS_CMD of `pages` pages: op 1 to device bias, 2 to host bias; refused for a page a loaded job uses, and outside the tier. -/
def State.biasCmdOp (s : State) (toHost : Bool) (tier pages first off v : Nat) : State :=
  if s.fld Reg.biasBusy = 1 then s.discardWrite off v 3
  else if 2 ≤ tier then s.discardWrite off v 2
  else
    let a := biasAddr tier first
    let n := pages * 2 ^ 21
    if s.biasSize tier < first * 2 ^ 21 + n ∨ (toHost ∧ s.usedByJob a n) then s.setF Reg.biasRefused 1
    else { s with host := { s.host with bias := some (toHost, tier, first, pages) } }.setF Reg.biasBusy 1 |>.setF Reg.biasRefused 0

/-- BIAS_CMD's value for an operation (Table 14.10). -/
def biasWord (op tier pages first : Nat) : Nat := op * 2 ^ 62 + tier * 2 ^ 60 + (pages - 1) * 2 ^ 40 + first

/-- Operands that BIAS_CMD can hold. -/
def biasOk (tier pages first : Nat) : Bool := decide (tier < 4) && decide (0 < pages) && decide (pages ≤ 2 ^ 20) && decide (first < 2 ^ 20)

/-- BIAS_TO_DEVICE (R481). -/
def execBiasToDevice (tier pages first : Nat) (s : State) : Host.Outcome State Fault Refusal :=
  run (biasOk tier pages first) (fun s =>
    s.hostWrite Reg.biasCmd fun s => s.biasCmdOp false tier pages first Reg.biasCmd (biasWord 1 tier pages first)) s

/-- BIAS_TO_HOST (R481). -/
def execBiasToHost (tier pages first : Nat) (s : State) : Host.Outcome State Fault Refusal :=
  run (biasOk tier pages first) (fun s =>
    s.hostWrite Reg.biasCmd fun s => s.biasCmdOp true tier pages first Reg.biasCmd (biasWord 2 tier pages first)) s

/-- BIAS_COMMAND_COMPLETE (R481): the change in progress is made. -/
def execBiasCommandComplete (s : State) : Host.Outcome State Fault Refusal :=
  run true (fun s =>
    match s.host.bias with
    | none => s
    | some (toHost, tier, first, pages) =>
      let lo := tier * 2 ^ 20 + first
      let rest := s.host.hostPages.filter fun e => e.1 < lo || lo + pages ≤ e.1
      let m := if toHost then (List.range pages).foldl (fun m i => SMap.put m (lo + i) true) rest else rest
      { s with host := { s.host with hostPages := m, bias := none } }.setF Reg.biasBusy 0) s

end Sys2Proof.Machine
end

