-- ==== Sys2Proof/Machine/LinkRows.lean ====
section
/-!
DEFINITION. The torus link's own commands (R326 to R350, R361 to R365, R370, R371): training, FEC frames, flits, link
initialisation, HELLO and PULSE.
-/
namespace Sys2Proof.Machine

open Sys2Proof

/-- Numbers of ports and of lanes (Table 0.8, R326). -/
def portOk (p : Nat) : Bool := decide (p < 6)
def laneOk (l : Nat) : Bool := decide (l < 16)

/-! ### Training (R327 to R330) -/

/-- The CRC8 of a control word holds (Table 10.3). -/
def wordGood (w : Nat) : Bool := bits 63 56 w == crcMsb 8 0x07 0 (leNats 7 (w % 2 ^ 56))

/-- Physical lanes of a mask. -/
def maskLanes (m : Nat) : List Nat := (List.range 16).filter (bitAt · m)

/-- Two consecutive valid control words have come on each lane that carries signal (Table 10.4, step 2). -/
def Port.locked (x : Port) (signal : Nat) : Bool :=
  signal % 65536 != 0 && (maskLanes signal).all fun i => decide (2 ≤ (x.lanes.getD i (0, 0)).2)

/-- Lane order (R327): some false for the logical order, some true for the reversed one, none for any other. -/
def Port.order (x : Port) (signal : Nat) : Option Bool :=
  let at' := fun i => (x.lanes.getD i (0, 0)).1
  if (maskLanes signal).all fun i => at' i == i + 1 then some false
  else if (maskLanes signal).all fun i => at' i == 16 - i then some true
  else none

/-- The width that a union of FAILED masks allows (R329): 0 for no usable half. -/
def widthOf (union : Nat) : Nat := if union % 65536 = 0 then 16 else if union % 256 = 0 ∨ union / 256 % 256 = 0 then 8 else 0

/-- A training attempt fails: a retrain becomes a full training (R348), a full training is counted (Table 10.20). -/
def State.attemptFailed (s : State) (p cause : Nat) : State :=
  if s.pst p = PS.retrain then s.fullTrain p else s.trainFailed p cause

/-- Steps 1 and 2 of Table 10.4: order and polarity; lanes without signal are unusable. A retrain skips step 3. -/
def State.trainOrder (s : State) (p signal : Nat) : State :=
  let x := s.port p
  if 2 < x.train ∨ !x.locked signal then s
  else match x.order signal with
  | none => s.attemptFailed p 1
  | some r =>
    let dead := (List.range 16).filter fun i => !bitAt i signal
    let mask := dead.foldl (fun m i => m ||| 2 ^ (if r then 15 - i else i)) (s.pf p Reg.failedLocal)
    (s.setPort p { x with reversed := r, train := if s.pst p = PS.retrain then 4 else 3 }).setPf p Reg.failedLocal mask

/-- Step 3: every eye is satisfactory. -/
def State.trainEye (s : State) (p signal eye : Nat) : State :=
  s.modPort p fun x => if x.train = 3 ∧ (maskLanes signal).all fun i => bitAt i eye then { x with train := 4 } else x

/-- Step 4: both sides choose the width and the lanes from the union of the masks (R329); a retrain never widens it, and one that
finds no lane failed keeps the lanes it has (DEDUCED, log entry 107). -/
def State.trainWidth (s : State) (p : Nat) : State :=
  let x := s.port p
  if x.train ≠ 4 ∨ x.phaseIn = 0 then s
  else
    let union := s.pf p Reg.failedLocal ||| s.pf p Reg.failedRemote
    let old := s.pf p Reg.portWidth
    let w := if s.pst p = PS.retrain ∧ old = 8 then min 8 (widthOf union) else widthOf union
    if w = 0 then s.attemptFailed p 4
    else
      let upper := if union % 65536 = 0 then x.upper else w == 8 && union % 256 != 0
      let s := (s.setPort p { x with train := 5, upper }).setPf p Reg.portWidth w
      if w = 8 ∧ old ≠ 8 then s.event Ev.portNarrowed (UId.port p) [union, 8] else s

/-- One tap of a lane follows a request (Table 10.3): its new setting and the outcome, 1 updated, 2 at limit. Preset is the setting that
steps count from. -/
def tapMove (tap req : Nat) (v : Int) : Int × Nat :=
  let w := if req = 1 then v + 1 else if req = 2 then v - 1 else 0
  if req = 0 then (v, 0) else if Config.tapBeyond tap w then (v, 2) else (w, 1)

/-- A lane's transmitter follows the partner's request, once as it changes, and reports the outcome; none in a retrain, whose frames keep
every setting (R330; DESIGN CHOICE, log entry 127). -/
def Port.follow (x : Port) (lane req : Nat) (retrain : Bool) : Port :=
  if retrain ∨ x.coefIn.getD lane 0 = req then { x with coefIn := x.coefIn.set lane (if retrain then 0 else req) }
  else
    let moved := (List.range 3).map fun k => tapMove k (bits (2 * k + 1) (2 * k) req) (x.taps.getD (3 * lane + k) 0)
    { x with
      coefIn := x.coefIn.set lane req
      taps := moved.zipIdx.foldl (fun (l : List Int) e => l.set (3 * lane + e.2) e.1.1) x.taps
      coefStatus := x.coefStatus.set lane (moved.zipIdx.foldl (fun n e => n + e.1.2 * 4 ^ e.2) 0) }

/-- What a valid control word says. -/
def State.trainWord (s : State) (p lane : Nat) (inverted : Bool) (w : Nat) : State :=
  let s := s.modPort p fun x =>
    let old := x.lanes.getD lane (0, 0)
    let n := w % 16 + 1
    let x := if x.train ≤ 3 then x.follow (w % 16) (bits 13 8 w) (bitAt 6 w || s.pst p == PS.retrain) else x
    { x with
      lanes := x.lanes.set lane (n, if old.1 = n then old.2 + 1 else 1), inverted := setBits lane lane (b2n inverted) x.inverted
      phaseIn := bits 5 4 w % 3, coefDone := x.coefDone.set (w % 16) (bits 21 16 w)
      readyIn := x.readyIn.set (w % 16) (x.readyIn.getD (w % 16) 0 + b2n (bits 5 4 w == 2)), lastIn := x.lastIn || bitAt 7 w }
  s.setPf p Reg.failedRemote (bits 39 24 w)

/-- Four ready frames have gone out and come in on every lane in use (Table 10.4, step 5). -/
def Port.readyDone (x : Port) (lanes : List Nat) : Bool := decide (4 ≤ x.readyOut) && lanes.all fun n => decide (4 ≤ x.readyIn.getD n 0)

/-- This side's training frames go out in step with the partner's, which come once on each lane: the lowest lane that carries signal
stands for them (DESIGN CHOICE, log entry 137). A lane whose eye is not satisfactory sends a request, which one the manual leaves open (a free value); four ready
frames each way, then the one with LAST (R328, R330). -/
def State.trainReply (s : State) (p lane signal eye : Nat) : State :=
  let x := s.port p
  if (maskLanes signal).headD lane ≠ lane ∨ x.lastOut then s
  else if x.train = 5 ∧ x.readyDone (s.lanesInUse p) then (s.modPort p fun x => { x with lastOut := true }).sendTraining p 1 fun _ => 0
  else if 5 ≤ x.train then (s.modPort p fun x => { x with readyOut := x.readyOut + 1 }).sendTraining p 0 fun _ => 0
  else if x.train = 3 ∧ s.pst p = PS.train then
    let (lo, s) := s.draw
    let (hi, s) := s.draw
    s.sendTraining p 0 fun n =>
      if bitAt (if x.reversed then 15 - n else n) eye then 0 else (if n < 8 then lo else hi).toNat / 64 ^ (n % 8) % 64
  else s.sendTraining p 0 fun _ => 0

/-- Step 5 is over: LAST has gone out and come in. -/
def State.trainReady (s : State) (p : Nat) : State :=
  s.modPort p fun x => if x.train = 5 ∧ x.lastOut ∧ x.lastIn then { x with train := 6 } else x

/-- TRAINING_FRAME_RECEIVED (R327 to R330): a frame on a physical lane with its control word as read, whether the lane was found
inverted, the lanes that carry signal and those whose eye is satisfactory. A frame on a port that expects FEC frames means
that FEC lock is lost (R348). -/
def execTrainingFrameReceived (port lane signal : Nat) (inverted : Bool) (word eye : Nat) (s : State) :
    Host.Outcome State Fault Refusal :=
  run (portOk port && laneOk lane) (fun s =>
    let st := s.pst port
    if !wordGood word then s
    else if linked st then s.enterRetrain port
    else if st = PS.detect ∨ st = PS.train ∨ st = PS.retrain then
      let s := if st = PS.detect then s.restartTraining port PS.train else s
      let s := (((s.trainWord port lane inverted word).trainOrder port signal).trainEye port signal eye).trainWidth port
      if s.pst port = PS.down then s else (s.trainReply port lane signal eye).trainReady port
    else s) s

/-- TRAINING_TIMEOUT (R330, Table 10.20): a full training did not complete in time. -/
def execTrainingTimeout (port : Nat) (s : State) : Host.Outcome State Fault Refusal :=
  run (portOk port) (fun s => if s.pst port = PS.train then s.trainFailed port 1 else s) s

/-- RETRAIN_TIMEOUT (R348): a retrain that did not complete becomes a full training. -/
def execRetrainTimeout (port : Nat) (s : State) : Host.Outcome State Fault Refusal :=
  run (portOk port) (fun s => if s.pst port = PS.retrain then s.fullTrain port else s) s

/-! ### FEC frames (R332 to R335, R348) -/

/-- Round and lane in use that carry a position of codeword c (R334). -/
def fecSpot (n c pos : Nat) : Nat × Nat :=
  let r := pos / (n / 4)
  (r, 4 * (pos % (n / 4)) + (c + 4 - r % 4) % 4)

/-- Symbol errors of a frame, given by round and logical lane, by codeword and logical lane; a lane that is not in use carries none
(R334). -/
def State.frameErrors (s : State) (p : Nat) (errs : List (Nat × Nat)) : List (Nat × Nat) :=
  let lanes := s.lanesInUse p
  errs.eraseDups.filterMap fun e =>
    let l := lanes.idxOf e.2
    if l < lanes.length ∧ e.1 < 2176 / lanes.length then some (fecCodeword e.1 l, e.2) else none

/-- Errors of one codeword. -/
def cwErrors (errs : List (Nat × Nat)) (c : Nat) : Nat := errs.countP fun e => e.1 == c

/-- Codewords of a frame that cannot be corrected (R332). -/
def badCodewords (errs : List (Nat × Nat)) : List Nat := (List.range 4).filter fun c => decide (15 < cwErrors errs c)

/-- Counters of a frame: corrected symbols by logical lane, uncorrectable codewords (R335). -/
def State.fecCounts (s : State) (p : Nat) (errs : List (Nat × Nat)) : State :=
  let fixed := errs.filter fun e => decide (cwErrors errs e.1 ≤ 15)
  let bad := badCodewords errs
  let s := (s.addPf p Reg.corrSymbols fixed.length).addPf p Reg.uncorrCw bad.length
  s.modPort p fun x =>
    { x with winCorr := fixed.foldl (fun w e => w.set e.2 (w.getD e.2 0 + 1)) x.winCorr, winUncorr := x.winUncorr + bad.length }

/-- FEC_FRAME_RECEIVED (R332 to R335, Table 10.4 step 6): `errs` are the symbol errors of the frame, by round and logical lane. Four
good frames in a row after LAST give FEC lock. -/
def execFecFrameReceived (port : Nat) (errs : List (Nat × Nat)) (s : State) : Host.Outcome State Fault Refusal :=
  run (portOk port && errs.all fun e => decide (e.1 < 272) && laneOk e.2) (fun s =>
    let x := s.port port
    let errs := s.frameErrors port errs
    let bad := badCodewords errs
    if linked (s.pst port) then
      let s := s.fecCounts port errs
      s.modPort port fun (x : Port) =>
        { x with fecCount := x.fecCount + 1
                 badCw := (x.badCw.filter fun e => decide (256 * x.flitCount < 2570 * (e.1 + 1))) ++ bad.map fun c => (x.fecCount, c) }
    else if x.train = 6 then
      let s := s.fecCounts port errs
      if !bad.isEmpty then s.modPort port fun (x : Port) => { x with fecGood := 0 }
      else if x.fecGood < 3 then s.modPort port fun (x : Port) => { x with fecGood := x.fecGood + 1 }
      else
        let full := s.pst port == PS.train
        let s := s.modPort port fun (x : Port) =>
          { x with train := 0, fecGood := 0, stream := [], lastOut := false, fecCount := 0, flitCount := 0, badCw := [], failed := if full then 0 else x.failed }
        s.portEnter port PS.init
    else s) s

/-- Corrected symbols of a lane in 1 local ms beyond which it is found bad: 1 in 10^4 of 22.4 million (R326, R333, R348). -/
def laneLimit : Nat := 2240

/-- ERROR_RATE_WINDOW (R348): the end of a 1 ms window; lanes beyond the limit enter FAILED. -/
def execErrorRateWindow (port : Nat) (s : State) : Host.Outcome State Fault Refusal :=
  run (portOk port) (fun s =>
    let x := s.port port
    let lanes := (List.range 16).filter fun l => decide (laneLimit < x.winCorr.getD l 0)
    let s := s.setPort port { x with winCorr := List.replicate 16 0, winUncorr := 0 }
    if !linked (s.pst port) then s
    else
      let s := s.setPf port Reg.failedLocal (lanes.foldl (fun m l => m ||| 2 ^ l) (s.pf port Reg.failedLocal))
      if !lanes.isEmpty ∨ 8 ≤ x.winUncorr then s.enterRetrain port else s) s

/-- LANE_SIGNAL_LOSS (R348): a logical lane loses signal. -/
def execLaneSignalLoss (port lane : Nat) (s : State) : Host.Outcome State Fault Refusal :=
  run (portOk port && laneOk lane) (fun s =>
    if linked (s.pst port) then
      (s.setPf port Reg.failedLocal (s.pf port Reg.failedLocal ||| 2 ^ lane)).enterRetrain port
    else s) s

/-! ### Flits (R336 to R347) -/

/-- FLIT_TRANSMIT (R346): one flit boundary. -/
def execFlitTransmit (port : Nat) (s : State) : Host.Outcome State Fault Refusal :=
  run (portOk port) (fun s => s.transmit port) s

/-- DATA_FLIT_RECEIVED (R341). `late`: 10 local µs have passed since NAK was last set (R342). -/
def execDataFlitReceived (port : Nat) (flit : List Byte) (late : Bool) (s : State) : Host.Outcome State Fault Refusal :=
  run (portOk port) (fun s => s.receive port 1 flit late fun s => s.acceptData port flit late) s

/-- IDLE_FLIT_RECEIVED (R337): only the fields that every flit carries count. -/
def execIdleFlitReceived (port : Nat) (flit : List Byte) (late : Bool) (s : State) : Host.Outcome State Fault Refusal :=
  run (portOk port) (fun s => s.receive port 0 flit late fun s => s.flowPart port) s

/-- INIT_FLIT_SEND (R347). -/
def execInitFlitSend (port : Nat) (s : State) : Host.Outcome State Fault Refusal :=
  run (portOk port) (fun s =>
    if s.pst port ≠ PS.init then s
    else
      let x := s.port port
      let s := s.sendFlit port 2 x.txSeq 0 (x.initPayload (s.heldOut port))
      (s.modPort port fun (x : Port) => { x with initSeenTx := x.initSeenTx || x.initRx }).initDone port) s

/-- A valid INIT payload (Table 10.8): RESUME, NEXT_RX, REPLAY and the grants. -/
def State.acceptInit (s : State) (p : Nat) (flit : List Byte) : State :=
  let b := flit.drop 8
  if s.pst p ≠ PS.init ∨ 1 < fieldLE b 0 1 then s
  else
    let f := fieldLE b 2 1
    let s := s.modPort p fun x =>
      { x with initRx := true, initSeenRx := x.initSeenRx || bitAt 0 f
               initIn := [bits 1 1 f, fieldLE b 4 2, fieldLE b 6 2] ++ (List.range 6).map fun v => fieldLE b (8 + 2 * v) 2 }
    s.initDone p

/-- INIT_FLIT_RECEIVED (R347). -/
def execInitFlitReceived (port : Nat) (flit : List Byte) (late : Bool) (s : State) : Host.Outcome State Fault Refusal :=
  run (portOk port) (fun s => s.receive port 2 flit late fun s => s.acceptInit port flit) s

/-- INIT_TIMEOUT (R347): link initialisation did not complete within 1 local ms. -/
def execInitTimeout (port : Nat) (s : State) : Host.Outcome State Fault Refusal :=
  run (portOk port) (fun s => if s.pst port = PS.init then s.enterRetrain port else s) s

/-- LINK_FLIT_RECEIVED (R348, R350): RETRAIN with the sender's FAILED mask; DOWN announces what loss of FEC lock will show. -/
def execLinkFlitReceived (port : Nat) (flit : List Byte) (late : Bool) (s : State) : Host.Outcome State Fault Refusal :=
  run (portOk port) (fun s =>
    s.receive port 3 flit late fun s =>
      let b := flit.drop 8
      if fieldLE b 0 1 ≤ 1 ∧ fieldLE b 2 1 = 1 then (s.setPf port Reg.failedRemote (fieldLE b 4 2)).enterRetrain port else s) s

/-- REPLAY_TIMEOUT (R343): ACK has not advanced for 20 local µs. -/
def execReplayTimeout (port : Nat) (s : State) : Host.Outcome State Fault Refusal :=
  run (portOk port) (fun s =>
    match (if linked (s.pst port) then (s.port port).replay.head? else none) with
    | some (q, _) => s.replayFrom port q
    | none => s) s

/-! ### The port's control registers (R371, R401) -/

/-- PORT_CTRL takes 1: from OFF or DOWN the port goes to DETECT, unless its unit is out of service or this device has failed
(R371, R443, R534). -/
def State.portEnableOp (s : State) (p : Nat) : State :=
  let s := s.setPf p Reg.portEnable 1
  let u := s.unitRaw (UId.port p)
  if (s.pst p = PS.off ∨ s.pst p = PS.down) ∧ (u = US.idle ∨ u = US.active) ∧ !s.fov.dead then s.restartTraining p PS.detect else s

/-- PORT_CTRL takes 0: the port goes to OFF (R371, R447); a FAILED neighbour's status is NONE then, and its hash is forgotten
(Table 10.16). -/
def State.portDisableOp (s : State) (p : Nat) : State :=
  let s := s.setPf p Reg.portEnable 0
  if s.pst p = PS.off then s
  else
    let s := s.portStop p PS.off 5
    if s.pf p Reg.portNeighbour = 3 then (s.setPf p Reg.portNeighbour 0).modPort p fun x => { x with hash := none } else s

/-- PORT_ENABLE (R371). -/
def execPortEnable (port : Nat) (s : State) : Host.Outcome State Fault Refusal :=
  run (portOk port) (fun s => s.hostWrite (0x100008 + 0x10000 * port) fun s => s.portEnableOp port) s

/-- PORT_DISABLE (R371). -/
def execPortDisable (port : Nat) (s : State) : Host.Outcome State Fault Refusal :=
  run (portOk port) (fun s => s.hostWrite (0x100008 + 0x10000 * port) fun s => s.portDisableOp port) s

/-- PORT_FULL_TRAIN (R401). -/
def execPortFullTrain (port : Nat) (s : State) : Host.Outcome State Fault Refusal :=
  run (portOk port) (fun s => s.hostWrite (0x10000C + 0x10000 * port) fun s => s.fullTrain port) s

/-- PORT_RETRAIN (R401). -/
def execPortRetrain (port : Nat) (s : State) : Host.Outcome State Fault Refusal :=
  run (portOk port) (fun s => s.hostWrite (0x10000C + 0x10000 * port) fun s => s.enterRetrain port) s

/-! ### HELLO (R361 to R363) -/

/-- The oldest whole message that waits on a port's channel, if it is of this opcode. -/
def State.waitingMsg (s : State) (p vc opcode : Nat) (resp : Bool) : Option Msg :=
  match (s.port p).inbox.find? fun m => m.vc == vc && !m.apart with
  | some m =>
    let t := txnOf m.bytes
    if t.opcode = opcode ∧ t.resp = resp then some m else none
  | none => none

/-- A message leaves its port's inbox and frees its slots. -/
def State.takeMsg (s : State) (p vc : Nat) (m : Msg) : State :=
  (s.modPort p fun x => { x with inbox := x.inbox.erase m }).freeSlots p vc m.flits

/-- HELLO_SEND (R362). -/
def execHelloSend (port : Nat) (s : State) : Host.Outcome State Fault Refusal :=
  run (portOk port) (fun s => if s.pst port = PS.hello then s.sendHello port else s) s

/-- What a HELLO says, into the PEER registers (Table 10.13, Table 11.5). -/
def State.peerRegs (s : State) (p : Nat) (b : List Byte) : State :=
  let s := (s.setPf p Reg.peerCoord (fieldLE b 8 3)).setPf p Reg.peerRole (fieldLE b 7 1)
  let s := s.setPf p Reg.peerCast (fieldLE b 12 4)
  let ver := fieldLE b 2 1 * 2 ^ 24 + fieldLE b 3 1 * 2 ^ 16 + bits 2 0 (fieldLE b 6 1) * 2 ^ 12 + bits 3 0 (fieldLE b 4 1) * 2 ^ 8
    + fieldLE b 5 1
  let s := s.wrPort p Reg.peerVersion ver
  let s := (s.setPf p Reg.peerFw (fieldLE b 16 4)).setPf p Reg.peerSerial (fieldLE b 20 8)
  s.setPf p Reg.peerFd (fieldLE b 28 6)

/-- HELLO_RECEIVED (R362): the oldest message of VC 4 is a HELLO. In HELLO the checks wait for this side's own HELLO to be
acknowledged; in the states past it they are applied at once. -/
def execHelloReceived (port : Nat) (s : State) : Host.Outcome State Fault Refusal :=
  run (portOk port) (fun s =>
    match s.waitingMsg port 4 opHello false with
    | none => s
    | some m =>
      let s := s.takeMsg port 4 m
      let b := m.body
      if b.length < 64 ∨ fieldLE b 0 1 ≠ 1 then s.rejectTxn port tsMalformed (txnOf m.bytes).tag
      else
        let s := (s.peerRegs port b).modPort port fun (x : Port) => { x with helloIn := true }
        let st := s.pst port
        if st = PS.hello then (if (s.port port).helloAcked then s.helloDecide port else s)
        else if PS.up ≤ st ∧ st ≤ PS.quarantine then s.helloDecide port
        else s) s

/-- QUARANTINE_HELLO (R363). -/
def execQuarantineHello (port : Nat) (s : State) : Host.Outcome State Fault Refusal :=
  run (portOk port) (fun s => if s.pst port = PS.quarantine then s.sendHello port else s) s

/-- HELLO_EXCHANGE_TIMEOUT (R362): the manual gives no consequence; the port stays in HELLO and goes on sending HELLOs (log entry
110). -/
def execHelloExchangeTimeout (port : Nat) (s : State) : Host.Outcome State Fault Refusal :=
  run (portOk port) (fun s => if s.pst port = PS.hello then s.sendHello port else s) s

/-! ### PULSE (R364, R365) -/

/-- PULSE_SEND (R364). -/
def execPulseSend (port : Nat) (s : State) : Host.Outcome State Fault Refusal :=
  run (portOk port) (fun s =>
    let st := s.pst port
    if st = PS.up ∨ st = PS.boundary ∨ st = PS.standby then
      let n := ((s.port port).pulseTx + 1) % 65536
      let s := s.modPort port fun (x : Port) => { x with pulseTx := n }
      let epoch := if s.runningSlot.isSome then s.openEpoch else 0
      let (tag, s) := s.newTag port
      s.sendMsg port 4 { s.txn opPulse noCoord with bytes := 32, tag := tag, epoch := epoch } (s.pulseBody n)
    else s) s

/-- A PULSE on a port in UP: a SUSPECT neighbour is ALIVE again, its query is over, and a QUERY about it is answered (Table 10.16,
R398). -/
def State.alive (s : State) (p seq : Nat) : State :=
  let s := s.modPort p fun x => { x with pulseRx := some seq, missed := 0 }
  if s.pst p ≠ PS.up then s
  else
    let s := if s.pf p Reg.portNeighbour = 2 then
        ({ s with fabric := { s.fabric with queries := s.fabric.queries.filter (fun q => q.port != p)
                                            faulted := s.fabric.faulted.filter (· != p) } }).setPf p Reg.portNeighbour 1
      else s
    s.report p seq

/-- PULSE_RECEIVED (R365): the oldest message of VC 4 is a PULSE. -/
def execPulseReceived (port : Nat) (s : State) : Host.Outcome State Fault Refusal :=
  run (portOk port) (fun s =>
    match s.waitingMsg port 4 opPulse false with
    | none => s
    | some m =>
      let s := s.takeMsg port 4 m
      let b := m.body
      if b.length < 32 ∨ fieldLE b 0 1 ≠ 1 then s.rejectTxn port tsMalformed (txnOf m.bytes).tag else s.alive port (fieldLE b 4 2)) s

/-- MISSED_PULSE (R365): 60 local µs without a PULSE, whatever the neighbour's status; the fourth in a row makes one that is ALIVE
SUSPECT. -/
def execMissedPulse (port : Nat) (s : State) : Host.Outcome State Fault Refusal :=
  run (portOk port) (fun s =>
    let n := (s.port port).missed + 1
    let s := (s.modPort port fun (x : Port) => { x with missed := n, pulseRx := if 4 ≤ n then none else x.pulseRx }).addPf port
      Reg.missedPulses 1
    if 4 ≤ n then s.suspect port else s) s

/-- NEIGHBOUR_SUSPECT (R365, R398): four missed pulses in a row stand against an ALIVE neighbour. -/
def execNeighbourSuspect (port : Nat) (s : State) : Host.Outcome State Fault Refusal :=
  run (portOk port) (fun s => if 4 ≤ (s.port port).missed then s.suspect port else s) s

end Sys2Proof.Machine
end

