-- ==== Sys2Proof/Machine/Txn.lean ====
section
/-!
DEFINITION. Transactions that arrive (R352 to R360, R379 to R385): epoch rules, open windows, PUT, GET and their answers, ADDs,
collective chunks, fences and forwarding. Each command takes the oldest message of its virtual channel.
-/
namespace Sys2Proof.Machine

open Sys2Proof

/-- Numbers of virtual channels. -/
def vcOk (vc : Nat) : Bool := decide (vc < 6)

/-- A message leaves the inbox and its slots are freed (R344). -/
def State.consume (s : State) (p : Nat) (m : Msg) : State :=
  (s.modPort p fun x => { x with inbox := x.inbox.erase m }).freeSlots p m.vc m.flits

/-- A message waits apart for its epoch; it keeps its slots (R358). -/
def State.holdApart (s : State) (p : Nat) (m : Msg) : State :=
  s.modPort p fun x => { x with inbox := x.inbox.map fun (y : Msg) => if y = m then { m with apart := true } else y }

/-- A message is for this device, not for one it forwards to (R380). -/
def State.mine (s : State) (m : Msg) : Bool := !s.forwards m.vc (txnOf m.bytes).dst

/-- The oldest message of a VC that is not held apart. -/
def Port.front (x : Port) (vc : Nat) : Option Msg := x.inbox.find? fun m => m.vc == vc && !m.apart

/-- A STALE message is discarded and counted; a GET is answered so (R358). -/
def State.staleMsg (s : State) (p : Nat) (m : Msg) : State :=
  let t := txnOf m.bytes
  let s := (s.consume p m).addPf p Reg.stale 1
  if t.opcode = opGet then s.answerGet p m.vc t tsStale [] else s

/-- The oldest request of a VC, if it has the opcode and is for this device, under the epoch rules: `go` applies it. -/
def State.withTxn (s : State) (p vc opcode : Nat) (go : Msg → Txn → State) : State :=
  match (s.port p).front vc with
  | none => s
  | some m =>
    let t := txnOf m.bytes
    if t.opcode ≠ opcode ∨ t.resp ∨ !s.mine m then s
    else if t.bound vc then
      match s.epochRule t.epoch with
      | 0 => go m t
      | 1 => s.holdApart p m
      | _ => s.staleMsg p m
    else go m t

/-! ### Open windows (R381, R402, R457) -/

/-- Permission of R402 that an access needs, and what the mirror and parity regions and a donor's slot P give besides. -/
def State.windowOpen (s : State) (vc : Nat) (t : Txn) (n perm : Nat) : Bool :=
  let within := fun (base size : Nat) => decide (0 < size) && decide (base ≤ t.arg) && decide (t.arg + n ≤ base + size)
  let c := s.ckp
  (s.fabric.windows.any fun w => within w.1 w.2.1 && bitAt perm w.2.2.1)
    || (perm < 2 && vc == 2 && s.isMember t.src && c.job.isSome
        && (within c.mirrorBase c.mirrorSize || within c.parityBase c.paritySize))
    || (perm == 1 && vc == 2 && s.donating && (s.fov.failed.any fun f => f.1 == t.src) && within (c.slotAt s.pSlot) c.slotSize)

/-- The exponent recorded for the window of an I32 ATOMIC_ADD (R355). -/
def State.windowExp (s : State) (a n : Nat) : Option Int :=
  (s.fabric.windows.find? fun w => bitAt 2 w.2.2.1 && decide (w.1 ≤ a) && decide (a + n ≤ w.1 + w.2.1)).map (·.2.2.2)

/-- The transaction status for the status of a refused access (Table 10.11; log entry 111). -/
def tsOf (st : Nat) : Nat :=
  if st = 0 then tsOk
  else if st = St.denied ∨ st = St.off then tsDenied
  else if st = St.uncorrectable ∨ st = St.unwritten then tsUncorrectable
  else if st = St.version then tsMalformed
  else tsAddress

/-- Cut [a, a + n) at 2,048-byte boundaries: offset and length of each request (R355). -/
def pieces2k (a n : Nat) : List (Nat × Nat) :=
  (unitsOf 2048 a n).map fun u =>
    let lo := max a u
    (lo - a, min (a + n) (u + 2048) - lo)

/-- A port working for the job that runs. -/
def State.portRq (s : State) (p : Nat) : Requester := ⟨4, p, s.runningSlot⟩

/-! ### Mirror traffic at the holder (R418 to R420) -/

/-- Open an object of mirror traffic (R231). -/
def State.openMirror (s : State) (body : List Byte) : Option (List Byte) × State :=
  let seed := match s.ckp.job.bind s.job with
    | some j => j.seed
    | none => []
  s.openObject 2 seed body

/-- Bytes of the mirror journal in use: each piece takes whole 4 KiB (R418). -/
def State.journalUsed (s : State) : Nat := (s.ckp.journal.map fun e => ceilDiv e.2.2 4096 * 4096).foldl (· + ·) 0

/-- Device address of the journal's first free byte: above the header's 64 MiB and the first slot. -/
def State.journalAt (s : State) : Nat := s.ckp.mirrorBase + 2 ^ 26 + mirrorCap s.ckp.mirrorSize + s.journalUsed

/-- Mark the 4 KiB blocks of the bases that a piece of the journal covers in the dirty bitmaps: one bit for each block from 64 MiB on, the first
in bit 0 (R418; DESIGN CHOICE, log entry 135). -/
def State.markBitmap (s : State) (a n : Nat) : State :=
  let base := s.ckp.mirrorBase
  (unitsOf 4096 (a - (base + 2 ^ 26)) n).foldl (fun (s : State) u =>
    let b := u / 4096
    let at' := base + bitmapOff + b / 8
    if b / 8 < bitmapLen then s.ownNum at' 1 (setBits (b % 8) (b % 8) 1 (s.num at' 1)) else s) s

/-- A piece of the mirror source's items for address a, kept until its slot is sealed: in the place of the same piece sent before (Table
12.7), else at the journal's end (R418). -/
def State.putJournal (s : State) (a : Nat) (plain : List Byte) : Nat × State :=
  let old := s.ckp.journal.find? fun e => e.1 == a && e.2.2 == plain.length
  if old.isNone ∧ mirrorCap s.ckp.mirrorSize < s.journalUsed + plain.length then (tsAddress, s)
  else
    let at' := (old.map (·.2.1)).getD s.journalAt
    match s.devWrite (.manager none) at' plain with
    | (0, t) =>
      let t := if old.isSome then t else { t with ckp := { t.ckp with journal := t.ckp.journal ++ [(a, at', plain.length)] } }
      (tsOk, t.markBitmap a plain.length)
    | (st, t) => (tsOf st, t)

/-- A PUT into the mirror region: a base's block goes to the journal, the book to its pending place, a witness record to its
ring; anything else as it is. Status and state. -/
def State.putMirror (s : State) (p a : Nat) (body : List Byte) : Nat × State :=
  let off := a - s.ckp.mirrorBase
  if off = 2 ^ 24 ∨ 2 ^ 26 ≤ off then
    match s.openMirror body with
    | (none, s) => (tsUncorrectable, s)
    | (some plain, s) =>
      if off = 2 ^ 24 then
        let (st, s) := s.devWrite (.manager none) a plain
        (tsOf st, s)
      else
        s.putJournal a plain
  else
    let (st, s) := s.devWrite (s.portRq p) a body
    (tsOf st, s)

/-- A PUT's bytes, one request for each aligned 2,048 of them; the first refusal ends it (R355). -/
def State.putData (s : State) (p a : Nat) (body : List Byte) : Nat × State :=
  let c := s.ckp
  if c.job.isSome ∧ 0 < c.mirrorSize ∧ c.mirrorBase ≤ a ∧ a < c.mirrorBase + c.mirrorSize then s.putMirror p a body
  else
    let (st, s) := s.devWrites (s.portRq p) ((pieces2k a body.length).map fun e => (a + e.1, (body.drop e.1).take e.2))
    (tsOf st, s)

/-- TXN_PUT (R355, R381). -/
def execTxnPut (port vc : Nat) (s : State) : Host.Outcome State Fault Refusal :=
  run (portOk port && vcOk vc) (fun s =>
    s.withTxn port vc opPut fun m t =>
      let s := s.consume port m
      if !s.windowOpen vc t t.bytes 0 then s.rejectTxn port tsDenied t.tag
      else
        match s.putData port t.arg m.body with
        | (0, s) => s
        | (st, s) => s.rejectTxn port st t.tag) s

/-- Read what a GET asks for, one request for each aligned 2,048 bytes. -/
def State.getData (s : State) (rq : Requester) (a : Nat) : List (Nat × Nat) → Nat × List Byte × State
  | [] => (0, [], s)
  | e :: es =>
    match s.devRead rq (a + e.1) e.2 with
    | (0, bs, s) =>
      let (st, rest, s) := s.getData rq a es
      (st, bs ++ rest, s)
    | (st, _, s) => (st, [], s)

/-- TXN_GET (R355, R381): the request is answered on its VC, with its data or a status. -/
def execTxnGet (port vc : Nat) (s : State) : Host.Outcome State Fault Refusal :=
  run (portOk port && vcOk vc) (fun s =>
    s.withTxn port vc opGet fun m t =>
      let s := s.consume port m
      if !s.windowOpen vc t t.bytes 1 then (s.rejectTxn port tsDenied t.tag).answerGet port vc t tsDenied []
      else
        let rq := if s.fabric.windows.any fun w => decide (w.1 ≤ t.arg) && decide (t.arg < w.1 + w.2.1) then s.portRq port
                  else Requester.manager none
        match s.getData rq t.arg (pieces2k t.arg t.bytes) with
        | (0, bs, s) => s.answerGet port vc t tsOk bs
        | (st, _, s) => (s.rejectTxn port (tsOf st) t.tag).answerGet port vc t (tsOf st) []) s

/-- The request that a response answers: on its own port first, then on any other (R358). -/
def State.requestOf (s : State) (p opcode tag : Nat) : Option (Nat × Outstanding) :=
  (p :: List.range 6).findSome? fun q =>
    ((s.port q).outstanding.find? fun o => o.opcode == opcode && o.tag == tag).map fun o => (q, o)

/-- A request is answered and forgotten. -/
def State.forget (s : State) (q : Nat) (o : Outstanding) : State :=
  s.modPort q fun x => { x with outstanding := x.outstanding.erase o }

/-- TXN_GET_RESPONSE (R358): data goes to its requester by TAG; without one it is discarded. -/
def execTxnGetResponse (port vc : Nat) (s : State) : Host.Outcome State Fault Refusal :=
  run (portOk port && vcOk vc) (fun s =>
    match (s.port port).front vc with
    | none => s
    | some m =>
      let t := txnOf m.bytes
      if t.opcode ≠ opGet ∨ !t.resp ∨ !s.mine m then s
      else
        let s := s.consume port m
        match s.requestOf port opGet t.tag with
        | none => s
        | some (q, o) =>
          let s := s.forget q o
          if o.use = 0 then
            let (st, s) := if t.status = tsOk then s.devWrite (.manager s.runningSlot) o.dst m.body else (St.torusError, s)
            o.ops.foldl (fun s i => s.opAck i st) s
          else s.fillAnswer o t.status m.body) s

/-! ### ATOMIC_ADD (R355) -/

/-- Saturating I32 adds at an address, one indivisible request for each aligned 2,048 bytes: status, saturation, state. -/
def State.addI32s (s : State) (rq : Requester) (a : Nat) (body : List Byte) : List (Nat × Nat) → Nat × Bool × State
  | [] => (0, false, s)
  | e :: es =>
    match s.atomicOpen (a + e.1) e.2 4 with
    | 0 =>
      (match s.accessRead rq (a + e.1) e.2 true [] with
       | (0, old, s) =>
         let n := e.2 / 4
         let sums := ((leWords 4 n old).zip (leWords 4 n (body.drop e.1))).map fun w => satSum 32 (sext 32 w.1) (sext 32 w.2)
         let sat := sums.any (·.2)
         let s := (s.storeBytes (a + e.1) (sums.flatMap fun x => leBytes 4 (twos 32 x.1))).countAtomic (a + e.1) sat
         let (st, more, s) := s.addI32s rq a body es
         (st, sat || more, s)
       | (st, _, s) => (st, false, s))
    | st => (st, false, s)

/-- TXN_ATOMIC_ADD_I32 (R355): EXP must be the window's. A saturation is reported as status SAT. -/
def execTxnAtomicAddI32 (port : Nat) (s : State) : Host.Outcome State Fault Refusal :=
  run (portOk port) (fun s =>
    s.withTxn port 1 opAtomic fun m t =>
      if t.a64 then s
      else
        let s := s.consume port m
        if !s.windowOpen 1 t t.bytes 2 then s.rejectTxn port tsDenied t.tag
        else if t.arg % 4 ≠ 0 ∨ t.bytes % 4 ≠ 0 then s.rejectTxn port tsAddress t.tag
        else if s.windowExp t.arg t.bytes ≠ some (sext 16 t.exp) then s.rejectTxn port tsExp t.tag
        else
          match s.addI32s (s.portRq port) t.arg m.body (pieces2k t.arg t.bytes) with
          | (0, sat, s) => if sat then s.countError port tsSat t.tag 1 else s
          | (st, _, s) => s.rejectTxn port (tsOf st) t.tag) s

/-- TXN_ATOMIC_ADD_A64 (R355, R159): one row add with the header merged. -/
def execTxnAtomicAddA64 (port : Nat) (s : State) : Host.Outcome State Fault Refusal :=
  run (portOk port) (fun s =>
    s.withTxn port 1 opAtomic fun m t =>
      if !t.a64 then s
      else
        let s := s.consume port m
        let a := t.arg + 64 + 8 * t.offset
        if !s.windowOpen 1 t (64 + 8 * t.offset + t.bytes) 3 then s.rejectTxn port tsDenied t.tag
        else if t.bytes % 8 ≠ 0 ∨ t.bytes = 0 ∨ 2048 < t.bytes then s.rejectTxn port tsMalformed t.tag
        else
          let info : RowInfo :=
            { et := sext 16 t.exp, ovf := bitAt 0 t.aflags, nv := bitAt 1 t.aflags, bound := bitAt 2 t.aflags
              retries := t.retries, lost := t.lost }
          match s.addRow (s.portRq port) (some t.arg) a info ((leWords 8 (t.bytes / 8) m.body).map (sext 64 ·)) true t.src [] with
          | (0, sat, s) => if sat then s.countError port tsSat t.tag 1 else s
          | (st, _, s) => s.rejectTxn port (tsOf st) t.tag) s

/-! ### SEND and collective chunks (R383 to R388) -/

/-- Deliver a SEND to its operation (R384). -/
def State.deliver (s : State) (p : Nat) (t : Txn) (slot i : Nat) (o : OpSlot) (at' : Nat) (data : List Byte) (total : Nat) : State :=
  match s.devWrite ⟨4, p, some slot⟩ at' data with
  | (0, s) =>
    let n := o.rows + data.length
    let s : State := { s with ops := SMap.put s.ops i { o with rows := n } }
    if total ≤ n then s.opAck i 0 else s
  | (st, s) => (s.rejectTxn p (tsOf st) t.tag).opAbortAt i st at'

/-- TXN_SEND (R383, R384): delivered to its channel's slot, or left waiting until its RECV has issued, or rejected. -/
def execTxnSend (port vc : Nat) (s : State) : Host.Outcome State Fault Refusal :=
  run (portOk port && vcOk vc) (fun s =>
    s.withTxn port vc opSend fun m t =>
      let reject := fun (s : State) => (s.consume port m).rejectTxn port tsMalformed t.tag
      let channel := t.arg % 2 ^ 24
      let b := m.body
      let mb := fieldLE b 2 1
      let off := fieldLE b 4 5
      let data := b.drop 16
      match s.epochSlot.bind fun slot => (s.job slot).bind fun j => (j.coll[channel]?).map fun d => (slot, j, collOf d) with
      | none => reject s
      | some (slot, j, d) =>
        if d.kind ≠ 7 ∨ b.length < 16 ∨ formStatus b ≠ 0 ∨ fieldLE b 3 1 ≠ 0 ∨ (b.drop 9).take 7 ≠ List.replicate 7 0
            ∨ d.bytes < off + data.length then reject s
        else
          match s.recvOp channel mb (if vc = 0 then t.epoch else s.openEpoch), j.tensor d.outRef with
          | some (i, o), some out =>
            (s.consume port m).deliver port t slot i o (out.base + mb % max 1 d.depth * d.bytes + off) data d.bytes
          | _, _ => s) s

/-- A COLLECTIVE_STEP names a descriptor of the job or one of the device's own (R385, R393). -/
def State.knownIndex (s : State) (index : Nat) : Bool :=
  0xFFFFF0 ≤ index || (List.range 4).any fun slot => match s.job slot with
    | some j => decide (index < j.coll.length)
    | none => false

/-- Take one chunk: its epoch may hold it apart or make it stale; none if no collective awaits it yet. The values of the device's own
exchanges come with the commands that end them (R392, R393), so their chunks are taken as they come. -/
def State.takeChunk (s : State) (port : Nat) (m : Msg) : Option State :=
  let t := txnOf m.bytes
  let index := t.arg % 2 ^ 24
  match s.epochRule t.epoch with
  | 1 => some (s.holdApart port m)
  | 2 => some (s.staleMsg port m)
  | _ =>
    if !s.knownIndex index then some ((s.consume port m).rejectTxn port tsMalformed t.tag)
    else if 0xFFFFF0 ≤ index ∧ index < 0xFFFFF9 then some (s.consume port m)
    else (s.consume port m).applyStep port t m.body

/-- TXN_COLLECTIVE_STEP (R356, R358, R385, R388): the oldest message of VC 1 is a chunk, and is handed to the collective that awaits it;
one that none awaits yet keeps its place. -/
def execTxnCollectiveStep (port : Nat) (s : State) : Host.Outcome State Fault Refusal :=
  run (portOk port) (fun s =>
    match (s.port port).front 1 with
    | some m => if (txnOf m.bytes).opcode = opStep ∧ !(txnOf m.bytes).resp then (s.takeChunk port m).getD s else s
    | none => s) s

/-! ### Fences (R356, R357, R380) -/

/-- The fence report (R357). -/
def Port.report (x : Port) : List Byte :=
  leBytes 1 1 ++ leBytes 1 2 ++ leBytes 1 x.firstStatus ++ leBytes 1 0 ++ leBytes 2 x.firstTag ++ leBytes 2 0
    ++ leBytes 4 x.errors ++ leBytes 4 0

/-- Send the FENCEs that cover what a port's transactions were forwarded through (R380). -/
def State.coverForwards (s : State) (p : Nat) : State :=
  let open' := ((s.port p).fwd.filter fun f => f.2.isNone).map (·.1)
  open'.eraseDups.foldl (fun s q =>
    let tag := (s.port q).nextTag
    let s := s.sendFence q [] 3
    let s := s.modPort q fun x =>
      { x with outstanding := x.outstanding.map fun (o : Outstanding) => if o.tag = tag ∧ o.use = 3 then { o with dst := p } else o }
    s.modPort p fun x => { x with fwd := x.fwd.map fun f => if f = (q, none) then (q, some tag) else f }) s

/-- TXN_FENCE (R356, R380): answered once everything the port received before it is applied and everything it forwarded is
covered. -/
def execTxnFence (port : Nat) (s : State) : Host.Outcome State Fault Refusal :=
  run (portOk port) (fun s =>
    match (s.port port).inbox.head? with
    | none => s
    | some m =>
      let t := txnOf m.bytes
      if t.opcode ≠ opFence ∨ t.resp then s
      else if !(s.port port).fwd.isEmpty then s.coverForwards port
      else
        let body := (s.port port).report
        let s := (s.consume port m).modPort port fun (x : Port) => { x with errors := 0, firstTag := 0, firstStatus := 0 }
        s.sendMsg port 3 { s.txn opFence t.src with resp := true, bytes := 16, tag := t.tag } body) s

/-- TXN_FENCE_RESPONSE (R357): covered operations complete, with TORUS_ERROR when ERRORS is nonzero. A report of an unknown version is a
malformed transaction, and the FENCE stays unanswered (R13). -/
def execTxnFenceResponse (port : Nat) (s : State) : Host.Outcome State Fault Refusal :=
  run (portOk port) (fun s =>
    match (s.port port).front 3 with
    | none => s
    | some m =>
      let t := txnOf m.bytes
      if t.opcode ≠ opFence ∨ !t.resp then s
      else if formStatus m.body ≠ 0 then (s.consume port m).rejectTxn port tsMalformed t.tag
      else
        let s := s.consume port m
        match (s.port port).outstanding.find? fun o => o.opcode == opFence && o.tag == t.tag with
        | none => s
        | some o =>
          let b := m.body
          let errors := fieldLE b 8 4
          let s := s.forget port o
          if o.use = 3 then s.covered port o.tag o.dst (fieldLE b 2 1) (fieldLE b 4 2) errors
          else if errors = 0 then o.ops.foldl (fun s i => s.opAck i 0) s
          else s.requestOver port o St.torusError) s

/-! ### Forwarding (R379, R380, R400) -/

/-- TXN_FORWARD (R380): the oldest message of a routed VC goes on, unchanged, on the port that dimension order names. Its flits keep their
input slots until the output port sends them. -/
def execTxnForward (port vc : Nat) (s : State) : Host.Outcome State Fault Refusal :=
  run (portOk port && vcOk vc) (fun s =>
    match (s.port port).front vc with
    | none => s
    | some m =>
      let t := txnOf m.bytes
      if !s.forwards vc t.dst then s
      else
        match (s.hopTo t.dst).filter fun q => s.pst q == PS.up && s.pf q Reg.portNeighbour != 3 with
        | none => (s.consume port m).rejectTxn port tsLinkDown t.tag
        | some q =>
            let pieces := cutMsg vc (m.bytes.length / 240 + 1) true m.bytes
            let kept := pieces.zipIdx.map fun e => (e.1.1, e.1.2.1, e.1.2.2.1, (if e.2 < m.flits then some port else none), e.1.2.2.2.2)
            let s := s.modPort port fun (x : Port) => { x with inbox := x.inbox.erase m }
            let s := s.modPort q fun (x : Port) => { x with outbox := x.outbox ++ kept }
            let s := s.addPf q Reg.forwarded (ceilDiv m.bytes.length 240)
            s.modPort port fun (x : Port) => if x.fwd.contains (q, none) then x else { x with fwd := x.fwd ++ [(q, none)] }) s

/-- TXN_TIMEOUT (R360): a GET or FENCE has had no answer in time; the neighbour is suspect. -/
def execTxnTimeout (port tag : Nat) (s : State) : Host.Outcome State Fault Refusal :=
  run (portOk port) (fun s =>
    match (s.port port).outstanding.find? fun o => o.tag == tag with
    | none => s
    | some o => ((s.forget port o).requestOver port o St.timeout).suspect port) s

end Sys2Proof.Machine
end

