-- ==== Sys2Proof/Machine/Notice.lean ====
section
/-!
DEFINITION. Notices and the cast (R315, R366 to R369, R376, R377, R398 to R400, R444 to R446): slow progress, cancelled epochs,
failed devices, their confirmation, and forming the cast.
-/
namespace Sys2Proof.Machine

open Sys2Proof

/-- The body of the oldest message of VC 3 if it is a NOTICE of a kind. -/
def State.noticeIn (s : State) (p kind : Nat) : Option (Msg × List Byte) :=
  match (s.port p).front 3 with
  | some m => if (txnOf m.bytes).opcode = opNotice ∧ fieldLE m.body 2 1 = kind then some (m, m.body) else none
  | none => none

/-- Take the oldest NOTICE of a kind on a port: a flooded one already seen is discarded; a new one is remembered, applied once
and forwarded unchanged (R368). One of another version is rejected, of version 0 too, which the manual does not speak of (R13; DESIGN
CHOICE, log entry 66). -/
def State.withNotice (s : State) (p kind : Nat) (go : State → List Byte → State) : State :=
  match s.noticeIn p kind with
  | none => s
  | some (m, b) =>
    let s := s.consume p m
    if fieldLE b 0 1 ≠ 1 then s.rejectTxn p tsMalformed (txnOf m.bytes).tag
    else if !bitAt 0 (fieldLE b 3 1) then go s b
    else
      let key := (fieldLE b 8 3, fieldLE b 4 2)
      if s.fabric.seen.contains key then s
      else
        let s : State := { s with fabric := { s.fabric with seen := (key :: s.fabric.seen).take 256 } }
        go (s.spread (some p) b) b

/-- NOTICE_SLOW (R315): the timeouts toward the sender are stretched. -/
def execNoticeSlow (port : Nat) (s : State) : Host.Outcome State Fault Refusal :=
  run (portOk port) (fun s => s.withNotice port nkSlow fun s _ => s.setPf port Reg.portSlowIn 1) s

/-- NOTICE_CLEAR (R315, R367). -/
def execNoticeClear (port : Nat) (s : State) : Host.Outcome State Fault Refusal :=
  run (portOk port) (fun s => s.withNotice port nkClear fun s _ => s.setPf port Reg.portSlowIn 0) s

/-- SLOW_STRETCH_EXPIRY (R315): 50 local ms have passed without a SLOW notice. -/
def execSlowStretchExpiry (port : Nat) (s : State) : Host.Outcome State Fault Refusal :=
  run (portOk port) (fun s => s.setPf port Reg.portSlowIn 0) s

/-- An epoch for which traffic is held apart on some port. -/
def State.holdsEpoch (s : State) (epoch : Nat) : Bool :=
  (List.range 6).any fun p => (s.port p).inbox.any fun m => m.apart && (txnOf m.bytes).epoch == epoch

/-- The attempt of the open epoch is abandoned, also one that has not opened here yet since the last COMMIT (R260, R369): it has no watch
of its own. -/
def State.cancelOpen (s : State) (slot cause : Nat) (j : Job) : State :=
  let s := if j.isOpen then s else
    s.setJob slot { j with isOpen := true, flagged := [], stormF := 0, rungs := [], curtainPassed := false }
  s.abandon slot cause

/-- What a CANCEL does (R369): the attempt of the open epoch is abandoned for its cause, or held traffic is discarded; in RECOVERY one that
names the recovery epoch leads to the export fallback (R446). -/
def State.cancel (s : State) (epoch cause : Nat) : State :=
  let named := (List.range 4).findSome? fun k => (s.job k).bind fun x =>
    if x.epoch == epoch && (x.isOpen || (!x.lapsed && s.jf k Reg.jobState == 3)) then some (k, x) else none
  if s.fov.recovery ∧ epoch = s.openEpoch then s.exportFallback
  else match named with
  | some (k, j) => if 1 ≤ cause ∧ cause ≤ Cause.shield then s.cancelOpen k cause j else s
  | none => if s.holdsEpoch epoch then s.dropApart (· == epoch) else s

/-- NOTICE_CANCEL (R369, R446). -/
def execNoticeCancel (port : Nat) (s : State) : Host.Outcome State Fault Refusal :=
  run (portOk port) (fun s => s.withNotice port nkCancel fun s b => s.cancel (fieldLE b 16 4) (fieldLE b 6 2)) s

/-- Ports that face a coordinate. -/
def State.portsTo (s : State) (c : Nat) : List Nat := (List.range 6).filter fun p => s.expected p == some c

/-- Queries about a device are over. -/
def State.dropQueries (s : State) (c : Nat) : State :=
  { s with fabric := { s.fabric with
      queries := s.fabric.queries.filter (fun q => q.subject != c), toReport := s.fabric.toReport.filter (· != c)
      faulted := s.fabric.faulted.filter fun p => s.expected p != some c } }

/-- A device of the installation has failed: ports that face it, and the failover of a member (R445, Table 10.16). -/
def State.deviceFailed (s : State) (c code : Nat) : State :=
  let s := (s.portsTo c).foldl (fun s p => s.neighbourFailed p) (s.dropQueries c)
  if s.isMember c ∧ s.fld Reg.castState ≠ 0 ∧ !s.fov.dead then s.memberFailed c code else s

/-- The originator decides that the neighbour of a port has failed (R399): FAILED is flooded and acted on here. -/
def State.declareNeighbour (s : State) (p c : Nat) : State :=
  let s := ((s.flood nkFailed Ev.neighbourFailed c 0 0).inc Reg.failedDeclared).event Ev.neighbourFailed (UId.port p) [c]
  if c = s.coord then s.declareFailed 0x7106 UId.stageManager else s.deviceFailed c Ev.neighbourFailed

/-- A query of this device's own about a subject. -/
def State.queryOn (s : State) (c : Nat) : Option Query := s.fabric.queries.find? fun q => q.subject == c

/-- NOTICE_SELF_FAILED (R367, R399, R445): a query about its origin is decided, and the members respond. -/
def execNoticeSelfFailed (port : Nat) (s : State) : Host.Outcome State Fault Refusal :=
  run (portOk port) (fun s => s.withNotice port nkSelfFailed fun s b =>
    let c := fieldLE b 8 3
    match s.queryOn c with
    | some q => s.declareNeighbour q.port c
    | none => s.deviceFailed c (fieldLE b 6 2)) s

/-- NOTICE_FAILED (R444, R445). -/
def execNoticeFailed (port : Nat) (s : State) : Host.Outcome State Fault Refusal :=
  run (portOk port) (fun s => s.withNotice port nkFailed fun s b =>
    let c := fieldLE b 12 3
    if c = s.coord then s.declareFailed 0x7106 UId.stageManager else s.deviceFailed c (fieldLE b 6 2)) s

/-- NOTICE_QUERY (R398): a device with a port facing the subject will answer once; at once with silence if that port already
takes the subject for SUSPECT or FAILED. -/
def execNoticeQuery (port : Nat) (s : State) : Host.Outcome State Fault Refusal :=
  run (portOk port) (fun s => s.withNotice port nkQuery fun s b =>
    let c := fieldLE b 12 3
    match (s.portsTo c).head? with
    | none => s
    | some p =>
      let s : State := { s with fabric := { s.fabric with toReport := s.fabric.toReport.filter (· != c) ++ [c] } }
      if 2 ≤ s.pf p Reg.portNeighbour then s.report p 0xFFFFFFFF else s) s

/-- NOTICE_REPORT (R399): silence from another device confirms the failure; liveness makes it a link fault, and the port starts a
full training. -/
def execNoticeReport (port : Nat) (s : State) : Host.Outcome State Fault Refusal :=
  run (portOk port) (fun s => s.withNotice port nkReport fun s b =>
    let c := fieldLE b 12 3
    match s.queryOn c with
    | none => s
    | some q =>
      if fieldLE b 20 4 = 0xFFFFFFFF then s.declareNeighbour q.port c
      else if q.alive then s
      else
        let s := (s.inc Reg.linkFaults).event Ev.linkFault (UId.port q.port) [c]
        let s : State := { s with fabric := { s.fabric with
          queries := s.fabric.queries.map (fun (x : Query) => if x = q then { x with alive := true } else x)
          faulted := s.fabric.faulted ++ [q.port] } }
        s.fullTrain q.port) s

/-- CONFIRM_TIMEOUT (R399): without a REPORT the neighbour has failed; after a link fault the port must be UP, or the device at
the + end of the link has failed. -/
def execConfirmTimeout (port : Nat) (s : State) : Host.Outcome State Fault Refusal :=
  run (portOk port) (fun s =>
    match s.fabric.queries.find? fun q => q.port == port with
    | none => s
    | some q =>
      if !q.alive then s.declareNeighbour port q.subject
      else if s.pst port = PS.up then s.dropQueries q.subject
      else
        let s := s.dropQueries q.subject
        s.declareNeighbour port (if portMinus port then s.coord else q.subject)) s

/-! ### Forming the cast (R376) -/

/-- Show which ports are in the cast. -/
def State.markInCast (s : State) : State := (List.range 6).foldl (fun s p => s.markPort p) s

/-- The check of R376 that the cast registers fail: 0 the id, 1 the extents, 2 membership; none if they hold. -/
def State.castFault (s : State) : Option Nat :=
  if s.fld Reg.castId = 0 then some 0
  else if (List.range 3).any fun a => s.castE a == 0 || decide (s.torusE a < s.castE a) then some 1
  else if !s.isMember s.coord then some 2
  else none

/-- CAST_ID, CAST_ORIGIN and CAST_EXTENT as they stand. -/
def State.castNow (s : State) : Nat × Nat × Nat := (s.fld Reg.castId, s.fld Reg.castOrigin, s.fld Reg.castExtent)

/-- FORM takes 1 (R376). -/
def State.formCast (s : State) : State :=
  match s.castFault with
  | some k => (s.setF Reg.castForm 0).event Ev.castNotFormed UId.stageManager [k]
  | none =>
    let s := { s with fabric := { s.fabric with formed := s.castNow, broken := [] } }
    (((s.setF Reg.castForm 1).setF Reg.castState 1).markInCast.helloAll).castRefresh

/-- FORM takes 0 (R376). -/
def State.dissolveCast (s : State) : State := ((s.setF Reg.castForm 0).setF Reg.castState 0).markInCast.helloAll

/-- CAST_CTRL as the host writes it: refused while a job slot is not IDLE (R376). -/
def State.castWrite (s : State) (v : Nat) (f : State → State) : State :=
  s.hostWrite 0x16001C fun s => if s.allIdle then f s else s.discardWrite 0x16001C v 3

/-- CAST_FORM (R376). -/
def execCastForm (s : State) : Host.Outcome State Fault Refusal := run true (fun s => s.castWrite 1 State.formCast) s

/-- CAST_DISSOLVE (R376). -/
def execCastDissolve (s : State) : Host.Outcome State Fault Refusal := run true (fun s => s.castWrite 0 State.dissolveCast) s

end Sys2Proof.Machine
end

