-- ==== Sys2Proof/Machine/Nor.lean ====
section
/-!
DEFINITION. The configuration memory (R494 to R504, R509 to R515): NVM header, images and their verification, the boot ledger,
the health record, and the keys derived from the fuses.
-/
namespace Sys2Proof.Machine

open Sys2Proof

/-! ### NOR (R494) -/

/-- One byte of the configuration memory; an erased byte reads 0xFF. -/
def State.norByte (s : State) (a : Nat) : Byte := SMap.get 0xFF s.sec.nor a

/-- n bytes of the configuration memory. -/
def State.norBytes (s : State) (a n : Nat) : List Byte := (List.range n).map fun i => s.norByte (a + i)

/-- Program bytes: a program clears bits only (R509). -/
def State.norProgram (s : State) (a : Nat) (bs : List Byte) : State :=
  let cells := (List.range bs.length).zip bs |>.map fun p => (a + p.1, s.norByte (a + p.1) &&& p.2)
  { s with sec := { s.sec with nor := SMap.setAll 0xFF s.sec.nor cells } }

/-- Erase n bytes. -/
def State.norErase (s : State) (a n : Nat) : State :=
  { s with sec := { s.sec with nor := s.sec.nor.filter fun e => !(decide (a ≤ e.1) && decide (e.1 < a + n)) } }

/-- Erase and program. -/
def State.norWrite (s : State) (a n : Nat) (bs : List Byte) : State := (s.norErase a n).norProgram a bs

/-- SHA3-512 over bytes. -/
def sha3 (bs : List Byte) : List Byte := toBytes (sha3_512 (natBytes bs))

/-! ### The NVM header (R495, R496) -/

/-- Copy k of the header is valid. -/
def State.headerOk (s : State) (k : Nat) : Bool :=
  let h := s.norBytes (4096 * k) 64
  decide (fieldLE h 0 1 ≤ 1) && h.drop 56 == (sha3 (h.take 56)).take 8

/-- The copy in use: the valid one with the higher PREF_SEQ. -/
def State.headerCopy (s : State) : Option Nat :=
  let seq := fun k => fieldLE (s.norBytes (4096 * k) 64) 4 4
  match s.headerOk 0, s.headerOk 1 with
  | true, true => some (if seq 0 < seq 1 then 1 else 0)
  | true, false => some 0
  | false, true => some 1
  | false, false => none

/-- PREFERRED and PREF_SEQ of the header in use. -/
def State.header (s : State) : Option (Nat × Nat) :=
  s.headerCopy.map fun k => let h := s.norBytes (4096 * k) 64; (bits 0 0 (fieldLE h 2 1), fieldLE h 4 4)

/-- Write a new header into the copy not in use. -/
def State.writeHeader (s : State) (preferred : Nat) : State :=
  match s.headerCopy, s.header with
  | some k, some (_, seq) =>
    let h := leBytes 1 1 ++ leBytes 1 8 ++ leBytes 2 preferred ++ leBytes 4 (seq + 1) ++ leBytes 48 0
    s.norWrite (4096 * (1 - k)) 4096 (h ++ (sha3 h).take 8)
  | _, _ => s

/-! ### Signatures (R498; log entry 5) -/

/-- A signature verifies under a public key over a message. -/
def Sec.verifies (x : Sec) (pk msg sig : List Byte) : Bool := x.sigs.contains (sha3 pk, msg, sig)

/-- Sign a message with the key pair of a seed. -/
def signWith (seed msg : List Byte) : List Byte :=
  (List.range 4627).map fun i => Config.mldsaSign (natBytes seed) (natBytes msg) i

/-- The public key of a seed. -/
def publicOf (seed : List Byte) : List Byte := (List.range 2592).map fun i => Config.mldsaPublic (natBytes seed) i

/-- Key slot n holds this hash and is not revoked. -/
def keyLive (slots : List (List Byte)) (revoked : Nat) (h : List Byte) : Bool :=
  (List.range 4).any fun n => slots.getD n [] == h && !h.isEmpty && !bitAt n revoked

/-- Bit n: slot n is enrolled and not revoked. -/
def liveMask (slots : List (List Byte)) (revoked : Nat) : Nat :=
  (List.range 4).foldl (fun m n => m + 2 ^ n * b2n (!(slots.getD n []).isEmpty && !bitAt n revoked)) 0

/-- Some owner slot is enrolled. -/
def Fuses.owned (f : Fuses) : Bool := f.ownerKeys.any fun k => !k.isEmpty

/-! ### Images (R497 to R502) -/

/-- What a verified image holds. -/
structure ImageInfo where
  fwBuild : Nat
  svn : Nat
  commitSvn : Bool
  dFw : List Byte
  dSet : List Byte
  settings : SMap (Nat × Nat)
  startSet : SMap Nat
  keys : List (Nat × List Byte)
  deriving DecidableEq, Repr

/-- Bits of the register at BAR0 offset `off` that are RWL. -/
def rwlMask (off : Nat) : Nat :=
  match findReg off bar0 with
  | some (r, o, _) =>
    if o = off then r.fields.foldl (fun m f => m ||| (if f.acc = .rwl then (2 ^ (f.hi + 1 - f.lo) - 1) <<< f.lo else 0)) 0 else 0
  | none => 0

/-- Every RWL field of a value lies within its range. -/
def rwlFits (off v : Nat) : Bool :=
  match findReg off bar0 with
  | some (r, o, _) => o == off && r.fields.all fun f =>
      f.acc != .rwl || (decide (f.min ≤ bits f.hi f.lo v) && decide (bits f.hi f.lo v ≤ f.max))
  | none => false

/-- v has no bit outside m. -/
def within (v m : Nat) : Bool := v &&& m == v

/-- A start setting takes this value (Table 15.5). -/
def startFits (i v : Nat) : Bool :=
  match i with
  | 0 => v == 8 || v == 10
  | 1 => decide (88 ≤ v) && decide (v ≤ 128)
  | 2 => [0, 1, 2, 4, 8].contains v
  | 3 => decide (v < 2 ^ 32)
  | 4 => decide (v ≤ 3)
  | 5 => decide (v ≤ 1)
  | _ => false

/-- Default of a start setting. -/
def startDefault (i : Nat) : Nat := [10, 128, 4, 0x48001F3D, 3, 0].getD i 0

/-- One setting entry is valid (R500). -/
def settingOk (e : List Byte) : Bool :=
  let off := fieldLE e 4 4
  let v := fieldLE e 8 8
  let adj := fieldLE e 16 8
  decide (fieldLE e 0 1 ≤ 1) && fieldLE e 3 1 == 0
    && match fieldLE e 2 1 with
       | 0 => let m := rwlMask off
              m != 0 && within v m && within adj m && rwlFits off v
       | 1 => startFits off v && adj == 0
       | _ => false

/-- k bytes of an image, read by offset. -/
def slice (img : Nat → Byte) (a n : Nat) : List Byte := (List.range n).map fun i => img (a + i)

/-- A little-endian field of an image. -/
def imgLE (img : Nat → Byte) (a n : Nat) : Nat := leNat (slice img a n)

/-- Header and section table are as Table 15.3 lays them out (R497). -/
def layoutOk (img : Nat → Byte) : Bool :=
  let n := imgLE img 10 2
  let fw := imgLE img 12 4
  let kinds := (List.range n).map fun i => imgLE img (64 + 16 * i) 1
  decide (imgLE img 0 1 ≤ 1) && imgLE img 2 1 == 2 && bits 7 1 (imgLE img 3 1) == 0
    && (slice img 16 48).all (· == 0) && decide (1 ≤ n) && decide (n ≤ 64) && fw % 8 == 0 && decide (64 + 16 * n ≤ fw)
    && [1, 2, 3, 4, 5].all (fun k => kinds.count k == 1) && kinds.all (fun k => decide (1 ≤ k) && decide (k ≤ 5))
    && (List.range n).all fun i =>
      let at' := 64 + 16 * i
      (slice img (at' + 1) 3).all (· == 0) && imgLE img (at' + 4) 4 % 8 == 0
        && decide (64 + 16 * n ≤ imgLE img (at' + 4) 4) && decide (imgLE img (at' + 4) 4 + imgLE img (at' + 8) 8 ≤ fw)

/-- The fixed part of a signature block of a kind (R498). -/
def blockOk (img : Nat → Byte) (a kind : Nat) : Bool :=
  imgLE img a 1 == 1 && imgLE img (a + 1) 1 == 2 && imgLE img (a + 2) 1 == kind && imgLE img (a + 4) 2 == 2592
    && imgLE img (a + 6) 2 == 4627

/-- Public key and signature of a block. -/
def blockKey (img : Nat → Byte) (a : Nat) : List Byte := slice img (a + 16) 2592
def blockSig (img : Nat → Byte) (a : Nat) : List Byte := slice img (a + 2608) 4627

/-- Bytes of a settings part. -/
def settingsLen (img : Nat → Byte) (a : Nat) : Nat := 16 + 24 * imgLE img (a + 4) 2 + 2600 * imgLE img (a + 6) 2

/-- A settings part is valid (R499, R500). -/
def settingsOk (img : Nat → Byte) (a : Nat) : Bool :=
  let n := imgLE img (a + 4) 2
  let k := imgLE img (a + 6) 2
  let ents := (List.range n).map fun i => slice img (a + 16 + 24 * i) 24
  let names := ents.map fun e => (fieldLE e 2 1, fieldLE e 4 4)
  let keyAt := fun i => a + 16 + 24 * n + 2600 * i
  let kinds := (List.range k).map fun i => imgLE img (keyAt i + 2) 1
  imgLE img a 1 == 1 && imgLE img (a + 1) 1 == 2 && decide (n ≤ 4096) && decide (k ≤ 16) && ents.all settingOk
    && names.eraseDups.length == names.length
    && kinds.all (fun x => decide (1 ≤ x) && decide (x ≤ 3) && decide (kinds.count x ≤ 4))
    && (List.range k).all fun i => imgLE img (keyAt i) 1 == 1 && imgLE img (keyAt i + 1) 1 == 1 && imgLE img (keyAt i + 4) 2 == 2592

/-- verify_image (R502): the image's content, or why it fails: 0 signature, 1 SVN, 2 settings, 3 layout. -/
def Sec.verifyImage (x : Sec) (img : Nat → Byte) : Except Nat ImageInfo :=
  let fw := imgLE img 12 4
  let svn := imgLE img 8 2
  let sAt := fw + 7240
  let n := imgLE img (sAt + 4) 2
  let k := imgLE img (sAt + 6) 2
  let len := settingsLen img sAt
  let oAt := sAt + len
  if !layoutOk img ∨ 28 * 2 ^ 20 < fw + 7240 + 16 then .error 3
  else if svn < x.fuses.svnFloor then .error 1
  else
    let dFw := sha3 (slice img 0 fw)
    let vk := blockKey img fw
    if !blockOk img fw 1 ∨ !keyLive x.fuses.vendorKeys x.fuses.vendorRevoked (sha3 vk) ∨ !x.verifies vk dFw (blockSig img fw) then
      .error 0
    else if 28 * 2 ^ 20 < oAt + 7240 then .error 3
    else
      let part := slice img sAt len
      let ok := blockKey img oAt
      if !blockOk img oAt 2 ∨ (x.fuses.owned ∧ !keyLive x.fuses.ownerKeys x.fuses.ownerRevoked (sha3 ok))
          ∨ !x.verifies ok (sha3 (dFw ++ part)) (blockSig img oAt) then .error 0
      else if !settingsOk img sAt then .error 2
      else
        let ents := (List.range n).map fun i => slice img (sAt + 16 + 24 * i) 24
        let of' := fun sp => ents.filter fun e => fieldLE e 2 1 == sp
        let keyAt := fun i => sAt + 16 + 24 * n + 2600 * i
        .ok { fwBuild := imgLE img 4 4, svn, commitSvn := bitAt 0 (imgLE img 3 1), dFw, dSet := sha3 part
              settings := (of' 0).foldl (fun m e => SMap.put m (fieldLE e 4 4) (fieldLE e 8 8, fieldLE e 16 8)) []
              startSet := (of' 1).foldl (fun m e => SMap.put m (fieldLE e 4 4) (fieldLE e 8 8)) []
              keys := (List.range k).map fun i => (imgLE img (keyAt i + 2) 1, slice img (keyAt i + 8) 2592) }

/-- Where an image area lies in the configuration memory (Table 15.1). -/
def imageBase (i : Nat) : Nat := if i = 0 then 0x400000 else 0x2000000

/-- An image area, byte by byte. -/
def State.imageAt (s : State) (i : Nat) : Nat → Byte := fun o => s.norByte (imageBase i + o)

/-! ### The boot ledger (R509 to R514) -/

/-- CRC-32 of IEEE 802.3. -/
def crc32 (bs : List Byte) : Nat := crcLsb 0xEDB88320 0xFFFFFFFF (natBytes bs) ^^^ 0xFFFFFFFF

/-- Record i of the ledger. -/
def State.ledger (s : State) (i : Nat) : List Byte := s.norBytes (0x10000 + 256 * i) 256

/-- A record of a known version whose CRC is valid (R13, R509). -/
def ledgerOk (r : List Byte) : Bool := decide (fieldLE r 0 1 ≤ 1) && fieldLE r 28 4 == crc32 (r.take 16)

/-- Place of the last record: the valid one with the highest BOOT_COUNT (R509). -/
def State.lastRecord (s : State) : Option Nat :=
  (List.range 256).foldl (fun best i =>
    let r := s.ledger i
    if ledgerOk r then
      match best with
      | some b => if fieldLE (s.ledger b) 4 4 < fieldLE r 4 4 then some i else best
      | none => some i
    else best) none

/-- The forms a start takes (R512, R513). -/
structure Forms where
  altHbm : Nat
  altDdr : Nat
  dropDdr : Nat
  imgAlt : Bool
  skip10 : Bool
  deriving DecidableEq, Repr

/-- Every step in its normal form. -/
def Forms.normal : Forms := { altHbm := 0, altDdr := 0, dropDdr := 0, imgAlt := false, skip10 := false }

/-- One step of the next-start rule (R513); none aborts. A channel that failed its alternate form and did not fail the step is
left out from then on (Table 15.9). -/
def Forms.after (f : Forms) (last : List Byte) (k : Nat) : Option Forms :=
  let e := last.drop (32 + 16 * k)
  let outcome := fieldLE e 2 1
  let i := fieldLE e 6 2 % 4096
  if outcome = 0x0F ∨ outcome = 0x07 then
    if k = 2 ∧ !f.imgAlt then some { f with imgAlt := true }
    else if k = 5 ∧ !bitAt i f.altHbm then some { f with altHbm := f.altHbm + 2 ^ i }
    else if k = 6 ∧ !bitAt i f.altDdr then some { f with altDdr := f.altDdr + 2 ^ i }
    else if k = 10 then some { f with skip10 := true }
    else none
  else if k = 6 ∧ outcome = 0x1F ∧ bitAt i f.altDdr ∧ !bitAt i f.dropDdr then some { f with dropDdr := f.dropDdr + 2 ^ i }
  else some f

/-- The forms of the start after a record, with the PREF_SEQ of the header in use; none where it aborts (R513). -/
def nextForms (last : List Byte) (pref : Option Nat) : Option Forms :=
  if fieldLE last 2 1 = 5 then some Forms.normal
  else
    let f : Forms := { altHbm := fieldLE last 8 1, altDdr := fieldLE last 9 1, dropDdr := fieldLE last 10 1
                       imgAlt := fieldLE last 65 1 == 0x7F && pref == some (fieldLE last 12 4)
                       skip10 := fieldLE last 193 1 == 0x3F }
    (List.range 13).foldl (fun (f : Option Forms) k => f.bind fun x => x.after last k) (some f)

/-- START_RECORD shows this start's record (R528). -/
def State.showRecord (s : State) : State :=
  match s.sec.boot.pos with
  | some p => (List.range 32).foldl (fun s i => s.wr (Reg.startRecord + 8 * i) (leNat (s.norBytes (0x10000 + 256 * p + 8 * i) 8))) s
  | none => s

/-- Program bytes of this start's record. -/
def State.ledgerPut (s : State) (o : Nat) (bs : List Byte) : State :=
  match s.sec.boot.pos with
  | some p => (s.norProgram (0x10000 + 256 * p + o) bs).showRecord
  | none => s

/-- The fixed bytes of a record: bytes 0 to 31 as they are programmed when it is begun. -/
def ledgerHead (cause image restarts count altHbm altDdr dropDdr pref : Nat) : List Byte :=
  let h := leBytes 1 1 ++ leBytes 1 32 ++ leBytes 1 cause ++ leBytes 1 (image * 4 + restarts) ++ leBytes 4 count ++ leBytes 1 altHbm
    ++ leBytes 1 altDdr ++ leBytes 1 dropDdr ++ leBytes 1 0 ++ leBytes 4 pref
  h ++ List.replicate 6 0xFF ++ leBytes 6 0 ++ leBytes 4 (crc32 h)

/-- Open the place of a new record: the sector is erased when it is first written into (R509). -/
def State.openRecord (s : State) : Nat × State :=
  let p := match s.lastRecord with
    | some i => (i + 1) % 256
    | none => 0
  (p, if p % 16 = 0 then s.norErase (0x10000 + 256 * p) 4096 else s)

/-- BOOT_COUNT of the next record. -/
def State.nextBoot (s : State) : Nat :=
  match s.lastRecord with
  | some i => (fieldLE (s.ledger i) 4 4 + 1) % 2 ^ 32
  | none => 1

/-- CLEAR_LEDGER's record (R514): no step entry is programmed. -/
def State.clearRecord (s : State) : State :=
  let count := s.nextBoot
  let pref := (s.header.map (·.2)).getD 0xFFFFFFFF
  let (p, s) := s.openRecord
  s.norProgram (0x10000 + 256 * p) (ledgerHead 5 s.sec.boot.image 0 count 0 0 0 pref)

/-! ### The health record (R515) -/

/-- A row entry as REMAP_DATA shows it (Table 9.12). -/
def RowEntry.word (r : RowEntry) : Nat := 2 ^ 31 + 2 ^ 30 * b2n r.ppr + 2 ^ 26 * r.spare + 2 ^ 20 * r.pc + r.row

/-- A row entry from its word. -/
def rowOf (w : Nat) : RowEntry := { ppr := bitAt 30 w, spare := bits 29 26 w, pc := bits 25 20 w, row := bits 19 0 w }

/-- A table of n words, padded with a word that marks an unused entry. -/
def wordTable (n size pad : Nat) (ws : List Nat) : List Byte :=
  (List.range n).flatMap fun i => leBytes size (ws.getD i pad)

/-- The variable part of the health record as the device holds it. -/
def State.healthBody (s : State) : List Byte :=
  ((List.range 8).flatMap fun i => wordTable 256 4 0 ((s.stack i).remap.map RowEntry.word))
    ++ ((List.range 8).flatMap fun i => wordTable 256 4 0 ((s.stack i).retired.map RowEntry.word))
    ++ ((List.range 8).flatMap fun c => wordTable 64 8 0 (s.channel c).repair)
    ++ wordTable 1024 4 0xFFFFFFFF (s.sec.words.map fun w => w / 32768 * 2 ^ 16 + w % 32768)

/-- A whole copy of the health record. -/
def healthCopy (seq order : Nat) (body : List Byte) : List Byte :=
  let h := leBytes 1 1 ++ leBytes 1 8 ++ leBytes 2 0 ++ leBytes 4 seq ++ leBytes 4 order ++ leBytes 20 0
  h ++ (sha3 (h ++ body)).take 32 ++ body

/-- Where copy k lies. -/
def healthAt (k : Nat) : Nat := 0x20000 + 0x10000 * k

/-- Copy k as stored. -/
def State.healthStored (s : State) (k : Nat) : List Byte := s.norBytes (healthAt k) (64 + 24576)

/-- A stored copy is valid. -/
def healthOk (h : List Byte) : Bool := decide (fieldLE h 0 1 ≤ 1) && (h.drop 32).take 32 == (sha3 (h.take 32 ++ h.drop 64)).take 32

/-- The copy with a valid CHECK and the higher SEQ. -/
def State.healthPick (s : State) : Option Nat :=
  let seq := fun k => fieldLE (s.healthStored k) 4 4
  match healthOk (s.healthStored 0), healthOk (s.healthStored 1) with
  | true, true => some (if seq 0 < seq 1 then 1 else 0)
  | true, false => some 0
  | false, true => some 1
  | false, false => none

/-- Write the health record to the copy that does not hold the newest one. -/
def State.writeHealth (s : State) : State :=
  let (k, seq) := match s.healthPick with
    | some k => (1 - k, fieldLE (s.healthStored k) 4 4 + 1)
    | none => (0, 1)
  let s := s.norWrite (healthAt k) 0x10000 (healthCopy seq (s.fld Reg.lastOrderId) s.healthBody)
  { s with sec := { s.sec with healthDirty := false } }

/-- Take a health record into use: remap tables, retired lists, repair list, bank words, LAST_ORDER_ID. -/
def State.useHealth (s : State) (h : List Byte) : State :=
  let words := fun o n size => (List.range n).map fun i => fieldLE h (o + size * i) size
  let rows := fun o => ((words o 256 4).filter fun w => bitAt 31 w).map rowOf
  let s := (List.range 8).foldl (fun (s : State) i =>
    s.setStack i { s.stack i with remap := rows (64 + 1024 * i), retired := rows (64 + 8192 + 1024 * i) }) s
  let s := (List.range 8).foldl (fun (s : State) c =>
    s.setChannel c { s.channel c with repair := (words (64 + 16384 + 512 * c) 64 8).filter (· != 0) }) s
  let found := ((words (64 + 20480) 1024 4).filter (· != 0xFFFFFFFF)).map fun w => bits 27 16 w * 32768 + bits 14 0 w
  { s.setF Reg.lastOrderId (fieldLE h 8 4) with sec := { s.sec with words := found, boot := { s.sec.boot with health := h } } }

/-- HEALTH_RECORD_WRITE (R310, R515): a change is written within 1 local s. -/
def execHealthRecordWrite (s : State) : Host.Outcome State Fault Refusal :=
  run true (fun s => if s.sec.healthDirty then s.writeHealth else s) s

/-! ### Keys (R517, R519) -/

/-- The identity seed. -/
def Fuses.identitySeed (f : Fuses) : List Byte :=
  toBytes (kmac256 (natBytes ((sha3 f.entropy).take 32)) (ascii "ID") 256 (ascii "EDKUKU IDENTITY"))

/-- The alias seed for the first four measurements. -/
def Fuses.aliasSeed (f : Fuses) (meas : List Byte) : List Byte :=
  toBytes (kmac256 (natBytes f.identitySeed) (natBytes meas) 256 (ascii "EDKUKU ALIAS"))

end Sys2Proof.Machine
end

