-- ==== Sys2Proof/Machine/Start.lean ====
section
/-!
DEFINITION. Starts (R476, R501, R505 to R513, R516 to R519): the reset of the device, the thirteen start steps, self-restarts and
aborts.
-/
namespace Sys2Proof.Machine

open Sys2Proof

/-! ### Reset (R476, R563) -/

/-- Registers on standby power: the call board's, the addresses of the management path, and FAULT_N, which only a start releases
(R543). -/
def standbyRegs : List Nat := [0x10004, 0x10010, 0x10018, 0x10100, 0x10108, 0x10110, 0x600004, 0x600010]

/-- The reset of the whole device (R476): as after power-on, but for the call board (R563), the configuration memory and fuses, the
management path's own state, and the host's memory behind the far window. -/
def State.resetDevice (s : State) : State :=
  let r : State :=
    { State.reset with
      regs := s.regs.filter (fun e => standbyRegs.contains e.1), mem := s.mem.filter (fun e => farBase ≤ e.1), fresh := s.fresh
      out := s.out, pins := s.pins, board := s.board, suppressed := s.suppressed, badAt := s.badAt
      sec := { Sec.off with nor := s.sec.nor, fuses := s.sec.fuses, sigs := s.sec.sigs, powerOn := s.sec.powerOn, jtag := s.sec.jtag }
      mgt := { Mgt.off with assembling := s.mgt.assembling, railsOff := s.mgt.railsOff }
      hbmStacks := (s.hbmStacks.filter fun e => !e.2.spares.isEmpty).map fun e => (e.1, { Stack.off with spares := e.2.spares })
      pending := s.pending }
  (r.wr 0x10004 (bits 0 0 (s.rd 0x10004))).wr Reg.mgtStatus (256 + 128 * s.fld Reg.mgtFault)

/-- Hold the device in reset until its next start (R530, R550, R553). -/
def State.holdReset (s : State) : State :=
  let s := s.resetDevice
  { s with pins := { s.pins with counted := false } }

/-! ### Image values (R501) -/

/-- The start step that owns the block of a register. -/
def ownerStep (off : Nat) : Nat :=
  if off < 0x80000 then 11 else if off < 0xC0000 then 9 else if off < 0xE0000 then 11 else if off < 0x100000 then 9
  else if off < 0x200000 then 10 else if off < 0x300000 then 5 else if off < 0x400000 then 7 else if off < 0x500000 then 9
  else 2

/-- An image value as its register takes it: FAB_COORD keeps no reserved bit of R372 (R16). -/
def imageWord (off v : Nat) : Nat := if off = Reg.fabCoord.off then coordWord v else v

/-- Apply the image values of the registers that a step owns. -/
def State.applySettings (s : State) (k : Nat) : State :=
  s.sec.settings.foldl (fun (s : State) e =>
    if ownerStep e.1 = k then
      let m := rwlMask e.1
      s.wr e.1 ((s.rd e.1 - (s.rd e.1 &&& m)) ||| (imageWord e.1 e.2.1 &&& m))
    else s) s

/-- S12: every image value, and every default, again in the bits that are not adjustable. -/
def State.lockSettings (s : State) : State :=
  let named := s.sec.settings.map (·.1)
  let s := s.regs.foldl (fun (s : State) e =>
    let m := rwlMask e.1
    if m = 0 ∨ named.contains e.1 then s else s.wr e.1 ((s.rd e.1 - (s.rd e.1 &&& m)) ||| (regReset e.1 &&& m))) s
  s.sec.settings.foldl (fun (s : State) e =>
    let m := rwlMask e.1 - (rwlMask e.1 &&& e.2.2)
    s.wr e.1 ((s.rd e.1 - (s.rd e.1 &&& m)) ||| (imageWord e.1 e.2.1 &&& m))) s

/-- A start setting of the running image (Table 15.5). -/
def State.startSetting (s : State) (i : Nat) : Nat := SMap.get (startDefault i) s.sec.startSet i

/-! ### The steps (Table 15.6) -/

/-- How a step ends: OUTCOME, and the event code and unit of its first failure, and the units it lost (Table 15.7). -/
structure StepEnd where
  outcome : Nat
  event : Nat
  unit : Nat
  lost : Nat
  deriving DecidableEq, Repr

/-- A step that passes, having lost units. -/
def passed (lost : List (Nat × Nat)) : StepEnd :=
  match lost with
  | [] => ⟨0x3F, 0xFFFF, 0xFFFF, 0⟩
  | (ev, u) :: _ => ⟨0x1F, ev, u, lost.length⟩

/-- A step that fails. -/
def failedBy (event unit lost : Nat) : StepEnd := ⟨0x0F, event, unit, lost⟩

/-- A step has failed. -/
def StepEnd.bad (e : StepEnd) : Bool := e.outcome == 0x0F || e.outcome == 0x07

/-- The state that a start gives a unit; no change of the table yet (log entry 43). -/
def State.initUnit (s : State) (u st : Nat) : State := s.wrUnit u (unitWord 0 0 0 0 0 st)

/-- A unit that the start marks FAILED (R536). -/
def State.startFails (s : State) (u code : Nat) : State := s.setUnit u US.failed code Src.start

/-- S0: fuses, timers, SLOT_ID and the health record. -/
def State.step0 (s : State) : StepEnd × State :=
  if !s.pins.ref ∨ !s.pins.fclk then (failedBy Ev.startStepFailed UId.ioNorth 0, s)
  else
    let f := s.sec.fuses
    let (cal, s) := s.draw
    let s : State := { s with pins := { s.pins with cal, slotSeen := false }, sec := { s.sec with live := f } }
    let s := ((s.setF Reg.slotIdReg s.pins.slot).wr Reg.serialHash (fieldLE (sha3 f.serial) 0 8)).setF Reg.svnFloor f.svnFloor
    let s := s.wr Reg.keyState (liveMask f.ownerKeys f.ownerRevoked * 2 ^ 12 + f.ownerRevoked % 16 * 2 ^ 8 + f.vendorRevoked % 16 * 2 ^ 4
      + liveMask f.vendorKeys f.vendorRevoked)
    let s := s.setF Reg.secNoOwner (b2n (!f.owned))
    let s := match s.healthPick with
      | some k => s.useHealth (s.healthStored k)
      | none => (s.event Ev.healthReset UId.security).useHealth (healthCopy 0 0 (wordTable 1024 4 0 [] ++ wordTable 4096 4 0 []
          ++ wordTable 1024 4 0xFFFFFFFF []))
    (passed [], s)

/-- S1: the NVM header; CXL link training begins. -/
def State.step1 (s : State) (m : StartMeet) : StepEnd × State :=
  match s.header with
  | none => (failedBy Ev.startStepFailed UId.security 0, s)
  | some _ => (passed [], (s.setF Reg.linkWidth m.width).setF Reg.linkSpeed m.speed)

/-- S2: the image is verified and loaded. -/
def State.step2 (s : State) : StepEnd × State :=
  let area := s.sec.boot.image
  match s.sec.verifyImage (s.imageAt area) with
  | .error r => (failedBy Ev.imageRejected UId.security 0, s.event Ev.imageRejected UId.security [area, r])
  | .ok i =>
    let s : State := { s with sec := { s.sec with
      settings := i.settings, startSet := i.startSet, keys := i.keys
      boot := { s.sec.boot with dFw := i.dFw, dSet := i.dSet, commitSvn := i.commitSvn } } }
    let s := ((s.wr Reg.fwBuild i.fwBuild).setF Reg.svn i.svn).setF Reg.secImage area
    let s := (s.setF Reg.secDebug (b2n (s.sec.fuses.debugOk && s.startSetting 5 == 1))).setF Reg.romOnly 0
    (passed [], (s.applySettings 2).ledgerPut 16 (leBytes 4 i.fwBuild ++ leBytes 2 i.svn))

/-- S3: the power stages. -/
def State.step3 (s : State) : StepEnd × State :=
  if s.pins.vin then (passed [], { s with mgt := { s.mgt with railsOff := false } }) else (failedBy Ev.startStepFailed UId.ioNorth 0, s)

/-- S4: the die-to-die ports; the units that are always in use come up. -/
def State.step4 (s : State) : StepEnd × State :=
  (passed [], [UId.ioNorth, UId.ioSouth, UId.security, UId.stageManager].foldl (fun s u => s.initUnit u US.active) s)

/-- S5: the stacks, trained, repaired and zeroed (R299, R310); one whose retired list is still full fails the device (R309). -/
def State.step5 (s : State) (m : StartMeet) : StepEnd × State :=
  let alt := s.sec.boot.altHbm
  match (List.range 8).find? fun i => m.stacksBad.contains i with
  | some i => (failedBy Ev.startStepFailed (UId.stack i) 0, s)
  | none =>
    let s := s.applySettings 5
    let s := (List.range 8).foldl (fun (s : State) i =>
      let x := s.stack i
      let left := fun (rows : List RowEntry) => (rows.filter fun r => !m.repaired.contains (i, r.pc, r.row)).map fun r => { r with ppr := true }
      let remap := left x.remap
      let fixed := x.remap.filter fun r => m.repaired.contains (i, r.pc, r.row)
      let spares := remap.foldl (fun (sp : SMap Nat) r => SMap.set 0 sp r.pc (SMap.get 0 sp r.pc ||| 2 ^ r.spare))
        (fixed.foldl (fun (sp : SMap Nat) r => SMap.set 0 sp r.pc (setBits r.spare r.spare 0 (SMap.get 0 sp r.pc))) x.spares)
      let changed := decide (remap.map RowEntry.word ≠ x.remap.map RowEntry.word)
        || decide ((left x.retired).map RowEntry.word ≠ x.retired.map RowEntry.word)
      let s := s.setStack i { x with remap, retired := left x.retired, spares }
      let s := if changed then s.showRemap i else
        (s.setStackF i Reg.stackRemapUsed remap.length).setStackF i Reg.stackRetired x.retired.length
      let s := (s.setStackF i Reg.stackRate (if bitAt i alt then 8 else s.startSetting 0)).setStackF i Reg.stackConservative (b2n (bitAt i alt))
      (s.setStackF i Reg.stackUp 1).initUnit (UId.stack i) US.active) s
    let s := s.setF Reg.stackOnline 0xFF
    (passed [], (List.range 8).foldl (fun (s : State) i => if 256 ≤ (s.stack i).retired.length then s.stackFull i else s) s)

/-- The largest power-of-two number of trained channels, lowest first (R319). -/
def activeSet (trained : List Nat) : List Nat :=
  let n := trained.length
  trained.take (if 8 ≤ n then 8 else if 4 ≤ n then 4 else if 2 ≤ n then 2 else n)

/-- S6: the channels, trained and repaired, and the active set (R319, R511). -/
def State.step6 (s : State) (m : StartMeet) : StepEnd × State :=
  let b := s.sec.boot
  let there := (List.range 8).filter fun c => m.dimms.getD c 0 != 0 && !bitAt c b.dropDdr
  let bad := there.filter fun c => m.channelsBad.contains c
  let trained := there.filter fun c => !m.channelsBad.contains c
  let act := activeSet trained
  let lost := bad.map fun c => (Ev.startStepFailed, UId.channel c)
  if act.length < s.startSetting 2 then
    (failedBy Ev.startStepFailed (match bad with | c :: _ => UId.channel c | [] => UId.ioNorth) bad.length, s)
  else
    let s := (List.range 8).foldl (fun (s : State) c =>
      let x := s.channel c
      let s := s.setChannel c { x with repair := x.repair.filter fun r => !m.ddrRepaired.contains r }
      let s := s.setChanF c Reg.ddrTrained (b2n (trained.contains c)) |>.setChanF c Reg.ddrInSet (b2n (act.contains c))
      let s := if trained.contains c then
          ((s.setChanF c Reg.ddrCapacity (m.dimms.getD c 0)).setChanF c Reg.ddrRate
            (if bitAt c b.altDdr then 88 else s.startSetting 1)).setChanF c Reg.ddrConservative (b2n (bitAt c b.altDdr))
        else s
      if act.contains c then s.initUnit (UId.channel c) US.active
      else if trained.contains c then s.initUnit (UId.channel c) US.idle
      else if bad.contains c then
        let s := s.startFails (UId.channel c) Ev.startStepFailed
        if bitAt c b.altDdr then s.event Ev.alternateForm (UId.channel c) [b.altHbm, b.altDdr, b.dropDdr + 2 ^ c] else s
      else s.initUnit (UId.channel c) US.off) s
    (passed lost, s.setF Reg.ddrActive act.length)

/-- A failed cluster bank's standby bank takes its place; false where that cannot be (R294). -/
def State.startStandby (s : State) (b : Nat) : Bool × State :=
  let t := s.standbyOf ((b - 2304) / 48)
  let inUse := t == b || (List.range 48).any fun n =>
    let o := 2304 + 48 * ((b - 2304) / 48) + n
    s.bf o Reg.bankAliasValid == 1 && s.bf o Reg.bankAlias == t
  if dualPort b || inUse then (false, s) else (true, (s.setBf b Reg.bankAlias t).setBf b Reg.bankAliasValid 1)

/-- S7: the banks, tested, repaired by fuse and brought to ON (R277, R282, R511). -/
def State.step7 (s : State) (m : StartMeet) : StepEnd × State :=
  let s := s.applySettings 7
  let new := (m.words.filter fun w => w.1 < 3072 && !s.sec.fuses.repairs.contains (w.1 * 32768 + w.2)).map fun w => w.1 * 32768 + w.2
  let room := 2048 - s.sec.fuses.repairs.length
  let s : State := { s with sec := { s.sec with fuses := { s.sec.fuses with repairs := s.sec.fuses.repairs ++ new.take room } } }
  let failed := ((m.banksBad.filter (· < 3072)) ++ (new.drop room).map (· / 32768)).eraseDups
  let s := (List.range 3072).foldl (fun (s : State) b => s.initUnit (UId.bank b) US.idle) s
  let s := s.sec.settings.foldl (fun (s : State) e =>
    if 0x300000 ≤ e.1 ∧ e.1 < 0x330000 then s.initBank ((e.1 - 0x300000) / 0x40) else s) s
  let s := s.markStandby
  let step := fun (acc : Bool × State) b =>
    let s := (acc.2.setBf b Reg.bankFailed 1).startFails (UId.bank b) Ev.bankFailed
    if b < 2304 then (acc.1, s) else let (ok, s) := s.startStandby b; (acc.1 && ok, s)
  let (ok, s) := failed.foldl step (true, s)
  let lost := failed.map fun b => (Ev.bankFailed, UId.bank b)
  (if ok then passed lost else failedBy Ev.bankFailed (UId.bank (failed.headD 0)) failed.length, s)

/-- The rows of band pair i that fail. -/
def pairRows (rows : List Nat) (i : Nat) : List Nat := rows.filter fun r => decide (64 * i ≤ r) && decide (r < 64 * i + 64)

/-- SPARE_MAP from the rows that fail the array self-test (R128, R129, Table 3.13): spare i takes the one failing row of its pair. -/
def spareMapOf (rows : List Nat) : Nat :=
  (List.range 4).foldl (fun m i => match pairRows rows i with
    | [r] => if rows.contains (256 + i) then m else m + (128 + r % 64) * 2 ^ (8 * i)
    | _ => m) 0

/-- An array that the spares cannot repair (R129): two failing rows in a pair, or a failing spare that would be needed. -/
def beyondSpares (rows : List Nat) : Bool :=
  (List.range 4).any fun i => match pairRows rows i with
    | [] => false
    | [_] => rows.contains (256 + i)
    | _ => true

/-- Engines whose array fails start step S9 (R129). -/
def arraysBad (m : StartMeet) : List Nat :=
  (List.range 144).filter fun e => m.stagesBad.contains e || m.rows.any fun r => r.1 == e && beyondSpares r.2.eraseDups

/-- S8: the arrays; spare rows are mapped (R129, R130). The ledger's entry of S8 keeps the outcome; Table 15.7 has no field for the
mapping itself, which SPARE_MAP shows (log entry 78). -/
def State.step8 (s : State) (m : StartMeet) : StepEnd × State :=
  let s := m.rows.foldl (fun (s : State) e =>
    if e.1 < 144 then
      let map := spareMapOf e.2.eraseDups
      (s.wrEng e.1 Reg.spareMap map).setEf e.1 Reg.sparesUsed ((List.range 4).countP fun i => bitAt (8 * i + 7) map)
    else s) s
  (passed ((arraysBad m).map fun e => (Ev.startStepFailed, UId.engine e)), s)

/-- S9: the engines, ACTIVE in slots 0 to 7 and SPARE in slot 8, which takes the place of one that fails (R129, R207, R440). -/
def State.step9 (s : State) (m : StartMeet) : StepEnd × State :=
  let s := s.applySettings 9
  let bad := (List.range 144).filter fun e =>
    (arraysBad m).contains e || m.enginesBad.contains e || (List.range 16).any fun k => s.bf (16 * e + k) Reg.bankFailed == 1
  let s := (List.range 144).foldl (fun (s : State) e =>
    let taken := bad.any fun x => x / 9 == e / 9 && x % 9 != 8
    if bad.contains e then s.startFails (UId.engine e) Ev.startStepFailed
    else s.initUnit (UId.engine e) (if e % 9 = 8 ∧ !taken then US.spare else US.active)) s
  let s := (List.range 16).foldl (fun (s : State) c => s.initUnit (UId.updateUnit c) US.active) s
  let role := s.fld Reg.fovCtrlRole
  let s : State := { s with fov := { s.fov with role } }
  let s := (s.setF Reg.fovRole role).setF Reg.fovState (if role = 1 then 2 else 0)
  let short := (List.range 16).filter fun c => 9 - bad.countP (fun e => e / 9 == c) < s.fld Reg.fovEngMin
  match short with
  | c :: _ => (failedBy Ev.startStepFailed (UId.cluster c) bad.length, s)
  | [] => (passed (bad.map fun e => (Ev.startStepFailed, UId.engine e)), s.lend)

/-- S10: the torus ports are enabled, unless the step is skipped (R371, R511). -/
def State.step10 (s : State) (m : StartMeet) : StepEnd × State :=
  let s := s.applySettings 10
  let lost := (List.range 6).filter fun p => m.portsBad.contains p
  let s := (List.range 6).foldl (fun (s : State) p =>
    if m.portsBad.contains p then s.initUnit (UId.port p) US.off
    else
      let s := s.initUnit (UId.port p) US.idle
      if s.sec.boot.skip10 then s else s.portEnableOp p) s
  (passed (lost.map fun p => (Ev.startStepFailed, UId.port p)), s)

/-- S11: CXL mode is confirmed and BAR0 is served in full (R476, R478). -/
def State.step11 (s : State) (m : StartMeet) : StepEnd × State :=
  if m.cxl then (passed [], (s.applySettings 11).setF Reg.cxlMode 1) else (failedBy Ev.startStepFailed UId.ioNorth 0, s)

/-- The values of the fuses that M3 measures, with the debug enablement. -/
def State.fuseMeasure (s : State) : List Byte :=
  let f := s.sec.fuses
  let vals := natBytes f.serial ++ f.vendorKeys.flatMap natBytes ++ f.ownerKeys.flatMap natBytes
    ++ [f.vendorRevoked, f.ownerRevoked, f.svnFloor, b2n f.debugOk, s.fld Reg.secDebug]
  toBytes (Config.fuseValue vals)

/-- S12: measurements, the alias key, image values, the SVN floor, the lock and READY (R501, R504, R518, R519). -/
def State.step12 (s : State) : StepEnd × State :=
  let zero := leBytes 64 0
  let b := s.sec.boot
  let s := s.setMeas 0 ((List.range 64).map fun i => Config.romMeasure i)
  let s := (((s.setMeas 1 zero).extendMeas 1 b.dFw).setMeas 2 zero).extendMeas 2 b.dSet
  let s := ((s.setMeas 3 zero).extendMeas 3 s.fuseMeasure).setMeas 4 zero
  let record := match b.pos with
    | some p => (s.ledger p).take 240
    | none => []
  let s := ((s.extendMeas 4 record).setMeas 5 zero).extendMeas 5 b.health
  let s := (s.setMeas 6 zero).setMeas 7 zero
  let seed := s.sec.fuses.aliasSeed ((List.range 4).flatMap s.measured)
  let s : State := { s with sec := { s.sec with aliasSeed := seed, log := [] } }
  let s := s.lockSettings
  let svns := (List.range 2).filterMap fun k => match s.sec.verifyImage (s.imageAt k) with
    | .ok i => some i.svn
    | .error _ => none
  let floor := match svns with
    | v :: vs => vs.foldl min v
    | [] => 0
  let s : State :=
    if b.commitSvn ∧ s.sec.fuses.svnFloor < floor then
      ({ s with sec := { s.sec with
          fuses := { s.sec.fuses with svnFloor := floor }, live := { s.sec.live with svnFloor := floor } } }.setF Reg.svnFloor floor).event Ev.svnRaised
        UId.security [floor]
    else s
  (passed [], (s.setF Reg.measDone 1).setF Reg.ready 1)

/-- Carry out one start step: a fault it meets fails it before it does anything. -/
def State.doStep (s : State) (m : StartMeet) (k : Nat) : StepEnd × State :=
  match m.faults.find? fun f => f.1 == k with
  | some (_, ev, u) => (failedBy ev u 0, s)
  | none =>
    match k with
    | 0 => s.step0
    | 1 => s.step1 m
    | 2 => s.step2
    | 3 => s.step3
    | 4 => s.step4
    | 5 => s.step5 m
    | 6 => s.step6 m
    | 7 => s.step7 m
    | 8 => s.step8 m
    | 9 => s.step9 m
    | 10 => s.step10 m
    | 11 => s.step11 m
    | _ => s.step12

/-! ### The ledger during a start (R509, Table 15.8) -/

/-- FORM of a step in this start. -/
def Boot.form (b : Boot) (k : Nat) : Nat :=
  if (k = 2 ∧ b.imgAlt) ∨ (k = 5 ∧ b.altHbm ≠ 0) ∨ (k = 6 ∧ b.altDdr ≠ 0) then 0x7F else if k = 10 ∧ b.skip10 then 0x3F else 0xFF

/-- A step's complete entry. -/
def entryBytes (k form duration : Nat) (e : StepEnd) : List Byte :=
  leBytes 1 k ++ leBytes 1 form ++ leBytes 1 e.outcome ++ [0xFF] ++ leBytes 2 e.event ++ leBytes 2 e.unit ++ leBytes 4 duration
    ++ leBytes 2 e.lost ++ [0xFF, 0xFF]

/-- A start aborts (R508). -/
def State.abortStart (s : State) : State :=
  let s := s.event Ev.startAborted UId.security [s.fld Reg.lastStep]
  let s := (s.setF Reg.secAborted 1).setFault true
  let s := (List.range 6).foldl (fun (s : State) p => (s.setPort p Port.off).setPf p Reg.portState 0) s
  { s with sec := { s.sec with step := none, again := false } }

/-- Begin this start's record once S1 has ended or S0 or S1 has failed: false where the rule of R513 aborts instead. -/
def State.beginRecord (s : State) : Bool × State :=
  let b := s.sec.boot
  let pref := s.header.map (·.2)
  let last := s.lastRecord.map s.ledger
  let forms := match last with
    | some r => nextForms r pref
    | none => some Forms.normal
  match forms with
  | none => (false, s)
  | some f =>
    let image := match s.header with
      | some (p, _) => if f.imgAlt then 1 - p else p
      | none => 0
    let count := s.nextBoot
    let old := fun o => match last with
      | some r => if fieldLE r 2 1 = 5 then 0 else fieldLE r o 1
      | none => 0
    let (p, s) := s.openRecord
    let early := (List.range 13).flatMap fun k => b.early.getD k (leBytes 1 k ++ List.replicate 15 0xFF)
    let prefSeq := if b.early.length = 2 then pref.getD 0xFFFFFFFF else 0xFFFFFFFF
    let s := s.norProgram (0x10000 + 256 * p) (ledgerHead b.cause image b.restarts count f.altHbm f.altDdr f.dropDdr prefSeq ++ early)
    let s : State := { s with sec := { s.sec with boot := { b with
      image, imgAlt := f.imgAlt, altHbm := f.altHbm, altDdr := f.altDdr, dropDdr := f.dropDdr, skip10 := f.skip10, pos := some p, prefSeq } } }
    let s := (s.setF Reg.bootCount count).showRecord
    let new := fun (u now was : Nat) (s : State) => (List.range 8).foldl (fun (s : State) i =>
      if bitAt i now ∧ !bitAt i was then s.event Ev.alternateForm (u + i) [f.altHbm, f.altDdr, f.dropDdr] else s) s
    let s := new (UId.stack 0) f.altHbm (old 8) s
    let s := new (UId.channel 0) f.altDdr (old 9) s
    let was := match last with
      | some r => fieldLE r 2 1 != 5 && fieldLE r 193 1 == 0x3F
      | none => false
    (true, if f.skip10 ∧ !was then s.event Ev.alternateForm (UId.port 0) [f.altHbm, f.altDdr, f.dropDdr] else s)

/-- After a failed step: a self-restart where the ledger leaves a form and RESTART_MAX allows one, else an abort (R507). -/
def State.stepFailed (s : State) (k : Nat) (e : StepEnd) : State :=
  let s := s.event Ev.startStepFailed (if e.unit = 0xFFFF then UId.security else e.unit) [k, e.outcome]
  let more : Bool := match s.sec.boot.pos with
    | some p => (nextForms (s.ledger p) (s.header.map (·.2))).isSome
    | none => false
  if more ∧ s.sec.boot.restarts < s.startSetting 4 then { s with sec := { s.sec with step := none, again := true } }
  else s.abortStart

/-- The end of a step, in the ledger and in LAST_STEP; the start goes on, restarts or aborts. -/
def State.endStep (s : State) (k : Nat) (e : StepEnd) : State :=
  let (d, s) := s.draw
  let entry := entryBytes k (s.sec.boot.form k) (d.toNat % 2 ^ 32) e
  let go := fun (s : State) =>
    if e.bad then s.stepFailed k e
    else { s.setF Reg.lastStep k with sec := { s.sec with step := if k = 12 then none else some (k + 1) } }
  if k ≤ 1 then
    let s : State := { s with sec := { s.sec with boot := { s.sec.boot with early := s.sec.boot.early ++ [entry] } } }
    if k = 0 ∧ !e.bad then go s
    else
      let (ok, s) := s.beginRecord
      if ok then go s
      else if e.bad then (s.event Ev.startStepFailed UId.security [k, e.outcome]).abortStart
      else (s.setF Reg.lastStep k).abortStart
  else go (s.ledgerPut (32 + 16 * k) entry)

/-- Run start steps in order until one does not end, fails, or the start is over. -/
def State.walk (m : StartMeet) : List Nat → State → State
  | [], s => s
  | k :: ks, s =>
    if s.sec.step ≠ some k then s
    else
      let s := if 2 ≤ k then s.ledgerPut (33 + 16 * k) (leBytes 1 (s.sec.boot.form k) ++ leBytes 1 0x7F) else s
      if m.hang = some k then s
      else
        let (e, s) := s.doStep m k
        (s.endStep k e).walk m ks

/-- Begin a start at S0 (R505): FAULT_N is released (R543). -/
def State.beginStart (s : State) (cause restarts : Nat) : State :=
  let s := s.resetDevice.setFault false
  { s with pins := { s.pins with counted := true }
           sec := { s.sec with step := some 0, powerOn := false, boot := { Boot.off with cause, restarts } } }

/-- Run a start, with its self-restarts, as far as the report goes. -/
def State.runStart : StartReport → State → State
  | [], s => s
  | m :: ms, s =>
    match s.sec.step with
    | none => s
    | some k =>
      let s := s.walk m ((List.range 13).drop k)
      if s.sec.again then (s.beginStart 4 (s.sec.boot.restarts + 1)).runStart ms else s

/-- A start caused from outside. -/
def State.start (s : State) (cause : Nat) (rep : StartReport) : State := (s.beginStart cause 0).runStart rep

/-- CAUSE of a start that PERST_N begins. -/
def State.perstCause (s : State) : Nat := if s.sec.powerOn then 1 else 2

/-- The conditions of step 5 of Table 17.3, but for PERST_N. -/
def Pins.ready (p : Pins) : Bool := p.vsb && p.stby && p.pwr && p.vin && p.ref && p.fclk

/-! ### The rows of a start -/

/-- PERST_N_RELEASE (R505, R530, R552): a start begins, or waits for its conditions. -/
def execPerstNRelease (rep : StartReport) (s : State) : Host.Outcome State Fault Refusal :=
  run true (fun s =>
    if s.pins.counted then s
    else
      let s : State := { s with pins := { s.pins with perst := false } }
      if s.pins.ready then s.start s.perstCause rep else s) s

/-- PERST_N_CONDITIONS_MET (R552): an early release counts once supplies and clocks are there. -/
def execPerstNConditionsMet (rep : StartReport) (s : State) : Host.Outcome State Fault Refusal :=
  run true (fun s =>
    if s.pins.counted ∨ s.pins.perst ∨ !s.pins.vsb ∨ !s.pins.stby ∨ !s.pins.pwr then s
    else
      let s : State := { s with pins := { s.pins with vin := true, ref := true, fclk := true } }
      s.start s.perstCause rep) s

/-- PERST_N_ASSERT (R476): the whole device is reset. -/
def execPerstNAssert (s : State) : Host.Outcome State Fault Refusal :=
  run true (fun s => { s with pins := { s.pins with perst := true } }.holdReset) s

/-- CXL_LINK_DOWN (R476): the same reset, and the start sequence runs again. -/
def execCxlLinkDown (rep : StartReport) (s : State) : Host.Outcome State Fault Refusal :=
  run true (fun s => if s.pins.counted then s.start 3 rep else s) s

/-- START_WATCHDOG_EXPIRY (R505): the step in progress exceeds its bound. -/
def execStartWatchdogExpiry (stepNo unit : Nat) (rep : StartReport) (s : State) : Host.Outcome State Fault Refusal :=
  run (decide (stepNo < 13) && decide (unit < 2 ^ 16)) (fun s =>
    if s.sec.step ≠ some stepNo then s
    else
      let s := s.endStep stepNo ⟨0x07, Ev.startStepFailed, unit, 0⟩
      if s.sec.again then (s.beginStart 4 (s.sec.boot.restarts + 1)).runStart rep else s) s

/-! ### Supplies, clocks and straps (R529, R530, R550 to R554) -/

/-- PWR_GOOD_LOSS (R530): a loss of power while PERST_N is released. -/
def execPwrGoodLoss (s : State) : Host.Outcome State Fault Refusal :=
  run true (fun s =>
    let s : State := { s with pins := { s.pins with pwr := false }, sec := { s.sec with powerOn := true } }
    if s.pins.perst then s else s.holdReset) s

/-- PWR_GOOD_ASSERT (R552): the input is within range; it counts while STBY_OK is asserted (`Pins.ready`). -/
def execPwrGoodAssert (s : State) : Host.Outcome State Fault Refusal :=
  run true (fun s => { s with pins := { s.pins with pwr := true, vin := true } }) s

/-- STBY_OK_ASSERT (R529, R552): the management controller starts on standby power. -/
def execStbyOkAssert (s : State) : Host.Outcome State Fault Refusal :=
  run true (fun s => { s with pins := { s.pins with stby := true }, mgt := { s.mgt with assembling := false } }) s

/-- The management controller stops: its addresses are lost (R529, R545). -/
def State.stopController (s : State) : State :=
  { (s.setF Reg.eid 0).setF Reg.dynAddr 0 with mgt := { s.mgt with assembling := false } }

/-- STBY_OK_DEASSERT (R529): the management controller stops running. -/
def execStbyOkDeassert (s : State) : Host.Outcome State Fault Refusal :=
  run true (fun s => { s.stopController with pins := { s.pins with stby := false } }) s

/-- UNDERVOLTAGE_LOCKOUT (R550): every rail from 48 V is removed, as if PWR_GOOD were deasserted. -/
def execUndervoltageLockout (s : State) : Host.Outcome State Fault Refusal :=
  run true (fun s =>
    let s : State := { s with pins := { s.pins with vin := false }, sec := { s.sec with powerOn := true } }
    let s := if s.pins.perst then s else s.holdReset
    { s with mgt := { s.mgt with railsOff := true } }) s

/-- VSB_LOW (R553): the device holds itself in reset at once. -/
def execVsbLow (s : State) : Host.Outcome State Fault Refusal :=
  run true (fun s =>
    let s : State := { s with pins := { s.pins with vsb := false }, sec := { s.sec with powerOn := true } }
    s.stopController.holdReset) s

/-- The call board without records. -/
def State.emptyBoard (s : State) : State := { s with board := [], suppressed := [] }

/-- VSB_COMES_UP (R563, R572): the call board starts empty with SEQ 1 and its counters are zero. -/
def execVsbComesUp (s : State) : Host.Outcome State Fault Refusal :=
  run true (fun s =>
    let s : State := { s with pins := { s.pins with vsb := true } }
    let s := s.emptyBoard
    [0x10010, 0x10018, 0x10100, 0x10108, 0x10110, 0x10004].foldl (fun (s : State) o => s.wr o (regReset o)) s) s

/-- REFCLK_LOST (R5, R554): the timers keep their calibration. -/
def execRefclkLost (s : State) : Host.Outcome State Fault Refusal :=
  run true (fun s =>
    if !s.pins.ref then s
    else
      let s : State := { s with pins := { s.pins with ref := false } }
      if s.pins.counted then (s.setF Reg.refclkLost 1).event Ev.refclkLost UId.ioNorth else s) s

/-- REFCLK_RETURN (R4, R5): recalibration resumes. -/
def execRefclkReturn (s : State) : Host.Outcome State Fault Refusal :=
  run true (fun s => { s.setF Reg.refclkLost 0 with pins := { s.pins with ref := true } }) s

/-- TIMER_RECALIBRATION (R4): every 10 local ms while the reference is present. -/
def execTimerRecalibration (s : State) : Host.Outcome State Fault Refusal :=
  run true (fun s =>
    if s.pins.ref ∧ s.pins.counted then
      let (cal, s) := s.draw
      { s with pins := { s.pins with cal } }
    else s) s

/-- FCLK_LOST (R443, R554): the device declares itself failed. -/
def execFclkLost (s : State) : Host.Outcome State Fault Refusal :=
  run true (fun s =>
    let s : State := { s with pins := { s.pins with fclk := false } }
    if s.pins.counted ∧ s.fld Reg.secAborted = 0 then s.declareFailed 0x7109 UId.ioSouth else s) s

/-- SLOT_ID_CHANGED (R530): ignored, with one event in each start. -/
def execSlotIdChanged (slot : Nat) (s : State) : Host.Outcome State Fault Refusal :=
  run (decide (slot < 64)) (fun s =>
    if slot = s.pins.slot then s
    else
      let seen := s.pins.slotSeen
      let s : State := { s with pins := { s.pins with slot } }
      if !s.pins.counted ∨ s.sec.step = some 0 then s
      else if seen then s.suppress Ev.slotIdChanged UId.ioNorth
      else { s with pins := { s.pins with slotSeen := true } }.event Ev.slotIdChanged UId.ioNorth [s.fld Reg.slotIdReg, slot]) s

/-! ### JTAG (R527) -/

/-- JTAG_TAP_INSTRUCTION (R527): 0 BYPASS, 1 IDCODE, 2 SAMPLE/PRELOAD, 3 EXTEST; another code is a debug instruction, which without
debug enabled selects BYPASS. IDCODE shows the part number (log entry 94). -/
def execJtagTapInstruction (code : Nat) (s : State) : Host.Outcome State Fault Refusal :=
  if code < 4 then
    run true (fun s =>
      let s : State := { s with sec := { s.sec with jtag := code } }
      if code = 1 then s.emit (.value 0x4800) else s) s
  else if s.fld Reg.secDebug = 1 then .refused .debugUnit
  else run true (fun s => { s with sec := { s.sec with jtag := 0 } }) s

end Sys2Proof.Machine
end

