-- ==== Sys2Proof/Machine/Mailbox.lean ====
section
/-!
DEFINITION. The security mailbox (R520 to R526, R450 to R452): requests over three paths, and the thirteen commands of Table 15.12.
-/
namespace Sys2Proof.Machine

open Sys2Proof

/-! ### The management path's frame (R532) -/

/-- The management controller runs (Table 16.1). -/
def State.controllerUp (s : State) : Bool := s.pins.vsb && s.pins.stby

/-- Serve one vendor-defined message: its response repeats the header and adds the completion code (R532). A controller that only
runs its ROM serves GET_STATUS and READ_REG. -/
def State.mgmt (s : State) (cmd tag : Nat) (f : State → Nat × List Byte × State) : State :=
  if !s.controllerUp then s
  else
    let s := s.inc Reg.mctpMsgs
    let reply := fun (c : Nat) (data : List Byte) => Out.response (leBytes 1 1 ++ leBytes 1 cmd ++ leBytes 2 tag ++ leBytes 1 c ++ data)
    if s.fld Reg.romOnly = 1 ∧ cmd ≠ 1 ∧ cmd ≠ 2 then s.emit (reply 4 [])
    else
      let (c, data, s) := f s
      s.emit (reply c data)

/-! ### Authority (R521) -/

/-- What a request's signature covers besides its bytes: SERIAL_HASH and BOOT_COUNT. -/
def State.binding (s : State) : List Byte := leBytes 8 (s.rd Reg.serialHash) ++ leBytes 4 (s.fld Reg.bootCount)

/-- A signature by a key of a kind of the settings part verifies over a digest. -/
def State.signedBy (s : State) (kind : Nat) (digest sig : List Byte) : Bool :=
  s.sec.keys.any fun k => k.1 == kind && s.sec.verifies k.2 digest sig

/-- The SECRET signature at the end of a body (R521). -/
def State.secretOk (s : State) (head body : List Byte) : Bool :=
  let n := body.length - 4627
  s.signedBy 3 (sha3 (head ++ body.take n ++ s.binding)) (body.drop n)

/-- An accepted command is recorded and logged to M6 (R518, Table 18.3). -/
def State.accepted (s : State) (head body : List Byte) (id : Nat) : State :=
  let code := fieldLE head 2 1
  let digest := natBytes (sha3 (head ++ body))
  let s := s.event Ev.mailboxAccepted UId.security [code, fieldLE head 4 4]
  if s.fld Reg.measDone = 1 then s.logEntry (leBytes 64 (Config.logEntry code id digest).toNat) else s

/-- An answer: status, body, state. -/
abbrev Answer := Nat × List Byte × State

/-- Refuse with a status. -/
def State.refuse (s : State) (status : Nat) : Answer := (status, [], s)

/-! ### The commands (Table 15.12) -/

/-- The signature of the certificate of the start's own key: by the identity key over that key and the first four measurements (R519). -/
def State.aliasCert (s : State) : List Byte :=
  signWith s.sec.fuses.identitySeed (sha3 (publicOf s.sec.aliasSeed ++ (List.range 4).flatMap s.measured))

/-- GET_EVIDENCE: the evidence record of R520. -/
def State.mbxEvidence (s : State) (_head body : List Byte) : Answer :=
  let b := s.sec.boot
  let alt := b.imgAlt || b.altHbm != 0 || b.altDdr != 0 || b.skip10
  let flags := b2n alt + 2 * s.fld Reg.secImage + 4 * s.fld Reg.secDebug + 8 * s.fld Reg.secNoOwner
  let fixed := leBytes 1 1 ++ leBytes 1 72 ++ leBytes 1 2 ++ leBytes 1 flags ++ leBytes 4 (s.rd Reg.fwBuild) ++ leBytes 2 (s.fld Reg.svn)
    ++ leBytes 2 (s.fld Reg.svnFloor) ++ leBytes 4 (s.fld Reg.bootCount) ++ leBytes 8 (s.rd Reg.serialHash) ++ body
    ++ (List.range 8).flatMap s.measured ++ leBytes 8 0
  let all := fixed ++ publicOf s.sec.aliasSeed ++ s.aliasCert
  (0, all ++ signWith s.sec.aliasSeed (sha3 all), s)

/-- GET_CERTS: the identity certificate, and after S12 the certificate of the start's own key (R517, R519). -/
def State.mbxCerts (s : State) (_head _body : List Byte) : Answer :=
  let startKey := if s.fld Reg.measDone = 1 then publicOf s.sec.aliasSeed ++ s.aliasCert else []
  (0, s.norBytes 0x2000 7235 ++ startKey, s)

/-- READ_LEDGER: the last records wanted, newest first (R509). -/
def State.mbxReadLedger (s : State) (_head body : List Byte) : Answer :=
  let n := fieldLE body 0 4
  if n = 0 ∨ 256 < n then s.refuse St.range
  else match s.lastRecord with
  | none => (0, [], s)
  | some p =>
    let recs := ((List.range n).map fun i => s.ledger ((p + 256 - i) % 256)).filter ledgerOk
    (0, recs.flatten, s)

/-- CLEAR_LEDGER (R514). -/
def State.mbxClearLedger (s : State) (head body : List Byte) : Answer :=
  if s.allIdle ∨ s.fld Reg.secAborted = 1 then (0, [], s.clearRecord.accepted head body 0) else s.refuse St.notAllowed

/-- READ_HEALTH: the stored record (R515). -/
def State.mbxReadHealth (s : State) (_head _body : List Byte) : Answer :=
  (0, (match s.healthPick with | some k => s.healthStored k | none => []), s)

/-- The image that runs, once S2 has passed. -/
def State.runningImage (s : State) : Option Nat := if s.fld Reg.romOnly = 0 then some s.sec.boot.image else none

/-- Status of an image that fails verification. -/
def imageStatus (reason : Nat) : Nat := if reason = 0 then St.signature else if reason = 1 then St.svn else St.format

/-- The security controller with the fuses in effect. -/
def Sec.now (x : Sec) : Sec := { x with fuses := x.live }

/-- IMAGE_UPDATE (R522): far address, byte count, target area, SET_PREFERRED. -/
def State.mbxImageUpdate (s : State) (_head body : List Byte) : Answer :=
  let a := fieldLE body 0 8
  let n := fieldLE body 8 4
  let target := fieldLE body 12 1
  if 1 < target then s.refuse St.range
  else if s.runningImage = some target then s.refuse St.state
  else if 28 * 2 ^ 20 < n ∨ n = 0 then s.refuse St.length
  else if s.tierOf a n ≠ some .far then s.refuse St.address
  else match s.devRead (.manager none) a n with
  | (0, bs, s) =>
    (match s.sec.now.verifyImage fun i => bs.getD i 0xFF with
     | .error r => s.refuse (imageStatus r)
     | .ok _ =>
       let s := s.norWrite (imageBase target) (28 * 2 ^ 20) bs
       match s.sec.now.verifyImage (s.imageAt target) with
       | .error r => s.refuse (imageStatus r)
       | .ok _ => (0, [], if bitAt 0 (fieldLE body 13 1) then s.writeHeader target else s))
  | (e, _, s) => s.refuse e

/-- Cut bytes into keys of 32. -/
def keysOf : Nat → List Byte → List (List Byte)
  | 0, _ => []
  | n + 1, bs => bs.take 32 :: keysOf n (bs.drop 32)

/-- LOAD_IDE_KEYS (R491): stream, key set, keys of 32 bytes. -/
def State.mbxIdeKeys (s : State) (head body : List Byte) : Answer :=
  let n := body.length - 4627 - 4
  if !s.secretOk head body then s.refuse St.signature
  else if n = 0 ∨ n % 32 ≠ 0 then s.refuse St.length
  else
    let keys := keysOf (n / 32) (body.drop 4)
    let s : State := { s with host := { s.host with ideKeys := keys, ideInsecure := false } }
    (0, [], (s.setF Reg.ideSecure 1).accepted head body (fieldLE body 0 1))

/-- LOAD_EXPORT_SECRET (R232): KEY_ID and 32 bytes. -/
def State.mbxSecret (s : State) (head body : List Byte) : Answer :=
  if !s.secretOk head body then s.refuse St.signature
  else
    let id := fieldLE body 0 4
    let s : State := { s with rng := { s.rng with secret := some ((body.drop 4).take 32) } }
    (0, [], ((s.setF Reg.rngSecret 1).setF Reg.exportKeyId id).accepted head body id)

/-! ### Orders (R450 to R452) -/

/-- Registers of a place in a cast, as an order gives them. -/
def State.takePlace (s : State) (o : List Byte) : State :=
  let s := ((s.setF Reg.fabCoord (coordWord (fieldLE o 16 3))).setF Reg.torusExtent (fieldLE o 28 3)).setF Reg.castId (fieldLE o 8 4)
  let s := ((s.setF Reg.castOrigin (fieldLE o 20 3)).setF Reg.castExtent (fieldLE o 24 3)).setF Reg.castCorrAck (bits 0 0 (fieldLE o 3 1))
  { s.setF Reg.donor (fieldLE o 48 3) with fov := { s.fov with donor := fieldLE o 48 3 } }

/-- Reserved bits of an order (Table 13.4). -/
def orderReserved (o : List Byte) : Bool :=
  bits 7 4 (fieldLE o 2 1) != 0 || bits 7 1 (fieldLE o 3 1) != 0 || [19, 23, 27, 31].any (fun i => fieldLE o i 1 != 0)
    || (o.drop 51).any (· != 0)

/-- Components of extents lie within 1 to 64. -/
def extentOk (e : Nat) : Bool := (List.range 3).all fun a => decide (1 ≤ extentOf e a) && decide (extentOf e a ≤ 64)

/-- The checks of R451 in order: the first one that fails, and its status. -/
def State.orderFault (s : State) (o sig : List Byte) : Option (Nat × Nat) :=
  let there := s.takePlace o
  if !s.signedBy 1 (sha3 o) sig then some (1, St.signature)
  else if 1 < fieldLE o 0 1 then some (2, St.version)
  else if fieldLE o 2 1 % 16 ≠ 2 then some (2, St.format)
  else if orderReserved o then some (2, St.reservedBit)
  else if fieldLE o 32 8 ≠ s.rd Reg.serialHash then some (3, St.target)
  else if fieldLE o 4 4 ≤ s.fld Reg.lastOrderId then some (4, St.staleOrder)
  else if s.fld Reg.fovRole ≠ 1 ∨ !s.allIdle then some (5, St.notAllowed)
  else if fieldLE o 8 4 = 0 ∨ !extentOk (fieldLE o 24 3) ∨ !extentOk (fieldLE o 28 3) ∨ !there.isMember (fieldLE o 16 3) then
    some (6, St.cast)
  else none

/-- ASSUME_POSITION (R450 to R452): an order of 128 bytes and its signature. -/
def State.mbxAssume (s : State) (head body : List Byte) : Answer :=
  let o := body.take 128
  match s.orderFault o (body.drop 128) with
  | some (k, st) => (s.event Ev.orderRejected UId.security [k, fieldLE o 4 4] st).refuse st
  | none =>
    let s := s.setF Reg.lastOrderId (fieldLE o 4 4)
    let s : State := { s with sec := { s.sec with healthDirty := true } }
    let s := ((s.takePlace o).setF Reg.fovRole 0).setF Reg.fovState 3
    (0, [], s.formCast.accepted head body (fieldLE o 4 4))

/-! ### Fleet tests (R524 to R526) -/

/-- Units of a class that a package may run on (R525). -/
def State.testUnits (s : State) (cls : Nat) : List Nat :=
  let free := s.allIdle || s.fld Reg.fovState == 7
  ((List.range (unitCount cls)).map (cls * 4096 + ·)).filter fun u =>
    let st := s.unitSt u
    st == US.idle || st == US.spare || st == US.test || (free && st != US.failed && st != US.off)

/-- The result record, signed by the alias key (R526). -/
def State.testRecord (s : State) (t : TestRun) : List Byte :=
  let fixed := leBytes 1 1 ++ leBytes 1 8 ++ leBytes 2 0 ++ leBytes 4 t.id ++ leBytes 4 (s.fld Reg.bootCount) ++ leBytes 4 0
    ++ leBytes 8 (s.rd Reg.serialHash) ++ leBytes 8 0 ++ t.digest
  let all := fixed ++ t.entries.flatMap fun e =>
    leBytes 2 e.1 ++ leBytes 2 e.2.1 ++ leBytes 1 (e.2.2.getD 2) ++ leBytes 3 0
  all ++ signWith s.sec.aliasSeed (sha3 all)

/-- A unit returns from a package: to its earlier state, or FAILED where a pattern failed on it (R525, R526). -/
def State.testReturn (s : State) (t : TestRun) (h : Nat × Nat) : State :=
  if t.entries.any fun e => e.2.1 == h.1 && e.2.2 == some 1 then
    let s := s.setUnit h.1 US.failed Ev.testResult Src.device
    if h.1 / 4096 = 1 ∧ h.2 = US.active then s.replaceEngine (h.1 % 4096) else s
  else if h.1 / 4096 = 1 ∧ s.unitRaw h.1 = US.test ∧ h.2 ≠ US.test then s.setUnit h.1 h.2 Ev.testResult Src.device
  else s

/-- End the package once every pattern has an outcome on every unit (R526). -/
def State.settleTest (s : State) : State :=
  match s.sec.test with
  | none => s
  | some t =>
    let left := t.entries.filter fun e => e.2.2.isNone
    let pats := (t.entries.map (·.1)).eraseDups.countP fun p => left.all fun e => e.1 != p
    let s := s.setF Reg.patternsDone pats
    if !left.isEmpty then s
    else
      let s : State := { s with sec := { s.sec with test := none, testDone := some (t.id, s.testRecord t) } }
      let s := t.held.foldl (fun s h => s.testReturn t h) s
      (s.setF Reg.testStateF 2).event Ev.testResult UId.security [t.id, t.entries.countP fun e => e.2.2 == some 1]

/-- TEST_PACKAGE (R524, R525): `runs` holds, by pattern index and unit, the digest of the outputs that the pattern gave. -/
def State.mbxTest (s : State) (runs : List (Nat × Nat × List Byte)) (head body : List Byte) : Answer :=
  let a := fieldLE body 0 8
  let n := fieldLE body 8 4
  if s.tierOf a n ≠ some .far then s.refuse St.address
  else match s.devRead (.manager none) a n with
  | (0, bs, s) =>
    let p := bs.take (bs.length - 4627)
    let targets := fieldLE p 10 2
    let pats := (List.range (fieldLE p 12 4)).map fun i => (p.drop (64 + 8 * targets + 96 * i)).take 96
    let mine := bitAt 0 (fieldLE p 3 1) || (List.range targets).any fun i => fieldLE p (64 + 8 * i) 8 == s.rd Reg.serialHash
    if bs.length < 4627 + 64 ∨ p.length ≠ 64 + fieldLE p 20 8 ∨ p.length < 64 + 8 * targets + 96 * fieldLE p 12 4 then s.refuse St.length
    else if !s.signedBy 2 (sha3 p) (bs.drop p.length) then s.refuse St.signature
    else if 1 < fieldLE p 0 1 then s.refuse St.version
    else if fieldLE p 2 1 ≠ 2 then s.refuse St.format
    else if s.fld Reg.svn < fieldLE p 8 2 then s.refuse St.svn
    else if !mine then s.refuse St.target
    else
      let id := fieldLE p 4 4
      let s := if s.fld Reg.fovState = 7 then match s.job 3 with
          | some j => s.unload 3 j
          | none => s
        else s
      if s.jf 3 Reg.jobState ≠ 0 ∨ s.sec.test.isSome then (s.event Ev.testResult UId.security [id, 0] St.busy).refuse St.busy
      else
        let units := pats.map fun d => s.testUnits (fieldLE d 2 1)
        let entries := pats.zipIdx.flatMap fun e => (units.getD e.2 []).map fun u =>
          let out := (runs.find? fun r => r.1 == e.2 && r.2.1 == u).map (·.2.2)
          (e.2, u, out.map fun d => if d = (e.1.drop 32).take 64 then 0 else 1)
        let held := units.flatten.eraseDups.map fun u => (u, s.unitSt u)
        let s := held.foldl (fun (s : State) h =>
          if h.1 / 4096 = 1 ∧ h.2 ≠ US.test then s.setUnit h.1 US.test Ev.mailboxAccepted Src.device h.2 else s) s
        let s : State := { s with sec := { s.sec with test := some { id, digest := (sha3 p).take 32, held, entries } } }
        (0, [], ((s.setF Reg.testStateF 1).accepted head body id).settleTest)
  | (e, _, s) => s.refuse e

/-- TEST_RESULT (R526). -/
def State.mbxTestResult (s : State) (_head body : List Byte) : Answer :=
  match s.sec.testDone with
  | some (id, r) => if id = fieldLE body 0 4 then (0, r, s) else s.refuse St.state
  | none => s.refuse St.state

/-! ### Key fuses (R523) -/

/-- KEY_FUSE: operation (0 enrol an owner key, 1 revoke an owner slot, 2 revoke a vendor slot), slot, hash of 64 bytes; then the
signer's public key and signature, which only the first enrolment does without. -/
def State.mbxKeyFuse (s : State) (head body : List Byte) : Answer :=
  let f := s.sec.fuses
  let op := fieldLE body 0 1
  let slot := fieldLE body 1 1
  let hash := (body.drop 4).take 64
  let pk := (body.drop 68).take 2592
  let sig := body.drop 2660
  let signed := body.length == 68 + 2592 + 4627 && s.sec.verifies pk (sha3 (head ++ body.take 68 ++ s.binding)) sig
  let byOwner := fun (except : Nat) => signed && (List.range 4).any fun n =>
    n != except && f.ownerKeys.getD n [] == sha3 pk && !bitAt n f.ownerRevoked
  let byVendor := signed && keyLive f.vendorKeys f.vendorRevoked (sha3 pk)
  let put := fun (f : Fuses) => ((0, [], { s with sec := { s.sec with fuses := f } }) : Answer)
  if 2 < op ∨ 3 < slot then s.refuse St.range
  else if op = 0 then
    if !(f.ownerKeys.getD slot []).isEmpty then s.refuse St.state
    else if f.owned ∧ !byOwner 4 then s.refuse St.signature
    else put { f with ownerKeys := f.ownerKeys.set slot hash }
  else if op = 1 then
    if (f.ownerKeys.getD slot []).isEmpty ∨ bitAt slot f.ownerRevoked then s.refuse St.state
    else if !byOwner slot then s.refuse St.signature
    else if liveMask f.ownerKeys (f.ownerRevoked + 2 ^ slot) = 0 then s.refuse St.notAllowed
    else put { f with ownerRevoked := f.ownerRevoked + 2 ^ slot }
  else
    if (f.vendorKeys.getD slot []).isEmpty ∨ bitAt slot f.vendorRevoked then s.refuse St.state
    else if !byVendor then s.refuse St.signature
    else if liveMask f.vendorKeys (f.vendorRevoked + 2 ^ slot) = 0 then s.refuse St.notAllowed
    else put { f with vendorRevoked := f.vendorRevoked + 2 ^ slot }

/-- READ_LOG: the kept entries from one of them on (R518). -/
def State.mbxReadLog (s : State) (_head body : List Byte) : Answer :=
  (0, ((s.sec.log.drop (fieldLE body 0 4)).take 1023).flatten, s)

/-! ### A request (R521, R522) -/

/-- Whether a command of Table 15.12 is accepted now, and the bytes its body may have. -/
def State.mbxForm (s : State) (code : Nat) : Option (Bool × (Nat → Bool)) :=
  let up := s.fld Reg.measDone == 1 && !(s.fld Reg.secAborted == 1)
  let is := fun (n : Nat) (k : Nat) => k == n
  match code with
  | 1 => some (up, is 32)
  | 2 => some (true, is 0)
  | 3 => some (true, is 4)
  | 4 => some (true, is 0)
  | 5 => some (true, is 0)
  | 6 => some (true, is 16)
  | 7 => some (s.served, fun k => decide (4627 + 4 < k))
  | 8 => some (up, is (36 + 4627))
  | 9 => some (up, is (128 + 4627))
  | 10 => some (up, is 12)
  | 11 => some (up, is 4)
  | 12 => some (up && s.allIdle, fun k => k == 68 || k == 68 + 2592 + 4627)
  | 13 => some (up, is 4)
  | _ => none

/-- What a command of Table 15.12 does. -/
def State.mbxRun (s : State) (runs : List (Nat × Nat × List Byte)) (code : Nat) (head body : List Byte) : Answer :=
  match code with
  | 1 => s.mbxEvidence head body
  | 2 => s.mbxCerts head body
  | 3 => s.mbxReadLedger head body
  | 4 => s.mbxClearLedger head body
  | 5 => s.mbxReadHealth head body
  | 6 => s.mbxImageUpdate head body
  | 7 => s.mbxIdeKeys head body
  | 8 => s.mbxSecret head body
  | 9 => s.mbxAssume head body
  | 10 => s.mbxTest runs head body
  | 11 => s.mbxTestResult head body
  | 12 => s.mbxKeyFuse head body
  | 13 => s.mbxReadLog head body
  | _ => s.refuse St.opcode

/-- Serve one request: status, response body, state. -/
def State.mbxServe (s : State) (runs : List (Nat × Nat × List Byte)) (req : List Byte) : Answer :=
  let head := req.take 16
  let body := req.drop 16
  if req.length < 16 then s.refuse St.length
  else if 1 < fieldLE head 0 1 then s.refuse St.version
  else if fieldLE head 1 1 ≠ 2 then s.refuse St.format
  else if fieldLE head 3 1 ≠ 0 ∨ fieldLE head 12 4 ≠ 0 then s.refuse St.reservedBit
  else match s.mbxForm (fieldLE head 2 1) with
  | none => s.refuse St.opcode
  | some (now, fits) =>
    if fieldLE head 8 4 ≠ body.length ∨ !fits body.length then s.refuse St.length
    else if !now then s.refuse St.state
    else s.mbxRun runs (fieldLE head 2 1) head body

/-- Serve a request while none is in progress; the whole response. -/
def State.mbxRespond (s : State) (runs : List (Nat × Nat × List Byte)) (req : List Byte) : List Byte × Nat × State :=
  let (st, out, s) := if s.fld Reg.mbxBusy = 1 then s.refuse St.busy else s.mbxServe runs req
  (leBytes 1 1 ++ leBytes 1 2 ++ (req.drop 2).take 1 ++ leBytes 1 0 ++ (req.drop 4).take 4 ++ leBytes 4 out.length ++ leBytes 2 st
    ++ leBytes 2 0 ++ out, st, s)

/-- The mailbox is there: the security controller has passed S1 (R508). -/
def State.mailboxUp (s : State) : Bool := s.pins.counted && decide (1 ≤ s.fld Reg.lastStep)

/-- A write of GO to MBX_CMD (R521, R528): the request at MBX_REQ is read and answered at MBX_RESP. -/
def State.mbxGo (s : State) (runs : List (Nat × Nat × List Byte)) : State :=
  if s.fld Reg.mbxBusy = 1 then s.discardWrite Reg.mbxCmd 1 3
  else
    let s := (s.setF Reg.mbxDone 0).setF Reg.mbxError 0
    let a := s.rd Reg.mbxReq
    let fail := fun (s : State) => (s.setF Reg.mbxDone 1).setF Reg.mbxError 1
    let get := fun (s : State) (a n : Nat) => if s.tierOf a n = some .far then s.devRead (.manager none) a n else (St.address, [], s)
    match get s a 16 with
    | (0, head, s) =>
      (match get s (a + 16) (min (2 ^ 16) (fieldLE head 8 4)) with
       | (0, body, s) =>
         let (resp, st, s) := s.mbxRespond runs (head ++ body)
         let (resp, st) := if s.rd Reg.mbxRespMax < resp.length then
             ((resp.take 8) ++ leBytes 4 0 ++ leBytes 2 St.length ++ leBytes 2 0, St.length) else (resp, st)
         let (w, s) := if s.tierOf (s.rd Reg.mbxResp) resp.length = some .far then s.devWrite (.manager none) (s.rd Reg.mbxResp) resp
                       else (St.address, s)
         (s.setF Reg.mbxDone 1).setF Reg.mbxError (b2n (st != 0 || w != 0))
       | (_, _, s) => fail s)
    | (_, _, s) => fail s

/-- COMMAND of the request that a path brings. -/
def State.pathCommand (s : State) (p : Path) : Nat :=
  match p with
  | .mailbox => s.num (s.rd Reg.mbxReq + 2) 1
  | .doe r => fieldLE r 2 1
  | .mctp _ r => fieldLE r 2 1

/-- A request arrives over a path (R489, R521, R532). -/
def State.request (s : State) (p : Path) (runs : List (Nat × Nat × List Byte)) : State :=
  match p with
  | .mailbox => if s.mailboxUp then s.mbxGo runs else s
  | .doe r =>
    if !s.mailboxUp then s
    else if 2 ^ 16 < r.length + 8 then s.emit .unsupported
    else
      let (resp, _, s) := s.mbxRespond runs r
      s.emit (.response (doeObject 0x1F3D 0x01 resp))
  | .mctp tag r => s.mgmt 7 tag fun s =>
      let (resp, _, s) := s.mbxRespond runs r
      (0, resp, s)

/-- A row of the mailbox: a request with its command. -/
def State.mbxRow (s : State) (code : Nat) (p : Path) (runs : List (Nat × Nat × List Byte) := []) : State :=
  if s.pathCommand p = code then s.request p runs else s

/-- REQ_TAG fits its two bytes. -/
def pathOk (p : Path) : Bool :=
  match p with
  | .mctp tag _ => decide (tag < 65536)
  | _ => true

/-! ### The rows -/

/-- GET_EVIDENCE (R520). -/
def execGetEvidence (path : Path) (s : State) : Host.Outcome State Fault Refusal := run (pathOk path) (fun s => s.mbxRow 1 path) s

/-- GET_CERTS (R517). -/
def execGetCerts (path : Path) (s : State) : Host.Outcome State Fault Refusal := run (pathOk path) (fun s => s.mbxRow 2 path) s

/-- READ_LEDGER (R509). -/
def execReadLedger (path : Path) (s : State) : Host.Outcome State Fault Refusal := run (pathOk path) (fun s => s.mbxRow 3 path) s

/-- CLEAR_LEDGER (R514). -/
def execClearLedger (path : Path) (s : State) : Host.Outcome State Fault Refusal := run (pathOk path) (fun s => s.mbxRow 4 path) s

/-- READ_HEALTH (R515). -/
def execReadHealth (path : Path) (s : State) : Host.Outcome State Fault Refusal := run (pathOk path) (fun s => s.mbxRow 5 path) s

/-- IMAGE_UPDATE (R522). -/
def execImageUpdate (path : Path) (s : State) : Host.Outcome State Fault Refusal := run (pathOk path) (fun s => s.mbxRow 6 path) s

/-- LOAD_IDE_KEYS (R491). -/
def execLoadIdeKeys (path : Path) (s : State) : Host.Outcome State Fault Refusal := run (pathOk path) (fun s => s.mbxRow 7 path) s

/-- LOAD_EXPORT_SECRET (R232). -/
def execLoadExportSecret (path : Path) (s : State) : Host.Outcome State Fault Refusal := run (pathOk path) (fun s => s.mbxRow 8 path) s

/-- ASSUME_POSITION (R452). -/
def execAssumePosition (path : Path) (s : State) : Host.Outcome State Fault Refusal := run (pathOk path) (fun s => s.mbxRow 9 path) s

/-- TEST_PACKAGE (R525). -/
def execTestPackage (path : Path) (runs : List (Nat × Nat × List Byte)) (s : State) : Host.Outcome State Fault Refusal :=
  run (pathOk path) (fun s => s.mbxRow 10 path runs) s

/-- PATTERN_TIMEOUT (R525): the pattern that a unit runs exceeds MAX_MS. -/
def execPatternTimeout (unit : Nat) (s : State) : Host.Outcome State Fault Refusal :=
  run (unitValid unit) (fun s =>
    match s.sec.test with
    | none => s
    | some t =>
      match t.entries.find? fun e => e.2.1 == unit && e.2.2.isNone with
      | none => s
      | some (p, _) =>
        let entries := t.entries.map fun e => if e.1 = p ∧ e.2.1 = unit ∧ e.2.2.isNone then (e.1, e.2.1, some 3) else e
        ({ s with sec := { s.sec with test := some { t with entries } } } : State).settleTest) s

/-- TEST_RESULT (R526). -/
def execTestResult (path : Path) (s : State) : Host.Outcome State Fault Refusal :=
  run (pathOk path) (fun s => s.settleTest.mbxRow 11 path) s

/-- KEY_FUSE (R523). -/
def execKeyFuse (path : Path) (s : State) : Host.Outcome State Fault Refusal := run (pathOk path) (fun s => s.mbxRow 12 path) s

/-- READ_LOG (R518). -/
def execReadLog (path : Path) (s : State) : Host.Outcome State Fault Refusal := run (pathOk path) (fun s => s.mbxRow 13 path) s

end Sys2Proof.Machine
end

