-- ==== Sys2Proof/Machine/Matinee.lean ====
section
/-!
DEFINITION. The MATINEE cue (R262, R264): the slice's size, and the rebuild of the matinee working copy.
-/
namespace Sys2Proof.Machine

open Sys2Proof

/-- The engine that rebuilds for a job: the first ACTIVE one of its matinee slice. -/
def State.matineeEngineOf (s : State) (j : Job) : Option Nat :=
  (List.range 144).find? fun e =>
    let l := 9 * (e / 9) + 7
    s.roleOf l == e && matineeEngine j.matineeSize l && s.engSt e == US.active

/-- The K40 elements of master m in the slot of the last complete snapshot (R264, R404): status, values, where they lie, state. -/
def State.snapMasters (s : State) (rq : Requester) (m : Tensor) : Nat × List Val × Nat × State :=
  match s.ckp.items.find? fun it => it.kind == 1 && it.index == m.idx with
  | none => (0, [], 0, s)
  | some it =>
    let base := s.ckp.slotAt s.pSlot + it.slotOff
    match s.readVals rq { m with base } 0 m.elems with
    | (e, vs, _, s) => (e, vs, base, s)

/-- Write the working copies one by one, each quantised or converted from its snapshot's masters; the first failure ends it: its status
and address. -/
def State.rebuildCopies (s : State) (rq : Requester) (slot : Nat) (j : Job) (step : Nat) : List (Tensor × Tensor) → Nat × Nat × State
  | [] => (0, 0, s)
  | (t, m) :: rest =>
    match s.snapMasters rq m with
    | (0, vs, _, s) =>
      (match (if vs.isEmpty then (0, s) else s.writeWork rq slot j t step scopeRebuild vs) with
       | (0, s) => s.rebuildCopies rq slot j step rest
       | (e, s) => (e, t.base, s))
    | (e, _, a, s) => (e, a, s)

/-- The whole working copy, every EVAL tensor that has masters, and the snapshot's step as TAG (R264). -/
def State.rebuild (s : State) (slot engine : Nat) (j : Job) (i : Nat) : State :=
  let todo := (List.range j.layout.length).filterMap fun k =>
    match j.tensor k with
    | some t => if t.isEval && t.isWeight then (j.tensor t.aux).map fun m => (t, m) else none
    | none => none
  let s := s.modJob slot fun (j : Job) => j.newScope scopeRebuild
  match s.rebuildCopies ⟨1, engine, some slot⟩ slot { j with rungs := [] } (s.num (s.ckp.slotAt s.pSlot + 24) 6) todo with
  | (0, _, s) =>
    let s := s.modJob slot fun (j : Job) => { j with mpc := 0 }
    (match SMap.find s.ops i with
     | some o =>
       { s with ops := SMap.put s.ops i { o with started := true, left := 0, tagOut := some (s.fld Reg.protectedStep % 2 ^ 32) } }
     | none => s)
  | (e, a, s) => s.opAbortAt i e a

/-- A rebuild may run now: a complete snapshot exists, no interval is under way, and the slice has an engine (R264). -/
def State.mayRebuild (s : State) (slot : Nat) (j : Job) : Option Nat :=
  if s.ckp.hasP ∧ !s.ckp.stopping ∧ s.ckp.job = some slot then s.matineeEngineOf j else none

/-- MATINEE (R262, R264): the size changes at the next attempt open; a rebuild runs now, or, once a complete snapshot and an engine of
the slice are there and no interval is under way, by MATINEE_REBUILD_RESTART. -/
def execMatinee (op : Nat) (s : State) : Host.Outcome State Fault Refusal :=
  run (opOk op) (fun s =>
    s.withOp op cMatinee fun o => s.withJob op o fun slot j =>
      let s := s.modJob slot fun (j : Job) => { j with pendMatinee := some (o.cue.op 36 1) }
      if !bitAt 0 (o.cue.op 37 1) then s.opDone op 0 0
      else match s.mayRebuild slot j with
        | some e => s.rebuild slot e j op
        | none => s.opDone op 0 1) s

/-- MATINEE_REBUILD_RESTART (R264): after an interval the rebuilds of a slot's job run from their beginning. -/
def execMatineeRebuildRestart (slot : Nat) (s : State) : Host.Outcome State Fault Refusal :=
  run (decide (slot < 4)) (fun s =>
    match s.job slot with
    | some j =>
      (match s.mayRebuild slot j with
       | some eng =>
         (s.ops.filter fun e => e.2.cue.opcode == cMatinee && e.2.cue.job == some slot && e.2.started && e.2.left == 1).foldl
           (fun s e => s.rebuild slot eng j e.1) s
       | none => s)
    | none => s) s

end Sys2Proof.Machine
end

