-- ==== Sys2Proof/Machine/Units.lean ====
section
/-!
DEFINITION. Requests on units (R536 to R540): the checks in order, fencing and its pending form, tests, power, and the results that
both paths report.
-/
namespace Sys2Proof.Machine

open Sys2Proof

/-! Results of a request (Table 16.8). -/
namespace Res
def ok : Nat := 0
def pending : Nat := 1
def staleGen : Nat := 2
def notAllowed : Nat := 3
def unitBusy : Nat := 4
def noSpare : Nat := 5
def failedUnit : Nat := 6
def invalid : Nat := 7
end Res

/-- Operations a class accepts (Table 16.4). -/
def classTakes (cls op : Nat) : Bool :=
  match cls with
  | 1 => true
  | 3 | 6 => op == 1 || op == 2 || op == 5 || op == 6
  | 4 | 5 => op == 1 || op == 2
  | _ => false

/-- The further condition of a class (Table 16.4). -/
def State.classFree (s : State) (u op : Nat) : Bool :=
  let i := u % 4096
  match u / 4096 with
  | 3 =>
    let owned := bits 10 8 (s.owner i 0) != 0 || (dualPort i && bits 10 8 (s.owner i 1) != 0)
    s.bf i Reg.bankLocked == 0 && !(op == 5 && owned)
  | 4 | 5 => s.allIdle
  | 6 => !(s.fld Reg.castState == 2 && s.pf i Reg.portInCast == 1)
  | _ => true

/-- The states an operation starts from (Table 16.5). -/
def fromState (op st source : Nat) : Bool :=
  match op with
  | 1 => st == US.active || st == US.idle || st == US.spare
  | 2 => st == US.fenced
  | 3 => st == US.fenced || st == US.idle || st == US.spare
  | 4 => st == US.test && decide (Src.host ≤ source)
  | 5 => st == US.fenced || st == US.idle
  | 6 => st == US.off && decide (Src.host ≤ source)
  | _ => false

/-- The checks of R538 in order: the first result that is not OK. -/
def State.unitCheck (s : State) (op basis u : Nat) : Nat :=
  let e := s.unitEntry u
  let st := s.unitSt u
  let source := bits 15 12 e
  if !unitValid u ∨ op < 1 ∨ 6 < op then Res.invalid
  else if serialAfter 32 (bits 63 32 e) basis then Res.staleGen
  else if st = US.failed then Res.failedUnit
  else if bits 11 8 e ≠ 0 then Res.unitBusy
  else if source ≤ Src.device ∧ st ≠ US.idle ∧ st ≠ US.spare ∧ st ≠ US.active then Res.notAllowed
  else if !classTakes (u / 4096) op ∨ !s.classFree u op ∨ !fromState op st source then Res.notAllowed
  else Res.ok

/-- SOURCE of a path. -/
def Via.source (v : Via) : Nat := match v with | .host => Src.host | .mctp _ => Src.mgmt

/-- What goes with a unit that is fenced or powered off: a port's link ends. -/
def State.quiesce (s : State) (u : Nat) : State :=
  if u / 4096 = 6 ∧ s.pst (u % 4096) ≠ PS.off then s.portStop (u % 4096) PS.off 5 else s

/-- A unit with no work of a running job is fenced: an engine by way of DRAINING, the other classes at once (R539, Table 16.4). -/
def State.fenceNow (s : State) (u source : Nat) : State :=
  let st := s.unitRaw u
  let s := if u / 4096 = 1 then s.setUnit u US.draining Ev.unitState source st else s
  (s.quiesce u).setUnit u US.fenced Ev.unitState source

/-- An ACTIVE engine of a running job is fenced between attempts: its spare takes its role by steps 2 to 4 of Table 13.2 (R539).
Without a spare by then the request is dropped. -/
def State.fenceEngine (s : State) (u source : Nat) : State :=
  let s : State := { s with mgt := { s.mgt with fences := s.mgt.fences.filter fun f => f.1 != u } }
  let e := u % 4096
  match s.spareFor (e / 9) with
  | some sp =>
    let s := s.setUnit u US.draining Ev.unitState source US.active
    (s.takeover e sp).setUnit u US.fenced Ev.unitState source
  | none =>
    let w := s.unitEntry u
    let s := s.setEntry u (bits 31 16 w) (bits 15 12 w) 0 (bits 7 4 w) (bits 3 0 w)
    s.event Ev.requestDropped u [1, source]

/-- Keep a fence for the step boundary (R539). -/
def State.fenceLater (s : State) (u source : Nat) : State :=
  let s := s.setEntry u Ev.unitState source 1 0 (s.unitRaw u)
  { s with mgt := { s.mgt with fences := s.mgt.fences ++ [(u, source)] } }

/-- The job slot whose attempt is open before its curtain (R539). -/
def State.beforeCurtain (s : State) : Option Nat :=
  (List.range 4).find? fun j => ((s.job j).map fun x => x.isOpen && !x.curtainPassed).getD false

/-- FENCE (R539). -/
def State.opFence (s : State) (u source : Nat) (immediate : Bool) : Nat × State :=
  let running := u / 4096 == 1 && s.unitRaw u == US.active && s.anyRunning
  if s.inStop then
    if running ∧ (s.spareFor (u % 4096 / 9)).isNone then (Res.noSpare, s) else (Res.pending, s.fenceLater u source)
  else if !running then (Res.ok, s.fenceNow u source)
  else if (s.spareFor (u % 4096 / 9)).isNone then (Res.noSpare, s)
  else if immediate then
    match s.beforeCurtain with
    | some j => (Res.ok, (s.abandon j Cause.stop).fenceEngine u source)
    | none => (Res.pending, s.fenceLater u source)
  else (Res.pending, s.fenceLater u source)

/-- UNFENCE (Table 16.5): IDLE, or the state that the class has in its place. -/
def State.opUnfence (s : State) (u source : Nat) : State :=
  let i := u % 4096
  let st :=
    match u / 4096 with
    | 1 => if (s.spareOf (i / 9)).isNone then US.spare else US.idle
    | 4 => US.active
    | 5 => if s.fld (Reg.ddrInSet.plus (0x40 * i)) = 1 then US.active else US.idle
    | _ => US.idle
  let s := s.setUnit u st Ev.unitState source
  if u / 4096 = 3 then s.bankUse i Ev.unitState source else s

/-- OFF (Table 16.5): a bank loses its content. -/
def State.opOff (s : State) (u source : Nat) : State :=
  let i := u % 4096
  let s := s.quiesce u
  let s := if u / 4096 = 3 then ((s.bankOff i).setBf i Reg.bankState 2).setBf i Reg.bankReq 2 else s
  s.setUnit u US.off Ev.unitState source

/-- ON (Table 16.5): a bank is initialised, a port goes to DETECT. -/
def State.opOn (s : State) (u source : Nat) : State :=
  let i := u % 4096
  let s := if u / 4096 = 3 then ((s.initBank i).setBf i Reg.bankState 0).setBf i Reg.bankReq 0 else s
  let s := s.setUnit u US.idle Ev.unitState source
  if u / 4096 = 6 then s.portEnableOp i else s

/-- END_TEST (Table 16.5, R440): the class's self-test passes or fails. -/
def State.opEndTest (s : State) (u source : Nat) (pass : Bool) : State :=
  s.setUnit u (if pass then bits 7 4 (s.unitEntry u) else US.failed) Ev.unitState source

/-- A request that has passed the checks: its result and what it does. -/
def State.unitOp (s : State) (op u source : Nat) (immediate pass : Bool) : Nat × State :=
  match op with
  | 1 => s.opFence u source immediate
  | 2 => (Res.ok, s.opUnfence u source)
  | 3 => (Res.ok, s.setUnit u US.test Ev.unitState source (s.unitRaw u))
  | 4 => (Res.ok, s.opEndTest u source pass)
  | 5 => (Res.ok, s.opOff u source)
  | _ => (Res.ok, s.opOn u source)

/-- Decide a request, count it, and lay out its result word (R538, R540, Table 16.8). -/
def State.unitRequest (s : State) (op basis u source : Nat) (immediate pass : Bool) : Nat × State :=
  let (r, s) := match s.unitCheck op basis u with
    | 0 =>
      let (r, s) := s.unitOp op u source immediate pass
      (r, if r = Res.noSpare then s else s.inc Reg.unitRequests)
    | r => (r, s.inc Reg.unitRejected)
  (s.fld Reg.unitGen * 2 ^ 32 + r * 2 ^ 28 + 2 ^ 27 + u % 2 ^ 16, s)

/-- A request over a path: UNIT_CMD shows the result in UNIT_CMD_STATUS, UNIT_REQUEST answers it (R532, R540). -/
def State.unitRow (s : State) (op basis u : Nat) (v : Via) (immediate : Bool := false) (pass : Bool := true) : State :=
  match v with
  | .host =>
    if s.open0 Reg.unitCmd then
      let (w, s) := s.unitRequest op basis u Src.host immediate pass
      s.wr Reg.unitCmdStatus w
    else s
  | .mctp tag => s.mgmt 4 tag fun s =>
      let (w, s) := s.unitRequest op basis u Src.mgmt immediate pass
      (0, leBytes 8 w, s)

/-- Operands of a request that its word can hold. -/
def unitOk (v : Via) (basis u : Nat) : Bool :=
  decide (basis < 2 ^ 32) && decide (u < 2 ^ 16) && match v with
    | .mctp tag => decide (tag < 65536)
    | .host => true

/-- UNIT_FENCE (R539). -/
def execUnitFence (via : Via) (basis unit : Nat) (immediate : Bool) (s : State) : Host.Outcome State Fault Refusal :=
  run (unitOk via basis unit) (fun s => s.unitRow 1 basis unit via immediate) s

/-- UNIT_UNFENCE (R538). -/
def execUnitUnfence (via : Via) (basis unit : Nat) (s : State) : Host.Outcome State Fault Refusal :=
  run (unitOk via basis unit) (fun s => s.unitRow 2 basis unit via) s

/-- UNIT_TEST (R538). -/
def execUnitTest (via : Via) (basis unit : Nat) (s : State) : Host.Outcome State Fault Refusal :=
  run (unitOk via basis unit) (fun s => s.unitRow 3 basis unit via) s

/-- UNIT_END_TEST (R538): `pass` is the outcome of the self-test. -/
def execUnitEndTest (via : Via) (basis unit : Nat) (pass : Bool) (s : State) : Host.Outcome State Fault Refusal :=
  run (unitOk via basis unit) (fun s => s.unitRow 4 basis unit via false pass) s

/-- UNIT_OFF (R538). -/
def execUnitOff (via : Via) (basis unit : Nat) (s : State) : Host.Outcome State Fault Refusal :=
  run (unitOk via basis unit) (fun s => s.unitRow 5 basis unit via) s

/-- UNIT_ON (R538). -/
def execUnitOn (via : Via) (basis unit : Nat) (s : State) : Host.Outcome State Fault Refusal :=
  run (unitOk via basis unit) (fun s => s.unitRow 6 basis unit via) s

/-- PENDING_FENCE_APPLY (R413, R539): before the next attempt opens, and after the interval's stop. -/
def execPendingFenceApply (unit : Nat) (s : State) : Host.Outcome State Fault Refusal :=
  run (unitValid unit) (fun s =>
    match s.mgt.fences.find? fun f => f.1 == unit with
    | none => s
    | some (u, source) =>
      if s.ckp.stopping ∨ (s.jobs.any fun j => j.2.isOpen) then s
      else if u / 4096 = 1 ∧ s.unitRaw u = US.active ∧ s.anyRunning then s.fenceEngine u source
      else
        let s : State := { s with mgt := { s.mgt with fences := s.mgt.fences.filter fun f => f.1 != u } }
        s.fenceNow u source) s

end Sys2Proof.Machine
end

