-- ==== Sys2Proof/Machine/RegWrite.lean ====
section
/-!
DEFINITION. A write to a register of BAR0 (R16, R18, R478, R479, R574): what it covers, when it is discarded, and what the
command registers and the registers with rules of their own do with the value written.
-/
namespace Sys2Proof.Machine

open Sys2Proof

/-- The low n bits set. -/
def ones (n : Nat) : Nat := 2 ^ n - 1

/-- Bits of a register that a write sets: its RW and RWL fields. -/
def RegDesc.writable (r : RegDesc) : Nat :=
  r.fields.foldl (fun m f => if f.acc = .rw ∨ f.acc = .rwl then m ||| ones (f.hi + 1 - f.lo) <<< f.lo else m) 0

/-- A register that only carries commands. -/
def RegDesc.isCommand (r : RegDesc) : Bool := r.fields.any fun f => f.acc == .wo

/-- a with the bits of m taken from b. -/
def mergeBits (m a b : Nat) : Nat := (a - (a &&& m)) ||| (b &&& m)

/-- The window of a repeated register: its index, if `off` is that register of one of n windows. -/
def windowIndex (base stride n off : Nat) : Option Nat :=
  if base ≤ off ∧ (off - base) % stride = 0 ∧ (off - base) / stride < n then some ((off - base) / stride) else none

/-- What a written value must satisfy besides the range of each field: alignment, address space and order (Tables 11.7, 12.9,
15.14, 18.5, R322, R325, R402). -/
def relationsOk (o v : Nat) : Bool :=
  let mib2 := v % 2 ^ 21 == 0
  let far := decide (farBase ≤ v) && decide (v < farEnd)
  if o = 0x200008 then
    decide (bits 7 0 v < bits 15 8 v) && decide (bits 15 8 v < bits 23 16 v) && decide (bits 23 16 v < bits 31 24 v)
  else if o = 0x20000C then decide (bits 15 8 v ≤ bits 7 0 v)
  else if o = Reg.exportBase then v == 0 || (far && mib2)
  else if o = Reg.exportSlotSize ∨ (0x200020 ≤ o ∧ o ≤ 0x200048) ∨ (0x160100 ≤ o ∧ o < 0x160200 ∧ o % 16 = 0) then mib2
  else if o = Reg.hostRingBase ∨ o = Reg.mbxReq ∨ o = Reg.mbxResp then far && v % 4096 == 0
  else if o = Reg.restoreBase then far
  else true

/-- The reason a write is discarded for the state of the device: 3 the state, 4 test access; none if it may be made. -/
def State.stateForbids (s : State) (o old v : Nat) : Option Nat :=
  if o = Reg.hostRingBase ∧ s.fld Reg.hostRingOn = 1 then some 3
  else if o = Reg.hostRingCtrl ∧ s.fld Reg.hostRingOn = 1 ∧ bits 4 0 old ≠ bits 4 0 v then some 3
  else if o = Reg.queTableBase ∧ s.fld Reg.queEnable = 1 then some 3
  else if 0x160010 ≤ o ∧ o ≤ 0x16001C ∧ !s.allIdle then some 3
  else match windowIndex 0x480040 0x400 144 o with
  | some e => if s.engSt e ≠ US.test then some 4 else none
  | none => none

/-- The bits of a register that no write changes once S12 has completed (R18, R501). -/
def State.lockedBits (s : State) (o : Nat) : Nat :=
  let m := rwlMask o
  m - (m &&& ((SMap.find s.sec.settings o).map (·.2)).getD 0)

/-- Why a write that would leave register r at v is discarded, if it is (R18, R574): 1 locked, 2 range, 3 state, 4 test access. -/
def State.writeFault (s : State) (r : RegDesc) (o cov v : Nat) : Option Nat :=
  let old := s.rd o
  let fits := r.fields.all fun f =>
    !(f.acc == .rw || f.acc == .rwl) || cov &&& (ones (f.hi + 1 - f.lo) <<< f.lo) == 0
      || (decide (f.min ≤ bits f.hi f.lo v) && decide (bits f.hi f.lo v ≤ f.max))
  match s.stateForbids o old v with
  | some k => some k
  | none =>
    if s.fld Reg.ready = 1 ∧ (old ^^^ v) &&& s.lockedBits o ≠ 0 then some 1
    else if !fits ∨ !relationsOk o v then some 2 else none

/-- What follows a control register's new value: the HELLOs of a new coordinate or failure domain, or of a new cast id while the device
belongs to a cast (R362), and the record of a power limit with the path of its write (R541). -/
def State.regWritten (s : State) (o old : Nat) (path : Nat) : State :=
  if (o = 0x160008 ∨ o = 0x160020 ∨ (o = 0x160010 ∧ s.fld Reg.castState ≠ 0)) ∧ s.rd o ≠ old then s.helloAll
  else if o = Reg.limitW.off then s.event Ev.powerLimit UId.stageManager [s.fld Reg.limitW, path]
  else s

/-- A write of CAST_CTRL (R376): CORR_ACK is set, and FORM acts unless it asks for the very cast that is formed or forming. -/
def State.castCtrl (s : State) (v : Nat) : State :=
  let standing := s.fld Reg.castForm == 1 && (s.fld Reg.castState == 1 || s.fld Reg.castState == 2) && s.fabric.formed == s.castNow
  let s := s.setF Reg.castCorrAck (bits 1 1 v)
  if bits 0 0 v = 0 then s.dissolveCast else if standing then s else s.formCast

/-- Registers whose write is a change of its own: bank owners and power, vector masks, port enables and the ring's head. The
write was made with `raw` at offset a. -/
def State.ownRule (s : State) (o v a raw : Nat) : Option State :=
  let bank := (o - 0x300000) / 0x40
  if 0x300000 ≤ o ∧ o < 0x330000 ∧ o % 0x40 < 8 then some (s.ownerWrite bank (o % 0x40 / 4) (bits 26 24 v) (bits 23 16 v) raw)
  else if 0x300000 ≤ o ∧ o < 0x330000 ∧ o % 0x40 = 8 then some (s.powerWrite bank (bits 1 0 v) raw)
  else if o = Reg.hostRingHead then some (s.ringHead v a raw)
  else match windowIndex 0x800C 16 2048 o, windowIndex 0x100008 0x10000 6 o with
  | some vec, _ => some (if bits 0 0 v = 0 then s.unmask vec else s.wrMask vec 1)
  | none, some p => some (if bits 0 0 v = 1 then s.portEnableOp p else s.portDisableOp p)
  | none, none => none

/-- A write of `raw` at offset a that leaves the control register r at o at v in the bits that `cov` covers: whole or not at all
(R574). A write discarded is recorded as it was made, with its own offset and value. -/
def State.setControl (s : State) (r : RegDesc) (o cov v a raw path : Nat) : State :=
  let old := s.rd o
  let given := mergeBits (cov &&& r.writable) old v
  let new := if o = Reg.fabCoord.off then coordWord given else given
  if cov &&& r.writable = 0 then s
  else match s.ownRule o new a raw with
  | some t => t
  | none =>
    match s.writeFault r o cov new with
    | some k => s.discardWrite a raw k
    | none => if o = 0x16001C then s.castCtrl new else (s.wr o new).regWritten o old path

/-- The clear registers of the blocks (Tables 3.12, 4.15, 5.16, 6.12, 7.14, 8.7, 9.11, 11.5, 11.7, 12.10, 13.10, 16.7, 16.9,
18.6), by offset. -/
def State.clearAt (s : State) (o : Nat) : State :=
  match windowIndex 0x4800C0 0x400 144 o, windowIndex 0x4801C0 0x400 144 o, windowIndex 0x1001C0 0x10000 6 o with
  | some e, _, _ => s.clearEng e 0x480080 6
  | _, some e, _ => s.clearEng e 0x480110 7
  | _, _, some p => s.clearPort p
  | _, _, _ =>
    if o = 0x801C0 then s.clearRegs 0x80100 8 13
    else if o = 0xA01C0 then s.clearRegs 0xA0100 8 7
    else if o = 0x201C0 then s.clearRegs 0x20100 8 4
    else if o = 0x1602C0 then s.clearRegs 0x160200 8 5
    else if o = 0xC01C0 then s.clearRegs 0xC0100 8 8
    else if o = 0xE01C0 then s.clearRegs 0xE0100 8 11
    else if o = 0x4001C0 then s.clearRegs 0x400100 8 2
    else if o = 0x6001C0 then s.clearRegs 0x600100 8 4
    else if o = 0x101C0 then s.clearRegs 0x10100 8 3
    else if o = 0x3301C0 then s.clearBnk
    else if o = 0x2007C0 then s.clearMem
    else s

/-- The command register at o acts on the value v (R18), written as `raw` at offset a. PORT_CMD written with FULL_TRAIN and RETRAIN
both set trains fully: the spec does not say which of the two acts (DESIGN CHOICE, log entry 64). -/
def State.command (s : State) (o v a raw : Nat) : State :=
  let q := bits 19 0 v
  if o = Reg.biasCmd then
    if bits 63 62 v = 1 ∨ bits 63 62 v = 2 then
      s.biasCmdOp (bits 63 62 v == 2) (bits 61 60 v) (bits 59 40 v + 1) (bits 19 0 v) a raw
    else if s.fld Reg.biasBusy = 1 then s.discardWrite a raw 3 else s
  else if o = Reg.queCmd then
    match bits 31 30 v with
    | 1 => s.queEnable q
    | 2 => s.queDisable q
    | 3 => s.queReset q
    | _ => s
  else if o = Reg.unitCmd then
    s.unitRow (bits 31 28 v) (bits 63 32 v) (bits 15 0 v) .host (bits 27 27 v == 1)
  else if o = Reg.mbxCmd then if bits 0 0 v = 1 then s.mbxGo [] else s
  else match windowIndex 0x10000C 0x10000 6 o, windowIndex 0x480044 0x400 144 o with
  | some p, _ => if bits 1 1 v = 1 then s.fullTrain p else if bits 0 0 v = 1 then s.enterRetrain p else s
  | none, some e => if s.engSt e ≠ US.test then s.discardWrite a raw 4 else if bits 0 0 v = 1 then s.capture e else s
  | none, none => if bits 0 0 v = 1 then s.clearAt o else s

/-- A write of n bytes to the register that covers offset a, or to the half of it that they cover (R574). A half of a 64-bit command
register (UNIT_CMD, BIAS_CMD) written alone acts at once, with the other half as zero: a command register holds nothing, and R574
speaks of control registers only (DESIGN CHOICE, log entry 65). -/
def State.writePart (s : State) (a n v path : Nat) : State :=
  match findReg a bar0 with
  | some (r, o, _) =>
    let cov := ones (8 * n) <<< (8 * (a - o))
    let new := (v % 2 ^ (8 * n)) <<< (8 * (a - o))
    if r.isCommand then s.command o new a (v % 2 ^ (8 * n)) else s.setControl r o cov new a (v % 2 ^ (8 * n)) path
  | none => s

/-- A write of `width` bytes at a BAR0 offset by the host or the management path: discarded where nothing is served (R478) and where
its width or alignment is bad (R479); an 8-byte write to two 32-bit registers is a write of each. -/
def State.regWrite (s : State) (off width v path : Nat) : State :=
  if !((width == 4 || width == 8) && off % width == 0) ∨ !s.open0 off then s
  else
    let whole : Bool := match findReg off bar0 with
      | some (r, _, _) => decide (r.width = 64)
      | none => false
    if width = 4 ∨ whole then s.writePart off width v path
    else (s.writePart off 4 (v % 2 ^ 32) path).writePart (off + 4) 4 (v / 2 ^ 32) path

/-- REGISTER_WRITE (R574). -/
def execRegisterWrite (offset width v : Nat) (s : State) : Host.Outcome State Fault Refusal :=
  run (decide (offset < 2 ^ 26) && decide (v < 2 ^ 64)) (fun s => s.regWrite offset width v Src.host) s

end Sys2Proof.Machine
end

