-- ==== Sys2Proof/Machine/Views.lean ====
section
/-!
DEFINITION. What a read of a register returns (R16, R19, R478): the stored value, or for a register that shows other state
the value formed from it when it is read. No read has a side effect.
-/
namespace Sys2Proof.Machine

open Sys2Proof

/-- Level 0 of the doorbell tree (R238): bit i is set while some queue of its 32,768 has its bell. -/
def State.treeRoot (s : State) : Nat :=
  (List.range 32).foldl (fun m i => m + 2 ^ i * b2n (s.queues.any fun e => e.2.bell && e.1 / 32768 == i)) 0

/-- A six-bit field with bit p set where the test holds of port p. -/
def portBits (f : Nat → Bool) : Nat := (List.range 6).foldl (fun m p => m + 2 ^ p * b2n (f p)) 0

/-- Engine e runs a check (R175). -/
def State.runsCheck (s : State) (e : Nat) : Bool :=
  (s.tiles.any fun t => t.engine == e && t.role != 0) || s.sets.any fun x => x.2.work.engine == e && x.2.work.role != 0

/-- NUM_STATUS with the checks that are pending (R175, Table 5.10). -/
def State.numStatus (s : State) : Nat :=
  let w := s.rd 0x80004
  let pending := !s.heldTiles.isEmpty || s.tiles.any fun t => t.role != 0
  let active := (List.range 144).any fun e => s.runsCheck e && s.engSt e == US.active
  setBits 4 4 (b2n active) (setBits 3 3 (b2n pending) w)

/-- RNG_STATUS with bulk work and redirected lending (Table 6.11). -/
def State.rngStatus (s : State) : Nat :=
  let w := s.rd 0xA0004
  let red := (List.range 16).any fun c => nibble c (s.rd Reg.bulkActive) != nibble c (s.rd Reg.bulkEngines)
  setBits 4 4 (b2n red) (setBits 3 3 (b2n s.bulkBusy) w)

/-- Banks whose field is set. -/
def State.bankCount (s : State) (f : Fld) : Nat := (List.range 3072).countP fun b => s.bf b f == 1

/-- The record that the EVT window shows at entry i (R568), or zeros. -/
def State.windowRec (s : State) (i : Nat) : List Byte :=
  match s.board.find? fun r => r.seq % 512 == i && decide (s.rd Reg.oldestSeq ≤ r.seq) && decide (s.rd Reg.nextSeq ≤ r.seq + 512) with
  | some r => r.bytes
  | none => leBytes 64 0

/-- REMAP_DATA of a stack: the entry that REMAP_SEL names, remap entries first, then retired ones (Table 9.12). -/
def State.remapView (s : State) (i : Nat) : Nat :=
  let x := s.stack i
  let k := s.fld (Reg.remapSel.plus (0x40 * i))
  let e := if k < 256 then x.remap[k]? else x.retired[k - 256]?
  match e with
  | some r => 2 ^ 31 + 2 ^ 30 * b2n r.ppr + 2 ^ 26 * r.spare + 2 ^ 20 * r.pc + r.row
  | none => 0

/-- The value of the register whose own BAR0 offset is `o`, as a read returns it. -/
def State.shown (s : State) (o : Nat) : Nat :=
  if o = Reg.devRev then setBits 23 16 Config.stepping.toNat (s.rd o)
  else if o = 0x10004 then setBits 1 1 (s.fld Reg.hostRingOn) (s.rd o)
  else if o = Reg.queStatus then s.ops.length
  else if o = Reg.treeRoot then s.treeRoot
  else if 0x40100 ≤ o ∧ o < 0x40500 ∧ o % 0x100 = 0x44 then s.holdUsed ((o - 0x40100) / 0x100)
  else if 0x40100 ≤ o ∧ o < 0x40500 ∧ o % 0x100 = 0x48 then
    ((s.job ((o - 0x40100) / 0x100)).map fun j => ceilDiv j.outboundBytes (2 ^ 20)).getD 0
  else if o = 0x80004 then s.numStatus
  else if o = 0xA0004 then s.rngStatus
  else if o = 0xE0004 then setBits 20 16 ((List.range 144).countP fun e => s.engSt e == US.spare) (s.rd o)
  else if o = 0x160004 then
    setBits 17 12 (portBits fun p => s.pst p == PS.up) (setBits 11 6 (portBits fun p => s.pf p Reg.portInCast == 1) (s.rd o))
  else if o = 0x200004 then setBits 2 0 (s.levels.foldl max 0) (s.rd o)
  else if 0x20010C ≤ o ∧ o < 0x200300 ∧ o % 0x40 = 0x0C then s.remapView ((o - 0x20010C) / 0x40)
  else if o = 0x330004 then setBits 31 16 (s.bankCount Reg.bankDegraded) (setBits 15 4 (s.bankCount Reg.bankFailed) 0)
  else if 0x410000 ≤ o ∧ o < 0x410080 then setBits 3 0 (s.unitSt (UId.cluster ((o - 0x410000) / 8))) (s.rd o)
  else if 0x440000 ≤ o ∧ o < 0x444800 then setBits 3 0 (s.unitSt (UId.cipher ((o - 0x440000) / 8))) (s.rd o)
  else if 0x480000 ≤ o ∧ o < 0x4A4000 ∧ o % 0x400 = 0x100 then setBits 12 12 (b2n (s.satMode ((o - 0x480000) / 0x400))) (s.rd o)
  else s.rd o

/-- A read of `width` bytes at a BAR0 offset: zero where nothing is served or the access is bad (R16, R478, R479). -/
def State.regRead (s : State) (off width : Nat) : Nat :=
  if !((width == 4 || width == 8) && off % width == 0) ∨ !s.open0 off then 0
  else if 0x18000 ≤ off ∧ off < 0x20000 then
    leNat (((s.windowRec ((off - 0x18000) / 64)).drop (off % 64)).take width)
  else
    let part := fun (a : Nat) =>
      match findReg a bar0 with
      | some (r, o, _) => if r.width = 64 ∧ a = o + 4 then s.shown o / 2 ^ 32 else if a = o then s.shown o % 2 ^ 32 else 0
      | none => 0
    if width = 4 then part off else part off + 2 ^ 32 * part (off + 4)

end Sys2Proof.Machine
end

