-- ==== Sys2Proof/Machine/Mgmt.lean ====
section
/-!
DEFINITION. The management path (R531 to R533, R545): the dynamic address, the MCTP control commands, and the commands of Table
16.2 that no other file holds.
-/
namespace Sys2Proof.Machine

open Sys2Proof

/-! ### I3C and MCTP control (R531) -/

/-- The provisioned ID (R531): bits 47 to 33, 31 to 16 and 5 to 0 are given, the rest are 0. -/
def State.provisionedId (s : State) : Nat :=
  0x1F3D * 2 ^ 33 + 0x4800 * 2 ^ 16 + (if s.pins.counted then s.fld Reg.slotIdReg else s.pins.slot)

/-- ENTDAA (R531): a target without a dynamic address answers with its provisioned ID and takes the address given. -/
def execEntdaa (addr : Nat) (s : State) : Host.Outcome State Fault Refusal :=
  run (decide (0 < addr) && decide (addr < 128)) (fun s =>
    if s.controllerUp ∧ s.fld Reg.dynAddr = 0 then (s.setF Reg.dynAddr addr).emit (.value s.provisionedId) else s) s

/-- An MCTP control command: answered while the management controller runs, with its completion code first (PRESUMED from
DSP0236, log entry 20). -/
def State.control (s : State) (f : State → List Nat × State) : State :=
  if s.controllerUp then
    let (bs, s) := f s
    s.emit (.response (bs.map (BitVec.ofNat 8 ·)))
  else s

/-- SET_ENDPOINT_ID (R531). 0 and 0xFF are no endpoint IDs and are answered with the code for invalid data. -/
def execSetEndpointId (eid : Nat) (s : State) : Host.Outcome State Fault Refusal :=
  run (decide (eid < 256)) (fun s => s.control fun s =>
    if eid = 0 ∨ eid = 255 then ([2], s) else ([0, 0, eid, 0], s.setF Reg.eid eid)) s

/-- GET_ENDPOINT_ID (R531). -/
def execGetEndpointId (s : State) : Host.Outcome State Fault Refusal :=
  run true (fun s => s.control fun s => ([0, s.fld Reg.eid, 0, 0], s)) s

/-- GET_MCTP_VERSION_SUPPORT (R531): one version, whose number the manual does not give. -/
def execGetMctpVersionSupport (s : State) : Host.Outcome State Fault Refusal :=
  run true (fun s => s.control fun s => ([0, 1] ++ (List.range 4).map (fun i => (Config.mctpVersion i).toNat), s)) s

/-- GET_MESSAGE_TYPE_SUPPORT (R531): MCTP control and vendor-defined PCI. -/
def execGetMessageTypeSupport (s : State) : Host.Outcome State Fault Refusal :=
  run true (fun s => s.control fun s => ([0, 2, 0x00, 0x7E], s)) s

/-- GET_VENDOR_DEFINED_MESSAGE_SUPPORT (R531): the PCI vendor ID 0x1F3D, and no further set. -/
def execGetVendorDefinedMessageSupport (s : State) : Host.Outcome State Fault Refusal :=
  run true (fun s => s.control fun s => ([0, 0xFF, 0, 0x1F, 0x3D, 0, 0], s)) s

/-! ### Vendor-defined commands (R532, Table 16.2) -/

/-- Completion code INVALID_DATA (R532). -/
def mcInvalidData : Nat := 2

/-- GET_STATUS (R532): MGT_STATUS, DEV_STATUS and UNIT_GEN. -/
def execGetStatus (tag : Nat) (s : State) : Host.Outcome State Fault Refusal :=
  run (decide (tag < 65536)) (fun s => s.mgmt 1 tag fun s =>
    (0, leBytes 4 (s.rd Reg.mgtStatus) ++ leBytes 4 (s.rd Reg.ready.off) ++ leBytes 4 (s.fld Reg.unitGen), s)) s

/-- READ_REG (R532): the value is read under R19 and R478. -/
def execReadReg (tag offset width : Nat) (s : State) : Host.Outcome State Fault Refusal :=
  run (decide (tag < 65536) && decide (offset < 2 ^ 32)) (fun s => s.mgmt 2 tag fun s =>
    if (width = 4 ∨ width = 8) ∧ offset % width = 0 ∧ offset < 2 ^ 26 then (0, leBytes width (s.regRead offset width), s)
    else (mcInvalidData, [], s)) s

/-- WRITE_REG (R532): handled as a host write of 4 bytes at an offset of the MGT block. -/
def execWriteReg (tag offset v : Nat) (s : State) : Host.Outcome State Fault Refusal :=
  run (decide (tag < 65536) && decide (offset < 2 ^ 32) && decide (v < 2 ^ 32)) (fun s => s.mgmt 3 tag fun s =>
    if offset < 0x100000 then (0, [], s.regWrite (0x600000 + offset) 4 v Src.mgmt) else (mcInvalidData, [], s)) s

/-- READ_UNITS (R532): entries of a class as they read (R536). -/
def execReadUnits (tag cls first count : Nat) (s : State) : Host.Outcome State Fault Refusal :=
  run (decide (tag < 65536)) (fun s => s.mgmt 5 tag fun s =>
    if 0 < count ∧ count ≤ 512 ∧ first + count ≤ unitCount cls then
      (0, (List.range count).flatMap fun i => leBytes 8 (s.shown (unitOff (cls * 4096 + first + i))), s)
    else (mcInvalidData, [], s)) s

/-- READ_EVENTS (R532, R568): records from `first`, or from OLDEST_SEQ. -/
def execReadEvents (tag first count : Nat) (s : State) : Host.Outcome State Fault Refusal :=
  run (decide (tag < 65536) && decide (first < 2 ^ 64)) (fun s => s.mgmt 6 tag fun s =>
    if 0 < count ∧ count ≤ 64 then
      let from' := max first (s.rd Reg.oldestSeq)
      (0, (s.board.filter fun r => decide (from' ≤ r.seq) && decide (r.seq < from' + count)).flatMap EvRec.bytes, s)
    else (mcInvalidData, [], s)) s

/-- MCTP_ASSEMBLY_TIMEOUT (R533): an incomplete message is discarded without a response. -/
def execMctpAssemblyTimeout (s : State) : Host.Outcome State Fault Refusal :=
  run true (fun s => { s with mgt := { s.mgt with assembling := false } }) s

/-- MC_WATCHDOG (R545): the security controller restarts the management controller, which loses its addresses. -/
def execMcWatchdog (s : State) : Host.Outcome State Fault Refusal :=
  run true (fun s =>
    if s.controllerUp then (s.stopController.inc Reg.mcRestarts).event Ev.mcRestart UId.ioNorth else s) s

end Sys2Proof.Machine
end

