-- ==== Sys2Proof/Machine/Thermal.lean ====
section
/-!
DEFINITION. Power limit, telemetry and the sensors of the die and the input (R541 to R544, R557).
-/
namespace Sys2Proof.Machine

open Sys2Proof

/-- The unit that a sensor of the die or the input belongs to: the stage manager stands for the compute die, which is no unit
(DESIGN CHOICE, log entry 180). -/
def sensorUnit (i : Nat) : Nat := if i < 32 then UId.stageManager else if 36 ≤ i ∧ i < 40 then UId.ioSouth else UId.ioNorth

/-- A sensor is faulty. -/
def State.faulty (s : State) (i : Nat) : Bool := s.mgt.faulty.contains i

/-- One sample of sensor i, which gave `reading` or none: out of range at once, or silent twice, makes it faulty (R544). -/
def State.sense (s : State) (i : Nat) (reading : Option Int) (lo hi : Int) : State :=
  if s.faulty i then s
  else
    let bad := match reading with
      | some t => decide (t < lo) || decide (hi < t)
      | none => s.mgt.silent.contains i
    let silent := s.mgt.silent.filter (· != i)
    if bad then
      { s with mgt := { s.mgt with faulty := s.mgt.faulty ++ [i], silent } }.sensorFault (sensorUnit i) i (reading.getD 0)
    else { s with mgt := { s.mgt with silent := if reading.isNone then silent ++ [i] else silent } }

/-- The core supply is held at 0.55 V (R544). -/
def State.supplyHeld (s : State) : Bool := s.mgt.vinLow || s.faulty 40 || s.faulty 41 || s.faulty 42

/-- Set the core supply: at 0.65 V in service, held at 0.55 V by R544, or lowered to hold the limits of R541, to a level between
0.55 V and the present one that the manual does not give (a free value, log entry 181). -/
def State.setSupply (s : State) : State :=
  if s.supplyHeld then { s with mgt := { s.mgt with supply := 550 } }
  else if s.fld Reg.mgtCap = 0 then { s with mgt := { s.mgt with supply := 650 } }
  else
    let (w, s) := s.draw
    { s with mgt := { s.mgt with supply := min s.mgt.supply (550 + w.toNat % 101) } }

/-- Put the caps in effect, with the event of a change (R541): 1 power, 2 thermal. -/
def State.setCap (s : State) (cap : Nat) : State :=
  let old := s.fld Reg.mgtCap
  let s := (s.setF Reg.mgtCap cap).setSupply
  if old = cap then s else s.event Ev.cap UId.stageManager [cap, twos 32 s.mgt.tj]

/-- The junction temperature calls for the thermal cap (R541). -/
def State.tjHot (s : State) : Bool := decide ((s.fld Reg.tjWarn : Int) ≤ s.mgt.tj)

/-- Average of the samples of the last local second, in W; with fewer samples since the start, their average. -/
def Mgt.average (m : Mgt) : Nat := m.window.foldl (· + ·) 0 / max 1 m.window.length

/-- POWER_CONTROL_TICK (R541, R542, R544): input voltage in mV and current in mA of one 100 µs average. A reading that is missing
once leaves the last power; a faulty sensor makes the draw count as LIMIT_W. -/
def execPowerControlTick (mv ma : Option Nat) (s : State) : Host.Outcome State Fault Refusal :=
  run true (fun s =>
    if !s.controllerUp then s
    else
      let s := (s.sense 40 (mv.map (↑·)) 30000 70000).sense 41 (ma.map (↑·)) 0 80000
      let limit := s.fld Reg.limitW
      let p : Nat := if s.faulty 40 ∨ s.faulty 41 then limit else match mv, ma with
        | some v, some a => v * a / 1000000
        | _, _ => s.fld Reg.pIn
      let m := s.mgt
      let vin := if s.faulty 40 then m.vin else mv.getD m.vin
      let excess := if limit < p then m.excess + 1 else 0
      let s : State := { s with mgt := { m with
        window := (p :: m.window).take 10000, excess, energy := m.energy + p, vin
        vinLow := m.vinLow && (vin < 40000 || 60000 < vin) } }
      let s := (s.setF Reg.pIn (min p 65535)).setF Reg.mgtExcursion (b2n (limit < p))
      let s := s.setF Reg.energy (min (s.mgt.energy / 10) (2 ^ 64 - 1))
      let power := decide (2900 < p) || decide (100 ≤ excess)
        || decide (limit * s.mgt.window.length < s.mgt.window.foldl (· + ·) 0)
      s.setCap (b2n power + 2 * b2n s.tjHot)) s

/-- Sensors of a die: the compute die, I/O die North, I/O die South. -/
def dieSensors (d : Nat) : List Nat :=
  match d with
  | 0 => List.range 32
  | 1 => (List.range 4).map (32 + ·)
  | _ => (List.range 4).map (36 + ·)

/-- Fewer than half of a die's sensors remain valid (Table 16.6). -/
def State.dieBlind (s : State) (d : Nat) : Bool :=
  let ds := dieSensors d
  decide (2 * ds.countP (fun i => !s.faulty i) < ds.length)

/-- The highest reading of some sensors that are valid, or `old` if none gave one. -/
def State.hottest (s : State) (readings : List (Option Int)) (sensors : List Nat) (old : Int) : Int :=
  match sensors.filterMap fun i => if s.faulty i then none else readings.getD i none with
  | [] => old
  | t :: ts => ts.foldl max t

/-- A stack or DIMM is at thermal level 2 or above (R314). -/
def State.memHot (s : State) : Bool := s.levels.any (2 ≤ ·)

/-- JUNCTION_TEMP_SAMPLE (R541, R543, R544): one sample of the 40 junction sensors, in °C: 32 of the compute die, 4 of I/O die North,
4 of I/O die South. -/
def execJunctionTempSample (readings : List (Option Int)) (s : State) : Host.Outcome State Fault Refusal :=
  run (readings.length == 40) (fun s =>
    let s := (List.range 40).foldl (fun (s : State) i => s.sense i (readings.getD i none) (-40) 150) s
    let compute := s.hottest readings (dieSensors 0) s.mgt.tjCompute
    let io := s.hottest readings (dieSensors 1 ++ dieSensors 2) s.mgt.tjIo
    let warn : Int := s.fld Reg.tjWarn
    let tj := if (List.range 3).any s.dieBlind then warn else max compute io
    let cool := if tj < warn - 3 ∧ !s.memHot then s.mgt.cool + 1 else 0
    let s : State := { s with mgt := { s.mgt with
      tj, tjCompute := compute, tjIo := io, cool, trip := if 115 ≤ tj then s.mgt.trip + 1 else 0 } }
    let s := s.setCap (s.fld Reg.mgtCap % 2 + 2 * b2n s.tjHot)
    let s := if s.fld Reg.mgtCap = 0 then s else s.inc Reg.capMs
    if warn ≤ tj ∨ s.memHot then s.setTherm true else if 10 ≤ cool then s.setTherm false else s) s

/-- The core, HBM and DDR rails go: what they held is lost (R543). -/
def State.dropRails (s : State) : State :=
  { s with mem := s.mem.filter (fun e => farBase ≤ e.1), banks := [], mgt := { s.mgt with railsOff := true } }

/-- THERMAL_TRIP (R543): after 3 samples at 115 °C or above the device declares itself failed and removes the core, HBM and DDR
rails, and what they held is lost. -/
def execThermalTrip (s : State) : Host.Outcome State Fault Refusal :=
  run true (fun s =>
    if s.mgt.trip < 3 ∨ s.mgt.railsOff then s
    else
      let s := (s.declareFailed 0x7108 UId.stageManager).setFault true
      s.dropRails) s

/-- VIN_OUT_OF_RANGE (R544): the input has been outside 40 to 60 V for more than 1 local ms. -/
def execVinOutOfRange (mv : Nat) (s : State) : Host.Outcome State Fault Refusal :=
  run true (fun s =>
    if (40000 ≤ mv ∧ mv ≤ 60000) ∨ s.mgt.vinLow ∨ !s.controllerUp then s
    else
      let s : State := { s with mgt := { s.mgt with vin := mv, vinLow := true } }
      s.setSupply.event Ev.vinRange UId.ioNorth [mv]) s

/-- The highest stack temperature, of the stacks that are up with a valid sensor. -/
def State.hbmHottest (s : State) : Int :=
  let ts := (List.range 8).filterMap fun i =>
    if s.fld (Reg.stackUp.plus (0x40 * i)) = 1 ∧ !(s.stack i).faulty then some (sext 8 (s.fld (Reg.stackTemp.plus (0x40 * i)))) else none
  match ts with
  | [] => 0
  | t :: ts => ts.foldl max t

/-- The highest DIMM temperature, of the trained channels with a valid sensor. -/
def State.dimmHottest (s : State) : Int :=
  let ts := (List.range 8).filterMap fun c =>
    if s.fld (Reg.ddrTrained.plus (0x40 * c)) = 1 ∧ !(s.channel c).faulty then some (sext 8 (s.channel c).temp) else none
  match ts with
  | [] => 0
  | t :: ts => ts.foldl max t

/-- TELEMETRY_UPDATE (R542, R544): the registers that change every local ms. `vcore` is the core voltage in mV, `beat` the beat
rate. -/
def execTelemetryUpdate (vcore : Option Nat) (beat : Nat) (s : State) : Host.Outcome State Fault Refusal :=
  run (decide (beat < 65536)) (fun s =>
    if !s.controllerUp then s
    else
      let s := (s.sense 42 (vcore.map (↑·)) 400 900).setSupply
      let s := (s.setF Reg.pAvg (min s.mgt.average 65535)).setF Reg.vIn (min s.mgt.vin 65535)
      let s := if s.faulty 42 then s else s.setF Reg.vCore (vcore.getD (s.fld Reg.vCore))
      let s := s.setF Reg.beatRate beat
      let s := (s.setF Reg.tjCompute (twos 8 s.mgt.tjCompute)).setF Reg.tjIo (twos 8 s.mgt.tjIo)
      (s.setF Reg.hbmMax (twos 8 s.hbmHottest)).setF Reg.dimmMax (twos 8 s.dimmHottest)) s

end Sys2Proof.Machine
end

