-- ==== Sys2Proof/Machine/Dispatch.lean ====
section
/-!
DEFINITION. One arm per command: its meaning, or its rejection by name.
-/
namespace Sys2Proof.Machine

open Sys2Proof

def exec (i : Instr) (s : State) : Host.Outcome State Fault Refusal :=
  match i with
  | .perstNRelease rep => Sys2Proof.Machine.execPerstNRelease rep s
  | .startWatchdogExpiry stepNo unit rep => Sys2Proof.Machine.execStartWatchdogExpiry stepNo unit rep s
  | .perstNAssert => Sys2Proof.Machine.execPerstNAssert s
  | .cxlLinkDown rep => Sys2Proof.Machine.execCxlLinkDown rep s
  | .pwrGoodLoss => Sys2Proof.Machine.execPwrGoodLoss s
  | .pwrGoodAssert => Sys2Proof.Machine.execPwrGoodAssert s
  | .stbyOkAssert => Sys2Proof.Machine.execStbyOkAssert s
  | .undervoltageLockout => Sys2Proof.Machine.execUndervoltageLockout s
  | .vsbLow => Sys2Proof.Machine.execVsbLow s
  | .refclkLost => Sys2Proof.Machine.execRefclkLost s
  | .refclkReturn => Sys2Proof.Machine.execRefclkReturn s
  | .fclkLost => Sys2Proof.Machine.execFclkLost s
  | .slotIdChanged slot => Sys2Proof.Machine.execSlotIdChanged slot s
  | .timerRecalibration => Sys2Proof.Machine.execTimerRecalibration s
  | .doorbellCueTail queue tail => Sys2Proof.Machine.execDoorbellCueTail queue tail s
  | .doorbellCplHead queue head => Sys2Proof.Machine.execDoorbellCplHead queue head s
  | .cueFetch => Sys2Proof.Machine.execCueFetch s
  | .cueIssue id => Sys2Proof.Machine.execCueIssue id s
  | .cueComplete op => Sys2Proof.Machine.execCueComplete op s
  | .completionRecordWrite queue => Sys2Proof.Machine.execCompletionRecordWrite queue s
  | .msixMessage vector => Sys2Proof.Machine.execMsixMessage vector s
  | .msixUnmask vector => Sys2Proof.Machine.execMsixUnmask vector s
  | .badAccess offset width write newPeriod => Sys2Proof.Machine.execBadAccess offset width write newPeriod s
  | .hostMemAccess hpa len write bytes ups => Sys2Proof.Machine.execHostMemAccess hpa len write bytes ups s
  | .hdmDecoderCommit decoder base size ways => Sys2Proof.Machine.execHdmDecoderCommit decoder base size ways s
  | .d3hotRequest => Sys2Proof.Machine.execD3hotRequest s
  | .atsInvalidation page => Sys2Proof.Machine.execAtsInvalidation page s
  | .doeDiscovery index => Sys2Proof.Machine.execDoeDiscovery index s
  | .cdatRead entry => Sys2Proof.Machine.execCdatRead entry s
  | .doeAbort => Sys2Proof.Machine.execDoeAbort s
  | .ideIntegrityFailure => Sys2Proof.Machine.execIdeIntegrityFailure s
  | .farRequestError addr use who => Sys2Proof.Machine.execFarRequestError addr use who s
  | .farRequestTimeout addr use who => Sys2Proof.Machine.execFarRequestTimeout addr use who s
  | .product op engines => Sys2Proof.Machine.execProduct op engines s
  | .fillRaw op engine => Sys2Proof.Machine.execFillRaw op engine s
  | .fillBernoulli op engine => Sys2Proof.Machine.execFillBernoulli op engine s
  | .fillNormal op engine => Sys2Proof.Machine.execFillNormal op engine s
  | .fillCategorical op engine => Sys2Proof.Machine.execFillCategorical op engine s
  | .move op mover => Sys2Proof.Machine.execMove op mover s
  | .collectiveAllreduce op exps => Sys2Proof.Machine.execCollectiveAllreduce op exps s
  | .collectiveBroadcast op => Sys2Proof.Machine.execCollectiveBroadcast op s
  | .collectiveMax op => Sys2Proof.Machine.execCollectiveMax op s
  | .collectiveDigest op => Sys2Proof.Machine.execCollectiveDigest op s
  | .collectiveXor op => Sys2Proof.Machine.execCollectiveXor op s
  | .collectiveSend op => Sys2Proof.Machine.execCollectiveSend op s
  | .collectiveRecv op => Sys2Proof.Machine.execCollectiveRecv op s
  | .updateAdamw op unit => Sys2Proof.Machine.execUpdateAdamw op unit s
  | .updateSgd op unit => Sys2Proof.Machine.execUpdateSgd op unit s
  | .updateCyleyAdamw op unit => Sys2Proof.Machine.execUpdateCyleyAdamw op unit s
  | .data op => Sys2Proof.Machine.execData op s
  | .join op => Sys2Proof.Machine.execJoin op s
  | .loss op => Sys2Proof.Machine.execLoss op s
  | .metric op => Sys2Proof.Machine.execMetric op s
  | .jobLoad op peers => Sys2Proof.Machine.execJobLoad op peers s
  | .jobStart op => Sys2Proof.Machine.execJobStart op s
  | .jobStop op => Sys2Proof.Machine.execJobStop op s
  | .jobUnload op => Sys2Proof.Machine.execJobUnload op s
  | .recipe op => Sys2Proof.Machine.execRecipe op s
  | .param op => Sys2Proof.Machine.execParam op s
  | .matinee op => Sys2Proof.Machine.execMatinee op s
  | .cancelAhead op => Sys2Proof.Machine.execCancelAhead op s
  | .attemptOpen slot => Sys2Proof.Machine.execAttemptOpen slot s
  | .rotationKeyLoad epoch => Sys2Proof.Machine.execRotationKeyLoad epoch s
  | .microBatchBoundary slot mb => Sys2Proof.Machine.execMicroBatchBoundary slot mb s
  | .curtain slot peers => Sys2Proof.Machine.execCurtain slot peers s
  | .maxAttemptsReached slot => Sys2Proof.Machine.execMaxAttemptsReached slot s
  | .commit slot => Sys2Proof.Machine.execCommit slot s
  | .forcedInterval slot pending failed => Sys2Proof.Machine.execForcedInterval slot pending failed s
  | .intervalStop slot peers => Sys2Proof.Machine.execIntervalStop slot peers s
  | .snapshotSeal slot => Sys2Proof.Machine.execSnapshotSeal slot s
  | .drainComplete slot => Sys2Proof.Machine.execDrainComplete slot s
  | .drainGivenUp slot => Sys2Proof.Machine.execDrainGivenUp slot s
  | .exportComplete slot => Sys2Proof.Machine.execExportComplete slot s
  | .matineeRebuildRestart slot => Sys2Proof.Machine.execMatineeRebuildRestart slot s
  | .passStart engine set meet => Sys2Proof.Machine.execPassStart engine set meet s
  | .tileDrain engine set => Sys2Proof.Machine.execTileDrain engine set s
  | .secondDrain engine set => Sys2Proof.Machine.execSecondDrain engine set s
  | .a64Overflow engine set => Sys2Proof.Machine.execA64Overflow engine set s
  | .engineWatchdog engine => Sys2Proof.Machine.execEngineWatchdog engine s
  | .testCapture engine => Sys2Proof.Machine.execTestCapture engine s
  | .faultCheckRun tile engine => Sys2Proof.Machine.execFaultCheckRun tile engine s
  | .faultCheckCompare tile => Sys2Proof.Machine.execFaultCheckCompare tile s
  | .faultVerdict tile => Sys2Proof.Machine.execFaultVerdict tile s
  | .damageCheck tile => Sys2Proof.Machine.execDamageCheck tile s
  | .silenceReached slot tensor => Sys2Proof.Machine.execSilenceReached slot tensor s
  | .bankRead who addr len ups => Sys2Proof.Machine.execBankRead who addr len ups s
  | .bankWrite who line cells => Sys2Proof.Machine.execBankWrite who line cells s
  | .addW32 who addr v want ups => Sys2Proof.Machine.execAddW32 who addr v want ups s
  | .addW64 who addr v want ups => Sys2Proof.Machine.execAddW64 who addr v want ups s
  | .addI32 who addr v ups => Sys2Proof.Machine.execAddI32 who addr v ups s
  | .addA64 who hdr addr info elems ups => Sys2Proof.Machine.execAddA64 who hdr addr info elems ups s
  | .addF32 who addr v ups => Sys2Proof.Machine.execAddF32 who addr v ups s
  | .swap32 who addr v ups => Sys2Proof.Machine.execSwap32 who addr v ups s
  | .swap64 who addr v ups => Sys2Proof.Machine.execSwap64 who addr v ups s
  | .bankOwnerWrite bank port kind index => Sys2Proof.Machine.execBankOwnerWrite bank port kind index s
  | .handoverComplete bank port => Sys2Proof.Machine.execHandoverComplete bank port s
  | .bankPowerRequest bank req => Sys2Proof.Machine.execBankPowerRequest bank req s
  | .bankPowerStateEntry bank => Sys2Proof.Machine.execBankPowerStateEntry bank s
  | .bankPatrolScrub bank ups => Sys2Proof.Machine.execBankPatrolScrub bank ups s
  | .degradedEngineMove engine => Sys2Proof.Machine.execDegradedEngineMove engine s
  | .hbmAccess who addr len write bytes ups die => Sys2Proof.Machine.execHbmAccess who addr len write bytes ups die s
  | .hbmPatrolScrub addr symbols => Sys2Proof.Machine.execHbmPatrolScrub addr symbols s
  | .ddrPatrolScrub addr devices => Sys2Proof.Machine.execDdrPatrolScrub addr devices s
  | .healthRecordWrite => Sys2Proof.Machine.execHealthRecordWrite s
  | .hbmTempSample stack temp => Sys2Proof.Machine.execHbmTempSample stack temp s
  | .thermalLevelFall dimm index => Sys2Proof.Machine.execThermalLevelFall dimm index s
  | .dimmTempSample channel temp => Sys2Proof.Machine.execDimmTempSample channel temp s
  | .slowNoticeSend => Sys2Proof.Machine.execSlowNoticeSend s
  | .trainingFrameReceived port lane signal inverted word eye => Sys2Proof.Machine.execTrainingFrameReceived port lane signal inverted word eye s
  | .trainingTimeout port => Sys2Proof.Machine.execTrainingTimeout port s
  | .fecFrameReceived port errs => Sys2Proof.Machine.execFecFrameReceived port errs s
  | .flitTransmit port => Sys2Proof.Machine.execFlitTransmit port s
  | .dataFlitReceived port flit late => Sys2Proof.Machine.execDataFlitReceived port flit late s
  | .idleFlitReceived port flit late => Sys2Proof.Machine.execIdleFlitReceived port flit late s
  | .initFlitSend port => Sys2Proof.Machine.execInitFlitSend port s
  | .initFlitReceived port flit late => Sys2Proof.Machine.execInitFlitReceived port flit late s
  | .initTimeout port => Sys2Proof.Machine.execInitTimeout port s
  | .linkFlitReceived port flit late => Sys2Proof.Machine.execLinkFlitReceived port flit late s
  | .replayTimeout port => Sys2Proof.Machine.execReplayTimeout port s
  | .errorRateWindow port => Sys2Proof.Machine.execErrorRateWindow port s
  | .retrainTimeout port => Sys2Proof.Machine.execRetrainTimeout port s
  | .portEnable port => Sys2Proof.Machine.execPortEnable port s
  | .portDisable port => Sys2Proof.Machine.execPortDisable port s
  | .portFullTrain port => Sys2Proof.Machine.execPortFullTrain port s
  | .portRetrain port => Sys2Proof.Machine.execPortRetrain port s
  | .txnSend port vc => Sys2Proof.Machine.execTxnSend port vc s
  | .txnPut port vc => Sys2Proof.Machine.execTxnPut port vc s
  | .txnGet port vc => Sys2Proof.Machine.execTxnGet port vc s
  | .txnGetResponse port vc => Sys2Proof.Machine.execTxnGetResponse port vc s
  | .txnAtomicAddI32 port => Sys2Proof.Machine.execTxnAtomicAddI32 port s
  | .txnAtomicAddA64 port => Sys2Proof.Machine.execTxnAtomicAddA64 port s
  | .txnCollectiveStep port => Sys2Proof.Machine.execTxnCollectiveStep port s
  | .txnFence port => Sys2Proof.Machine.execTxnFence port s
  | .txnFenceResponse port => Sys2Proof.Machine.execTxnFenceResponse port s
  | .txnForward port vc => Sys2Proof.Machine.execTxnForward port vc s
  | .txnTimeout port tag => Sys2Proof.Machine.execTxnTimeout port tag s
  | .helloSend port => Sys2Proof.Machine.execHelloSend port s
  | .helloReceived port => Sys2Proof.Machine.execHelloReceived port s
  | .quarantineHello port => Sys2Proof.Machine.execQuarantineHello port s
  | .helloExchangeTimeout port => Sys2Proof.Machine.execHelloExchangeTimeout port s
  | .pulseSend port => Sys2Proof.Machine.execPulseSend port s
  | .pulseReceived port => Sys2Proof.Machine.execPulseReceived port s
  | .missedPulse port => Sys2Proof.Machine.execMissedPulse port s
  | .neighbourSuspect port => Sys2Proof.Machine.execNeighbourSuspect port s
  | .noticeSlow port => Sys2Proof.Machine.execNoticeSlow port s
  | .noticeClear port => Sys2Proof.Machine.execNoticeClear port s
  | .slowStretchExpiry port => Sys2Proof.Machine.execSlowStretchExpiry port s
  | .noticeCancel port => Sys2Proof.Machine.execNoticeCancel port s
  | .noticeSelfFailed port => Sys2Proof.Machine.execNoticeSelfFailed port s
  | .noticeQuery port => Sys2Proof.Machine.execNoticeQuery port s
  | .noticeReport port => Sys2Proof.Machine.execNoticeReport port s
  | .noticeFailed port => Sys2Proof.Machine.execNoticeFailed port s
  | .confirmTimeout port => Sys2Proof.Machine.execConfirmTimeout port s
  | .castForm => Sys2Proof.Machine.execCastForm s
  | .castDissolve => Sys2Proof.Machine.execCastDissolve s
  | .understudyBookRead => Sys2Proof.Machine.execUnderstudyBookRead s
  | .fillBarrier failed => Sys2Proof.Machine.execFillBarrier failed s
  | .understudyWaitExpiry => Sys2Proof.Machine.execUnderstudyWaitExpiry s
  | .fillSeal => Sys2Proof.Machine.execFillSeal s
  | .rehearsalBarrier failed => Sys2Proof.Machine.execRehearsalBarrier failed s
  | .replicaVote values => Sys2Proof.Machine.execReplicaVote values s
  | .voteTimeout => Sys2Proof.Machine.execVoteTimeout s
  | .getEvidence path => Sys2Proof.Machine.execGetEvidence path s
  | .getCerts path => Sys2Proof.Machine.execGetCerts path s
  | .readLedger path => Sys2Proof.Machine.execReadLedger path s
  | .clearLedger path => Sys2Proof.Machine.execClearLedger path s
  | .readHealth path => Sys2Proof.Machine.execReadHealth path s
  | .imageUpdate path => Sys2Proof.Machine.execImageUpdate path s
  | .loadIdeKeys path => Sys2Proof.Machine.execLoadIdeKeys path s
  | .loadExportSecret path => Sys2Proof.Machine.execLoadExportSecret path s
  | .assumePosition path => Sys2Proof.Machine.execAssumePosition path s
  | .testPackage path runs => Sys2Proof.Machine.execTestPackage path runs s
  | .patternTimeout unit => Sys2Proof.Machine.execPatternTimeout unit s
  | .testResult path => Sys2Proof.Machine.execTestResult path s
  | .keyFuse path => Sys2Proof.Machine.execKeyFuse path s
  | .readLog path => Sys2Proof.Machine.execReadLog path s
  | .entdaa addr => Sys2Proof.Machine.execEntdaa addr s
  | .setEndpointId eid => Sys2Proof.Machine.execSetEndpointId eid s
  | .getEndpointId => Sys2Proof.Machine.execGetEndpointId s
  | .getMctpVersionSupport => Sys2Proof.Machine.execGetMctpVersionSupport s
  | .getMessageTypeSupport => Sys2Proof.Machine.execGetMessageTypeSupport s
  | .getVendorDefinedMessageSupport => Sys2Proof.Machine.execGetVendorDefinedMessageSupport s
  | .getStatus tag => Sys2Proof.Machine.execGetStatus tag s
  | .readReg tag offset width => Sys2Proof.Machine.execReadReg tag offset width s
  | .writeReg tag offset v => Sys2Proof.Machine.execWriteReg tag offset v s
  | .readUnits tag cls first count => Sys2Proof.Machine.execReadUnits tag cls first count s
  | .readEvents tag first count => Sys2Proof.Machine.execReadEvents tag first count s
  | .mctpAssemblyTimeout => Sys2Proof.Machine.execMctpAssemblyTimeout s
  | .unitFence via basis unit immediate => Sys2Proof.Machine.execUnitFence via basis unit immediate s
  | .unitUnfence via basis unit => Sys2Proof.Machine.execUnitUnfence via basis unit s
  | .unitTest via basis unit => Sys2Proof.Machine.execUnitTest via basis unit s
  | .unitEndTest via basis unit pass => Sys2Proof.Machine.execUnitEndTest via basis unit pass s
  | .unitOff via basis unit => Sys2Proof.Machine.execUnitOff via basis unit s
  | .unitOn via basis unit => Sys2Proof.Machine.execUnitOn via basis unit s
  | .pendingFenceApply unit => Sys2Proof.Machine.execPendingFenceApply unit s
  | .powerControlTick mv ma => Sys2Proof.Machine.execPowerControlTick mv ma s
  | .junctionTempSample readings => Sys2Proof.Machine.execJunctionTempSample readings s
  | .thermalTrip => Sys2Proof.Machine.execThermalTrip s
  | .vinOutOfRange mv => Sys2Proof.Machine.execVinOutOfRange mv s
  | .telemetryUpdate vcore beat => Sys2Proof.Machine.execTelemetryUpdate vcore beat s
  | .mcWatchdog => Sys2Proof.Machine.execMcWatchdog s
  | .hostRingHeadWrite head => Sys2Proof.Machine.execHostRingHeadWrite head s
  | .queCmdEnable queue => Sys2Proof.Machine.execQueCmdEnable queue s
  | .queCmdDisable queue => Sys2Proof.Machine.execQueCmdDisable queue s
  | .queCmdReset queue => Sys2Proof.Machine.execQueCmdReset queue s
  | .biasToDevice tier pages first => Sys2Proof.Machine.execBiasToDevice tier pages first s
  | .biasToHost tier pages first => Sys2Proof.Machine.execBiasToHost tier pages first s
  | .countClear engine => Sys2Proof.Machine.execCountClear engine s
  | .drainClear engine => Sys2Proof.Machine.execDrainClear engine s
  | .numClear => Sys2Proof.Machine.execNumClear s
  | .rngClear => Sys2Proof.Machine.execRngClear s
  | .queClear => Sys2Proof.Machine.execQueClear s
  | .bnkClear => Sys2Proof.Machine.execBnkClear s
  | .memClear => Sys2Proof.Machine.execMemClear s
  | .portClear port => Sys2Proof.Machine.execPortClear port s
  | .fabClear => Sys2Proof.Machine.execFabClear s
  | .ckpClear => Sys2Proof.Machine.execCkpClear s
  | .fovClear => Sys2Proof.Machine.execFovClear s
  | .unitClear => Sys2Proof.Machine.execUnitClear s
  | .mgtClear => Sys2Proof.Machine.execMgtClear s
  | .evtClear => Sys2Proof.Machine.execEvtClear s
  | .registerWrite offset width v => Sys2Proof.Machine.execRegisterWrite offset width v s
  | .laneSignalLoss port lane => Sys2Proof.Machine.execLaneSignalLoss port lane s
  | .ddrAccess who addr len write bytes ups => Sys2Proof.Machine.execDdrAccess who addr len write bytes ups s
  | .bankPowerUpDone bank => Sys2Proof.Machine.execBankPowerUpDone bank s
  | .biasCommandComplete => Sys2Proof.Machine.execBiasCommandComplete s
  | .engineSelfTestDone engine pass => Sys2Proof.Machine.execEngineSelfTestDone engine pass s
  | .stbyOkDeassert => Sys2Proof.Machine.execStbyOkDeassert s
  | .vsbComesUp => Sys2Proof.Machine.execVsbComesUp s
  | .perstNConditionsMet rep => Sys2Proof.Machine.execPerstNConditionsMet rep s
  | .jtagTapInstruction code => Sys2Proof.Machine.execJtagTapInstruction code s
  | .cxlCacheSnoop addr => Sys2Proof.Machine.execCxlCacheSnoop addr s

end Sys2Proof.Machine
end

