-- ==== Sys2Proof/WellFormed.lean ====
section
/-!
DEFINITION. When a command's operands name what the device has (Table 0.8, Table 0.9, R237, R268, R271, R480): a unit of its
class, a slot, a queue, a vector, a port, an address within its space and a length that the access can have. A command that is
not well formed names nothing of the device and stops the step with the fault `noSuchUnit`.
-/
namespace Sys2Proof

/-- An owner kind and index of R271 that an access can come from. -/
def Sender.wf (w : Sender) : Bool :=
  match w.kind with
  | 1 => w.index < 144
  | 2 => w.index < 16
  | 3 => w.index < 64
  | 4 => w.index < 6
  | 5 | 6 => w.index == 0
  | _ => false

/-- A REQ_TAG of the management path has 16 bits (R533). -/
def Path.wf (p : Path) : Bool :=
  match p with
  | .mctp tag _ => decide (tag < 65536)
  | .mailbox | .doe _ => true

/-- The same for a unit request (R538). -/
def Via.wf (v : Via) : Bool :=
  match v with
  | .mctp tag => decide (tag < 65536)
  | .host => true

/-- How many units a class has (Table 0.8). -/
def classSize (cls : Nat) : Nat := [0, 144, 16, 3072, 8, 8, 6, 16, 2304, 2, 1, 1].getD cls 0

/-- A unit id of the device (R8, R9). -/
def unitIdWf (u : Nat) : Bool := decide (u < 0x10000) && decide (u % 4096 < classSize (u / 4096))

/-- n bytes at a that lie within one aligned unit of k bytes. -/
def withinUnit (k a n : Nat) : Bool := decide (0 < n) && decide (a % k + n ≤ k)

/-- A page range that BIAS_CMD can hold (Table 14.10). -/
def pageRangeWf (tier pages first : Nat) : Bool :=
  decide (tier < 4) && decide (0 < pages) && decide (pages ≤ 2 ^ 20) && decide (first < 2 ^ 20)

/-- A far-window address, a use of R324, and the queue or operation slot that the request was for. -/
def farRequestWf (addr use who : Nat) : Bool :=
  decide (0x8000_0000_0000 ≤ addr) && decide (addr < 0x1_0000_0000_0000) && decide (use < 5)
    && (if use = 1 then decide (who < 2 ^ 20) else decide (who < 16384))

/-- The operands of a command name what the device has. -/
def Instr.wf (c : Instr) : Bool :=
  match c with
  | .startWatchdogExpiry stepNo unit _ => decide (stepNo < 13) && decide (unit < 2 ^ 16)
  | .slotIdChanged slot => decide (slot < 64)
  | .doorbellCueTail queue v | .doorbellCplHead queue v => decide (queue < 2 ^ 20) && decide (v < 2 ^ 32)
  | .completionRecordWrite queue | .queCmdEnable queue | .queCmdDisable queue | .queCmdReset queue => decide (queue < 2 ^ 20)
  | .msixMessage vector | .msixUnmask vector => decide (vector < 2048)
  | .badAccess offset _ _ _ => decide (offset < 2 ^ 26)
  | .hostMemAccess hpa len write bytes _ => decide (hpa < 2 ^ 52) && withinUnit 256 hpa len && (!write || bytes.length == len)
  | .hdmDecoderCommit decoder _ _ _ => decide (decoder < 2)
  | .atsInvalidation page => decide (page < 2 ^ 52)
  | .cxlCacheSnoop addr => decide (addr < 2 ^ 52)
  | .doeDiscovery index => decide (index < 256)
  | .cdatRead entry => decide (entry < 2 ^ 16)
  | .farRequestError addr use who | .farRequestTimeout addr use who => farRequestWf addr use who
  | .cueComplete op | .collectiveAllreduce op _ | .collectiveBroadcast op | .collectiveMax op | .collectiveDigest op
  | .collectiveXor op | .collectiveSend op | .collectiveRecv op | .data op | .join op | .loss op | .metric op | .jobLoad op _
  | .jobStart op | .jobStop op | .jobUnload op | .recipe op | .param op | .matinee op | .cancelAhead op => decide (op < 16384)
  | .product op engines => decide (op < 16384) && engines.all fun e => decide (e < 144)
  | .fillRaw op engine | .fillBernoulli op engine | .fillNormal op engine | .fillCategorical op engine =>
    decide (op < 16384) && decide (engine < 144)
  | .move op mover => decide (op < 16384) && decide (mover < 64)
  | .updateAdamw op unit | .updateSgd op unit | .updateCyleyAdamw op unit => decide (op < 16384) && decide (unit < 16)
  | .attemptOpen slot | .curtain slot _ | .maxAttemptsReached slot | .commit slot | .forcedInterval slot _ _
  | .intervalStop slot _ | .snapshotSeal slot | .drainComplete slot | .drainGivenUp slot | .exportComplete slot
  | .matineeRebuildRestart slot | .silenceReached slot _ => decide (slot < 4)
  | .rotationKeyLoad epoch => decide (epoch < 2 ^ 24)
  | .microBatchBoundary slot mb => decide (slot < 4) && decide (mb < 256)
  | .passStart engine set _ | .a64Overflow engine set => decide (engine < 144) && decide (set < 2)
  | .tileDrain engine set | .secondDrain engine set => decide (engine < 144) && decide (set.k < 2)
  | .engineWatchdog engine | .testCapture engine | .faultCheckRun _ engine | .degradedEngineMove engine | .countClear engine
  | .drainClear engine | .engineSelfTestDone engine _ => decide (engine < 144)
  | .bankRead who addr len _ => who.wf && decide (addr + len ≤ 0x3000_0000) && withinUnit 64 addr len
  | .bankWrite who line cells =>
    who.wf && line % 64 == 0 && decide (line + 64 ≤ 0x3000_0000) && cells.all fun c => decide (c.1 < 64)
  | .addW32 who _ _ _ _ | .addW64 who _ _ _ _ | .addI32 who _ _ _ | .addF32 who _ _ _ | .swap32 who _ _ _
  | .swap64 who _ _ _ => who.wf
  | .addA64 who _ _ _ elems _ => who.wf && decide (0 < elems.length) && decide (elems.length ≤ 256)
  | .bankOwnerWrite bank port kind index =>
    decide (bank < 3072) && decide (port < 2) && decide (kind < 8) && decide (index < 256)
  | .handoverComplete bank port => decide (bank < 3072) && decide (port < 2)
  | .bankPowerRequest bank req => decide (bank < 3072) && decide (req < 4)
  | .bankPowerStateEntry bank | .bankPatrolScrub bank _ | .bankPowerUpDone bank => decide (bank < 3072)
  | .hbmAccess who addr len write bytes _ _ =>
    who.wf && decide (0x0010_0000_0000 ≤ addr) && decide (addr + len ≤ 0x00D0_0000_0000) && withinUnit 2048 addr len
      && (!write || bytes.length == len)
  | .ddrAccess who addr len write bytes _ =>
    who.wf && decide (0x0100_0000_0000 ≤ addr) && decide (addr + len ≤ 0x0100_0000_0000 + 2 ^ 41) && withinUnit 64 addr len
      && (!write || bytes.length == len)
  | .hbmPatrolScrub addr _ => decide (0x0010_0000_0000 ≤ addr) && decide (addr < 0x00D0_0000_0000)
  | .ddrPatrolScrub addr _ => decide (0x0100_0000_0000 ≤ addr) && decide (addr < 0x0100_0000_0000 + 2 ^ 41)
  | .hbmTempSample i _ | .thermalLevelFall _ i | .dimmTempSample i _ => decide (i < 8)
  | .trainingFrameReceived port lane _ _ _ _ | .laneSignalLoss port lane => decide (port < 6) && decide (lane < 16)
  | .fecFrameReceived port errs => decide (port < 6) && errs.all fun e => decide (e.1 < 272) && decide (e.2 < 16)
  | .trainingTimeout port | .flitTransmit port | .dataFlitReceived port _ _ | .idleFlitReceived port _ _ | .initFlitSend port
  | .initFlitReceived port _ _ | .initTimeout port | .linkFlitReceived port _ _ | .replayTimeout port | .errorRateWindow port
  | .retrainTimeout port | .portEnable port | .portDisable port | .portFullTrain port | .portRetrain port
  | .txnAtomicAddI32 port | .txnAtomicAddA64 port | .txnCollectiveStep port | .txnFence port | .txnFenceResponse port
  | .txnTimeout port _ | .helloSend port | .helloReceived port | .quarantineHello port | .helloExchangeTimeout port
  | .pulseSend port | .pulseReceived port | .missedPulse port | .neighbourSuspect port | .noticeSlow port | .noticeClear port
  | .slowStretchExpiry port | .noticeCancel port | .noticeSelfFailed port | .noticeQuery port | .noticeReport port
  | .noticeFailed port | .confirmTimeout port | .portClear port => decide (port < 6)
  | .txnSend port vc | .txnPut port vc | .txnGet port vc | .txnGetResponse port vc | .txnForward port vc =>
    decide (port < 6) && decide (vc < 6)
  | .getEvidence path | .getCerts path | .readLedger path | .clearLedger path | .readHealth path | .imageUpdate path
  | .loadIdeKeys path | .loadExportSecret path | .assumePosition path | .testPackage path _ | .testResult path | .keyFuse path
  | .readLog path => path.wf
  | .patternTimeout unit | .pendingFenceApply unit => unitIdWf unit
  | .entdaa addr => decide (0 < addr) && decide (addr < 128)
  | .setEndpointId eid => decide (eid < 256)
  | .getStatus tag | .readUnits tag _ _ _ => decide (tag < 65536)
  | .readReg tag offset _ => decide (tag < 65536) && decide (offset < 2 ^ 32)
  | .writeReg tag offset v => decide (tag < 65536) && decide (offset < 2 ^ 32) && decide (v < 2 ^ 32)
  | .readEvents tag first _ => decide (tag < 65536) && decide (first < 2 ^ 64)
  | .unitFence via basis unit _ | .unitUnfence via basis unit | .unitTest via basis unit | .unitEndTest via basis unit _
  | .unitOff via basis unit | .unitOn via basis unit => decide (basis < 2 ^ 32) && decide (unit < 2 ^ 16) && via.wf
  | .junctionTempSample readings => readings.length == 40
  | .telemetryUpdate _ beat => decide (beat < 65536)
  | .hostRingHeadWrite head => decide (head < 2 ^ 64)
  | .biasToDevice tier pages first | .biasToHost tier pages first => pageRangeWf tier pages first
  | .registerWrite offset _ v => decide (offset < 2 ^ 26) && decide (v < 2 ^ 64)
  | .perstNRelease _ | .perstNAssert | .cxlLinkDown _ | .pwrGoodLoss | .pwrGoodAssert | .stbyOkAssert | .undervoltageLockout
  | .vsbLow | .refclkLost | .refclkReturn | .fclkLost | .timerRecalibration | .cueFetch | .cueIssue _ | .d3hotRequest
  | .doeAbort | .ideIntegrityFailure | .faultCheckCompare _ | .faultVerdict _ | .damageCheck _ | .healthRecordWrite
  | .slowNoticeSend | .castForm | .castDissolve | .understudyBookRead | .fillBarrier _ | .understudyWaitExpiry | .fillSeal
  | .rehearsalBarrier _ | .replicaVote _ | .voteTimeout | .getEndpointId | .getMctpVersionSupport | .getMessageTypeSupport
  | .getVendorDefinedMessageSupport | .mctpAssemblyTimeout | .powerControlTick _ _ | .thermalTrip | .vinOutOfRange _
  | .mcWatchdog | .numClear | .rngClear | .queClear | .bnkClear | .memClear | .fabClear | .ckpClear | .fovClear | .unitClear
  | .mgtClear | .evtClear | .biasCommandComplete | .stbyOkDeassert | .vsbComesUp | .perstNConditionsMet _
  | .jtagTapInstruction _ => true

end Sys2Proof
end

