-- ==== Sys2Proof/Safety.lean ====
section
/-!
DEFINITION. What statements about the block are phrased in: the canonical form of its memory and registers, the areas that
the state divides into, and which of them a change leaves alone.
-/
namespace Sys2Proof.Machine

open Sys2Proof

/-! ### Canonical form -/

/-- Device memory in its one form: addresses strictly rising and no byte listed at what an unlisted one reads as. -/
abbrev Memory.wf (m : Mem) : Bool := SMap.wf 0 m

/-- The register file in its one form: offsets strictly rising, no register listed at its reset value, and every bit that is
reserved (or lies in a reserved register) zero (R16). -/
def regsWf (m : SMap DWord) : Bool :=
  SMap.sorted m && m.all fun e => e.2.toNat &&& regMask e.1 == e.2.toNat && e.2.toNat != regReset e.1

/-- What every step keeps: the two canonical forms, and a call board of at most 4,096 records (R563). -/
structure State.Sound (s : State) : Prop where
  mem : Memory.wf s.mem = true
  regs : regsWf s.regs = true
  board : s.board.length ≤ 4096

/-! ### Areas -/

/-- The areas of the state. Registers divide by the blocks of BAR0 (Table 0.9), memory into the device's own and the far
window. -/
inductive Area where
  | mem | fresh | out | pins | board | queues | ops | jobs | array | rng | banks | outer | ports | fabric | colls | ckp | fov
  | host | sec | mgt
  | dev | evt | que | job | num | rngRegs | ckpRegs | fovRegs | lnk | memRegs | bnk | units | engines | secRegs | mgtRegs
  | noBlock | far | due
  deriving DecidableEq, Repr

/-- The bit of an area in a set of areas. -/
def Area.bit : Area → Nat
  | .mem => 0 | .fresh => 1 | .out => 2 | .pins => 3 | .board => 4 | .queues => 5 | .ops => 6 | .jobs => 7 | .array => 8
  | .rng => 9 | .banks => 10 | .outer => 11 | .ports => 12 | .fabric => 13 | .colls => 14 | .ckp => 15 | .fov => 16
  | .host => 17 | .sec => 18 | .mgt => 19 | .dev => 20 | .evt => 21 | .que => 22 | .job => 23 | .num => 24 | .rngRegs => 25
  | .ckpRegs => 26 | .fovRegs => 27 | .lnk => 28 | .memRegs => 29 | .bnk => 30 | .units => 31 | .engines => 32
  | .secRegs => 33 | .mgtRegs => 34 | .noBlock => 35 | .far => 36 | .due => 37

/-- A set of areas as a number. -/
def areas (l : List Area) : Nat := l.foldr (fun a m => 2 ^ a.bit ||| m) 0

/-- Where the blocks of BAR0 end, in the order of the areas from `dev` to `mgtRegs`; the unit state table and the engine
windows are an area each (Table 0.9). -/
def blockEnds : List Nat :=
  [0x10000, 0x20000, 0x40000, 0x80000, 0xA0000, 0xC0000, 0xE0000, 0x100000, 0x200000, 0x300000, 0x400000, 0x480000, 0x500000,
   0x600000, 0x700000]

/-- The bit of the area that a register of BAR0 belongs to. -/
def regArea (off : Nat) : Nat := 20 + blockEnds.countP fun b => b ≤ off

/-- From s to t nothing changes outside the areas of A, the waiting commands stay, and what is sound stays so. -/
structure Touch (A : Nat) (s t : State) : Prop where
  mem : A.testBit 0 = false → ∀ a, a < farBase → t.byte a = s.byte a
  far : A.testBit 36 = false → ∀ a, farBase ≤ a → t.byte a = s.byte a
  fresh : A.testBit 1 = false → t.fresh = s.fresh
  out : A.testBit 2 = false → t.out = s.out
  pins : A.testBit 3 = false → t.pins = s.pins
  board : A.testBit 4 = false → t.board = s.board ∧ t.suppressed = s.suppressed
  badAt : A.testBit 4 = false → t.badAt = s.badAt
  queues : A.testBit 5 = false → t.queues = s.queues ∧ t.rr = s.rr ∧ t.waiting = s.waiting ∧ t.nextCue = s.nextCue
  ops : A.testBit 6 = false → t.ops = s.ops
  jobs : A.testBit 7 = false → t.jobs = s.jobs
  array : A.testBit 8 = false → t.tiles = s.tiles ∧ t.sets = s.sets ∧ t.heldTiles = s.heldTiles ∧ t.cells = s.cells
    ∧ t.captures = s.captures
  rng : A.testBit 9 = false → t.rng = s.rng
  banks : A.testBit 10 = false → t.banks = s.banks
  outer : A.testBit 11 = false → t.hbmStacks = s.hbmStacks ∧ t.channels = s.channels ∧ t.voided = s.voided
  ports : A.testBit 12 = false → t.ports = s.ports
  fabric : A.testBit 13 = false → t.fabric = s.fabric
  colls : A.testBit 14 = false → t.colls = s.colls
  ckp : A.testBit 15 = false → t.ckp = s.ckp
  fov : A.testBit 16 = false → t.fov = s.fov
  host : A.testBit 17 = false → t.host = { s.host with due := t.host.due }
  due : A.testBit 37 = false → t.host.due = s.host.due
  sec : A.testBit 18 = false → t.sec = s.sec
  mgt : A.testBit 19 = false → t.mgt = s.mgt
  regs : ∀ off, A.testBit (regArea off) = false → t.rd off = s.rd off
  pending : t.pending = s.pending
  sound : s.Sound → t.Sound

/-! ### What statements say of registers, records and bytes -/

/-- From s to t only registers that P names, and the command's outputs, differ. -/
def OnlyRegs (P : Nat → Prop) (s t : State) : Prop :=
  t = { s with out := t.out, regs := t.regs } ∧ ∀ off, ¬ P off → t.rd off = s.rd off

/-- The registers at P read zero in t, every other one as in s, and nothing else differs. -/
def Cleared (P : Nat → Prop) (s t : State) : Prop := OnlyRegs P s t ∧ (∀ off, P off → t.rd off = 0) ∧ t.out = []

/-- n registers of k bytes from `base`. -/
def inRange (base k n off : Nat) : Prop := ∃ i, i < n ∧ off = base + k * i

/-- The call board's newest record in t is of this code, unit and arguments, at the severity and with the ACTION bit of Table
18.3 (R564, R570). -/
def Noted (t : State) (code unit : Nat) (args : List Nat) : Prop :=
  ∃ r, t.board.getLast? = some r ∧ r.code = code ∧ r.unit = unit ∧ r.args = args ∧ r.sev = (evInfo code).1 ∧ r.action = (evInfo code).2

/-- Every byte whose address P does not name reads in t as in s. -/
def BytesKept (P : Nat → Prop) (s t : State) : Prop := ∀ a, ¬ P a → t.byte a = s.byte a

/-! ### When an access is served -/

/-- The bank that serves addresses of bank b serves this sender at once: it is on and in service, one of its ports is the
sender's and no handover is under way (R272, R274, R276, R289). -/
def State.bankServes (s : State) (w : Sender) (b : Nat) : Prop :=
  let t := s.served1 b
  s.bf t Reg.bankState = 0 ∧ s.unitRaw (UId.bank t) ≠ US.fenced ∧ s.unitRaw (UId.bank t) ≠ US.failed
    ∧ bitAt 27 (s.owner t 0) = false ∧ bitAt 27 (s.owner t 1) = false
    ∧ (ownedBy (s.owner t 0) ⟨w.kind, w.index, none⟩ = true ∨ (dualPort t = true ∧ ownedBy (s.owner t 1) ⟨w.kind, w.index, none⟩ = true))

/-- Each of the n bytes at bank-space address a has been written, or its bank is in valid-bit mode (R284, R285). -/
def State.bankDefined (s : State) (a n : Nat) : Prop :=
  ∀ i, i < n → let c := s.storeAddr (a + i)
    (s.bank (c / 0x40000)).validBit = true ∨ (s.bank (c / 0x40000)).isDefined (c % 0x40000) = true

/-- HBM or DDR serves the n bytes at a at once: they lie in one tier whose stacks or channels are in service, in no page in host
bias and in no voided sector or line (R298, R304, R320, R481). -/
def State.outerServes (s : State) (t : Tier) (a n : Nat) : Prop :=
  s.tierOf a n = some t ∧ s.host.hostPages = [] ∧ s.voided = []
    ∧ ((t = .hbm ∧ s.stackOff a n = false) ∨ (t = .ddr ∧ s.channelOff a n = false))

/-! ### Operations -/

/-- The state without what the command before left at the boundary. -/
abbrev State.quiet (s : State) : State := { s with out := [] }

/-- Operation slot i holds an operation of this opcode that has not been carried out (R243). -/
def State.opWaits (s : State) (i opcode : Nat) (o : OpSlot) : Prop :=
  i < 16384 ∧ SMap.find s.ops i = some o ∧ o.cue.opcode = opcode ∧ o.started = false ∧ o.status = 0

/-- The same, of a cue that belongs to the job j of a slot. -/
def State.jobWaits (s : State) (i opcode : Nat) (o : OpSlot) (slot : Nat) (j : Job) : Prop :=
  s.opWaits i opcode o ∧ slot < 4 ∧ o.cue.job = some slot ∧ s.job slot = some j

/-- The same, of a director cue that acts on the job j of a slot (R267). -/
def State.slotWaits (s : State) (i opcode : Nat) (o : OpSlot) (slot : Nat) (j : Job) : Prop :=
  s.opWaits i opcode o ∧ slot < 4 ∧ o.cue.op 36 1 = slot ∧ s.job slot = some j ∧ s.jf slot Reg.jobId = o.cue.jobId
    ∧ s.jf slot Reg.jobState ≠ 0

/-- In t the operation o of slot i has been carried out with status 0, and `left` acknowledgements are to come (R240). -/
def State.opRan (t : State) (i : Nat) (o : OpSlot) (left : Nat) : Prop :=
  SMap.find t.ops i = some { o with started := true, left }

/-! ### Products -/

/-- The record of a tensor in HBM: it can be read, has a record's form, and is q (R69, R70). -/
def State.recordIs (s : State) (t : Tensor) (q : QRec) : Prop :=
  s.outerServes .hbm t.record 32 ∧ qrecForm (s.bytes t.record 32) = 0 ∧ q = qrecOf (s.bytes t.record 32)

/-- The PRODUCT in operation slot i is p: its cue gives its shape, its operands' records read and match, and its reduction range, in
whole segments for rotated operands, lies within them (R71, R83, R87, R89, Table 7.2). -/
def State.productIs (s : State) (i : Nat) (o : OpSlot) (slot : Nat) (j : Job) (p : Prod) : Prop :=
  SMap.find s.ops i = some o ∧ o.cue.job = some slot ∧ s.job slot = some j
    ∧ (∃ q, j.prodShape o.cue = some q ∧ p = { q with qa := p.qa, qb := p.qb, klen := paddedLen q.klen (rotLen p.qa.rot) }
        ∧ q.k0 + q.klen ≤ paddedLen q.a.redLen (rotLen p.qa.rot))
    ∧ s.recordIs p.a p.qa ∧ s.recordIs p.b p.qb ∧ p.qb.outliers = false
    ∧ p.qa.rot = p.qb.rot ∧ p.qa.rotKey = p.qb.rotKey ∧ p.qa.rotStep = p.qb.rotStep ∧ (p.qa.rotStep = true → p.qa.step = p.qb.step)
    ∧ (rotLen p.qa.rot ≠ 0 → p.k0 % rotLen p.qa.rot = 0)

/-- The fall-back copy that a record names (R69): its tensor and record, or none. -/
def State.copyIs (s : State) (j : Job) (q : QRec) (f : Option (Tensor × QRec)) : Prop :=
  match f with
  | some (t, r) => q.fbCopy = true ∧ j.tensor q.fbRef = some t ∧ s.recordIs t r
  | none => q.fbCopy = false ∨ j.tensor q.fbRef = none

/-- Block `no` of a tensor as memory holds it, with its tag byte (R64 to R68). -/
def State.storedBlock (s : State) (t : Tensor) (q : QRec) (no : Nat) : RBlock × Nat :=
  let st := q.stored
  let planes := t.planes st.fmt st.sf16 st.rotN
  let m := if st.outliers then 4 else 1
  let w := s.num (planes.2.2 + no * m) m
  (readBlock st.fmt st.sf16 (s.num (planes.2.1 + no * scaleBytes st.sf16) (scaleBytes st.sf16))
      (unpackCodes st.fmt (s.bytes (planes.1 + no * st.fmt.blockBytes) st.fmt.blockBytes)) (if st.outliers then some w else none),
    if st.outliers then w / 2 ^ 24 else w)

/-- HBM serves the codes, the scale and the tag of a block. -/
def State.blockServes (s : State) (t : Tensor) (q : QRec) (no : Nat) : Prop :=
  let st := q.stored
  let planes := t.planes st.fmt st.sf16 st.rotN
  let m := if st.outliers then 4 else 1
  s.outerServes .hbm (planes.1 + no * st.fmt.blockBytes) st.fmt.blockBytes
    ∧ s.outerServes .hbm (planes.2.1 + no * scaleBytes st.sf16) (scaleBytes st.sf16) ∧ s.outerServes .hbm (planes.2.2 + no * m) m

/-- The block that a feeder makes of block b of outer index r of an operand, k elements in use: of the stored one, or of the fall-back
copy's where its tag says WIDE (R106, R183). -/
def State.fed (s : State) (t : Tensor) (q : QRec) (f : Option (Tensor × QRec)) (r b k : Nat) : FBlock :=
  let no := r * t.blocksPer q.stored.rotN + b
  let x := s.storedBlock t q no
  match x.2.testBit 3, f with
  | true, some (ft, fq) => feedBlock fq.stored.fmt fq.sf16 k fq.pre (s.storedBlock ft fq no).1
  | _, _ => feedBlock q.stored.fmt q.sf16 k q.pre x.1

/-- That block can be read, its copy too where it is WIDE, at no more slices than the pass runs (R112, R183). -/
def State.feeds (s : State) (t : Tensor) (q : QRec) (f : Option (Tensor × QRec)) (slices r b : Nat) : Prop :=
  let no := r * t.blocksPer q.stored.rotN + b
  s.blockServes t q no ∧ ((s.storedBlock t q no).2.testBit 3 = true →
    ∃ ft fq, f = some (ft, fq) ∧ fq.stored.fmt.slices ≤ slices ∧ s.blockServes ft fq no)

/-- Every block that a pass of a tile reads can be read. -/
def State.passFeeds (s : State) (p : Prod) (w : TileWork) (fa fb : Option (Tensor × QRec)) (kt : Nat) : Prop :=
  ∀ bk ∈ p.kBlocks kt, (∀ m, m < w.rows → s.feeds p.a p.qa fa w.slices (w.r0 + m) bk.1)
    ∧ ∀ n, n < w.cols → s.feeds p.b p.qb fb w.slices (w.c0 + n) bk.1

/-- The blocks of outer index r of an operand in a K-tile of a product, as the feeders give them. -/
def State.fedRow (s : State) (p : Prod) (t : Tensor) (q : QRec) (f : Option (Tensor × QRec)) (kt r : Nat) : List FBlock :=
  (p.kBlocks kt).map fun bk => s.fed t q f r bk.1 bk.2

/-- The set x after pass (kt, i, j) of its product: every element with its column's contributions of the pass added (R116, R135, R138,
R139), saturated in place or the whole set marked for a retry (R147, R149), NV where a block is (R46), the lost ones counted. -/
def State.passed (s : State) (e : Nat) (p : Prod) (fa fb : Option (Tensor × QRec)) (x : AccSet) (kt i jx : Nat) : AccSet :=
  let w := x.work
  let as := (List.range w.rows).map fun m => s.fedRow p p.a p.qa fa kt (w.r0 + m)
  let bs := (List.range w.cols).map fun n => s.fedRow p p.b p.qb fb kt (w.c0 + n)
  let sums := (List.range w.rows).flatMap fun m => (List.range w.cols).map fun n =>
    passColumn w.slices i jx (rotShift p.qa.rot) x.et { v := (x.elems.getD (m * w.cols + n) ⟨0, false⟩).v, lost := 0, ovf := false }
      (as.getD m []) (bs.getD n [])
  let retry := sums.any (·.ovf) && !s.satMode e && decide (x.run < 4)
  { x with
    elems := (x.elems.zip sums).map fun (y : AccEl × AccRun) => { v := y.2.v, ovf := y.1.ovf || y.2.ovf }
    passes := if retry then [] else x.passes.drop 1
    nv := x.nv || as.any (fun r => r.any (·.nv)) || bs.any (fun r => r.any (·.nv))
    lost := x.lost + (sums.map (·.lost)).foldl (· + ·) 0, overflow := retry, begun := true }

/-- The set x of an UPDATE with its base preloaded: the base's elements at the set's Et, its own Et for a product with K = 0, and its
OVF, NV and LOST (R141, R143). -/
def State.preloaded (s : State) (e : Nat) (p : Prod) (x : AccSet) : AccSet :=
  let w := x.work
  let bs := s.bytes (p.out.tileAt (w.r0 / 256) (w.c0 / 256)).1 (64 + 8 * w.rows * w.cols)
  let h := tileHdrOf bs
  let et := if p.klen = 0 then h.et else x.et
  let els := (leWords 8 (w.rows * w.cols) (bs.drop 64)).map fun v => reexpress h.et et (sext 64 v)
  let retry := els.any (·.2.2) && !s.satMode e && decide (x.run < 4)
  { x with
    et, elems := els.map fun y => ⟨y.1, y.2.2⟩, ovf := h.ovf, nv := x.nv || h.nv
    lost := x.lost + h.lost + (els.map (·.2.1)).foldl (· + ·) 0, overflow := retry, passes := if retry then [] else x.passes }

/-- HBM serves the base tile of an UPDATE, and its header is of a version the device knows (R13, R141). -/
def State.baseServes (s : State) (p : Prod) (w : TileWork) : Prop :=
  let a := (p.out.tileAt (w.r0 / 256) (w.c0 / 256)).1
  let n := 64 + 8 * w.rows * w.cols
  s.outerServes .hbm a n ∧ formStatus (s.bytes a n) = 0

/-- In t set k of engine e holds x, and DRAIN_STATUS shows its state (R140, Table 4.4). -/
def State.setIs (t : State) (e k : Nat) (x : AccSet) : Prop :=
  SMap.find t.sets (2 * e + k) = some x
    ∧ t.ef e (if k = 0 then Reg.setState0 else Reg.setState1)
      = (if x.passes.isEmpty && !x.overflow then 3 else if x.begun then 2 else 1)

/-- What the reset of the whole device leaves: registers at their reset values but for those on standby power, no byte of its
own memory, no queue, job, operation or link; the call board, the configuration memory, the fuses and the host's memory stay
(R476, R563), and so do the spare rows that a stack has given up (log entry 105). -/
structure ResetFrom (s t : State) : Prop where
  regs : ∀ off, off ∉ standbyRegs → t.rd off = regReset off
  mem : ∀ a, a < farBase → t.byte a = 0
  far : ∀ a, farBase ≤ a → t.byte a = s.byte a
  work : t.queues = [] ∧ t.waiting = [] ∧ t.ops = [] ∧ t.jobs = [] ∧ t.tiles = [] ∧ t.sets = [] ∧ t.colls = []
  units : t.banks = []
    ∧ t.hbmStacks = (s.hbmStacks.filter fun e => !e.2.spares.isEmpty).map (fun e => (e.1, { Stack.off with spares := e.2.spares }))
    ∧ t.channels = [] ∧ t.ports = [] ∧ t.fabric = Fabric.off ∧ t.ckp = Ckp.off
    ∧ t.fov = Fov.off ∧ t.host = HostLink.off ∧ t.rng = Rng.off
  kept : t.board = s.board ∧ t.sec.nor = s.sec.nor ∧ t.sec.fuses = s.sec.fuses ∧ t.sec.log = [] ∧ t.sec.test = none

/-! ### Requests and messages -/

/-- A unit request over this path is served (R478, R532). -/
def State.pathReady (s : State) (v : Via) : Prop :=
  match v with
  | .host => s.served = true
  | .mctp tag => tag < 65536 ∧ s.controllerUp = true ∧ s.fld Reg.romOnly = 0

/-- In t the path of a unit request shows its result r for unit u, with the generation as it is then (R538, R540). -/
def State.unitAnswer (t : State) (v : Via) (r u : Nat) : Prop :=
  let w := t.fld Reg.unitGen * 2 ^ 32 + r * 2 ^ 28 + 2 ^ 27 + u
  match v with
  | .host => t.rd Reg.unitCmdStatus = w
  | .mctp tag => t.out.getLast? = some (.response ([1, 4] ++ leBytes 2 tag ++ [0] ++ leBytes 8 w))

/-- A request of Table 15.12: its header and body (R521). -/
def mailboxRequest (code id : Nat) (body : List Byte) : List Byte :=
  [1, 2] ++ leBytes 1 code ++ [0] ++ leBytes 4 id ++ leBytes 4 body.length ++ leBytes 4 0 ++ body

/-- The request comes in over a path that serves it, none being in progress (R489, R521, R532); over the mailbox it and the
response have their places in the far tier. -/
def State.asked (s : State) (p : Path) (req : List Byte) : Prop :=
  s.fld Reg.mbxBusy = 0 ∧ req.length ≤ 65000 ∧ match p with
  | .mailbox => s.mailboxUp = true ∧ s.host.ideInsecure = false ∧ s.bytes (s.rd Reg.mbxReq) req.length = req
      ∧ 0x8000_0000_0000 ≤ s.rd Reg.mbxReq ∧ s.rd Reg.mbxReq + req.length ≤ 0x1_0000_0000_0000
      ∧ 0x8000_0000_0000 ≤ s.rd Reg.mbxResp ∧ s.rd Reg.mbxResp + s.rd Reg.mbxRespMax ≤ 0x1_0000_0000_0000
  | .doe r => r = req ∧ s.mailboxUp = true
  | .mctp tag r => r = req ∧ tag < 65536 ∧ s.controllerUp = true ∧ s.fld Reg.romOnly = 0

/-- From s to t the path has been given the response to a request: its status and body (R489, R521, R522, R532). Over the
mailbox a response longer than the host allows is cut, which this does not speak of. -/
def State.answered (s t : State) (p : Path) (req : List Byte) (status : Nat) (body : List Byte) : Prop :=
  let resp := [1, 2] ++ (req.drop 2).take 1 ++ [0] ++ (req.drop 4).take 4 ++ leBytes 4 body.length ++ leBytes 2 status ++ [0, 0] ++ body
  match p with
  | .mailbox => resp.length ≤ s.rd Reg.mbxRespMax → t.bytes (s.rd Reg.mbxResp) resp.length = resp ∧ t.fld Reg.mbxDone = 1
      ∧ t.fld Reg.mbxError = if status = 0 then 0 else 1
  | .doe _ => t.out.getLast? = some (.response (leBytes 2 0x1F3D ++ [1, 0] ++ leBytes 4 (2 + (resp.length + 3) / 4) ++ resp))
  | .mctp tag _ => t.out.getLast? = some (.response ([1, 7] ++ leBytes 2 tag ++ [0] ++ resp))

/-- The oldest message of a virtual channel of a port is a request of this opcode that the device applies now (R354, R358,
R380). -/
def State.takes (s : State) (p vc opcode : Nat) (m : Msg) : Prop :=
  p < 6 ∧ vc < 6 ∧ (s.port p).front vc = some m ∧ (txnOf m.bytes).opcode = opcode ∧ (txnOf m.bytes).resp = false ∧ s.mine m = true
    ∧ ((txnOf m.bytes).bound vc = true → s.epochRule (txnOf m.bytes).epoch = 0)

/-- The oldest message of VC 3 of a port is a NOTICE of this kind with body b, not flooded or not seen before (R368). -/
def State.noticed (s : State) (p kind : Nat) (b : List Byte) : Prop :=
  p < 6 ∧ fieldLE b 0 1 = 1 ∧ ∃ m, s.noticeIn p kind = some (m, b)
    ∧ (bitAt 0 (fieldLE b 3 1) = true → s.fabric.seen.contains (fieldLE b 8 3, fieldLE b 4 2) = false)

/-- A flit that a linked port takes: whole, of this kind, through no codeword that could not be corrected, with NAK clear (R335,
R338, R342). -/
def State.goodFlit (s : State) (p kind : Nat) (flit : List Byte) : Prop :=
  p < 6 ∧ linked (s.pst p) = true ∧ (s.port p).spoiled (s.port p).flitCount = false ∧ flitGood flit = true ∧ flitKind flit = kind
    ∧ bitAt 2 (fieldLE flit 6 1) = false

/-- From s to t one message went to the end of what port p sends on VC vc: a header and this body (R351). -/
def State.queued (s t : State) (p vc : Nat) (body : List Byte) : Prop :=
  ∃ h : List Byte, h.length = 48 ∧ (t.port p).outbox = (s.port p).outbox ++ cutMsg vc ((48 + body.length) / 240 + 1) true (h ++ body)

/-- One more on a counter of 64 bits, which stops at its largest value (R133). -/
def State.counted (s t : State) (f : Fld) (n : Nat) : Prop := t.fld f = min (s.fld f + n) (2 ^ 64 - 1)

/-! ### What each command may change -/

/-- What writing a record of the call board may change (R563 to R569): the board, its registers, the vector it signals, and the
host ring in the far window with the count of bytes written there. -/
def recordAreas : List Area := [.fresh, .out, .board, .evt, .memRegs, .far, .due]

/-- What an access to device memory may change (08, 09): the bytes, the owners, counters and health of what serves them, the
marks of what changed since the last interval, and a record. -/
def accessAreas : List Area :=
  [.mem, .fresh, .out, .board, .banks, .ckp, .host, .mgt, .evt, .memRegs, .bnk, .units, .far, .due]

/-- Every area but these. -/
def allBut (l : List Area) : List Area :=
  [.mem, .fresh, .out, .pins, .board, .queues, .ops, .jobs, .array, .rng, .banks, .outer, .ports, .fabric, .colls, .ckp, .fov, .host, .sec,
    .mgt, .dev, .evt, .que, .job, .num, .rngRegs, .ckpRegs, .fovRegs, .lnk, .memRegs, .bnk, .units, .engines, .secRegs, .mgtRegs, .noBlock, .far, .due].filter fun a => !l.contains a

/-- The areas that a command may change, whatever state it meets: its outputs, which replace those of the command before, and
what its rules of the manual write. -/
def areasOf (c : Instr) : List Area :=
  match c with
  | .perstNRelease .. | .startWatchdogExpiry .. | .cxlLinkDown .. | .perstNConditionsMet .. => allBut []
  | .perstNAssert | .pwrGoodLoss | .undervoltageLockout | .vsbLow => allBut [.fresh, .board, .far]
  | .pwrGoodAssert => [.out, .pins]
  | .stbyOkAssert => [.out, .pins, .mgt]
  | .refclkLost => recordAreas ++ [.pins, .dev]
  | .refclkReturn => [.out, .pins, .dev]
  | .fclkLost => allBut [.sec, .dev, .que, .secRegs, .noBlock]
  | .slotIdChanged .. => recordAreas ++ [.pins]
  | .timerRecalibration => [.fresh, .out, .pins]
  | .doorbellCueTail .. => accessAreas ++ [.queues, .outer, .que]
  | .doorbellCplHead .. | .completionRecordWrite .. | .queCmdEnable .. | .queCmdDisable .. | .queCmdReset .. =>
    accessAreas ++ [.queues, .outer]
  | .cueFetch => accessAreas ++ [.queues, .jobs, .outer, .que]
  | .cueIssue .. | .collectiveRecv .. | .data .. | .recipe .. | .param .. =>
    accessAreas ++ [.queues, .ops, .jobs, .outer, .que, .job]
  | .matinee .. => allBut [.pins, .sec, .dev, .secRegs, .mgtRegs, .noBlock]
  | .cueComplete .. => accessAreas ++ [.queues, .ops, .jobs, .outer, .job]
  | .msixMessage .. | .biasCommandComplete => [.out, .host, .dev, .due]
  | .msixUnmask .. => [.out, .dev]
  | .badAccess .. | .hostRingHeadWrite .. => recordAreas
  | .hostMemAccess .. | .tileDrain .. | .engineWatchdog .. | .faultCheckRun .. | .faultCheckCompare ..
  | .faultVerdict .. | .damageCheck .. | .bankRead .. | .addW32 .. | .addW64 .. | .addI32 .. | .addA64 ..
  | .addF32 .. | .swap32 .. | .swap64 .. | .bankPatrolScrub .. | .hbmAccess .. | .txnAtomicAddI32 ..
  | .txnAtomicAddA64 .. | .ddrAccess .. => allBut [.pins, .dev, .que, .secRegs, .noBlock]
  | .hdmDecoderCommit .. | .d3hotRequest | .atsInvalidation .. | .doeAbort => [.out, .host, .due]
  | .doeDiscovery .. | .cdatRead .. | .getEndpointId | .getMctpVersionSupport | .getMessageTypeSupport
  | .getVendorDefinedMessageSupport | .cxlCacheSnoop .. => [.out]
  | .ideIntegrityFailure | .biasToDevice .. | .biasToHost .. => recordAreas ++ [.host, .dev]
  | .farRequestError .. | .farRequestTimeout .. =>
    accessAreas ++ [.queues, .ops, .jobs, .outer, .ckpRegs, .fov, .job, .fovRegs]
  | .product .. | .collectiveAllreduce .. | .collectiveBroadcast .. | .collectiveMax .. | .collectiveDigest ..
  | .collectiveXor .. | .collectiveSend .. | .updateAdamw .. | .updateSgd .. | .updateCyleyAdamw .. | .loss ..
  | .metric .. | .jobStop .. => allBut [.pins, .sec, .dev, .secRegs, .mgtRegs, .noBlock]
  | .fillRaw .. | .fillBernoulli .. | .fillNormal .. | .fillCategorical .. | .move .. =>
    allBut [.pins, .sec, .dev, .secRegs, .mgtRegs, .noBlock]
  | .join .. => [.out, .ops]
  | .jobLoad .. => allBut [.pins, .array, .colls, .dev, .engines, .mgtRegs, .noBlock]
  | .jobStart .. => accessAreas ++ [.queues, .ops, .jobs, .outer, .que, .job, .ckpRegs]
  | .jobUnload .. =>
    allBut [.pins, .ports, .fabric, .fov, .sec, .dev, .num, .ckpRegs, .fovRegs, .lnk, .secRegs, .mgtRegs, .noBlock]
  | .cancelAhead .. =>
    allBut [.pins, .rng, .fov, .sec, .dev, .num, .rngRegs, .ckpRegs, .fovRegs, .lnk, .secRegs, .mgtRegs, .noBlock]
  | .attemptOpen .. | .commit .. => allBut [.pins, .sec, .dev, .que, .secRegs, .mgtRegs, .noBlock]
  | .rotationKeyLoad .. => [.out, .rng]
  | .microBatchBoundary .. => recordAreas ++ [.mem, .jobs, .ckp, .num, .banks, .outer]
  | .curtain .. | .passStart .. | .secondDrain .. | .a64Overflow .. | .bankWrite .. | .txnSend ..
  | .txnCollectiveStep .. | .noticeCancel .. | .fillBarrier .. | .voteTimeout =>
    allBut [.pins, .sec, .dev, .que, .secRegs, .mgtRegs, .noBlock]
  | .maxAttemptsReached .. => recordAreas ++ [.job]
  | .forcedInterval .. => accessAreas ++ [.ops, .jobs, .outer, .fov, .rngRegs, .ckpRegs, .colls]
  | .intervalStop .. =>
    allBut [.pins, .queues, .ops, .array, .sec, .dev, .que, .num, .rngRegs, .lnk, .engines, .secRegs, .mgtRegs, .noBlock]
  | .snapshotSeal .. => allBut [.pins, .sec, .dev, .que, .secRegs, .noBlock]
  | .drainComplete .. =>
    [.mem, .fresh, .out, .ports, .colls, .ckp, .rngRegs, .ckpRegs, .far, .board, .banks, .outer, .host, .mgt, .evt, .memRegs, .bnk, .units, .due]
  | .drainGivenUp .. => recordAreas ++ [.colls, .ckpRegs]
  | .exportComplete .. => accessAreas ++ [.outer, .rngRegs, .ckpRegs]
  | .matineeRebuildRestart .. => allBut [.pins, .sec, .dev, .que, .secRegs, .mgtRegs, .noBlock]
  | .testCapture .. => recordAreas ++ [.engines, .array]
  | .silenceReached .. => recordAreas ++ [.mem, .ckp, .num, .banks, .outer]
  | .bankOwnerWrite .. | .bankPowerRequest .. => recordAreas ++ [.bnk]
  | .handoverComplete .. => recordAreas ++ [.mgt, .bnk, .units]
  | .bankPowerStateEntry .. | .bankPowerUpDone .. => recordAreas ++ [.mem, .banks, .mgt, .bnk, .units]
  | .degradedEngineMove .. => recordAreas ++ [.mem, .array, .banks, .mgt, .bnk, .units, .engines, .rngRegs]
  | .hbmPatrolScrub .. | .ddrPatrolScrub .. | .unitFence .. | .unitUnfence .. | .unitTest .. | .unitEndTest ..
  | .unitOff .. | .unitOn .. | .engineSelfTestDone .. => allBut [.pins, .dev, .que, .secRegs, .noBlock]
  | .healthRecordWrite | .jtagTapInstruction .. => [.out, .sec]
  | .hbmTempSample .. | .thermalLevelFall .. | .dimmTempSample .. | .noticeSelfFailed .. | .noticeReport ..
  | .noticeFailed .. | .confirmTimeout .. | .replicaVote .. | .thermalTrip =>
    allBut [.pins, .sec, .dev, .que, .secRegs, .noBlock]
  | .slowNoticeSend => [.out, .ports, .fabric, .memRegs]
  | .trainingFrameReceived .. | .trainingTimeout .. | .fecFrameReceived .. | .dataFlitReceived ..
  | .idleFlitReceived .. | .initFlitSend .. | .initFlitReceived .. | .initTimeout .. | .linkFlitReceived ..
  | .replayTimeout .. | .errorRateWindow .. | .retrainTimeout .. | .portEnable .. | .portDisable ..
  | .portFullTrain .. | .portRetrain .. | .helloReceived .. | .castForm | .castDissolve | .laneSignalLoss .. =>
    recordAreas ++ [.ops, .ports, .fabric, .ckp, .fov, .mgt, .lnk, .units]
  | .flitTransmit .. => [.out, .ports, .lnk]
  | .txnPut .. => accessAreas ++ [.outer, .ports, .rngRegs, .lnk]
  | .txnGet .. => recordAreas ++ [.mem, .banks, .outer, .ports, .host, .mgt, .lnk, .bnk, .units]
  | .txnGetResponse .. => accessAreas ++ [.ops, .outer, .ports, .fov]
  | .txnFence .. | .helloSend .. | .quarantineHello .. | .helloExchangeTimeout .. | .pulseSend .. => [.out, .ports]
  | .txnFenceResponse .. => [.out, .ops, .ports, .ckp, .fov, .fresh, .board, .evt, .lnk, .memRegs, .far, .due]
  | .txnForward .. => recordAreas ++ [.ports, .lnk]
  | .txnTimeout .. => [.out, .ops, .ports, .fabric, .ckp, .fov, .lnk]
  | .pulseReceived .. => recordAreas ++ [.ports, .fabric, .lnk]
  | .missedPulse .. | .neighbourSuspect .. => [.out, .ports, .fabric, .lnk]
  | .noticeSlow .. | .noticeClear .. => [.out, .ports, .fabric, .lnk, .fresh, .board, .evt, .memRegs, .far, .due]
  | .slowStretchExpiry .. | .portClear .. | .fabClear => [.out, .lnk]
  | .noticeQuery .. => [.out, .ports, .fabric, .fresh, .board, .evt, .lnk, .memRegs, .far, .due]
  | .understudyBookRead => [.out, .ports, .fov]
  | .understudyWaitExpiry => recordAreas ++ [.ports, .fabric, .fov, .job, .fovRegs]
  | .fillSeal => accessAreas ++ [.jobs, .rng, .outer, .colls, .fov, .job, .ckpRegs, .fovRegs]
  | .rehearsalBarrier .. => recordAreas ++ [.jobs, .fov, .job, .fovRegs]
  | .getEvidence .. | .getCerts .. | .readLedger .. | .clearLedger .. | .readHealth .. | .imageUpdate ..
  | .loadIdeKeys .. | .loadExportSecret .. | .assumePosition .. | .testPackage .. | .testResult .. | .keyFuse ..
  | .readLog .. => allBut [.pins, .que, .noBlock]
  | .patternTimeout .. => allBut [.pins, .dev, .que, .noBlock]
  | .entdaa .. | .setEndpointId .. | .getStatus .. | .readReg .. | .readUnits .. | .readEvents .. | .mgtClear =>
    [.out, .mgtRegs]
  | .writeReg .. | .registerWrite .. => allBut [.pins]
  | .mctpAssemblyTimeout => [.out, .mgt]
  | .pendingFenceApply .. => allBut [.pins, .dev, .que, .secRegs, .mgtRegs, .noBlock]
  | .powerControlTick .. | .junctionTempSample .. | .telemetryUpdate .. | .mcWatchdog => recordAreas ++ [.mgt, .mgtRegs]
  | .vinOutOfRange .. => recordAreas ++ [.mgt]
  | .countClear .. | .drainClear .. => [.out, .engines]
  | .numClear => [.out, .num]
  | .rngClear => [.out, .rngRegs]
  | .queClear => [.out, .que]
  | .bnkClear => [.out, .bnk]
  | .memClear => [.out, .memRegs]
  | .ckpClear => [.out, .ckpRegs]
  | .fovClear => [.out, .fovRegs]
  | .unitClear => [.out, .units]
  | .evtClear => [.out, .evt]
  | .stbyOkDeassert => [.out, .pins, .mgt, .mgtRegs]
  | .vsbComesUp =>
    [.out, .pins, .board, .dev, .evt, .que, .job, .num, .rngRegs, .ckpRegs, .fovRegs, .lnk, .memRegs, .bnk, .units, .engines, .secRegs, .mgtRegs, .noBlock]

end Sys2Proof.Machine
end

