-- ==== Sys2Proof/Certificates/Slice0/Obligations.lean ====
section
/-!
DEFINITION. The statements for the provers, each an `Obligations.<Name>`. A statement about a command's own effect has as its
conclusion that `exec` answers a next state, under hypotheses on the state and the operands alone.
-/

open Sys2Proof Sys2Proof.Machine

/-! ### The machine as a whole -/

/-- A step carries out the command at the front of the queue on the state whose queue is the rest; with none waiting the device
is unchanged (the second is the model's choice, log entry 10). -/
def Obligations.StepRunsTheFrontCommand : Prop :=
  (∀ (s : State) (c : Instr) (rest : List Instr),
      step { s with pending := c :: rest } = exec c { s with pending := rest })
    ∧ ∀ s : State, s.pending = [] → step s = .next s

/-- R18, R492, R204, R325, R563: what reset leaves in the registers whose reset value the tables state, and an empty memory,
board and queue. -/
def Obligations.ResetLeavesTheStatedValues : Prop :=
  (∀ off, State.reset.rd off = regReset off) ∧ (∀ a, State.reset.byte a = 0) ∧ State.reset.board = [] ∧ State.reset.pending = []
    ∧ State.reset.rd 0x0 = 0x48001F3D ∧ State.reset.rd 0x8 = 0x90106880 ∧ State.reset.rd 0x20 = 4
    ∧ State.reset.rd 0x10000 = 0x01001000 ∧ State.reset.rd 0x10008 = 3 ∧ State.reset.rd 0x10010 = 1
    ∧ State.reset.rd 0x20000 = 0x01011014 ∧ State.reset.rd 0x2000C = 1 ∧ State.reset.rd 0x40000 = 0x0104
    ∧ State.reset.rd 0x80000 = 0x00010101 ∧ State.reset.rd 0x80008 = 0x180C ∧ State.reset.rd 0x8000C = 64
    ∧ State.reset.rd 0x80010 = 0x01000804 ∧ State.reset.rd 0x80014 = 256 ∧ State.reset.rd 0x80018 = 64
    ∧ State.reset.rd 0xA0000 = 0x01011010 ∧ State.reset.rd 0xA0008 = 0x0A ∧ State.reset.rd 0xA0010 = 0x8888888888888888
    ∧ State.reset.rd 0xC000C = 0x00040008 ∧ State.reset.rd 0xE0008 = 0x0004060A ∧ State.reset.rd 0xE000C = 0x03E8000A
    ∧ State.reset.rd 0x160008 = 0xFFFFFF ∧ State.reset.rd 0x16000C = 0x010101 ∧ State.reset.rd 0x160028 = 0x0064000A
    ∧ State.reset.rd 0x200008 = 0x69645F55 ∧ State.reset.rd 0x200020 = 0xC000000000 ∧ State.reset.rd 0x330000 = 0x04400C00
    ∧ State.reset.rd 0x400000 = 0x010B15CA ∧ State.reset.rd 0x500000 = 0x01010101 ∧ State.reset.rd 0x600008 = 2400
    ∧ (∀ e, e < 144 → State.reset.rd (0x480000 + 0x400 * e) = 0x1000 + e)

/-- The reset state has memory and registers in their canonical forms and no more than 4,096 records. -/
def Obligations.ResetIsSound : Prop := State.reset.Sound

/-- Every step keeps what is sound (R16, R563; the canonical forms are the model's own). -/
def Obligations.StepsKeepSoundness : Prop := ∀ s t : State, s.Sound → step s = .next t → t.Sound

/-- A well-formed command completes in every state; one that is not well formed stops with `noSuchUnit`. The one other stop is a
debug instruction of the test access port (R527). -/
def Obligations.WellFormedCommandsComplete : Prop :=
  ∀ (c : Instr) (s : State),
    (c.wf = false → exec c s = .fault .noSuchUnit)
    ∧ (c.wf = true → (∀ k, c = .jtagTapInstruction k → k < 4 ∨ s.fld Reg.secDebug = 0) → ∃ t, exec c s = .next t)
    ∧ ∀ k, c = .jtagTapInstruction k → 4 ≤ k → s.fld Reg.secDebug = 1 → exec c s = .refused .debugUnit

/-- The frame of every command: nothing outside its areas changes, and the waiting commands stay. -/
def Obligations.CommandsKeepTheirFrame : Prop :=
  ∀ (c : Instr) (s t : State), exec c s = .next t → Touch (areas (areasOf c)) s t

/-! ### Counters (R133, R166, R204, R234, R266, R297, R325, R401, R402, R439, R473, R546, R547, R572) -/

/-- Each counter clear of an engine, of NUM, RNG, QUE, BNK and MEM zeroes its own counters and changes no other register.
The same of a port, the fabric, CKP, FOV, UNIT, MGT and EVT. -/
def Obligations.CountersClear : Prop :=
  (∀ s : State, s.served = true →
      (∀ e, e < 144 → ∃ t, exec (.countClear e) s = .next t ∧ Cleared (inRange (0x480080 + 0x400 * e) 8 6) s t)
      ∧ (∀ e, e < 144 → ∃ t, exec (.drainClear e) s = .next t ∧ Cleared (inRange (0x480110 + 0x400 * e) 8 7) s t)
      ∧ (∃ t, exec .numClear s = .next t ∧ Cleared (inRange 0x80100 8 13) s t)
      ∧ (∃ t, exec .rngClear s = .next t ∧ Cleared (inRange 0xA0100 8 7) s t)
      ∧ (∃ t, exec .queClear s = .next t ∧ Cleared (inRange 0x20100 8 4) s t)
      ∧ (∃ t, exec .bnkClear s = .next t ∧ Cleared (fun o => inRange 0x330100 8 6 o
          ∨ ∃ b, b < 3072 ∧ (o = 0x300018 + 0x40 * b ∨ o = 0x30001C + 0x40 * b ∨ o = 0x300020 + 0x40 * b)) s t)
      ∧ (∃ t, exec .memClear s = .next t ∧ Cleared (fun o => inRange 0x200600 8 6 o
          ∨ ∃ i, i < 8 ∧ (inRange (0x200110 + 0x40 * i) 4 5 o ∨ inRange (0x200304 + 0x40 * i) 4 4 o)) s t))
  ∧ (∀ s : State, s.served = true →
      (∀ p, p < 6 → ∃ t, exec (.portClear p) s = .next t ∧ Cleared (inRange (0x100100 + 0x10000 * p) 8 11) s t)
      ∧ (∃ t, exec .fabClear s = .next t ∧ Cleared (inRange 0x160200 8 5) s t)
      ∧ (∃ t, exec .ckpClear s = .next t ∧ Cleared (inRange 0xC0100 8 8) s t)
      ∧ (∃ t, exec .fovClear s = .next t ∧ Cleared (inRange 0xE0100 8 11) s t)
      ∧ (∃ t, exec .unitClear s = .next t ∧ Cleared (inRange 0x400100 8 2) s t)
      ∧ (∃ t, exec .mgtClear s = .next t ∧ Cleared (inRange 0x600100 8 4) s t)
      ∧ ∃ t, exec .evtClear s = .next t ∧ Cleared (inRange 0x10100 8 3) s t)

/-! ### Device memory (08, 09, 14) -/

/-- A read within a line of a bank that serves its sender, of bytes that meet no error and have been written, returns those bytes
and changes nothing (R269, R272). -/
def Obligations.BankReadReturnsTheBytes : Prop :=
  ∀ (s : State) (who : Sender) (addr len : Nat), (Instr.bankRead who addr len []).wf = true →
    s.bankServes who (addr / 0x40000) → s.bankDefined addr len →
    exec (.bankRead who addr len []) s
      = .next { s with out := [.access 0 ((List.range len).map fun i => s.byte (s.storeAddr (addr + i)))] }

/-- A masked line write stores exactly the bytes of its mask, which are then defined; every other byte of memory, every register
and every other bank stays (R269, R281, R283). -/
def Obligations.BankWriteStoresItsMask : Prop :=
  ∀ (s : State) (who : Sender) (line : Nat) (cells : List (Nat × Byte)), (Instr.bankWrite who line cells).wf = true →
    (cells.map (·.1)).Nodup → s.bankServes who (line / 0x40000) →
    ∃ t, exec (.bankWrite who line cells) s = .next t
      ∧ (∀ c ∈ cells, t.byte (s.storeAddr (line + c.1)) = c.2)
      ∧ BytesKept (fun a => ∃ c ∈ cells, a = s.storeAddr (line + c.1)) s t
      ∧ (∀ c ∈ cells, (t.bank (s.storeAddr line / 0x40000)).isDefined (s.storeAddr (line + c.1) % 0x40000) = true)
      ∧ (∀ b, b ≠ s.storeAddr line / 0x40000 → t.bank b = s.bank b)
      ∧ t = { s with mem := t.mem, banks := t.banks, ckp := { s.ckp with items := t.ckp.items }, out := [.access 0 []] }

/-- The integer atomics and the swaps of Table 8.2 on an aligned operand of a bank that serves its sender: the new value,
the old value where it is returned, SAT where the sum saturates, and no other byte or register changed (R278, R279).
ADD_F32 and a single element of ADD_A64 on an aligned, defined operand of a bank that serves its sender: the rounded
sum, with the job marked non-reproducible, and the saturated exact sum with SAT (R159, R160, R258, R278). -/
def Obligations.BankAtomicsStoreTheirResult : Prop :=
  (let put := fun (s : State) (a n v : Nat) (o : Out) (t : State) =>
      t.num (s.storeAddr a) n = v ∧ BytesKept (fun b => s.storeAddr a ≤ b ∧ b < s.storeAddr a + n) s t
        ∧ t = { s with mem := t.mem, banks := t.banks, ckp := { s.ckp with items := t.ckp.items }, out := [o] }
    ∀ (s : State) (who : Sender) (a v : Nat) (want : Bool), who.wf = true → a < 0x3000_0000 → s.bankServes who (a / 0x40000) →
      (a % 4 = 0 → s.bankDefined a 4 →
        let old := s.num (s.storeAddr a) 4
        let back := (List.range 4).map fun i => s.byte (s.storeAddr (a + i))
        let sum := sext 32 old + sext 32 v
        let sat := decide (sum < -2 ^ 31) || decide (2 ^ 31 - 1 < sum)
        (∃ t, exec (.addW32 who a v want []) s = .next t
          ∧ put s a 4 ((old + v) % 2 ^ 32) (.access 0 (if want then back else [])) t)
        ∧ (∃ t, exec (.swap32 who a v []) s = .next t ∧ put s a 4 (v % 2 ^ 32) (.access 0 back) t)
        ∧ ∃ t, exec (.addI32 who a v []) s = .next t
          ∧ put s a 4 (twos 32 (max (-2 ^ 31) (min (2 ^ 31 - 1) sum))) (.access (if sat then St.saturated else 0) []) t)
      ∧ (a % 8 = 0 → s.bankDefined a 8 →
        let old := s.num (s.storeAddr a) 8
        let back := (List.range 8).map fun i => s.byte (s.storeAddr (a + i))
        (∃ t, exec (.addW64 who a v want []) s = .next t
          ∧ put s a 8 ((old + v) % 2 ^ 64) (.access 0 (if want then back else [])) t)
        ∧ ∃ t, exec (.swap64 who a v []) s = .next t ∧ put s a 8 (v % 2 ^ 64) (.access 0 back) t))
  ∧ (∀ (s : State) (who : Sender) (a : Nat), who.wf = true → a < 0x3000_0000 → s.bankServes who (a / 0x40000) →
      (∀ v, a % 4 = 0 → s.bankDefined a 4 →
        ∃ t, exec (.addF32 who a v []) s = .next t ∧ t.out = [.access 0 []]
          ∧ t.num (s.storeAddr a) 4 = f32Code (fadd (f32Val (s.num (s.storeAddr a) 4)) (f32Val (v % 2 ^ 32)))
          ∧ BytesKept (fun b => s.storeAddr a ≤ b ∧ b < s.storeAddr a + 4) s t
          ∧ (∀ j, j < 4 → (s.adder who a 4 true).job = some j → t.jf j Reg.jobNonrepro = 1)
          ∧ ∀ off, (∀ j, j < 4 → off ≠ 0x40100 + 0x100 * j) → t.rd off = s.rd off)
      ∧ ∀ (info : RowInfo) (x : Int), a % 8 = 0 → s.bankDefined a 8 →
        let sum := sext 64 (s.num (s.storeAddr a) 8) + x
        let lost := decide (sum < -2 ^ 63) || decide (2 ^ 63 - 1 < sum)
        ∃ t, exec (.addA64 who none a info [x] []) s = .next t
          ∧ t.num (s.storeAddr a) 8 = twos 64 (max (-2 ^ 63) (min (2 ^ 63 - 1) sum))
          ∧ (lost = false → t.out = [.access 0 []] ∧ BytesKept (fun b => s.storeAddr a ≤ b ∧ b < s.storeAddr a + 8) s t)
          ∧ (lost = true → t.out.getLast? = some (.access St.saturated [])))

/-- HBM and DDR reads return the bytes, and writes store theirs and no others, where the tier serves them at once (R298, R302,
R320). -/
def Obligations.OuterMemoryIsReadAndWritten : Prop :=
  ∀ (s : State) (who : Sender) (a n : Nat) (bs : List Byte),
    let stored := fun (t : State) => (∀ i, i < n → t.byte (a + i) = bs.getD i 0)
      ∧ BytesKept (fun b => a ≤ b ∧ b < a + n) s t
    ((Instr.hbmAccess who a n true bs [] 0).wf = true → s.outerServes .hbm a n →
      (∃ t, exec (.hbmAccess who a n false [] [] 0) s = .next t
        ∧ t.out = [.access 0 ((List.range n).map fun i => s.byte (a + i))] ∧ t.mem = s.mem)
      ∧ ∃ t, exec (.hbmAccess who a n true bs [] 0) s = .next t ∧ t.out = [.access 0 []] ∧ stored t)
    ∧ ((Instr.ddrAccess who a n true bs []).wf = true → s.outerServes .ddr a n →
      exec (.ddrAccess who a n false [] []) s
          = .next { s with out := [.access 0 ((List.range n).map fun i => s.byte (a + i))] }
      ∧ ∃ t, exec (.ddrAccess who a n true bs []) s = .next t ∧ stored t
        ∧ t = { s with mem := t.mem, ckp := { s.ckp with items := t.ckp.items }, out := [.access 0 []] })

/-- A patrol scrub of a unit that decodes clean changes no byte; a corrected sector or line is counted once and changes no byte;
a bank's scrub moves to its next word (R290, R303, R305, R320). -/
def Obligations.PatrolScrubCountsCorrections : Prop :=
  ∀ s : State,
    (∀ b, b < 3072 → s.bf b Reg.bankState ≠ 2 → ∃ t, exec (.bankPatrolScrub b []) s = .next t
      ∧ t.bf b Reg.bankScrubPos = (s.bf b Reg.bankScrubPos + 1) % 32768 ∧ t.mem = s.mem ∧ t.out = []
      ∧ (s.bf b Reg.bankScrubPos ≠ 32767 → t.banks = s.banks) ∧ ∀ c, (t.bank c).defined = (s.bank c).defined)
    ∧ (∀ a n, (Instr.hbmPatrolScrub a ⟨n, []⟩).wf = true → s.fld (Reg.stackUp.plus (0x40 * hbmStack (a / 256 * 256))) = 1 →
        s.voided = [] →
        let i := hbmStack (a / 256 * 256)
        let seen := (s.stack i).tracker.contains (hbmPc (a / 256 * 256), hbmRow (a / 256 * 256))
        let counted := fun (t : State) => t.mem = s.mem ∧ t.fld (Reg.stackCorrected.plus (0x40 * i))
          = min (s.fld (Reg.stackCorrected.plus (0x40 * i)) + 1) (2 ^ 32 - 1)
        exec (.hbmPatrolScrub a ⟨0, []⟩) s = .next { s with out := [] }
        ∧ (0 < n → n ≤ 2 → seen = false → ∃ t, exec (.hbmPatrolScrub a ⟨n, []⟩) s = .next t ∧ counted t)
        ∧ (3 ≤ n → n ≤ 8 → (s.stack i).remap = [] → freeSpare (SMap.get 0 (s.stack i).spares (hbmPc (a / 256 * 256))) ≠ none →
          ∃ t, exec (.hbmPatrolScrub a ⟨n, []⟩) s = .next t ∧ counted t ∧ t.fld (Reg.stackRemapUsed.plus (0x40 * i)) = 1))
    ∧ (∀ a n, (Instr.ddrPatrolScrub a n).wf = true → s.tierOf (a / 64 * 64) 64 = some .ddr → s.voided = [] →
        exec (.ddrPatrolScrub a 0) s = .next { s with out := [] }
        ∧ (0 < n → n ≤ 2 → s.ddrChannel (a / 64 * 64) < 8 → ∃ t, exec (.ddrPatrolScrub a n) s = .next t ∧ t.mem = s.mem
            ∧ t.fld (Reg.ddrCorrected.plus (0x40 * s.ddrChannel (a / 64 * 64)))
              = min (s.fld (Reg.ddrCorrected.plus (0x40 * s.ddrChannel (a / 64 * 64))) + 1) (2 ^ 32 - 1)))

/-- A request for a new owner of a port is kept with PENDING, and the handover makes it the owner (R271, R274). Power
states of a bank: a request in force, its entry, OFF losing the bank's bytes, and the return to ON (R276, R277, R282). -/
def Obligations.BanksChangeOwnerAndPower : Prop :=
  (∀ (s : State) (b port : Nat), b < 3072 → port < 2 →
      (∀ k i, (Sender.wf ⟨k, i, none⟩ = true ∨ (k = 0 ∧ i = 0)) → s.served = true → (port = 0 ∨ dualPort b = true) →
        s.bf b Reg.bankLocked = 0 → bitAt 27 (s.owner b port) = false →
        ¬(bits 10 8 (s.owner b port) = k ∧ bits 7 0 (s.owner b port) = i) →
        ∃ t, exec (.bankOwnerWrite b port k i) s = .next t ∧ t.out = []
          ∧ bitAt 27 (t.owner b port) = true ∧ bits 26 24 (t.owner b port) = k ∧ bits 23 16 (t.owner b port) = i
          ∧ bits 10 0 (t.owner b port) = bits 10 0 (s.owner b port)
          ∧ OnlyRegs (fun o => o = 0x300000 + 0x40 * b + 4 * port) s t)
      ∧ (bitAt 27 (s.owner b port) = true → ∃ t, exec (.handoverComplete b port) s = .next t
          ∧ bitAt 27 (t.owner b port) = false ∧ bits 10 8 (t.owner b port) = bits 26 24 (s.owner b port)
          ∧ bits 7 0 (t.owner b port) = bits 23 16 (s.owner b port)))
  ∧ (∀ (s : State) (b : Nat), b < 3072 →
      (∀ r, r < 2 → s.served = true → s.bf b Reg.bankLocked = 0 → ∃ t, exec (.bankPowerRequest b r) s = .next t
        ∧ t.bf b Reg.bankReq = r ∧ t.bf b Reg.bankState = (if s.bf b Reg.bankState = r then r else 3)
        ∧ OnlyRegs (fun o => o = 0x300008 + 0x40 * b) s t)
      ∧ (s.bf b Reg.bankState = 3 → s.bf b Reg.bankReq = 1 → (s.bank b).lost = false →
          ∃ t, exec (.bankPowerStateEntry b) s = .next t ∧ t.bf b Reg.bankState = 1 ∧ t.out = []
            ∧ OnlyRegs (fun o => o = 0x300008 + 0x40 * b) s t)
      ∧ (s.bf b Reg.bankState = 3 → s.bf b Reg.bankReq = 2 → ∃ t, exec (.bankPowerStateEntry b) s = .next t
            ∧ t.bf b Reg.bankState = 2 ∧ (t.bank b).lost = true ∧ (t.bank b).defined = []
            ∧ (∀ a, 0x40000 * b ≤ a → a < 0x40000 * (b + 1) → t.byte a = 0)
            ∧ ∀ a, a < farBase → (a < 0x40000 * b ∨ 0x40000 * (b + 1) ≤ a) → t.byte a = s.byte a)
      ∧ (s.bf b Reg.bankState = 3 → s.bf b Reg.bankReq = 0 → ∃ t, exec (.bankPowerUpDone b) s = .next t
            ∧ t.bf b Reg.bankState = 0 ∧ ((s.bank b).lost = true → (t.bank b).defined = [] ∧ (t.bank b).lost = false)
            ∧ ((s.bank b).lost = false → t.banks = s.banks))
      ∧ (s.bf b Reg.bankState = 3 → s.bf b Reg.bankReq = 1 → (s.bank b).lost = true → ∃ t, exec (.bankPowerUpDone b) s = .next t
            ∧ t.bf b Reg.bankState = 3 ∧ (t.bank b).defined = [] ∧ (t.bank b).lost = false))

/-- At a step boundary an engine with a degraded bank is fenced where its cluster has a spare (R288); health record changes are
marked written (R310). -/
def Obligations.DegradedEnginesMoveAndHealthIsWritten : Prop :=
  (∀ (s : State) (e sp : Nat), e < 144 → s.fld Reg.moveDegraded = 1 → s.jobs = [] → s.engSt e = US.active →
      (∃ b ∈ engineBanks e, s.bf b Reg.bankDegraded = 1) → s.spareOf (e / 9) = some sp →
      ∃ t, exec (.degradedEngineMove e) s = .next t ∧ t.engSt e = US.fenced ∧ t.engSt sp = US.active)
    ∧ ∀ s : State, ∃ t, exec .healthRecordWrite s = .next t ∧ t.sec.healthDirty = false

/-! ### Starts, pins and clocks (15, 16, 17) -/

/-- What resets the device leaves it reset: PERST_N asserted, PWR_GOOD lost, the input or the standby supply too low
(R476, R530, R550, R553). What begins a start: the device is reset, FAULT_N is released and S0 is in progress (R476,
R505, R530, R543, R552). A report without entries stops there. A step past S1 that exceeds its bound after the last
self-restart aborts the start: FAULT_N is low, no step is in progress and LAST_STEP stays (R505, R507, R508). -/
def Obligations.ResetsHoldAndStartsBegin : Prop :=
  (∀ s : State,
      (∃ t, exec .perstNAssert s = .next t ∧ ResetFrom s t ∧ t.pins = { s.pins with perst := true, counted := false })
      ∧ (s.pins.perst = false →
          (∃ t, exec .pwrGoodLoss s = .next t ∧ ResetFrom s t ∧ t.pins = { s.pins with pwr := false, counted := false }
            ∧ t.sec.powerOn = true)
          ∧ ∃ t, exec .undervoltageLockout s = .next t ∧ ResetFrom s t ∧ t.pins = { s.pins with vin := false, counted := false }
            ∧ t.mgt.railsOff = true)
      ∧ ∃ t, exec .vsbLow s = .next t ∧ ResetFrom s t ∧ t.pins = { s.pins with vsb := false, counted := false }
        ∧ t.fld Reg.eid = 0 ∧ t.fld Reg.dynAddr = 0)
  ∧ (∀ s : State,
      let begun := fun (cause : Nat) (t : State) => ResetFrom s t ∧ t.sec.step = some 0 ∧ t.sec.boot.cause = cause
        ∧ t.sec.boot.restarts = 0 ∧ t.sec.powerOn = false ∧ t.fld Reg.mgtFault = 0 ∧ t.fld Reg.lastStep = 0
        ∧ t.fld Reg.ready = 0
      let cause := if s.sec.powerOn then 1 else 2
      (s.pins.counted = false → s.pins.vsb = true → s.pins.stby = true → s.pins.pwr = true →
        (s.pins.vin = true → s.pins.ref = true → s.pins.fclk = true →
          ∃ t, exec (.perstNRelease []) s = .next t ∧ begun cause t ∧ t.pins = { s.pins with perst := false, counted := true })
        ∧ (s.pins.perst = false → ∃ t, exec (.perstNConditionsMet []) s = .next t ∧ begun cause t
          ∧ t.pins = { s.pins with counted := true, vin := true, ref := true, fclk := true }))
      ∧ (s.pins.counted = true → ∃ t, exec (.cxlLinkDown []) s = .next t ∧ begun 3 t ∧ t.pins = s.pins))
  ∧ (∀ (s : State) (k u : Nat), 2 ≤ k → k < 13 → u < 2 ^ 16 → s.sec.step = some k → s.startSetting 4 ≤ s.sec.boot.restarts →
      ∃ t, exec (.startWatchdogExpiry k u []) s = .next t ∧ t.sec.step = none ∧ t.fld Reg.secAborted = 1
        ∧ t.fld Reg.mgtFault = 1 ∧ t.fld Reg.lastStep = s.fld Reg.lastStep ∧ (∀ p, p < 6 → t.pst p = 0)
        ∧ (s.pins.vsb = true → Noted t 0x1002 0xA000 [s.fld Reg.lastStep]))

/-- Supplies, clocks and straps: each level as it counts, and what it changes besides (R4, R5, R529, R530, R552, R554,
R563). The loss of FCLK is a device failure, and a strap that changes after a start has latched it leaves SLOT_ID and
makes one event (R443, R530, R554). The test access port: the four standard instructions, and BYPASS for every other
one while debug is not enabled (R527). The code points are the model's own. -/
def Obligations.SuppliesClocksAndPinsAct : Prop :=
  (∀ s : State,
      exec .pwrGoodAssert s = .next { s with out := [], pins := { s.pins with pwr := true, vin := true } }
      ∧ exec .stbyOkAssert s
          = .next { s with out := [], pins := { s.pins with stby := true }, mgt := { s.mgt with assembling := false } }
      ∧ (∃ t, exec .stbyOkDeassert s = .next t ∧ t.fld Reg.eid = 0 ∧ t.fld Reg.dynAddr = 0 ∧ t.pins = { s.pins with stby := false }
          ∧ t = { s with out := [], regs := t.regs, pins := t.pins, mgt := { s.mgt with assembling := false } }
          ∧ ∀ off, off ≠ 0x600010 → t.rd off = s.rd off)
      ∧ (∃ t, exec .vsbComesUp s = .next t ∧ t.board = [] ∧ t.rd 0x10010 = 1 ∧ t.rd 0x10018 = 0 ∧ t.pins = { s.pins with vsb := true }
          ∧ (∀ i, i < 3 → t.rd (0x10100 + 8 * i) = 0)
          ∧ ∀ off, off ∉ [0x10010, 0x10018, 0x10100, 0x10108, 0x10110, 0x10004] → t.rd off = s.rd off)
      ∧ (s.pins.ref = true → s.pins.counted = true → s.pins.vsb = true → ∃ t, exec .refclkLost s = .next t
          ∧ t.fld Reg.refclkLost = 1 ∧ t.pins = { s.pins with ref := false } ∧ Noted t 0x1005 0x9000 [])
      ∧ (∃ t, exec .refclkReturn s = .next t ∧ t.fld Reg.refclkLost = 0 ∧ t.out = []
          ∧ t = { s with out := [], regs := t.regs, pins := { s.pins with ref := true } } ∧ ∀ off, off ≠ 0x1C → t.rd off = s.rd off)
      ∧ (s.pins.ref = true → s.pins.counted = true → exec .timerRecalibration s
          = .next { s with out := [], fresh := s.fresh + 1, pins := { s.pins with cal := Config.freeWord s.fresh } }))
  ∧ (∀ s : State, s.pins.counted = true →
      (s.fld Reg.secAborted = 0 → s.fov.dead = false → ∃ t, exec .fclkLost s = .next t ∧ t.fov.dead = true
        ∧ t.fld Reg.fovState = 6 ∧ t.fld Reg.mgtFault = 1 ∧ t.pins = { s.pins with fclk := false })
      ∧ ∀ k, k < 64 → k ≠ s.pins.slot → s.sec.step ≠ some 0 → ∃ t, exec (.slotIdChanged k) s = .next t
        ∧ t.fld Reg.slotIdReg = s.fld Reg.slotIdReg ∧ t.pins = { s.pins with slot := k, slotSeen := true }
        ∧ (s.pins.vsb = true → s.pins.slotSeen = false → Noted t 0x8009 0x9000 [s.fld Reg.slotIdReg, k])
        ∧ (s.pins.slotSeen = true → t.board = s.board))
  ∧ (∀ (s : State) (k : Nat),
      (k < 4 → exec (.jtagTapInstruction k) s
        = .next { s with out := if k = 1 then [.value 0x4800] else [], sec := { s.sec with jtag := k } })
      ∧ (4 ≤ k → s.fld Reg.secDebug = 0 → exec (.jtagTapInstruction k) s = .next { s with out := [], sec := { s.sec with jtag := 0 } }))

/-! ### The host link (14, R324, R569) -/

/-- A register access of the wrong width or alignment reads zero and is recorded at most once in a period; any other
reaches its register instead (R479, R567). Host memory accesses through a committed decoder: bytes of a bank whose
port A is the host's, at once or once a handover to it is over, or of HBM or DDR are served; the hole and a bank of another owner give
poison or lose the write; an address of no decoder is unsupported (R274, R480, R491). -/
def Obligations.HostAccessesAreServedOrReported : Prop :=
  (∀ (s : State) (off width : Nat) (write : Bool), off < 2 ^ 26 →
      (¬((width = 4 ∨ width = 8) ∧ off % width = 0) →
        (∃ t, exec (.badAccess off width write true) s = .next t ∧ (write = false → .value 0 ∈ t.out)
          ∧ (s.pins.vsb = true → Noted t 0x9001 0x9000 [off, width % 256 + (if write then 2 ^ 31 else 0)]))
        ∧ ∃ t, exec (.badAccess off width write false) s = .next t ∧ t.board = s.board ∧ t.regs = s.regs
          ∧ t.out = if write then [] else [.value 0])
      ∧ ((width = 4 ∨ width = 8) ∧ off % width = 0 → ∀ new, exec (.badAccess off width write new) s = .next { s with out := [] }))
  ∧ (∀ (s : State) (hpa n : Nat) (bs : List Byte), (Instr.hostMemAccess hpa n true bs []).wf = true → s.served = true →
      s.host.ideInsecure = false →
      (∀ a tier, s.hdmAddr hpa n = some a → tier = .hbm ∨ tier = .ddr → hbmBase ≤ a → s.outerServes tier a n →
        exec (.hostMemAccess hpa n false [] []) s
            = .next { s with out := [.access 0 ((List.range n).map fun i => s.byte (a + i))] }
        ∧ ∃ t, exec (.hostMemAccess hpa n true bs []) s = .next t ∧ t.out = [.access 0 []]
          ∧ (∀ i, i < n → t.byte (a + i) = bs.getD i 0) ∧ BytesKept (fun b => a ≤ b ∧ b < a + n) s t ∧ t.regs = s.regs)
      ∧ (∀ a, s.hdmAddr hpa n = some a → a + n ≤ 0x3000_0000 → a % 0x40000 + n ≤ 0x40000 →
        s.bankServes ⟨5, 0, none⟩ (a / 0x40000) → ownedBy (s.owner (s.served1 (a / 0x40000)) 0) .host = true →
        (s.bankDefined a n → exec (.hostMemAccess hpa n false [] []) s
            = .next { s with out := [.access 0 ((List.range n).map fun i => s.byte (s.storeAddr (a + i)))] })
        ∧ ∃ t, exec (.hostMemAccess hpa n true bs []) s = .next t ∧ t.out = [.access 0 []]
          ∧ (∀ i, i < n → t.byte (s.storeAddr (a + i)) = bs.getD i 0)
          ∧ BytesKept (fun b => ∃ i, i < n ∧ b = s.storeAddr (a + i)) s t ∧ t.regs = s.regs)
      ∧ (∀ a, s.hdmAddr hpa n = some a → a < 0x3000_0000 →
        let b := s.served1 (a / 0x40000)
        bitAt 27 (s.owner b 0) = true → bits 26 24 (s.owner b 0) = 5 → bits 23 16 (s.owner b 0) = 0 → b < 3072 →
        ∀ write, ∃ t, exec (.hostMemAccess hpa n write (if write then bs else []) []) s = .next t
          ∧ bitAt 27 (t.owner b 0) = false ∧ ownedBy (t.owner b 0) .host = true)
      ∧ (∀ a, s.hdmAddr hpa n = some a → s.holeFor a = true →
        (a < 0x3000_0000 → bitAt 27 (s.owner (s.served1 (a / 0x40000)) 0) = false) →
        exec (.hostMemAccess hpa n false [] []) s = .next { s with out := [.poison] }
        ∧ ∃ t, exec (.hostMemAccess hpa n true bs []) s = .next t ∧ (∀ b, b < farBase → t.byte b = s.byte b)
          ∧ t.host.holeStep = true
          ∧ (s.host.holeStep = false → s.pins.vsb = true → Noted t 0x9002 0x9000 [a % 2 ^ 32, a / 2 ^ 32])
          ∧ (s.host.holeStep = true → t.board = s.board))
      ∧ (s.hdmAddr hpa n = none → exec (.hostMemAccess hpa n false [] []) s = .next { s with out := [.unsupported] }
        ∧ exec (.hostMemAccess hpa n true bs []) s = .next { s with out := [.unsupported] }))
  ∧ ∀ (s : State) (hpa n : Nat) (bs : List Byte), (Instr.hostMemAccess hpa n true bs []).wf = true →
      s.served = false ∨ s.host.ideInsecure = true →
      exec (.hostMemAccess hpa n false [] []) s = .next { s with out := [.unsupported] }
        ∧ exec (.hostMemAccess hpa n true bs []) s = .next { s with out := [.unsupported] }

/-- A decoder commits once, one way only; committed, a second commit leaves it (R480). The range's own bound and the
answers' codes are the model's. D3hot, ATS invalidation, the snoop answer, and what a DOE abort discards (R474, R489).
DOE discovery gives the three data objects, each with the index of the next, and the CDAT ends at 0xFFFF; every byte
of the CDAT sums to zero (R489, R490). -/
def Obligations.LinkRequestsAreAnswered : Prop :=
  (∀ (s : State) (d base size ways : Nat), d < 2 →
      (s.host.decoders.getD d none = none → ways ≠ 1 → exec (.hdmDecoderCommit d base size ways) s
        = .next { s with out := [.value 2] })
      ∧ (s.host.decoders.getD d none = none → ways = 1 → 0 < size → size % 2 ^ 28 = 0 → base % 2 ^ 28 = 0 →
          size ≤ (if d = 0 then 832 * 2 ^ 30 else s.ddrSize) →
          exec (.hdmDecoderCommit d base size ways) s = .next { s with
            out := [.value 1], host := { s.host with decoders := s.host.decoders.set d (some ⟨base, size⟩) } })
      ∧ (s.host.decoders.getD d none ≠ none → exec (.hdmDecoderCommit d base size ways) s = .next { s with out := [] }))
  ∧ (∀ (s : State) (x : Nat), x < 2 ^ 52 →
      (s.allIdle = true → exec .d3hotRequest s = .next { s with out := [], host := { s.host with d3hot := true } })
      ∧ (s.allIdle = false → exec .d3hotRequest s = .next { s with out := [.unsupported] })
      ∧ exec (.atsInvalidation x) s
          = .next { s with out := [.value x], host := { s.host with atc := s.host.atc.filter (· != x) } }
      ∧ exec (.cxlCacheSnoop x) s = .next { s with out := [.snoopRspIHitI] }
      ∧ exec .doeAbort s = .next { s with out := [], host := { s.host with doe := none } })
  ∧ (∀ s : State,
      let object := fun (v ty : Nat) (p : List Byte) => leBytes 2 v ++ leBytes 1 ty ++ [0] ++ leBytes 4 (2 + (p.length + 3) / 4) ++ p
      (∀ i v ty next, (i, v, ty, next) ∈ [(0, 1, 0, 1), (1, 0x1E98, 2, 2), (2, 0x1F3D, 1, 0)] →
        exec (.doeDiscovery i) s
          = .next { s with out := [.response (object 1 0 (leBytes 2 v ++ leBytes 1 ty ++ leBytes 1 next))] })
      ∧ (∀ i, i < s.cdat.length → exec (.cdatRead i) s = .next { s with out := [.response (object 0x1E98 2
          ([0, 0] ++ leBytes 2 (if i + 1 < s.cdat.length then i + 1 else 0xFFFF) ++ s.cdat.getD i []))] })
      ∧ ((s.cdat.flatten.map BitVec.toNat).foldl (· + ·) 0) % 256 = 0)

/-- An integrity failure of an enabled stream makes it insecure, without keys, with one event (R491). A far-tier request
that fails or times out is counted and recorded with its address and use; a write released at COMMIT has no other
effect (R324). The head of the host ring moves forward to at most the next record, else the write is discarded with an
event (R569, R574). -/
def Obligations.LinkFailuresAndRingHeadAct : Prop :=
  (∀ s : State, s.host.ideKeys ≠ [] → ∃ t, exec .ideIntegrityFailure s = .next t
      ∧ t.host.ideInsecure = true ∧ t.host.ideKeys = [] ∧ t.fld Reg.ideSecure = 0
      ∧ (s.pins.vsb = true → Noted t 0x9003 0x9000 [0])
      ∧ ∀ hpa n, hpa < 2 ^ 52 → 0 < n → hpa % 256 + n ≤ 256 →
        exec (.hostMemAccess hpa n false [] []) t = .next { t with out := [.unsupported] })
  ∧ (∀ (s : State) (a who : Nat), 0x8000_0000_0000 ≤ a → a < 0x1_0000_0000_0000 → who < 16384 →
      let counted := fun (status : Nat) (t : State) =>
        t.fld Reg.farErrors = min (s.fld Reg.farErrors + 1) (2 ^ 64 - 1)
        ∧ (s.pins.vsb = true → Noted t 0x400B 0x9000 [a % 2 ^ 32, a / 2 ^ 32, 2] ∧ (t.board.getLast?.map (·.status)) = some status)
        ∧ t.ops = s.ops ∧ t.jobs = s.jobs ∧ t.queues = s.queues
      (∃ t, exec (.farRequestError a 2 who) s = .next t ∧ counted St.farError t)
      ∧ ∃ t, exec (.farRequestTimeout a 2 who) s = .next t ∧ counted St.timeout t)
  ∧ (∀ (s : State) (v : Nat), v < 2 ^ 64 → s.served = true →
      (s.rd Reg.hostRingHead ≤ v → v < s.rd Reg.nextSeq → ∃ t, exec (.hostRingHeadWrite v) s = .next t
        ∧ t.rd Reg.hostRingHead = v ∧ OnlyRegs (fun o => o = Reg.hostRingHead) s t)
      ∧ (v < s.rd Reg.hostRingHead ∨ s.rd Reg.nextSeq ≤ v → ∃ t, exec (.hostRingHeadWrite v) s = .next t
        ∧ t.rd Reg.hostRingHead = s.rd Reg.hostRingHead
        ∧ (s.pins.vsb = true → Noted t 0xB001 0 [0x10030, v % 2 ^ 32, 2])))

/-- A bias command in range makes the device busy with it, and its completion leaves exactly its pages, of those it names,
in the bias asked for; a page a loaded job uses does not go to the host (R481). A doorbell in range posts its cues;
one past the ring or back behind posted cues stops the queue; one to a queue that is not enabled only makes an event
(R237, R238, R484, R485). Enabling takes a sound descriptor from the table, disabling an idle queue and resetting a
disabled one leave it so, and each shows STATE in the descriptor (R237, R266). The table lies in HBM here. -/
def Obligations.DoorbellsQueuesAndBiasCommandsAct : Prop :=
  (∀ (s : State) (tier pages first : Nat), tier < 2 → 0 < pages → first < 2 ^ 20 → pages ≤ 2 ^ 20 → s.served = true →
      s.fld Reg.biasBusy = 0 → (first + pages) * 2 ^ 21 ≤ s.biasSize tier →
      let busy := fun (toHost : Bool) (t : State) => t.fld Reg.biasBusy = 1 ∧ t.fld Reg.biasRefused = 0
        ∧ t.host = { s.host with bias := some (toHost, tier, first, pages) } ∧ ∀ off, off ≠ 0x38 → t.rd off = s.rd off
      let used := s.usedByJob (biasAddr tier first) (pages * 2 ^ 21)
      (∃ t, exec (.biasToDevice tier pages first) s = .next t ∧ busy false t)
      ∧ (used = false → ∃ t, exec (.biasToHost tier pages first) s = .next t ∧ busy true t)
      ∧ (used = true → ∃ t, exec (.biasToHost tier pages first) s = .next t ∧ t.fld Reg.biasRefused = 1 ∧ t.host = s.host)
      ∧ ∀ (u : State) (toHost : Bool), u.host.bias = some (toHost, tier, first, pages) →
        ∃ t, exec .biasCommandComplete u = .next t ∧ t.fld Reg.biasBusy = 0 ∧ t.host.bias = none
          ∧ ∀ p, SMap.get false t.host.hostPages p
            = if tier * 2 ^ 20 + first ≤ p ∧ p < tier * 2 ^ 20 + first + pages then toHost else SMap.get false u.host.hostPages p)
  ∧ (∀ (s : State) (q v : Nat), q < 2 ^ 20 → v < 2 ^ 32 → s.served = true →
      let x := s.queue q
      let posted := (v + 2 ^ 32 - x.head) % 2 ^ 32
      (x.state = 1 → posted ≤ 2 ^ x.log2 → (x.tail + 2 ^ 32 - x.head) % 2 ^ 32 ≤ posted →
        ∃ t, exec (.doorbellCueTail q v) s = .next t ∧ (t.queue q).tail = v ∧ (t.queue q).bell = true
          ∧ t.fld Reg.doorbells = min (s.fld Reg.doorbells + 1) (2 ^ 64 - 1))
      ∧ (x.state = 1 → 2 ^ x.log2 < posted → ∃ t, exec (.doorbellCueTail q v) s = .next t ∧ (t.queue q).state = 2
          ∧ (t.queue q).tail = x.tail ∧ (s.pins.vsb = true → Noted t 0x3003 0xB000 [q, 0]))
      ∧ (x.state = 1 → posted < (x.tail + 2 ^ 32 - x.head) % 2 ^ 32 → posted ≤ 2 ^ x.log2 →
          ∃ t, exec (.doorbellCueTail q v) s = .next t ∧ (t.queue q).state = 2
            ∧ (s.pins.vsb = true → Noted t 0x3003 0xB000 [q, 1]))
      ∧ (x.state ≠ 1 → ∃ t, exec (.doorbellCueTail q v) s = .next t ∧ t.queues = s.queues
          ∧ (s.pins.vsb = true → Noted t 0x3005 0xB000 [q, 0]))
      ∧ (x.state ≠ 0 → (v + 2 ^ 32 - x.cplHead) % 2 ^ 32 ≤ x.unread →
          exec (.doorbellCplHead q v) s
            = .next { s with out := [], queues := SMap.set Queue.off s.queues q { x with cplHead := v } }))
  ∧ (∀ (s : State) (q : Nat), q < 2 ^ 20 → s.served = true → s.outerServes .hbm (s.rd Reg.queTableBase + 64 * q) 64 →
      let a := s.rd Reg.queTableBase + 64 * q
      let x := s.queue q
      let shown := fun (t : State) => t.num (a + 2) 1 = (t.queue q).state * 64 + 32 * b2n (s.isDirector q)
            + (if (t.queue q).state = 0 then s.num (a + 2) 1 % 32 else (t.queue q).log2)
        ∧ t.num (a + 24) 4 = (t.queue q).head ∧ t.num (a + 28) 4 = (t.queue q).tail ∧ t.num (a + 32) 4 = (t.queue q).cplTail
      (x.state = 0 → x.head < 2 ^ 32 → x.tail < 2 ^ 32 → x.cplTail < 2 ^ 32 → s.descCheck (s.bytes a 64) = 0 →
        ∃ t, exec (.queCmdEnable q) s = .next t ∧ shown t ∧ t.queue q = { x with
          state := 1, log2 := s.num (a + 2) 1 % 32, bound := (s.num (a + 3) 1).testBit 2, slot := s.num (a + 3) 1 % 4
          cplLog2 := s.num (a + 4) 4 / 2 ^ 11 % 32, vector := s.num (a + 4) 4 % 2 ^ 11
          ring := s.num (a + 8) 8, cplBase := s.num (a + 16) 8 })
      ∧ (x.state ≠ 0 → s.inFlight q = false → x.recs = [] → x.head < 2 ^ 32 → x.tail < 2 ^ 32 → x.cplTail < 2 ^ 32 → x.log2 < 32 →
        ∃ t, exec (.queCmdDisable q) s = .next t ∧ shown t
          ∧ t.queue q = { x with state := 0, disabling := false, bell := false })
      ∧ (x.state = 0 → x.log2 < 32 → ∃ t, exec (.queCmdReset q) s = .next t ∧ shown t
          ∧ t.queue q = { x with head := 0, tail := 0, cplTail := 0, cplHead := 0, bell := false }))

/-! ### Queues, cues and interrupts (07, 14) -/

/-- A visit to the one queue with a posted cue reads it, counts it and moves HEAD past it (R238, R241). A waiting cue that
may issue takes the free slot, and one whose work is acknowledged frees it and counts as completed in its attempt
(R240, R243). -/
def Obligations.CuesAreFetchedAndIssued : Prop :=
  (∀ (s : State) (q : Nat), s.fld Reg.queEnable = 1 → s.served = true → s.fld Reg.directorMask = 0 → q < 2 ^ 20 → s.sources = [q] →
      (s.queue q).ready = true → s.waiting = [] → (s.queue q).tail = ((s.queue q).head + 1) % 2 ^ 32 →
      s.outerServes .hbm (s.rd Reg.queTableBase + 64 * q) 64 →
      s.outerServes .hbm ((s.queue q).ring + 64 * ((s.queue q).head % 2 ^ (s.queue q).log2)) 64 →
      ∃ t, exec .cueFetch s = .next t ∧ (t.queue q).head = (s.queue q).tail ∧ (t.queue q).bell = false ∧ t.rr = q
        ∧ t.nextCue = s.nextCue + 1 ∧ t.fld Reg.cuesFetched = min (s.fld Reg.cuesFetched + 1) (2 ^ 64 - 1))
  ∧ ((∀ (s : State) (c : CueRec) (slot i : Nat) (j : Job), s.waiting.find? (fun d => d.id == c.id) = some c → c.job = some slot →
        s.job slot = some j → s.ckp.stopping = false → c.fence = false → s.mayIssue c = true → s.freeSlot c = some i →
        j.issueCheck c = 0 → ∃ t, exec (.cueIssue c.id) s = .next t
          ∧ t.waiting = s.waiting.filter (fun d => d.id != c.id) ∧ (SMap.find t.ops i).map (·.cue) = some c
          ∧ ∀ k, k ≠ i → SMap.find t.ops k = SMap.find s.ops k)
    ∧ ∀ (s : State) (i slot : Nat) (o : OpSlot) (j : Job), i < 16384 → SMap.find s.ops i = some o → o.started = true → o.left = 0 →
        o.cue.job = some slot → s.job slot = some j → o.cue.epoch = some j.epoch → o.cue.ahead = false → o.cue.index ≠ 0xFFFFF →
        ∃ t, exec (.cueComplete i) s = .next t ∧ SMap.find t.ops i = none
          ∧ (∀ k, k ≠ i → SMap.find t.ops k = SMap.find s.ops k)
          ∧ (t.job slot).map (·.completed) = some (o.cue.index :: j.completed))

/-- A waiting completion record goes to its place in the ring with HEAD and the phase of its pass, CPL_TAIL moves, and the vector
has a message due (R237, R485, R486, R488). -/
def Obligations.CompletionRecordsAreWritten : Prop :=
  ∀ (s : State) (q : Nat) (r : List Byte) (rest : List (List Byte)), q < 2 ^ 20 →
    let x := s.queue q
    let a := x.cplBase + 32 * (x.cplTail % 2 ^ x.cplLog2)
    x.state ≠ 0 → x.recs = r :: rest → r.length = 32 → x.unread < 2 ^ x.cplLog2 → s.host.ideInsecure = false →
    0x8000_0000_0000 ≤ x.cplBase → x.cplBase + 32 * 2 ^ x.cplLog2 ≤ 0x1_0000_0000_0000 →
    s.outerServes .hbm (s.rd Reg.queTableBase + 64 * q) 64 →
    ∃ t, exec (.completionRecordWrite q) s = .next t
      ∧ t.bytes a 32 = r.take 20 ++ leBytes 4 (if fieldLE r 2 1 = 1 then x.head else 0) ++ (r.drop 24).take 7
          ++ [if x.cplTail / 2 ^ x.cplLog2 % 2 = 0 then 128 else 0]
      ∧ t.queue q = { x with recs := rest, cplTail := (x.cplTail + 1) % 2 ^ 32 }
      ∧ SMap.get false t.host.due x.vector = true

/-- A vector with a message due sends it, or sets its PBA bit while masked, and unmasking sends a pending one (R488). -/
def Obligations.VectorsSendTheirMessages : Prop :=
  ∀ (s : State) (v : Nat), v < 2048 →
    let at' := Reg.msixTable + 16 * v
    let msg := Out.msix v (s.rd at' + 2 ^ 32 * s.rd (at' + 4)) (s.rd (at' + 8))
    (SMap.get false s.host.due v = true →
      (s.rd (at' + 12) % 2 = 0 → exec (.msixMessage v) s
        = .next { s with out := [msg], host := { s.host with due := SMap.set false s.host.due v false } })
      ∧ (s.rd (at' + 12) % 2 = 1 → ∃ t, exec (.msixMessage v) s = .next t ∧ t.out = [] ∧ t.fld (pbaFld v) = 1
          ∧ SMap.get false t.host.due v = false ∧ ∀ off, off ≠ 0x7000 + 8 * (v / 64) → t.rd off = s.rd off))
    ∧ ∃ t, exec (.msixUnmask v) s = .next t ∧ t.rd (at' + 12) = 0 ∧ t.fld (pbaFld v) = 0
        ∧ t.out = (if s.fld (pbaFld v) = 1 then [msg] else [])
        ∧ OnlyRegs (fun o => o = at' + 12 ∨ o = 0x7000 + 8 * (v / 64)) s t

/-! ### Operations of a job (05, 06, 07, 11) -/

/-- A PRODUCT whose checks hold is cut into its tiles, one after the other on the engines that can take them (R102, R103, R168). -/
def Obligations.ProductsAreCutIntoTiles : Prop :=
  ∀ (s : State) (i slot : Nat) (es : List Nat) (o : OpSlot) (j : Job) (p : Prod), s.jobWaits i cProduct o slot j → es ≠ [] →
    (∀ e ∈ es, e < 144 ∧ s.engSt e = US.active ∧ s.inMatinee e = (o.cue.phase == phEval)) →
    ((j.viewOf o).prodCheck o.cue).1 = 0 → p.qa.fbCopy = false → p.qb.fbCopy = false →
    ∀ rng, s.quiet.prodRead ⟨1, es.headD 0, some slot⟩ (j.viewOf o) o.cue = (0, 0xFFFF, some p, { s.quiet with rng }) →
    ∃ t, exec (.product i es) s = .next t ∧ t.opRan i o p.tiles ∧ t.mem = s.mem ∧ t.regs = s.regs
      ∧ ∃ ts, t.tiles = s.tiles ++ ts ∧ ts.length = p.tiles
        ∧ ∀ k w, ts[k]? = some w → w.op = i ∧ w.role = 0 ∧ w.tile = k ∧ w.engine = es.getD (k % es.length) 0
          ∧ (w.r0, w.rows, w.c0, w.cols) = p.tileBox k

/-- Each kind of FILL on an engine of its phase stores its draws, element by element, and completes (R220 to R223). A MOVE
into an F32 or W16 tensor converts its elements in order and completes (R22, R60). -/
def Obligations.FillsAndMovesStoreTheirElements : Prop :=
  (∀ (s : State) (i e slot : Nat) (o : OpSlot) (j : Job) (bs : List Byte) (x : Tensor), s.jobWaits i cFill o slot j → e < 144 →
      s.engSt e = US.active → s.inMatinee e = (o.cue.phase == phEval) → j.draw[o.cue.op 36 3]? = some bs → drawCheck bs = 0 →
      let d := drawOf bs
      j.tensor d.outRef = some x →
      let key := s.drawKey j d o.cue.step
      let block := fun (k p n : Nat) => s.fillBlock key d o.cue e k p n
      let stores := fun (c : Instr) (out : List Byte) => out.length ≤ x.bytes → s.outerServes .hbm x.base out.length →
        ∃ t, exec c s = .next t ∧ t.bytes x.base out.length = out ∧ t.opRan i o 0
          ∧ BytesKept (fun b => x.base ≤ b ∧ b < x.base + out.length) s t
      (d.kind = 0 → stores (.fillRaw i e) ((List.range d.count).flatMap fun k => leBytes 16 (block k k (k / 256))))
      ∧ (d.kind = 1 → stores (.fillBernoulli i e)
          (packBits ((List.range d.count).map fun k => decide (bits 31 16 (block k k (k / 256)) < d.paramA))))
      ∧ (d.kind = 2 → stores (.fillNormal i e) ((List.range d.count).flatMap fun k =>
          leBytes (if d.outFmt = fmtF32 then 4 else 2)
            (wideCode d.outFmt 0 (ffma (f32Val d.paramB) (normalZ (block k k (k / 256))) (f32Val d.paramA)))))
      ∧ (d.kind = 3 → ∀ (y : Tensor) (cols : List Int), j.tensor d.inRef = some y → y.scaled = false →
          (y.fmt = fmtF32 ∨ y.fmt = 0x10) → d.count * d.paramB ≤ y.elems →
          s.quiet.catRows ⟨1, e, some slot⟩ y (f32Val d.paramA) d.paramB
            (fun k c => gumbelG (block k (k * 2 ^ 18 + c) (k / 256 * d.paramB + c))) (List.range d.count) = (0, cols, [], s.quiet) →
          stores (.fillCategorical i e) (cols.flatMap fun v => leBytes 4 (twos 32 v))))
  ∧ (∀ (s : State) (i m slot : Nat) (o : OpSlot) (j : Job) (src dst : Tensor) (vals : List Val), s.jobWaits i cMove o slot j → m < 64 →
      j.tensor (o.cue.op 36 3) = some src → j.tensor (o.cue.op 39 3) = some dst → src.scaled = false → dst.scaled = false →
      (dst.fmt = fmtF32 ∨ dst.fmt = 0x10) → (j.viewOf o).moveCheck o.cue src dst 0 = (0, 0xFFFF) → 0 < o.cue.op 53 5 →
      s.quiet.readVals ⟨3, m, some slot⟩ src (o.cue.op 43 5) (o.cue.op 53 5) = (0, vals, false, s.quiet) →
      let k := if dst.fmt = fmtF32 then 4 else 2
      let a := dst.base + k * o.cue.op 48 5
      let out := vals.flatMap fun v => leBytes k (wideCode dst.fmt (o.cue.op 42 1) v)
      s.outerServes .hbm a out.length →
      ∃ t, exec (.move i m) s = .next t ∧ t.bytes a out.length = out ∧ t.opRan i o 0
        ∧ BytesKept (fun b => a ≤ b ∧ b < a + out.length) s t ∧ t.regs = s.regs)

/-- In a group of one member ALLREDUCE and MAX of an I32 tensor, DIGEST and BROADCAST leave the member's own input in the output and
complete, each counted (R387, R391, R394). -/
def Obligations.CollectivesOfOneMemberKeepTheirInput : Prop :=
  ∀ (s : State) (i slot : Nat) (o : OpSlot) (j : Job) (bs : List Byte) (x y : Tensor), s.jobWaits i cCollective o slot j →
    (∀ a, a < 3 → s.castE a = 1 ∧ s.castPos s.coord a = 0) → j.coll[o.cue.op 36 3]? = some bs →
    let d := collOf bs
    j.tensor d.inRef = some x → j.tensor d.outRef = some y →
    let keeps := fun (c : Instr) (n : Nat) => s.outerServes .hbm x.base n → s.outerServes .hbm y.base n →
      ∃ t, exec c s = .next t ∧ t.bytes y.base n = s.bytes x.base n ∧ t.opRan i o 0
        ∧ t.fld Reg.collectives = min (s.fld Reg.collectives + 1) (2 ^ 64 - 1)
    let exp := j.collBase + 64 * o.cue.op 36 3 + 32
    (x.fmt = fmtI32 → y.fmt = fmtI32 → y.elems = x.elems → x.record = 0 → y.record = 0 →
      (d.kind = 1 → d.inFmt = fmtI32 → (exp + 2 ≤ y.base ∨ y.base + 4 * x.elems ≤ exp) →
        keeps (.collectiveAllreduce i []) (4 * x.elems))
      ∧ (d.kind = 3 → keeps (.collectiveMax i) (4 * x.elems)))
    ∧ (d.kind = 4 → d.bytes ≤ x.bytes → d.bytes ≤ y.bytes → keeps (.collectiveDigest i) d.bytes)
    ∧ (d.kind = 2 → d.peer = s.coord → 0 < d.bytes → d.bytes ≤ x.bytes → d.bytes ≤ y.bytes → keeps (.collectiveBroadcast i) d.bytes)

/-- An XOR collective whose way no FAILED member cuts takes its part in the run, or has finished it but for the FENCE over what it sent; a
SEND to an adjacent member over a port that takes it queues its slice and a FENCE that covers it, and one to any other device is
refused before anything is sent; a RECV takes its micro-batch from now on (R354, R356, R379, R383, R384, R395, R400). -/
def Obligations.RunsAndSlicesAreStarted : Prop :=
  ∀ (s : State) (i slot : Nat) (o : OpSlot) (j : Job) (bs : List Byte) (x : Tensor), s.jobWaits i cCollective o slot j →
    j.coll[o.cue.op 36 3]? = some bs → (o.cue.op 36 3 ≠ 0 ∨ s.castE 1 * s.castE 2 < 2) →
    let d := collOf bs
    (d.kind = 5 → j.tensor d.inRef = some x → 0 < d.bytes → d.bytes ≤ x.bytes → d.peer ≠ s.coord →
      s.outerServes .hbm x.base d.bytes → (∀ p, p < 6 → s.pf p Reg.portNeighbour ≠ 3) → ∃ t, exec (.collectiveXor i) s = .next t
        ∧ (t.opRan i o 1 ∧ (SMap.find t.colls i).isSome = true
          ∨ t.fld Reg.collectives = min (s.fld Reg.collectives + 1) (2 ^ 64 - 1)
            ∧ (t.opRan i o 0 ∨ t.opRan i o 1 ∧ ∃ p, ∃ q ∈ (t.port p).outstanding, q.opcode = opFence ∧ q.ops = [i])))
    ∧ (∀ p, d.kind = 6 → j.tensor d.inRef = some x → s.facing d.peer = some p → s.isMember d.peer = true → s.canSend p = true →
        (o.cue.mb + 1) * d.bytes ≤ x.bytes → s.outerServes .hbm (x.base + o.cue.mb * d.bytes) d.bytes →
        ∃ t, exec (.collectiveSend i) s = .next t ∧ t.opRan i o 1
          ∧ (∃ q ∈ (t.port p).outstanding, q.opcode = opFence ∧ q.ops = [i])
          ∧ ∃ more, more ≠ [] ∧ (t.port p).outbox = (s.port p).outbox ++ more)
    ∧ (d.kind = 6 → j.tensor d.inRef = some x → (o.cue.mb + 1) * d.bytes ≤ x.bytes →
        s.isMember d.peer = false ∨ s.facing d.peer = none → ∃ t, exec (.collectiveSend i) s = .next t ∧ t.ports = s.ports
          ∧ SMap.find t.ops i = some { o with started := true, left := 0, status := St.torusError })
    ∧ (d.kind = 7 → j.tensor d.outRef = some x → d.depth * d.bytes ≤ x.bytes → exec (.collectiveRecv i) s = .next { s with
        out := [], ops := SMap.put s.ops i { o with started := true, left := if 0 < d.bytes then 1 else 0 } })

/-- UPDATE applies its program to every element: the new master, m and v stand in their planes and the cue completes (R202, R253,
R255). -/
def Obligations.UpdatesStoreTheirPrograms : Prop :=
  ∀ (s : State) (i u slot : Nat) (o : OpSlot) (j : Job) (bs : List Byte) (r : UpdRefs) (ws ms vs gs : List Val),
    s.jobWaits i cUpdate o slot j → u < 16 → s.unitRaw (UId.updateUnit u) = US.active → j.upd[o.cue.op 36 3]? = some bs →
    j.updRefs o.cue = .ok r → r.work = none →
    s.quiet.readAll ⟨2, u, some slot⟩ [r.master, r.m, r.v, r.grad] = (0, [ws, ms, vs, gs], 0, s.quiet) →
    let d := updOf bs
    let n := r.master.elems
    let lo := r.master.base + align256 (4 * n)
    let outs := updElems d (updConst d (gsqrt (f32Val j.normS)) (s.jf slot Reg.jobStep + 1)) ws ms vs gs
    outs.length = n → s.outerServes .hbm r.master.base (align256 (4 * n) + n) → s.outerServes .hbm r.m.base (4 * n) →
    s.outerServes .hbm r.v.base (4 * n) → overlap r.master.base (align256 (4 * n) + n) r.m.base (4 * n) = false →
    overlap r.master.base (align256 (4 * n) + n) r.v.base (4 * n) = false → overlap r.m.base (4 * n) r.v.base (4 * n) = false →
    ∀ c ∈ [(1, Instr.updateAdamw i u), (2, Instr.updateSgd i u), (3, Instr.updateCyleyAdamw i u)], d.kind = c.1 →
      ∃ t, exec c.2 s = .next t ∧ t.opRan i o 0
        ∧ ∀ k x, outs[k]? = some x →
          t.num (r.master.base + 4 * k) 4 * 256 + t.num (lo + k) 1 = masterCode d.kind x.w % 2 ^ 40
          ∧ t.num (r.m.base + 4 * k) 4 = f32Code x.m % 2 ^ 32
          ∧ t.num (r.v.base + 4 * k) 4 = (if d.kind = 2 then s.num (r.v.base + 4 * k) 4 else f32Code x.v % 2 ^ 32)

/-- DATA lends its shard and waits, JOIN completes, LOSS keeps its tensor's codes, and METRIC of an attempt is held in the outbound
buffer (R240, R248, R251, R252, R261). A non-finite loss abandons the attempt (R256). -/
def Obligations.DataJoinLossAndMetricAct : Prop :=
  ∀ (s : State) (i slot : Nat) (o : OpSlot) (j : Job) (x : Tensor),
    (s.opWaits i cJoin o → exec (.join i) s
      = .next { s with out := [], ops := SMap.put s.ops i { o with started := true, left := 0 } })
    ∧ (s.jobWaits i cData o slot j → ∀ d u, (j.data.map dataOf).find? (fun d => d.source == o.cue.op 36 1) = some d →
        s.quiet.checkSamples (.manager (some slot)) (o.cue.op 48 8) d.sampleBytes 0 (o.cue.op 42 4) = (0, u) →
        ∃ t, exec (.data i) s = .next t ∧ t.opRan i o 1 ∧ (t.job slot).map (·.shards) = some (j.shards ++
          [{ source := d.source, shard := o.cue.op 38 4, samples := o.cue.op 42 4, buf := o.cue.op 48 8
             newEpoch := (o.cue.op 37 1).testBit 0, op := i
             taken := if j.shards = [] ∧ 0 < j.sample then [(0, min j.sample (o.cue.op 42 4))] else [] }]))
    ∧ (s.jobWaits i cLoss o slot j → j.tensor (o.cue.op 36 3) = some x → x.fmt = fmtF32 →
        s.outerServes .hbm x.base (4 * x.elems) →
        let codes := leWords 4 x.elems (s.bytes x.base (4 * x.elems))
        (codes.all (fun c => !(f32Val c).nonFinite) = true → ∃ t, exec (.loss i) s = .next t ∧ t.opRan i o 0
          ∧ (t.job slot).map (·.losses)
            = some (if o.cue.ofAttempt slot = true then SMap.put j.losses o.cue.index codes else j.losses)
          ∧ t = { s with out := [], ops := t.ops, jobs := t.jobs })
        ∧ (codes.any (fun c => (f32Val c).nonFinite) = true → o.cue.ofAttempt slot = true → j.isOpen = true →
          ∃ t, exec (.loss i) s = .next t ∧ t.jf slot Reg.jobAbandonCause = 1 ∧ (t.job slot).map (·.isOpen) = some false))
    ∧ (s.jobWaits i cMetric o slot j → j.tensor (o.cue.op 36 3) = some x → o.cue.op 48 4 ≤ x.bytes →
        s.tierOf (o.cue.op 40 8) (o.cue.op 48 4) = some .far → o.cue.inAttempt = true →
        s.outerServes .hbm x.base (o.cue.op 48 4) →
        ∃ t, exec (.metric i) s = .next t ∧ t.opRan i o 0 ∧ t.mem = s.mem
          ∧ t.job slot = some { j with
            outbound := j.outbound ++ [(o.cue.epoch.getD 0, .metric (o.cue.op 40 8) (s.bytes x.base (o.cue.op 48 4)))] })

/-! ### Director cues (07) -/

/-- A package that passes every check on a cast of this device alone is loaded: its slot is LOADED with the package's job and step 0
(R245, R267), the standby banks of BNK_STANDBY marked first (R297). The package's own reading and checks are named by the model's
functions. -/
def Obligations.JobsAreLoaded : Prop :=
  ∀ (s u : State) (i slot : Nat) (o : OpSlot) (j : Job) (head : List Byte), s.opWaits i cJobLoad o → o.cue.op 36 1 = slot → slot < 4 →
    (s.loadRefused slot o.cue.jobId).1 = 0 → s.tierOf (o.cue.op 40 8) (o.cue.op 48 8) = some .hbm →
    let v := s.quiet.markStandby
    v.readPackage (o.cue.op 40 8) (o.cue.op 48 8) = (0, some j, head, u) →
    let items := placeItems (2 ^ 24) j.itemList
    j.hdr 4 4 = o.cue.jobId → (j.hdr 3 1).testBit 0 = false → v.loadLocal j items = 0 → s.fld Reg.fovState ≠ 3 →
    v.castFits (v.members j items 0 []) = true → 128 + 80 * items.length ≤ 2 ^ 24 → s.fld Reg.castCorrAck = 1 →
    s.rd Reg.exportBase ≠ 0 →
    ∃ t, exec (.jobLoad i []) s = .next t ∧ t.opRan i o 0 ∧ t.jf slot Reg.jobState = 2 ∧ t.jf slot Reg.jobId = o.cue.jobId
      ∧ t.jf slot Reg.jobStep = 0 ∧ t.jf slot Reg.jobPkgBase = o.cue.op 40 8 ∧ t.rng.job = some slot
      ∧ t.fld Reg.rngKeyReady = 1 ∧ (t.job slot).map (·.program) = some j.program ∧ t.ckp.job = some slot

/-- JOB_START makes a LOADED or STOPPED job RUNNING, JOB_STOP stops it at its boundary, after an interval stop that is under way, JOB_UNLOAD
frees the slot of one that does not run (R267, R410, R413). -/
def Obligations.JobsStartStopAndUnload : Prop :=
  ∀ (s : State) (i slot : Nat) (o : OpSlot) (j : Job), SMap.sorted s.ops = true →
    (s.slotWaits i cJobStart o slot j → (s.jf slot Reg.jobState = 2 ∨ s.jf slot Reg.jobState = 4) → j.startOk = true →
      ∃ t, exec (.jobStart i) s = .next t ∧ t.opRan i o 0 ∧ t.jf slot Reg.jobState = 3
        ∧ t.job slot = some { j with failed := 0, stopNext := false }
        ∧ (s.ckp.job = some slot → t.ckp.starting = true ∧ t.ckp.full = true))
    ∧ (s.slotWaits i cJobStop o slot j → s.jf slot Reg.jobState = 3 →
        (j.isOpen = false → s.inStop = false ∨ s.ckp.job ≠ some slot → ∃ t, exec (.jobStop i) s = .next t ∧ t.opRan i o 0 ∧ t.jf slot Reg.jobState = 4
          ∧ ∀ off, off ≠ 0x40100 + 0x100 * slot → t.rd off = s.rd off)
        ∧ (j.isOpen = true ∧ (o.cue.op 37 1).testBit 0 = false ∨ j.isOpen = false ∧ s.inStop = true ∧ s.ckp.job = some slot →
          exec (.jobStop i) s = .next { s with
            out := [], jobs := SMap.put s.jobs slot { j with stopNext := true }
            ops := SMap.put s.ops i { o with started := true, left := 0 } }))
    ∧ (s.slotWaits i cJobUnload o slot j → s.jf slot Reg.jobState ≠ 3 → ∃ t, exec (.jobUnload i) s = .next t ∧ t.opRan i o 0
        ∧ t.job slot = none ∧ t.jf slot Reg.jobState = 0 ∧ t.jf slot Reg.jobId = 0)

/-- RECIPE, PARAM and MATINEE changes wait for the next attempt; CANCEL_AHEAD leaves no run-ahead cue of the job waiting
and the open attempt open (R247, R253, R260, R262). A matinee rebuild that an interval stopped runs again from its
beginning and gives the snapshot's step as its TAG (R264). -/
def Obligations.ChangesWaitForTheNextAttempt : Prop :=
  (∀ (s : State) (i slot : Nat) (o : OpSlot) (j : Job),
      let did := fun (j' : Job) => { s with
        out := [], jobs := SMap.put s.jobs slot j', ops := SMap.put s.ops i { o with started := true, left := 0 } }
      (s.jobWaits i cRecipe o slot j → (j.recipeChange (o.cue.op 36 3) ((o.cue.raw.drop 40).take 8)).1 = 0 →
        exec (.recipe i) s
          = .next (did { j with pendRecipe := j.pendRecipe ++ [(o.cue.op 36 3, (o.cue.raw.drop 40).take 8)] }))
      ∧ (∀ bs, s.jobWaits i cParam o slot j → j.upd[o.cue.op 36 3]? = some bs →
          let w := o.cue.op 39 1
          (updOf (bs.take (4 * w) ++ leBytes 4 (o.cue.op 40 4) ++ bs.drop (4 * w + 4))).inRange = true →
          exec (.param i) s = .next (did { j with pendParam := j.pendParam ++ [(o.cue.op 36 3, w, o.cue.op 40 4)] }))
      ∧ (s.jobWaits i cMatinee o slot j → (o.cue.op 37 1).testBit 0 = false →
          exec (.matinee i) s = .next (did { j with pendMatinee := some (o.cue.op 36 1) }))
      ∧ (s.jobWaits i cCancelAhead o slot j → SMap.sorted s.ops = true → o.cue.ahead = false →
          ∃ t, exec (.cancelAhead i) s = .next t ∧ t.opRan i o 0 ∧ t.jf slot Reg.jobAhead = 0
            ∧ (∀ c ∈ t.waiting, ¬(c.job = some slot ∧ c.ahead = true ∧ c.runahead = true))
            ∧ (t.job slot).map (·.isOpen) = some j.isOpen))
  ∧ (∀ (s : State) (i slot eng : Nat) (o : OpSlot) (j : Job), slot < 4 → s.job slot = some j → s.mayRebuild slot j = some eng →
      s.ops = [(i, o)] → o.cue.opcode = cMatinee → o.cue.job = some slot → o.started = true → o.left = 1 →
      let copies := (List.range j.layout.length).filterMap fun k => (j.tensor k).bind fun x =>
        if x.isEval && x.isWeight then (j.tensor x.aux).map fun m => (x, m) else none
      let ended := fun (t : State) => t.ops = [(i, { o with left := 0, tagOut := some (s.fld Reg.protectedStep % 2 ^ 32) })]
        ∧ (t.job slot).map (·.mpc) = some 0
      (copies = [] → ∃ t, exec (.matineeRebuildRestart slot) s = .next t ∧ ended t)
      ∧ ∀ (x m : Tensor) (it : Item) (vals : List Val), copies = [(x, m)] → x.scaled = false → x.fmt = fmtF32 →
          s.ckp.items.find? (fun it => it.kind == 1 && it.index == m.idx) = some it →
          let v := s.quiet.modJob slot fun (j : Job) => j.newScope scopeRebuild
          v.readVals ⟨1, eng, some slot⟩ { m with base := s.ckp.slotAt s.pSlot + it.slotOff } 0 m.elems = (0, vals, false, v) →
          let out := vals.flatMap fun y => leBytes 4 (wideCode fmtF32 0 y)
          vals ≠ [] → s.outerServes .hbm x.base out.length →
          ∃ t, exec (.matineeRebuildRestart slot) s = .next t ∧ ended t ∧ t.bytes x.base out.length = out)

/-! ### Steps, the interval and its copies (07, 12, 13) -/

/-- An attempt that may open opens with its epoch; a micro-batch boundary moves on and raises the tensor that asked for it; too many
abandoned attempts stop the job (R182, R187, R188, R249). -/
def Obligations.AttemptsOpenAndAreBounded : Prop :=
  ∀ (s : State) (slot : Nat) (j : Job), slot < 4 → s.job slot = some j →
    (s.mayOpen slot j = true → ∃ t, exec (.attemptOpen slot) s = .next t ∧ (t.job slot).map (·.isOpen) = some true
      ∧ (t.job slot).map (·.epoch) = some (s.jf slot Reg.jobStep % 2 ^ 24 * 256 + s.jf slot Reg.jobAttempt))
    ∧ (j.isOpen = true → j.boundaries ≤ j.mbLast → j.boundaries < 256 → s.quiet.batchDone slot j j.boundaries = true →
        ∃ t, exec (.microBatchBoundary slot j.boundaries) s = .next t ∧ (t.job slot).map (·.boundaries) = some (j.boundaries + 1)
          ∧ (t.job slot).map (·.trig) = some []
          ∧ ∀ i x f, j.trig = [i] → j.replay = true ∨ j.large = true → j.tensor i = some x → x.fb ≠ 0 →
            eFmtOf (j.recipeAt i).fmt = some f → j.rung i < lastRung f → (t.job slot).map (·.rung i) = some (j.rung i + 1))
    ∧ (s.jf slot Reg.jobState = 3 → j.isOpen = false → j.maxAttempts ≤ j.failed →
        ∃ t, exec (.maxAttemptsReached slot) s = .next t ∧ t.jf slot Reg.jobState = 4 ∧ t.jobs = s.jobs
          ∧ (s.pins.vsb = true → Noted t 0x3002 0xB000 [s.jf slot Reg.jobAbandonCause, 0xB000]))

/-- A rotation key of an epoch is loaded, and a tensor that stays silent is reported once, with its flag (R198, R209). -/
def Obligations.RotationKeysLoadAndSilenceIsReported : Prop :=
  ∀ s : State,
    (∀ epoch, epoch < 2 ^ 24 → s.rng.job.isSome = true →
      exec (.rotationKeyLoad epoch) s = .next { s with out := [], rng := { s.rng with rotEpoch := some epoch } })
    ∧ ∀ (slot tensor : Nat) (j : Job), slot < 4 → s.job slot = some j → tensor < j.layout.length →
        let a := j.watchAt tensor
        let flags := s.num (a + 3) 1
        a + 64 ≤ 0x8000_0000_0000 → s.voided = [] → bitAt 0 flags = true → bitAt 2 flags = false → bitAt 5 flags = false →
        s.fld Reg.numSilenceSteps ≤ s.num (a + 32) 4 →
        ∃ t, exec (.silenceReached slot tensor) s = .next t ∧ s.counted t Reg.silenceEvents 1
          ∧ t.num (a + 3) 1 = setBits 5 5 1 flags ∧ (∀ b, b < 0x8000_0000_0000 → b ≠ a + 3 → t.byte b = s.byte b)
          ∧ (s.pins.vsb = true → Noted t 0x2007 0xB000 [tensor, s.num (a + 32) 4])

/-- The curtain passes, with its norm, when no cause stands against it, and abandons the attempt for the cause otherwise; COMMIT
closes the attempt and moves the step on by one (R249, R251, R252, R576). -/
def Obligations.CurtainsPassAndCommitsAdvance : Prop :=
  ∀ (s : State) (slot : Nat) (j : Job), slot < 4 → s.job slot = some j → j.isOpen = true → s.fov.rehearsal = false →
    (∀ (peers : List CurtainPeer) (own : Val) (a : Nat), s.jf slot Reg.jobPhase = 4 → s.fov.voting = none →
      s.wholeCast (peers.map (·.coord)) = true →
      s.quiet.localS (.manager (some slot)) j j.gradScales (.fin false 0) = (0, own, a, s.quiet) →
      let line := peers.filter fun p => comp p.coord 1 == comp s.coord 1 && comp p.coord 2 == comp s.coord 2
      let total := reduceS (own :: line.map fun p => f32Val p.s)
      let sum := fun (f : CurtainPeer → Nat) => (peers.map f).foldl (· + ·) 0
      let cause := curtainCause j.normLimit (j.nfLoss + sum (·.nfLoss))
        (b2n own.nonFinite + sum fun p => b2n (f32Val p.s).nonFinite) (j.sat + sum (·.sat)) total
      (cause = 0 → ∃ t, exec (.curtain slot peers) s = .next t ∧ (t.job slot).map (·.curtainPassed) = some true
        ∧ (t.job slot).map (·.normS) = some (f32Code total) ∧ (t.job slot).map (·.isOpen) = some true)
      ∧ (cause ≠ 0 → ∃ t, exec (.curtain slot peers) s = .next t ∧ t.jf slot Reg.jobAbandonCause = cause
        ∧ (t.job slot).map (·.isOpen) = some false))
    ∧ (s.jf slot Reg.jobPhase = 6 → ∃ t, exec (.commit slot) s = .next t
        ∧ t.jf slot Reg.jobStep = min (s.jf slot Reg.jobStep + 1) (2 ^ 48 - 1) ∧ t.jf slot Reg.jobAttempt = 0
        ∧ (t.job slot).map (·.isOpen) = some false ∧ (t.job slot).map (·.failed) = some 0)

/-- The barrier before a forced interval waits for the others' drains and then begins it; the stop lays out the snapshot; the seal
makes the stopped step the sealed one and starts its drain (R405, R409, R410, R411, R412). -/
def Obligations.IntervalsStopAndSeal : Prop :=
  ∀ (s : State) (slot : Nat) (j : Job), slot < 4 → s.job slot = some j → s.ckp.job = some slot →
    (∀ pending failed, s.ckp.barrier = true → s.fld Reg.ckpDrainBusy = 0 →
      let p := pending + s.drainVote.1
      let f := failed + s.drainVote.2
      (0 < p → f = 0 → exec (.forcedInterval slot pending failed) s = .next { s with out := [] })
      ∧ (p = 0 ∨ 0 < f → s.ckp.starting = false → ∃ t, exec (.forcedInterval slot pending failed) s = .next t
          ∧ t.ckp.barrier = false ∧ t.ckp.stopping = true ∧ t.fld Reg.ckpPhase = 1 ∧ t.fld Reg.ckpDeferRun = 0))
    ∧ (∀ peers it a n, s.ckp.stopping = true → s.fld Reg.ckpPhase = 1 → s.ckp.items = [it] → it.kind ∉ [4, 5, 7, 8] → it.src = [(a, n)] →
        it.bytes = n → s.outerServes .hbm a n → s.outerServes .hbm (s.ckp.slotAt s.sSlot + it.slotOff) n →
        ∃ t, exec (.intervalStop slot peers) s = .next t ∧ t.fld Reg.ckpPhase = 2 ∧ t.ckp.stopping = true
          ∧ t.bytes (s.ckp.slotAt s.sSlot + it.slotOff) n = s.bytes a n)
    ∧ (s.ckp.stopping = true → s.fld Reg.ckpPhase = 2 → s.ckp.afterStop = [] → ∃ t, exec (.snapshotSeal slot) s = .next t
        ∧ t.ckp.stopping = false ∧ t.ckp.sealed = s.ckp.sealed.set s.sSlot (some (s.jf slot Reg.jobStep))
        ∧ t.fld Reg.sealedStep = s.jf slot Reg.jobStep ∧ t.fld Reg.ckpSSealed = 1 ∧ t.fld Reg.ckpDrainBusy = 1
        ∧ t.fld Reg.ckpPhase = 0 ∧ s.counted t Reg.intervals 1)

/-- A drain whose items read back and whose transfers are acknowledged completes; one with an item that does not read back is given
up; an export whose objects are written shows its step (R407, R419, R423, R437). -/
def Obligations.DrainsAndExportsEnd : Prop :=
  ∀ (s : State) (slot : Nat) (j : Job), slot < 4 → s.job slot = some j → s.ckp.job = some slot →
    (s.fld Reg.ckpDrainBusy = 1 → (∀ p, p < 6 → ∀ o ∈ (s.port p).outstanding, o.use ≠ 4) → s.ckp.reship = false →
      s.quiet.badItem s.sSlot = none →
      (s.fld Reg.parityUnit = 0 → ∃ t, exec (.drainComplete slot) s = .next t ∧ t.fld Reg.ckpDrainBusy = 0 ∧ t.out = []
        ∧ OnlyRegs (fun o => o = 0xC0004) s t)
      ∧ (0 < s.fld Reg.parityUnit → ∀ x, SMap.find s.colls (deviceKey 0xFFFFF9 s.parityPlace.2.1) = some x → x.done = true →
          ∃ t, exec (.drainComplete slot) s = .next t ∧ t.fld Reg.ckpDrainBusy = 0 ∧ t.ckp.staged = true))
    ∧ (∀ it, s.fld Reg.ckpDrainBusy = 1 → s.quiet.badItem s.sSlot = some it →
        ∃ t, exec (.drainGivenUp slot) s = .next t ∧ t.fld Reg.ckpDrainBusy = 0 ∧ t.fld Reg.ckpDrainFailed = 1
          ∧ s.counted t Reg.drainFails 1 ∧ t.ckp = s.ckp ∧ (s.pins.vsb = true → Noted t 0x6002 0xB000 [it.kind, it.index]))
    ∧ ∀ e step book bodies v u, s.ckp.exporting = some (e, step) → s.quiet.exportBodies s.pSlot = (some (book, bodies), v) →
        let base := s.ckp.exportBase + e * s.ckp.exportSize
        let n := s.ckp.items.length
        let offs := exportOffsets 0 s.ckp.items
        let objects := (offs.zip bodies).map (fun p => (base + p.1, p.2)) ++ [(base + offs.getLastD 0, exportBook book offs n)]
        v.writeObjects j objects = (true, u) →
        ∃ t, exec (.exportComplete slot) s = .next t ∧ t.ckp.exporting = none ∧ t.ckp.exportSlot = e
          ∧ t.fld Reg.ckpExporting = 0 ∧ t.fld Reg.exportStep = step % 2 ^ 48 ∧ s.counted t Reg.exports 1
          ∧ (s.pins.vsb = true → Noted t 0x6004 0xB000 [step % 2 ^ 32])

/-! ### Engines (03, 04, 05, 13) -/

/-- An idle set takes the engine's first waiting tile and makes its first pass, or preloads an UPDATE's base; a bound set makes its next
pass, and the array's failing rows change the sums as they did (R103, R113, R130, R140, R141). A complete set drains: a check run to
its capture areas, a sampled tile to a held one, any other to its target with its rows acknowledged; the second drain writes the planes
again with the fall-back copy and frees the set; a set that overflowed runs again at the next exponent (R145, R147, R148, R173,
R187). A set that meets an uncorrectable error loses its product (R146). -/
def Obligations.PassesRunAndSetsDrain : Prop :=
  (∀ (s : State) (e k slot : Nat) (meet : PassMeet) (o : OpSlot) (j : Job) (p : Prod), e < 144 → k < 2 →
      s.engSt e = US.active ∨ s.engSt e = US.spare ∨ s.engSt e = US.test →
      let upset := fun (x : AccSet) => { x with elems := meet.wrong.foldl (fun (l : List AccEl) w =>
        l.modify w.1 fun (a : AccEl) => { a with v := sext 64 (twos 64 (a.v + w.2)) }) x.elems }
      let pass := fun (t : State) => t.ef e Reg.passes = min (s.ef e Reg.passes + 1) (2 ^ 64 - 1)
      (∀ x kt i jx rest, SMap.find s.sets (2 * e + k) = some x → meet.setBad = false → x.passes = (kt, i, jx) :: rest →
        x.overflow = false → s.productIs x.work.op o slot j p →
        (j.replay = false → x.work.upOps (j.viewOf o) o.cue = (none, none) → ∀ fa fb, s.copyIs j p.qa fa → s.copyIs j p.qb fb →
          s.passFeeds p x.work fa fb kt →
          ∃ t, exec (.passStart e k meet) s = .next t ∧ t.setIs e k (upset (s.passed e p fa fb x kt i jx)) ∧ pass t)
        ∧ (j.replay = true → ∃ t, exec (.passStart e k meet) s = .next t
          ∧ t.setIs e k (upset { x with passes := rest, begun := true }) ∧ pass t))
      ∧ (∀ w, SMap.find s.sets (2 * e + k) = none → s.tiles.find? (fun x => x.engine == e) = some w → s.productIs w.op o slot j p →
          let x := AccSet.start w (p.passes w.slices)
          (∀ kt i jx rest, p.fin.acc ≠ 1 → x.passes = (kt, i, jx) :: rest →
            (j.replay = false → w.upOps (j.viewOf o) o.cue = (none, none) → ∀ fa fb, s.copyIs j p.qa fa → s.copyIs j p.qb fb →
              s.passFeeds p w fa fb kt →
              ∃ t, exec (.passStart e k meet) s = .next t ∧ t.setIs e k (upset (s.passed e p fa fb x kt i jx)) ∧ pass t
                ∧ t.tiles = s.tiles.erase w)
            ∧ (j.replay = true → ∃ t, exec (.passStart e k meet) s = .next t
              ∧ t.setIs e k (upset { x with passes := rest, begun := true }) ∧ pass t ∧ t.tiles = s.tiles.erase w))
          ∧ (p.fin.acc ≠ 1 → p.klen = 0 → ∃ t, exec (.passStart e k meet) s = .next t ∧ t.setIs e k (upset x)
              ∧ t.tiles = s.tiles.erase w)
          ∧ (p.fin.acc = 1 → s.baseServes p w → ∃ t, exec (.passStart e k meet) s = .next t
              ∧ t.setIs e k (upset (s.preloaded e p x)) ∧ t.tiles = s.tiles.erase w))
      ∧ ∀ x, SMap.find s.sets (2 * e + k) = some x → meet.setBad = true → SMap.find s.ops x.work.op = some o →
          SMap.sorted s.sets = true → ∃ t, exec (.passStart e k meet) s = .next t ∧ SMap.find t.sets (2 * e + k) = none)
  ∧ (∀ (s : State) (e k slot : Nat) (x : AccSet) (o : OpSlot) (j : Job) (p : Prod), e < 144 → k < 2 →
      SMap.find s.sets (2 * e + k) = some x →
      let w := x.work
      let rq : Requester := engRq e o
      let freed := fun (t : State) => SMap.find t.sets (2 * e + k) = none
      let acked := fun (t : State) (rows : Nat) =>
        (SMap.find t.ops w.op).map (fun y => (y.rows, y.left, y.status)) = some (o.rows + rows, o.left - 1, 0)
      (SMap.find s.ops w.op = some o → SMap.sorted s.sets = true →
        (∃ t, exec (.tileDrain e ⟨k, true⟩) s = .next t ∧ freed t) ∧ ∃ t, exec (.secondDrain e ⟨k, true⟩) s = .next t ∧ freed t)
      ∧ (∀ v d u, s.quiet.workOf e w = (some (o, slot, j, p), v) → x.passes = [] → x.overflow = false → x.second = false →
        let up := if w.role = 3 ∧ p.out.record ≠ 0 then j.raisedRung p.out.idx else j
        v.drainOut rq up p o.cue x o.cue.step = (d, u) → d.status = 0 →
        let kept := ((u.drained e o x d).noteDraws slot p w d.quant).captureTile j o p x d
        (kept.1 = 0 → w.role ≠ 0 → ∃ t, exec (.tileDrain e ⟨k, false⟩) s = .next t ∧ freed t
          ∧ t.heldTiles = kept.2.2.heldTiles.map fun h => h.take w (x.capture d))
        ∧ (kept.1 = 0 → w.role = 0 → w.sampled = true → ∃ t h, exec (.tileDrain e ⟨k, false⟩) s = .next t ∧ freed t
            ∧ t.heldTiles = kept.2.2.heldTiles ++ [h] ∧ h.work = w ∧ h.a = x.capture d
            ∧ h.b = none ∧ h.c = none ∧ h.wide = none ∧ h.verdict = 0)
        ∧ (w.role = 0 → w.sampled = false → w.acked = false → u = s.quiet → d.quant = none → x.run = 0 → p.fin.acc = 0 →
            (∀ c ∈ x.elems, c.ovf = false) → SMap.find s.ops w.op = some o → o.status = 0 →
            ∀ a bs, d.rows = [] → d.spans = [] → d.plain = [(a, bs)] → s.outerServes .hbm a bs.length →
            ∃ t, exec (.tileDrain e ⟨k, false⟩) s = .next t ∧ freed t ∧ t.bytes a bs.length = bs
              ∧ SMap.find t.ops w.op = some { o with rows := o.rows + w.rows, left := o.left - 1 }))
      ∧ (s.productIs w.op o slot j p → x.passes = [] → x.overflow = false → x.second = false →
        (p.fin.outFmt = fmtA64 → p.fin.direct = true → p.fin.stats = false →
          let a := (p.out.tileAt (w.r0 / 256) (w.c0 / 256)).1
          let hdr := x.header (p.klen == 0 && p.fin.acc == 0) o.cue.step
          let bs := hdr.bytes ++ x.elems.flatMap fun c => leBytes 8 (twos 64 c.v)
          let d : Drained := { status := 0, plain := [(a, bs)], rows := [], quant := none, ovf := hdr.ovf, nv := x.nv, spans := [], pre := 0 }
          let room := ∀ q, (j.viewOf o).planned o.cue w.tile = some q →
            let b := (j.viewOf o).pairAt q p w.rows w.cols w.role
            s.outerServes .hbm b bs.length
              ∧ s.outerServes .hbm (b + tileBytes w.rows w.cols) (min bs.length (tileBytes w.rows w.cols))
          (w.role = 0 → w.sampled = false → w.acked = false → p.fin.acc ≠ 2 → x.run < 4 → o.status = 0 → s.outerServes .hbm a bs.length →
            ∃ t, exec (.tileDrain e ⟨k, false⟩) s = .next t ∧ freed t ∧ acked t w.rows ∧ t.bytes a bs.length = bs
              ∧ ∀ b, b < 0x8000_0000_0000 → ¬(a ≤ b ∧ b < a + bs.length) → t.byte b = s.byte b)
          ∧ (room → w.role = 0 → w.sampled = true → ∃ t h, exec (.tileDrain e ⟨k, false⟩) s = .next t ∧ freed t
              ∧ t.heldTiles = s.heldTiles ++ [h] ∧ h.work = w ∧ h.a = x.capture d ∧ h.b = none ∧ h.verdict = 0)
          ∧ (room → w.role = 1 ∨ w.role = 2 → ∃ t, exec (.tileDrain e ⟨k, false⟩) s = .next t ∧ freed t
              ∧ t.heldTiles = s.heldTiles.map fun h => h.take w (x.capture d)))
        ∧ (p.fin.direct = true → p.fin.stats = false → p.fin.acc = 0 → p.fin.outFmt ≠ fmtA64 → p.out.record = 0 → j.replay = false →
            w.role = 0 → w.sampled = false → w.acked = false → x.run < 4 → o.status = 0 → p.out.fmt = fmtF32 ∨ p.out.fmt = 0x10 →
            let n := if p.out.fmt = fmtF32 then 4 else 2
            let row := fun (m : Nat) => p.out.base + n * ((w.r0 + m) * p.out.redLen + w.c0)
            w.c0 + w.cols ≤ p.out.redLen → (∀ m, m < w.rows → s.outerServes .hbm (row m) (n * w.cols)) →
            ∃ t, exec (.tileDrain e ⟨k, false⟩) s = .next t ∧ freed t ∧ acked t w.rows
              ∧ ∀ m c, m < w.rows → c < w.cols →
                t.num (row m + n * c) n = wideCode p.out.fmt p.fin.round (x.val (m * w.cols + c)) % 2 ^ (8 * n)))
      ∧ (s.productIs w.op o slot j p → x.second = true → p.fin.direct = true → p.fin.stats = false → p.fin.outFmt ≠ fmtA64 →
          p.out.record ≠ 0 → j.replay = false → o.status = 0 →
          let d := (s.quiet.drainOut rq ((j.viewOf o).raisedRung p.out.idx) p o.cue x o.cue.step).1
          let writes := d.writes ++ s.mergedRecs j o.cue.scope d.recs
          (∀ r ∈ d.recs, formStatus (s.bytes (s.storeAddr r.2.1) 32) = 0) → (∀ wr ∈ writes, s.outerServes .hbm wr.1 wr.2.length) →
          ∃ t, exec (.secondDrain e ⟨k, false⟩) s = .next t ∧ freed t ∧ acked t 0
            ∧ ∀ wr ∈ writes, (∀ y ∈ writes, y ≠ wr → overlap wr.1 wr.2.length y.1 y.2.length = false) →
              overlap wr.1 wr.2.length (j.watchAt p.out.idx) 64 = false → overlap wr.1 wr.2.length (j.watchAt p.out.fb) 64 = false →
              t.bytes wr.1 wr.2.length = wr.2)
      ∧ (s.productIs w.op o slot j p → x.overflow = true →
          let step := x.run + 1 ≤ 3 ∧ w.et0 + 8 * (x.run + 1 : Nat) ≤ 32767
          let run := if step then x.run + 1 else 4
          let again := fun (etB : Int) => { AccSet.start w (p.passes w.slices) with
            run := run, et := if step then w.et0 + 8 * (x.run + 1 : Nat) else etB, bound := w.bound || decide (run = 4) }
          let rerun := fun (t : State) => t.ef e Reg.retryRuns = min (s.ef e Reg.retryRuns + 1) (2 ^ 64 - 1)
            ∧ (SMap.find t.ops w.op).map (·.run) = some run
          (p.fin.acc ≠ 1 → p.klen = 0 → ∃ t, exec (.a64Overflow e k) s = .next t ∧ t.setIs e k (again w.etB) ∧ rerun t)
          ∧ (∀ kt i jx rest, p.fin.acc ≠ 1 → p.passes w.slices = (kt, i, jx) :: rest →
            (j.replay = false → w.upOps (j.viewOf o) o.cue = (none, none) → ∀ fa fb, s.copyIs j p.qa fa → s.copyIs j p.qb fb →
              s.passFeeds p w fa fb kt → ∃ t, exec (.a64Overflow e k) s = .next t
                ∧ t.setIs e k (s.passed e p fa fb (again w.etB) kt i jx) ∧ rerun t)
            ∧ (j.replay = true → ∃ t, exec (.a64Overflow e k) s = .next t
                ∧ t.setIs e k { again w.etB with passes := rest, begun := true } ∧ rerun t))
          ∧ (p.fin.acc = 1 → s.baseServes p w → ∀ fa fb, s.copyIs j p.qa fa → s.copyIs j p.qb fb →
            let bs := s.bytes (p.out.tileAt (w.r0 / 256) (w.c0 / 256)).1 (64 + 8 * w.rows * w.cols)
            let top := (leWords 8 (w.rows * w.cols) (bs.drop 64)).foldl (fun m v => max m (sext 64 v).natAbs) 0
            let up := w.upOps (j.viewOf o) o.cue
            let etB := max w.etB (p.boundEt (recsOf p.qa fa up.1) (recsOf p.qb fb up.2) ((top : Rat) * pow2 (tileHdrOf bs).et))
            ∃ t, exec (.a64Overflow e k) s = .next t ∧ t.setIs e k (s.preloaded e p (again etB)) ∧ rerun t)))

/-- A held tile's next run goes to the engine it is due on; two runs that agree settle it and two that differ count a mismatch; the
third run names the faulty engine, and a tile whose own run was wrong or undecided is discarded; the damage check counts and releases
it, one whose operands are both at W16 without a run (R175 to R179, R181). -/
def Obligations.SampledTilesAreChecked : Prop :=
  ∀ (s : State) (i slot : Nat) (h : HeldTile) (o : OpSlot) (j : Job) (p : Prod), s.heldTiles[i]? = some h →
    let gone := fun (t : State) => ∀ x ∈ t.heldTiles, ¬(x.work.op = h.work.op ∧ x.work.tile = h.work.tile)
    (∀ role e v, s.quiet.checkDue h = some (role, some e) → e < 144 →
      s.quiet.workOf e h.work = (some (o, slot, j, p), v) → ∃ t, exec (.faultCheckRun i e) s = .next t
        ∧ (role ≠ 3 → t.tiles = v.tiles ++ [{ h.work with role := role, engine := e, sampled := false, acked := false }]
          ∧ (v.engSt e = US.active → v.counted t Reg.checksOnActive 1))
        ∧ (role = 3 → j.atW16 p.a = false ∨ j.atW16 p.b = false →
          (∃ w, t.tiles = v.tiles ++ [w] ∧ w.role = 3 ∧ w.engine = e ∧ w.op = h.work.op ∧ w.tile = h.work.tile ∧ w.sampled = false)
          ∧ (p.b.isWeight = false →
            t.tiles = v.tiles ++ [(v.checkWork (engRq e o) (((v.job slot).getD j).viewOf o) o.cue p h 3 e).1])
          ∧ (v.engSt e = US.active → v.counted t Reg.checksOnActive 1))
        ∧ (role = 3 → j.atW16 p.a = true → j.atW16 p.b = true → gone t))
    ∧ (∀ v, s.quiet.workOf h.work.engine h.work = (some (o, slot, j, p), v) → ∀ b, h.b = some b →
        (h.verdict = 0 → (h.a.same b p.freeOut = true →
            (h.damage = true → ∃ t, exec (.faultCheckCompare i) s = .next t
              ∧ t.heldTiles = v.heldTiles.set i { h with verdict := 1 } ∧ v.counted t Reg.faultChecks 1)
            ∧ (h.damage = false → ∃ t, exec (.faultCheckCompare i) s = .next t ∧ gone t ∧ v.counted t Reg.faultChecks 1))
          ∧ (h.a.same b p.freeOut = false → ∃ t, exec (.faultCheckCompare i) s = .next t
              ∧ t.heldTiles = v.heldTiles.set i { h with verdict := 5 } ∧ v.counted t Reg.faultChecks 1
              ∧ v.counted t Reg.faultMismatches 1))
        ∧ (∀ c, h.verdict = 5 → h.c = some c → s.sec.test = none → h.a.engine < 144 → b.engine < 144 →
            (c.same h.a p.freeOut = true → ∃ t, exec (.faultVerdict i) s = .next t ∧ t.engSt b.engine = US.failed)
            ∧ (c.same h.a p.freeOut = false → c.same b p.freeOut = true →
                ∃ t, exec (.faultVerdict i) s = .next t ∧ t.engSt h.a.engine = US.failed ∧ gone t)
            ∧ (c.same h.a p.freeOut = false → c.same b p.freeOut = false →
                ∃ t, exec (.faultVerdict i) s = .next t ∧ v.counted t Reg.faultUnresolved 1 ∧ gone t))
        ∧ (∀ w, h.wide = some w → h.verdict = 1 ∨ h.verdict = 2 → ∃ t, exec (.damageCheck i) s = .next t ∧ gone t
            ∧ v.counted t Reg.damageChecks 1))

/-- An engine that stops is FAILED and its spare takes over; a test capture gives the cell's sum to a tester alone; a self-test ends
in the engine's earlier state or FAILED (R124, R128, R132, R177, R441). -/
def Obligations.EnginesFailAndAreTested : Prop :=
  ∀ (s : State) (e : Nat), e < 144 →
    (s.engSt e ≠ US.failed → s.sec.test = none → ∃ t, exec (.engineWatchdog e) s = .next t ∧ t.engSt e = US.failed
      ∧ t.ef e Reg.wdogFired = 1 ∧ ∀ sp, s.engSt e = US.active → s.spareOf (e / 9) = some sp → t.engSt sp = US.active)
    ∧ (s.served = true →
        (∀ r, s.engSt e = US.test → s.ef e Reg.arrayBusy = 0 → s.cellRow e (s.ef e Reg.testRow) = some r →
          ∃ t, exec (.testCapture e) s = .next t
          ∧ t.ef e Reg.testA20 = twos 32 (SMap.get 0 s.cells (e * 2 ^ 17 + r * 256 + s.ef e Reg.testCol))
          ∧ t.ef e Reg.testValid = 1 ∧ t.out = []
          ∧ OnlyRegs (fun off => off = 0x480048 + 0x400 * e ∨ off = 0x48004C + 0x400 * e) s t)
        ∧ (s.engSt e ≠ US.test → ∃ t, exec (.testCapture e) s = .next t ∧ t.ef e Reg.testValid = s.ef e Reg.testValid
          ∧ (s.pins.vsb = true → Noted t 0xB001 (0x1000 + e) [0x480044 + 0x400 * e, 1, 4])))
    ∧ (s.engSt e = US.test → bits 15 12 (s.unitEntry (0x1000 + e)) = 1 → s.sec.test = none →
        (∃ t, exec (.engineSelfTestDone e true) s = .next t ∧ t.engSt e = bits 7 4 (s.unitEntry (0x1000 + e)))
        ∧ ∃ t, exec (.engineSelfTestDone e false) s = .next t ∧ t.engSt e = US.failed)

/-! ### Temperature and power (09, 16) -/

/-- A sample of a stack or DIMM raises its level at once, from level 2 with THERM_N; an implausible one makes its sensor
faulty and holds level 2; ten cool samples let the level fall by one; slow notices follow the levels (R314, R315,
R321, R541, R544). The power average and its caps, the junction temperature, the input voltage, the telemetry, the
trip and the restart of the management controller, with every sensor sound (R541, R542, R543, R544, R545, R563). -/
def Obligations.TemperatureAndPowerAreWatched : Prop :=
  (∀ (s : State) (i : Nat), i < 8 →
      let lvl := s.fld (Reg.stackLevel.plus (0x40 * i))
      let x := s.channel i
      (∀ temp, s.fld (Reg.stackUp.plus (0x40 * i)) = 1 → (s.stack i).faulty = false →
        (plausible temp = true → ∃ t, exec (.hbmTempSample i (some temp)) s = .next t
          ∧ t.fld (Reg.stackTemp.plus (0x40 * i)) = twos 8 temp
          ∧ t.fld (Reg.stackLevel.plus (0x40 * i)) = max lvl (s.levelAt temp)
          ∧ (2 ≤ max lvl (s.levelAt temp) → t.fld Reg.mgtTherm = 1)
          ∧ (lvl < 4 → s.levelAt temp = 4 → t.fov.dead = true ∧ t.fld (Reg.stackUp.plus (0x40 * i)) = 0))
        ∧ (plausible temp = false → ∃ t, exec (.hbmTempSample i (some temp)) s = .next t ∧ (t.stack i).faulty = true
          ∧ t.fld (Reg.stackLevel.plus (0x40 * i)) = max 2 lvl ∧ s.counted t Reg.sensorFaults 1))
      ∧ (∀ temp, s.fld (Reg.ddrTrained.plus (0x40 * i)) = 1 → x.faulty = false →
        (plausible temp = true → ∃ t, exec (.dimmTempSample i (some temp)) s = .next t ∧ (t.channel i).temp = twos 8 temp
          ∧ (t.channel i).level = max x.level (s.levelAt temp)
          ∧ (2 ≤ max x.level (s.levelAt temp) → t.fld Reg.mgtTherm = 1)
          ∧ (x.level < 4 → s.levelAt temp = 4 → t.fld Reg.ddrActive = 0))
        ∧ (plausible temp = false → ∃ t, exec (.dimmTempSample i (some temp)) s = .next t ∧ (t.channel i).faulty = true
          ∧ (t.channel i).level = max 2 x.level ∧ s.counted t Reg.sensorFaults 1))
      ∧ (10 ≤ (s.stack i).cool → (s.stack i).faulty = false → 0 < lvl → lvl < 4 → ∃ t, exec (.thermalLevelFall false i) s = .next t
          ∧ t.fld (Reg.stackLevel.plus (0x40 * i)) = lvl - 1 ∧ (t.stack i).cool = 0)
      ∧ (10 ≤ x.cool → x.faulty = false → 0 < x.level → x.level < 4 → ∃ t, exec (.thermalLevelFall true i) s = .next t
          ∧ (t.channel i).level = x.level - 1 ∧ (t.channel i).cool = 0)
      ∧ ((s.levels.any fun l => l == 2 || l == 3) = true → ∃ t, exec .slowNoticeSend s = .next t ∧ t.fld Reg.memSlow = 1
          ∧ t.fabric = { s.fabric with slow := true })
      ∧ (s.levels.all (· < 2) = true → s.fabric.slow = true → ∃ t, exec .slowNoticeSend s = .next t
          ∧ t.fld Reg.memSlow = 0 ∧ t.fabric = { s.fabric with slow := false }))
  ∧ (∀ s : State, s.controllerUp = true → s.mgt.faulty = [] →
      (∀ mv ma, 30000 ≤ mv → mv ≤ 70000 → ma ≤ 80000 → ∃ t, exec (.powerControlTick (some mv) (some ma)) s = .next t
        ∧ t.fld Reg.pIn = mv * ma / 1000000 ∧ t.fld Reg.mgtExcursion = b2n (decide (s.fld Reg.limitW < mv * ma / 1000000))
        ∧ t.mgt.window = (mv * ma / 1000000 :: s.mgt.window).take 10000 ∧ t.mgt.energy = s.mgt.energy + mv * ma / 1000000
        ∧ (2900 < mv * ma / 1000000 → t.fld Reg.mgtCap % 2 = 1))
      ∧ (∀ readings : List (Option Int), readings.length = 40 → (∀ r ∈ readings, ∃ x : Int, r = some x ∧ -40 ≤ x ∧ x ≤ 150) →
          ∃ t, exec (.junctionTempSample readings) s = .next t ∧ some t.mgt.tj ∈ readings ∧ (∀ x, some x ∈ readings → x ≤ t.mgt.tj)
            ∧ t.mgt.trip = (if 115 ≤ t.mgt.tj then s.mgt.trip + 1 else 0)
            ∧ t.fld Reg.mgtCap = s.fld Reg.mgtCap % 2 + 2 * b2n (decide ((s.fld Reg.tjWarn : Int) ≤ t.mgt.tj))
            ∧ ((s.fld Reg.tjWarn : Int) ≤ t.mgt.tj → t.fld Reg.mgtTherm = 1))
      ∧ (∀ mv, mv < 40000 ∨ 60000 < mv → s.mgt.vinLow = false → ∃ t, exec (.vinOutOfRange mv) s = .next t
          ∧ t.mgt.vin = mv ∧ t.mgt.vinLow = true ∧ t.mgt.supply = 550 ∧ Noted t 0x8007 0x9000 [mv])
      ∧ (∀ vcore beat, 400 ≤ vcore → vcore ≤ 900 → beat < 65536 → ∃ t, exec (.telemetryUpdate (some vcore) beat) s = .next t
          ∧ t.fld Reg.vCore = vcore ∧ t.fld Reg.beatRate = beat
          ∧ t.fld Reg.pAvg = min (s.mgt.window.foldl (· + ·) 0 / max 1 s.mgt.window.length) 65535
          ∧ t.fld Reg.vIn = min s.mgt.vin 65535 ∧ t.fld Reg.tjCompute = twos 8 s.mgt.tjCompute ∧ t.fld Reg.tjIo = twos 8 s.mgt.tjIo)
      ∧ (3 ≤ s.mgt.trip → s.mgt.railsOff = false → ∃ t, exec .thermalTrip s = .next t ∧ t.fov.dead = true ∧ t.fld Reg.mgtFault = 1
          ∧ t.mgt.railsOff = true ∧ t.banks = [] ∧ ∀ a, a < 0x8000_0000_0000 → t.byte a = 0)
      ∧ ∃ t r, exec .mcWatchdog s = .next t ∧ t.fld Reg.eid = 0 ∧ t.fld Reg.dynAddr = 0 ∧ t.mgt.assembling = false
          ∧ s.counted t Reg.mcRestarts 1 ∧ Noted t 0x8008 0x9000 [] ∧ r.seq = s.rd Reg.nextSeq
          ∧ t.board = (if 4096 ≤ s.board.length then s.board.drop 1 else s.board) ++ [r]
          ∧ t.rd Reg.nextSeq = (s.rd Reg.nextSeq + 1) % 2 ^ 64 ∧ s.counted t Reg.evtRecords 1)

/-! ### The torus link (10) -/

/-- Frames, timeouts, error windows and lane losses take a port through its training (R327 to R330, R332, R335, R347,
R348). What PORT_CTRL and PORT_CMD do to a port (R348, R371, R401, R534). -/
def Obligations.PortsTrainAndFollowTheirRegisters : Prop :=
  (∀ (s : State) (p : Nat), p < 6 →
      let x := s.port p
      let n := x.failed + 1
      (∀ lane signal inverted w eye, lane < 16 → wordGood w = true →
        (linked (s.pst p) = true → ∃ t, exec (.trainingFrameReceived p lane signal inverted w eye) s = .next t ∧ t.pst p = PS.retrain)
        ∧ (s.pst p = PS.detect → ∃ t, exec (.trainingFrameReceived p lane signal inverted w eye) s = .next t ∧ t.pst p = PS.train
            ∧ (t.port p).lanes.getD lane (0, 0) = (w % 16 + 1, 1) ∧ t.pf p Reg.failedRemote = bits 39 24 w)
        ∧ (s.pst p = PS.train ∨ s.pst p = PS.retrain → x.train = 5 →
            (x.lastOut = true → bitAt 7 w = true →
              ∃ t, exec (.trainingFrameReceived p lane signal inverted w eye) s = .next t ∧ (t.port p).train = 6)
            ∧ (x.lastOut = false → 4 ≤ x.readyOut → (∀ l ∈ s.lanesInUse p, 4 ≤ x.readyIn.getD l 0) → (maskLanes signal).headD lane = lane →
              ∃ t, exec (.trainingFrameReceived p lane signal inverted w eye) s = .next t ∧ (t.port p).lastOut = true
                ∧ ∃ f, .lanes p f ∈ t.out)))
      ∧ (∀ lane signal inverted w eye, lane < 16 → wordGood w = false →
          exec (.trainingFrameReceived p lane signal inverted w eye) s = .next { s with out := [] })
      ∧ (s.pst p = PS.train → s.pf p Reg.portNeighbour ≠ 3 →
          (n < 3 → ∃ t, exec (.trainingTimeout p) s = .next t ∧ t.pst p = PS.train ∧ (t.port p).failed = n)
          ∧ (3 ≤ n → ∃ t, exec (.trainingTimeout p) s = .next t ∧ t.pst p = PS.down ∧ (t.port p).failed = 0
              ∧ (s.pins.vsb = true → Noted t 0x5003 (0x6000 + p) [1, s.pf p Reg.failedLocal ||| s.pf p Reg.failedRemote])))
      ∧ (s.pst p = PS.retrain → ∃ t, exec (.retrainTimeout p) s = .next t ∧ t.pst p = PS.train ∧ t.pf p Reg.failedLocal = 0)
      ∧ (s.pst p = PS.init → ∃ t, exec (.initTimeout p) s = .next t ∧ t.pst p = PS.retrain)
      ∧ (linked (s.pst p) = false → x.train = 6 →
          (x.fecGood < 3 → ∃ t, exec (.fecFrameReceived p []) s = .next t ∧ (t.port p).fecGood = x.fecGood + 1 ∧ t.pst p = s.pst p)
          ∧ (3 ≤ x.fecGood → ∃ t, exec (.fecFrameReceived p []) s = .next t ∧ t.pst p = PS.init ∧ (t.port p).train = 0))
      ∧ (∀ errs : List (Nat × Nat), linked (s.pst p) = true → (∀ e ∈ errs, e.1 < 272 ∧ e.2 < 16) →
          ∃ t, exec (.fecFrameReceived p errs) s = .next t ∧ (t.port p).fecCount = x.fecCount + 1 ∧ t.pst p = s.pst p
            ∧ t.pf p Reg.uncorrCw = min (s.pf p Reg.uncorrCw + (badCodewords (s.frameErrors p errs)).length) (2 ^ 64 - 1))
      ∧ (linked (s.pst p) = true →
          ((∃ l, l < 16 ∧ 2240 < x.winCorr.getD l 0) ∨ 8 ≤ x.winUncorr → ∃ t, exec (.errorRateWindow p) s = .next t
            ∧ t.pst p = PS.retrain ∧ ∀ l, l < 16 → 2240 < x.winCorr.getD l 0 → bitAt l (t.pf p Reg.failedLocal) = true)
          ∧ ((∀ l, l < 16 → x.winCorr.getD l 0 ≤ 2240) → x.winUncorr < 8 → ∃ t, exec (.errorRateWindow p) s = .next t
            ∧ t.pst p = s.pst p ∧ (t.port p).winUncorr = 0)
          ∧ ∀ l, l < 16 → ∃ t, exec (.laneSignalLoss p l) s = .next t ∧ t.pst p = PS.retrain
            ∧ bitAt l (t.pf p Reg.failedLocal) = true))
  ∧ (∀ (s : State) (p : Nat), p < 6 → s.served = true →
      (s.pst p = PS.off ∨ s.pst p = PS.down → s.fov.dead = false →
        s.unitRaw (0x6000 + p) = US.idle ∨ s.unitRaw (0x6000 + p) = US.active →
        ∃ t, exec (.portEnable p) s = .next t ∧ t.pf p Reg.portEnable = 1 ∧ t.pst p = PS.detect ∧ (t.port p).train = 1)
      ∧ (∃ t, exec (.portDisable p) s = .next t ∧ t.pf p Reg.portEnable = 0 ∧ t.pst p = PS.off
          ∧ (linked (s.pst p) = true → 16 ≤ t.out.countP fun o => match o with
              | .flit q f => q == p && flitKind f == 3 && fieldLE f 10 1 == 2 && fieldLE f 11 1 == 5
              | _ => false))
      ∧ (1 ≤ s.pst p → s.pst p ≤ 9 → ∃ t, exec (.portFullTrain p) s = .next t ∧ t.pst p = PS.train
          ∧ t.pf p Reg.failedLocal = 0 ∧ t.pf p Reg.failedRemote = 0)
      ∧ (linked (s.pst p) = true → ∃ t, exec (.portRetrain p) s = .next t ∧ t.pst p = PS.retrain
          ∧ t.pf p Reg.retrains = min (s.pf p Reg.retrains + 1) (2 ^ 64 - 1))
      ∧ (linked (s.pst p) = false → exec (.portRetrain p) s = .next { s with out := [] }))

/-- A flit boundary sends one flit: new data by R346's choice, else IDLE, and only IDLE during link initialisation or before the partner's
lock; a DATA flit in order is taken, a bad flit asks for a
replay, a replay begins where the acknowledgement stopped; INIT and LINK flits act on the port's state (R337, R338, R340 to R348). -/
def Obligations.FlitsAreSentAndTaken : Prop :=
  ∀ (s : State) (p : Nat), p < 6 →
    let x := s.port p
    (linked (s.pst p) = true → s.pst p ≠ PS.init → x.resend = none →
      (s.pickVc p = none → ∃ t f, exec (.flitTransmit p) s = .next t ∧ t.out.head? = some (.flit p f) ∧ f.length = 256 ∧ flitKind f = 0)
      ∧ (∀ vc av al som eom src payload, s.pickVc p = some (vc, av, al) → x.nextOn (s.pst p) vc = some (vc, som, eom, src, payload) →
          vc < 6 → x.txSeq < 65536 → ∃ t f, exec (.flitTransmit p) s = .next t ∧ t.out.head? = some (.flit p f) ∧ f.length = 256
            ∧ flitKind f = 1 ∧ fieldLE f 2 2 = x.txSeq ∧ (t.port p).txSeq = (x.txSeq + 1) % 65536
            ∧ (t.port p).outbox = dropFirst (s.pst p) vc x.outbox
            ∧ (t.port p).credits = x.credits.set vc (x.credits.getD vc 0 - 1)
            ∧ ∀ q, src = some q → q < 6 → vc < (s.port q).freed.length →
              (t.port q).freed.getD vc 0 = (s.port q).freed.getD vc 0 + 1))
    ∧ ((s.pst p = PS.init ∨ linked (s.pst p) = false ∧ x.lastOut = true) →
        ∃ t f, exec (.flitTransmit p) s = .next t ∧ t.out.head? = some (.flit p f) ∧ f.length = 256 ∧ flitKind f = 0)
    ∧ (linked (s.pst p) = false → x.lastOut = false → exec (.flitTransmit p) s = .next { s with out := [] })
    ∧ (∀ flit late, s.goodFlit p 1 flit → fieldLE flit 2 2 = x.rxSeq → ∃ t, exec (.dataFlitReceived p flit late) s = .next t
        ∧ (t.port p).rxSeq = (x.rxSeq + 1) % 65536 ∧ t.pf p Reg.flitsRx = min (s.pf p Reg.flitsRx + 1) (2 ^ 64 - 1))
    ∧ (∀ flit late, s.goodFlit p 0 flit → ∃ t, exec (.idleFlitReceived p flit late) s = .next t
        ∧ (t.port p).flitCount = x.flitCount + 1 ∧ (t.port p).rxSeq = x.rxSeq
        ∧ (t.port p).replay = x.replay.filter fun e => !(e.1 == fieldLE flit 4 2 || serialAfter 16 (fieldLE flit 4 2) e.1))
    ∧ (∀ flit late c, linked (s.pst p) = true → flitGood flit = false →
        c ∈ [Instr.dataFlitReceived p flit late, .idleFlitReceived p flit late, .initFlitReceived p flit late,
          .linkFlitReceived p flit late] → ∃ t, exec c s = .next t ∧ t.pf p Reg.crcFails = min (s.pf p Reg.crcFails + 1) (2 ^ 64 - 1)
          ∧ (x.nakArmed = true → (t.port p).nakSend = true) ∧ (t.port p).rxSeq = x.rxSeq)
    ∧ (s.pst p = PS.init → ∃ t f, exec (.initFlitSend p) s = .next t ∧ .flit p f ∈ t.out ∧ flitKind f = 2
        ∧ (x.initRx = true → x.initSeenRx = true → t.pst p = PS.hello)
        ∧ (x.initRx = false → x.initSeenTx = false → t.pst p = PS.init))
    ∧ (∀ flit late, s.pst p = PS.init → s.goodFlit p 2 flit → fieldLE flit 8 1 ≤ 1 →
        ∃ t, exec (.initFlitReceived p flit late) s = .next t
          ∧ (x.initSeenTx = false → (t.port p).initRx = true ∧ t.pst p = PS.init)
          ∧ (x.initSeenTx = true → bitAt 0 (fieldLE flit 10 1) = true → t.pst p = PS.hello))
    ∧ (∀ flit late, s.goodFlit p 3 flit → fieldLE flit 8 1 ≤ 1 → fieldLE flit 10 1 = 1 →
        ∃ t, exec (.linkFlitReceived p flit late) s = .next t ∧ t.pst p = PS.retrain ∧ t.pf p Reg.failedRemote = fieldLE flit 12 2)
    ∧ (∀ q f rest, linked (s.pst p) = true → x.replay = (q, f) :: rest → ∃ t, exec (.replayTimeout p) s = .next t
        ∧ t.pf p Reg.replays = min (s.pf p Reg.replays + 1) (2 ^ 64 - 1)
        ∧ (x.replays < 7 → (t.port p).resend = some q ∧ t.pst p = s.pst p) ∧ (7 ≤ x.replays → t.pst p = PS.retrain))

/-- HELLOs are sent and judged, PULSEs are sent and heard, and four missed pulses make a neighbour suspect (R361 to R365, R398;
Table 10.14). That the exchange goes on after its timeout is the model's choice (log entry 110). -/
def Obligations.HellosAndPulsesAreExchanged : Prop :=
  ∀ (s : State) (p : Nat), p < 6 →
    let x := s.port p
    (s.pst p = PS.hello → ∃ t, exec (.helloSend p) s = .next t ∧ s.queued t p 4 (s.helloBody p))
    ∧ (s.pst p = PS.hello → ∃ t, exec (.helloExchangeTimeout p) s = .next t ∧ s.queued t p 4 (s.helloBody p) ∧ t.pst p = PS.hello)
    ∧ (s.pst p = PS.quarantine → ∃ t, exec (.quarantineHello p) s = .next t ∧ s.queued t p 4 (s.helloBody p))
    ∧ (∀ m, s.waitingMsg p 4 opHello false = some m → 64 ≤ m.body.length → fieldLE m.body 0 1 = 1 → s.pst p = PS.hello →
        (x.helloAcked = false → ∃ t, exec (.helloReceived p) s = .next t ∧ t.pst p = PS.hello ∧ (t.port p).helloIn = true
          ∧ t.pf p Reg.peerCoord = fieldLE m.body 8 3 ∧ t.pf p Reg.peerSerial = fieldLE m.body 20 8
          ∧ t.pf p Reg.peerFw = fieldLE m.body 16 4 ∧ t.pf p Reg.peerCast = fieldLE m.body 12 4)
        ∧ (x.helloAcked = true → fieldLE m.body 2 1 ≠ 1 → ∃ t, exec (.helloReceived p) s = .next t ∧ t.pst p = PS.quarantine
          ∧ t.pf p Reg.portQuarCause = 1)
        ∧ (x.helloAcked = true → fieldLE m.body 2 1 = 1 → fieldLE m.body 7 1 = 0 → s.fld Reg.fovRole = 0 →
          s.pf p Reg.portNeighbour ≠ 3 → s.expected p = some (fieldLE m.body 8 3) →
          bits 2 0 (fieldLE m.body 6 1) = portOpposite p → fieldLE m.body 12 4 = s.ownCast → s.ownCast ≠ 0 →
          fieldLE m.body 5 1 = 1 → ∃ t, exec (.helloReceived p) s = .next t ∧ t.pst p = PS.up))
    ∧ (s.pst p = PS.up ∨ s.pst p = PS.boundary ∨ s.pst p = PS.standby → ∃ t, exec (.pulseSend p) s = .next t
        ∧ (t.port p).pulseTx = (x.pulseTx + 1) % 65536 ∧ s.queued t p 4 (s.pulseBody ((x.pulseTx + 1) % 65536)))
    ∧ (∀ m, s.waitingMsg p 4 opPulse false = some m → 32 ≤ m.body.length → fieldLE m.body 0 1 = 1 →
        ∃ t, exec (.pulseReceived p) s = .next t ∧ (t.port p).pulseRx = some (fieldLE m.body 4 2) ∧ (t.port p).missed = 0
          ∧ (s.pst p = PS.up → s.pf p Reg.portNeighbour = 2 → t.pf p Reg.portNeighbour = 1))
    ∧ (∃ t, exec (.missedPulse p) s = .next t ∧ (t.port p).missed = x.missed + 1
        ∧ t.pf p Reg.missedPulses = min (s.pf p Reg.missedPulses + 1) (2 ^ 64 - 1)
        ∧ t.pf p Reg.portNeighbour = (if s.pf p Reg.portNeighbour = 1 ∧ 3 ≤ x.missed then 2 else s.pf p Reg.portNeighbour))
    ∧ (s.pf p Reg.portNeighbour = 1 →
        (4 ≤ x.missed → ∃ t, exec (.neighbourSuspect p) s = .next t ∧ t.pf p Reg.portNeighbour = 2))

/-- PUT, GET and its answer, through an open window to HBM: the bytes are stored, or sent back with the request's tag, or go where
their requester wanted them (R353, R355, R356, R358, R381). -/
def Obligations.PutsAndGetsMoveBytes : Prop :=
  ∀ (s : State) (p vc : Nat) (m : Msg),
    let t := txnOf m.bytes
    let left := fun (u : State) => (u.port p).inbox = (s.port p).inbox.erase m
    (s.takes p vc opPut m → s.windowOpen vc t t.bytes 0 = true → s.ckp.job = none →
      s.outerServes .hbm t.arg m.body.length → ∃ u, exec (.txnPut p vc) s = .next u ∧ left u
        ∧ u.bytes t.arg m.body.length = m.body ∧ BytesKept (fun a => t.arg ≤ a ∧ a < t.arg + m.body.length) s u)
    ∧ (s.takes p vc opPut m → s.windowOpen vc t t.bytes 0 = false → ∃ u, exec (.txnPut p vc) s = .next u ∧ left u
        ∧ (∀ a, a < 0x8000_0000_0000 → u.byte a = s.byte a)
        ∧ u.pf p Reg.txnRejected = min (s.pf p Reg.txnRejected + 1) (2 ^ 64 - 1))
    ∧ (s.takes p vc opGet m → s.windowOpen vc t t.bytes 1 = true → s.outerServes .hbm t.arg t.bytes →
        let back := if vc = 2 ∨ vc = 5 then (if t.src = noCoord then none else s.route t.src).getD p else p
        ∃ u h, exec (.txnGet p vc) s = .next u ∧ left u ∧ u.mem = s.mem ∧ h.length = 48 ∧ (txnOf h).resp = true ∧ (txnOf h).tag = t.tag
          ∧ (txnOf h).status = 0 ∧ (u.port back).outbox = (s.port back).outbox
            ++ cutMsg vc ((48 + t.bytes) / 240 + 1) true (h ++ (List.range t.bytes).map fun i => s.byte (t.arg + i)))
    ∧ ∀ q (o : Outstanding) i (x : OpSlot), p < 6 → vc < 6 → (s.port p).front vc = some m → t.opcode = opGet → t.resp = true →
        s.mine m = true → s.requestOf p opGet t.tag = some (q, o) → o.use = 0 → t.status = 0 → o.ops = [i] →
        SMap.find s.ops i = some x → s.outerServes .hbm o.dst m.body.length →
        ∃ u, exec (.txnGetResponse p vc) s = .next u ∧ u.bytes o.dst m.body.length = m.body
          ∧ SMap.find u.ops i = some { x with left := x.left - 1 } ∧ BytesKept (fun a => o.dst ≤ a ∧ a < o.dst + m.body.length) s u

/-- ATOMIC_ADD, SEND and a collective's chunk reach the sum, the slot or the collective they are for: I32 elements saturate, A64 elements
are re-expressed at the target's ET and its header is merged; the last chunk of a transfer ends it, and the last transfer of an
operation's MAX writes its result and fences every port it sent on (R159, R240, R355, R356, R358, R383, R384, R385, R388, R394). -/
def Obligations.AddsSendsAndChunksAreApplied : Prop :=
  ∀ (s : State) (p vc : Nat) (m : Msg),
    let t := txnOf m.bytes
    let left := fun (u : State) => (u.port p).inbox = (s.port p).inbox.erase m
    (s.takes p 1 opAtomic m → t.a64 = false → s.windowOpen 1 t t.bytes 2 = true → t.arg % 4 = 0 → t.bytes = 4 → m.body.length = 4 →
      s.windowExp t.arg 4 = some (sext 16 t.exp) → s.outerServes .hbm t.arg 4 →
      let sum := sext 32 (s.num t.arg 4) + sext 32 (leNat m.body)
      let sat := decide (sum < -2 ^ 31) || decide (2 ^ 31 - 1 < sum)
      ∃ u, exec (.txnAtomicAddI32 p) s = .next u ∧ u.num t.arg 4 = twos 32 (max (-2 ^ 31) (min (2 ^ 31 - 1) sum))
        ∧ BytesKept (fun a => t.arg ≤ a ∧ a < t.arg + 4) s u ∧ (u.port p).errors = (s.port p).errors + b2n sat ∧ left u)
    ∧ (s.takes p 1 opAtomic m → t.a64 = true → s.windowOpen 1 t (64 + 8 * t.offset + t.bytes) 3 = true → t.bytes % 8 = 0 →
        0 < t.bytes → t.bytes ≤ 2048 → t.arg % 8 = 0 → formStatus (s.bytes t.arg 32) = 0 →
        let a := t.arg + 64 + 8 * t.offset
        s.outerServes .hbm t.arg 32 → s.outerServes .hbm a t.bytes →
        let h := tileHdrOf (s.bytes t.arg 32)
        let info : RowInfo := { et := sext 16 t.exp, ovf := bitAt 0 t.aflags, nv := bitAt 1 t.aflags, bound := bitAt 2 t.aflags
                                retries := t.retries, lost := t.lost }
        let moved := (leWords 8 (t.bytes / 8) m.body).map fun x =>
          if h.et = info.et then (sext 64 x, 0, false) else reexpress info.et h.et (sext 64 x)
        let exact := (moved.zip (leWords 8 (t.bytes / 8) (s.bytes a t.bytes))).map fun y => sext 64 y.2 + y.1.1
        let sat := exact.any fun x => decide (x < -2 ^ 63) || decide (2 ^ 63 - 1 < x)
        let new := { h with
          ovf := h.ovf || info.ovf || sat || moved.any (fun (y : Int × Nat × Bool) => y.2.2), nv := h.nv || info.nv, bound := h.bound || info.bound
          retries := max h.retries info.retries, lost := min (h.lost + info.lost + (moved.map fun (y : Int × Nat × Bool) => y.2.1).foldl (· + ·) 0) (2 ^ 32 - 1) }
        ∃ u, exec (.txnAtomicAddA64 p) s = .next u ∧ left u
          ∧ u.bytes a t.bytes = exact.flatMap (fun x => leBytes 8 (twos 64 (max (-2 ^ 63) (min (2 ^ 63 - 1) x))))
          ∧ u.bytes t.arg 32 = new.bytes.take 32 ∧ (u.port p).errors = (s.port p).errors + b2n sat
          ∧ ∀ b, b < 0x8000_0000_0000 → ¬(t.arg ≤ b ∧ b < t.arg + 32) → ¬(a ≤ b ∧ b < a + t.bytes) → u.byte b = s.byte b)
    ∧ (∀ slot (j : Job) bs i (o : OpSlot) (out : Tensor), s.takes p vc opSend m → s.epochSlot = some slot → s.job slot = some j →
        j.coll[t.arg % 2 ^ 24]? = some bs → (collOf bs).kind = 7 → 16 ≤ m.body.length → formStatus m.body = 0 →
        fieldLE m.body 3 1 = 0 → (m.body.drop 9).take 7 = List.replicate 7 0 →
        let off := fieldLE m.body 4 5
        let data := m.body.drop 16
        off + data.length ≤ (collOf bs).bytes →
        s.recvOp (t.arg % 2 ^ 24) (fieldLE m.body 2 1) (if vc = 0 then t.epoch else s.openEpoch) = some (i, o) →
        j.tensor (collOf bs).outRef = some out →
        let a := out.base + fieldLE m.body 2 1 % max 1 (collOf bs).depth * (collOf bs).bytes + off
        s.outerServes .hbm a data.length → o.status = 0 → ∃ u, exec (.txnSend p vc) s = .next u ∧ u.bytes a data.length = data
          ∧ left u ∧ BytesKept (fun b => a ≤ b ∧ b < a + data.length) s u
          ∧ SMap.find u.ops i = some { o with
              rows := o.rows + data.length, left := if (collOf bs).bytes ≤ o.rows + data.length then o.left - 1 else o.left })
    ∧ (∀ slot (j : Job), s.takes p vc opSend m → s.epochSlot = some slot → s.job slot = some j →
        j.coll[t.arg % 2 ^ 24]? = none → ∃ u, exec (.txnSend p vc) s = .next u ∧ left u
          ∧ u.pf p Reg.txnRejected = min (s.pf p Reg.txnRejected + 1) (2 ^ 64 - 1))
    ∧ (p < 6 → (s.port p).front 1 = some m → t.opcode = opStep → t.resp = false →
        let index := t.arg % 2 ^ 24
        (∀ key (x : Coll) (h : Hop) more, s.epochRule t.epoch = 0 → s.knownIndex index = true → (index < 0xFFFFF0 ∨ 0xFFFFF9 ≤ index) →
          s.colls = [(key, x)] → x.index = index → x.epoch = t.epoch → x.tracks = [h :: more] → h.send = false → h.port = p →
          h.round = bits 39 24 t.arg → x.sent.eraseDups = x.sent →
          let y := x.take 0 h (bits 63 40 t.arg) m.body
          ((x.got.countP fun g => g / 2 ^ 24 == h.round) + 1 < x.chunks h →
            ∃ u, exec (.txnCollectiveStep p) s = .next u ∧ u.colls = [(key, y)] ∧ left u)
          ∧ ∀ i slot (o : OpSlot) (j : Job) (out : Tensor), x.chunks h ≤ (x.got.countP fun g => g / 2 ^ 24 == h.round) + 1 →
              more = [] → x.passes = [] → x.op = some i → SMap.find s.ops i = some o → o.cue.job = some slot → s.job slot = some j →
              (collOf x.desc).kind = 3 → j.tensor (collOf x.desc).outRef = some out →
              let n := (y.wire (List.range y.data.length)).length
              s.outerServes .hbm out.base n → o.status = 0 →
              ∃ u, exec (.txnCollectiveStep p) s = .next u ∧ u.colls = [] ∧ left u
                ∧ u.bytes out.base n = y.wire (List.range y.data.length)
                ∧ SMap.find u.ops i = some { o with started := true, left := x.sent.length }
                ∧ (∀ q ∈ x.sent, q < 6 → s.queued u q 3 [])
                ∧ u.fld Reg.collectives = min (s.fld Reg.collectives + 1) (2 ^ 64 - 1))
        ∧ (s.epochRule t.epoch = 0 → 0xFFFFF0 ≤ index → index < 0xFFFFF9 →
          ∃ u, exec (.txnCollectiveStep p) s = .next u ∧ left u ∧ u.colls = s.colls ∧ u.regs = s.regs)
        ∧ (s.epochRule t.epoch = 0 → s.knownIndex index = false → ∃ u, exec (.txnCollectiveStep p) s = .next u ∧ left u
          ∧ u.pf p Reg.txnRejected = min (s.pf p Reg.txnRejected + 1) (2 ^ 64 - 1))
        ∧ (s.epochRule t.epoch = 2 → ∃ u, exec (.txnCollectiveStep p) s = .next u ∧ left u
          ∧ u.pf p Reg.stale = min (s.pf p Reg.stale + 1) (2 ^ 64 - 1)))

/-- A FENCE is answered with the port's report, its answer completes what it covered, forwarded transactions go on whole and keep their
slots, and a request without an answer times out (R13, R356, R357, R360, R379, R380). -/
def Obligations.FencesForwardsAndTimeoutsAct : Prop :=
  ∀ (s : State) (p : Nat) (m : Msg), p < 6 →
    let t := txnOf m.bytes
    ((s.port p).inbox.head? = some m → t.opcode = opFence → t.resp = false → (s.port p).fwd = [] →
      ∃ u, exec (.txnFence p) s = .next u ∧ s.queued u p 3 (s.port p).report ∧ (u.port p).errors = 0
        ∧ (u.port p).inbox = (s.port p).inbox.erase m)
    ∧ (∀ (o : Outstanding) i (x : OpSlot), (s.port p).front 3 = some m → t.opcode = opFence → t.resp = true →
        formStatus m.body = 0 → (s.port p).outstanding.find? (fun o => o.opcode == opFence && o.tag == t.tag) = some o → o.use = 0 →
        o.ops = [i] → SMap.find s.ops i = some x → x.status = 0 → ∃ u, exec (.txnFenceResponse p) s = .next u
          ∧ (u.port p).outstanding = (s.port p).outstanding.erase o ∧ SMap.find u.ops i = some { x with
              left := x.left - 1, status := if fieldLE m.body 8 4 = 0 then 0 else St.torusError })
    ∧ ((s.port p).front 3 = some m → t.opcode = opFence → t.resp = true → formStatus m.body ≠ 0 →
        ∃ u, exec (.txnFenceResponse p) s = .next u ∧ (u.port p).outstanding = (s.port p).outstanding ∧ u.ops = s.ops
          ∧ u.pf p Reg.txnRejected = min (s.pf p Reg.txnRejected + 1) (2 ^ 64 - 1))
    ∧ (∀ vc q, vc < 6 → (s.port p).front vc = some m → s.forwards vc t.dst = true → s.hopTo t.dst = some q → q < 6 → q ≠ p →
        s.pst q = PS.up → s.pf q Reg.portNeighbour ≠ 3 → ∃ u, exec (.txnForward p vc) s = .next u
          ∧ (u.port q).outbox = (s.port q).outbox ++ (cutMsg vc (m.bytes.length / 240 + 1) true m.bytes).zipIdx.map (fun e =>
              (e.1.1, e.1.2.1, e.1.2.2.1, (if e.2 < m.flits then some p else none), e.1.2.2.2.2))
          ∧ (u.port p).inbox = (s.port p).inbox.erase m ∧ (u.port p).freed = (s.port p).freed ∧ (q, none) ∈ (u.port p).fwd
          ∧ u.pf q Reg.forwarded = min (s.pf q Reg.forwarded + ceilDiv m.bytes.length 240) (2 ^ 64 - 1))
    ∧ ∀ (o : Outstanding) i (x : OpSlot), (s.port p).outstanding.find? (fun y => y.tag == o.tag) = some o → o.use = 0 → o.ops = [i] →
        SMap.find s.ops i = some x → x.status = 0 → ∃ u, exec (.txnTimeout p o.tag) s = .next u
          ∧ (u.port p).outstanding = (s.port p).outstanding.erase o
          ∧ SMap.find u.ops i = some { x with left := x.left - 1, status := St.timeout }
          ∧ (s.pf p Reg.portNeighbour = 1 → u.pf p Reg.portNeighbour = 2)

/-! ### Notices and the cast (11, 13) -/

/-- Each NOTICE does what its kind says, and what follows without one does too (R315, R367 to R369, R398, R399, R444, R445). -/
def Obligations.NoticesAreActedOn : Prop :=
  ∀ (s : State) (p : Nat) (b : List Byte),
    let lost := fun (c : Nat) (t : State) => ∀ q, q < 6 → s.expected q = some c → t.pf q Reg.portNeighbour = 3
    (s.noticed p nkSlow b → ∃ t, exec (.noticeSlow p) s = .next t ∧ t.pf p Reg.portSlowIn = 1)
    ∧ (s.noticed p nkClear b → ∃ t, exec (.noticeClear p) s = .next t ∧ t.pf p Reg.portSlowIn = 0)
    ∧ (p < 6 → ∃ t, exec (.slowStretchExpiry p) s = .next t ∧ t.pf p Reg.portSlowIn = 0 ∧ t.out = []
        ∧ OnlyRegs (fun o => o = 0x100004 + 0x10000 * p) s t)
    ∧ (∀ slot (j : Job), s.noticed p nkCancel b → s.fov.recovery = false → s.fov.rehearsal = false → slot < 4 →
        let names := fun (k : Nat) (i : Job) => i.epoch = fieldLE b 16 4
          ∧ (i.isOpen = true ∨ i.lapsed = false ∧ s.jf k Reg.jobState = 3)
        s.job slot = some j → names slot j → (∀ k, k < slot → ∀ i, s.job k = some i → ¬names k i) →
        1 ≤ fieldLE b 6 2 → fieldLE b 6 2 ≤ 6 → ∃ t, exec (.noticeCancel p) s = .next t
          ∧ t.jf slot Reg.jobAbandonCause = fieldLE b 6 2 ∧ (t.job slot).map (·.isOpen) = some false)
    ∧ (s.noticed p nkSelfFailed b → s.queryOn (fieldLE b 8 3) = none →
        ∃ t, exec (.noticeSelfFailed p) s = .next t ∧ lost (fieldLE b 8 3) t)
    ∧ (s.noticed p nkFailed b →
        (fieldLE b 12 3 ≠ s.coord → ∃ t, exec (.noticeFailed p) s = .next t ∧ lost (fieldLE b 12 3) t)
        ∧ (fieldLE b 12 3 = s.coord → ∃ t, exec (.noticeFailed p) s = .next t ∧ t.fov.dead = true))
    ∧ (∀ q, s.noticed p nkQuery b → (s.portsTo (fieldLE b 12 3)).head? = some q → s.pf q Reg.portNeighbour < 2 →
        ∃ t, exec (.noticeQuery p) s = .next t
          ∧ t.fabric.toReport = s.fabric.toReport.filter (· != fieldLE b 12 3) ++ [fieldLE b 12 3])
    ∧ (∀ q : Query, s.noticed p nkReport b → s.queryOn (fieldLE b 12 3) = some q →
        (fieldLE b 20 4 = 0xFFFFFFFF → ∃ t, exec (.noticeReport p) s = .next t ∧ s.counted t Reg.failedDeclared 1)
        ∧ (fieldLE b 20 4 ≠ 0xFFFFFFFF → q.alive = false → ∃ t, exec (.noticeReport p) s = .next t
            ∧ s.counted t Reg.linkFaults 1 ∧ t.fabric.faulted = s.fabric.faulted ++ [q.port]))
    ∧ ∀ q : Query, p < 6 → s.fabric.queries.find? (fun q => q.port == p) = some q →
        (q.alive = false → ∃ t, exec (.confirmTimeout p) s = .next t ∧ s.counted t Reg.failedDeclared 1)
        ∧ (q.alive = true → s.pst p = PS.up → ∃ t, exec (.confirmTimeout p) s = .next t
            ∧ t.fabric.queries = s.fabric.queries.filter (fun x => x.subject != q.subject) ∧ t.regs = s.regs)

/-- FORM takes 1 with sound cast registers and no job, and the cast is formed or forming; with a fault it names it; with a job both
writes are discarded; FORM takes 0 and there is no cast (R376, R574). -/
def Obligations.CastsFormAndDissolve : Prop :=
  ∀ s : State, s.served = true →
    (s.allIdle = true →
      (s.castFault = none → ∃ t, exec .castForm s = .next t ∧ t.fld Reg.castForm = 1 ∧ t.fld Reg.castState ≠ 0)
      ∧ (∀ k, s.castFault = some k → ∃ t, exec .castForm s = .next t ∧ t.fld Reg.castForm = 0
          ∧ t.fld Reg.castState = s.fld Reg.castState ∧ (s.pins.vsb = true → Noted t 0x5008 0xB000 [k]))
      ∧ ∃ t, exec .castDissolve s = .next t ∧ t.fld Reg.castForm = 0 ∧ t.fld Reg.castState = 0
          ∧ ∀ p, p < 6 → t.pf p Reg.portInCast = 0)
    ∧ (s.allIdle = false →
        (∃ t, exec .castForm s = .next t ∧ t.fld Reg.castForm = s.fld Reg.castForm ∧ t.ports = s.ports
          ∧ (s.pins.vsb = true → Noted t 0xB001 0 [0x16001C, 1, 3]))
        ∧ ∃ t, exec .castDissolve s = .next t ∧ t.fld Reg.castForm = s.fld Reg.castForm ∧ t.ports = s.ports
          ∧ (s.pins.vsb = true → Noted t 0xB001 0 [0x16001C, 0, 3]))

/-! ### Failover and votes (13) -/

/-- The understudy asks its mirror partner for P's book; the fill barrier starts the fill, lets a survivor pass or ends in the export
fallback; a verified fill seals slot P; the rehearsal barrier opens the rehearsal (R453 to R460, R466). -/
def Obligations.UnderstudiesFillAndRehearse : Prop :=
  ∀ s : State,
    (s.fld Reg.fovState = 3 → s.fld Reg.castState = 2 → s.awaiting 2 = false → s.fov.bookOk = false →
      (∀ p, s.mirrorThere (s.rd Reg.ckpProt) = true → s.openRoute s.partnerNow = some p → ∃ t o, exec .understudyBookRead s = .next t
        ∧ (t.port p).outstanding = (s.port p).outstanding ++ [o] ∧ o.opcode = opGet ∧ o.bytes = 128 ∧ o.use = 2
        ∧ s.queued t p 2 [] ∧ t.fov.book = [] ∧ t.fov.fillFailed = false)
      ∧ (s.mirrorThere (s.rd Reg.ckpProt) = false → ∃ t, exec .understudyBookRead s = .next t ∧ t.fov.fillFailed = true
        ∧ t.ports = s.ports))
    ∧ (s.fov.recovery = true → s.fov.barrierPassed = false → ∃ t, exec .understudyWaitExpiry s = .next t ∧ t.fov.recovery = false
        ∧ s.counted t Reg.fallbacks 1 ∧ (s.fov.dead = false → t.fld Reg.fovState = 0)
        ∧ ∀ j, j < 4 → s.jf j Reg.jobState = 3 → t.jf j Reg.jobState = if s.fld Reg.exports = 0 then 5 else 4)
    ∧ (∀ failed, s.atFillBarrier = true →
        (0 < failed + s.fillVote → ∃ t, exec (.fillBarrier failed) s = .next t ∧ s.counted t Reg.fallbacks 1
          ∧ t.fov.recovery = false ∧ t.fov.filling = false)
        ∧ ∀ slot (j : Job), failed + s.fillVote = 0 → s.ckp.job = some slot → s.job slot = some j →
          (s.understudy = true → ∃ t, exec (.fillBarrier failed) s = .next t ∧ t.fld Reg.fovState = 4 ∧ t.fov.filling = true
            ∧ t.fld Reg.fillBytes = ((List.range s.ckp.items.length).map fun i =>
                fieldLE (bookEntry s.fov.book i) 16 8).foldl (· + ·) 0 % 2 ^ 64)
          ∧ (s.understudy = false → ∃ t, exec (.fillBarrier failed) s = .next t ∧ t.fov.barrierPassed = true
            ∧ t.fov.recovery = s.fov.recovery))
    ∧ (∀ slot (j : Job) v, slot < 4 → s.ckp.job = some slot → s.job slot = some j → s.fillArrived = true → s.fov.fillFailed = false →
        let k := s.pSlot
        (s.fov.filling = true → (s.quiet.placeUnits k s.fov.book s.fov.filled).verifyFill j k s.fov.book
            (List.range s.ckp.items.length) = (true, v) → ∃ t, exec .fillSeal s = .next t ∧ t.fov.filling = false
          ∧ t.ckp.hasP = true ∧ t.ckp.full = true ∧ t.ckp.sealed = s.ckp.sealed.set k (some (fieldLE s.fov.book 24 6))
          ∧ t.fld Reg.protectedStep = fieldLE s.fov.book 24 6 ∧ v.counted t Reg.fills 1)
        ∧ (∀ book u, s.fov.filling = false → s.fov.filled ≠ [] → s.quiet.readBook k = (some book, u) →
          (u.placeUnits k book s.fov.filled).verifyFill j k book s.fov.filled = (true, v) →
            ∃ t, exec .fillSeal s = .next t ∧ t.fov.filled = [] ∧ t.fov.fillFailed = false)
        ∧ (s.fov.filling = true → s.fov.recovery = true → (s.quiet.placeUnits k s.fov.book s.fov.filled).verifyFill j k s.fov.book
            (List.range s.ckp.items.length) = (false, v) → ∃ t, exec .fillSeal s = .next t ∧ t.fov.filling = false
          ∧ t.fov.fillFailed = true))
    ∧ (∀ failed slot, slot < 4 → s.fld Reg.fovState = 4 → s.fov.filling = false → s.ckp.job = some slot →
        (failed = 0 → s.fov.fillFailed = false → ∃ t, exec (.rehearsalBarrier failed) s = .next t ∧ t.fov.rehearsal = true
          ∧ t.fov.recovery = false ∧ t.fld Reg.fovState = 5 ∧ t.jf slot Reg.jobState = 3)
        ∧ (0 < failed → ∃ t, exec (.rehearsalBarrier failed) s = .next t ∧ t.fov.rehearsal = false
          ∧ s.counted t Reg.fallbacks 1))
    ∧ (s.fov.recovery = true → s.fov.barrierPassed = true → s.fov.filled = [] → s.fov.fillFailed = false → s.fld Reg.fovState ≠ 4 →
        ∃ t, exec (.rehearsalBarrier 0) s = .next t ∧ t.fov.rehearsal = true ∧ t.fld Reg.fovState = 5 ∧ t.jobs = s.jobs)

/-- A vote that all members share is agreed; a majority of three or more expels the others; one that is incomplete in time ends
with the shield (R469, R470, R471). -/
def Obligations.ReplicasVote : Prop :=
  ∀ (s : State) (step slot : Nat), s.fov.voting = some step → s.ckp.job = some slot → slot < 4 → step < 2 ^ 48 →
    (∀ values : List (Nat × Nat),
      let all := (s.coord, s.digestV) :: values
      all.length = s.replicas → (all.map (·.1)).eraseDups.length = all.length →
      (all.all fun e => s.isMember e.1 && comp e.1 0 == comp s.coord 0) = true →
      let ranked := (List.range s.replicas).filterMap fun r => all.find? fun e => rankOf (s.groupPos 6 e.1) == r
      ((∀ e ∈ values, e.2 = s.digestV) → ∃ t, exec (.replicaVote values) s = .next t ∧ t.fld Reg.votedStep = step
        ∧ t.fld Reg.fovLastVote = 1 ∧ s.counted t Reg.votes 1 ∧ t.fov.voting = none)
      ∧ (3 ≤ ranked.length → (∃ e ∈ ranked, e.2 ≠ s.digestV) → majorityOf (ranked.map (·.2)) = some s.digestV →
        ∃ t, exec (.replicaVote values) s = .next t ∧ t.fld Reg.votedStep = step ∧ t.fld Reg.fovLastVote = 2
          ∧ s.counted t Reg.votes 1 ∧ s.counted t Reg.expulsions (ranked.countP fun e => e.2 != s.digestV)))
    ∧ ∃ t, exec .voteTimeout s = .next t ∧ t.fov.voting = none ∧ t.fld Reg.fovLastVote = 3
        ∧ (s.inStop = true → t.ckp.afterStop = s.ckp.afterStop ++ [0])

/-! ### The mailbox (15) -/

/-- The reading commands of the mailbox answer, over every path, with what the device holds (R509, R515, R517, R518, R520, R526). -/
def Obligations.MailboxReadsAnswer : Prop :=
  ∀ (s : State) (p : Path) (id : Nat), id < 2 ^ 32 →
    let ask := fun (code : Nat) (body : List Byte) => s.asked p (mailboxRequest code id body)
    let ok := fun (t : State) (code : Nat) (body out : List Byte) => s.answered t p (mailboxRequest code id body) 0 out
    let up := s.fld Reg.measDone = 1 ∧ s.fld Reg.secAborted = 0
    (∀ nonce : List Byte, up → nonce.length = 32 → ask 1 nonce → ∃ t b, exec (.getEvidence p) s = .next t ∧ ok t 1 nonce b
      ∧ b.take 2 = [1, 72] ∧ fieldLE b 4 4 = s.rd Reg.fwBuild % 2 ^ 32 ∧ fieldLE b 8 2 = s.fld Reg.svn ∧ fieldLE b 12 4 = s.fld Reg.bootCount
      ∧ fieldLE b 16 8 = s.rd Reg.serialHash ∧ (b.drop 24).take 32 = nonce)
    ∧ (ask 2 [] → ∃ t, exec (.getCerts p) s = .next t ∧ ok t 2 [] (s.norBytes 0x2000 7235
        ++ if s.fld Reg.measDone = 1 then publicOf s.sec.aliasSeed ++ s.aliasCert else []))
    ∧ (∀ n, n < 2 ^ 32 → ask 3 (leBytes 4 n) →
        (1 ≤ n → n ≤ 256 → ∃ t, exec (.readLedger p) s = .next t ∧ ok t 3 (leBytes 4 n) (match s.lastRecord with
          | some k => (((List.range n).map fun i => s.ledger ((k + 256 - i) % 256)).filter ledgerOk).flatten
          | none => []))
        ∧ (n = 0 ∨ 256 < n → ∃ t, exec (.readLedger p) s = .next t
          ∧ s.answered t p (mailboxRequest 3 id (leBytes 4 n)) St.range []))
    ∧ (ask 5 [] → ∃ t, exec (.readHealth p) s = .next t ∧ ok t 5 [] (match s.healthPick with
        | some k => s.healthStored k
        | none => []))
    ∧ (∀ i, i < 2 ^ 32 → up → ask 13 (leBytes 4 i) → ∃ t, exec (.readLog p) s = .next t
        ∧ ok t 13 (leBytes 4 i) ((s.sec.log.drop i).take 1023).flatten)
    ∧ ∀ n k r, n < 2 ^ 32 → up → ask 11 (leBytes 4 n) → s.sec.test = none → s.sec.testDone = some (k, r) →
        (k = n → ∃ t, exec (.testResult p) s = .next t ∧ ok t 11 (leBytes 4 n) r)
        ∧ (k ≠ n → ∃ t, exec (.testResult p) s = .next t ∧ s.answered t p (mailboxRequest 11 id (leBytes 4 n)) St.state [])

/-- The commands that change the device: the ledger's record, the other image area, the keys of the link, the export secret and a
place in the cast are taken when the request's checks hold; an order that fails a check leaves the place (R232, R450 to R452, R491,
R514, R521, R522). -/
def Obligations.MailboxWritesAreTaken : Prop :=
  ∀ (s : State) (p : Path) (id : Nat), id < 2 ^ 32 →
    let ask := fun (code : Nat) (body : List Byte) => s.asked p (mailboxRequest code id body)
    let ok := fun (t : State) (code : Nat) (body : List Byte) => s.answered t p (mailboxRequest code id body) 0 []
    let signed := fun (code : Nat) (body : List Byte) => s.secretOk ((mailboxRequest code id body).take 16) body
    let up := s.fld Reg.measDone = 1 ∧ s.fld Reg.secAborted = 0
    (ask 4 [] → (s.allIdle = true ∨ s.fld Reg.secAborted = 1 → ∃ t, exec (.clearLedger p) s = .next t ∧ ok t 4 []
        ∧ t.sec.nor = s.clearRecord.sec.nor ∧ (s.pins.vsb = true → Noted t 0xA001 0xA000 [4, id]))
      ∧ (s.allIdle = false → s.fld Reg.secAborted = 0 → ∃ t, exec (.clearLedger p) s = .next t
        ∧ s.answered t p (mailboxRequest 4 id []) St.notAllowed [] ∧ t.sec.nor = s.sec.nor))
    ∧ (∀ a n target flags x y,
        let body := leBytes 8 a ++ leBytes 4 n ++ leBytes 1 target ++ leBytes 1 flags ++ leBytes 2 0
        let bs := s.bytes a n
        let u := s.norWrite (imageBase target) (28 * 2 ^ 20) bs
        ask 6 body → s.host.ideInsecure = false → target ≤ 1 → s.runningImage ≠ some target → 0 < n → n ≤ 28 * 2 ^ 20 →
        0x8000_0000_0000 ≤ a → a + n ≤ 0x1_0000_0000_0000 → flags < 256 → s.sec.now.verifyImage (fun i => bs.getD i 0xFF) = .ok x →
        u.sec.now.verifyImage (u.imageAt target) = .ok y → ∃ t, exec (.imageUpdate p) s = .next t ∧ ok t 6 body
          ∧ t.sec.nor = if bitAt 0 flags then (u.writeHeader target).sec.nor else u.sec.nor)
    ∧ (∀ k (body : List Byte), ask 7 body → s.served = true → 0 < k → body.length = 4 + 32 * k + 4627 → signed 7 body = true →
        ∃ t, exec (.loadIdeKeys p) s = .next t ∧ ok t 7 body ∧ t.host.ideKeys = keysOf k (body.drop 4)
          ∧ t.host.ideInsecure = false ∧ t.fld Reg.ideSecure = 1)
    ∧ (∀ body : List Byte, ask 8 body → up → body.length = 36 + 4627 → signed 8 body = true → ∃ t, exec (.loadExportSecret p) s = .next t
        ∧ ok t 8 body ∧ t.rng = { s.rng with secret := some ((body.drop 4).take 32) } ∧ t.fld Reg.rngSecret = 1
        ∧ t.fld Reg.exportKeyId = fieldLE body 0 4)
    ∧ ∀ o sig : List Byte, ask 9 (o ++ sig) → up → o.length = 128 → sig.length = 4627 →
        (s.orderFault o sig = none → ∃ t, exec (.assumePosition p) s = .next t ∧ ok t 9 (o ++ sig) ∧ t.fld Reg.fovRole = 0
          ∧ t.fld Reg.fovState = 3 ∧ t.fld Reg.lastOrderId = fieldLE o 4 4 ∧ t.coord = coordWord (fieldLE o 16 3)
          ∧ t.fld Reg.castId = fieldLE o 8 4 ∧ t.fov.donor = fieldLE o 48 3)
        ∧ ∀ k st, s.orderFault o sig = some (k, st) → ∃ t, exec (.assumePosition p) s = .next t
          ∧ s.answered t p (mailboxRequest 9 id (o ++ sig)) st [] ∧ t.fld Reg.fovRole = s.fld Reg.fovRole
          ∧ t.fld Reg.lastOrderId = s.fld Reg.lastOrderId ∧ t.coord = s.coord
          ∧ (s.pins.vsb = true → Noted t 0x7004 0xA000 [k, fieldLE o 4 4])

/-- A test package that its checks let run is held or done; a pattern that takes too long reports it; a key is enrolled or revoked
by one who may (R523, R524, R525, R526). -/
def Obligations.TestsAndKeyFusesAct : Prop :=
  ∀ (s : State) (p : Path) (id : Nat), id < 2 ^ 32 →
    let ask := fun (code : Nat) (body : List Byte) => s.asked p (mailboxRequest code id body)
    let ok := fun (t : State) (code : Nat) (body : List Byte) => s.answered t p (mailboxRequest code id body) 0 []
    let up := s.fld Reg.measDone = 1 ∧ s.fld Reg.secAborted = 0
    (∀ a n runs,
      let body := leBytes 8 a ++ leBytes 4 n
      let bs := s.bytes a n
      let pk := bs.take (n - 4627)
      ask 10 body → up → s.host.ideInsecure = false → n < 2 ^ 32 → 0x8000_0000_0000 ≤ a → a + n ≤ 0x1_0000_0000_0000 →
      4627 + 64 ≤ n → pk.length = 64 + fieldLE pk 20 8 → 64 + 8 * fieldLE pk 10 2 + 96 * fieldLE pk 12 4 ≤ pk.length →
      s.signedBy 2 (sha3 pk) (bs.drop pk.length) = true → fieldLE pk 0 1 ≤ 1 → fieldLE pk 2 1 = 2 →
      fieldLE pk 8 2 ≤ s.fld Reg.svn → bitAt 0 (fieldLE pk 3 1) = true → s.fld Reg.fovState ≠ 7 →
      (s.jf 3 Reg.jobState = 0 → s.sec.test = none → ∃ t, exec (.testPackage p runs) s = .next t ∧ ok t 10 body
        ∧ ((t.fld Reg.testStateF = 1 ∧ t.sec.test.map (·.id) = some (fieldLE pk 4 4))
          ∨ (t.fld Reg.testStateF = 2 ∧ t.sec.testDone.map (·.1) = some (fieldLE pk 4 4))))
      ∧ (s.jf 3 Reg.jobState ≠ 0 → ∃ t, exec (.testPackage p runs) s = .next t
        ∧ s.answered t p (mailboxRequest 10 id body) St.busy [] ∧ t.sec.test = s.sec.test))
    ∧ (∀ unit (x : TestRun) pat o, unitValid unit = true → s.sec.test = some x →
        x.entries.find? (fun e => e.2.1 == unit && e.2.2.isNone) = some (pat, o) →
        let entries := x.entries.map fun e => if e.1 = pat ∧ e.2.1 = unit ∧ e.2.2.isNone then (e.1, e.2.1, some 3) else e
        ((∃ e ∈ entries, e.2.2 = none) → ∃ t, exec (.patternTimeout unit) s = .next t ∧ t.sec.test = some { x with entries })
        ∧ ((∀ e ∈ entries, e.2.2 ≠ none) → ∃ t, exec (.patternTimeout unit) s = .next t ∧ t.sec.test = none
          ∧ t.sec.testDone.map (·.1) = some x.id ∧ t.fld Reg.testStateF = 2))
    ∧ ∀ slot (hash : List Byte), slot < 4 → up → s.allIdle = true → hash.length = 64 →
        let f := s.sec.fuses
        let first := [0, BitVec.ofNat 8 slot, 0, 0] ++ hash
        (ask 12 first → f.owned = false → f.ownerKeys.getD slot [] = [] → ∃ t, exec (.keyFuse p) s = .next t ∧ ok t 12 first
          ∧ t.sec.fuses = { f with ownerKeys := f.ownerKeys.set slot hash })
        ∧ (ask 12 first → f.owned = true → ∃ t st, exec (.keyFuse p) s = .next t ∧ st ≠ 0
          ∧ s.answered t p (mailboxRequest 12 id first) st [] ∧ t.sec.fuses = f)
        ∧ ∀ (op : Nat) (pk sig : List Byte), op < 3 → pk.length = 2592 → sig.length = 4627 →
          let what := [BitVec.ofNat 8 op, BitVec.ofNat 8 slot, 0, 0] ++ hash
          let body := what ++ pk ++ sig
          ask 12 body → s.sec.verifies pk (sha3 ((mailboxRequest 12 id body).take 16 ++ what ++ s.binding)) sig = true →
          (op = 0 → f.ownerKeys.getD slot [] = [] → (∃ n, n < 4 ∧ f.ownerKeys.getD n [] = sha3 pk ∧ bitAt n f.ownerRevoked = false) →
            ∃ t, exec (.keyFuse p) s = .next t ∧ ok t 12 body ∧ t.sec.fuses = { f with ownerKeys := f.ownerKeys.set slot hash })
          ∧ (op = 1 → f.ownerKeys.getD slot [] ≠ [] → bitAt slot f.ownerRevoked = false →
            (∃ n, n < 4 ∧ n ≠ slot ∧ f.ownerKeys.getD n [] = sha3 pk ∧ bitAt n f.ownerRevoked = false) →
            liveMask f.ownerKeys (f.ownerRevoked + 2 ^ slot) ≠ 0 → ∃ t, exec (.keyFuse p) s = .next t ∧ ok t 12 body
              ∧ t.sec.fuses = { f with ownerRevoked := f.ownerRevoked + 2 ^ slot })
          ∧ (op = 2 → f.vendorKeys.getD slot [] ≠ [] → bitAt slot f.vendorRevoked = false →
            keyLive f.vendorKeys f.vendorRevoked (sha3 pk) = true → liveMask f.vendorKeys (f.vendorRevoked + 2 ^ slot) ≠ 0 →
            ∃ t, exec (.keyFuse p) s = .next t ∧ ok t 12 body ∧ t.sec.fuses = { f with vendorRevoked := f.vendorRevoked + 2 ^ slot })

/-! ### Management (16) -/

/-- The management path: the dynamic address, the endpoint, the MCTP control commands, and the commands of Table 16.2, each with
its response (R531, R532, R533). The codes of the MCTP control answers are those of log entry 20. -/
def Obligations.ManagementCommandsAnswer : Prop :=
  ∀ s : State, s.controllerUp = true →
    (∀ addr, 0 < addr → addr < 128 →
      (s.fld Reg.dynAddr = 0 → ∃ t, exec (.entdaa addr) s = .next t ∧ t.fld Reg.dynAddr = addr ∧ t.out = [.value s.provisionedId])
      ∧ (s.fld Reg.dynAddr ≠ 0 → exec (.entdaa addr) s = .next { s with out := [] }))
    ∧ (∀ eid, eid < 256 →
      (eid ≠ 0 → eid ≠ 255 → ∃ t, exec (.setEndpointId eid) s = .next t ∧ t.fld Reg.eid = eid
        ∧ t.out = [.response [0, 0, BitVec.ofNat 8 eid, 0]])
      ∧ (eid = 0 ∨ eid = 255 → ∃ t, exec (.setEndpointId eid) s = .next t ∧ t.regs = s.regs ∧ t.out = [.response [2]]))
    ∧ exec .getEndpointId s = .next { s with out := [.response [0, BitVec.ofNat 8 (s.fld Reg.eid), 0, 0]] }
    ∧ (∃ v : List Byte, v.length = 4 ∧ exec .getMctpVersionSupport s = .next { s with out := [.response ([0, 1] ++ v)] })
    ∧ exec .getMessageTypeSupport s = .next { s with out := [.response [0, 2, 0, 0x7E]] }
    ∧ exec .getVendorDefinedMessageSupport s = .next { s with out := [.response [0, 0xFF, 0, 0x1F, 0x3D, 0, 0]] }
    ∧ exec .mctpAssemblyTimeout s = .next { s with out := [], mgt := { s.mgt with assembling := false } }
    ∧ ∀ tag, tag < 65536 →
      let reply := fun (t : State) (cmd code : Nat) (data : List Byte) =>
        t.out = [.response (leBytes 1 1 ++ leBytes 1 cmd ++ leBytes 2 tag ++ leBytes 1 code ++ data)] ∧ s.counted t Reg.mctpMsgs 1
          ∧ OnlyRegs (fun o => o = 0x600110) s t
      (∃ t, exec (.getStatus tag) s = .next t
        ∧ reply t 1 0 (leBytes 4 (s.rd Reg.mgtStatus) ++ leBytes 4 (s.rd Reg.ready.off) ++ leBytes 4 (s.fld Reg.unitGen)))
      ∧ (∀ offset width, offset < 2 ^ 32 → ((width = 4 ∨ width = 8) ∧ offset % width = 0 ∧ offset < 2 ^ 26 →
          ∃ t, exec (.readReg tag offset width) s = .next t ∧ reply t 2 0 (leBytes width (t.regRead offset width)))
        ∧ (¬((width = 4 ∨ width = 8) ∧ offset % width = 0 ∧ offset < 2 ^ 26) →
          ∃ t, exec (.readReg tag offset width) s = .next t ∧ reply t 2 2 []))
      ∧ (s.fld Reg.romOnly = 0 →
        (∀ v, s.served = true → s.fld Reg.ready = 0 → 1200 ≤ v → v ≤ 2400 → ∃ t, exec (.writeReg tag 8 v) s = .next t
          ∧ t.fld Reg.limitW = v ∧ t.out.getLast? = some (.response ([1, 3] ++ leBytes 2 tag ++ [0]))
          ∧ Noted t 0x8004 0xB000 [v, 3])
        ∧ (∀ v, s.served = true → s.fld Reg.ready = 0 → v < 4096 → v < 1200 ∨ 2400 < v → ∃ t, exec (.writeReg tag 8 v) s = .next t
          ∧ t.fld Reg.limitW = s.fld Reg.limitW ∧ Noted t 0xB001 0 [0x600008, v, 2])
        ∧ (∀ offset v, 0x100000 ≤ offset → offset < 2 ^ 32 → v < 2 ^ 32 → ∃ t, exec (.writeReg tag offset v) s = .next t ∧ reply t 3 2 [])
        ∧ (∀ cls first count, 0 < count → count ≤ 512 → first + count ≤ unitCount cls →
          ∃ t, exec (.readUnits tag cls first count) s = .next t
            ∧ reply t 5 0 ((List.range count).flatMap fun i => leBytes 8 (s.shown (unitOff (cls * 4096 + first + i)))))
        ∧ ∀ first count, first < 2 ^ 64 → 0 < count → count ≤ 64 →
          let lo := max first (s.rd Reg.oldestSeq)
          ∃ t, exec (.readEvents tag first count) s = .next t
            ∧ reply t 6 0 ((s.board.filter fun r => decide (lo ≤ r.seq) && decide (r.seq < lo + count)).flatMap EvRec.bytes))
      ∧ (s.fld Reg.romOnly = 1 → ∀ offset v, offset < 2 ^ 32 → v < 2 ^ 32 → ∃ t, exec (.writeReg tag offset v) s = .next t ∧ reply t 3 4 [])

/-- A request on a unit that fails a check of R538 is answered with its result and changes no unit; one that passes does
what Table 16.5 says, over either path; a fence of an engine that a running job uses waits for the step boundary
(R538, R539, R540). A fence that waited is applied once no attempt is open and no interval stops: its unit is fenced,
and a spare takes the role of an engine that was in use; without a spare the request is dropped, with its record
(R413, R539, R540). -/
def Obligations.UnitRequestsAct : Prop :=
  (∀ (s : State) (via : Via) (basis u : Nat), basis < 2 ^ 32 → u < 2 ^ 16 → s.pathReady via →
      let cmd := fun (op : Nat) (immediate pass : Bool) => match op with
        | 1 => Instr.unitFence via basis u immediate
        | 2 => Instr.unitUnfence via basis u
        | 3 => Instr.unitTest via basis u
        | 4 => Instr.unitEndTest via basis u pass
        | 5 => Instr.unitOff via basis u
        | _ => Instr.unitOn via basis u
      let done := fun (c : Instr) (st : Nat) => ∃ t, exec c s = .next t ∧ t.unitRaw u = st ∧ t.unitAnswer via 0 u
        ∧ s.counted t Reg.unitRequests 1
      let running := u / 4096 = 1 ∧ s.unitRaw u = US.active ∧ s.anyRunning = true
      (∀ op imm pass, 1 ≤ op → op ≤ 6 → s.unitCheck op basis u ≠ 0 → ∃ t, exec (cmd op imm pass) s = .next t
        ∧ t.unitAnswer via (s.unitCheck op basis u) u ∧ s.counted t Reg.unitRejected 1 ∧ t.fld Reg.unitGen = s.fld Reg.unitGen
        ∧ ∀ w, unitValid w = true → t.unitEntry w = s.unitEntry w)
      ∧ (s.unitCheck 1 basis u = 0 → ∀ imm,
          (¬running → s.inStop = false → done (.unitFence via basis u imm) US.fenced)
          ∧ (running → (s.spareFor (u % 4096 / 9)).isNone = true → ∃ t, exec (.unitFence via basis u imm) s = .next t
              ∧ t.unitAnswer via 5 u ∧ t.unitEntry u = s.unitEntry u)
          ∧ (running → (s.spareFor (u % 4096 / 9)).isNone = false → imm = false ∨ s.beforeCurtain = none ∨ s.inStop = true →
              ∃ t, exec (.unitFence via basis u imm) s = .next t ∧ t.unitAnswer via 1 u ∧ t.unitRaw u = US.active
                ∧ t.mgt.fences = s.mgt.fences ++ [(u, Via.source via)])
          ∧ ∀ j, running → (s.spareFor (u % 4096 / 9)).isNone = false → imm = true → s.beforeCurtain = some j →
              s.inStop = false → ∃ t, exec (.unitFence via basis u imm) s = .next t ∧ t.unitAnswer via 0 u
                ∧ t.unitRaw u = US.fenced ∧ t.jf j Reg.jobAbandonCause = 6)
      ∧ (s.unitCheck 2 basis u = 0 →
          (u / 4096 = 1 → done (.unitUnfence via basis u)
            (if (s.spareOf (u % 4096 / 9)).isNone then US.spare else US.idle))
          ∧ (u / 4096 = 4 → done (.unitUnfence via basis u) US.active)
          ∧ (u / 4096 = 5 → done (.unitUnfence via basis u)
            (if s.fld (Reg.ddrInSet.plus (0x40 * (u % 4096))) = 1 then US.active else US.idle))
          ∧ (u / 4096 = 6 → done (.unitUnfence via basis u) US.idle)
          ∧ (u / 4096 = 3 → bits 10 8 (s.owner (u % 4096) 0) = 0 → bits 10 8 (s.owner (u % 4096) 1) = 0 →
            done (.unitUnfence via basis u) US.idle))
      ∧ (s.unitCheck 3 basis u = 0 → done (.unitTest via basis u) US.test
          ∧ ∃ t, exec (.unitTest via basis u) s = .next t ∧ bits 7 4 (t.unitEntry u) = s.unitRaw u)
      ∧ (s.unitCheck 4 basis u = 0 → done (.unitEndTest via basis u true) (bits 7 4 (s.unitEntry u))
          ∧ done (.unitEndTest via basis u false) US.failed)
      ∧ (s.unitCheck 5 basis u = 0 → done (.unitOff via basis u) US.off)
      ∧ (s.unitCheck 6 basis u = 0 → done (.unitOn via basis u) US.idle
          ∧ (u / 4096 = 6 → s.fov.dead = false → s.pst (u % 4096) = PS.off ∨ s.pst (u % 4096) = PS.down →
            ∃ t, exec (.unitOn via basis u) s = .next t ∧ t.pst (u % 4096) = PS.detect)))
  ∧ (∀ (s : State) (u source : Nat), unitValid u = true → s.mgt.fences.find? (fun f => f.1 == u) = some (u, source) →
      s.ckp.stopping = false → (s.jobs.any fun j => j.2.isOpen) = false →
      let running := u / 4096 = 1 ∧ s.unitRaw u = US.active ∧ s.anyRunning = true
      (running → (s.spareFor (u % 4096 / 9)).isNone = true → ∃ t, exec (.pendingFenceApply u) s = .next t ∧ t.unitRaw u = US.active
          ∧ t.mgt.fences = s.mgt.fences.filter (fun f => f.1 != u) ∧ (s.pins.vsb = true → Noted t 0x8003 u [1, source]))
      ∧ (¬running ∨ (s.spareFor (u % 4096 / 9)).isNone = false → ∃ t, exec (.pendingFenceApply u) s = .next t
          ∧ t.unitRaw u = US.fenced ∧ ∀ f ∈ t.mgt.fences, f.1 ≠ u))

/-! ### Register writes (R16, R18, R478, R479, R574) -/

/-- A write of a control register is whole or not at all: the fields it covers take the value, or the register keeps its own with one
WRITE_DISCARDED; where nothing is served it has no effect. A write of UNIT_CMD is its request. Registers whose write is a command
of its own, and those the device answers with HELLOs or a record, are not meant here (R18, R478, R479, R540, R574). -/
def Obligations.RegisterWritesAreWholeOrNot : Prop :=
  ∀ (s : State) (off width v : Nat), off < 2 ^ 26 → v < 2 ^ 64 →
    (s.served = false → 0x10000 ≤ off → ¬(0x500000 ≤ off ∧ off < 0x600000) →
      exec (.registerWrite off width v) s = .next { s with out := [] })
    ∧ (¬((width = 4 ∨ width = 8) ∧ off % width = 0) → exec (.registerWrite off width v) s = .next { s with out := [] })
    ∧ (∀ r o k, s.served = true → findReg off bar0 = some (r, o, k) → r.isCommand = false →
        width = 4 ∨ (width = 8 ∧ r.width = 64) → off % width = 0 →
        let cov := ones (8 * width) <<< (8 * (off - o))
        let val := (v % 2 ^ (8 * width)) <<< (8 * (off - o))
        let new := mergeBits (cov &&& r.writable) (s.rd o) val
        (cov &&& r.writable = 0 → exec (.registerWrite off width v) s = .next { s with out := [] })
        ∧ (cov &&& r.writable ≠ 0 → s.ownRule o new off (v % 2 ^ (8 * width)) = none → o ∉ [0x160008, 0x160010, 0x16001C, 0x160020, 0x600008] →
          (s.writeFault r o cov new = none → ∃ t, exec (.registerWrite off width v) s = .next t ∧ OnlyRegs (fun x => x = o) s t
            ∧ t.rd o = new &&& regMask o ∧ t.out = [])
          ∧ ∀ k, s.writeFault r o cov new = some k → ∃ t, exec (.registerWrite off width v) s = .next t ∧ t.rd o = s.rd o
            ∧ (s.pins.vsb = true → Noted t 0xB001 (blockUnit off) [off, v % 2 ^ (8 * width) % 2 ^ 32, k])))
    ∧ (s.served = true → bits 31 28 v = 1 → exec (.registerWrite Reg.unitCmd 8 v) s
        = exec (.unitFence .host (bits 63 32 v) (bits 15 0 v) (bits 27 27 v == 1)) s)

/-! ### Rules stated whole -/

/-- R133: the six counters of an engine are 64 bits read at once, zero at reset, and stop at 2^64 − 1; a write of 1 to bit 0 of
COUNT_CLEAR sets all six to zero, and its other bits do nothing. -/
def Obligations.EngineCountersStopAndClear : Prop :=
  ∀ e, e < 144 →
    (∀ k, k < 6 →
      let off := 0x480080 + 0x400 * e + 8 * k
      State.reset.rd off = 0
        ∧ (∀ s : State, s.served = true → s.regRead off 8 = s.rd off)
        ∧ ∀ (s : State) (n : Nat), (s.addF ⟨off, 63, 0⟩ n).rd off = min (s.rd off + n) (2 ^ 64 - 1))
    ∧ ∀ (s : State) (v : Nat), s.served = true → v < 2 ^ 32 →
        (bitAt 0 v = true → exec (.registerWrite (0x4800C0 + 0x400 * e) 4 v) s = exec (.countClear e) s
          ∧ ∃ t, exec (.countClear e) s = .next t ∧ Cleared (inRange (0x480080 + 0x400 * e) 8 6) s t)
        ∧ (bitAt 0 v = false → exec (.registerWrite (0x4800C0 + 0x400 * e) 4 v) s = .next { s with out := [] })

/-- R132: with the engine in TEST its TEST_SEL takes a cell, and TEST_CAPTURE clears VALID and captures that cell's A20 output, sign-extended:
the held value at once if the array is idle, else that of the cell's next handshake. In any other state writes of both are discarded,
with an event. The four registers read zero after reset, and of TEST_CAPTURE only bit 0 acts. -/
def Obligations.TestAccessNeedsTest : Prop :=
  (∀ e, e < 144 → ∀ k, k < 4 → State.reset.rd (0x480040 + 0x400 * e + 4 * k) = 0) ∧
  ∀ (s : State) (e : Nat), e < 144 → s.served = true →
    let kept := fun (t : State) (off v : Nat) => (∀ o, 0x480000 ≤ o → o < 0x4A4000 → t.rd o = s.rd o)
      ∧ (s.pins.vsb = true → Noted t 0xB001 (0x1000 + e) [off, v, 4])
    (s.engSt e ≠ US.test →
      (∃ t, exec (.testCapture e) s = .next t ∧ kept t (0x480044 + 0x400 * e) 1)
      ∧ ∀ v, v < 2 ^ 32 →
        (∃ t, exec (.registerWrite (0x480044 + 0x400 * e) 4 v) s = .next t ∧ kept t (0x480044 + 0x400 * e) v)
        ∧ ∃ t, exec (.registerWrite (0x480040 + 0x400 * e) 4 v) s = .next t ∧ kept t (0x480040 + 0x400 * e) v)
    ∧ (s.engSt e = US.test →
      (s.ef e Reg.arrayBusy = 0 → ∃ t, exec (.testCapture e) s = .next t ∧ t.ef e Reg.testValid = 1
        ∧ ∀ r, s.cellRow e (s.ef e Reg.testRow) = some r →
          t.ef e Reg.testA20 = twos 32 (SMap.get 0 s.cells (e * 2 ^ 17 + r * 256 + s.ef e Reg.testCol)))
      ∧ (s.ef e Reg.arrayBusy = 1 → ∃ t, exec (.testCapture e) s = .next t ∧ t.ef e Reg.testValid = 0 ∧ e ∈ t.captures)
      ∧ (∀ v, v < 2 ^ 32 →
        (bitAt 0 v = true → exec (.registerWrite (0x480044 + 0x400 * e) 4 v) s = exec (.testCapture e) s)
        ∧ (bitAt 0 v = false → exec (.registerWrite (0x480044 + 0x400 * e) 4 v) s = .next { s with out := [] }))
      ∧ (∀ v, v < 2 ^ 32 → bits 24 16 v ≤ 259 → ∃ t, exec (.registerWrite (0x480040 + 0x400 * e) 4 v) s = .next t
        ∧ t.ef e Reg.testRow = bits 24 16 v ∧ t.ef e Reg.testCol = bits 7 0 v)
      ∧ ∀ (k slot kt i jx : Nat) (rest : List (Nat × Nat × Nat)) (x : AccSet) (o : OpSlot) (j : Job) (p : Prod)
          (fa fb : Option (Tensor × QRec)) (key : Nat) (c : Nat × Int), k < 2 → e ∈ s.captures →
          SMap.find s.sets (2 * e + k) = some x → x.passes = (kt, i, jx) :: rest → x.overflow = false →
          s.productIs x.work.op o slot j p → j.replay = false → x.work.upOps (j.viewOf o) o.cue = (none, none) →
          s.copyIs j p.qa fa → s.copyIs j p.qb fb → s.passFeeds p x.work fa fb kt → s.testCell e = some key →
          (heldCells e x.work.slices i jx ((p.kBlocks kt).map fun b => b.1 % 8) (s.fedRow p p.a p.qa fa kt x.work.r0)
            ((List.range x.work.cols).map fun n => s.fedRow p p.b p.qb fb kt (x.work.c0 + n))).find? (fun y => y.1 == key) = some c →
          0 < x.work.rows → ∃ t, exec (.passStart e k ⟨[], 0, 0, false⟩) s = .next t ∧ t.ef e Reg.testValid = 1
            ∧ t.ef e Reg.testA20 = twos 32 c.2 ∧ e ∉ t.captures)

/-- R444: a FAILED notice whose SUBJECT is the device's own coordinate makes it declare itself failed: it is shown as failed with
FAULT_N low, no attempt stays open, and every port is OFF or DOWN. -/
def Obligations.OwnFailureNoticeStopsTheDevice : Prop :=
  ∀ (s : State) (p : Nat) (b : List Byte), s.noticed p nkFailed b → fieldLE b 12 3 = s.coord →
    ∃ t, exec (.noticeFailed p) s = .next t ∧ t.fov.dead = true
      ∧ (s.fov.dead = false → t.fld Reg.fovState = 6 ∧ t.fld Reg.mgtFault = 1
        ∧ (∀ slot j, slot < 4 → t.job slot = some j → j.isOpen = false)
        ∧ ∀ q, q < 6 → t.pst q = PS.off ∨ t.pst q = PS.down)
end

