-- ==== Sys2Proof/Laws/Maps.lean ====
section
/-!
SUPPORT. Laws of the sparse maps: what a key reads after a change, and that every change keeps the canonical form.
-/
namespace Sys2Proof.Machine

open Sys2Proof

section Find
variable {α : Type}

@[simp] theorem SMap.find_nil (k : Nat) : SMap.find ([] : SMap α) k = none := rfl

@[simp] theorem SMap.find_cons (k' : Nat) (v : α) (m : SMap α) (k : Nat) :
    SMap.find ((k', v) :: m) k = if k' = k then some v else SMap.find m k := rfl

theorem SMap.find_filter (p : Nat → Bool) (m : SMap α) (k : Nat) :
    SMap.find (m.filter fun e => p e.1) k = if p k then SMap.find m k else none := by
  induction m with
  | nil => simp
  | cons e m ih =>
    obtain ⟨k', v⟩ := e
    by_cases hk : k' = k
    · subst hk; by_cases hp : p k' <;> simp [hp, ih]
    · by_cases hp : p k' <;> simp [hp, hk, ih]

theorem SMap.find_del (m : SMap α) (k k' : Nat) : SMap.find (SMap.del m k) k' = if k = k' then none else SMap.find m k' := by
  have h := SMap.find_filter (fun n => n != k) m k'
  unfold SMap.del
  rw [h]
  by_cases e : k = k'
  · simp [e]
  · have e' : ¬ k' = k := fun h => e h.symm
    simp [e, e']

theorem SMap.find_ins (k k' : Nat) (v : α) (m : SMap α) (h : SMap.find m k = none) :
    SMap.find (SMap.ins k v m) k' = if k = k' then some v else SMap.find m k' := by
  induction m with
  | nil => simp [SMap.ins]
  | cons e m ih =>
    obtain ⟨a, b⟩ := e
    simp only [SMap.find_cons] at h
    by_cases ha : a = k
    · simp [ha] at h
    · simp only [ha, if_false] at h
      unfold SMap.ins
      split
      · simp
      · simp only [SMap.find_cons, ih h]
        by_cases e1 : a = k'
        · have : ¬ k = k' := fun e2 => ha (e1.trans e2.symm)
          simp [e1, this]
        · simp [e1]

/-- A key reads what was last put there. -/
theorem SMap.find_put (m : SMap α) (k k' : Nat) (v : α) :
    SMap.find (SMap.put m k v) k' = if k = k' then some v else SMap.find m k' := by
  unfold SMap.put
  rw [SMap.find_ins _ _ _ _ (by simp [SMap.find_del])]
  by_cases e : k = k' <;> simp [e, SMap.find_del]

theorem SMap.get_filter (d : α) (p : Nat → Bool) (m : SMap α) (k : Nat) :
    SMap.get d (m.filter fun e => p e.1) k = if p k then SMap.get d m k else d := by
  unfold SMap.get
  rw [SMap.find_filter]
  split <;> rfl

variable [DecidableEq α]

theorem SMap.get_set (d : α) (m : SMap α) (k k' : Nat) (v : α) :
    SMap.get d (SMap.set d m k v) k' = if k = k' then v else SMap.get d m k' := by
  unfold SMap.get SMap.set
  by_cases hv : v = d
  · by_cases e : k = k' <;> simp [hv, e, SMap.find_del]
  · by_cases e : k = k' <;> simp [hv, e, SMap.find_put]

/-- A key that no pair of the list names reads as before. -/
theorem SMap.get_setAll_other (d : α) (kvs : List (Nat × α)) (m : SMap α) (k : Nat) (h : ∀ e ∈ kvs, e.1 ≠ k) :
    SMap.get d (SMap.setAll d m kvs) k = SMap.get d m k := by
  unfold SMap.setAll
  induction kvs generalizing m with
  | nil => rfl
  | cons e kvs ih =>
    simp only [List.foldl_cons]
    rw [ih _ fun x hx => h x (List.mem_cons_of_mem _ hx), SMap.get_set]
    simp [h e (List.mem_cons_self ..)]

end Find

/-! ### The canonical form -/
section Wf
variable {α : Type}

theorem SMap.sorted_iff (m : SMap α) : SMap.sorted m = true ↔ m.Pairwise fun a b => a.1 < b.1 := by
  induction m with
  | nil => simp [SMap.sorted]
  | cons e m ih =>
    cases m with
    | nil => simp [SMap.sorted]
    | cons f m =>
      obtain ⟨k, v⟩ := e
      obtain ⟨k', v'⟩ := f
      simp only [SMap.sorted, Bool.and_eq_true, decide_eq_true_eq, ih]
      constructor
      · rintro ⟨h, hp⟩
        refine List.pairwise_cons.2 ⟨fun x hx => ?_, hp⟩
        rcases List.mem_cons.1 hx with rfl | hx
        · exact h
        · exact lt_trans h ((List.pairwise_cons.1 hp).1 x hx)
      · intro hp
        exact ⟨(List.pairwise_cons.1 hp).1 _ (List.mem_cons_self ..), (List.pairwise_cons.1 hp).2⟩

theorem SMap.sorted_filter {m : SMap α} (p : Nat × α → Bool) (h : SMap.sorted m = true) :
    SMap.sorted (m.filter p) = true := by
  rw [SMap.sorted_iff] at *
  exact h.filter p

theorem SMap.mem_ins {k : Nat} {v : α} {m : SMap α} {e : Nat × α} (h : e ∈ SMap.ins k v m) : e = (k, v) ∨ e ∈ m := by
  induction m with
  | nil => simpa [SMap.ins] using h
  | cons f m ih =>
    obtain ⟨a, b⟩ := f
    unfold SMap.ins at h
    split at h
    · simpa using h
    · rcases List.mem_cons.1 h with h | h
      · exact .inr (by simp [h])
      · rcases ih h with h | h
        · exact .inl h
        · exact .inr (List.mem_cons_of_mem _ h)

theorem SMap.sorted_ins {k : Nat} {v : α} {m : SMap α} (h : SMap.sorted m = true) (hk : ∀ e ∈ m, e.1 ≠ k) :
    SMap.sorted (SMap.ins k v m) = true := by
  rw [SMap.sorted_iff] at *
  induction m with
  | nil => simp [SMap.ins]
  | cons f m ih =>
    obtain ⟨a, b⟩ := f
    have hp := List.pairwise_cons.1 h
    unfold SMap.ins
    split
    · rename_i hlt
      refine List.pairwise_cons.2 ⟨fun x hx => ?_, h⟩
      rcases List.mem_cons.1 hx with rfl | hx
      · exact hlt
      · exact lt_trans hlt (hp.1 x hx)
    · rename_i hge
      refine List.pairwise_cons.2 ⟨fun x hx => ?_, ih hp.2 fun e he => hk e (List.mem_cons_of_mem _ he)⟩
      rcases SMap.mem_ins hx with rfl | hx
      · have h1 : a ≠ k := hk (a, b) (List.mem_cons_self ..)
        have h2 : ¬ k < a := hge
        exact lt_of_le_of_ne (not_lt.1 h2) h1
      · exact hp.1 x hx

theorem SMap.sorted_put {m : SMap α} (k : Nat) (v : α) (h : SMap.sorted m = true) : SMap.sorted (SMap.put m k v) = true :=
  SMap.sorted_ins (SMap.sorted_filter _ h) fun e he => by simpa using (List.mem_filter.1 he).2

theorem SMap.mem_put {m : SMap α} {k : Nat} {v : α} {e : Nat × α} (h : e ∈ SMap.put m k v) : e = (k, v) ∨ e ∈ m :=
  (SMap.mem_ins h).imp_right fun h => (List.mem_filter.1 h).1

variable [DecidableEq α]

theorem SMap.wf_filter {d : α} {m : SMap α} (p : Nat × α → Bool) (h : SMap.wf d m = true) : SMap.wf d (m.filter p) = true := by
  simp only [SMap.wf, Bool.and_eq_true, List.all_eq_true] at *
  exact ⟨SMap.sorted_filter p h.1, fun e he => h.2 e (List.mem_filter.1 he).1⟩

theorem SMap.wf_set {d : α} {m : SMap α} (k : Nat) (v : α) (h : SMap.wf d m = true) : SMap.wf d (SMap.set d m k v) = true := by
  unfold SMap.set
  split
  · exact SMap.wf_filter _ h
  · rename_i hv
    simp only [SMap.wf, Bool.and_eq_true, List.all_eq_true] at *
    refine ⟨SMap.sorted_put k v h.1, fun e he => ?_⟩
    rcases SMap.mem_put he with rfl | he
    · simpa using hv
    · exact h.2 e he

theorem SMap.wf_setAll {d : α} (kvs : List (Nat × α)) {m : SMap α} (h : SMap.wf d m = true) :
    SMap.wf d (SMap.setAll d m kvs) = true := by
  unfold SMap.setAll
  induction kvs generalizing m with
  | nil => exact h
  | cons e kvs ih => exact ih (SMap.wf_set e.1 e.2 h)

end Wf

end Sys2Proof.Machine
end

