-- ==== Sys2Proof/Laws/Registers.lean ====
section
/-!
SUPPORT. Laws of the registers: a read after a write gives the bits that are not reserved, every other register reads as
before, and the register file keeps its canonical form.
-/
namespace Sys2Proof.Machine

open Sys2Proof

theorem findIn_mem {o : Nat} {l : List RegDesc} {r : RegDesc} (h : findIn o l = some r) : r ∈ l := by
  induction l with
  | nil => simp [findIn] at h
  | cons a l ih =>
    unfold findIn at h
    split at h
    · simp at h; simp [h]
    · exact List.mem_cons_of_mem _ (ih h)

theorem findReg_mem {off : Nat} {l : List Block} {r : RegDesc} {o i : Nat} (h : findReg off l = some (r, o, i)) :
    ∃ b ∈ l, r ∈ b.regs := by
  induction l with
  | nil => simp [findReg] at h
  | cons b l ih =>
    have tail : findReg off l = some (r, o, i) → ∃ b' ∈ b :: l, r ∈ b'.regs := fun h =>
      let ⟨b', hb, hr⟩ := ih h
      ⟨b', List.mem_cons_of_mem _ hb, hr⟩
    unfold findReg at h
    split at h
    · simp only at h
      split at h
      · rename_i r' hr'
        simp only [Option.some.injEq] at h
        obtain ⟨rfl, -, -⟩ := h
        exact ⟨b, List.mem_cons_self .., findIn_mem hr'⟩
      · exact tail h
    · exact tail h

theorem bar0_masks : (bar0.all fun b => b.regs.all fun r => decide (r.mask < 2 ^ 64)) = true := by decide +kernel

/-- No register has more than 64 bits. -/
theorem regMask_lt (off : Nat) : regMask off < 2 ^ 64 := by
  unfold regMask
  split
  · rename_i r o i h
    obtain ⟨b, hb, hr⟩ := findReg_mem h
    have := List.all_eq_true.1 (List.all_eq_true.1 bar0_masks b hb) r hr
    split
    · simpa using this
    · decide
  · decide

theorem and_mask_lt (off v : Nat) : v &&& regMask off < 2 ^ 64 := lt_of_le_of_lt Nat.and_le_right (regMask_lt off)

theorem toNat_masked (off v : Nat) : (BitVec.ofNat 64 (v &&& regMask off)).toNat = v &&& regMask off := by
  rw [BitVec.toNat_ofNat]; exact Nat.mod_eq_of_lt (and_mask_lt off v)

/-- A register write changes the register file and nothing else. -/
theorem State.wr_eq (s : State) (off v : Nat) :
    s.wr off v = { s with regs := if v &&& regMask off = regReset off then SMap.del s.regs off
                                  else SMap.put s.regs off (BitVec.ofNat 64 (v &&& regMask off)) } := by
  unfold State.wr
  simp only [toNat_masked]
  split <;> rfl

theorem State.rd_eq (s : State) (off : Nat) : s.rd off = ((SMap.find s.regs off).map BitVec.toNat).getD (regReset off) := by
  unfold State.rd
  cases SMap.find s.regs off <;> rfl

/-- What a register reads after any write (R16). -/
theorem State.rd_wr (s : State) (off v off' : Nat) :
    (s.wr off v).rd off' = if off = off' then v &&& regMask off else s.rd off' := by
  rw [State.wr_eq, State.rd_eq, State.rd_eq]
  by_cases hr : v &&& regMask off = regReset off
  · simp only [hr, if_true, SMap.find_del]
    by_cases e : off = off'
    · subst e; simp
    · simp [e]
  · simp only [hr, if_false, SMap.find_put]
    by_cases e : off = off'
    · subst e
      simp only [if_true, Option.map_some, toNat_masked, Option.getD_some]
    · simp [e]

@[simp] theorem State.rd_wr_same (s : State) (off v : Nat) : (s.wr off v).rd off = v &&& regMask off := by
  simp [State.rd_wr]

theorem State.rd_wr_other (s : State) {off off' : Nat} (v : Nat) (h : off ≠ off') : (s.wr off v).rd off' = s.rd off' := by
  simp [State.rd_wr, h]

theorem regsWf_filter {m : SMap DWord} (p : Nat × DWord → Bool) (h : regsWf m = true) : regsWf (m.filter p) = true := by
  simp only [regsWf, Bool.and_eq_true, List.all_eq_true] at *
  exact ⟨SMap.sorted_filter p h.1, fun e he => h.2 e (List.mem_filter.1 he).1⟩

theorem regsWf_wr {s : State} (off v : Nat) (h : regsWf s.regs = true) : regsWf (s.wr off v).regs = true := by
  rw [State.wr_eq]
  by_cases hr : v &&& regMask off = regReset off
  · simp only [hr, if_true]
    exact regsWf_filter _ h
  · simp only [hr, if_false]
    simp only [regsWf, Bool.and_eq_true, List.all_eq_true] at *
    refine ⟨SMap.sorted_put _ _ h.1, fun e he => ?_⟩
    rcases SMap.mem_put he with rfl | he
    · refine ⟨?_, ?_⟩
      · simp only [toNat_masked, Nat.and_assoc, Nat.and_self, beq_self_eq_true]
      · simp only [toNat_masked, bne_iff_ne]; exact hr
    · exact h.2 e he

/-! ### Fields -/

theorem bits_lt (hi lo n : Nat) : bits hi lo n < 2 ^ (hi + 1 - lo) := Nat.mod_lt _ (Nat.two_pow_pos _)

theorem bits_whole (n w : Nat) (h : n < 2 ^ (w + 1)) : bits w 0 n = n := by
  simp [bits, Nat.mod_eq_of_lt h]

end Sys2Proof.Machine
end

