-- ==== Sys2Proof/Laws/State.lean ====
section
/-!
SUPPORT. Laws of the updates of the state: each changes its own field, and every other field reads as before.
-/
namespace Sys2Proof.Machine

open Sys2Proof

/-! ### Registers -/

@[simp] theorem State.wr_mem (s : State) (off v : Nat) : (s.wr off v).mem = s.mem := by rw [State.wr_eq]
@[simp] theorem State.wr_fresh (s : State) (off v : Nat) : (s.wr off v).fresh = s.fresh := by rw [State.wr_eq]
@[simp] theorem State.wr_out (s : State) (off v : Nat) : (s.wr off v).out = s.out := by rw [State.wr_eq]
@[simp] theorem State.wr_pins (s : State) (off v : Nat) : (s.wr off v).pins = s.pins := by rw [State.wr_eq]
@[simp] theorem State.wr_board (s : State) (off v : Nat) : (s.wr off v).board = s.board := by rw [State.wr_eq]
@[simp] theorem State.wr_suppressed (s : State) (off v : Nat) : (s.wr off v).suppressed = s.suppressed := by rw [State.wr_eq]
@[simp] theorem State.wr_queues (s : State) (off v : Nat) : (s.wr off v).queues = s.queues := by rw [State.wr_eq]
@[simp] theorem State.wr_rr (s : State) (off v : Nat) : (s.wr off v).rr = s.rr := by rw [State.wr_eq]
@[simp] theorem State.wr_waiting (s : State) (off v : Nat) : (s.wr off v).waiting = s.waiting := by rw [State.wr_eq]
@[simp] theorem State.wr_nextCue (s : State) (off v : Nat) : (s.wr off v).nextCue = s.nextCue := by rw [State.wr_eq]
@[simp] theorem State.wr_ops (s : State) (off v : Nat) : (s.wr off v).ops = s.ops := by rw [State.wr_eq]
@[simp] theorem State.wr_jobs (s : State) (off v : Nat) : (s.wr off v).jobs = s.jobs := by rw [State.wr_eq]
@[simp] theorem State.wr_tiles (s : State) (off v : Nat) : (s.wr off v).tiles = s.tiles := by rw [State.wr_eq]
@[simp] theorem State.wr_sets (s : State) (off v : Nat) : (s.wr off v).sets = s.sets := by rw [State.wr_eq]
@[simp] theorem State.wr_heldTiles (s : State) (off v : Nat) : (s.wr off v).heldTiles = s.heldTiles := by rw [State.wr_eq]
@[simp] theorem State.wr_cells (s : State) (off v : Nat) : (s.wr off v).cells = s.cells := by rw [State.wr_eq]
@[simp] theorem State.wr_captures (s : State) (off v : Nat) : (s.wr off v).captures = s.captures := by rw [State.wr_eq]
@[simp] theorem State.wr_rng (s : State) (off v : Nat) : (s.wr off v).rng = s.rng := by rw [State.wr_eq]
@[simp] theorem State.wr_banks (s : State) (off v : Nat) : (s.wr off v).banks = s.banks := by rw [State.wr_eq]
@[simp] theorem State.wr_hbmStacks (s : State) (off v : Nat) : (s.wr off v).hbmStacks = s.hbmStacks := by rw [State.wr_eq]
@[simp] theorem State.wr_channels (s : State) (off v : Nat) : (s.wr off v).channels = s.channels := by rw [State.wr_eq]
@[simp] theorem State.wr_voided (s : State) (off v : Nat) : (s.wr off v).voided = s.voided := by rw [State.wr_eq]
@[simp] theorem State.wr_badAt (s : State) (off v : Nat) : (s.wr off v).badAt = s.badAt := by rw [State.wr_eq]
@[simp] theorem State.wr_ports (s : State) (off v : Nat) : (s.wr off v).ports = s.ports := by rw [State.wr_eq]
@[simp] theorem State.wr_fabric (s : State) (off v : Nat) : (s.wr off v).fabric = s.fabric := by rw [State.wr_eq]
@[simp] theorem State.wr_colls (s : State) (off v : Nat) : (s.wr off v).colls = s.colls := by rw [State.wr_eq]
@[simp] theorem State.wr_ckp (s : State) (off v : Nat) : (s.wr off v).ckp = s.ckp := by rw [State.wr_eq]
@[simp] theorem State.wr_fov (s : State) (off v : Nat) : (s.wr off v).fov = s.fov := by rw [State.wr_eq]
@[simp] theorem State.wr_host (s : State) (off v : Nat) : (s.wr off v).host = s.host := by rw [State.wr_eq]
@[simp] theorem State.wr_sec (s : State) (off v : Nat) : (s.wr off v).sec = s.sec := by rw [State.wr_eq]
@[simp] theorem State.wr_mgt (s : State) (off v : Nat) : (s.wr off v).mgt = s.mgt := by rw [State.wr_eq]
@[simp] theorem State.wr_pending (s : State) (off v : Nat) : (s.wr off v).pending = s.pending := by rw [State.wr_eq]

@[simp] theorem State.setF_mem (s : State) (x : Fld) (v : Nat) : (s.setF x v).mem = s.mem := State.wr_mem ..
@[simp] theorem State.setF_fresh (s : State) (x : Fld) (v : Nat) : (s.setF x v).fresh = s.fresh := State.wr_fresh ..
@[simp] theorem State.setF_out (s : State) (x : Fld) (v : Nat) : (s.setF x v).out = s.out := State.wr_out ..
@[simp] theorem State.setF_pins (s : State) (x : Fld) (v : Nat) : (s.setF x v).pins = s.pins := State.wr_pins ..
@[simp] theorem State.setF_board (s : State) (x : Fld) (v : Nat) : (s.setF x v).board = s.board := State.wr_board ..
@[simp] theorem State.setF_suppressed (s : State) (x : Fld) (v : Nat) : (s.setF x v).suppressed = s.suppressed := State.wr_suppressed ..
@[simp] theorem State.setF_queues (s : State) (x : Fld) (v : Nat) : (s.setF x v).queues = s.queues := State.wr_queues ..
@[simp] theorem State.setF_rr (s : State) (x : Fld) (v : Nat) : (s.setF x v).rr = s.rr := State.wr_rr ..
@[simp] theorem State.setF_waiting (s : State) (x : Fld) (v : Nat) : (s.setF x v).waiting = s.waiting := State.wr_waiting ..
@[simp] theorem State.setF_nextCue (s : State) (x : Fld) (v : Nat) : (s.setF x v).nextCue = s.nextCue := State.wr_nextCue ..
@[simp] theorem State.setF_ops (s : State) (x : Fld) (v : Nat) : (s.setF x v).ops = s.ops := State.wr_ops ..
@[simp] theorem State.setF_jobs (s : State) (x : Fld) (v : Nat) : (s.setF x v).jobs = s.jobs := State.wr_jobs ..
@[simp] theorem State.setF_tiles (s : State) (x : Fld) (v : Nat) : (s.setF x v).tiles = s.tiles := State.wr_tiles ..
@[simp] theorem State.setF_sets (s : State) (x : Fld) (v : Nat) : (s.setF x v).sets = s.sets := State.wr_sets ..
@[simp] theorem State.setF_heldTiles (s : State) (x : Fld) (v : Nat) : (s.setF x v).heldTiles = s.heldTiles := State.wr_heldTiles ..
@[simp] theorem State.setF_cells (s : State) (x : Fld) (v : Nat) : (s.setF x v).cells = s.cells := State.wr_cells ..
@[simp] theorem State.setF_captures (s : State) (x : Fld) (v : Nat) : (s.setF x v).captures = s.captures := State.wr_captures ..
@[simp] theorem State.setF_rng (s : State) (x : Fld) (v : Nat) : (s.setF x v).rng = s.rng := State.wr_rng ..
@[simp] theorem State.setF_banks (s : State) (x : Fld) (v : Nat) : (s.setF x v).banks = s.banks := State.wr_banks ..
@[simp] theorem State.setF_hbmStacks (s : State) (x : Fld) (v : Nat) : (s.setF x v).hbmStacks = s.hbmStacks := State.wr_hbmStacks ..
@[simp] theorem State.setF_channels (s : State) (x : Fld) (v : Nat) : (s.setF x v).channels = s.channels := State.wr_channels ..
@[simp] theorem State.setF_voided (s : State) (x : Fld) (v : Nat) : (s.setF x v).voided = s.voided := State.wr_voided ..
@[simp] theorem State.setF_badAt (s : State) (x : Fld) (v : Nat) : (s.setF x v).badAt = s.badAt := State.wr_badAt ..
@[simp] theorem State.setF_ports (s : State) (x : Fld) (v : Nat) : (s.setF x v).ports = s.ports := State.wr_ports ..
@[simp] theorem State.setF_fabric (s : State) (x : Fld) (v : Nat) : (s.setF x v).fabric = s.fabric := State.wr_fabric ..
@[simp] theorem State.setF_colls (s : State) (x : Fld) (v : Nat) : (s.setF x v).colls = s.colls := State.wr_colls ..
@[simp] theorem State.setF_ckp (s : State) (x : Fld) (v : Nat) : (s.setF x v).ckp = s.ckp := State.wr_ckp ..
@[simp] theorem State.setF_fov (s : State) (x : Fld) (v : Nat) : (s.setF x v).fov = s.fov := State.wr_fov ..
@[simp] theorem State.setF_host (s : State) (x : Fld) (v : Nat) : (s.setF x v).host = s.host := State.wr_host ..
@[simp] theorem State.setF_sec (s : State) (x : Fld) (v : Nat) : (s.setF x v).sec = s.sec := State.wr_sec ..
@[simp] theorem State.setF_mgt (s : State) (x : Fld) (v : Nat) : (s.setF x v).mgt = s.mgt := State.wr_mgt ..
@[simp] theorem State.setF_pending (s : State) (x : Fld) (v : Nat) : (s.setF x v).pending = s.pending := State.wr_pending ..

@[simp] theorem State.inc_mem (s : State) (x : Fld) : (s.inc x).mem = s.mem := State.wr_mem ..
@[simp] theorem State.inc_fresh (s : State) (x : Fld) : (s.inc x).fresh = s.fresh := State.wr_fresh ..
@[simp] theorem State.inc_out (s : State) (x : Fld) : (s.inc x).out = s.out := State.wr_out ..
@[simp] theorem State.inc_pins (s : State) (x : Fld) : (s.inc x).pins = s.pins := State.wr_pins ..
@[simp] theorem State.inc_board (s : State) (x : Fld) : (s.inc x).board = s.board := State.wr_board ..
@[simp] theorem State.inc_suppressed (s : State) (x : Fld) : (s.inc x).suppressed = s.suppressed := State.wr_suppressed ..
@[simp] theorem State.inc_queues (s : State) (x : Fld) : (s.inc x).queues = s.queues := State.wr_queues ..
@[simp] theorem State.inc_rr (s : State) (x : Fld) : (s.inc x).rr = s.rr := State.wr_rr ..
@[simp] theorem State.inc_waiting (s : State) (x : Fld) : (s.inc x).waiting = s.waiting := State.wr_waiting ..
@[simp] theorem State.inc_nextCue (s : State) (x : Fld) : (s.inc x).nextCue = s.nextCue := State.wr_nextCue ..
@[simp] theorem State.inc_ops (s : State) (x : Fld) : (s.inc x).ops = s.ops := State.wr_ops ..
@[simp] theorem State.inc_jobs (s : State) (x : Fld) : (s.inc x).jobs = s.jobs := State.wr_jobs ..
@[simp] theorem State.inc_tiles (s : State) (x : Fld) : (s.inc x).tiles = s.tiles := State.wr_tiles ..
@[simp] theorem State.inc_sets (s : State) (x : Fld) : (s.inc x).sets = s.sets := State.wr_sets ..
@[simp] theorem State.inc_heldTiles (s : State) (x : Fld) : (s.inc x).heldTiles = s.heldTiles := State.wr_heldTiles ..
@[simp] theorem State.inc_cells (s : State) (x : Fld) : (s.inc x).cells = s.cells := State.wr_cells ..
@[simp] theorem State.inc_captures (s : State) (x : Fld) : (s.inc x).captures = s.captures := State.wr_captures ..
@[simp] theorem State.inc_rng (s : State) (x : Fld) : (s.inc x).rng = s.rng := State.wr_rng ..
@[simp] theorem State.inc_banks (s : State) (x : Fld) : (s.inc x).banks = s.banks := State.wr_banks ..
@[simp] theorem State.inc_hbmStacks (s : State) (x : Fld) : (s.inc x).hbmStacks = s.hbmStacks := State.wr_hbmStacks ..
@[simp] theorem State.inc_channels (s : State) (x : Fld) : (s.inc x).channels = s.channels := State.wr_channels ..
@[simp] theorem State.inc_voided (s : State) (x : Fld) : (s.inc x).voided = s.voided := State.wr_voided ..
@[simp] theorem State.inc_badAt (s : State) (x : Fld) : (s.inc x).badAt = s.badAt := State.wr_badAt ..
@[simp] theorem State.inc_ports (s : State) (x : Fld) : (s.inc x).ports = s.ports := State.wr_ports ..
@[simp] theorem State.inc_fabric (s : State) (x : Fld) : (s.inc x).fabric = s.fabric := State.wr_fabric ..
@[simp] theorem State.inc_colls (s : State) (x : Fld) : (s.inc x).colls = s.colls := State.wr_colls ..
@[simp] theorem State.inc_ckp (s : State) (x : Fld) : (s.inc x).ckp = s.ckp := State.wr_ckp ..
@[simp] theorem State.inc_fov (s : State) (x : Fld) : (s.inc x).fov = s.fov := State.wr_fov ..
@[simp] theorem State.inc_host (s : State) (x : Fld) : (s.inc x).host = s.host := State.wr_host ..
@[simp] theorem State.inc_sec (s : State) (x : Fld) : (s.inc x).sec = s.sec := State.wr_sec ..
@[simp] theorem State.inc_mgt (s : State) (x : Fld) : (s.inc x).mgt = s.mgt := State.wr_mgt ..
@[simp] theorem State.inc_pending (s : State) (x : Fld) : (s.inc x).pending = s.pending := State.wr_pending ..

/-! ### emit -/

@[simp] theorem State.emit_regs (s : State) (o : Out) : (s.emit o).regs = s.regs := rfl
@[simp] theorem State.emit_mem (s : State) (o : Out) : (s.emit o).mem = s.mem := rfl
@[simp] theorem State.emit_fresh (s : State) (o : Out) : (s.emit o).fresh = s.fresh := rfl
@[simp] theorem State.emit_pins (s : State) (o : Out) : (s.emit o).pins = s.pins := rfl
@[simp] theorem State.emit_board (s : State) (o : Out) : (s.emit o).board = s.board := rfl
@[simp] theorem State.emit_suppressed (s : State) (o : Out) : (s.emit o).suppressed = s.suppressed := rfl
@[simp] theorem State.emit_queues (s : State) (o : Out) : (s.emit o).queues = s.queues := rfl
@[simp] theorem State.emit_rr (s : State) (o : Out) : (s.emit o).rr = s.rr := rfl
@[simp] theorem State.emit_waiting (s : State) (o : Out) : (s.emit o).waiting = s.waiting := rfl
@[simp] theorem State.emit_nextCue (s : State) (o : Out) : (s.emit o).nextCue = s.nextCue := rfl
@[simp] theorem State.emit_ops (s : State) (o : Out) : (s.emit o).ops = s.ops := rfl
@[simp] theorem State.emit_jobs (s : State) (o : Out) : (s.emit o).jobs = s.jobs := rfl
@[simp] theorem State.emit_tiles (s : State) (o : Out) : (s.emit o).tiles = s.tiles := rfl
@[simp] theorem State.emit_sets (s : State) (o : Out) : (s.emit o).sets = s.sets := rfl
@[simp] theorem State.emit_heldTiles (s : State) (o : Out) : (s.emit o).heldTiles = s.heldTiles := rfl
@[simp] theorem State.emit_cells (s : State) (o : Out) : (s.emit o).cells = s.cells := rfl
@[simp] theorem State.emit_captures (s : State) (o : Out) : (s.emit o).captures = s.captures := rfl
@[simp] theorem State.emit_rng (s : State) (o : Out) : (s.emit o).rng = s.rng := rfl
@[simp] theorem State.emit_banks (s : State) (o : Out) : (s.emit o).banks = s.banks := rfl
@[simp] theorem State.emit_hbmStacks (s : State) (o : Out) : (s.emit o).hbmStacks = s.hbmStacks := rfl
@[simp] theorem State.emit_channels (s : State) (o : Out) : (s.emit o).channels = s.channels := rfl
@[simp] theorem State.emit_voided (s : State) (o : Out) : (s.emit o).voided = s.voided := rfl
@[simp] theorem State.emit_badAt (s : State) (o : Out) : (s.emit o).badAt = s.badAt := rfl
@[simp] theorem State.emit_ports (s : State) (o : Out) : (s.emit o).ports = s.ports := rfl
@[simp] theorem State.emit_fabric (s : State) (o : Out) : (s.emit o).fabric = s.fabric := rfl
@[simp] theorem State.emit_colls (s : State) (o : Out) : (s.emit o).colls = s.colls := rfl
@[simp] theorem State.emit_ckp (s : State) (o : Out) : (s.emit o).ckp = s.ckp := rfl
@[simp] theorem State.emit_fov (s : State) (o : Out) : (s.emit o).fov = s.fov := rfl
@[simp] theorem State.emit_host (s : State) (o : Out) : (s.emit o).host = s.host := rfl
@[simp] theorem State.emit_sec (s : State) (o : Out) : (s.emit o).sec = s.sec := rfl
@[simp] theorem State.emit_mgt (s : State) (o : Out) : (s.emit o).mgt = s.mgt := rfl
@[simp] theorem State.emit_pending (s : State) (o : Out) : (s.emit o).pending = s.pending := rfl
@[simp] theorem State.emit_rd (s : State) (o : Out) (off : Nat) : (s.emit o).rd off = s.rd off := rfl
@[simp] theorem State.emit_fld (s : State) (o : Out) (f : Fld) : (s.emit o).fld f = s.fld f := rfl
@[simp] theorem State.emit_byte (s : State) (o : Out) (at' : Nat) : (s.emit o).byte at' = s.byte at' := rfl

/-! ### putBytes -/

@[simp] theorem State.putBytes_regs (s : State) (a : Nat) (bs : List Byte) : (s.putBytes a bs).regs = s.regs := rfl
@[simp] theorem State.putBytes_fresh (s : State) (a : Nat) (bs : List Byte) : (s.putBytes a bs).fresh = s.fresh := rfl
@[simp] theorem State.putBytes_out (s : State) (a : Nat) (bs : List Byte) : (s.putBytes a bs).out = s.out := rfl
@[simp] theorem State.putBytes_pins (s : State) (a : Nat) (bs : List Byte) : (s.putBytes a bs).pins = s.pins := rfl
@[simp] theorem State.putBytes_board (s : State) (a : Nat) (bs : List Byte) : (s.putBytes a bs).board = s.board := rfl
@[simp] theorem State.putBytes_suppressed (s : State) (a : Nat) (bs : List Byte) : (s.putBytes a bs).suppressed = s.suppressed := rfl
@[simp] theorem State.putBytes_queues (s : State) (a : Nat) (bs : List Byte) : (s.putBytes a bs).queues = s.queues := rfl
@[simp] theorem State.putBytes_rr (s : State) (a : Nat) (bs : List Byte) : (s.putBytes a bs).rr = s.rr := rfl
@[simp] theorem State.putBytes_waiting (s : State) (a : Nat) (bs : List Byte) : (s.putBytes a bs).waiting = s.waiting := rfl
@[simp] theorem State.putBytes_nextCue (s : State) (a : Nat) (bs : List Byte) : (s.putBytes a bs).nextCue = s.nextCue := rfl
@[simp] theorem State.putBytes_ops (s : State) (a : Nat) (bs : List Byte) : (s.putBytes a bs).ops = s.ops := rfl
@[simp] theorem State.putBytes_jobs (s : State) (a : Nat) (bs : List Byte) : (s.putBytes a bs).jobs = s.jobs := rfl
@[simp] theorem State.putBytes_tiles (s : State) (a : Nat) (bs : List Byte) : (s.putBytes a bs).tiles = s.tiles := rfl
@[simp] theorem State.putBytes_sets (s : State) (a : Nat) (bs : List Byte) : (s.putBytes a bs).sets = s.sets := rfl
@[simp] theorem State.putBytes_heldTiles (s : State) (a : Nat) (bs : List Byte) : (s.putBytes a bs).heldTiles = s.heldTiles := rfl
@[simp] theorem State.putBytes_cells (s : State) (a : Nat) (bs : List Byte) : (s.putBytes a bs).cells = s.cells := rfl
@[simp] theorem State.putBytes_captures (s : State) (a : Nat) (bs : List Byte) : (s.putBytes a bs).captures = s.captures := rfl
@[simp] theorem State.putBytes_rng (s : State) (a : Nat) (bs : List Byte) : (s.putBytes a bs).rng = s.rng := rfl
@[simp] theorem State.putBytes_banks (s : State) (a : Nat) (bs : List Byte) : (s.putBytes a bs).banks = s.banks := rfl
@[simp] theorem State.putBytes_hbmStacks (s : State) (a : Nat) (bs : List Byte) : (s.putBytes a bs).hbmStacks = s.hbmStacks := rfl
@[simp] theorem State.putBytes_channels (s : State) (a : Nat) (bs : List Byte) : (s.putBytes a bs).channels = s.channels := rfl
@[simp] theorem State.putBytes_voided (s : State) (a : Nat) (bs : List Byte) : (s.putBytes a bs).voided = s.voided := rfl
@[simp] theorem State.putBytes_badAt (s : State) (a : Nat) (bs : List Byte) : (s.putBytes a bs).badAt = s.badAt := rfl
@[simp] theorem State.putBytes_ports (s : State) (a : Nat) (bs : List Byte) : (s.putBytes a bs).ports = s.ports := rfl
@[simp] theorem State.putBytes_fabric (s : State) (a : Nat) (bs : List Byte) : (s.putBytes a bs).fabric = s.fabric := rfl
@[simp] theorem State.putBytes_colls (s : State) (a : Nat) (bs : List Byte) : (s.putBytes a bs).colls = s.colls := rfl
@[simp] theorem State.putBytes_ckp (s : State) (a : Nat) (bs : List Byte) : (s.putBytes a bs).ckp = s.ckp := rfl
@[simp] theorem State.putBytes_fov (s : State) (a : Nat) (bs : List Byte) : (s.putBytes a bs).fov = s.fov := rfl
@[simp] theorem State.putBytes_host (s : State) (a : Nat) (bs : List Byte) : (s.putBytes a bs).host = s.host := rfl
@[simp] theorem State.putBytes_sec (s : State) (a : Nat) (bs : List Byte) : (s.putBytes a bs).sec = s.sec := rfl
@[simp] theorem State.putBytes_mgt (s : State) (a : Nat) (bs : List Byte) : (s.putBytes a bs).mgt = s.mgt := rfl
@[simp] theorem State.putBytes_pending (s : State) (a : Nat) (bs : List Byte) : (s.putBytes a bs).pending = s.pending := rfl
@[simp] theorem State.putBytes_rd (s : State) (a : Nat) (bs : List Byte) (off : Nat) : (s.putBytes a bs).rd off = s.rd off := rfl
@[simp] theorem State.putBytes_fld (s : State) (a : Nat) (bs : List Byte) (f : Fld) : (s.putBytes a bs).fld f = s.fld f := rfl

/-! ### zeroBytes -/

@[simp] theorem State.zeroBytes_regs (s : State) (a n : Nat) : (s.zeroBytes a n).regs = s.regs := rfl
@[simp] theorem State.zeroBytes_fresh (s : State) (a n : Nat) : (s.zeroBytes a n).fresh = s.fresh := rfl
@[simp] theorem State.zeroBytes_out (s : State) (a n : Nat) : (s.zeroBytes a n).out = s.out := rfl
@[simp] theorem State.zeroBytes_pins (s : State) (a n : Nat) : (s.zeroBytes a n).pins = s.pins := rfl
@[simp] theorem State.zeroBytes_board (s : State) (a n : Nat) : (s.zeroBytes a n).board = s.board := rfl
@[simp] theorem State.zeroBytes_suppressed (s : State) (a n : Nat) : (s.zeroBytes a n).suppressed = s.suppressed := rfl
@[simp] theorem State.zeroBytes_queues (s : State) (a n : Nat) : (s.zeroBytes a n).queues = s.queues := rfl
@[simp] theorem State.zeroBytes_rr (s : State) (a n : Nat) : (s.zeroBytes a n).rr = s.rr := rfl
@[simp] theorem State.zeroBytes_waiting (s : State) (a n : Nat) : (s.zeroBytes a n).waiting = s.waiting := rfl
@[simp] theorem State.zeroBytes_nextCue (s : State) (a n : Nat) : (s.zeroBytes a n).nextCue = s.nextCue := rfl
@[simp] theorem State.zeroBytes_ops (s : State) (a n : Nat) : (s.zeroBytes a n).ops = s.ops := rfl
@[simp] theorem State.zeroBytes_jobs (s : State) (a n : Nat) : (s.zeroBytes a n).jobs = s.jobs := rfl
@[simp] theorem State.zeroBytes_tiles (s : State) (a n : Nat) : (s.zeroBytes a n).tiles = s.tiles := rfl
@[simp] theorem State.zeroBytes_sets (s : State) (a n : Nat) : (s.zeroBytes a n).sets = s.sets := rfl
@[simp] theorem State.zeroBytes_heldTiles (s : State) (a n : Nat) : (s.zeroBytes a n).heldTiles = s.heldTiles := rfl
@[simp] theorem State.zeroBytes_cells (s : State) (a n : Nat) : (s.zeroBytes a n).cells = s.cells := rfl
@[simp] theorem State.zeroBytes_captures (s : State) (a n : Nat) : (s.zeroBytes a n).captures = s.captures := rfl
@[simp] theorem State.zeroBytes_rng (s : State) (a n : Nat) : (s.zeroBytes a n).rng = s.rng := rfl
@[simp] theorem State.zeroBytes_banks (s : State) (a n : Nat) : (s.zeroBytes a n).banks = s.banks := rfl
@[simp] theorem State.zeroBytes_hbmStacks (s : State) (a n : Nat) : (s.zeroBytes a n).hbmStacks = s.hbmStacks := rfl
@[simp] theorem State.zeroBytes_channels (s : State) (a n : Nat) : (s.zeroBytes a n).channels = s.channels := rfl
@[simp] theorem State.zeroBytes_voided (s : State) (a n : Nat) : (s.zeroBytes a n).voided = s.voided := rfl
@[simp] theorem State.zeroBytes_badAt (s : State) (a n : Nat) : (s.zeroBytes a n).badAt = s.badAt := rfl
@[simp] theorem State.zeroBytes_ports (s : State) (a n : Nat) : (s.zeroBytes a n).ports = s.ports := rfl
@[simp] theorem State.zeroBytes_fabric (s : State) (a n : Nat) : (s.zeroBytes a n).fabric = s.fabric := rfl
@[simp] theorem State.zeroBytes_colls (s : State) (a n : Nat) : (s.zeroBytes a n).colls = s.colls := rfl
@[simp] theorem State.zeroBytes_ckp (s : State) (a n : Nat) : (s.zeroBytes a n).ckp = s.ckp := rfl
@[simp] theorem State.zeroBytes_fov (s : State) (a n : Nat) : (s.zeroBytes a n).fov = s.fov := rfl
@[simp] theorem State.zeroBytes_host (s : State) (a n : Nat) : (s.zeroBytes a n).host = s.host := rfl
@[simp] theorem State.zeroBytes_sec (s : State) (a n : Nat) : (s.zeroBytes a n).sec = s.sec := rfl
@[simp] theorem State.zeroBytes_mgt (s : State) (a n : Nat) : (s.zeroBytes a n).mgt = s.mgt := rfl
@[simp] theorem State.zeroBytes_pending (s : State) (a n : Nat) : (s.zeroBytes a n).pending = s.pending := rfl
@[simp] theorem State.zeroBytes_rd (s : State) (a n : Nat) (off : Nat) : (s.zeroBytes a n).rd off = s.rd off := rfl
@[simp] theorem State.zeroBytes_fld (s : State) (a n : Nat) (f : Fld) : (s.zeroBytes a n).fld f = s.fld f := rfl

/-! ### setJob -/

@[simp] theorem State.setJob_regs (s : State) (j : Nat) (job : Job) : (s.setJob j job).regs = s.regs := rfl
@[simp] theorem State.setJob_mem (s : State) (j : Nat) (job : Job) : (s.setJob j job).mem = s.mem := rfl
@[simp] theorem State.setJob_fresh (s : State) (j : Nat) (job : Job) : (s.setJob j job).fresh = s.fresh := rfl
@[simp] theorem State.setJob_out (s : State) (j : Nat) (job : Job) : (s.setJob j job).out = s.out := rfl
@[simp] theorem State.setJob_pins (s : State) (j : Nat) (job : Job) : (s.setJob j job).pins = s.pins := rfl
@[simp] theorem State.setJob_board (s : State) (j : Nat) (job : Job) : (s.setJob j job).board = s.board := rfl
@[simp] theorem State.setJob_suppressed (s : State) (j : Nat) (job : Job) : (s.setJob j job).suppressed = s.suppressed := rfl
@[simp] theorem State.setJob_queues (s : State) (j : Nat) (job : Job) : (s.setJob j job).queues = s.queues := rfl
@[simp] theorem State.setJob_rr (s : State) (j : Nat) (job : Job) : (s.setJob j job).rr = s.rr := rfl
@[simp] theorem State.setJob_waiting (s : State) (j : Nat) (job : Job) : (s.setJob j job).waiting = s.waiting := rfl
@[simp] theorem State.setJob_nextCue (s : State) (j : Nat) (job : Job) : (s.setJob j job).nextCue = s.nextCue := rfl
@[simp] theorem State.setJob_ops (s : State) (j : Nat) (job : Job) : (s.setJob j job).ops = s.ops := rfl
@[simp] theorem State.setJob_tiles (s : State) (j : Nat) (job : Job) : (s.setJob j job).tiles = s.tiles := rfl
@[simp] theorem State.setJob_sets (s : State) (j : Nat) (job : Job) : (s.setJob j job).sets = s.sets := rfl
@[simp] theorem State.setJob_heldTiles (s : State) (j : Nat) (job : Job) : (s.setJob j job).heldTiles = s.heldTiles := rfl
@[simp] theorem State.setJob_cells (s : State) (j : Nat) (job : Job) : (s.setJob j job).cells = s.cells := rfl
@[simp] theorem State.setJob_captures (s : State) (j : Nat) (job : Job) : (s.setJob j job).captures = s.captures := rfl
@[simp] theorem State.setJob_rng (s : State) (j : Nat) (job : Job) : (s.setJob j job).rng = s.rng := rfl
@[simp] theorem State.setJob_banks (s : State) (j : Nat) (job : Job) : (s.setJob j job).banks = s.banks := rfl
@[simp] theorem State.setJob_hbmStacks (s : State) (j : Nat) (job : Job) : (s.setJob j job).hbmStacks = s.hbmStacks := rfl
@[simp] theorem State.setJob_channels (s : State) (j : Nat) (job : Job) : (s.setJob j job).channels = s.channels := rfl
@[simp] theorem State.setJob_voided (s : State) (j : Nat) (job : Job) : (s.setJob j job).voided = s.voided := rfl
@[simp] theorem State.setJob_badAt (s : State) (j : Nat) (job : Job) : (s.setJob j job).badAt = s.badAt := rfl
@[simp] theorem State.setJob_ports (s : State) (j : Nat) (job : Job) : (s.setJob j job).ports = s.ports := rfl
@[simp] theorem State.setJob_fabric (s : State) (j : Nat) (job : Job) : (s.setJob j job).fabric = s.fabric := rfl
@[simp] theorem State.setJob_colls (s : State) (j : Nat) (job : Job) : (s.setJob j job).colls = s.colls := rfl
@[simp] theorem State.setJob_ckp (s : State) (j : Nat) (job : Job) : (s.setJob j job).ckp = s.ckp := rfl
@[simp] theorem State.setJob_fov (s : State) (j : Nat) (job : Job) : (s.setJob j job).fov = s.fov := rfl
@[simp] theorem State.setJob_host (s : State) (j : Nat) (job : Job) : (s.setJob j job).host = s.host := rfl
@[simp] theorem State.setJob_sec (s : State) (j : Nat) (job : Job) : (s.setJob j job).sec = s.sec := rfl
@[simp] theorem State.setJob_mgt (s : State) (j : Nat) (job : Job) : (s.setJob j job).mgt = s.mgt := rfl
@[simp] theorem State.setJob_pending (s : State) (j : Nat) (job : Job) : (s.setJob j job).pending = s.pending := rfl
@[simp] theorem State.setJob_rd (s : State) (j : Nat) (job : Job) (off : Nat) : (s.setJob j job).rd off = s.rd off := rfl
@[simp] theorem State.setJob_fld (s : State) (j : Nat) (job : Job) (f : Fld) : (s.setJob j job).fld f = s.fld f := rfl
@[simp] theorem State.setJob_byte (s : State) (j : Nat) (job : Job) (at' : Nat) : (s.setJob j job).byte at' = s.byte at' := rfl

/-! ### setPort -/

@[simp] theorem State.setPort_regs (s : State) (p : Nat) (x : Port) : (s.setPort p x).regs = s.regs := rfl
@[simp] theorem State.setPort_mem (s : State) (p : Nat) (x : Port) : (s.setPort p x).mem = s.mem := rfl
@[simp] theorem State.setPort_fresh (s : State) (p : Nat) (x : Port) : (s.setPort p x).fresh = s.fresh := rfl
@[simp] theorem State.setPort_out (s : State) (p : Nat) (x : Port) : (s.setPort p x).out = s.out := rfl
@[simp] theorem State.setPort_pins (s : State) (p : Nat) (x : Port) : (s.setPort p x).pins = s.pins := rfl
@[simp] theorem State.setPort_board (s : State) (p : Nat) (x : Port) : (s.setPort p x).board = s.board := rfl
@[simp] theorem State.setPort_suppressed (s : State) (p : Nat) (x : Port) : (s.setPort p x).suppressed = s.suppressed := rfl
@[simp] theorem State.setPort_queues (s : State) (p : Nat) (x : Port) : (s.setPort p x).queues = s.queues := rfl
@[simp] theorem State.setPort_rr (s : State) (p : Nat) (x : Port) : (s.setPort p x).rr = s.rr := rfl
@[simp] theorem State.setPort_waiting (s : State) (p : Nat) (x : Port) : (s.setPort p x).waiting = s.waiting := rfl
@[simp] theorem State.setPort_nextCue (s : State) (p : Nat) (x : Port) : (s.setPort p x).nextCue = s.nextCue := rfl
@[simp] theorem State.setPort_ops (s : State) (p : Nat) (x : Port) : (s.setPort p x).ops = s.ops := rfl
@[simp] theorem State.setPort_jobs (s : State) (p : Nat) (x : Port) : (s.setPort p x).jobs = s.jobs := rfl
@[simp] theorem State.setPort_tiles (s : State) (p : Nat) (x : Port) : (s.setPort p x).tiles = s.tiles := rfl
@[simp] theorem State.setPort_sets (s : State) (p : Nat) (x : Port) : (s.setPort p x).sets = s.sets := rfl
@[simp] theorem State.setPort_heldTiles (s : State) (p : Nat) (x : Port) : (s.setPort p x).heldTiles = s.heldTiles := rfl
@[simp] theorem State.setPort_cells (s : State) (p : Nat) (x : Port) : (s.setPort p x).cells = s.cells := rfl
@[simp] theorem State.setPort_captures (s : State) (p : Nat) (x : Port) : (s.setPort p x).captures = s.captures := rfl
@[simp] theorem State.setPort_rng (s : State) (p : Nat) (x : Port) : (s.setPort p x).rng = s.rng := rfl
@[simp] theorem State.setPort_banks (s : State) (p : Nat) (x : Port) : (s.setPort p x).banks = s.banks := rfl
@[simp] theorem State.setPort_hbmStacks (s : State) (p : Nat) (x : Port) : (s.setPort p x).hbmStacks = s.hbmStacks := rfl
@[simp] theorem State.setPort_channels (s : State) (p : Nat) (x : Port) : (s.setPort p x).channels = s.channels := rfl
@[simp] theorem State.setPort_voided (s : State) (p : Nat) (x : Port) : (s.setPort p x).voided = s.voided := rfl
@[simp] theorem State.setPort_badAt (s : State) (p : Nat) (x : Port) : (s.setPort p x).badAt = s.badAt := rfl
@[simp] theorem State.setPort_fabric (s : State) (p : Nat) (x : Port) : (s.setPort p x).fabric = s.fabric := rfl
@[simp] theorem State.setPort_colls (s : State) (p : Nat) (x : Port) : (s.setPort p x).colls = s.colls := rfl
@[simp] theorem State.setPort_ckp (s : State) (p : Nat) (x : Port) : (s.setPort p x).ckp = s.ckp := rfl
@[simp] theorem State.setPort_fov (s : State) (p : Nat) (x : Port) : (s.setPort p x).fov = s.fov := rfl
@[simp] theorem State.setPort_host (s : State) (p : Nat) (x : Port) : (s.setPort p x).host = s.host := rfl
@[simp] theorem State.setPort_sec (s : State) (p : Nat) (x : Port) : (s.setPort p x).sec = s.sec := rfl
@[simp] theorem State.setPort_mgt (s : State) (p : Nat) (x : Port) : (s.setPort p x).mgt = s.mgt := rfl
@[simp] theorem State.setPort_pending (s : State) (p : Nat) (x : Port) : (s.setPort p x).pending = s.pending := rfl
@[simp] theorem State.setPort_rd (s : State) (p : Nat) (x : Port) (off : Nat) : (s.setPort p x).rd off = s.rd off := rfl
@[simp] theorem State.setPort_fld (s : State) (p : Nat) (x : Port) (f : Fld) : (s.setPort p x).fld f = s.fld f := rfl
@[simp] theorem State.setPort_byte (s : State) (p : Nat) (x : Port) (at' : Nat) : (s.setPort p x).byte at' = s.byte at' := rfl

/-! ### setBank -/

@[simp] theorem State.setBank_regs (s : State) (b : Nat) (x : Bank) : (s.setBank b x).regs = s.regs := rfl
@[simp] theorem State.setBank_mem (s : State) (b : Nat) (x : Bank) : (s.setBank b x).mem = s.mem := rfl
@[simp] theorem State.setBank_fresh (s : State) (b : Nat) (x : Bank) : (s.setBank b x).fresh = s.fresh := rfl
@[simp] theorem State.setBank_out (s : State) (b : Nat) (x : Bank) : (s.setBank b x).out = s.out := rfl
@[simp] theorem State.setBank_pins (s : State) (b : Nat) (x : Bank) : (s.setBank b x).pins = s.pins := rfl
@[simp] theorem State.setBank_board (s : State) (b : Nat) (x : Bank) : (s.setBank b x).board = s.board := rfl
@[simp] theorem State.setBank_suppressed (s : State) (b : Nat) (x : Bank) : (s.setBank b x).suppressed = s.suppressed := rfl
@[simp] theorem State.setBank_queues (s : State) (b : Nat) (x : Bank) : (s.setBank b x).queues = s.queues := rfl
@[simp] theorem State.setBank_rr (s : State) (b : Nat) (x : Bank) : (s.setBank b x).rr = s.rr := rfl
@[simp] theorem State.setBank_waiting (s : State) (b : Nat) (x : Bank) : (s.setBank b x).waiting = s.waiting := rfl
@[simp] theorem State.setBank_nextCue (s : State) (b : Nat) (x : Bank) : (s.setBank b x).nextCue = s.nextCue := rfl
@[simp] theorem State.setBank_ops (s : State) (b : Nat) (x : Bank) : (s.setBank b x).ops = s.ops := rfl
@[simp] theorem State.setBank_jobs (s : State) (b : Nat) (x : Bank) : (s.setBank b x).jobs = s.jobs := rfl
@[simp] theorem State.setBank_tiles (s : State) (b : Nat) (x : Bank) : (s.setBank b x).tiles = s.tiles := rfl
@[simp] theorem State.setBank_sets (s : State) (b : Nat) (x : Bank) : (s.setBank b x).sets = s.sets := rfl
@[simp] theorem State.setBank_heldTiles (s : State) (b : Nat) (x : Bank) : (s.setBank b x).heldTiles = s.heldTiles := rfl
@[simp] theorem State.setBank_cells (s : State) (b : Nat) (x : Bank) : (s.setBank b x).cells = s.cells := rfl
@[simp] theorem State.setBank_captures (s : State) (b : Nat) (x : Bank) : (s.setBank b x).captures = s.captures := rfl
@[simp] theorem State.setBank_rng (s : State) (b : Nat) (x : Bank) : (s.setBank b x).rng = s.rng := rfl
@[simp] theorem State.setBank_hbmStacks (s : State) (b : Nat) (x : Bank) : (s.setBank b x).hbmStacks = s.hbmStacks := rfl
@[simp] theorem State.setBank_channels (s : State) (b : Nat) (x : Bank) : (s.setBank b x).channels = s.channels := rfl
@[simp] theorem State.setBank_voided (s : State) (b : Nat) (x : Bank) : (s.setBank b x).voided = s.voided := rfl
@[simp] theorem State.setBank_badAt (s : State) (b : Nat) (x : Bank) : (s.setBank b x).badAt = s.badAt := rfl
@[simp] theorem State.setBank_ports (s : State) (b : Nat) (x : Bank) : (s.setBank b x).ports = s.ports := rfl
@[simp] theorem State.setBank_fabric (s : State) (b : Nat) (x : Bank) : (s.setBank b x).fabric = s.fabric := rfl
@[simp] theorem State.setBank_colls (s : State) (b : Nat) (x : Bank) : (s.setBank b x).colls = s.colls := rfl
@[simp] theorem State.setBank_ckp (s : State) (b : Nat) (x : Bank) : (s.setBank b x).ckp = s.ckp := rfl
@[simp] theorem State.setBank_fov (s : State) (b : Nat) (x : Bank) : (s.setBank b x).fov = s.fov := rfl
@[simp] theorem State.setBank_host (s : State) (b : Nat) (x : Bank) : (s.setBank b x).host = s.host := rfl
@[simp] theorem State.setBank_sec (s : State) (b : Nat) (x : Bank) : (s.setBank b x).sec = s.sec := rfl
@[simp] theorem State.setBank_mgt (s : State) (b : Nat) (x : Bank) : (s.setBank b x).mgt = s.mgt := rfl
@[simp] theorem State.setBank_pending (s : State) (b : Nat) (x : Bank) : (s.setBank b x).pending = s.pending := rfl
@[simp] theorem State.setBank_rd (s : State) (b : Nat) (x : Bank) (off : Nat) : (s.setBank b x).rd off = s.rd off := rfl
@[simp] theorem State.setBank_fld (s : State) (b : Nat) (x : Bank) (f : Fld) : (s.setBank b x).fld f = s.fld f := rfl
@[simp] theorem State.setBank_byte (s : State) (b : Nat) (x : Bank) (at' : Nat) : (s.setBank b x).byte at' = s.byte at' := rfl

/-! ### setQueue -/

@[simp] theorem State.setQueue_regs (s : State) (q : Nat) (x : Queue) : (s.setQueue q x).regs = s.regs := rfl
@[simp] theorem State.setQueue_mem (s : State) (q : Nat) (x : Queue) : (s.setQueue q x).mem = s.mem := rfl
@[simp] theorem State.setQueue_fresh (s : State) (q : Nat) (x : Queue) : (s.setQueue q x).fresh = s.fresh := rfl
@[simp] theorem State.setQueue_out (s : State) (q : Nat) (x : Queue) : (s.setQueue q x).out = s.out := rfl
@[simp] theorem State.setQueue_pins (s : State) (q : Nat) (x : Queue) : (s.setQueue q x).pins = s.pins := rfl
@[simp] theorem State.setQueue_board (s : State) (q : Nat) (x : Queue) : (s.setQueue q x).board = s.board := rfl
@[simp] theorem State.setQueue_suppressed (s : State) (q : Nat) (x : Queue) : (s.setQueue q x).suppressed = s.suppressed := rfl
@[simp] theorem State.setQueue_rr (s : State) (q : Nat) (x : Queue) : (s.setQueue q x).rr = s.rr := rfl
@[simp] theorem State.setQueue_waiting (s : State) (q : Nat) (x : Queue) : (s.setQueue q x).waiting = s.waiting := rfl
@[simp] theorem State.setQueue_nextCue (s : State) (q : Nat) (x : Queue) : (s.setQueue q x).nextCue = s.nextCue := rfl
@[simp] theorem State.setQueue_ops (s : State) (q : Nat) (x : Queue) : (s.setQueue q x).ops = s.ops := rfl
@[simp] theorem State.setQueue_jobs (s : State) (q : Nat) (x : Queue) : (s.setQueue q x).jobs = s.jobs := rfl
@[simp] theorem State.setQueue_tiles (s : State) (q : Nat) (x : Queue) : (s.setQueue q x).tiles = s.tiles := rfl
@[simp] theorem State.setQueue_sets (s : State) (q : Nat) (x : Queue) : (s.setQueue q x).sets = s.sets := rfl
@[simp] theorem State.setQueue_heldTiles (s : State) (q : Nat) (x : Queue) : (s.setQueue q x).heldTiles = s.heldTiles := rfl
@[simp] theorem State.setQueue_cells (s : State) (q : Nat) (x : Queue) : (s.setQueue q x).cells = s.cells := rfl
@[simp] theorem State.setQueue_captures (s : State) (q : Nat) (x : Queue) : (s.setQueue q x).captures = s.captures := rfl
@[simp] theorem State.setQueue_rng (s : State) (q : Nat) (x : Queue) : (s.setQueue q x).rng = s.rng := rfl
@[simp] theorem State.setQueue_banks (s : State) (q : Nat) (x : Queue) : (s.setQueue q x).banks = s.banks := rfl
@[simp] theorem State.setQueue_hbmStacks (s : State) (q : Nat) (x : Queue) : (s.setQueue q x).hbmStacks = s.hbmStacks := rfl
@[simp] theorem State.setQueue_channels (s : State) (q : Nat) (x : Queue) : (s.setQueue q x).channels = s.channels := rfl
@[simp] theorem State.setQueue_voided (s : State) (q : Nat) (x : Queue) : (s.setQueue q x).voided = s.voided := rfl
@[simp] theorem State.setQueue_badAt (s : State) (q : Nat) (x : Queue) : (s.setQueue q x).badAt = s.badAt := rfl
@[simp] theorem State.setQueue_ports (s : State) (q : Nat) (x : Queue) : (s.setQueue q x).ports = s.ports := rfl
@[simp] theorem State.setQueue_fabric (s : State) (q : Nat) (x : Queue) : (s.setQueue q x).fabric = s.fabric := rfl
@[simp] theorem State.setQueue_colls (s : State) (q : Nat) (x : Queue) : (s.setQueue q x).colls = s.colls := rfl
@[simp] theorem State.setQueue_ckp (s : State) (q : Nat) (x : Queue) : (s.setQueue q x).ckp = s.ckp := rfl
@[simp] theorem State.setQueue_fov (s : State) (q : Nat) (x : Queue) : (s.setQueue q x).fov = s.fov := rfl
@[simp] theorem State.setQueue_host (s : State) (q : Nat) (x : Queue) : (s.setQueue q x).host = s.host := rfl
@[simp] theorem State.setQueue_sec (s : State) (q : Nat) (x : Queue) : (s.setQueue q x).sec = s.sec := rfl
@[simp] theorem State.setQueue_mgt (s : State) (q : Nat) (x : Queue) : (s.setQueue q x).mgt = s.mgt := rfl
@[simp] theorem State.setQueue_pending (s : State) (q : Nat) (x : Queue) : (s.setQueue q x).pending = s.pending := rfl
@[simp] theorem State.setQueue_rd (s : State) (q : Nat) (x : Queue) (off : Nat) : (s.setQueue q x).rd off = s.rd off := rfl
@[simp] theorem State.setQueue_fld (s : State) (q : Nat) (x : Queue) (f : Fld) : (s.setQueue q x).fld f = s.fld f := rfl
@[simp] theorem State.setQueue_byte (s : State) (q : Nat) (x : Queue) (at' : Nat) : (s.setQueue q x).byte at' = s.byte at' := rfl

end Sys2Proof.Machine
end

