-- ==== Sys2Proof/Laws/Touch.lean ====
section
/-!
SUPPORT. The laws of `Touch`: how footprints compose, and the footprint of each update of a field and of each write of a
register. The files beside this one say, once per operation of the machine, what it can change; nothing unfolds an operation
after that.
-/
namespace Sys2Proof.Machine

open Sys2Proof

variable {M N : Nat} {s0 s t : State}

theorem testBit_false_of_sub (h : N &&& M = N) {i : Nat} (hi : M.testBit i = false) : N.testBit i = false := by
  rw [← h, Nat.testBit_and, hi, Bool.and_false]

theorem Touch.refl (M : Nat) (s : State) : Touch M s s where
  mem _ _ _ := rfl
  far _ _ _ := rfl
  fresh _ := rfl
  out _ := rfl
  pins _ := rfl
  board _ := ⟨rfl, rfl⟩
  badAt _ := rfl
  queues _ := ⟨rfl, rfl, rfl, rfl⟩
  ops _ := rfl
  jobs _ := rfl
  array _ := ⟨rfl, rfl, rfl, rfl, rfl⟩
  rng _ := rfl
  banks _ := rfl
  outer _ := ⟨rfl, rfl, rfl⟩
  ports _ := rfl
  fabric _ := rfl
  colls _ := rfl
  ckp _ := rfl
  fov _ := rfl
  host _ := rfl
  due _ := rfl
  sec _ := rfl
  mgt _ := rfl
  regs _ _ := rfl
  pending := rfl
  sound h := h

/-- A footprint within M may follow one of M. -/
theorem Touch.to (h : Touch M s0 s) (k : Touch N s t) (hm : N &&& M = N) : Touch M s0 t where
  mem e a ha := (k.mem (testBit_false_of_sub hm e) a ha).trans (h.mem e a ha)
  far e a ha := (k.far (testBit_false_of_sub hm e) a ha).trans (h.far e a ha)
  fresh e := (k.fresh (testBit_false_of_sub hm e)).trans (h.fresh e)
  out e := (k.out (testBit_false_of_sub hm e)).trans (h.out e)
  pins e := (k.pins (testBit_false_of_sub hm e)).trans (h.pins e)
  board e := ⟨(k.board (testBit_false_of_sub hm e)).1.trans (h.board e).1, (k.board (testBit_false_of_sub hm e)).2.trans (h.board e).2⟩
  badAt e := (k.badAt (testBit_false_of_sub hm e)).trans (h.badAt e)
  queues e :=
    have k' := k.queues (testBit_false_of_sub hm e)
    have h' := h.queues e
    ⟨k'.1.trans h'.1, k'.2.1.trans h'.2.1, k'.2.2.1.trans h'.2.2.1, k'.2.2.2.trans h'.2.2.2⟩
  ops e := (k.ops (testBit_false_of_sub hm e)).trans (h.ops e)
  jobs e := (k.jobs (testBit_false_of_sub hm e)).trans (h.jobs e)
  array e :=
    have k' := k.array (testBit_false_of_sub hm e)
    have h' := h.array e
    ⟨k'.1.trans h'.1, k'.2.1.trans h'.2.1, k'.2.2.1.trans h'.2.2.1, k'.2.2.2.1.trans h'.2.2.2.1, k'.2.2.2.2.trans h'.2.2.2.2⟩
  rng e := (k.rng (testBit_false_of_sub hm e)).trans (h.rng e)
  banks e := (k.banks (testBit_false_of_sub hm e)).trans (h.banks e)
  outer e :=
    have k' := k.outer (testBit_false_of_sub hm e)
    have h' := h.outer e
    ⟨k'.1.trans h'.1, k'.2.1.trans h'.2.1, k'.2.2.trans h'.2.2⟩
  ports e := (k.ports (testBit_false_of_sub hm e)).trans (h.ports e)
  fabric e := (k.fabric (testBit_false_of_sub hm e)).trans (h.fabric e)
  colls e := (k.colls (testBit_false_of_sub hm e)).trans (h.colls e)
  ckp e := (k.ckp (testBit_false_of_sub hm e)).trans (h.ckp e)
  fov e := (k.fov (testBit_false_of_sub hm e)).trans (h.fov e)
  host e := by
    have h' := h.host e
    have k' := k.host (testBit_false_of_sub hm e)
    rw [k', h']
  due e := (k.due (testBit_false_of_sub hm e)).trans (h.due e)
  sec e := (k.sec (testBit_false_of_sub hm e)).trans (h.sec e)
  mgt e := (k.mgt (testBit_false_of_sub hm e)).trans (h.mgt e)
  regs off e := (k.regs off (testBit_false_of_sub hm e)).trans (h.regs off e)
  pending := k.pending.trans h.pending
  sound e := k.sound (h.sound e)

theorem Touch.widen (k : Touch N s t) (hm : N &&& M = N) : Touch M s t := (Touch.refl M s).to k hm

/-! ### Branches, pairs and loops -/

theorem Touch.ite {c : Prop} [Decidable c] {a b : State} (ha : Touch M s0 a) (hb : Touch M s0 b) :
    Touch M s0 (if c then a else b) := by
  split <;> assumption

theorem Touch.ite2 {α : Type} {c : Prop} [Decidable c] {a b : α × State} (ha : Touch M s0 a.2) (hb : Touch M s0 b.2) :
    Touch M s0 (if c then a else b).2 := by
  split <;> assumption

theorem Touch.ite22 {α β : Type} {c : Prop} [Decidable c] {a b : α × β × State} (ha : Touch M s0 a.2.2) (hb : Touch M s0 b.2.2) :
    Touch M s0 (if c then a else b).2.2 := by
  split <;> assumption

theorem Touch.ite222 {α β γ : Type} {c : Prop} [Decidable c] {a b : α × β × γ × State} (ha : Touch M s0 a.2.2.2) (hb : Touch M s0 b.2.2.2) :
    Touch M s0 (if c then a else b).2.2.2 := by
  split <;> assumption

theorem Touch.red1 {α : Type} {a : α} (h : Touch M s0 t) : Touch M s0 (a, t).2 := h

theorem Touch.red2 {α β : Type} {a : α} {p : β × State} (h : Touch M s0 p.2) : Touch M s0 (a, p).2.2 := h

theorem Touch.red3 {α β γ : Type} {a : α} {p : β × γ × State} (h : Touch M s0 p.2.2) : Touch M s0 (a, p).2.2.2 := h

theorem Touch.of2 {α : Type} {p : α × State} {a : α} (e : p = (a, t)) (h : Touch M s0 p.2) : Touch M s0 t := by
  subst e; exact h

theorem Touch.of22 {α β : Type} {p : α × β × State} {a : α} {b : β} (e : p = (a, b, t)) (h : Touch M s0 p.2.2) :
    Touch M s0 t := by
  subst e; exact h

theorem Touch.of222 {α β γ : Type} {p : α × β × γ × State} {a : α} {b : β} {c : γ} (e : p = (a, b, c, t))
    (h : Touch M s0 p.2.2.2) : Touch M s0 t := by
  subst e; exact h

theorem Touch.iteO {c : Prop} [Decidable c] {a b : Option State} {d : State} (ha : Touch M s0 (a.getD d))
    (hb : Touch M s0 (b.getD d)) : Touch M s0 ((if c then a else b).getD d) := by
  split <;> assumption

theorem Touch.someO {d : State} (h : Touch M s0 t) : Touch M s0 ((some t).getD d) := h

theorem Touch.ofO {o : Option State} {d : State} (e : o = some t) (h : Touch M s0 (o.getD d)) : Touch M s0 t := by
  subst e; exact h

theorem Touch.toO {o : Option State} (h : Touch M s0 s) (k : Touch N s (o.getD s)) (hm : N &&& M = N) :
    Touch M s0 (o.getD s0) := by
  cases o with
  | none => exact Touch.refl ..
  | some t => exact h.to k hm

theorem Touch.foldl {α : Type} {f : State → α → State} {l : List α} (h : Touch M s0 s)
    (hf : ∀ t a, Touch M s0 t → Touch M s0 (f t a)) : Touch M s0 (l.foldl f s) := by
  induction l generalizing s with
  | nil => exact h
  | cons a l ih => exact ih (hf s a h)

theorem Touch.foldl2 {α β : Type} {f : β × State → α → β × State} {l : List α} {p : β × State} (h : Touch M s0 p.2)
    (hf : ∀ b t a, Touch M s0 t → Touch M s0 (f (b, t) a).2) : Touch M s0 (l.foldl f p).2 := by
  induction l generalizing p with
  | nil => exact h
  | cons a l ih => exact ih (hf p.1 p.2 a h)

theorem Touch.foldl22 {α β γ : Type} {f : β × γ × State → α → β × γ × State} {l : List α} {p : β × γ × State}
    (h : Touch M s0 p.2.2) (hf : ∀ b c t a, Touch M s0 t → Touch M s0 (f (b, c, t) a).2.2) : Touch M s0 (l.foldl f p).2.2 := by
  induction l generalizing p with
  | nil => exact h
  | cons a l ih => exact ih (hf p.1 p.2.1 p.2.2 a h)

theorem Touch.foldl222 {α β γ δ : Type} {f : β × γ × δ × State → α → β × γ × δ × State} {l : List α} {p : β × γ × δ × State}
    (h : Touch M s0 p.2.2.2) (hf : ∀ b c d t a, Touch M s0 t → Touch M s0 (f (b, c, d, t) a).2.2.2) :
    Touch M s0 (l.foldl f p).2.2.2 := by
  induction l generalizing p with
  | nil => exact h
  | cons a l ih => exact ih (hf p.1 p.2.1 p.2.2.1 p.2.2.2 a h)

theorem Touch.findSome {α : Type} {f : α → Option State} {l : List α} (hf : ∀ a, Touch M s0 ((f a).getD s0))
    (e : l.findSome? f = some t) : Touch M s0 t := by
  obtain ⟨a, -, ha⟩ := List.exists_of_findSome?_eq_some e
  exact Touch.ofO ha (hf a)

/-! ### Updates of one field -/

theorem Touch.set_fresh (h : Touch M s0 t) (hm : M.testBit 1 = true) {v} : Touch M s0 { t with fresh := v } :=
  { h with
    fresh := fun e => by rw [hm] at e; cases e
    sound := fun e => ⟨(h.sound e).mem, (h.sound e).regs, (h.sound e).board⟩ }

theorem Touch.set_out (h : Touch M s0 t) (hm : M.testBit 2 = true) {v} : Touch M s0 { t with out := v } :=
  { h with
    out := fun e => by rw [hm] at e; cases e
    sound := fun e => ⟨(h.sound e).mem, (h.sound e).regs, (h.sound e).board⟩ }

theorem Touch.set_pins (h : Touch M s0 t) (hm : M.testBit 3 = true) {v} : Touch M s0 { t with pins := v } :=
  { h with
    pins := fun e => by rw [hm] at e; cases e
    sound := fun e => ⟨(h.sound e).mem, (h.sound e).regs, (h.sound e).board⟩ }

theorem Touch.set_suppressed (h : Touch M s0 t) (hm : M.testBit 4 = true) {v} : Touch M s0 { t with suppressed := v } :=
  { h with
    board := fun e => by rw [hm] at e; cases e
    sound := fun e => ⟨(h.sound e).mem, (h.sound e).regs, (h.sound e).board⟩ }

theorem Touch.set_queues (h : Touch M s0 t) (hm : M.testBit 5 = true) {v} : Touch M s0 { t with queues := v } :=
  { h with
    queues := fun e => by rw [hm] at e; cases e
    sound := fun e => ⟨(h.sound e).mem, (h.sound e).regs, (h.sound e).board⟩ }

theorem Touch.set_rr (h : Touch M s0 t) (hm : M.testBit 5 = true) {v} : Touch M s0 { t with rr := v } :=
  { h with
    queues := fun e => by rw [hm] at e; cases e
    sound := fun e => ⟨(h.sound e).mem, (h.sound e).regs, (h.sound e).board⟩ }

theorem Touch.set_waiting (h : Touch M s0 t) (hm : M.testBit 5 = true) {v} : Touch M s0 { t with waiting := v } :=
  { h with
    queues := fun e => by rw [hm] at e; cases e
    sound := fun e => ⟨(h.sound e).mem, (h.sound e).regs, (h.sound e).board⟩ }

theorem Touch.set_nextCue (h : Touch M s0 t) (hm : M.testBit 5 = true) {v} : Touch M s0 { t with nextCue := v } :=
  { h with
    queues := fun e => by rw [hm] at e; cases e
    sound := fun e => ⟨(h.sound e).mem, (h.sound e).regs, (h.sound e).board⟩ }

theorem Touch.set_ops (h : Touch M s0 t) (hm : M.testBit 6 = true) {v} : Touch M s0 { t with ops := v } :=
  { h with
    ops := fun e => by rw [hm] at e; cases e
    sound := fun e => ⟨(h.sound e).mem, (h.sound e).regs, (h.sound e).board⟩ }

theorem Touch.set_jobs (h : Touch M s0 t) (hm : M.testBit 7 = true) {v} : Touch M s0 { t with jobs := v } :=
  { h with
    jobs := fun e => by rw [hm] at e; cases e
    sound := fun e => ⟨(h.sound e).mem, (h.sound e).regs, (h.sound e).board⟩ }

theorem Touch.set_tiles (h : Touch M s0 t) (hm : M.testBit 8 = true) {v} : Touch M s0 { t with tiles := v } :=
  { h with
    array := fun e => by rw [hm] at e; cases e
    sound := fun e => ⟨(h.sound e).mem, (h.sound e).regs, (h.sound e).board⟩ }

theorem Touch.set_sets (h : Touch M s0 t) (hm : M.testBit 8 = true) {v} : Touch M s0 { t with sets := v } :=
  { h with
    array := fun e => by rw [hm] at e; cases e
    sound := fun e => ⟨(h.sound e).mem, (h.sound e).regs, (h.sound e).board⟩ }

theorem Touch.set_heldTiles (h : Touch M s0 t) (hm : M.testBit 8 = true) {v} : Touch M s0 { t with heldTiles := v } :=
  { h with
    array := fun e => by rw [hm] at e; cases e
    sound := fun e => ⟨(h.sound e).mem, (h.sound e).regs, (h.sound e).board⟩ }

theorem Touch.set_cells (h : Touch M s0 t) (hm : M.testBit 8 = true) {v} : Touch M s0 { t with cells := v } :=
  { h with
    array := fun e => by rw [hm] at e; cases e
    sound := fun e => ⟨(h.sound e).mem, (h.sound e).regs, (h.sound e).board⟩ }

theorem Touch.set_captures (h : Touch M s0 t) (hm : M.testBit 8 = true) {v} : Touch M s0 { t with captures := v } :=
  { h with
    array := fun e => by rw [hm] at e; cases e
    sound := fun e => ⟨(h.sound e).mem, (h.sound e).regs, (h.sound e).board⟩ }

theorem Touch.set_rng (h : Touch M s0 t) (hm : M.testBit 9 = true) {v} : Touch M s0 { t with rng := v } :=
  { h with
    rng := fun e => by rw [hm] at e; cases e
    sound := fun e => ⟨(h.sound e).mem, (h.sound e).regs, (h.sound e).board⟩ }

theorem Touch.set_banks (h : Touch M s0 t) (hm : M.testBit 10 = true) {v} : Touch M s0 { t with banks := v } :=
  { h with
    banks := fun e => by rw [hm] at e; cases e
    sound := fun e => ⟨(h.sound e).mem, (h.sound e).regs, (h.sound e).board⟩ }

theorem Touch.set_hbmStacks (h : Touch M s0 t) (hm : M.testBit 11 = true) {v} : Touch M s0 { t with hbmStacks := v } :=
  { h with
    outer := fun e => by rw [hm] at e; cases e
    sound := fun e => ⟨(h.sound e).mem, (h.sound e).regs, (h.sound e).board⟩ }

theorem Touch.set_channels (h : Touch M s0 t) (hm : M.testBit 11 = true) {v} : Touch M s0 { t with channels := v } :=
  { h with
    outer := fun e => by rw [hm] at e; cases e
    sound := fun e => ⟨(h.sound e).mem, (h.sound e).regs, (h.sound e).board⟩ }

theorem Touch.set_voided (h : Touch M s0 t) (hm : M.testBit 11 = true) {v} : Touch M s0 { t with voided := v } :=
  { h with
    outer := fun e => by rw [hm] at e; cases e
    sound := fun e => ⟨(h.sound e).mem, (h.sound e).regs, (h.sound e).board⟩ }

theorem Touch.set_badAt (h : Touch M s0 t) (hm : M.testBit 4 = true) {v} : Touch M s0 { t with badAt := v } :=
  { h with
    badAt := fun e => by rw [hm] at e; cases e
    sound := fun e => ⟨(h.sound e).mem, (h.sound e).regs, (h.sound e).board⟩ }

theorem Touch.set_ports (h : Touch M s0 t) (hm : M.testBit 12 = true) {v} : Touch M s0 { t with ports := v } :=
  { h with
    ports := fun e => by rw [hm] at e; cases e
    sound := fun e => ⟨(h.sound e).mem, (h.sound e).regs, (h.sound e).board⟩ }

theorem Touch.set_fabric (h : Touch M s0 t) (hm : M.testBit 13 = true) {v} : Touch M s0 { t with fabric := v } :=
  { h with
    fabric := fun e => by rw [hm] at e; cases e
    sound := fun e => ⟨(h.sound e).mem, (h.sound e).regs, (h.sound e).board⟩ }

theorem Touch.set_colls (h : Touch M s0 t) (hm : M.testBit 14 = true) {v} : Touch M s0 { t with colls := v } :=
  { h with
    colls := fun e => by rw [hm] at e; cases e
    sound := fun e => ⟨(h.sound e).mem, (h.sound e).regs, (h.sound e).board⟩ }

theorem Touch.set_ckp (h : Touch M s0 t) (hm : M.testBit 15 = true) {v} : Touch M s0 { t with ckp := v } :=
  { h with
    ckp := fun e => by rw [hm] at e; cases e
    sound := fun e => ⟨(h.sound e).mem, (h.sound e).regs, (h.sound e).board⟩ }

theorem Touch.set_fov (h : Touch M s0 t) (hm : M.testBit 16 = true) {v} : Touch M s0 { t with fov := v } :=
  { h with
    fov := fun e => by rw [hm] at e; cases e
    sound := fun e => ⟨(h.sound e).mem, (h.sound e).regs, (h.sound e).board⟩ }

theorem Touch.set_sec (h : Touch M s0 t) (hm : M.testBit 18 = true) {v} : Touch M s0 { t with sec := v } :=
  { h with
    sec := fun e => by rw [hm] at e; cases e
    sound := fun e => ⟨(h.sound e).mem, (h.sound e).regs, (h.sound e).board⟩ }

theorem Touch.set_mgt (h : Touch M s0 t) (hm : M.testBit 19 = true) {v} : Touch M s0 { t with mgt := v } :=
  { h with
    mgt := fun e => by rw [hm] at e; cases e
    sound := fun e => ⟨(h.sound e).mem, (h.sound e).regs, (h.sound e).board⟩ }

theorem Touch.set_board (h : Touch M s0 t) (hm : M.testBit 4 = true) {v} (hv : t.board.length ≤ 4096 → v.length ≤ 4096) :
    Touch M s0 { t with board := v } :=
  { h with
    board := fun e => by rw [hm] at e; cases e
    sound := fun e => ⟨(h.sound e).mem, (h.sound e).regs, hv (h.sound e).board⟩ }

theorem Touch.set_host (h : Touch M s0 t) (hm : M.testBit 17 = true) (hd : M.testBit 37 = true) {v} :
    Touch M s0 { t with host := v } :=
  { h with
    host := fun e => by rw [hm] at e; cases e
    due := fun e => by rw [hd] at e; cases e
    sound := fun e => ⟨(h.sound e).mem, (h.sound e).regs, (h.sound e).board⟩ }

theorem Touch.set_due (h : Touch M s0 t) (hd : M.testBit 37 = true) {v} :
    Touch M s0 { t with host := { t.host with due := v } } :=
  { h with
    host := fun e => by
      have := h.host e
      show { t.host with due := v } = _
      rw [this]
    due := fun e => by rw [hd] at e; cases e
    sound := fun e => ⟨(h.sound e).mem, (h.sound e).regs, (h.sound e).board⟩ }

theorem Touch.set_mem (h : Touch M s0 t) (hm : M.testBit 0 = true) (hf : M.testBit 36 = true) {v}
    (hv : Memory.wf t.mem = true → Memory.wf v = true) : Touch M s0 { t with mem := v } :=
  { h with
    mem := fun e => by rw [hm] at e; cases e
    far := fun e => by rw [hf] at e; cases e
    sound := fun e => ⟨hv (h.sound e).mem, (h.sound e).regs, (h.sound e).board⟩ }

theorem Touch.set_pending {p} (h : Touch M s0 t) : Touch M { s0 with pending := p } { t with pending := p } :=
  { h with
    pending := rfl
    sound := fun e =>
      have e' := h.sound ⟨e.mem, e.regs, e.board⟩
      ⟨e'.mem, e'.regs, e'.board⟩ }

/-! ### Registers -/

theorem wr_touch (s : State) (off v : Nat) : Touch (2 ^ regArea off) s (s.wr off v) := by
  have r := Touch.refl (2 ^ regArea off) s
  rw [State.wr_eq]
  refine { r with regs := fun off' e => ?_, sound := fun h => ⟨h.mem, ?_, h.board⟩ }
  · rw [← State.wr_eq]
    refine State.rd_wr_other s v fun eq => ?_
    subst eq
    rw [Nat.testBit_two_pow_self] at e
    cases e
  · have := regsWf_wr (s := s) off v h.regs
    rw [State.wr_eq] at this
    exact this

theorem setF_touch (s : State) (f : Fld) (v : Nat) : Touch (2 ^ regArea f.off) s (s.setF f v) := wr_touch ..

theorem addF_touch (s : State) (f : Fld) (n : Nat) : Touch (2 ^ regArea f.off) s (s.addF f n) := setF_touch ..

theorem inc_touch (s : State) (f : Fld) : Touch (2 ^ regArea f.off) s (s.inc f) := addF_touch ..

theorem regArea_lt (off : Nat) : 20 ≤ regArea off ∧ regArea off < 36 :=
  ⟨Nat.le_add_right .., Nat.add_lt_add_left (lt_of_le_of_lt List.countP_le_length (show blockEnds.length < 16 by decide)) 20⟩

/-- A write whose offset is not known touches registers only. -/
theorem wr_touch_any (s : State) (off v : Nat) : Touch 0xFFFF00000 s (s.wr off v) :=
  (wr_touch s off v).widen (by
    obtain ⟨h1, h2⟩ := regArea_lt off
    generalize regArea off = k at *
    interval_cases k <;> rfl)

theorem setF_touch_any (s : State) (f : Fld) (v : Nat) : Touch 0xFFFF00000 s (s.setF f v) := wr_touch_any ..

theorem addF_touch_any (s : State) (f : Fld) (n : Nat) : Touch 0xFFFF00000 s (s.addF f n) := setF_touch_any ..

theorem inc_touch_any (s : State) (f : Fld) : Touch 0xFFFF00000 s (s.inc f) := addF_touch_any ..

theorem wr_touch_in (s : State) (off v : Nat) {k : Nat} (h : regArea off = k) : Touch (2 ^ k) s (s.wr off v) := h ▸ wr_touch ..

theorem setF_touch_in (s : State) (f : Fld) (v : Nat) {k : Nat} (h : regArea f.off = k) : Touch (2 ^ k) s (s.setF f v) :=
  h ▸ setF_touch ..

theorem addF_touch_in (s : State) (f : Fld) (n : Nat) {k : Nat} (h : regArea f.off = k) : Touch (2 ^ k) s (s.addF f n) :=
  h ▸ addF_touch ..

theorem inc_touch_in (s : State) (f : Fld) {k : Nat} (h : regArea f.off = k) : Touch (2 ^ k) s (s.inc f) := h ▸ inc_touch ..

theorem clearRegs_touch {k : Nat} (s : State) (off step n : Nat) (h : ∀ i < n, regArea (off + step * i) = k) :
    Touch (2 ^ k) s (s.clearRegs off step n) := by
  unfold State.clearRegs
  have : ∀ l : List Nat, (∀ i ∈ l, i < n) → ∀ t, Touch (2 ^ k) s t → Touch (2 ^ k) s (l.foldl (fun s i => s.wr (off + step * i) 0) t) := by
    intro l
    induction l with
    | nil => exact fun _ _ ht => ht
    | cons i l ih =>
      intro hl t ht
      refine ih (fun j hj => hl j (List.mem_cons_of_mem _ hj)) _ ?_
      have : Touch (2 ^ k) t (t.wr (off + step * i) 0) := by
        rw [← h i (hl i (List.mem_cons_self ..))]; exact wr_touch ..
      exact ht.to this (Nat.and_self _)
  exact this _ (fun i hi => List.mem_range.1 hi) s (Touch.refl ..)

theorem regArea_eq {off lo hi k : Nat} (h : lo ≤ off ∧ off < hi) (hk : regArea lo = k)
    (hb : (blockEnds.all fun b => decide (b ≤ lo) || decide (hi ≤ b)) = true) : regArea off = k := by
  rw [← hk]
  unfold regArea
  refine congrArg _ (List.countP_congr fun b hmem => ?_)
  have := List.all_eq_true.1 hb b hmem
  simp only [Bool.or_eq_true, decide_eq_true_eq] at *
  omega

theorem setJf_touch (s : State) (j : Nat) (f : Fld) (v : Nat) (hf : 0x40100 ≤ f.off ∧ f.off < 0x40200) :
    Touch (2 ^ 23) s (s.setJf j f v) := by
  unfold State.setJf
  split
  · exact setF_touch_in _ _ _ (regArea_eq (lo := 0x40000) (hi := 0x80000) (by simp only [Fld.plus]; omega) rfl (by decide))
  · exact Touch.refl ..

theorem setBf_touch (s : State) (b : Nat) (f : Fld) (v : Nat) (hf : 0x300000 ≤ f.off ∧ f.off < 0x300040) :
    Touch (2 ^ 30) s (s.setBf b f v) := by
  unfold State.setBf
  split
  · exact setF_touch_in _ _ _ (regArea_eq (lo := 0x300000) (hi := 0x400000) (by simp only [Fld.plus]; omega) rfl (by decide))
  · exact Touch.refl ..

theorem addBf_touch (s : State) (b : Nat) (f : Fld) (n : Nat) (hf : 0x300000 ≤ f.off ∧ f.off < 0x300040) :
    Touch (2 ^ 30) s (s.addBf b f n) := by
  unfold State.addBf
  split
  · exact addF_touch_in _ _ _ (regArea_eq (lo := 0x300000) (hi := 0x400000) (by simp only [Fld.plus]; omega) rfl (by decide))
  · exact Touch.refl ..

theorem setStackF_touch (s : State) (i : Nat) (f : Fld) (v : Nat) (hf : 0x200100 ≤ f.off ∧ f.off < 0x200140) :
    Touch (2 ^ 29) s (s.setStackF i f v) := by
  unfold State.setStackF
  split
  · exact setF_touch_in _ _ _ (regArea_eq (lo := 0x200000) (hi := 0x300000) (by simp only [Fld.plus]; omega) rfl (by decide))
  · exact Touch.refl ..

theorem addStackF_touch (s : State) (i : Nat) (f : Fld) (n : Nat) (hf : 0x200100 ≤ f.off ∧ f.off < 0x200140) :
    Touch (2 ^ 29) s (s.addStackF i f n) := by
  unfold State.addStackF
  split
  · exact addF_touch_in _ _ _ (regArea_eq (lo := 0x200000) (hi := 0x300000) (by simp only [Fld.plus]; omega) rfl (by decide))
  · exact Touch.refl ..

theorem setChanF_touch (s : State) (i : Nat) (f : Fld) (v : Nat) (hf : 0x200300 ≤ f.off ∧ f.off < 0x200340) :
    Touch (2 ^ 29) s (s.setChanF i f v) := by
  unfold State.setChanF
  split
  · exact setF_touch_in _ _ _ (regArea_eq (lo := 0x200000) (hi := 0x300000) (by simp only [Fld.plus]; omega) rfl (by decide))
  · exact Touch.refl ..

theorem addChanF_touch (s : State) (i : Nat) (f : Fld) (n : Nat) (hf : 0x200300 ≤ f.off ∧ f.off < 0x200340) :
    Touch (2 ^ 29) s (s.addChanF i f n) := by
  unfold State.addChanF
  split
  · exact addF_touch_in _ _ _ (regArea_eq (lo := 0x200000) (hi := 0x300000) (by simp only [Fld.plus]; omega) rfl (by decide))
  · exact Touch.refl ..

theorem setEf_touch (s : State) (e : Nat) (f : Fld) (v : Nat) (hf : 0x480000 ≤ f.off ∧ f.off < 0x480400) :
    Touch (2 ^ 32) s (s.setEf e f v) := by
  unfold State.setEf
  split
  · exact setF_touch_in _ _ _ (regArea_eq (lo := 0x480000) (hi := 0x500000) (by simp only [Fld.plus]; omega) rfl (by decide))
  · exact Touch.refl ..

theorem addEf_touch (s : State) (e : Nat) (f : Fld) (n : Nat) (hf : 0x480000 ≤ f.off ∧ f.off < 0x480400) :
    Touch (2 ^ 32) s (s.addEf e f n) := by
  unfold State.addEf
  split
  · exact addF_touch_in _ _ _ (regArea_eq (lo := 0x480000) (hi := 0x500000) (by simp only [Fld.plus]; omega) rfl (by decide))
  · exact Touch.refl ..

theorem setPf_touch (s : State) (p : Nat) (f : Fld) (v : Nat) (hf : 0x100000 ≤ f.off ∧ f.off < 0x110000) :
    Touch (2 ^ 28) s (s.setPf p f v) := by
  unfold State.setPf
  split
  · exact setF_touch_in _ _ _ (regArea_eq (lo := 0x100000) (hi := 0x200000) (by simp only [Fld.plus]; omega) rfl (by decide))
  · exact Touch.refl ..

theorem addPf_touch (s : State) (p : Nat) (f : Fld) (n : Nat) (hf : 0x100000 ≤ f.off ∧ f.off < 0x110000) :
    Touch (2 ^ 28) s (s.addPf p f n) := by
  unfold State.addPf
  split
  · exact addF_touch_in _ _ _ (regArea_eq (lo := 0x100000) (hi := 0x200000) (by simp only [Fld.plus]; omega) rfl (by decide))
  · exact Touch.refl ..

theorem wrBank_touch (s : State) (b off v : Nat) (hf : 0x300000 ≤ off ∧ off < 0x300040) :
    Touch (2 ^ 30) s (s.wrBank b off v) := by
  unfold State.wrBank
  split
  · exact wr_touch_in _ _ _ (regArea_eq (lo := 0x300000) (hi := 0x400000) (by omega) rfl (by decide))
  · exact Touch.refl ..

theorem wrEng_touch (s : State) (e off v : Nat) (hf : 0x480000 ≤ off ∧ off < 0x480400) :
    Touch (2 ^ 32) s (s.wrEng e off v) := by
  unfold State.wrEng
  split
  · exact wr_touch_in _ _ _ (regArea_eq (lo := 0x480000) (hi := 0x500000) (by omega) rfl (by decide))
  · exact Touch.refl ..

theorem wrPort_touch (s : State) (p off v : Nat) (hf : 0x100000 ≤ off ∧ off < 0x110000) :
    Touch (2 ^ 28) s (s.wrPort p off v) := by
  unfold State.wrPort
  split
  · exact wr_touch_in _ _ _ (regArea_eq (lo := 0x100000) (hi := 0x200000) (by omega) rfl (by decide))
  · exact Touch.refl ..

theorem wrOwner_touch (s : State) (b port v : Nat) : Touch (2 ^ 30) s (s.wrOwner b port v) := by
  unfold State.wrOwner
  split
  · exact wrBank_touch _ _ _ _ (by simp only [Reg.ownerA]; omega)
  · exact Touch.refl ..

theorem wrRemap_touch (s : State) (b k v : Nat) : Touch (2 ^ 30) s (s.wrRemap b k v) := by
  unfold State.wrRemap
  split
  · exact wrBank_touch _ _ _ _ (by simp only [Reg.bankRemap]; omega)
  · exact Touch.refl ..

theorem setPba_touch (s : State) (v x : Nat) : Touch (2 ^ 20) s (s.setPba v x) := by
  unfold State.setPba
  split
  · exact setF_touch_in _ _ _ (regArea_eq (lo := 0) (hi := 0x10000) (by simp only [pbaFld, Reg.pba]; omega) rfl (by decide))
  · exact Touch.refl ..

theorem wrMask_touch (s : State) (v x : Nat) : Touch (2 ^ 20) s (s.wrMask v x) := by
  unfold State.wrMask
  split
  · exact wr_touch_in _ _ _ (regArea_eq (lo := 0) (hi := 0x10000) (by simp only [Reg.msixTable]; omega) rfl (by decide))
  · exact Touch.refl ..

theorem clearWin_touch (s : State) (off stride count i step n : Nat) {k lo hi : Nat}
    (hlo : lo ≤ off) (hhi : off + stride * count + step * n ≤ hi + stride) (hs : 0 < step)
    (hk : regArea lo = k)
    (hb : (blockEnds.all fun b => decide (b ≤ lo) || decide (hi ≤ b)) = true) : Touch (2 ^ k) s (s.clearWin off stride count i step n) := by
  unfold State.clearWin
  split
  · rename_i hi'
    refine clearRegs_touch _ _ _ _ fun j hj => regArea_eq ⟨?_, ?_⟩ hk hb
    · exact le_trans hlo (le_trans (Nat.le_add_right ..) (Nat.le_add_right ..))
    · have h1 : stride * i + stride ≤ stride * count := by
        rw [← Nat.mul_succ]; exact Nat.mul_le_mul_left _ hi'
      have h2 : step * j + step ≤ step * n := by
        rw [← Nat.mul_succ]; exact Nat.mul_le_mul_left _ hj
      omega
  · exact Touch.refl ..

theorem clearJob_touch (s : State) (slot : Nat) : Touch (2 ^ 23) s (s.clearJob slot) :=
  clearWin_touch (lo := 0x40000) (hi := 0x80000) _ _ _ _ _ _ _ (by decide) (by decide) (by decide) rfl (by decide)

theorem clearPort_touch (s : State) (p : Nat) : Touch (2 ^ 28) s (s.clearPort p) :=
  clearWin_touch (lo := 0x100000) (hi := 0x200000) _ _ _ _ _ _ _ (by decide) (by decide) (by decide) rfl (by decide)

theorem clearEng_touch (s : State) (e off n : Nat) (hlo : 0x480000 ≤ off) (hhi : off + 8 * n ≤ 0x480400) :
    Touch (2 ^ 32) s (s.clearEng e off n) :=
  clearWin_touch (lo := 0x480000) (hi := 0x500000) _ _ _ _ _ _ _ hlo (by omega) (by decide) rfl (by decide)

theorem unitCount_le (cls : Nat) : unitCount cls ≤ 4096 := by
  unfold unitCount
  split <;> decide

theorem wrUnit_touch (s : State) (u v : Nat) : Touch (2 ^ 31) s (s.wrUnit u v) := by
  unfold State.wrUnit
  split
  · rename_i h
    refine wr_touch_in _ _ _ (regArea_eq (lo := 0x400000) (hi := 0x480000) ?_ rfl (by decide))
    simp only [unitValid, Bool.and_eq_true, decide_eq_true_eq] at h
    unfold unitOff
    omega
  · exact Touch.refl ..

/-! ### The frame of a command -/

theorem run_touch {ok : Bool} {f : State → State} {s t : State} (e : run ok f s = .next t) (hm : M.testBit 2 = true)
    (hf : ∀ u, Touch M u (f u)) : Touch M s t := by
  unfold run at e
  split at e
  · simp only [Host.Outcome.next.injEq] at e
    subst e
    have k := (Touch.set_out (M := M) (v := []) (Touch.refl M s) hm).to (hf _) (Nat.and_self _)
    exact { k with pending := rfl, sound := fun h => ⟨(k.sound h).mem, (k.sound h).regs, (k.sound h).board⟩ }
  · cases e

/-! ### Memory -/

theorem putBytes_touch (s : State) (a : Nat) (bs : List Byte) : Touch 0x1000000001 s (s.putBytes a bs) :=
  Touch.set_mem (Touch.refl ..) rfl rfl fun h => SMap.wf_setAll _ h

theorem putNum_touch (s : State) (a k v : Nat) : Touch 0x1000000001 s (s.putNum a k v) := putBytes_touch ..

theorem zeroBytes_touch (s : State) (a n : Nat) : Touch 0x1000000001 s (s.zeroBytes a n) :=
  Touch.set_mem (Touch.refl ..) rfl rfl fun h => SMap.wf_filter _ h

theorem State.byte_putBytes_other (s : State) (a b : Nat) (bs : List Byte) (h : b < a ∨ a + bs.length ≤ b) :
    (s.putBytes a bs).byte b = s.byte b := by
  unfold State.putBytes State.byte
  refine SMap.get_setAll_other _ _ _ _ fun e he => ?_
  simp only [List.mem_map] at he
  obtain ⟨p, hp, rfl⟩ := he
  have := List.mem_range.1 (List.of_mem_zip hp).1
  show a + p.1 ≠ b
  omega

theorem putFar_touch (s : State) (a : Nat) (bs : List Byte) : Touch 0x1000000000 s (s.putFar a bs) := by
  unfold State.putFar
  split
  · rename_i ha
    have k := putBytes_touch s a bs
    exact { k with
      mem := fun _ b hb => State.byte_putBytes_other s a b bs (.inl (lt_of_lt_of_le hb ha))
      far := fun e => absurd e (by decide)
      fresh := fun _ => rfl
      out := fun _ => rfl
      pins := fun _ => rfl
      board := fun _ => ⟨rfl, rfl⟩
      badAt := fun _ => rfl
      queues := fun _ => ⟨rfl, rfl, rfl, rfl⟩
      ops := fun _ => rfl
      jobs := fun _ => rfl
      array := fun _ => ⟨rfl, rfl, rfl, rfl, rfl⟩
      rng := fun _ => rfl
      banks := fun _ => rfl
      outer := fun _ => ⟨rfl, rfl, rfl⟩
      ports := fun _ => rfl
      fabric := fun _ => rfl
      colls := fun _ => rfl
      ckp := fun _ => rfl
      fov := fun _ => rfl
      host := fun _ => rfl
      due := fun _ => rfl
      sec := fun _ => rfl
      mgt := fun _ => rfl
      regs := fun _ _ => rfl }
  · exact Touch.refl ..

end Sys2Proof.Machine
end

