-- ==== Sys2Proof/Laws/TouchAttempt.lean ====
section
/-!
SUPPORT. The footprint of every operation of registers, events, units, memory, ports, operands and attempts: once per operation, the areas it can change.
-/
namespace Sys2Proof.Machine

open Sys2Proof

/-! ### Ops -/

theorem emit_touch (s o) : Touch 4 s (State.emit s o) := by
  unfold State.emit
  exact Touch.set_out (Touch.refl ..) rfl

theorem draw_touch (s : State) : Touch 2 s s.draw.2 := Touch.set_fresh (Touch.refl ..) rfl

theorem signal_touch (s : State) (v : Nat) : Touch 0x2000000000 s (s.signal v) := Touch.set_due (Touch.refl ..) rfl

theorem copyToHost_touch (s r) : Touch 69258444800 s (State.copyToHost s r) := by
  unfold State.copyToHost
  refine Touch.ite ?_ ?_
  · extract_lets n0 s1
    have h2 : Touch 69258444800 s s1 := (Touch.refl ..).to (putFar_touch ..) rfl
    clear_value s1
    clear_value n0
    refine Touch.ite ?_ ?_
    · exact ((h2).to (addF_touch_in (k := 29) _ _ _ rfl) rfl).to (setF_touch_in (k := 21) _ _ _ rfl) rfl
    · exact ((Touch.refl ..).to (inc_touch_in (k := 21) _ _ rfl) rfl).to (setF_touch_in (k := 21) _ _ _ rfl) rfl
  · exact Touch.refl ..

theorem record_touch (s : State) (sev code unit : Nat) (args : List Nat) (status gen : Nat) :
    Touch 0x3020200016 s (s.record sev code unit args status gen) := by
  unfold State.record
  refine Touch.ite ?_ (Touch.refl ..)
  split
  rename_i us t heq
  have h : Touch 0x3020200016 s t := Touch.of2 heq ((Touch.refl ..).to (draw_touch s) rfl)
  extract_lets key sup j r full s1 s2 s3 s4 s5
  have h1 : Touch 0x3020200016 s s1 := by
    refine Touch.to (N := 0x3020200016) h { Touch.refl _ t with
      board := fun e => absurd e (by decide), sound := fun e => ⟨e.mem, e.regs, ?_⟩ } (Nat.and_self _)
    have e' : t.board.length ≤ 4096 := e.board
    show ((if full then t.board.drop 1 else t.board) ++ [r]).length ≤ 4096
    by_cases hf : full
    · rw [if_pos hf]; simp; omega
    · rw [if_neg hf]
      have : ¬ 4096 ≤ t.board.length := fun hc => hf hc
      simp; omega
  clear_value s1
  have h2 : Touch 0x3020200016 s s2 := (h1.to (wr_touch_in (k := 21) _ _ _ rfl) rfl).to (inc_touch_in (k := 21) _ _ rfl) rfl
  clear_value s2
  have h3 : Touch 0x3020200016 s s3 := Touch.ite
    (((h2.to (inc_touch_in (k := 21) _ _ rfl) rfl).to (setF_touch_in (k := 21) _ _ _ rfl) rfl).to (wr_touch_in (k := 21) _ _ _ rfl) rfl)
    (h2.to (wr_touch_in (k := 21) _ _ _ rfl) rfl)
  clear_value s3
  have h4 : Touch 0x3020200016 s s4 := Touch.ite (Touch.set_out h3 rfl) h3
  clear_value s4
  have h5 : Touch 0x3020200016 s s5 := Touch.ite (h4.to (signal_touch ..) rfl) h4
  exact h5.to (copyToHost_touch ..) rfl

theorem event_touch (s code unit args status) : Touch 206697398294 s (State.event s code unit args status) := by
  unfold State.event
  exact (Touch.refl ..).to (record_touch ..) rfl

theorem suppress_touch (s code unit) : Touch 16 s (State.suppress s code unit) := by
  unfold State.suppress
  extract_lets key0
  clear_value key0
  exact Touch.set_suppressed (Touch.refl ..) rfl

theorem setFault_touch (s low) : Touch 17179869188 s (State.setFault s low) := by
  unfold State.setFault
  refine Touch.ite ?_ ?_
  · exact Touch.refl ..
  · exact ((Touch.refl ..).to (setF_touch_in (k := 34) _ _ _ rfl) rfl).to (emit_touch ..) rfl

theorem setTherm_touch (s low) : Touch 17179869188 s (State.setTherm s low) := by
  unfold State.setTherm
  refine Touch.ite ?_ ?_
  · exact Touch.refl ..
  · exact ((Touch.refl ..).to (setF_touch_in (k := 34) _ _ _ rfl) rfl).to (emit_touch ..) rfl

theorem setEntry_touch (s u cause source pend prior st) : Touch 208844881942 s (State.setEntry s u cause source pend prior st) := by
  unfold State.setEntry
  extract_lets gen0 s1
  have h2 : Touch 208844881942 s s1 := ((Touch.refl ..).to (setF_touch_in (k := 31) _ _ _ rfl) rfl).to (wrUnit_touch ..) rfl
  clear_value s1
  clear_value gen0
  exact (h2).to (record_touch ..) rfl

theorem lendCluster_touch (s c) : Touch 206730952726 s (State.lendCluster s c) := by
  unfold State.lendCluster
  extract_lets want0 may1 use2 shown3 s4
  have h5 : Touch 206730952726 s s4 := (Touch.refl ..).to (wr_touch_in (k := 25) _ _ _ rfl) rfl
  clear_value s4
  clear_value shown3
  clear_value use2
  clear_value may1
  clear_value want0
  refine Touch.ite ?_ ?_
  · exact (h5).to (event_touch ..) rfl
  · exact h5

theorem lend_touch (s) : Touch 206730952726 s (State.lend s) := by
  unfold State.lend
  refine Touch.foldl ?_ (fun t0 a1 h2 => ?_)
  · exact Touch.refl ..
  · exact (h2).to (lendCluster_touch ..) rfl

theorem relend_touch (s e) : Touch 206730952726 s (State.relend s e) := by
  unfold State.relend
  extract_lets st0
  clear_value st0
  refine Touch.ite ?_ ?_
  · exact (Touch.refl ..).to (lendCluster_touch ..) rfl
  · exact Touch.refl ..

theorem putUnit_touch (s u st cause source prior) : Touch 208845406230 s (State.putUnit s u st cause source prior) := by
  unfold State.putUnit
  extract_lets pend0 dropped1 path2 s3 src4 s5
  have h6 : Touch 208845406230 s s3 := (Touch.refl ..).to (setEntry_touch ..) rfl
  clear_value s3
  have h7 : Touch 208845406230 s s5 := Touch.set_mgt (h6) rfl
  clear_value s5
  clear_value src4
  clear_value path2
  clear_value dropped1
  clear_value pend0
  refine Touch.ite ?_ ?_
  · exact (h7).to (event_touch ..) rfl
  · exact h6

theorem setUnit_touch (s u st cause source prior) : Touch 208878960662 s (State.setUnit s u st cause source prior) := by
  unfold State.setUnit
  extract_lets s0
  have h1 : Touch 208878960662 s s0 := (Touch.refl ..).to (putUnit_touch ..) rfl
  clear_value s0
  refine Touch.ite ?_ ?_
  · exact (h1).to (relend_touch ..) rfl
  · exact h1

theorem stopPattern_touch (s u outcome) : Touch 262144 s (State.stopPattern s u outcome) := by
  unfold State.stopPattern
  split
  · rename_i x0 t1 heq2
    exact Touch.set_sec (Touch.refl ..) rfl
  · rename_i x3 heq4
    exact Touch.refl ..

theorem discardWrite_touch (s off v reason) : Touch 206697398294 s (State.discardWrite s off v reason) := by
  unfold State.discardWrite
  exact (Touch.refl ..).to (event_touch ..) rfl

theorem setJob_touch (s j job) : Touch 128 s (State.setJob s j job) := by
  unfold State.setJob
  exact Touch.set_jobs (Touch.refl ..) rfl

theorem modJob_touch (s j f) : Touch 128 s (State.modJob s j f) := by
  unfold State.modJob
  split
  · rename_i x0 job1 heq2
    exact (Touch.refl ..).to (setJob_touch ..) rfl
  · rename_i x3 heq4
    exact Touch.refl ..

theorem setPort_touch (s p x) : Touch 4096 s (State.setPort s p x) := by
  unfold State.setPort
  exact Touch.set_ports (Touch.refl ..) rfl

theorem modPort_touch (s p f) : Touch 4096 s (State.modPort s p f) := by
  unfold State.modPort
  exact (Touch.refl ..).to (setPort_touch ..) rfl

theorem setBank_touch (s b x) : Touch 1024 s (State.setBank s b x) := by
  unfold State.setBank
  exact Touch.set_banks (Touch.refl ..) rfl

theorem setStack_touch (s i x) : Touch 2048 s (State.setStack s i x) := by
  unfold State.setStack
  exact Touch.set_hbmStacks (Touch.refl ..) rfl

theorem setChannel_touch (s i x) : Touch 2048 s (State.setChannel s i x) := by
  unfold State.setChannel
  exact Touch.set_channels (Touch.refl ..) rfl

theorem setQueue_touch (s q x) : Touch 32 s (State.setQueue s q x) := by
  unfold State.setQueue
  exact Touch.set_queues (Touch.refl ..) rfl

/-! ### Memory -/

theorem giveBank_touch (s b port kind index) : Touch 1073741824 s (State.giveBank s b port kind index) := by
  unfold State.giveBank
  exact (Touch.refl ..).to (wrOwner_touch ..) rfl

theorem bankUse_touch (s b cause source) : Touch 208845406230 s (State.bankUse s b cause source) := by
  unfold State.bankUse
  extract_lets u0 owned1 st2
  clear_value st2
  clear_value owned1
  clear_value u0
  refine Touch.ite ?_ ?_
  · exact (Touch.refl ..).to (putUnit_touch ..) rfl
  · refine Touch.ite ?_ ?_
    · exact (Touch.refl ..).to (putUnit_touch ..) rfl
    · exact Touch.refl ..

theorem denyBank_touch (s b r byte) : Touch 207771141142 s (State.denyBank s b r byte) := by
  unfold State.denyBank
  extract_lets s0 s1 x2
  have h3 : Touch 207771141142 s s0 := (((Touch.refl ..).to (addBf_touch _ _ _ _ (by decide)) rfl).to (inc_touch_in (k := 30) _ _ rfl) rfl).to (wrBank_touch _ _ _ _ (by decide)) rfl
  clear_value s0
  have h4 : Touch 207771141142 s s1 := Touch.set_badAt (h3) rfl
  clear_value s1
  clear_value x2
  refine Touch.ite ?_ ?_
  · exact (h4).to (suppress_touch ..) rfl
  · exact ((h4).to (setBank_touch ..) rfl).to (event_touch ..) rfl

theorem initBank_touch (s b) : Touch 68719477761 s (State.initBank s b) := by
  unfold State.initBank
  extract_lets x0
  clear_value x0
  exact ((Touch.refl ..).to (setBank_touch ..) rfl).to (zeroBytes_touch ..) rfl

theorem handOver_touch (s b port) : Touch 209919148054 s (State.handOver s b port) := by
  unfold State.handOver
  extract_lets w0
  clear_value w0
  exact ((Touch.refl ..).to (giveBank_touch ..) rfl).to (bankUse_touch ..) rfl

theorem settle_touch (s r b port) : Touch 209919148054 s (State.settle s r b port) := by
  unfold State.settle
  extract_lets w0
  clear_value w0
  refine Touch.ite ?_ ?_
  · exact (Touch.refl ..).to (handOver_touch ..) rfl
  · exact Touch.refl ..

theorem permit_touch (s r b add) : Touch 209919148054 s ((State.permit s r b add).getD s) := by
  unfold State.permit
  extract_lets s0 s1 x2
  have h3 : Touch 209919148054 s s0 := (Touch.refl ..).to (settle_touch ..) rfl
  clear_value s0
  have h4 : Touch 209919148054 s s1 := by
    unfold s1
    refine Touch.ite ?_ ?_
    · exact (h3).to (settle_touch ..) rfl
    · exact h3
  clear_value s1
  clear_value x2
  refine Touch.iteO ?_ ?_
  · exact Touch.refl ..
  · refine Touch.iteO ?_ ?_
    · refine Touch.someO ?_
      exact h4
    · refine Touch.iteO ?_ ?_
      · refine Touch.iteO ?_ ?_
        · refine Touch.someO ?_
          exact h4
        · refine Touch.someO ?_
          exact ((h4).to (giveBank_touch ..) rfl).to (bankUse_touch ..) rfl
      · exact Touch.refl ..

theorem wakeBank_touch (s r t) : Touch 209919149079 s (State.wakeBank s r t) := by
  unfold State.wakeBank
  refine Touch.ite ?_ ?_
  · extract_lets s0
    have h1 : Touch 209919149079 s s0 := (((Touch.refl ..).to (initBank_touch ..) rfl).to (setBf_touch _ _ _ _ (by decide)) rfl).to (setBf_touch _ _ _ _ (by decide)) rfl
    clear_value s0
    refine Touch.ite ?_ ?_
    · exact (h1).to (putUnit_touch ..) rfl
    · exact h1
  · exact Touch.refl ..

theorem openBank_touch (s r b byte add) : Touch 209919149079 s (State.openBank s r b byte add).2.2 := by
  unfold State.openBank
  extract_lets t0 s1 st2 s3
  have h4 : Touch 209919149079 s s1 := (Touch.refl ..).to (wakeBank_touch ..) rfl
  clear_value s1
  have h5 : Touch 209919149079 s s3 := by
    unfold s3
    refine Touch.ite ?_ ?_
    · exact (h4).to (setBf_touch _ _ _ _ (by decide)) rfl
    · refine Touch.ite ?_ ?_
      · exact ((h4).to (initBank_touch ..) rfl).to (setBf_touch _ _ _ _ (by decide)) rfl
      · exact h4
  clear_value s3
  clear_value st2
  clear_value t0
  refine Touch.ite22 ?_ ?_
  · refine Touch.red2 ?_
    refine Touch.red1 ?_
    exact (h4).to (denyBank_touch ..) rfl
  · split
    · rename_i x6 s7 heq8
      have h9 : Touch 209919149079 s s7 := by
        refine Touch.ofO (d := s) heq8 ?_
        refine Touch.toO ?_ (permit_touch ..) rfl
        exact h5
      refine Touch.red2 ?_
      refine Touch.red1 ?_
      exact h9
    · rename_i x10 heq11
      refine Touch.red2 ?_
      refine Touch.red1 ?_
      exact (h5).to (denyBank_touch ..) rfl

theorem remapWord_touch (s b w) : Touch 1073741824 s (State.remapWord s b w).2 := by
  unfold State.remapWord
  extract_lets used0 at1
  clear_value at1
  clear_value used0
  refine Touch.ite2 ?_ ?_
  · refine Touch.red1 ?_
    exact Touch.refl ..
  · refine Touch.ite2 ?_ ?_
    · refine Touch.red1 ?_
      exact (((Touch.refl ..).to (wrRemap_touch ..) rfl).to (setBf_touch _ _ _ _ (by decide)) rfl).to (inc_touch_in (k := 30) _ _ rfl) rfl
    · refine Touch.red1 ?_
      exact Touch.refl ..

theorem noteCorrected_touch (s b byte) : Touch 1073741824 s (State.noteCorrected s b byte) := by
  unfold State.noteCorrected
  exact (((Touch.refl ..).to (addBf_touch _ _ _ _ (by decide)) rfl).to (inc_touch_in (k := 30) _ _ rfl) rfl).to (wrBank_touch _ _ _ _ (by decide)) rfl

theorem trackWord_touch (s b w) : Touch 1073742848 s (State.trackWord s b w) := by
  unfold State.trackWord
  extract_lets x0 s1
  have h2 : Touch 1073742848 s s1 := (Touch.refl ..).to (setBank_touch ..) rfl
  clear_value s1
  clear_value x0
  refine Touch.ite ?_ ?_
  · split
    · rename_i x3 s4 heq5
      have h6 : Touch 1073742848 s s4 := Touch.of2 heq5 ((h2).to (remapWord_touch ..) rfl)
      exact h6
    · rename_i x7 s8 heq9
      have h10 : Touch 1073742848 s s8 := Touch.of2 heq9 ((h2).to (remapWord_touch ..) rfl)
      exact (h10).to (setBf_touch _ _ _ _ (by decide)) rfl
  · exact (Touch.refl ..).to (setBank_touch ..) rfl

theorem correctBytes_touch (s bytes) : Touch 1073742848 s (State.correctBytes s bytes) := by
  unfold State.correctBytes
  extract_lets s0
  have h1 : Touch 1073742848 s s0 := by
    unfold s0
    refine Touch.foldl ?_ (fun t2 a3 h4 => ?_)
    · exact Touch.refl ..
    · exact (h4).to (noteCorrected_touch ..) rfl
  clear_value s0
  refine Touch.foldl ?_ (fun t5 a6 h7 => ?_)
  · exact h1
  · exact (h7).to (trackWord_touch ..) rfl

theorem voidWord_touch (s b byte) : Touch 68719477761 s (State.voidWord s b byte) := by
  unfold State.voidWord
  extract_lets x0 l1 gone2 s3
  have h4 : Touch 68719477761 s s3 := (Touch.refl ..).to (setBank_touch ..) rfl
  clear_value s3
  clear_value gone2
  clear_value l1
  clear_value x0
  refine Touch.ite ?_ ?_
  · exact (h4).to (zeroBytes_touch ..) rfl
  · exact (h4).to (zeroBytes_touch ..) rfl

theorem noteUncorrByte_touch (s b byte) : Touch 207771140118 s (State.noteUncorrByte s b byte) := by
  unfold State.noteUncorrByte
  extract_lets s0
  have h1 : Touch 207771140118 s s0 := (((Touch.refl ..).to (addBf_touch _ _ _ _ (by decide)) rfl).to (inc_touch_in (k := 30) _ _ rfl) rfl).to (wrBank_touch _ _ _ _ (by decide)) rfl
  clear_value s0
  exact (Touch.set_badAt (h1) rfl).to (event_touch ..) rfl

theorem noteUnwritten_touch (s b byte) : Touch 207771140118 s (State.noteUnwritten s b byte) := by
  unfold State.noteUnwritten
  extract_lets s0
  have h1 : Touch 207771140118 s s0 := (((Touch.refl ..).to (addBf_touch _ _ _ _ (by decide)) rfl).to (inc_touch_in (k := 30) _ _ rfl) rfl).to (wrBank_touch _ _ _ _ (by decide)) rfl
  clear_value s0
  exact (Touch.set_badAt (h1) rfl).to (event_touch ..) rfl

theorem clearVoids_touch (s a n) : Touch 2048 s (State.clearVoids s a n) := by
  unfold State.clearVoids
  exact Touch.set_voided (Touch.refl ..) rfl

theorem noteUncorr_touch (s a) : Touch 206697398294 s (State.noteUncorr s a) := by
  unfold State.noteUncorr
  extract_lets args0 s1
  have h2 : Touch 206697398294 s s1 := Touch.set_badAt (Touch.refl ..) rfl
  clear_value s1
  clear_value args0
  refine Touch.ite ?_ ?_
  · exact ((h2).to (addStackF_touch _ _ _ _ (by decide)) rfl).to (event_touch ..) rfl
  · exact ((h2).to (addChanF_touch _ _ _ _ (by decide)) rfl).to (event_touch ..) rfl

theorem openOuter_touch (s t a n write) : Touch 206697398294 s (State.openOuter s t a n write).2 := by
  unfold State.openOuter
  refine Touch.ite2 ?_ ?_
  · refine Touch.red1 ?_
    exact Touch.refl ..
  · refine Touch.ite2 ?_ ?_
    · refine Touch.red1 ?_
      exact Touch.refl ..
    · split
      · rename_i x0 v1 tail2 heq3
        refine Touch.red1 ?_
        exact (Touch.refl ..).to (noteUncorr_touch ..) rfl
      · rename_i x4 heq5
        refine Touch.red1 ?_
        exact Touch.refl ..

theorem openFar_touch (s a n write) : Touch 206697529366 s (State.openFar s a n write).2 := by
  unfold State.openFar
  refine Touch.ite2 ?_ ?_
  · refine Touch.red1 ?_
    exact ((Touch.refl ..).to (inc_touch_in (k := 29) _ _ rfl) rfl).to (event_touch ..) rfl
  · extract_lets s0 s1
    have h2 : Touch 206697529366 s s0 := by
      unfold s0
      refine Touch.ite ?_ ?_
      · exact (Touch.refl ..).to (addF_touch_in (k := 29) _ _ _ rfl) rfl
      · exact (Touch.refl ..).to (addF_touch_in (k := 29) _ _ _ rfl) rfl
    clear_value s0
    have h3 : Touch 206697529366 s s1 := by
      unfold s1
      refine Touch.ite ?_ ?_
      · exact Touch.set_host (h2) rfl rfl
      · exact h2
    clear_value s1
    refine Touch.red1 ?_
    exact (h3).to (emit_touch ..) rfl

theorem openBanks_touch (s r add a) : Touch 209919149079 s (State.openBanks s r add a).2 := by
  induction a generalizing s r add
  · unfold State.openBanks
    refine Touch.red1 ?_
    exact Touch.refl ..
  · rename_i head0 tail1 tailih2
    unfold State.openBanks
    split
    · rename_i x3 fst4 s5 heq6
      have h7 : Touch 209919149079 s s5 := Touch.of22 heq6 ((Touch.refl ..).to (openBank_touch ..) rfl)
      exact (h7).to (tailih2 _ _ _) rfl
    · rename_i x8 st9 fst10 s11 x12 heq13
      have h14 : Touch 209919149079 s s11 := Touch.of22 heq13 ((Touch.refl ..).to (openBank_touch ..) rfl)
      refine Touch.red1 ?_
      exact h14

theorem openRange_touch (s r a n write add) : Touch 209919280151 s (State.openRange s r a n write add).2 := by
  unfold State.openRange
  refine Touch.ite2 ?_ ?_
  · refine Touch.red1 ?_
    exact Touch.refl ..
  · split
    · rename_i x0 heq1
      refine Touch.red1 ?_
      exact Touch.refl ..
    · rename_i x2 heq3
      exact (Touch.refl ..).to (openBanks_touch ..) rfl
    · rename_i x4 heq5
      exact (Touch.refl ..).to (openOuter_touch ..) rfl
    · rename_i x6 heq7
      exact (Touch.refl ..).to (openOuter_touch ..) rfl
    · rename_i x8 heq9
      exact (Touch.refl ..).to (openFar_touch ..) rfl

theorem devRead_touch (s r a n) : Touch 209919280151 s (State.devRead s r a n).2.2 := by
  unfold State.devRead
  split
  · rename_i x0 s1 heq2
    have h3 : Touch 209919280151 s s1 := Touch.of2 heq2 ((Touch.refl ..).to (openRange_touch ..) rfl)
    refine Touch.ite22 ?_ ?_
    · split
      · rename_i x4 c5 heq6
        refine Touch.red2 ?_
        refine Touch.red1 ?_
        exact (h3).to (noteUnwritten_touch ..) rfl
      · rename_i x7 heq8
        refine Touch.red2 ?_
        refine Touch.red1 ?_
        exact h3
    · refine Touch.red2 ?_
      refine Touch.red1 ?_
      exact h3
  · rename_i x9 st10 s11 x12 heq13
    have h14 : Touch 209919280151 s s11 := Touch.of2 heq13 ((Touch.refl ..).to (openRange_touch ..) rfl)
    refine Touch.red2 ?_
    refine Touch.red1 ?_
    exact h14

theorem markDirty_touch (s a n) : Touch 32768 s (State.markDirty s a n) := by
  unfold State.markDirty
  extract_lets step0 hit1 src2
  clear_value src2
  clear_value hit1
  clear_value step0
  exact Touch.set_ckp (Touch.refl ..) rfl

theorem markItem_touch (s kind off n) : Touch 32768 s (State.markItem s kind off n) := by
  unfold State.markItem
  extract_lets blocks0 items1 src2
  clear_value src2
  clear_value items1
  clear_value blocks0
  exact Touch.set_ckp (Touch.refl ..) rfl

theorem storeBytes_touch (s a bs) : Touch 68719512577 s (State.storeBytes s a bs) := by
  unfold State.storeBytes
  extract_lets cells0 s1
  have h2 : Touch 68719512577 s s1 := by
    unfold s1
    refine Touch.ite ?_ ?_
    · refine Touch.foldl ?_ (fun t3 a4 h5 => ?_)
      · exact Touch.refl ..
      · extract_lets t6 b7
        clear_value b7
        clear_value t6
        exact ((h5).to (setBank_touch ..) rfl).to (putBytes_touch ..) rfl
    · exact ((Touch.refl ..).to (clearVoids_touch ..) rfl).to (putBytes_touch ..) rfl
  clear_value s1
  clear_value cells0
  exact (h2).to (markDirty_touch ..) rfl

theorem ownWrite_touch (s a bs) : Touch 206697434135 s (State.ownWrite s a bs) := by
  unfold State.ownWrite
  split
  · rename_i x0 v1 tail2 heq3
    exact (Touch.refl ..).to (noteUncorr_touch ..) rfl
  · rename_i x4 heq5
    exact (Touch.refl ..).to (storeBytes_touch ..) rfl

theorem ownNum_touch (s a k v) : Touch 206697434135 s (State.ownNum s a k v) := by
  unfold State.ownNum
  exact (Touch.refl ..).to (ownWrite_touch ..) rfl

theorem putWhole_touch (s a bs) : Touch 68719478785 s (State.putWhole s a bs) := by
  unfold State.putWhole
  extract_lets n0
  clear_value n0
  exact ((Touch.refl ..).to (clearVoids_touch ..) rfl).to (putBytes_touch ..) rfl

theorem devWrite_touch (s r a bs) : Touch 209919314967 s (State.devWrite s r a bs).2 := by
  unfold State.devWrite
  split
  · rename_i x0 s1 heq2
    have h3 : Touch 209919314967 s s1 := Touch.of2 heq2 ((Touch.refl ..).to (openRange_touch ..) rfl)
    refine Touch.red1 ?_
    exact (h3).to (storeBytes_touch ..) rfl
  · rename_i x4 st5 s6 x7 heq8
    have h9 : Touch 209919314967 s s6 := Touch.of2 heq8 ((Touch.refl ..).to (openRange_touch ..) rfl)
    refine Touch.red1 ?_
    exact h9

theorem devWrites_touch (s r a) : Touch 209919314967 s (State.devWrites s r a).2 := by
  induction a generalizing s r
  · unfold State.devWrites
    refine Touch.red1 ?_
    exact Touch.refl ..
  · rename_i head0 tail1 tailih2
    unfold State.devWrites
    split
    · rename_i x3 s4 heq5
      have h6 : Touch 209919314967 s s4 := Touch.of2 heq5 ((Touch.refl ..).to (devWrite_touch ..) rfl)
      exact (h6).to (tailih2 _ _) rfl
    · rename_i x7 st8 s9 x10 heq11
      have h12 : Touch 209919314967 s s9 := Touch.of2 heq11 ((Touch.refl ..).to (devWrite_touch ..) rfl)
      refine Touch.red1 ?_
      exact h12

theorem devNum_touch (s r a k) : Touch 209919280151 s (State.devNum s r a k).2.2 := by
  unfold State.devNum
  split
  rename_i x0 st1 bs2 s3 heq4
  have h5 : Touch 209919280151 s s3 := Touch.of22 heq4 ((Touch.refl ..).to (devRead_touch ..) rfl)
  refine Touch.red2 ?_
  refine Touch.red1 ?_
  exact h5

/-! ### Link -/

theorem sendMsg_touch (s p vc t body) : Touch 4096 s (State.sendMsg s p vc t body) := by
  unfold State.sendMsg
  extract_lets bs0
  clear_value bs0
  exact (Touch.refl ..).to (modPort_touch ..) rfl

theorem answerGet_touch (s p vc t status body) : Touch 4096 s (State.answerGet s p vc t status body) := by
  unfold State.answerGet
  extract_lets q0 src1
  clear_value src1
  clear_value q0
  exact (Touch.refl ..).to (sendMsg_touch ..) rfl

theorem newTag_touch (s p) : Touch 4096 s (State.newTag s p).2 := by
  unfold State.newTag
  extract_lets x0
  clear_value x0
  refine Touch.red1 ?_
  exact (Touch.refl ..).to (setPort_touch ..) rfl

theorem sendRequest_touch (s p vc t ops use dst) : Touch 4096 s (State.sendRequest s p vc t ops use dst) := by
  unfold State.sendRequest
  split
  rename_i x0 tag1 s2 heq3
  have h4 : Touch 4096 s s2 := Touch.of2 heq3 ((Touch.refl ..).to (newTag_touch ..) rfl)
  extract_lets s5
  have h6 : Touch 4096 s s5 := (h4).to (modPort_touch ..) rfl
  clear_value s5
  exact (h6).to (sendMsg_touch ..) rfl

theorem sendFence_touch (s p ops use) : Touch 4096 s (State.sendFence s p ops use) := by
  unfold State.sendFence
  exact (Touch.refl ..).to (sendRequest_touch ..) rfl

theorem sendPut_touch (s p vc dst epoch addr body) : Touch 4096 s (State.sendPut s p vc dst epoch addr body) := by
  unfold State.sendPut
  split
  rename_i x0 tag1 s2 heq3
  have h4 : Touch 4096 s s2 := Touch.of2 heq3 ((Touch.refl ..).to (newTag_touch ..) rfl)
  exact (h4).to (sendMsg_touch ..) rfl

theorem sendNotice_touch (s p body) : Touch 4096 s (State.sendNotice s p body) := by
  unfold State.sendNotice
  split
  rename_i x0 tag1 s2 heq3
  have h4 : Touch 4096 s s2 := Touch.of2 heq3 ((Touch.refl ..).to (newTag_touch ..) rfl)
  exact (h4).to (sendMsg_touch ..) rfl

theorem spread_touch (s except body) : Touch 4096 s (State.spread s except body) := by
  unfold State.spread
  refine Touch.foldl ?_ (fun t0 a1 h2 => ?_)
  · exact Touch.refl ..
  · refine Touch.ite ?_ ?_
    · exact (h2).to (sendNotice_touch ..) rfl
    · exact h2

theorem flood_touch (s kind cause subject epoch value) : Touch 12288 s (State.flood s kind cause subject epoch value) := by
  unfold State.flood
  extract_lets n0 src1 s2
  have h3 : Touch 12288 s s2 := Touch.set_fabric (Touch.refl ..) rfl
  clear_value s2
  clear_value src1
  clear_value n0
  exact (h3).to (spread_touch ..) rfl

theorem sendHello_touch (s p) : Touch 4096 s (State.sendHello s p) := by
  unfold State.sendHello
  split
  rename_i x0 tag1 s2 heq3
  have h4 : Touch 4096 s s2 := Touch.of2 heq3 ((Touch.refl ..).to (newTag_touch ..) rfl)
  exact (h4).to (sendMsg_touch ..) rfl

theorem opAck_touch (s i status) : Touch 64 s (State.opAck s i status) := by
  unfold State.opAck
  split
  · rename_i x0 o1 heq2
    exact Touch.set_ops (Touch.refl ..) rfl
  · rename_i x3 heq4
    exact Touch.refl ..

theorem castRefresh_touch (s) : Touch 268443648 s (State.castRefresh s) := by
  unfold State.castRefresh
  extract_lets st0 ins1 gone2 broken3 src4 s5
  have h6 : Touch 268443648 s s5 := Touch.set_fabric (Touch.refl ..) rfl
  clear_value s5
  clear_value src4
  clear_value broken3
  clear_value gone2
  clear_value ins1
  clear_value st0
  refine Touch.ite ?_ ?_
  · exact h6
  · refine Touch.ite ?_ ?_
    · exact (h6).to (setF_touch_in (k := 28) _ _ _ rfl) rfl
    · refine Touch.ite ?_ ?_
      · exact (h6).to (setF_touch_in (k := 28) _ _ _ rfl) rfl
      · exact h6

theorem startConfirm_touch (s p) : Touch 268447744 s (State.startConfirm s p) := by
  unfold State.startConfirm
  split
  · rename_i x0 j1 heq2
    extract_lets s3 src4
    have h5 : Touch 268447744 s s3 := ((Touch.refl ..).to (flood_touch ..) rfl).to (inc_touch_in (k := 28) _ _ rfl) rfl
    clear_value s3
    clear_value src4
    exact Touch.set_fabric (h5) rfl
  · rename_i x6 heq7
    exact Touch.refl ..

theorem report_touch (s p value) : Touch 12288 s (State.report s p value) := by
  unfold State.report
  split
  · rename_i x0 j1 heq2
    refine Touch.ite ?_ ?_
    · exact (Touch.set_fabric (Touch.refl ..) rfl).to (flood_touch ..) rfl
    · exact Touch.refl ..
  · rename_i x3 heq4
    exact Touch.refl ..

theorem suspect_touch (s p) : Touch 268447744 s (State.suspect s p) := by
  unfold State.suspect
  refine Touch.ite ?_ ?_
  · exact (((Touch.refl ..).to (setPf_touch _ _ _ _ (by decide)) rfl).to (startConfirm_touch ..) rfl).to (report_touch ..) rfl
  · exact Touch.refl ..

theorem neighbourFailed_touch (s p) : Touch 268447744 s (State.neighbourFailed s p) := by
  unfold State.neighbourFailed
  refine Touch.ite ?_ ?_
  · exact Touch.refl ..
  · extract_lets h0
    clear_value h0
    exact (((Touch.refl ..).to (setPf_touch _ _ _ _ (by decide)) rfl).to (modPort_touch ..) rfl).to (castRefresh_touch ..) rfl

theorem countError_touch (s p status tag n) : Touch 4096 s (State.countError s p status tag n) := by
  unfold State.countError
  exact (Touch.refl ..).to (modPort_touch ..) rfl

theorem covered_touch (s q tag dst status errTag errors) : Touch 4096 s (State.covered s q tag dst status errTag errors) := by
  unfold State.covered
  extract_lets s0
  have h1 : Touch 4096 s s0 := (Touch.refl ..).to (modPort_touch ..) rfl
  clear_value s0
  refine Touch.ite ?_ ?_
  · exact (h1).to (countError_touch ..) rfl
  · exact h1

theorem requestOver_touch (s q o status) : Touch 102464 s (State.requestOver s q o status) := by
  unfold State.requestOver
  split
  · rename_i x0 heq1
    refine Touch.foldl ?_ (fun t2 a3 h4 => ?_)
    · exact Touch.refl ..
    · exact (h4).to (opAck_touch ..) rfl
  · rename_i x5 heq6
    exact (Touch.refl ..).to (covered_touch ..) rfl
  · rename_i x7 heq8
    exact Touch.set_ckp (Touch.refl ..) rfl
  · rename_i x9 x10 x11 x12
    exact Touch.set_fov (Touch.refl ..) rfl

theorem failOutstanding_touch (s p status) : Touch 102464 s (State.failOutstanding s p status) := by
  unfold State.failOutstanding
  extract_lets x0
  clear_value x0
  refine Touch.foldl ?_ (fun t1 a2 h3 => ?_)
  · exact (Touch.refl ..).to (setPort_touch ..) rfl
  · exact (h3).to (requestOver_touch ..) rfl

theorem freeSlots_touch (s p vc n) : Touch 4096 s (State.freeSlots s p vc n) := by
  unfold State.freeSlots
  exact (Touch.refl ..).to (modPort_touch ..) rfl

theorem dropOutbox_touch (s p) : Touch 4096 s (State.dropOutbox s p) := by
  unfold State.dropOutbox
  extract_lets out0
  clear_value out0
  refine Touch.foldl ?_ (fun t1 a2 h3 => ?_)
  · exact (Touch.refl ..).to (modPort_touch ..) rfl
  · split
    · rename_i x4 j5 heq6
      exact (h3).to (freeSlots_touch ..) rfl
    · rename_i x7 heq8
      exact h3

theorem dropLink_touch (s p) : Touch 102464 s (State.dropLink s p) := by
  unfold State.dropLink
  extract_lets s0 src1
  have h2 : Touch 102464 s s0 := ((Touch.refl ..).to (failOutstanding_touch ..) rfl).to (dropOutbox_touch ..) rfl
  clear_value s0
  clear_value src1
  exact (h2).to (modPort_touch ..) rfl

theorem markPort_touch (s p) : Touch 268435456 s (State.markPort s p) := by
  unfold State.markPort
  exact (Touch.refl ..).to (setPf_touch _ _ _ _ (by decide)) rfl

theorem portEnter_touch (s p st) : Touch 209113952342 s (State.portEnter s p st) := by
  unfold State.portEnter
  extract_lets old0 nb1 s2 s3 s4 s5 u6 s7 s8
  have h9 : Touch 209113952342 s s2 := (Touch.refl ..).to (setPf_touch _ _ _ _ (by decide)) rfl
  clear_value s2
  have h10 : Touch 209113952342 s s3 := by
    unfold s3
    refine Touch.ite ?_ ?_
    · exact (h9).to (setPf_touch _ _ _ _ (by decide)) rfl
    · exact h9
  clear_value s3
  have h11 : Touch 209113952342 s s4 := by
    unfold s4
    refine Touch.ite ?_ ?_
    · refine Touch.ite ?_ ?_
      · exact (h10).to (setPf_touch _ _ _ _ (by decide)) rfl
      · refine Touch.ite ?_ ?_
        · exact ((h10).to (setPf_touch _ _ _ _ (by decide)) rfl).to (modPort_touch ..) rfl
        · exact h10
    · refine Touch.ite ?_ ?_
      · refine Touch.ite ?_ ?_
        · exact h10
        · exact (h10).to (setPf_touch _ _ _ _ (by decide)) rfl
      · exact h10
  clear_value s4
  have h12 : Touch 209113952342 s s5 := by
    unfold s5
    refine Touch.ite ?_ ?_
    · exact ((h11).to (dropLink_touch ..) rfl).to (setPf_touch _ _ _ _ (by decide)) rfl
    · exact h11
  clear_value s5
  have h13 : Touch 209113952342 s s7 := by
    unfold s7
    refine Touch.ite ?_ ?_
    · exact (h12).to (putUnit_touch ..) rfl
    · refine Touch.ite ?_ ?_
      · exact (h12).to (putUnit_touch ..) rfl
      · exact h12
  clear_value s7
  have h14 : Touch 209113952342 s s8 := by
    unfold s8
    refine Touch.ite ?_ ?_
    · exact (h13).to (startConfirm_touch ..) rfl
    · exact h13
  clear_value s8
  clear_value u6
  clear_value nb1
  clear_value old0
  exact ((h14).to (markPort_touch ..) rfl).to (castRefresh_touch ..) rfl

theorem streamOut_touch (s p f) : Touch 4100 s (State.streamOut s p f) := by
  unfold State.streamOut
  extract_lets all0 s1
  have h2 : Touch 4100 s s1 := (Touch.refl ..).to (modPort_touch ..) rfl
  clear_value s1
  clear_value all0
  refine Touch.ite ?_ ?_
  · exact h2
  · exact (h2).to (emit_touch ..) rfl

theorem sendFlit_touch (s p kind seq low payload) : Touch 4100 s (State.sendFlit s p kind seq low payload) := by
  unfold State.sendFlit
  extract_lets x0
  clear_value x0
  split
  rename_i x1 v2 total3 heq4
  extract_lets s5 f6
  have h7 : Touch 4100 s s5 := (Touch.refl ..).to (setPort_touch ..) rfl
  clear_value s5
  clear_value f6
  exact ((h7).to (emit_touch ..) rfl).to (streamOut_touch ..) rfl

theorem portStop_touch (s p st cause) : Touch 209113952342 s (State.portStop s p st cause) := by
  unfold State.portStop
  extract_lets down0
  refine Touch.to ?_ (portEnter_touch ..) rfl
  refine Touch.ite ?_ ?_
  · refine Touch.foldl ?_ (fun t1 a2 h3 => ?_)
    · exact Touch.refl ..
    · unfold down0
      exact (h3).to (sendFlit_touch ..) rfl
  · exact Touch.refl ..

theorem sendTraining_touch (s p last req) : Touch 4 s (State.sendTraining s p last req) := by
  unfold State.sendTraining
  extract_lets x0 phase1 word2
  clear_value word2
  clear_value phase1
  clear_value x0
  exact (Touch.refl ..).to (emit_touch ..) rfl

theorem restartTraining_touch (s p st) : Touch 209113952342 s (State.restartTraining s p st) := by
  unfold State.restartTraining
  extract_lets s0 s1
  have h2 : Touch 209113952342 s s0 := by
    unfold s0
    refine Touch.ite ?_ ?_
    · exact Touch.refl ..
    · exact ((Touch.refl ..).to (setPf_touch _ _ _ _ (by decide)) rfl).to (setPf_touch _ _ _ _ (by decide)) rfl
  clear_value s0
  have h3 : Touch 209113952342 s s1 := (h2).to (modPort_touch ..) rfl
  clear_value s1
  exact ((h3).to (portEnter_touch ..) rfl).to (sendTraining_touch ..) rfl

theorem enterRetrain_touch (s p) : Touch 209113952342 s (State.enterRetrain s p) := by
  unfold State.enterRetrain
  refine Touch.ite ?_ ?_
  · exact (((Touch.refl ..).to (addPf_touch _ _ _ _ (by decide)) rfl).to (modPort_touch ..) rfl).to (restartTraining_touch ..) rfl
  · exact Touch.refl ..

theorem fullTrain_touch (s p) : Touch 209113952342 s (State.fullTrain s p) := by
  unfold State.fullTrain
  refine Touch.ite ?_ ?_
  · exact (Touch.refl ..).to (restartTraining_touch ..) rfl
  · exact Touch.refl ..

theorem trainFailed_touch (s p cause) : Touch 209113952342 s (State.trainFailed s p cause) := by
  unfold State.trainFailed
  extract_lets n0 mask1
  clear_value mask1
  clear_value n0
  refine Touch.ite ?_ ?_
  · exact ((Touch.refl ..).to (modPort_touch ..) rfl).to (restartTraining_touch ..) rfl
  · refine Touch.ite ?_ ?_
    · exact (((Touch.refl ..).to (modPort_touch ..) rfl).to (portStop_touch ..) rfl).to (event_touch ..) rfl
    · exact ((Touch.refl ..).to (modPort_touch ..) rfl).to (restartTraining_touch ..) rfl

theorem quarantine_touch (s p cause) : Touch 209113952342 s (State.quarantine s p cause) := by
  unfold State.quarantine
  extract_lets h0 again1 s2
  have h3 : Touch 209113952342 s s2 := ((Touch.refl ..).to (portEnter_touch ..) rfl).to (setPf_touch _ _ _ _ (by decide)) rfl
  clear_value s2
  clear_value again1
  clear_value h0
  refine Touch.ite ?_ ?_
  · exact h3
  · exact (h3).to (event_touch ..) rfl

theorem helloDecide_touch (s p) : Touch 209113952342 s (State.helloDecide s p) := by
  unfold State.helloDecide
  extract_lets ver0 role1 mine2 s3 again4 s5
  have h6 : Touch 209113952342 s s3 := (Touch.refl ..).to (modPort_touch ..) rfl
  clear_value s3
  have h7 : Touch 209113952342 s s5 := ((h6).to (portEnter_touch ..) rfl).to (setPf_touch _ _ _ _ (by decide)) rfl
  clear_value s5
  clear_value again4
  clear_value mine2
  clear_value role1
  clear_value ver0
  refine Touch.ite ?_ ?_
  · exact (h6).to (quarantine_touch ..) rfl
  · refine Touch.ite ?_ ?_
    · exact (h6).to (portEnter_touch ..) rfl
    · refine Touch.ite ?_ ?_
      · exact (h6).to (portEnter_touch ..) rfl
      · refine Touch.ite ?_ ?_
        · exact (h6).to (quarantine_touch ..) rfl
        · refine Touch.ite ?_ ?_
          · exact (h6).to (quarantine_touch ..) rfl
          · refine Touch.ite ?_ ?_
            · exact (h6).to (portEnter_touch ..) rfl
            · refine Touch.ite ?_ ?_
              · exact (h6).to (quarantine_touch ..) rfl
              · refine Touch.ite ?_ ?_
                · exact (h7).to (event_touch ..) rfl
                · exact h7

theorem helloAll_touch (s) : Touch 209113952342 s (State.helloAll s) := by
  unfold State.helloAll
  refine Touch.foldl ?_ (fun t0 a1 h2 => ?_)
  · exact Touch.refl ..
  · extract_lets st3
    clear_value st3
    refine Touch.ite ?_ ?_
    · exact (h2).to (sendHello_touch ..) rfl
    · refine Touch.ite ?_ ?_
      · exact ((h2).to (sendHello_touch ..) rfl).to (helloDecide_touch ..) rfl
      · exact h2

theorem transmit_touch (s p) : Touch 268439556 s (State.transmit s p) := by
  unfold State.transmit
  extract_lets x0 again1 s2
  have h3 : Touch 268439556 s s2 := (Touch.refl ..).to (setPort_touch ..) rfl
  clear_value s2
  clear_value again1
  clear_value x0
  refine Touch.ite ?_ ?_
  · exact Touch.refl ..
  · refine Touch.ite ?_ ?_
    · exact (Touch.refl ..).to (sendFlit_touch ..) rfl
    · split
      · rename_i again4 q5 flit6
        extract_lets s7
        have h8 : Touch 268439556 s s7 := (Touch.refl ..).to (setPort_touch ..) rfl
        clear_value s7
        exact ((h8).to (addPf_touch _ _ _ _ (by decide)) rfl).to (sendFlit_touch ..) rfl
      · rename_i again9
        split
        · rename_i x10 vc11 av12 al13 heq14
          split
          · rename_i x15 fst16 som17 eom18 src19 payload20 heq21
            extract_lets low22 s23 s24
            have h25 : Touch 268439556 s s23 := by
              unfold s23
              split
              · rename_i x26 j27
                exact (h3).to (freeSlots_touch ..) rfl
              · rename_i x28
                exact h3
            clear_value s23
            have h29 : Touch 268439556 s s24 := (h25).to (modPort_touch ..) rfl
            clear_value s24
            clear_value low22
            exact ((h29).to (addPf_touch _ _ _ _ (by decide)) rfl).to (sendFlit_touch ..) rfl
          · rename_i x30 heq31
            exact h3
        · rename_i x32 heq33
          exact (h3).to (sendFlit_touch ..) rfl

theorem replayFrom_touch (s p q) : Touch 209113952342 s (State.replayFrom s p q) := by
  unfold State.replayFrom
  extract_lets x0 s1
  have h2 : Touch 209113952342 s s1 := ((Touch.refl ..).to (setPort_touch ..) rfl).to (addPf_touch _ _ _ _ (by decide)) rfl
  clear_value s1
  clear_value x0
  refine Touch.ite ?_ ?_
  · exact (h2).to (enterRetrain_touch ..) rfl
  · exact h2

theorem flitFields_touch (s p bs) : Touch 209113952342 s (State.flitFields s p bs) := by
  unfold State.flitFields
  extract_lets x0 ack1 gone2 keep3 v4 total5 credits6 acked7 s8 s9
  have h10 : Touch 209113952342 s s8 := (Touch.refl ..).to (setPort_touch ..) rfl
  clear_value s8
  have h11 : Touch 209113952342 s s9 := by
    unfold s9
    refine Touch.ite ?_ ?_
    · exact (h10).to (helloDecide_touch ..) rfl
    · exact h10
  clear_value s9
  clear_value acked7
  clear_value credits6
  clear_value total5
  clear_value v4
  clear_value keep3
  clear_value gone2
  clear_value ack1
  clear_value x0
  refine Touch.ite ?_ ?_
  · exact (h11).to (replayFrom_touch ..) rfl
  · exact h11

theorem askReplay_touch (s p late) : Touch 4096 s (State.askReplay s p late) := by
  unfold State.askReplay
  exact (Touch.refl ..).to (modPort_touch ..) rfl

theorem rejectTxn_touch (s p status tag) : Touch 206965837846 s (State.rejectTxn s p status tag) := by
  unfold State.rejectTxn
  extract_lets again0 s1 x2
  have h3 : Touch 206965837846 s s1 := (((Touch.refl ..).to (countError_touch ..) rfl).to (modPort_touch ..) rfl).to (addPf_touch _ _ _ _ (by decide)) rfl
  clear_value s1
  clear_value x2
  clear_value again0
  refine Touch.ite ?_ ?_
  · exact (h3).to (suppress_touch ..) rfl
  · exact (h3).to (event_touch ..) rfl

theorem flowPart_touch (s p) : Touch 4096 s (State.flowPart s p) := by
  unfold State.flowPart
  refine Touch.foldl ?_ (fun t0 a1 h2 => ?_)
  · exact Touch.refl ..
  · split
    rename_i x3 got4 n5 kept6 heq7
    refine Touch.ite ?_ ?_
    · exact ((h2).to (modPort_touch ..) rfl).to (freeSlots_touch ..) rfl
    · exact h2

theorem msgArrived_touch (s p vc bs flits kept) : Touch 206965837846 s (State.msgArrived s p vc bs flits kept) := by
  unfold State.msgArrived
  split
  · rename_i x0 heq1
    exact (Touch.refl ..).to (modPort_touch ..) rfl
  · rename_i x2 x3
    exact ((Touch.refl ..).to (freeSlots_touch ..) rfl).to (rejectTxn_touch ..) rfl

theorem assemble_touch (s p bs) : Touch 206965837846 s (State.assemble s p bs) := by
  unfold State.assemble
  extract_lets b0 vc1 payload2
  clear_value payload2
  clear_value vc1
  clear_value b0
  refine Touch.ite ?_ ?_
  · exact (Touch.refl ..).to (rejectTxn_touch ..) rfl
  · split
    rename_i x3 got4 n5 kept6 heq7
    split
    rename_i x8 got9 n10 kept11 heq12
    refine Touch.ite ?_ ?_
    · exact ((Touch.refl ..).to (modPort_touch ..) rfl).to (msgArrived_touch ..) rfl
    · exact ((Touch.refl ..).to (modPort_touch ..) rfl).to (flowPart_touch ..) rfl

theorem acceptData_touch (s p bs late) : Touch 206965837846 s (State.acceptData s p bs late) := by
  unfold State.acceptData
  extract_lets x0 seq1
  clear_value seq1
  clear_value x0
  refine Touch.ite ?_ ?_
  · exact (((Touch.refl ..).to (setPort_touch ..) rfl).to (addPf_touch _ _ _ _ (by decide)) rfl).to (assemble_touch ..) rfl
  · refine Touch.ite ?_ ?_
    · exact (Touch.refl ..).to (askReplay_touch ..) rfl
    · exact Touch.refl ..

theorem freshLink_touch (s p) : Touch 102464 s (State.freshLink s p) := by
  unfold State.freshLink
  extract_lets x0 s1
  have h2 : Touch 102464 s s1 := (Touch.refl ..).to (failOutstanding_touch ..) rfl
  clear_value s1
  clear_value x0
  refine Touch.to ?_ (modPort_touch ..) rfl
  refine Touch.ite ?_ ?_
  · exact (h2).to (dropOutbox_touch ..) rfl
  · exact h2

theorem initDone_touch (s p) : Touch 209113952342 s (State.initDone s p) := by
  unfold State.initDone
  extract_lets x0 next1 resume2 keep3 inside4 s5 s6
  have h7 : Touch 209113952342 s s5 := by
    unfold s5
    refine Touch.ite ?_ ?_
    · exact (Touch.refl ..).to (modPort_touch ..) rfl
    · exact (Touch.refl ..).to (freshLink_touch ..) rfl
  clear_value s5
  have h8 : Touch 209113952342 s s6 := (h7).to (modPort_touch ..) rfl
  clear_value s6
  clear_value inside4
  clear_value keep3
  clear_value resume2
  clear_value next1
  clear_value x0
  refine Touch.ite ?_ ?_
  · exact (h8).to (portEnter_touch ..) rfl
  · exact Touch.refl ..

/-! ### Operands -/

theorem readBlockAt_touch (s rq planes st blk) : Touch 209919280151 s (State.readBlockAt s rq planes st blk).2.2.2 := by
  unfold State.readBlockAt
  split
  · rename_i x0 w1 s2 heq3
    have h4 : Touch 209919280151 s s2 := Touch.of22 heq3 ((Touch.refl ..).to (devRead_touch ..) rfl)
    split
    · rename_i x5 w6 s7 heq8
      have h9 : Touch 209919280151 s s7 := Touch.of22 heq8 ((h4).to (devRead_touch ..) rfl)
      extract_lets n10
      clear_value n10
      split
      · rename_i x11 w12 s13 heq14
        have h15 : Touch 209919280151 s s13 := Touch.of22 heq14 ((h9).to (devRead_touch ..) rfl)
        refine Touch.red3 ?_
        refine Touch.red2 ?_
        refine Touch.red1 ?_
        exact h15
      · rename_i x16 e17 fst18 s19 x20 heq21
        have h22 : Touch 209919280151 s s19 := Touch.of22 heq21 ((h9).to (devRead_touch ..) rfl)
        refine Touch.red3 ?_
        refine Touch.red2 ?_
        refine Touch.red1 ?_
        exact h22
    · rename_i x23 e24 fst25 s26 x27 heq28
      have h29 : Touch 209919280151 s s26 := Touch.of22 heq28 ((h4).to (devRead_touch ..) rfl)
      refine Touch.red3 ?_
      refine Touch.red2 ?_
      refine Touch.red1 ?_
      exact h29
  · rename_i x30 e31 fst32 s33 x34 heq35
    have h36 : Touch 209919280151 s s33 := Touch.of22 heq35 ((Touch.refl ..).to (devRead_touch ..) rfl)
    refine Touch.red3 ?_
    refine Touch.red2 ?_
    refine Touch.red1 ?_
    exact h36

theorem readQBlock_touch (s rq t st blk) : Touch 209919280151 s (State.readQBlock s rq t st blk).2.2.2 := by
  unfold State.readQBlock
  exact (Touch.refl ..).to (readBlockAt_touch ..) rfl

theorem readQBlocks_touch (s rq t st p a) : Touch 209919280151 s (State.readQBlocks s rq t st p a).2.2 := by
  induction a generalizing s rq t st p
  · unfold State.readQBlocks
    refine Touch.red2 ?_
    refine Touch.red1 ?_
    exact Touch.refl ..
  · rename_i head0 tail1 tailih2
    unfold State.readQBlocks
    split
    · rename_i x3 blk4 fst5 s6 heq7
      have h8 : Touch 209919280151 s s6 := Touch.of222 heq7 ((Touch.refl ..).to (readQBlock_touch ..) rfl)
      split
      · rename_i x9 rest10 s11 heq12
        have h13 : Touch 209919280151 s s11 := Touch.of22 heq12 ((h8).to (tailih2 _ _ _ _ _) rfl)
        refine Touch.red2 ?_
        refine Touch.red1 ?_
        exact h13
      · rename_i x14 x15
        exact (h8).to (tailih2 _ _ _ _ _) rfl
    · rename_i x16 e17 fst18 fst19 s20 x21 heq22
      have h23 : Touch 209919280151 s s20 := Touch.of222 heq22 ((Touch.refl ..).to (readQBlock_touch ..) rfl)
      refine Touch.red2 ?_
      refine Touch.red1 ?_
      exact h23

theorem readHdr_touch (s rq a) : Touch 209919280151 s (State.readHdr s rq a).2.2 := by
  unfold State.readHdr
  split
  · rename_i x0 w1 s2 heq3
    have h4 : Touch 209919280151 s s2 := Touch.of22 heq3 ((Touch.refl ..).to (devRead_touch ..) rfl)
    refine Touch.red2 ?_
    refine Touch.red1 ?_
    exact h4
  · rename_i x5 e6 fst7 s8 x9 heq10
    have h11 : Touch 209919280151 s s8 := Touch.of22 heq10 ((Touch.refl ..).to (devRead_touch ..) rfl)
    refine Touch.red2 ?_
    refine Touch.red1 ?_
    exact h11

theorem readA64_touch (s rq t p) : Touch 209919280151 s (State.readA64 s rq t p).2.2.2 := by
  unfold State.readA64
  extract_lets m0 n1 tile2 a3 w4
  clear_value w4
  clear_value a3
  clear_value tile2
  clear_value n1
  clear_value m0
  split
  · rename_i x5 h6 s7 heq8
    have h9 : Touch 209919280151 s s7 := Touch.of22 heq8 ((Touch.refl ..).to (readHdr_touch ..) rfl)
    split
    · rename_i x10 v11 s12 heq13
      have h14 : Touch 209919280151 s s12 := Touch.of22 heq13 ((h9).to (devNum_touch ..) rfl)
      refine Touch.red3 ?_
      refine Touch.red2 ?_
      refine Touch.red1 ?_
      exact h14
    · rename_i x15 e16 fst17 s18 x19 heq20
      have h21 : Touch 209919280151 s s18 := Touch.of22 heq20 ((h9).to (devNum_touch ..) rfl)
      refine Touch.red3 ?_
      refine Touch.red2 ?_
      refine Touch.red1 ?_
      exact h21
  · rename_i x22 e23 h24 s25 x26 heq27
    have h28 : Touch 209919280151 s s25 := Touch.of22 heq27 ((Touch.refl ..).to (readHdr_touch ..) rfl)
    refine Touch.red3 ?_
    refine Touch.red2 ?_
    refine Touch.red1 ?_
    exact h28

theorem readA64s_touch (s rq t a) : Touch 209919280151 s (State.readA64s s rq t a).2.2 := by
  induction a generalizing s rq t
  · unfold State.readA64s
    refine Touch.red2 ?_
    refine Touch.red1 ?_
    exact Touch.refl ..
  · rename_i head0 tail1 tailih2
    unfold State.readA64s
    split
    · rename_i x3 x4 h5 s6 heq7
      have h8 : Touch 209919280151 s s6 := Touch.of222 heq7 ((Touch.refl ..).to (readA64_touch ..) rfl)
      split
      · rename_i x9 l10 s11 heq12
        have h13 : Touch 209919280151 s s11 := Touch.of22 heq12 ((h8).to (tailih2 _ _ _) rfl)
        refine Touch.red2 ?_
        refine Touch.red1 ?_
        exact h13
      · rename_i x14 x15
        exact (h8).to (tailih2 _ _ _) rfl
    · rename_i x16 e17 fst18 fst19 s20 x21 heq22
      have h23 : Touch 209919280151 s s20 := Touch.of222 heq22 ((Touch.refl ..).to (readA64_touch ..) rfl)
      refine Touch.red2 ?_
      refine Touch.red1 ?_
      exact h23

theorem i32Exp_touch (s rq t) : Touch 209919280151 s (State.i32Exp s rq t).2.2 := by
  unfold State.i32Exp
  refine Touch.ite22 ?_ ?_
  · refine Touch.red2 ?_
    refine Touch.red1 ?_
    exact Touch.refl ..
  · split
    · rename_i x0 w1 s2 heq3
      have h4 : Touch 209919280151 s s2 := Touch.of22 heq3 ((Touch.refl ..).to (devRead_touch ..) rfl)
      refine Touch.red2 ?_
      refine Touch.red1 ?_
      exact h4
    · rename_i x5 e6 fst7 s8 x9 heq10
      have h11 : Touch 209919280151 s s8 := Touch.of22 heq10 ((Touch.refl ..).to (devRead_touch ..) rfl)
      refine Touch.red2 ?_
      refine Touch.red1 ?_
      exact h11

theorem readForm_touch (s rq a) : Touch 209919280151 s (State.readForm s rq a).2.2 := by
  unfold State.readForm
  split
  · rename_i x0 w1 s2 heq3
    have h4 : Touch 209919280151 s s2 := Touch.of22 heq3 ((Touch.refl ..).to (devRead_touch ..) rfl)
    refine Touch.red2 ?_
    refine Touch.red1 ?_
    exact h4
  · rename_i x5 e6 fst7 s8 x9 heq10
    have h11 : Touch 209919280151 s s8 := Touch.of22 heq10 ((Touch.refl ..).to (devRead_touch ..) rfl)
    refine Touch.red2 ?_
    refine Touch.red1 ?_
    exact h11

theorem readVals_touch (s rq t p n) : Touch 209919280151 s (State.readVals s rq t p n).2.2.2 := by
  unfold State.readVals
  refine Touch.ite222 ?_ ?_
  · split
    · rename_i x0 q1 s2 heq3
      have h4 : Touch 209919280151 s s2 := Touch.of22 heq3 ((Touch.refl ..).to (readForm_touch ..) rfl)
      extract_lets st5 per6 at7 blks8
      clear_value blks8
      clear_value at7
      clear_value per6
      clear_value st5
      split
      · rename_i x9 vs10 s11 heq12
        have h13 : Touch 209919280151 s s11 := Touch.of22 heq12 ((h4).to (readQBlocks_touch ..) rfl)
        extract_lets tab14
        clear_value tab14
        refine Touch.red3 ?_
        refine Touch.red2 ?_
        refine Touch.red1 ?_
        exact h13
      · rename_i x15 e16 fst17 s18 x19 heq20
        have h21 : Touch 209919280151 s s18 := Touch.of22 heq20 ((h4).to (readQBlocks_touch ..) rfl)
        refine Touch.red3 ?_
        refine Touch.red2 ?_
        refine Touch.red1 ?_
        exact h21
    · rename_i x22 e23 fst24 s25 x26 heq27
      have h28 : Touch 209919280151 s s25 := Touch.of22 heq27 ((Touch.refl ..).to (readForm_touch ..) rfl)
      refine Touch.red3 ?_
      refine Touch.red2 ?_
      refine Touch.red1 ?_
      exact h28
  · refine Touch.ite222 ?_ ?_
    · split
      · rename_i x29 xs30 s31 heq32
        have h33 : Touch 209919280151 s s31 := Touch.of22 heq32 ((Touch.refl ..).to (readA64s_touch ..) rfl)
        refine Touch.red3 ?_
        refine Touch.red2 ?_
        refine Touch.red1 ?_
        exact h33
      · rename_i x34 e35 fst36 s37 x38 heq39
        have h40 : Touch 209919280151 s s37 := Touch.of22 heq39 ((Touch.refl ..).to (readA64s_touch ..) rfl)
        refine Touch.red3 ?_
        refine Touch.red2 ?_
        refine Touch.red1 ?_
        exact h40
    · refine Touch.ite222 ?_ ?_
      · split
        · rename_i x41 w42 s43 heq44
          have h45 : Touch 209919280151 s s43 := Touch.of22 heq44 ((Touch.refl ..).to (devRead_touch ..) rfl)
          split
          · rename_i x46 w47 s48 heq49
            have h50 : Touch 209919280151 s s48 := Touch.of22 heq49 ((h45).to (devRead_touch ..) rfl)
            refine Touch.red3 ?_
            refine Touch.red2 ?_
            refine Touch.red1 ?_
            exact h50
          · rename_i x51 e52 fst53 s54 x55 heq56
            have h57 : Touch 209919280151 s s54 := Touch.of22 heq56 ((h45).to (devRead_touch ..) rfl)
            refine Touch.red3 ?_
            refine Touch.red2 ?_
            refine Touch.red1 ?_
            exact h57
        · rename_i x58 e59 fst60 s61 x62 heq63
          have h64 : Touch 209919280151 s s61 := Touch.of22 heq63 ((Touch.refl ..).to (devRead_touch ..) rfl)
          refine Touch.red3 ?_
          refine Touch.red2 ?_
          refine Touch.red1 ?_
          exact h64
      · refine Touch.ite222 ?_ ?_
        · split
          · rename_i x65 ec66 s67 heq68
            have h69 : Touch 209919280151 s s67 := Touch.of22 heq68 ((Touch.refl ..).to (i32Exp_touch ..) rfl)
            split
            · rename_i x70 w71 s72 heq73
              have h74 : Touch 209919280151 s s72 := Touch.of22 heq73 ((h69).to (devRead_touch ..) rfl)
              refine Touch.red3 ?_
              refine Touch.red2 ?_
              refine Touch.red1 ?_
              exact h74
            · rename_i x75 e76 fst77 s78 x79 heq80
              have h81 : Touch 209919280151 s s78 := Touch.of22 heq80 ((h69).to (devRead_touch ..) rfl)
              refine Touch.red3 ?_
              refine Touch.red2 ?_
              refine Touch.red1 ?_
              exact h81
          · rename_i x82 e83 fst84 s85 x86 heq87
            have h88 : Touch 209919280151 s s85 := Touch.of22 heq87 ((Touch.refl ..).to (i32Exp_touch ..) rfl)
            refine Touch.red3 ?_
            refine Touch.red2 ?_
            refine Touch.red1 ?_
            exact h88
        · refine Touch.ite222 ?_ ?_
          · split
            · rename_i x89 w90 s91 heq92
              have h93 : Touch 209919280151 s s91 := Touch.of22 heq92 ((Touch.refl ..).to (devRead_touch ..) rfl)
              refine Touch.red3 ?_
              refine Touch.red2 ?_
              refine Touch.red1 ?_
              exact h93
            · rename_i x94 e95 fst96 s97 x98 heq99
              have h100 : Touch 209919280151 s s97 := Touch.of22 heq99 ((Touch.refl ..).to (devRead_touch ..) rfl)
              refine Touch.red3 ?_
              refine Touch.red2 ?_
              refine Touch.red1 ?_
              exact h100
          · split
            · rename_i x101 w102 s103 heq104
              have h105 : Touch 209919280151 s s103 := Touch.of22 heq104 ((Touch.refl ..).to (devRead_touch ..) rfl)
              refine Touch.red3 ?_
              refine Touch.red2 ?_
              refine Touch.red1 ?_
              exact h105
            · rename_i x106 e107 fst108 s109 x110 heq111
              have h112 : Touch 209919280151 s s109 := Touch.of22 heq111 ((Touch.refl ..).to (devRead_touch ..) rfl)
              refine Touch.red3 ?_
              refine Touch.red2 ?_
              refine Touch.red1 ?_
              exact h112

theorem addWatch_touch (s j i o k n) : Touch 206697434135 s (State.addWatch s j i o k n) := by
  unfold State.addWatch
  refine Touch.ite ?_ ?_
  · exact Touch.refl ..
  · extract_lets a0
    clear_value a0
    exact (Touch.refl ..).to (ownNum_touch ..) rfl

theorem setWatchFlag_touch (s j i b on) : Touch 206697434135 s (State.setWatchFlag s j i b on) := by
  unfold State.setWatchFlag
  extract_lets a0
  clear_value a0
  exact (Touch.refl ..).to (ownNum_touch ..) rfl

/-! ### Tensors -/

theorem bumpLane_touch (s eng lane n) : Touch 33280 s (State.bumpLane s eng lane n) := by
  unfold State.bumpLane
  extract_lets i0 src1
  clear_value src1
  clear_value i0
  exact (Touch.set_rng (Touch.refl ..) rfl).to (markItem_touch ..) rfl

theorem writeQuant_touch (s rq j scope writes recs) : Touch 209919314967 s (State.writeQuant s rq j scope writes recs).2 := by
  unfold State.writeQuant
  split
  · rename_i x0 e1 heq2
    refine Touch.red1 ?_
    exact Touch.refl ..
  · rename_i x3 heq4
    exact (Touch.refl ..).to (devWrites_touch ..) rfl

theorem countBlocks_touch (s j i w) : Touch 206697434135 s (State.countBlocks s j i w) := by
  unfold State.countBlocks
  exact (((((Touch.refl ..).to (addWatch_touch ..) rfl).to (addWatch_touch ..) rfl).to (addWatch_touch ..) rfl).to (addWatch_touch ..) rfl).to (addWatch_touch ..) rfl

theorem countCopy_touch (s j q) : Touch 206697434135 s (State.countCopy s j q) := by
  unfold State.countCopy
  split
  · rename_i x0 c1 heq2
    exact (Touch.refl ..).to (countBlocks_touch ..) rfl
  · rename_i x3 heq4
    exact Touch.refl ..

theorem noteWrite_touch (s slot scope t q watch) : Touch 206714211479 s (State.noteWrite s slot scope t q watch) := by
  unfold State.noteWrite
  split
  · rename_i x0 heq1
    exact Touch.refl ..
  · rename_i x2 j3 heq4
    extract_lets j5 inStep6 w7 seen8 now9 put10 s11 s12
    have h13 : Touch 206714211479 s s11 := (Touch.refl ..).to (setJob_touch ..) rfl
    clear_value s11
    have h14 : Touch 206714211479 s s12 := (((h13).to (countBlocks_touch ..) rfl).to (countCopy_touch ..) rfl).to (addWatch_touch ..) rfl
    clear_value s12
    clear_value put10
    clear_value now9
    clear_value seen8
    clear_value w7
    clear_value inStep6
    clear_value j5
    refine Touch.ite ?_ ?_
    · exact h13
    · refine Touch.ite ?_ ?_
      · exact (h14).to (inc_touch_in (k := 24) _ _ rfl) rfl
      · exact h14

theorem exhaust_touch (s slot i) : Touch 206697398422 s (State.exhaust s slot i) := by
  unfold State.exhaust
  split
  · rename_i x0 j1 heq2
    refine Touch.ite ?_ ?_
    · exact Touch.refl ..
    · exact ((Touch.refl ..).to (setJob_touch ..) rfl).to (event_touch ..) rfl
  · rename_i x3 heq4
    exact Touch.refl ..

theorem trigger_touch (s slot i) : Touch 206697434263 s (State.trigger s slot i) := by
  unfold State.trigger
  split
  · rename_i x0 j1 heq2
    refine Touch.ite ?_ ?_
    · exact Touch.refl ..
    · refine Touch.ite ?_ ?_
      · exact ((Touch.refl ..).to (setJob_touch ..) rfl).to (setWatchFlag_touch ..) rfl
      · extract_lets f3
        clear_value f3
        refine Touch.ite ?_ ?_
        · exact (Touch.refl ..).to (exhaust_touch ..) rfl
        · exact (Touch.refl ..).to (setJob_touch ..) rfl
  · rename_i x4 heq5
    exact Touch.refl ..

theorem srcMismatches_touch (s rq t q p n) : Touch 206697398294 s (State.srcMismatches s rq t q p n) := by
  unfold State.srcMismatches
  extract_lets per0 blks1
  clear_value blks1
  clear_value per0
  refine Touch.foldl ?_ (fun t2 a3 h4 => ?_)
  · exact Touch.refl ..
  · split
    · rename_i x5 c6 fr7 codes8 esc9 heq10
      exact (h4).to (event_touch ..) rfl
    · rename_i x11 x12
      exact h4

theorem readNoted_touch (s rq t p n) : Touch 209919280151 s (State.readNoted s rq t p n).2.2.2 := by
  unfold State.readNoted
  split
  · rename_i x0 vs1 o2 s3 heq4
    have h5 : Touch 209919280151 s s3 := Touch.of222 heq4 ((Touch.refl ..).to (readVals_touch ..) rfl)
    refine Touch.red3 ?_
    refine Touch.red2 ?_
    refine Touch.red1 ?_
    refine Touch.ite ?_ ?_
    · exact (h5).to (srcMismatches_touch ..) rfl
    · exact h5
  · rename_i x6 x7
    exact (Touch.refl ..).to (readVals_touch ..) rfl

theorem sumOf_touch (s rq j i sc) : Touch 209919280151 s (State.sumOf s rq j i sc).2.2.2 := by
  unfold State.sumOf
  split
  · rename_i x0 heq1
    refine Touch.red3 ?_
    refine Touch.red2 ?_
    refine Touch.red1 ?_
    exact Touch.refl ..
  · rename_i x2 t3 heq4
    split
    · rename_i x5 gs6 fst7 s8 heq9
      have h10 : Touch 209919280151 s s8 := Touch.of222 heq9 ((Touch.refl ..).to (readNoted_touch ..) rfl)
      refine Touch.red3 ?_
      refine Touch.red2 ?_
      refine Touch.red1 ?_
      exact h10
    · rename_i x11 e12 fst13 fst14 s15 x16 heq17
      have h18 : Touch 209919280151 s s15 := Touch.of222 heq17 ((Touch.refl ..).to (readNoted_touch ..) rfl)
      refine Touch.red3 ?_
      refine Touch.red2 ?_
      refine Touch.red1 ?_
      exact h18

theorem formSums_touch (s slot final) : Touch 209919280279 s (State.formSums s slot final) := by
  unfold State.formSums
  split
  · rename_i x0 heq1
    exact Touch.refl ..
  · rename_i x2 j3 heq4
    extract_lets due5
    clear_value due5
    refine Touch.foldl ?_ (fun t6 a7 h8 => ?_)
    · exact Touch.refl ..
    · split
      · rename_i x9 v10 fst11 s12 heq13
        have h14 : Touch 209919280279 s s12 := Touch.of222 heq13 ((h8).to (sumOf_touch ..) rfl)
        exact (h14).to (modJob_touch ..) rfl
      · rename_i x15 fst16 fst17 fst18 s19 x20 heq21
        have h22 : Touch 209919280279 s s19 := Touch.of222 heq21 ((h8).to (sumOf_touch ..) rfl)
        exact h22

/-! ### Restore -/

theorem getPieces_touch (s c epoch addr bytes dst) : Touch 69632 s (State.getPieces s c epoch addr bytes dst) := by
  unfold State.getPieces
  split
  · rename_i x0 heq1
    exact Touch.set_fov (Touch.refl ..) rfl
  · rename_i x2 p3 heq4
    refine Touch.foldl ?_ (fun t5 a6 h7 => ?_)
    · exact Touch.refl ..
    · extract_lets n8 src9
      clear_value src9
      clear_value n8
      exact (h7).to (sendRequest_touch ..) rfl

theorem awaitUnits_touch (s epoch u) : Touch 16384 s (State.awaitUnits s epoch u) := by
  unfold State.awaitUnits
  extract_lets a0
  clear_value a0
  split
  rename_i x1 fst2 fst3 first4 heq5
  refine Touch.foldl ?_ (fun t6 a7 h8 => ?_)
  · exact Touch.refl ..
  · extract_lets stripe9 x10 tracks11
    clear_value tracks11
    clear_value x10
    clear_value stripe9
    exact Touch.set_colls (h8) rfl

theorem fetchItems_touch (s k book nums) : Touch 86016 s (State.fetchItems s k book nums) := by
  unfold State.fetchItems
  extract_lets epoch0 ents1 s2 src3 s4
  have h5 : Touch 86016 s s2 := by
    unfold s2
    refine Touch.foldl ?_ (fun t6 a7 h8 => ?_)
    · exact Touch.refl ..
    · split
      · rename_i x9 heq10
        refine Touch.ite ?_ ?_
        · exact (h8).to (getPieces_touch ..) rfl
        · exact Touch.set_fov (h8) rfl
      · rename_i x11 heq12
        exact h8
      · rename_i x13 x14 x15
        exact Touch.set_fov (h8) rfl
  clear_value s2
  have h16 : Touch 86016 s s4 := Touch.set_fov (h5) rfl
  clear_value s4
  clear_value src3
  clear_value ents1
  clear_value epoch0
  refine Touch.ite ?_ ?_
  · exact (h16).to (awaitUnits_touch ..) rfl
  · exact h16

/-! ### Attempt -/

theorem stopQueue_touch (s q reason) : Touch 206697398326 s (State.stopQueue s q reason) := by
  unfold State.stopQueue
  exact ((Touch.refl ..).to (setQueue_touch ..) rfl).to (event_touch ..) rfl

theorem updateQueue_touch (s q x) : Touch 209919314999 s (State.updateQueue s q x) := by
  unfold State.updateQueue
  extract_lets a0 log1 b2 s3
  have h4 : Touch 209919314999 s s3 := (Touch.refl ..).to (setQueue_touch ..) rfl
  clear_value s3
  clear_value b2
  clear_value log1
  clear_value a0
  split
  rename_i x5 st6 s7 heq8
  have h9 : Touch 209919314999 s s7 := Touch.of2 heq8 ((h4).to (devWrites_touch ..) rfl)
  refine Touch.ite ?_ ?_
  · exact h9
  · exact (h9).to (stopQueue_touch ..) rfl

theorem haltQueue_touch (s q reason) : Touch 209919314999 s (State.haltQueue s q reason) := by
  unfold State.haltQueue
  exact ((Touch.refl ..).to (updateQueue_touch ..) rfl).to (event_touch ..) rfl

theorem putRecord_touch (s q rec) : Touch 206697398326 s (State.putRecord s q rec) := by
  unfold State.putRecord
  extract_lets x0
  clear_value x0
  refine Touch.ite ?_ ?_
  · exact (Touch.refl ..).to (event_touch ..) rfl
  · exact (Touch.refl ..).to (setQueue_touch ..) rfl

theorem writeRecord_touch (s q) : Touch 209919314999 s (State.writeRecord s q) := by
  unfold State.writeRecord
  extract_lets x0 size1 phase2
  clear_value phase2
  clear_value size1
  clear_value x0
  split
  · rename_i x3 r4 rest5 heq6
    refine Touch.ite ?_ ?_
    · split
      rename_i x7 st8 s9 heq10
      have h11 : Touch 209919314999 s s9 := Touch.of2 heq10 ((Touch.refl ..).to (devWrite_touch ..) rfl)
      extract_lets s12
      have h13 : Touch 209919314999 s s12 := (h11).to (updateQueue_touch ..) rfl
      clear_value s12
      refine Touch.to ?_ (signal_touch ..) rfl
      refine Touch.ite ?_ ?_
      · exact h13
      · exact (h13).to (haltQueue_touch ..) rfl
    · exact Touch.refl ..
  · rename_i x14 heq15
    exact Touch.refl ..

theorem settleQueue_touch (s q) : Touch 209919314999 s (State.settleQueue s q) := by
  unfold State.settleQueue
  refine Touch.ite ?_ ?_
  · extract_lets s0 left1 s2 src3
    have h4 : Touch 209919314999 s s0 := by
      unfold s0
      refine Touch.foldl ?_ (fun t5 a6 h7 => ?_)
      · exact Touch.refl ..
      · exact (h7).to (writeRecord_touch ..) rfl
    clear_value s0
    have h8 : Touch 209919314999 s s2 := by
      unfold s2
      refine Touch.foldl ?_ (fun t9 a10 h11 => ?_)
      · exact h4
      · exact (h11).to (event_touch ..) rfl
    clear_value s2
    clear_value src3
    clear_value left1
    exact (h8).to (updateQueue_touch ..) rfl
  · exact Touch.refl ..

theorem cueRecord_touch (s c status detail tag now) : Touch 209919315127 s (State.cueRecord s c status detail tag now) := by
  unfold State.cueRecord
  split
  · rename_i x0 heq1
    exact Touch.refl ..
  · rename_i x2 q3 heq4
    extract_lets r5 s6
    have h7 : Touch 209919315127 s s6 := by
      unfold s6
      refine Touch.ite ?_ ?_
      · split
        · rename_i x8 j9 heq10
          exact (Touch.refl ..).to (modJob_touch ..) rfl
        · rename_i x11 heq12
          exact (Touch.refl ..).to (putRecord_touch ..) rfl
      · exact Touch.refl ..
    clear_value s6
    clear_value r5
    exact (h7).to (settleQueue_touch ..) rfl

theorem setV_touch (s v) : Touch 134250496 s (State.setV s v) := by
  unfold State.setV
  exact (((Touch.refl ..).to (setF_touch_in (k := 27) _ _ _ rfl) rfl).to (setF_touch_in (k := 27) _ _ _ rfl) rfl).to (markItem_touch ..) rfl

theorem itemLive_touch (s job slot it) : Touch 209919280151 s (State.itemLive s job slot it).2.2 := by
  unfold State.itemLive
  split
  · rename_i x0 heq1
    refine Touch.red2 ?_
    refine Touch.red1 ?_
    exact Touch.refl ..
  · rename_i x2 heq3
    refine Touch.red2 ?_
    refine Touch.red1 ?_
    exact Touch.refl ..
  · rename_i x4 heq5
    refine Touch.red2 ?_
    refine Touch.red1 ?_
    exact Touch.refl ..
  · rename_i x6 heq7
    refine Touch.red2 ?_
    refine Touch.red1 ?_
    exact Touch.refl ..
  · rename_i x8 x9 x10 x11 x12
    refine Touch.ite22 ?_ ?_
    · refine Touch.red2 ?_
      refine Touch.red1 ?_
      exact Touch.refl ..
    · refine Touch.foldl22 ?_ (fun b13 b14 t15 a16 h17 => ?_)
      · refine Touch.red2 ?_
        refine Touch.red1 ?_
        exact Touch.refl ..
      · refine Touch.ite22 ?_ ?_
        · refine Touch.red2 ?_
          refine Touch.red1 ?_
          exact h17
        · split
          rename_i x18 st19 bs20 s21 heq22
          have h23 : Touch 209919280151 s s21 := by
            refine Touch.of22 heq22 ?_
            refine Touch.to ?_ (devRead_touch ..) rfl
            refine Touch.red2 ?_
            refine Touch.red1 ?_
            exact h17
          refine Touch.red2 ?_
          refine Touch.red1 ?_
          exact h23

theorem itemRestore_touch (s slot it bs) : Touch 210053533335 s (State.itemRestore s slot it bs) := by
  unfold State.itemRestore
  split
  · rename_i x0 heq1
    exact (Touch.refl ..).to (modJob_touch ..) rfl
  · rename_i x2 heq3
    exact (Touch.refl ..).to (modJob_touch ..) rfl
  · rename_i x4 heq5
    exact Touch.set_rng (Touch.refl ..) rfl
  · rename_i x6 heq7
    exact (Touch.refl ..).to (setV_touch ..) rfl
  · rename_i x8 x9 x10 x11 x12
    refine Touch.ite ?_ ?_
    · exact (Touch.refl ..).to (modJob_touch ..) rfl
    · refine Touch.foldl2 ?_ (fun b13 t14 a15 h16 => ?_)
      · refine Touch.red1 ?_
        exact Touch.refl ..
      · refine Touch.red1 ?_
        refine Touch.to ?_ (devWrite_touch ..) rfl
        refine Touch.red1 ?_
        exact h16

theorem itemFromSlot_touch (s k i it) : Touch 209919280151 s (State.itemFromSlot s k i it).2 := by
  unfold State.itemFromSlot
  extract_lets base0
  clear_value base0
  split
  · rename_i x1 d2 s3 heq4
    have h5 : Touch 209919280151 s s3 := Touch.of22 heq4 ((Touch.refl ..).to (devRead_touch ..) rfl)
    split
    · rename_i x6 d7 s8 heq9
      have h10 : Touch 209919280151 s s8 := Touch.of22 heq9 ((h5).to (devRead_touch ..) rfl)
      refine Touch.red1 ?_
      exact h10
    · rename_i x11 fst12 fst13 s14 x15 heq16
      have h17 : Touch 209919280151 s s14 := Touch.of22 heq16 ((h5).to (devRead_touch ..) rfl)
      refine Touch.red1 ?_
      exact h17
  · rename_i x18 fst19 fst20 s21 x22 heq23
    have h24 : Touch 209919280151 s s21 := Touch.of22 heq23 ((Touch.refl ..).to (devRead_touch ..) rfl)
    refine Touch.red1 ?_
    exact h24

theorem copySlot_touch (s slot k) : Touch 210053533335 s (State.copySlot s slot k).2 := by
  unfold State.copySlot
  refine Touch.foldl2 ?_ (fun b0 t1 a2 h3 => ?_)
  · refine Touch.red1 ?_
    exact Touch.refl ..
  · split
    · rename_i x4 bs5 s6 heq7
      have h8 : Touch 210053533335 s s6 := by
        refine Touch.of2 heq7 ?_
        refine Touch.to ?_ (itemFromSlot_touch ..) rfl
        refine Touch.red1 ?_
        exact h3
      refine Touch.red1 ?_
      exact (h8).to (itemRestore_touch ..) rfl
    · rename_i x9 s10 heq11
      have h12 : Touch 210053533335 s s10 := by
        refine Touch.of2 heq11 ?_
        refine Touch.to ?_ (itemFromSlot_touch ..) rfl
        refine Touch.red1 ?_
        exact h3
      refine Touch.red1 ?_
      exact h12

theorem endJournal_touch (s) : Touch 68719511553 s (State.endJournal s) := by
  unfold State.endJournal
  extract_lets a0 src1 src2
  have h3 : Touch 68719511553 s src1 := ((Touch.refl ..).to (clearVoids_touch ..) rfl).to (zeroBytes_touch ..) rfl
  clear_value src1
  clear_value src2
  clear_value a0
  refine Touch.ite ?_ ?_
  · exact Touch.refl ..
  · exact Touch.set_ckp (h3) rfl

theorem discardS_touch (s) : Touch 206764559383 s (State.discardS s) := by
  unfold State.discardS
  extract_lets k0 a1 s2 c3 items4 s5
  have h6 : Touch 206764559383 s s2 := (Touch.refl ..).to (ownNum_touch ..) rfl
  clear_value s2
  have h7 : Touch 206764559383 s s5 := by
    unfold s5
    refine Touch.to (N := 49152) ?_ { Touch.refl _ s2 with colls := fun e => absurd e (by decide), ckp := fun e => absurd e (by decide), sound := fun e => ⟨e.mem, e.regs, e.board⟩ } rfl
    exact h6
  clear_value s5
  clear_value items4
  clear_value c3
  clear_value a1
  clear_value k0
  split
  · rename_i x8 j9 heq10
    exact (((((h7).to (setF_touch_in (k := 26) _ _ _ rfl) rfl).to (setF_touch_in (k := 26) _ _ _ rfl) rfl).to (setF_touch_in (k := 26) _ _ _ rfl) rfl).to (setF_touch_in (k := 26) _ _ _ rfl) rfl).to (endJournal_touch ..) rfl
  · rename_i x11 heq12
    exact Touch.refl ..

theorem captured_touch (s e v) : Touch 4294967552 s (State.captured s e v) := by
  unfold State.captured
  extract_lets s0
  have h1 : Touch 4294967552 s s0 := Touch.set_captures (Touch.refl ..) rfl
  clear_value s0
  exact ((h1).to (setEf_touch _ _ _ _ (by decide)) rfl).to (setEf_touch _ _ _ _ (by decide)) rfl

theorem captureHeld_touch (s e) : Touch 4294967552 s (State.captureHeld s e) := by
  unfold State.captureHeld
  exact (Touch.refl ..).to (captured_touch ..) rfl

theorem arrayState_touch (s e) : Touch 4294967552 s (State.arrayState s e) := by
  unfold State.arrayState
  extract_lets busy0 s1
  have h2 : Touch 4294967552 s s1 := (Touch.refl ..).to (setEf_touch _ _ _ _ (by decide)) rfl
  clear_value s1
  clear_value busy0
  refine Touch.ite ?_ ?_
  · exact (h2).to (captureHeld_touch ..) rfl
  · exact h2

theorem dropWork_touch (s ids) : Touch 4294983936 s (State.dropWork s ids) := by
  unfold State.dropWork
  extract_lets keys0 s1
  have h2 : Touch 4294983936 s s1 := by
    unfold s1
    refine Touch.to (N := 16640) ?_ { Touch.refl _ s with array := fun e => absurd e (by decide), colls := fun e => absurd e (by decide), sound := fun e => ⟨e.mem, e.regs, e.board⟩ } rfl
    exact Touch.refl ..
  clear_value s1
  clear_value keys0
  refine Touch.foldl ?_ (fun t3 a4 h5 => ?_)
  · exact h2
  · exact ((h5).to (setEf_touch _ _ _ _ (by split <;> decide)) rfl).to (arrayState_touch ..) rfl

theorem dropOps_touch (s gone) : Touch 4294984000 s (State.dropOps s gone) := by
  unfold State.dropOps
  extract_lets ids0 s1
  have h2 : Touch 4294984000 s s1 := (Touch.refl ..).to (dropWork_touch ..) rfl
  clear_value s1
  clear_value ids0
  exact Touch.set_ops (h2) rfl

theorem abandonCues_touch (s gone) : Touch 214214299127 s (State.abandonCues s gone) := by
  unfold State.abandonCues
  extract_lets cues0 s1 s2
  have h3 : Touch 214214299127 s s1 := (Touch.refl ..).to (dropOps_touch ..) rfl
  clear_value s1
  have h4 : Touch 214214299127 s s2 := Touch.set_waiting (h3) rfl
  clear_value s2
  clear_value cues0
  refine Touch.foldl ?_ (fun t5 a6 h7 => ?_)
  · exact h4
  · exact (h7).to (cueRecord_touch ..) rfl

theorem showCursor_touch (s slot) : Touch 8388608 s (State.showCursor s slot) := by
  unfold State.showCursor
  split
  · rename_i x0 j1 heq2
    split
    · rename_i x3 sh4 heq5
      exact ((Touch.refl ..).to (setJf_touch _ _ _ _ (by decide)) rfl).to (setJf_touch _ _ _ _ (by decide)) rfl
    · rename_i x6 heq7
      exact (Touch.refl ..).to (setJf_touch _ _ _ _ (by decide)) rfl
  · rename_i x8 heq9
    exact Touch.refl ..

theorem skipLog_touch (s slot cause) : Touch 209919314967 s (State.skipLog s slot cause) := by
  unfold State.skipLog
  split
  · rename_i x0 j1 heq2
    extract_lets idx3 e4
    clear_value e4
    clear_value idx3
    exact (Touch.refl ..).to (devWrite_touch ..) rfl
  · rename_i x5 heq6
    exact Touch.refl ..

theorem watchClose_touch (s j) : Touch 206714175510 s (State.watchClose s j) := by
  unfold State.watchClose
  refine Touch.ite ?_ ?_
  · refine Touch.ite ?_ ?_
    · exact Touch.refl ..
    · exact ((Touch.refl ..).to (event_touch ..) rfl).to (inc_touch_in (k := 24) _ _ rfl) rfl
  · refine Touch.ite ?_ ?_
    · exact (Touch.refl ..).to (event_touch ..) rfl
    · exact Touch.refl ..

theorem stepBoundary_touch (s) : Touch 206731088918 s (State.stepBoundary s) := by
  unfold State.stepBoundary
  extract_lets src0 s1
  have h2 : Touch 206731088918 s s1 := by
    unfold s1
    refine Touch.to (N := 137439089664) ?_ { Touch.refl _ s with banks := fun e => absurd e (by decide), ports := fun e => absurd e (by decide), host := fun e => absurd e (by decide), due := fun e => absurd e (by decide), sound := fun e => ⟨e.mem, e.regs, e.board⟩ } rfl
    exact Touch.refl ..
  clear_value s1
  clear_value src0
  refine Touch.ite ?_ ?_
  · split
    rename_i x3 w4 s5 heq6
    have h7 : Touch 206731088918 s s5 := Touch.of2 heq6 ((h2).to (draw_touch ..) rfl)
    refine Touch.foldl ?_ (fun t8 a9 h10 => ?_)
    · exact h7
    · refine Touch.ite ?_ ?_
      · exact h10
      · exact (h10).to (lendCluster_touch ..) rfl
  · exact (h2).to (lend_touch ..) rfl

theorem dropApart_touch (s bad) : Touch 268439552 s (State.dropApart s bad) := by
  unfold State.dropApart
  refine Touch.foldl ?_ (fun t0 a1 h2 => ?_)
  · exact Touch.refl ..
  · extract_lets x3 gone4 out5 s6
    have h7 : Touch 268439552 s s6 := (h2).to (setPort_touch ..) rfl
    clear_value s6
    clear_value out5
    clear_value gone4
    clear_value x3
    refine Touch.ite ?_ ?_
    · exact h2
    · refine Touch.to ?_ (addPf_touch _ _ _ _ (by decide)) rfl
      refine Touch.foldl ?_ (fun t8 a9 h10 => ?_)
      · exact h7
      · extract_lets t11 s12
        have h13 : Touch 268439552 s s12 := (h10).to (freeSlots_touch ..) rfl
        clear_value s12
        clear_value t11
        refine Touch.ite ?_ ?_
        · exact (h13).to (answerGet_touch ..) rfl
        · exact h13

theorem releaseApart_touch (s epoch) : Touch 4096 s (State.releaseApart s epoch) := by
  unfold State.releaseApart
  refine Touch.foldl ?_ (fun t0 a1 h2 => ?_)
  · exact Touch.refl ..
  · exact (h2).to (modPort_touch ..) rfl

theorem stopJob_touch (s slot cause unit) : Touch 206705786902 s (State.stopJob s slot cause unit) := by
  unfold State.stopJob
  exact ((Touch.refl ..).to (setJf_touch _ _ _ _ (by decide)) rfl).to (event_touch ..) rfl

theorem exportFallback_touch (s limit) : Touch 206840070166 s (State.exportFallback s limit) := by
  unfold State.exportFallback
  extract_lets first0 s1 st2 filling3 s4 src5
  have h6 : Touch 206840070166 s s1 := ((Touch.refl ..).to (inc_touch_in (k := 27) _ _ rfl) rfl).to (event_touch ..) rfl
  have h7 : Touch 206840070166 s s4 := by
    unfold s4
    refine Touch.foldl ?_ (fun t8 a9 h10 => ?_)
    · exact h6
    · refine Touch.ite ?_ ?_
      · exact (h10).to (setJf_touch _ _ _ _ (by decide)) rfl
      · exact h10
  clear_value s4
  clear_value src5
  clear_value filling3
  clear_value st2
  clear_value s1
  clear_value first0
  exact (Touch.set_fov (h7) rfl).to (setF_touch_in (k := 27) _ _ _ rfl) rfl

theorem readBook_touch (s k) : Touch 209919280151 s (State.readBook s k).2 := by
  unfold State.readBook
  split
  · rename_i x0 d1 s2 heq3
    have h4 : Touch 209919280151 s s2 := Touch.of22 heq3 ((Touch.refl ..).to (devRead_touch ..) rfl)
    refine Touch.red1 ?_
    exact h4
  · rename_i x5 fst6 fst7 s8 x9 heq10
    have h11 : Touch 209919280151 s s8 := Touch.of22 heq10 ((Touch.refl ..).to (devRead_touch ..) rfl)
    refine Touch.red1 ?_
    exact h11

theorem rollback_touch (s slot) : Touch 210129116823 s (State.rollback s slot) := by
  unfold State.rollback
  split
  · rename_i x0 s1 heq2
    have h3 : Touch 210129116823 s s1 := by
      refine Touch.of2 heq2 ?_
      refine Touch.ite2 ?_ ?_
      · exact (Touch.refl ..).to (readBook_touch ..) rfl
      · refine Touch.red1 ?_
        exact Touch.refl ..
    exact (h3).to (setJf_touch _ _ _ _ (by decide)) rfl
  · rename_i x4 book5 s6 heq7
    have h8 : Touch 210129116823 s s6 := by
      refine Touch.of2 heq7 ?_
      refine Touch.ite2 ?_ ?_
      · exact (Touch.refl ..).to (readBook_touch ..) rfl
      · refine Touch.red1 ?_
        exact Touch.refl ..
    extract_lets k9 p10 step11
    clear_value step11
    clear_value p10
    clear_value k9
    split
    rename_i x12 bad13 s14 heq15
    have h16 : Touch 210129116823 s s14 := Touch.of2 heq15 ((h8).to (copySlot_touch ..) rfl)
    extract_lets s17 s18 s19 c20 src21 s22 s23
    have h24 : Touch 210129116823 s s17 := ((h16).to (discardS_touch ..) rfl).to (endJournal_touch ..) rfl
    clear_value s17
    have h25 : Touch 210129116823 s s18 := (((((h24).to (setJf_touch _ _ _ _ (by decide)) rfl).to (setJf_touch _ _ _ _ (by decide)) rfl).to (setJf_touch _ _ _ _ (by decide)) rfl).to (setJf_touch _ _ _ _ (by decide)) rfl).to (setJf_touch _ _ _ _ (by decide)) rfl
    clear_value s18
    have h26 : Touch 210129116823 s s19 := (h25).to (modJob_touch ..) rfl
    clear_value s19
    have h27 : Touch 210129116823 s s22 := by
      unfold s22
      refine Touch.to (N := 114688) ?_ { Touch.refl _ s19 with colls := fun e => absurd e (by decide), ckp := fun e => absurd e (by decide), fov := fun e => absurd e (by decide), sound := fun e => ⟨e.mem, e.regs, e.board⟩ } rfl
      exact h26
    clear_value s22
    have h28 : Touch 210129116823 s s23 := (((h27).to (setF_touch_in (k := 26) _ _ _ rfl) rfl).to (setF_touch_in (k := 26) _ _ _ rfl) rfl).to (showCursor_touch ..) rfl
    clear_value s23
    clear_value src21
    clear_value c20
    refine Touch.ite ?_ ?_
    · exact h28
    · exact (h28).to (fetchItems_touch ..) rfl

theorem abandon_touch (s slot cause roll) : Touch 214742859767 s (State.abandon s slot cause roll) := by
  unfold State.abandon
  split
  · rename_i x0 heq1
    exact Touch.refl ..
  · rename_i x2 j3 heq4
    refine Touch.ite ?_ ?_
    · exact Touch.refl ..
    · extract_lets s5 mine6 s7 held8 s9 step10 attempt11 s12 s13 s14 s15 s16 s17 s18 s19 s20 s21 s22 s23 s24 s25
      have h26 : Touch 214742859767 s s5 := (Touch.refl ..).to (setJf_touch _ _ _ _ (by decide)) rfl
      clear_value s5
      have h27 : Touch 214742859767 s s7 := (h26).to (abandonCues_touch ..) rfl
      clear_value s7
      have h28 : Touch 214742859767 s s9 := by
        unfold s9
        refine Touch.foldl ?_ (fun t29 a30 h31 => ?_)
        · exact h27
        · exact (h31).to (putRecord_touch ..) rfl
      clear_value s9
      have h32 : Touch 214742859767 s s12 := ((h28).to (setJf_touch _ _ _ _ (by decide)) rfl).to (setJf_touch _ _ _ _ (by decide)) rfl
      clear_value s12
      have h33 : Touch 214742859767 s s13 := (h32).to (record_touch ..) rfl
      clear_value s13
      have h34 : Touch 214742859767 s s14 := (h33).to (flood_touch ..) rfl
      clear_value s14
      have h35 : Touch 214742859767 s s15 := (h34).to (dropApart_touch ..) rfl
      clear_value s15
      have h36 : Touch 214742859767 s s16 := (h35).to (watchClose_touch ..) rfl
      clear_value s16
      have h37 : Touch 214742859767 s s17 := (h36).to (modJob_touch ..) rfl
      clear_value s17
      have h38 : Touch 214742859767 s s18 := ((h37).to (setJf_touch _ _ _ _ (by decide)) rfl).to (setF_touch_in (k := 24) _ _ _ rfl) rfl
      clear_value s18
      have h39 : Touch 214742859767 s s19 := (h38).to (stepBoundary_touch ..) rfl
      clear_value s19
      have h40 : Touch 214742859767 s s20 := (h39).to (skipLog_touch ..) rfl
      clear_value s20
      have h41 : Touch 214742859767 s s21 := (h40).to (modJob_touch ..) rfl
      clear_value s21
      have h42 : Touch 214742859767 s s22 := (h39).to (modJob_touch ..) rfl
      clear_value s22
      have h43 : Touch 214742859767 s s23 := by
        unfold s23
        refine Touch.ite ?_ ?_
        · exact (((h41).to (setJf_touch _ _ _ _ (by decide)) rfl).to (setJf_touch _ _ _ _ (by decide)) rfl).to (showCursor_touch ..) rfl
        · refine Touch.ite ?_ ?_
          · exact ((h42).to (setJf_touch _ _ _ _ (by decide)) rfl).to (setJf_touch _ _ _ _ (by decide)) rfl
          · refine Touch.ite ?_ ?_
            · exact (h39).to (rollback_touch ..) rfl
            · exact (h39).to (setJf_touch _ _ _ _ (by decide)) rfl
      clear_value s23
      have h44 : Touch 214742859767 s s24 := (h43).to (putRecord_touch ..) rfl
      clear_value s24
      have h45 : Touch 214742859767 s s25 := by
        unfold s25
        refine Touch.ite ?_ ?_
        · exact ((h44).to (setJf_touch _ _ _ _ (by decide)) rfl).to (modJob_touch ..) rfl
        · exact h44
      clear_value s25
      clear_value attempt11
      clear_value step10
      clear_value held8
      clear_value mine6
      split
      · rename_i x46 w47 heq48
        exact (((h45).to (inc_touch_in (k := 27) _ _ rfl) rfl).to (event_touch ..) rfl).to (exportFallback_touch ..) rfl
      · rename_i x49 heq50
        exact h45

theorem abandonAll_touch (s cause roll) : Touch 214742859767 s (State.abandonAll s cause roll) := by
  unfold State.abandonAll
  refine Touch.foldl ?_ (fun t0 a1 h2 => ?_)
  · exact Touch.refl ..
  · exact (h2).to (abandon_touch ..) rfl

theorem flushNotices_touch (s p) : Touch 268439556 s (State.flushNotices s p) := by
  unfold State.flushNotices
  extract_lets x0 n1
  clear_value n1
  clear_value x0
  refine Touch.foldl ?_ (fun t2 a3 h4 => ?_)
  · exact Touch.refl ..
  · exact (h4).to (transmit_touch ..) rfl

theorem declareFailed_touch (s code unit) : Touch 231922728951 s (State.declareFailed s code unit) := by
  unfold State.declareFailed
  refine Touch.ite ?_ ?_
  · exact Touch.refl ..
  · extract_lets s0 src1 s2 s3 s4 s5
    have h6 : Touch 231922728951 s s0 := (Touch.refl ..).to (abandonAll_touch ..) rfl
    clear_value s0
    have h7 : Touch 231922728951 s s2 := Touch.set_fov (h6) rfl
    clear_value s2
    have h8 : Touch 231922728951 s s3 := (h7).to (flood_touch ..) rfl
    clear_value s3
    have h9 : Touch 231922728951 s s4 := (h8).to (event_touch ..) rfl
    clear_value s4
    have h10 : Touch 231922728951 s s5 := ((h9).to (setF_touch_in (k := 27) _ _ _ rfl) rfl).to (setFault_touch ..) rfl
    clear_value s5
    clear_value src1
    refine Touch.foldl ?_ (fun t11 a12 h13 => ?_)
    · exact h10
    · refine Touch.ite ?_ ?_
      · exact h13
      · exact ((h13).to (flushNotices_touch ..) rfl).to (portStop_touch ..) rfl

theorem badData_touch (s slot place unit) : Touch 214742859767 s (State.badData s slot place unit) := by
  unfold State.badData
  split
  · rename_i x0 j1 heq2
    refine Touch.ite ?_ ?_
    · exact Touch.refl ..
    · refine Touch.ite ?_ ?_
      · extract_lets s3
        have h4 : Touch 214742859767 s s3 := (Touch.refl ..).to (abandon_touch ..) rfl
        clear_value s3
        exact (h4).to (stopJob_touch ..) rfl
      · extract_lets s5
        have h6 : Touch 214742859767 s s5 := (Touch.refl ..).to (setJob_touch ..) rfl
        clear_value s5
        exact (h6).to (abandon_touch ..) rfl
  · rename_i x7 heq8
    exact Touch.refl ..

theorem rerunOver_touch (s e dests) : Touch 4294967552 s (State.rerunOver s e dests) := by
  unfold State.rerunOver
  extract_lets bound0 mine1 works2 s3
  have h4 : Touch 4294967552 s s3 := by
    unfold s3
    refine Touch.to (N := 256) ?_ { Touch.refl _ s with array := fun e => absurd e (by decide), sound := fun e => ⟨e.mem, e.regs, e.board⟩ } rfl
    exact Touch.refl ..
  clear_value s3
  clear_value works2
  clear_value mine1
  clear_value bound0
  exact (((h4).to (setEf_touch _ _ _ _ (by decide)) rfl).to (setEf_touch _ _ _ _ (by decide)) rfl).to (arrayState_touch ..) rfl

theorem rerunTiles_touch (s e dest) : Touch 4294967552 s (State.rerunTiles s e dest) := by
  unfold State.rerunTiles
  exact (Touch.refl ..).to (rerunOver_touch ..) rfl

theorem copyErrors_touch (s) : Touch 2 s (State.copyErrors s).2 := by
  unfold State.copyErrors
  refine Touch.red1 ?_
  exact Touch.set_fresh (Touch.refl ..) rfl

theorem copyLost_touch (s b byte) : Touch 209919149079 s (State.copyLost s b byte) := by
  unfold State.copyLost
  split
  · rename_i x0 s1 heq2
    have h3 : Touch 209919149079 s s1 := Touch.of2 heq2 (((Touch.refl ..).to (noteUncorrByte_touch ..) rfl).to (remapWord_touch ..) rfl)
    exact (h3).to (voidWord_touch ..) rfl
  · rename_i x4 s5 heq6
    have h7 : Touch 209919149079 s s5 := Touch.of2 heq6 (((Touch.refl ..).to (noteUncorrByte_touch ..) rfl).to (remapWord_touch ..) rfl)
    extract_lets u8
    clear_value u8
    exact ((((h7).to (setBf_touch _ _ _ _ (by decide)) rfl).to (putUnit_touch ..) rfl).to (event_touch ..) rfl).to (voidWord_touch ..) rfl

theorem copyReads_touch (s b ups) : Touch 209919149079 s (State.copyReads s b ups) := by
  unfold State.copyReads
  extract_lets lost0 fixed1 s2
  have h3 : Touch 209919149079 s s2 := (Touch.refl ..).to (correctBytes_touch ..) rfl
  clear_value s2
  clear_value fixed1
  clear_value lost0
  refine Touch.foldl ?_ (fun t4 a5 h6 => ?_)
  · exact h3
  · exact (h6).to (copyLost_touch ..) rfl

theorem moveBank_touch (s : State) (b dest : Nat) (ups : Upsets) : Touch 209919149079 s (s.moveBank b dest ups) := by
  unfold State.moveBank
  extract_lets src s0 x kept s1 s2 y s3 s4
  have h0 : Touch 209919149079 s s0 := (Touch.refl ..).to (copyReads_touch ..) rfl
  clear_value s0
  have h1 : Touch 209919149079 s s1 := h0.to (zeroBytes_touch ..) rfl
  have h2 : Touch 209919149079 s s2 := Touch.set_mem h1 rfl rfl fun h => SMap.wf_setAll _ h
  have h3 : Touch 209919149079 s s3 := h2.to (setBank_touch ..) rfl
  clear_value s3 y
  have h4 : Touch 209919149079 s s4 := (((h3.to (setBf_touch _ _ _ _ (by decide)) rfl).to (setBf_touch _ _ _ _ (by decide)) rfl).to
    (setBf_touch _ _ _ _ (by decide)) rfl).to (wrBank_touch _ _ _ _ (by decide)) rfl
  clear_value s4
  exact (h4.to (setBf_touch _ _ _ _ (by decide)) rfl).to (setBf_touch _ _ _ _ (by decide)) rfl

theorem aliasBanks_touch (s e dest ups) : Touch 209919149079 s (State.aliasBanks s e dest ups) := by
  unfold State.aliasBanks
  refine Touch.foldl ?_ (fun t0 a1 h2 => ?_)
  · exact Touch.refl ..
  · extract_lets led3 led4
    clear_value led4
    clear_value led3
    refine Touch.foldl ?_ (fun t5 a6 h7 => ?_)
    · exact (h2).to (moveBank_touch ..) rfl
    · exact (h7).to (setBf_touch _ _ _ _ (by decide)) rfl

theorem takeover_touch (s e dest) : Touch 214743121911 s (State.takeover s e dest) := by
  unfold State.takeover
  split
  rename_i x0 ups1 s2 heq3
  have h4 : Touch 214743121911 s s2 := Touch.of2 heq3 ((Touch.refl ..).to (copyErrors_touch ..) rfl)
  extract_lets lost5 hit6 s7 s8 s9 s10
  have h11 : Touch 214743121911 s s7 := ((h4).to (stopPattern_touch ..) rfl).to (aliasBanks_touch ..) rfl
  clear_value s7
  have h12 : Touch 214743121911 s s8 := ((h11).to (event_touch ..) rfl).to (inc_touch_in (k := 27) _ _ rfl) rfl
  clear_value s8
  have h13 : Touch 214743121911 s s9 := (h12).to (setUnit_touch ..) rfl
  clear_value s9
  have h14 : Touch 214743121911 s s10 := ((h13).to (rerunTiles_touch ..) rfl).to (rerunTiles_touch ..) rfl
  clear_value s10
  clear_value hit6
  clear_value lost5
  refine Touch.foldl ?_ (fun t15 a16 h17 => ?_)
  · exact h14
  · exact (h17).to (badData_touch ..) rfl

theorem replaceEngine_touch (s e) : Touch 231922991095 s (State.replaceEngine s e) := by
  unfold State.replaceEngine
  extract_lets c0 mat1 acts2
  clear_value acts2
  clear_value mat1
  clear_value c0
  split
  · rename_i x3 j4 heq5
    exact (Touch.refl ..).to (takeover_touch ..) rfl
  · rename_i x6 heq7
    split
    · rename_i x8 j9
      exact ((Touch.refl ..).to (event_touch ..) rfl).to (takeover_touch ..) rfl
    · rename_i x10
      refine Touch.ite ?_ ?_
      · exact ((Touch.refl ..).to (event_touch ..) rfl).to (declareFailed_touch ..) rfl
      · exact ((Touch.refl ..).to (event_touch ..) rfl).to (rerunOver_touch ..) rfl

theorem toTest_touch (s e cause) : Touch 208878960662 s (State.toTest s e cause) := by
  unfold State.toTest
  extract_lets st0
  clear_value st0
  refine Touch.ite ?_ ?_
  · exact Touch.refl ..
  · exact (Touch.refl ..).to (setUnit_touch ..) rfl

theorem engineFail_touch (s e cause) : Touch 231922991095 s (State.engineFail s e cause) := by
  unfold State.engineFail
  extract_lets was0 was1 s2
  have h3 : Touch 231922991095 s s2 := (Touch.refl ..).to (setUnit_touch ..) rfl
  clear_value s2
  clear_value was1
  clear_value was0
  refine Touch.ite ?_ ?_
  · exact Touch.refl ..
  · refine Touch.ite ?_ ?_
    · exact (h3).to (replaceEngine_touch ..) rfl
    · exact (h3).to (rerunTiles_touch ..) rfl

theorem memberFailed_touch (s f code) : Touch 214742859767 s (State.memberFailed s f code) := by
  unfold State.memberFailed
  refine Touch.ite ?_ ?_
  · exact Touch.refl ..
  · extract_lets ports0 s1 unit2 hash3 s4 s5 others6 bad7 src8 s9 s10 filling11 wasOpen12 s13 s14 src15
    have h16 : Touch 214742859767 s s1 := by
      unfold s1
      refine Touch.foldl ?_ (fun t17 a18 h19 => ?_)
      · exact Touch.refl ..
      · exact (h19).to (neighbourFailed_touch ..) rfl
    clear_value s1
    have h20 : Touch 214742859767 s s4 := ((h16).to (setF_touch_in (k := 27) _ _ _ rfl) rfl).to (setF_touch_in (k := 27) _ _ _ rfl) rfl
    clear_value s4
    have h21 : Touch 214742859767 s s5 := ((h20).to (event_touch ..) rfl).to (inc_touch_in (k := 27) _ _ rfl) rfl
    clear_value s5
    have h22 : Touch 214742859767 s s9 := Touch.set_fov (h21) rfl
    clear_value s9
    have h23 : Touch 214742859767 s s10 := (h22).to (abandonAll_touch ..) rfl
    clear_value s10
    have h24 : Touch 214742859767 s s13 := (h22).to (abandonAll_touch ..) rfl
    clear_value s13
    have h25 : Touch 214742859767 s s14 := by
      unfold s14
      refine Touch.ite ?_ ?_
      · exact h24
      · split
        · rename_i x26 j27 heq28
          exact (h24).to (rollback_touch ..) rfl
        · rename_i x29 heq30
          exact h24
    clear_value s14
    clear_value src15
    clear_value wasOpen12
    clear_value filling11
    clear_value src8
    clear_value bad7
    clear_value others6
    clear_value hash3
    clear_value unit2
    clear_value ports0
    refine Touch.ite ?_ ?_
    · refine Touch.foldl ?_ (fun t31 a32 h33 => ?_)
      · exact h23
      · extract_lets st34
        clear_value st34
        refine Touch.ite ?_ ?_
        · exact (h33).to (setJf_touch _ _ _ _ (by decide)) rfl
        · exact h33
    · refine Touch.ite ?_ ?_
      · exact ((h22).to (abandonAll_touch ..) rfl).to (exportFallback_touch ..) rfl
      · exact (Touch.set_fov (h25) rfl).to (setF_touch_in (k := 27) _ _ _ rfl) rfl

theorem opFailed_touch (s slot status place unit) : Touch 214742859767 s (State.opFailed s slot status place unit) := by
  unfold State.opFailed
  split
  · rename_i x0 heq1
    exact Touch.refl ..
  · rename_i x2 j3 heq4
    refine Touch.ite ?_ ?_
    · exact Touch.refl ..
    · refine Touch.ite ?_ ?_
      · extract_lets cause5
        clear_value cause5
        exact ((Touch.refl ..).to (abandon_touch ..) rfl).to (stopJob_touch ..) rfl
      · refine Touch.ite ?_ ?_
        · exact ((Touch.refl ..).to (abandon_touch ..) rfl).to (stopJob_touch ..) rfl
        · refine Touch.ite ?_ ?_
          · exact (Touch.refl ..).to (badData_touch ..) rfl
          · refine Touch.ite ?_ ?_
            · exact Touch.refl ..
            · refine Touch.ite ?_ ?_
              · exact (Touch.refl ..).to (abandon_touch ..) rfl
              · exact Touch.refl ..

theorem opDone_touch (s i status left) : Touch 64 s (State.opDone s i status left) := by
  unfold State.opDone
  split
  · rename_i x0 o1 heq2
    exact Touch.set_ops (Touch.refl ..) rfl
  · rename_i x3 heq4
    exact Touch.refl ..

theorem phaseMove_touch (s slot) : Touch 8388608 s (State.phaseMove s slot) := by
  unfold State.phaseMove
  split
  · rename_i x0 j1 heq2
    refine Touch.ite ?_ ?_
    · exact Touch.refl ..
    · extract_lets ph3
      clear_value ph3
      refine Touch.ite ?_ ?_
      · exact (Touch.refl ..).to (setJf_touch _ _ _ _ (by decide)) rfl
      · refine Touch.ite ?_ ?_
        · exact (Touch.refl ..).to (setJf_touch _ _ _ _ (by decide)) rfl
        · refine Touch.ite ?_ ?_
          · exact (Touch.refl ..).to (setJf_touch _ _ _ _ (by decide)) rfl
          · refine Touch.ite ?_ ?_
            · exact (Touch.refl ..).to (setJf_touch _ _ _ _ (by decide)) rfl
            · exact Touch.refl ..
  · rename_i x4 heq5
    exact Touch.refl ..

theorem phaseStep_touch (s slot) : Touch 8388608 s (State.phaseStep s slot) := by
  unfold State.phaseStep
  exact (((Touch.refl ..).to (phaseMove_touch ..) rfl).to (phaseMove_touch ..) rfl).to (phaseMove_touch ..) rfl

theorem completeOp_touch (s i now) : Touch 209927703799 s (State.completeOp s i now) := by
  unfold State.completeOp
  split
  · rename_i x0 o1 heq2
    extract_lets c3 s4 s5 s6
    have h7 : Touch 209927703799 s s4 := Touch.set_ops (Touch.refl ..) rfl
    clear_value s4
    have h8 : Touch 209927703799 s s5 := by
      unfold s5
      split
      · rename_i x9 j10 heq11
        exact (h7).to (modJob_touch ..) rfl
      · rename_i x12 heq13
        exact h7
    clear_value s5
    have h14 : Touch 209927703799 s s6 := by
      unfold s6
      split
      · rename_i x15 j16 heq17
        exact (h8).to (setJf_touch _ _ _ _ (by decide)) rfl
      · rename_i x18 heq19
        exact h8
    clear_value s6
    clear_value c3
    exact (h14).to (cueRecord_touch ..) rfl
  · rename_i x20 heq21
    exact Touch.refl ..

theorem phaseOf_touch (s o) : Touch 8388608 s (State.phaseOf s o) := by
  unfold State.phaseOf
  split
  · rename_i x0 j1 heq2
    exact (Touch.refl ..).to (phaseStep_touch ..) rfl
  · rename_i x3 heq4
    exact Touch.refl ..

theorem opReject_touch (s i status detail) : Touch 209931898103 s (State.opReject s i status detail) := by
  unfold State.opReject
  split
  · rename_i x0 o1 heq2
    exact (((Touch.set_ops (Touch.refl ..) rfl).to (inc_touch_in (k := 22) _ _ rfl) rfl).to (completeOp_touch ..) rfl).to (phaseOf_touch ..) rfl
  · rename_i x3 heq4
    exact Touch.refl ..

theorem opAbort_touch (s i status place unit) : Touch 214742859767 s (State.opAbort s i status place unit) := by
  unfold State.opAbort
  split
  · rename_i x0 o1 heq2
    extract_lets s3 s4 s5
    have h6 : Touch 214742859767 s s3 := (Touch.refl ..).to (opDone_touch ..) rfl
    clear_value s3
    have h7 : Touch 214742859767 s s4 := (h6).to (dropWork_touch ..) rfl
    clear_value s4
    have h8 : Touch 214742859767 s s5 := (h7).to (completeOp_touch ..) rfl
    clear_value s5
    split
    · rename_i x9 j10 heq11
      refine Touch.to ?_ (phaseStep_touch ..) rfl
      refine Touch.ite ?_ ?_
      · exact (h8).to (opFailed_touch ..) rfl
      · exact h8
    · rename_i x12 heq13
      exact h8
  · rename_i x14 heq15
    exact Touch.refl ..

theorem opAbortAt_touch (s i status a) : Touch 214742859767 s (State.opAbortAt s i status a) := by
  unfold State.opAbortAt
  exact (Touch.refl ..).to (opAbort_touch ..) rfl

theorem opEnd_touch (s i status left a) : Touch 214742859767 s (State.opEnd s i status left a) := by
  unfold State.opEnd
  refine Touch.ite ?_ ?_
  · exact (Touch.refl ..).to (opDone_touch ..) rfl
  · exact (Touch.refl ..).to (opAbortAt_touch ..) rfl

end Sys2Proof.Machine
end

