-- ==== Sys2Proof/Laws/TouchJobs.lean ====
section
/-!
SUPPORT. The footprint of every operation of clears, banks, atomics, queues and jobs: once per operation, the areas it can change.
-/
namespace Sys2Proof.Machine

open Sys2Proof

/-! ### Clears -/

theorem clearMem_touch (s : State) : Touch (2 ^ 29) s s.clearMem := by
  unfold State.clearMem
  have c (t : State) (off n : Nat) (i : Nat) (h1 : 0x200000 ≤ off) (h2 : off + 4 * n ≤ 0x200340) :
      Touch (2 ^ 29) t (t.clearWin off 0x40 8 i 4 n) :=
    clearWin_touch (lo := 0x200000) (hi := 0x300000) _ _ _ _ _ _ _ h1 (by omega) (by decide) rfl (by decide)
  refine Touch.to ?_ (clearRegs_touch (k := 29) _ _ _ _ (by decide)) rfl
  refine Touch.foldl (Touch.refl ..) fun t i h => ?_
  exact (h.to (c t 0x200110 5 i (by decide) (by decide)) rfl).to (c _ 0x200304 4 i (by decide) (by decide)) rfl

theorem clearBnk_touch (s : State) : Touch (2 ^ 30) s s.clearBnk := by
  unfold State.clearBnk
  extract_lets s1
  have h1 : Touch (2 ^ 30) s s1 := by
    have r := Touch.refl (2 ^ 30) s
    refine { r with regs := fun off e => ?_, sound := fun h => ⟨h.mem, regsWf_filter _ h.regs, h.board⟩ }
    unfold s1
    rw [State.rd_eq, State.rd_eq]
    have hf := SMap.find_filter (fun k => !(decide (0x300000 ≤ k) && decide (k < 0x330000) && (k % 0x40 == 0x18 || k % 0x40 == 0x1C || k % 0x40 == 0x20))) s.regs off
    have hin : ¬ (0x300000 ≤ off ∧ off < 0x330000) := fun hr => by
      rw [regArea_eq (lo := 0x300000) (hi := 0x400000) (k := 30) (by omega) rfl (by decide)] at e
      exact absurd e (by decide)
    have hp : (!(decide (0x300000 ≤ off) && decide (off < 0x330000) && (off % 0x40 == 0x18 || off % 0x40 == 0x1C || off % 0x40 == 0x20))) = true := by
      rcases Nat.lt_or_ge off 0x300000 with h | h
      · simp [Nat.not_le.2 h]
      · have : ¬ off < 0x330000 := fun h' => hin ⟨h, h'⟩
        simp [this]
    rw [hp] at hf
    exact congrArg (fun o : Option DWord => (o.map BitVec.toNat).getD (regReset off)) hf
  exact h1.to (clearRegs_touch (k := 30) _ _ _ _ (by decide)) rfl

theorem execCountClear_touch (engine s) {t : State} (e : execCountClear engine s = .next t) :
    Touch 4294967300 s t := by
  refine run_touch e rfl fun u => ?_
  unfold State.hostWrite
  refine Touch.ite ?_ ?_
  · beta_reduce
    exact (Touch.refl ..).to (clearEng_touch _ _ _ _ (by decide) (by decide)) rfl
  · exact Touch.refl ..

theorem execDrainClear_touch (engine s) {t : State} (e : execDrainClear engine s = .next t) :
    Touch 4294967300 s t := by
  refine run_touch e rfl fun u => ?_
  unfold State.hostWrite
  refine Touch.ite ?_ ?_
  · beta_reduce
    exact (Touch.refl ..).to (clearEng_touch _ _ _ _ (by decide) (by decide)) rfl
  · exact Touch.refl ..

theorem execNumClear_touch (s) {t : State} (e : execNumClear s = .next t) :
    Touch 16777220 s t := by
  refine run_touch e rfl fun u => ?_
  unfold State.hostWrite
  refine Touch.ite ?_ ?_
  · beta_reduce
    exact (Touch.refl ..).to (clearRegs_touch (k := 24) _ _ _ _ (by decide)) rfl
  · exact Touch.refl ..

theorem execRngClear_touch (s) {t : State} (e : execRngClear s = .next t) :
    Touch 33554436 s t := by
  refine run_touch e rfl fun u => ?_
  unfold State.hostWrite
  refine Touch.ite ?_ ?_
  · beta_reduce
    exact (Touch.refl ..).to (clearRegs_touch (k := 25) _ _ _ _ (by decide)) rfl
  · exact Touch.refl ..

theorem execQueClear_touch (s) {t : State} (e : execQueClear s = .next t) :
    Touch 4194308 s t := by
  refine run_touch e rfl fun u => ?_
  unfold State.hostWrite
  refine Touch.ite ?_ ?_
  · beta_reduce
    exact (Touch.refl ..).to (clearRegs_touch (k := 22) _ _ _ _ (by decide)) rfl
  · exact Touch.refl ..

theorem execPortClear_touch (port s) {t : State} (e : execPortClear port s = .next t) :
    Touch 268435460 s t := by
  refine run_touch e rfl fun u => ?_
  unfold State.hostWrite
  refine Touch.ite ?_ ?_
  · beta_reduce
    exact (Touch.refl ..).to (clearPort_touch ..) rfl
  · exact Touch.refl ..

theorem execFabClear_touch (s) {t : State} (e : execFabClear s = .next t) :
    Touch 268435460 s t := by
  refine run_touch e rfl fun u => ?_
  unfold State.hostWrite
  refine Touch.ite ?_ ?_
  · beta_reduce
    exact (Touch.refl ..).to (clearRegs_touch (k := 28) _ _ _ _ (by decide)) rfl
  · exact Touch.refl ..

theorem execCkpClear_touch (s) {t : State} (e : execCkpClear s = .next t) :
    Touch 67108868 s t := by
  refine run_touch e rfl fun u => ?_
  unfold State.hostWrite
  refine Touch.ite ?_ ?_
  · beta_reduce
    exact (Touch.refl ..).to (clearRegs_touch (k := 26) _ _ _ _ (by decide)) rfl
  · exact Touch.refl ..

theorem execFovClear_touch (s) {t : State} (e : execFovClear s = .next t) :
    Touch 134217732 s t := by
  refine run_touch e rfl fun u => ?_
  unfold State.hostWrite
  refine Touch.ite ?_ ?_
  · beta_reduce
    exact (Touch.refl ..).to (clearRegs_touch (k := 27) _ _ _ _ (by decide)) rfl
  · exact Touch.refl ..

theorem execUnitClear_touch (s) {t : State} (e : execUnitClear s = .next t) :
    Touch 2147483652 s t := by
  refine run_touch e rfl fun u => ?_
  unfold State.hostWrite
  refine Touch.ite ?_ ?_
  · beta_reduce
    exact (Touch.refl ..).to (clearRegs_touch (k := 31) _ _ _ _ (by decide)) rfl
  · exact Touch.refl ..

theorem execMgtClear_touch (s) {t : State} (e : execMgtClear s = .next t) :
    Touch 17179869188 s t := by
  refine run_touch e rfl fun u => ?_
  unfold State.hostWrite
  refine Touch.ite ?_ ?_
  · beta_reduce
    exact (Touch.refl ..).to (clearRegs_touch (k := 34) _ _ _ _ (by decide)) rfl
  · exact Touch.refl ..

theorem execEvtClear_touch (s) {t : State} (e : execEvtClear s = .next t) :
    Touch 2097156 s t := by
  refine run_touch e rfl fun u => ?_
  unfold State.hostWrite
  refine Touch.ite ?_ ?_
  · beta_reduce
    exact (Touch.refl ..).to (clearRegs_touch (k := 21) _ _ _ _ (by decide)) rfl
  · exact Touch.refl ..

theorem execBnkClear_touch (s) {t : State} (e : execBnkClear s = .next t) :
    Touch 1073741828 s t := by
  refine run_touch e rfl fun u => ?_
  unfold State.hostWrite
  refine Touch.ite ?_ ?_
  · exact (Touch.refl ..).to (clearBnk_touch ..) rfl
  · exact Touch.refl ..

theorem execMemClear_touch (s) {t : State} (e : execMemClear s = .next t) :
    Touch 536870916 s t := by
  refine run_touch e rfl fun u => ?_
  unfold State.hostWrite
  refine Touch.ite ?_ ?_
  · exact (Touch.refl ..).to (clearMem_touch ..) rfl
  · exact Touch.refl ..

/-! ### Banks -/

theorem bankFail_touch (s b) : Touch 231922991095 s (State.bankFail s b) := by
  unfold State.bankFail
  extract_lets u0 s1 t2 inUse3 s4 src5 s6 s7
  have h8 : Touch 231922991095 s s1 := ((Touch.refl ..).to (setBf_touch _ _ _ _ (by decide)) rfl).to (putUnit_touch ..) rfl
  clear_value s1
  have h9 : Touch 231922991095 s s4 := ((h8).to (event_touch ..) rfl).to (initBank_touch ..) rfl
  clear_value s4
  have h10 : Touch 231922991095 s s6 := (h9).to (setBank_touch ..) rfl
  clear_value s6
  have h11 : Touch 231922991095 s s7 := (((h10).to (setBf_touch _ _ _ _ (by decide)) rfl).to (setBf_touch _ _ _ _ (by decide)) rfl).to (wrBank_touch _ _ _ _ (by decide)) rfl
  clear_value s7
  clear_value src5
  clear_value inUse3
  clear_value t2
  clear_value u0
  refine Touch.ite ?_ ?_
  · exact ((h8).to (event_touch ..) rfl).to (engineFail_touch ..) rfl
  · refine Touch.ite ?_ ?_
    · exact ((h8).to (event_touch ..) rfl).to (declareFailed_touch ..) rfl
    · exact ((h11).to (setBf_touch _ _ _ _ (by decide)) rfl).to (setBf_touch _ _ _ _ (by decide)) rfl

theorem uncorrByte_touch (s b byte) : Touch 231922991095 s (State.uncorrByte s b byte) := by
  unfold State.uncorrByte
  extract_lets s0
  have h1 : Touch 231922991095 s s0 := (Touch.refl ..).to (noteUncorrByte_touch ..) rfl
  clear_value s0
  split
  · rename_i x2 s3 heq4
    have h5 : Touch 231922991095 s s3 := Touch.of2 heq4 ((h1).to (remapWord_touch ..) rfl)
    exact (h5).to (voidWord_touch ..) rfl
  · rename_i x6 s7 heq8
    have h9 : Touch 231922991095 s s7 := Touch.of2 heq8 ((h1).to (remapWord_touch ..) rfl)
    exact (h9).to (bankFail_touch ..) rfl

theorem showRemap_touch (s i) : Touch 537133056 s (State.showRemap s i) := by
  unfold State.showRemap
  extract_lets x0 s1 src2
  have h3 : Touch 537133056 s s1 := ((Touch.refl ..).to (setStackF_touch _ _ _ _ (by decide)) rfl).to (setStackF_touch _ _ _ _ (by decide)) rfl
  clear_value s1
  clear_value src2
  clear_value x0
  exact Touch.set_sec (h3) rfl

theorem stackFull_touch (s i) : Touch 231922728951 s (State.stackFull s i) := by
  unfold State.stackFull
  exact ((Touch.refl ..).to (putUnit_touch ..) rfl).to (declareFailed_touch ..) rfl

theorem retireRow_touch (s a) : Touch 231922991095 s (State.retireRow s a) := by
  unfold State.retireRow
  extract_lets i0 x1 e2 s3 s4
  have h5 : Touch 231922991095 s s3 := ((Touch.refl ..).to (setStack_touch ..) rfl).to (showRemap_touch ..) rfl
  clear_value s3
  have h6 : Touch 231922991095 s s4 := (h5).to (event_touch ..) rfl
  clear_value s4
  clear_value e2
  clear_value x1
  clear_value i0
  refine Touch.ite ?_ ?_
  · exact Touch.refl ..
  · refine Touch.ite ?_ ?_
    · exact (Touch.refl ..).to (stackFull_touch ..) rfl
    · refine Touch.ite ?_ ?_
      · exact (h6).to (stackFull_touch ..) rfl
      · exact h6

theorem voidUnit_touch (s k a) : Touch 68719478785 s (State.voidUnit s k a) := by
  unfold State.voidUnit
  exact (Touch.set_voided (Touch.refl ..) rfl).to (zeroBytes_touch ..) rfl

theorem protectionLost_touch (s a unit) : Touch 206697431062 s (State.protectionLost s a unit) := by
  unfold State.protectionLost
  extract_lets c0 off1 hit2 upper3 c4
  clear_value c4
  clear_value upper3
  clear_value hit2
  clear_value off1
  clear_value c0
  refine Touch.ite ?_ ?_
  · exact (Touch.refl ..).to (event_touch ..) rfl
  · refine Touch.ite ?_ ?_
    · exact (Touch.set_ckp (Touch.refl ..) rfl).to (event_touch ..) rfl
    · exact Touch.refl ..

theorem remapRow_touch (s a ups) : Touch 231922991095 s (State.remapRow s a ups) := by
  unfold State.remapRow
  extract_lets i0 x1 mine2 gone3
  clear_value gone3
  clear_value mine2
  clear_value x1
  clear_value i0
  split
  · rename_i x4 n5 heq6
    refine Touch.ite ?_ ?_
    · extract_lets e7 remap8 spares9 s10
      have h11 : Touch 231922991095 s s10 := ((Touch.refl ..).to (setStack_touch ..) rfl).to (showRemap_touch ..) rfl
      clear_value s10
      clear_value spares9
      clear_value remap8
      clear_value e7
      refine Touch.foldl ?_ (fun t12 a13 h14 => ?_)
      · exact h11
      · exact ((((h14).to (addStackF_touch _ _ _ _ (by decide)) rfl).to (event_touch ..) rfl).to (voidUnit_touch ..) rfl).to (protectionLost_touch ..) rfl
    · exact (Touch.refl ..).to (retireRow_touch ..) rfl
  · rename_i x15 heq16
    exact (Touch.refl ..).to (retireRow_touch ..) rfl

theorem correctSector_touch (s a symbols ups) : Touch 231922991095 s (State.correctSector s a symbols ups) := by
  unfold State.correctSector
  extract_lets i0 key1 s2 s3 x4
  have h5 : Touch 231922991095 s s2 := (Touch.refl ..).to (addStackF_touch _ _ _ _ (by decide)) rfl
  clear_value s2
  have h6 : Touch 231922991095 s s3 := by
    unfold s3
    refine Touch.ite ?_ ?_
    · exact (h5).to (addStackF_touch _ _ _ _ (by decide)) rfl
    · exact h5
  clear_value s3
  clear_value x4
  clear_value key1
  clear_value i0
  refine Touch.ite ?_ ?_
  · exact ((h6).to (setStack_touch ..) rfl).to (remapRow_touch ..) rfl
  · exact (h6).to (setStack_touch ..) rfl

theorem uncorrSector_touch (s a ups) : Touch 231922991095 s (State.uncorrSector s a ups) := by
  unfold State.uncorrSector
  extract_lets i0 s1 s2
  have h3 : Touch 231922991095 s s1 := Touch.set_badAt (Touch.refl ..) rfl
  clear_value s1
  have h4 : Touch 231922991095 s s2 := ((h3).to (addStackF_touch _ _ _ _ (by decide)) rfl).to (event_touch ..) rfl
  clear_value s2
  clear_value i0
  exact (((h4).to (voidUnit_touch ..) rfl).to (remapRow_touch ..) rfl).to (protectionLost_touch ..) rfl

theorem dieReports_touch (s ups) : Touch 536870912 s (State.dieReports s ups) := by
  unfold State.dieReports
  refine Touch.foldl ?_ (fun t0 a1 h2 => ?_)
  · exact Touch.refl ..
  · extract_lets n3
    clear_value n3
    refine Touch.ite ?_ ?_
    · exact h2
    · exact (h2).to (addStackF_touch _ _ _ _ (by decide)) rfl

theorem correctLine_touch (s a devices) : Touch 537135104 s (State.correctLine s a devices) := by
  unfold State.correctLine
  extract_lets c0 s1 s2 x3 row4 s5 src6
  have h7 : Touch 537135104 s s1 := (Touch.refl ..).to (addChanF_touch _ _ _ _ (by decide)) rfl
  clear_value s1
  have h8 : Touch 537135104 s s2 := by
    unfold s2
    refine Touch.ite ?_ ?_
    · exact (h7).to (addChanF_touch _ _ _ _ (by decide)) rfl
    · exact h7
  clear_value s2
  have h9 : Touch 537135104 s s5 := (h8).to (setChannel_touch ..) rfl
  clear_value s5
  clear_value src6
  clear_value row4
  clear_value x3
  clear_value c0
  refine Touch.ite ?_ ?_
  · exact Touch.set_sec (h9) rfl
  · exact (h8).to (setChannel_touch ..) rfl

theorem uncorrLine_touch (s a) : Touch 231922991095 s (State.uncorrLine s a) := by
  unfold State.uncorrLine
  extract_lets c0 u1 page2 s3 s4 s5 x6 s7 src8 s9 s10 s11
  have h12 : Touch 231922991095 s s3 := Touch.set_badAt (Touch.refl ..) rfl
  clear_value s3
  have h13 : Touch 231922991095 s s4 := ((h12).to (addChanF_touch _ _ _ _ (by decide)) rfl).to (event_touch ..) rfl
  clear_value s4
  have h14 : Touch 231922991095 s s5 := (h13).to (voidUnit_touch ..) rfl
  clear_value s5
  have h15 : Touch 231922991095 s s7 := ((h14).to (setChannel_touch ..) rfl).to (addChanF_touch _ _ _ _ (by decide)) rfl
  clear_value s7
  have h16 : Touch 231922991095 s s9 := Touch.set_sec (h15) rfl
  clear_value s9
  have h17 : Touch 231922991095 s s10 := (h16).to (event_touch ..) rfl
  clear_value s10
  have h18 : Touch 231922991095 s s11 := by
    unfold s11
    refine Touch.ite ?_ ?_
    · exact h14
    · refine Touch.ite ?_ ?_
      · exact ((h14).to (putUnit_touch ..) rfl).to (declareFailed_touch ..) rfl
      · refine Touch.ite ?_ ?_
        · exact ((h17).to (putUnit_touch ..) rfl).to (declareFailed_touch ..) rfl
        · exact h17
  clear_value s11
  clear_value src8
  clear_value x6
  clear_value page2
  clear_value u1
  clear_value c0
  exact (h18).to (protectionLost_touch ..) rfl

theorem meet_touch (s a n write ups) : Touch 231922991095 s (State.meet s a n write ups).2 := by
  unfold State.meet
  split
  · rename_i x0 heq1
    refine Touch.ite2 ?_ ?_
    · refine Touch.red1 ?_
      exact Touch.refl ..
    · extract_lets loc2 hit3 dead4 group5 s6
      have h7 : Touch 231922991095 s s6 := (Touch.refl ..).to (correctBytes_touch ..) rfl
      clear_value s6
      clear_value group5
      clear_value dead4
      clear_value hit3
      clear_value loc2
      split
      · rename_i x8 p9 heq10
        refine Touch.red1 ?_
        exact (h7).to (uncorrByte_touch ..) rfl
      · rename_i x11 heq12
        refine Touch.red1 ?_
        exact h7
  · rename_i x13 heq14
    extract_lets s15 hit16 s17
    have h18 : Touch 231922991095 s s15 := (Touch.refl ..).to (dieReports_touch ..) rfl
    clear_value s15
    have h19 : Touch 231922991095 s s17 := by
      unfold s17
      refine Touch.foldl ?_ (fun t20 a21 h22 => ?_)
      · exact h18
      · refine Touch.ite ?_ ?_
        · exact (h22).to (correctSector_touch ..) rfl
        · exact h22
    clear_value s17
    clear_value hit16
    split
    · rename_i x23 p24 heq25
      refine Touch.red1 ?_
      exact (h19).to (uncorrSector_touch ..) rfl
    · rename_i x26 heq27
      refine Touch.red1 ?_
      exact h19
  · rename_i x28 heq29
    extract_lets hit30 s31
    have h32 : Touch 231922991095 s s31 := by
      unfold s31
      refine Touch.foldl ?_ (fun t33 a34 h35 => ?_)
      · exact Touch.refl ..
      · refine Touch.ite ?_ ?_
        · exact (h35).to (correctLine_touch ..) rfl
        · exact h35
    clear_value s31
    clear_value hit30
    split
    · rename_i x36 p37 heq38
      refine Touch.red1 ?_
      exact (h32).to (uncorrLine_touch ..) rfl
    · rename_i x39 heq40
      refine Touch.red1 ?_
      exact h32
  · rename_i x41 x42 x43 x44
    refine Touch.red1 ?_
    exact Touch.refl ..

theorem accessRead_touch (s r a n add ups) : Touch 231922991095 s (State.accessRead s r a n add ups).2.2 := by
  unfold State.accessRead
  split
  · rename_i x0 s1 heq2
    have h3 : Touch 231922991095 s s1 := Touch.of2 heq2 ((Touch.refl ..).to (openRange_touch ..) rfl)
    split
    · rename_i x4 s5 heq6
      have h7 : Touch 231922991095 s s5 := Touch.of2 heq6 ((h3).to (meet_touch ..) rfl)
      refine Touch.ite22 ?_ ?_
      · split
        · rename_i x8 n9 heq10
          refine Touch.red2 ?_
          refine Touch.red1 ?_
          exact (h7).to (noteUnwritten_touch ..) rfl
        · rename_i x11 heq12
          refine Touch.red2 ?_
          refine Touch.red1 ?_
          exact h7
      · refine Touch.red2 ?_
        refine Touch.red1 ?_
        exact h7
    · rename_i x13 st14 s15 x16 heq17
      have h18 : Touch 231922991095 s s15 := Touch.of2 heq17 ((h3).to (meet_touch ..) rfl)
      refine Touch.red2 ?_
      refine Touch.red1 ?_
      exact h18
  · rename_i x19 st20 s21 x22 heq23
    have h24 : Touch 231922991095 s s21 := Touch.of2 heq23 ((Touch.refl ..).to (openRange_touch ..) rfl)
    refine Touch.red2 ?_
    refine Touch.red1 ?_
    exact h24

theorem accessWrite_touch (s r a bs ups) : Touch 231922991095 s (State.accessWrite s r a bs ups).2 := by
  unfold State.accessWrite
  split
  · rename_i x0 s1 heq2
    have h3 : Touch 231922991095 s s1 := Touch.of2 heq2 ((Touch.refl ..).to (openRange_touch ..) rfl)
    split
    · rename_i x4 s5 heq6
      have h7 : Touch 231922991095 s s5 := Touch.of2 heq6 ((h3).to (meet_touch ..) rfl)
      refine Touch.red1 ?_
      exact (h7).to (storeBytes_touch ..) rfl
    · rename_i x8 x9
      exact (h3).to (meet_touch ..) rfl
  · rename_i x10 x11
    exact (Touch.refl ..).to (openRange_touch ..) rfl

theorem answer_touch (s w status a bs) : Touch 214742859767 s (State.answer s w status a bs) := by
  unfold State.answer
  extract_lets s0
  have h1 : Touch 214742859767 s s0 := (Touch.refl ..).to (emit_touch ..) rfl
  clear_value s0
  split
  · rename_i x2 n3 heq4
    refine Touch.ite ?_ ?_
    · exact h1
    · exact (h1).to (opAbortAt_touch ..) rfl
  · rename_i x5 heq6
    exact h1

theorem execBankRead_touch (who addr len ups s) {t : State} (e : execBankRead who addr len ups s = .next t) :
    Touch 231922991095 s t := by
  refine run_touch e rfl fun u => ?_
  split
  rename_i x0 st1 bs2 s3 heq4
  have h5 : Touch 231922991095 u s3 := Touch.of22 heq4 ((Touch.refl ..).to (accessRead_touch ..) rfl)
  exact (h5).to (answer_touch ..) rfl

theorem execBankWrite_touch (who line cells s) {t : State} (e : execBankWrite who line cells s = .next t) :
    Touch 214742859767 s t := by
  refine run_touch e rfl fun u => ?_
  split
  rename_i x0 st1 s2 heq3
  have h4 : Touch 214742859767 u s2 := Touch.of2 heq3 ((Touch.refl ..).to (openRange_touch ..) rfl)
  refine Touch.ite ?_ ?_
  · refine Touch.to ?_ (answer_touch ..) rfl
    refine Touch.foldl ?_ (fun t5 a6 h7 => ?_)
    · exact h4
    · exact (h7).to (storeBytes_touch ..) rfl
  · exact (h4).to (answer_touch ..) rfl

theorem ownerWrite_touch (s bank port kind index raw) : Touch 207771140118 s (State.ownerWrite s bank port kind index raw) := by
  unfold State.ownerWrite
  extract_lets off0 w1
  clear_value w1
  clear_value off0
  refine Touch.ite ?_ ?_
  · exact Touch.refl ..
  · refine Touch.ite ?_ ?_
    · exact (Touch.refl ..).to (discardWrite_touch ..) rfl
    · refine Touch.ite ?_ ?_
      · exact (Touch.refl ..).to (discardWrite_touch ..) rfl
      · refine Touch.ite ?_ ?_
        · exact (Touch.refl ..).to (discardWrite_touch ..) rfl
        · refine Touch.ite ?_ ?_
          · exact Touch.refl ..
          · exact (Touch.refl ..).to (wrOwner_touch ..) rfl

theorem execBankOwnerWrite_touch (bank port kind index s) {t : State} (e : execBankOwnerWrite bank port kind index s = .next t) :
    Touch 207771140118 s t := by
  refine run_touch e rfl fun u => ?_
  unfold State.hostWrite
  refine Touch.ite ?_ ?_
  · beta_reduce
    exact (Touch.refl ..).to (ownerWrite_touch ..) rfl
  · exact Touch.refl ..

theorem execHandoverComplete_touch (bank port s) {t : State} (e : execHandoverComplete bank port s = .next t) :
    Touch 209919148054 s t := by
  refine run_touch e rfl fun u => ?_
  refine Touch.ite ?_ ?_
  · exact (Touch.refl ..).to (handOver_touch ..) rfl
  · exact Touch.refl ..

theorem powerWrite_touch (s bank req raw) : Touch 207771140118 s (State.powerWrite s bank req raw) := by
  unfold State.powerWrite
  extract_lets off0 s1
  have h2 : Touch 207771140118 s s1 := (Touch.refl ..).to (setBf_touch _ _ _ _ (by decide)) rfl
  clear_value s1
  clear_value off0
  refine Touch.ite ?_ ?_
  · exact (Touch.refl ..).to (discardWrite_touch ..) rfl
  · refine Touch.ite ?_ ?_
    · exact (Touch.refl ..).to (discardWrite_touch ..) rfl
    · refine Touch.ite ?_ ?_
      · exact (Touch.refl ..).to (discardWrite_touch ..) rfl
      · refine Touch.ite ?_ ?_
        · exact h2
        · exact (h2).to (setBf_touch _ _ _ _ (by decide)) rfl

theorem execBankPowerRequest_touch (bank req s) {t : State} (e : execBankPowerRequest bank req s = .next t) :
    Touch 207771140118 s t := by
  refine run_touch e rfl fun u => ?_
  unfold State.hostWrite
  refine Touch.ite ?_ ?_
  · beta_reduce
    exact (Touch.refl ..).to (powerWrite_touch ..) rfl
  · exact Touch.refl ..

theorem bankOff_touch (s b) : Touch 68719477761 s (State.bankOff s b) := by
  unfold State.bankOff
  extract_lets x0
  clear_value x0
  exact ((Touch.refl ..).to (setBank_touch ..) rfl).to (zeroBytes_touch ..) rfl

theorem execBankPowerStateEntry_touch (bank s) {t : State} (e : execBankPowerStateEntry bank s = .next t) :
    Touch 209919149079 s t := by
  refine run_touch e rfl fun u => ?_
  extract_lets req0 s1
  have h2 : Touch 209919149079 u s1 := ((Touch.refl ..).to (bankOff_touch ..) rfl).to (setBf_touch _ _ _ _ (by decide)) rfl
  clear_value s1
  clear_value req0
  refine Touch.ite ?_ ?_
  · exact Touch.refl ..
  · refine Touch.ite ?_ ?_
    · exact (Touch.refl ..).to (setBf_touch _ _ _ _ (by decide)) rfl
    · refine Touch.ite ?_ ?_
      · refine Touch.ite ?_ ?_
        · exact (h2).to (putUnit_touch ..) rfl
        · exact h2
      · exact Touch.refl ..

theorem execBankPowerUpDone_touch (bank s) {t : State} (e : execBankPowerUpDone bank s = .next t) :
    Touch 209919149079 s t := by
  refine run_touch e rfl fun u => ?_
  extract_lets req0 s1 s2
  have h3 : Touch 209919149079 u s1 := by
    unfold s1
    refine Touch.ite ?_ ?_
    · exact (Touch.refl ..).to (initBank_touch ..) rfl
    · exact Touch.refl ..
  clear_value s1
  have h4 : Touch 209919149079 u s2 := by
    unfold s2
    refine Touch.ite ?_ ?_
    · exact h3
    · exact (h3).to (setBf_touch _ _ _ _ (by decide)) rfl
  clear_value s2
  clear_value req0
  refine Touch.ite ?_ ?_
  · refine Touch.ite ?_ ?_
    · exact (h4).to (putUnit_touch ..) rfl
    · exact h4
  · exact Touch.refl ..

theorem scrubRound_touch (s bank) : Touch 1073742848 s (State.scrubRound s bank) := by
  unfold State.scrubRound
  extract_lets src0 s1
  have h2 : Touch 1073742848 s s1 := (Touch.refl ..).to (setBank_touch ..) rfl
  clear_value s1
  clear_value src0
  refine Touch.ite ?_ ?_
  · refine Touch.to ?_ (inc_touch_in (k := 30) _ _ rfl) rfl
    refine Touch.foldl ?_ (fun t3 a4 h5 => ?_)
    · exact h2
    · refine Touch.ite ?_ ?_
      · exact (h5).to (setBank_touch ..) rfl
      · exact h5
  · exact h2

theorem execBankPatrolScrub_touch (bank ups s) {t : State} (e : execBankPatrolScrub bank ups s = .next t) :
    Touch 231922991095 s t := by
  refine run_touch e rfl fun u => ?_
  refine Touch.ite ?_ ?_
  · exact Touch.refl ..
  · extract_lets w0 x1 hit2 gone3 s4 s5 src6 s7 s8
    have h9 : Touch 231922991095 u s4 := (Touch.refl ..).to (setBf_touch _ _ _ _ (by decide)) rfl
    clear_value s4
    have h10 : Touch 231922991095 u s5 := by
      unfold s5
      refine Touch.ite ?_ ?_
      · exact (h9).to (scrubRound_touch ..) rfl
      · exact h9
    clear_value s5
    have h11 : Touch 231922991095 u s7 := by
      unfold s7
      refine Touch.ite ?_ ?_
      · exact h10
      · exact Touch.set_sec (h10) rfl
    clear_value s7
    have h12 : Touch 231922991095 u s8 := (h11).to (correctBytes_touch ..) rfl
    clear_value s8
    clear_value src6
    clear_value gone3
    clear_value hit2
    clear_value x1
    clear_value w0
    split
    · rename_i x13 p14
      refine Touch.ite ?_ ?_
      · extract_lets s15
        have h16 : Touch 231922991095 u s15 := (((h12).to (addBf_touch _ _ _ _ (by decide)) rfl).to (inc_touch_in (k := 30) _ _ rfl) rfl).to (wrBank_touch _ _ _ _ (by decide)) rfl
        clear_value s15
        split
        · rename_i x17 s18 heq19
          have h20 : Touch 231922991095 u s18 := Touch.of2 heq19 ((h16).to (remapWord_touch ..) rfl)
          exact ((h20).to (voidWord_touch ..) rfl).to (event_touch ..) rfl
        · rename_i x21 s22 heq23
          have h24 : Touch 231922991095 u s22 := Touch.of2 heq23 ((h16).to (remapWord_touch ..) rfl)
          exact (h24).to (event_touch ..) rfl
      · refine Touch.foldl ?_ (fun t25 a26 h27 => ?_)
        · exact (h12).to (uncorrByte_touch ..) rfl
        · exact (h27).to (badData_touch ..) rfl
    · rename_i x28
      exact h12

theorem execDegradedEngineMove_touch (engine s) {t : State} (e : execDegradedEngineMove engine s = .next t) :
    Touch 214247671063 s t := by
  refine run_touch e rfl fun u => ?_
  extract_lets worn0 boundary1
  clear_value boundary1
  clear_value worn0
  split
  · rename_i x2 n3
    refine Touch.ite ?_ ?_
    · split
      · rename_i x4 n5 heq6
        split
        rename_i x7 ups8 s9 heq10
        have h11 : Touch 214247671063 u s9 := Touch.of2 heq10 ((Touch.refl ..).to (copyErrors_touch ..) rfl)
        extract_lets s12 s13 s14
        have h15 : Touch 214247671063 u s12 := (h11).to (aliasBanks_touch ..) rfl
        clear_value s12
        have h16 : Touch 214247671063 u s13 := (h15).to (event_touch ..) rfl
        clear_value s13
        have h17 : Touch 214247671063 u s14 := ((h16).to (setUnit_touch ..) rfl).to (rerunTiles_touch ..) rfl
        clear_value s14
        exact (h17).to (setUnit_touch ..) rfl
      · rename_i x18 heq19
        exact (Touch.refl ..).to (event_touch ..) rfl
    · exact Touch.refl ..
  · rename_i x20
    exact Touch.refl ..

/-! ### Atomics -/

theorem countAtomic_touch (s a sat) : Touch 536870912 s (State.countAtomic s a sat) := by
  unfold State.countAtomic
  refine Touch.ite ?_ ?_
  · exact Touch.refl ..
  · extract_lets s0
    have h1 : Touch 536870912 s s0 := (Touch.refl ..).to (inc_touch_in (k := 29) _ _ rfl) rfl
    clear_value s0
    refine Touch.ite ?_ ?_
    · exact (h1).to (inc_touch_in (k := 29) _ _ rfl) rfl
    · exact h1

theorem atomic_touch (s w a n add want ups f) : Touch 231922991095 s (State.atomic s w a n add want ups f) := by
  unfold State.atomic
  split
  · rename_i x0 heq1
    split
    · rename_i x2 old3 s4 heq5
      have h6 : Touch 231922991095 s s4 := Touch.of22 heq5 ((Touch.refl ..).to (accessRead_touch ..) rfl)
      split
      rename_i x7 new8 sat9 heq10
      extract_lets s11
      have h12 : Touch 231922991095 s s11 := ((h6).to (storeBytes_touch ..) rfl).to (countAtomic_touch ..) rfl
      clear_value s11
      exact (h12).to (emit_touch ..) rfl
    · rename_i x13 st14 fst15 s16 x17 heq18
      have h19 : Touch 231922991095 s s16 := Touch.of22 heq18 ((Touch.refl ..).to (accessRead_touch ..) rfl)
      exact (h19).to (answer_touch ..) rfl
  · rename_i x20 x21
    exact (Touch.refl ..).to (answer_touch ..) rfl

theorem markNonrepro_touch (s slot) : Touch 8388608 s (State.markNonrepro s slot) := by
  unfold State.markNonrepro
  split
  · rename_i slot0 j1
    exact (Touch.refl ..).to (setJf_touch _ _ _ _ (by decide)) rfl
  · rename_i slot2
    exact Touch.refl ..

theorem noteAddSat_touch (s slot a tile torus coord) : Touch 206697398422 s (State.noteAddSat s slot a tile torus coord) := by
  unfold State.noteAddSat
  extract_lets u0 args1
  clear_value args1
  clear_value u0
  split
  · rename_i x2 j3 x4 heq5
    refine Touch.ite ?_ ?_
    · exact (Touch.refl ..).to (suppress_touch ..) rfl
    · exact ((Touch.refl ..).to (setJob_touch ..) rfl).to (event_touch ..) rfl
  · rename_i x6 heq7
    exact (Touch.refl ..).to (event_touch ..) rfl

theorem addRow_touch (s r hdr a i xs torus coord ups) : Touch 231922991095 s (State.addRow s r hdr a i xs torus coord ups).2.2 := by
  unfold State.addRow
  extract_lets n0 st1
  clear_value st1
  clear_value n0
  refine Touch.ite22 ?_ ?_
  · refine Touch.red2 ?_
    refine Touch.red1 ?_
    exact Touch.refl ..
  · split
    · rename_i x2 old3 s4 heq5
      have h6 : Touch 231922991095 s s4 := by
        refine Touch.of22 heq5 ?_
        split
        · rename_i slot7 j8
          have h9 : Touch 231922991095 s s4 := by
            refine Touch.of22 heq5 ?_
            split
            · rename_i slot10 j11 heq12
              split
              · rename_i x13 heq14
                exact (Touch.refl ..).to (accessRead_touch ..) rfl
              · rename_i x15 x16
                refine Touch.red2 ?_
                refine Touch.red1 ?_
                exact Touch.refl ..
            · rename_i slot17 heq18
              refine Touch.red2 ?_
              refine Touch.red1 ?_
              exact Touch.refl ..
          split
          · rename_i x19 heq20
            exact (Touch.refl ..).to (accessRead_touch ..) rfl
          · rename_i x21 x22
            refine Touch.red2 ?_
            refine Touch.red1 ?_
            exact Touch.refl ..
        · rename_i slot23
          have h24 : Touch 231922991095 s s4 := by
            refine Touch.of22 heq5 ?_
            split
            · rename_i slot25 j26 heq27
              split
              · rename_i x28 heq29
                exact (Touch.refl ..).to (accessRead_touch ..) rfl
              · rename_i x30 x31
                refine Touch.red2 ?_
                refine Touch.red1 ?_
                exact Touch.refl ..
            · rename_i slot32 heq33
              refine Touch.red2 ?_
              refine Touch.red1 ?_
              exact Touch.refl ..
          refine Touch.red2 ?_
          refine Touch.red1 ?_
          exact Touch.refl ..
      refine Touch.ite22 ?_ ?_
      · refine Touch.red2 ?_
        refine Touch.red1 ?_
        exact h6
      · split
        · rename_i x34 old35 s36 heq37
          have h38 : Touch 231922991095 s s36 := Touch.of22 heq37 ((h6).to (accessRead_touch ..) rfl)
          extract_lets h39 et40 moved41 sums42 sat43 lost44 s45 h46 s47 s48
          have h49 : Touch 231922991095 s s45 := (h38).to (storeBytes_touch ..) rfl
          clear_value s45
          have h50 : Touch 231922991095 s s47 := by
            unfold s47
            split
            · rename_i slot51 j52
              have h53 : Touch 231922991095 s s4 := by
                refine Touch.of22 heq5 ?_
                split
                · rename_i slot54 j55 heq56
                  split
                  · rename_i x57 heq58
                    exact (Touch.refl ..).to (accessRead_touch ..) rfl
                  · rename_i x59 x60
                    refine Touch.red2 ?_
                    refine Touch.red1 ?_
                    exact Touch.refl ..
                · rename_i slot61 heq62
                  refine Touch.red2 ?_
                  refine Touch.red1 ?_
                  exact Touch.refl ..
              exact (h49).to (storeBytes_touch ..) rfl
            · rename_i slot63
              have h64 : Touch 231922991095 s s4 := by
                refine Touch.of22 heq5 ?_
                split
                · rename_i slot65 j66 heq67
                  split
                  · rename_i x68 heq69
                    exact (Touch.refl ..).to (accessRead_touch ..) rfl
                  · rename_i x70 x71
                    refine Touch.red2 ?_
                    refine Touch.red1 ?_
                    exact Touch.refl ..
                · rename_i slot72 heq73
                  refine Touch.red2 ?_
                  refine Touch.red1 ?_
                  exact Touch.refl ..
              exact h49
          clear_value s47
          have h74 : Touch 231922991095 s s48 := by
            unfold s48
            refine Touch.ite ?_ ?_
            · exact (h50).to (noteAddSat_touch ..) rfl
            · exact h50
          clear_value s48
          clear_value h46
          clear_value lost44
          clear_value sat43
          clear_value sums42
          clear_value moved41
          clear_value et40
          clear_value h39
          refine Touch.red2 ?_
          refine Touch.red1 ?_
          exact (h74).to (countAtomic_touch ..) rfl
        · rename_i x75 st76 fst77 s78 x79 heq80
          have h81 : Touch 231922991095 s s78 := Touch.of22 heq80 ((h6).to (accessRead_touch ..) rfl)
          refine Touch.red2 ?_
          refine Touch.red1 ?_
          exact h81
    · rename_i x82 st83 fst84 s85 x86 heq87
      have h88 : Touch 231922991095 s s85 := by
        refine Touch.of22 heq87 ?_
        split
        · rename_i slot89 j90
          have h91 : Touch 231922991095 s s85 := by
            refine Touch.of22 heq87 ?_
            split
            · rename_i slot92 j93 heq94
              split
              · rename_i x95 heq96
                exact (Touch.refl ..).to (accessRead_touch ..) rfl
              · rename_i x97 x98
                refine Touch.red2 ?_
                refine Touch.red1 ?_
                exact Touch.refl ..
            · rename_i slot99 heq100
              refine Touch.red2 ?_
              refine Touch.red1 ?_
              exact Touch.refl ..
          split
          · rename_i x101 heq102
            exact (Touch.refl ..).to (accessRead_touch ..) rfl
          · rename_i x103 x104
            refine Touch.red2 ?_
            refine Touch.red1 ?_
            exact Touch.refl ..
        · rename_i slot105
          have h106 : Touch 231922991095 s s85 := by
            refine Touch.of22 heq87 ?_
            split
            · rename_i slot107 j108 heq109
              split
              · rename_i x110 heq111
                exact (Touch.refl ..).to (accessRead_touch ..) rfl
              · rename_i x112 x113
                refine Touch.red2 ?_
                refine Touch.red1 ?_
                exact Touch.refl ..
            · rename_i slot114 heq115
              refine Touch.red2 ?_
              refine Touch.red1 ?_
              exact Touch.refl ..
          refine Touch.red2 ?_
          refine Touch.red1 ?_
          exact Touch.refl ..
      refine Touch.red2 ?_
      refine Touch.red1 ?_
      exact h88

theorem execAddW32_touch (who addr v want ups s) {t : State} (e : execAddW32 who addr v want ups s = .next t) :
    Touch 231922991095 s t := by
  refine run_touch e rfl fun u => ?_
  exact (Touch.refl ..).to (atomic_touch ..) rfl

theorem execAddW64_touch (who addr v want ups s) {t : State} (e : execAddW64 who addr v want ups s = .next t) :
    Touch 231922991095 s t := by
  refine run_touch e rfl fun u => ?_
  exact (Touch.refl ..).to (atomic_touch ..) rfl

theorem execAddI32_touch (who addr v ups s) {t : State} (e : execAddI32 who addr v ups s = .next t) :
    Touch 231922991095 s t := by
  refine run_touch e rfl fun u => ?_
  exact (Touch.refl ..).to (atomic_touch ..) rfl

theorem execAddA64_touch (who hdr addr info elems ups s) {t : State} (e : execAddA64 who hdr addr info elems ups s = .next t) :
    Touch 231922991095 s t := by
  refine run_touch e rfl fun u => ?_
  split
  rename_i x0 st1 sat2 s3 heq4
  have h5 : Touch 231922991095 u s3 := Touch.of22 heq4 ((Touch.refl ..).to (addRow_touch ..) rfl)
  refine Touch.ite ?_ ?_
  · exact (h5).to (emit_touch ..) rfl
  · exact (h5).to (answer_touch ..) rfl

theorem execAddF32_touch (who addr v ups s) {t : State} (e : execAddF32 who addr v ups s = .next t) :
    Touch 231922991095 s t := by
  refine run_touch e rfl fun u => ?_
  extract_lets r0
  clear_value r0
  split
  · rename_i x1 heq2
    split
    · rename_i x3 old4 s5 heq6
      have h7 : Touch 231922991095 u s5 := Touch.of22 heq6 ((Touch.refl ..).to (accessRead_touch ..) rfl)
      extract_lets x8
      clear_value x8
      exact ((((h7).to (storeBytes_touch ..) rfl).to (countAtomic_touch ..) rfl).to (markNonrepro_touch ..) rfl).to (emit_touch ..) rfl
    · rename_i x9 st10 fst11 s12 x13 heq14
      have h15 : Touch 231922991095 u s12 := Touch.of22 heq14 ((Touch.refl ..).to (accessRead_touch ..) rfl)
      exact (h15).to (answer_touch ..) rfl
  · rename_i x16 x17
    exact (Touch.refl ..).to (answer_touch ..) rfl

theorem execSwap32_touch (who addr v ups s) {t : State} (e : execSwap32 who addr v ups s = .next t) :
    Touch 231922991095 s t := by
  refine run_touch e rfl fun u => ?_
  exact (Touch.refl ..).to (atomic_touch ..) rfl

theorem execSwap64_touch (who addr v ups s) {t : State} (e : execSwap64 who addr v ups s = .next t) :
    Touch 231922991095 s t := by
  refine run_touch e rfl fun u => ?_
  exact (Touch.refl ..).to (atomic_touch ..) rfl

/-! ### Queue -/

theorem rejectCue_touch (s c r) : Touch 209923509431 s (State.rejectCue s c r) := by
  unfold State.rejectCue
  exact ((Touch.refl ..).to (inc_touch_in (k := 22) _ _ rfl) rfl).to (cueRecord_touch ..) rfl

theorem enqueue_touch (s c held) : Touch 4194336 s (State.enqueue s c held) := by
  unfold State.enqueue
  extract_lets s0
  have h1 : Touch 4194336 s s0 := Touch.set_waiting (Touch.refl ..) rfl
  clear_value s0
  refine Touch.ite ?_ ?_
  · exact (h1).to (inc_touch_in (k := 22) _ _ rfl) rfl
  · exact h1

theorem acceptCue_touch (s q raw) : Touch 209923509431 s ((State.acceptCue s q raw).getD s) := by
  unfold State.acceptCue
  extract_lets c0 slot1 director2 b3 later4 bad5 held6 x7 s8
  have h9 : Touch 209923509431 s s8 := ((Touch.set_nextCue (Touch.refl ..) rfl).to (updateQueue_touch ..) rfl).to (inc_touch_in (k := 22) _ _ rfl) rfl
  clear_value s8
  clear_value x7
  clear_value held6
  clear_value bad5
  clear_value later4
  clear_value b3
  clear_value director2
  clear_value slot1
  clear_value c0
  refine Touch.iteO ?_ ?_
  · exact Touch.refl ..
  · refine Touch.someO ?_
    refine Touch.ite ?_ ?_
    · exact (h9).to (rejectCue_touch ..) rfl
    · exact (h9).to (enqueue_touch ..) rfl

theorem fetchHost_touch (s q a) : Touch 209923509431 s (State.fetchHost s q a) := by
  induction a generalizing s q
  · unfold State.fetchHost
    extract_lets x0
    clear_value x0
    refine Touch.ite ?_ ?_
    · exact (Touch.refl ..).to (setQueue_touch ..) rfl
    · exact Touch.refl ..
  · rename_i n1 a2
    unfold State.fetchHost
    extract_lets x3 a4
    clear_value a4
    clear_value x3
    refine Touch.ite ?_ ?_
    · exact Touch.refl ..
    · refine Touch.ite ?_ ?_
      · exact (Touch.refl ..).to (setQueue_touch ..) rfl
      · split
        · rename_i x5 raw6 s7 heq8
          have h9 : Touch 209923509431 s s7 := Touch.of22 heq8 ((Touch.refl ..).to (devRead_touch ..) rfl)
          split
          · rename_i x10 s11 heq12
            have h13 : Touch 209923509431 s s11 := by
              refine Touch.ofO (d := s) heq12 ?_
              refine Touch.toO ?_ (acceptCue_touch ..) rfl
              exact h9
            exact (h13).to (a2 _ _) rfl
          · rename_i x14 heq15
            exact h9
        · rename_i x16 fst17 fst18 s19 x20 heq21
          have h22 : Touch 209923509431 s s19 := Touch.of22 heq21 ((Touch.refl ..).to (devRead_touch ..) rfl)
          exact (h22).to (haltQueue_touch ..) rfl

theorem fetchProgram_touch (s slot a) : Touch 4194464 s (State.fetchProgram s slot a) := by
  induction a generalizing s slot
  · unfold State.fetchProgram
    exact Touch.refl ..
  · rename_i n0 a1
    unfold State.fetchProgram
    split
    · rename_i x2 j3 heq4
      split
      · rename_i x5 raw6 heq7
        extract_lets c8 held9 s10
        have h11 : Touch 4194464 s s10 := ((Touch.set_nextCue (Touch.refl ..) rfl).to (setJob_touch ..) rfl).to (enqueue_touch ..) rfl
        clear_value s10
        clear_value held9
        clear_value c8
        refine Touch.ite ?_ ?_
        · exact Touch.refl ..
        · exact (h11).to (a1 _ _) rfl
      · rename_i x12 heq13
        exact Touch.refl ..
    · rename_i x14 heq15
      exact Touch.refl ..

theorem fetchMatinee_touch (s slot a) : Touch 4194464 s (State.fetchMatinee s slot a) := by
  induction a generalizing s slot
  · unfold State.fetchMatinee
    exact Touch.refl ..
  · rename_i n0 a1
    unfold State.fetchMatinee
    split
    · rename_i x2 j3 heq4
      split
      · rename_i x5 raw6 heq7
        exact (((Touch.set_nextCue (Touch.refl ..) rfl).to (setJob_touch ..) rfl).to (enqueue_touch ..) rfl).to (a1 _ _) rfl
      · rename_i x8 heq9
        exact Touch.refl ..
    · rename_i x10 heq11
      exact Touch.refl ..

theorem visit_touch (s src) : Touch 209923509431 s (State.visit s src) := by
  unfold State.visit
  refine Touch.ite ?_ ?_
  · exact (Touch.refl ..).to (fetchHost_touch ..) rfl
  · refine Touch.ite ?_ ?_
    · exact (Touch.refl ..).to (fetchProgram_touch ..) rfl
    · exact (Touch.refl ..).to (fetchMatinee_touch ..) rfl

theorem execCueFetch_touch (s) {t : State} (e : execCueFetch s = .next t) :
    Touch 209923509431 s t := by
  refine run_touch e rfl fun u => ?_
  refine Touch.ite ?_ ?_
  · split
    · rename_i x0 slot1 heq2
      exact (Touch.refl ..).to (visit_touch ..) rfl
    · rename_i x3 heq4
      extract_lets src5
      clear_value src5
      split
      · rename_i x6 slot7 heq8
        exact (Touch.set_rr (Touch.refl ..) rfl).to (visit_touch ..) rfl
      · rename_i x9 heq10
        exact Touch.refl ..
  · exact Touch.refl ..

theorem issue_touch (s c i) : Touch 209931898103 s (State.issue s c i) := by
  unfold State.issue
  extract_lets b0 slot1 bad2 bad3 o4 s5
  have h6 : Touch 209931898103 s s5 := by
    unfold s5
    refine Touch.to (N := 96) ?_ { Touch.refl _ s with queues := fun e => absurd e (by decide), ops := fun e => absurd e (by decide), sound := fun e => ⟨e.mem, e.regs, e.board⟩ } rfl
    exact Touch.refl ..
  clear_value s5
  clear_value o4
  clear_value bad3
  clear_value bad2
  clear_value slot1
  clear_value b0
  refine Touch.ite ?_ ?_
  · exact (h6).to (opReject_touch ..) rfl
  · split
    · rename_i x7 slot8
      extract_lets s9 s10
      have h11 : Touch 209931898103 s s9 := (h6).to (modJob_touch ..) rfl
      clear_value s9
      have h12 : Touch 209931898103 s s10 := by
        unfold s10
        refine Touch.ite ?_ ?_
        · exact (h11).to (setJf_touch _ _ _ _ (by decide)) rfl
        · exact h11
      clear_value s10
      exact (h12).to (phaseStep_touch ..) rfl
    · rename_i x13
      exact h6

theorem execCueIssue_touch (id s) {t : State} (e : execCueIssue id s = .next t) :
    Touch 209931898103 s t := by
  refine run_touch e rfl fun u => ?_
  split
  · rename_i x0 c1 heq2
    refine Touch.ite ?_ ?_
    · exact Touch.refl ..
    · split
      · rename_i x3 slot4 heq5
        exact (Touch.refl ..).to (issue_touch ..) rfl
      · rename_i x6 heq7
        exact Touch.refl ..
  · rename_i x8 heq9
    exact Touch.refl ..

theorem bwdSums_touch (s slot) : Touch 209919280279 s (State.bwdSums s slot) := by
  unfold State.bwdSums
  split
  · rename_i x0 j1 heq2
    extract_lets ph3
    clear_value ph3
    refine Touch.ite ?_ ?_
    · exact (Touch.refl ..).to (formSums_touch ..) rfl
    · exact Touch.refl ..
  · rename_i x4 heq5
    exact Touch.refl ..

theorem execCueComplete_touch (op s) {t : State} (e : execCueComplete op s = .next t) :
    Touch 209927703799 s t := by
  refine run_touch e rfl fun u => ?_
  split
  · rename_i x0 o1 heq2
    refine Touch.ite ?_ ?_
    · extract_lets s3
      have h4 : Touch 209927703799 u s3 := (Touch.refl ..).to (completeOp_touch ..) rfl
      clear_value s3
      split
      · rename_i x5 slot6 heq7
        exact ((h4).to (phaseStep_touch ..) rfl).to (bwdSums_touch ..) rfl
      · rename_i x8 heq9
        exact h4
    · exact Touch.refl ..
  · rename_i x10 heq11
    exact Touch.refl ..

theorem execCompletionRecordWrite_touch (queue s) {t : State} (e : execCompletionRecordWrite queue s = .next t) :
    Touch 209919314999 s t := by
  refine run_touch e rfl fun u => ?_
  refine Touch.ite ?_ ?_
  · exact Touch.refl ..
  · exact (Touch.refl ..).to (writeRecord_touch ..) rfl

theorem execMsixMessage_touch (vector s) {t : State} (e : execMsixMessage vector s = .next t) :
    Touch 137440002052 s t := by
  refine run_touch e rfl fun u => ?_
  refine Touch.ite ?_ ?_
  · extract_lets src0 s1
    have h2 : Touch 137440002052 u s1 := Touch.set_due (Touch.refl ..) rfl
    clear_value s1
    clear_value src0
    split
    rename_i x3 a4 d5 m6 heq7
    refine Touch.ite ?_ ?_
    · exact (h2).to (setPba_touch ..) rfl
    · exact (h2).to (emit_touch ..) rfl
  · exact Touch.refl ..

theorem unmask_touch (s v) : Touch 1048580 s (State.unmask s v) := by
  unfold State.unmask
  extract_lets s0
  have h1 : Touch 1048580 s s0 := (Touch.refl ..).to (wrMask_touch ..) rfl
  clear_value s0
  refine Touch.ite ?_ ?_
  · split
    rename_i x2 a3 d4 m5 heq6
    exact ((h1).to (setPba_touch ..) rfl).to (emit_touch ..) rfl
  · exact h1

theorem execMsixUnmask_touch (vector s) {t : State} (e : execMsixUnmask vector s = .next t) :
    Touch 1048580 s t := by
  refine run_touch e rfl fun u => ?_
  exact (Touch.refl ..).to (unmask_touch ..) rfl

theorem execDoorbellCueTail_touch (queue tail s) {t : State} (e : execDoorbellCueTail queue tail s = .next t) :
    Touch 209923509303 s t := by
  refine run_touch e rfl fun u => ?_
  extract_lets x0 posted1
  clear_value posted1
  clear_value x0
  refine Touch.ite ?_ ?_
  · exact Touch.refl ..
  · refine Touch.ite ?_ ?_
    · exact (Touch.refl ..).to (event_touch ..) rfl
    · refine Touch.ite ?_ ?_
      · exact (Touch.refl ..).to (haltQueue_touch ..) rfl
      · refine Touch.ite ?_ ?_
        · exact (Touch.refl ..).to (haltQueue_touch ..) rfl
        · exact ((Touch.refl ..).to (updateQueue_touch ..) rfl).to (inc_touch_in (k := 22) _ _ rfl) rfl

theorem execDoorbellCplHead_touch (queue head s) {t : State} (e : execDoorbellCplHead queue head s = .next t) :
    Touch 209919314999 s t := by
  refine run_touch e rfl fun u => ?_
  extract_lets x0
  clear_value x0
  refine Touch.ite ?_ ?_
  · exact Touch.refl ..
  · refine Touch.ite ?_ ?_
    · exact (Touch.refl ..).to (event_touch ..) rfl
    · refine Touch.ite ?_ ?_
      · exact (Touch.refl ..).to (haltQueue_touch ..) rfl
      · exact (Touch.refl ..).to (setQueue_touch ..) rfl

theorem queEnable_touch (s q) : Touch 209919314999 s (State.queEnable s q) := by
  unfold State.queEnable
  extract_lets x0
  clear_value x0
  refine Touch.ite ?_ ?_
  · exact (Touch.refl ..).to (event_touch ..) rfl
  · split
    · rename_i x1 raw2 s3 heq4
      have h5 : Touch 209919314999 s s3 := Touch.of22 heq4 ((Touch.refl ..).to (devRead_touch ..) rfl)
      split
      · rename_i x6 heq7
        extract_lets f8
        clear_value f8
        exact (h5).to (updateQueue_touch ..) rfl
      · rename_i x9 x10
        exact (h5).to (event_touch ..) rfl
    · rename_i x11 fst12 fst13 s14 x15 heq16
      have h17 : Touch 209919314999 s s14 := Touch.of22 heq16 ((Touch.refl ..).to (devRead_touch ..) rfl)
      exact (h17).to (event_touch ..) rfl

theorem queDisable_touch (s q) : Touch 209919314999 s (State.queDisable s q) := by
  unfold State.queDisable
  extract_lets x0
  clear_value x0
  refine Touch.ite ?_ ?_
  · exact Touch.refl ..
  · exact ((Touch.refl ..).to (setQueue_touch ..) rfl).to (settleQueue_touch ..) rfl

theorem queReset_touch (s q) : Touch 209919314999 s (State.queReset s q) := by
  unfold State.queReset
  extract_lets x0
  clear_value x0
  refine Touch.ite ?_ ?_
  · exact Touch.refl ..
  · exact (Touch.refl ..).to (updateQueue_touch ..) rfl

theorem execQueCmdEnable_touch (queue s) {t : State} (e : execQueCmdEnable queue s = .next t) :
    Touch 209919314999 s t := by
  refine run_touch e rfl fun u => ?_
  refine Touch.ite ?_ ?_
  · exact (Touch.refl ..).to (queEnable_touch ..) rfl
  · exact Touch.refl ..

theorem execQueCmdDisable_touch (queue s) {t : State} (e : execQueCmdDisable queue s = .next t) :
    Touch 209919314999 s t := by
  refine run_touch e rfl fun u => ?_
  refine Touch.ite ?_ ?_
  · exact (Touch.refl ..).to (queDisable_touch ..) rfl
  · exact Touch.refl ..

theorem execQueCmdReset_touch (queue s) {t : State} (e : execQueCmdReset queue s = .next t) :
    Touch 209919314999 s t := by
  refine run_touch e rfl fun u => ?_
  refine Touch.ite ?_ ?_
  · exact (Touch.refl ..).to (queReset_touch ..) rfl
  · exact Touch.refl ..

/-! ### Schedule -/

theorem sendHop_touch (s x h) : Touch 4096 s (State.sendHop s x h) := by
  unfold State.sendHop
  refine Touch.foldl ?_ (fun t0 a1 h2 => ?_)
  · exact Touch.refl ..
  · extract_lets body3
    clear_value body3
    split
    rename_i x4 tag5 s6 heq7
    have h8 : Touch 4096 s s6 := Touch.of2 heq7 ((h2).to (newTag_touch ..) rfl)
    extract_lets dst9 src10
    clear_value src10
    clear_value dst9
    exact (h8).to (sendMsg_touch ..) rfl

theorem sendSteps_touch (s index axes join vals) : Touch 268439552 s (State.sendSteps s index axes join vals) := by
  unfold State.sendSteps
  refine Touch.foldl ?_ (fun t0 a1 h2 => ?_)
  · exact (Touch.refl ..).to (inc_touch_in (k := 28) _ _ rfl) rfl
  · extract_lets p3 c4 line5 joined6 send7 s8
    have h9 : Touch 268439552 s s8 := by
      unfold s8
      refine Touch.ite ?_ ?_
      · unfold send7
        refine Touch.ite ?_ ?_
        · exact h2
        · split
          rename_i x10 tag11 s12 heq13
          have h14 : Touch 268439552 s s12 := Touch.of2 heq13 ((h2).to (newTag_touch ..) rfl)
          extract_lets body15 src16
          clear_value src16
          clear_value body15
          exact (h14).to (sendMsg_touch ..) rfl
      · exact h2
    clear_value s8
    clear_value joined6
    clear_value line5
    clear_value c4
    clear_value p3
    refine Touch.ite ?_ ?_
    · unfold send7
      refine Touch.ite ?_ ?_
      · exact h9
      · split
        rename_i x17 tag18 s19 heq20
        have h21 : Touch 268439552 s s19 := Touch.of2 heq20 ((h9).to (newTag_touch ..) rfl)
        extract_lets body22 src23
        clear_value src23
        clear_value body22
        exact (h21).to (sendMsg_touch ..) rfl
    · exact h9

theorem sendDigest_touch (s index epoch bytes entries) : Touch 268439552 s (State.sendDigest s index epoch bytes entries) := by
  unfold State.sendDigest
  extract_lets g0 data1 x2
  clear_value x2
  clear_value data1
  clear_value g0
  refine Touch.foldl ?_ (fun t3 a4 h5 => ?_)
  · exact (Touch.refl ..).to (inc_touch_in (k := 28) _ _ rfl) rfl
  · refine Touch.ite ?_ ?_
    · exact h5
    · refine Touch.foldl ?_ (fun t6 a7 h8 => ?_)
      · exact h5
      · refine Touch.ite ?_ ?_
        · exact (h8).to (sendHop_touch ..) rfl
        · exact h8

/-! ### Package -/

theorem readSections_touch (s rq base a) : Touch 209919280151 s (State.readSections s rq base a).2.2 := by
  induction a generalizing s rq base
  · unfold State.readSections
    refine Touch.red2 ?_
    refine Touch.red1 ?_
    exact Touch.refl ..
  · rename_i head0 tail1 tailih2
    unfold State.readSections
    extract_lets w3
    clear_value w3
    split
    · rename_i x4 bs5 s6 heq7
      have h8 : Touch 209919280151 s s6 := Touch.of22 heq7 ((Touch.refl ..).to (devRead_touch ..) rfl)
      exact (h8).to (tailih2 _ _ _) rfl
    · rename_i x9 st10 fst11 s12 x13 heq14
      have h15 : Touch 209919280151 s s12 := Touch.of22 heq14 ((Touch.refl ..).to (devRead_touch ..) rfl)
      refine Touch.red2 ?_
      refine Touch.red1 ?_
      exact h15

theorem readPackage_touch (s base bytes) : Touch 209919280151 s (State.readPackage s base bytes).2.2.2 := by
  unfold State.readPackage
  extract_lets rq0
  clear_value rq0
  split
  · rename_i x1 bs2 s3 heq4
    have h5 : Touch 209919280151 s s3 := Touch.of22 heq4 ((Touch.refl ..).to (devRead_touch ..) rfl)
    extract_lets e6 n7
    clear_value n7
    clear_value e6
    refine Touch.ite222 ?_ ?_
    · refine Touch.red3 ?_
      refine Touch.red2 ?_
      refine Touch.red1 ?_
      exact h5
    · split
      · rename_i x8 bs9 s10 heq11
        have h12 : Touch 209919280151 s s10 := Touch.of22 heq11 ((h5).to (devRead_touch ..) rfl)
        extract_lets table13 e14 at15
        clear_value at15
        clear_value e14
        clear_value table13
        refine Touch.ite222 ?_ ?_
        · refine Touch.red3 ?_
          refine Touch.red2 ?_
          refine Touch.red1 ?_
          exact h12
        · split
          · rename_i x16 got17 s18 heq19
            have h20 : Touch 209919280151 s s18 := Touch.of22 heq19 ((h12).to (readSections_touch ..) rfl)
            extract_lets sec21
            clear_value sec21
            refine Touch.red3 ?_
            refine Touch.red2 ?_
            refine Touch.red1 ?_
            exact h20
          · rename_i x22 e23 fst24 s25 x26 heq27
            have h28 : Touch 209919280151 s s25 := Touch.of22 heq27 ((h12).to (readSections_touch ..) rfl)
            refine Touch.red3 ?_
            refine Touch.red2 ?_
            refine Touch.red1 ?_
            exact h28
      · rename_i x29 st30 fst31 s32 x33 heq34
        have h35 : Touch 209919280151 s s32 := Touch.of22 heq34 ((h5).to (devRead_touch ..) rfl)
        refine Touch.red3 ?_
        refine Touch.red2 ?_
        refine Touch.red1 ?_
        exact h35
  · rename_i x36 st37 fst38 s39 x40 heq41
    have h42 : Touch 209919280151 s s39 := Touch.of22 heq41 ((Touch.refl ..).to (devRead_touch ..) rfl)
    refine Touch.red3 ?_
    refine Touch.red2 ?_
    refine Touch.red1 ?_
    exact h42

theorem openObject_touch (s kind seed obj) : Touch 206730952726 s (State.openObject s kind seed obj).2 := by
  unfold State.openObject
  split
  · rename_i x0 p1 heq2
    refine Touch.red1 ?_
    exact ((Touch.refl ..).to (addF_touch_in (k := 25) _ _ _ rfl) rfl).to (inc_touch_in (k := 25) _ _ rfl) rfl
  · rename_i x3 heq4
    refine Touch.red1 ?_
    exact ((Touch.refl ..).to (inc_touch_in (k := 25) _ _ rfl) rfl).to (event_touch ..) rfl

theorem importObject_touch (s j kind a) : Touch 209952834583 s (State.importObject s j kind a).2.2 := by
  unfold State.importObject
  split
  · rename_i x0 bs1 s2 heq3
    have h4 : Touch 209952834583 s s2 := Touch.of22 heq3 ((Touch.refl ..).to (devRead_touch ..) rfl)
    split
    · rename_i x5 bs6 s7 heq8
      have h9 : Touch 209952834583 s s7 := Touch.of22 heq8 ((h4).to (devRead_touch ..) rfl)
      split
      · rename_i x10 bs11 s12 heq13
        have h14 : Touch 209952834583 s s12 := Touch.of2 heq13 ((h9).to (openObject_touch ..) rfl)
        refine Touch.red2 ?_
        refine Touch.red1 ?_
        exact h14
      · rename_i x15 s16 heq17
        have h18 : Touch 209952834583 s s16 := Touch.of2 heq17 ((h9).to (openObject_touch ..) rfl)
        refine Touch.red2 ?_
        refine Touch.red1 ?_
        exact h18
    · rename_i x19 st20 fst21 s22 x23 heq24
      have h25 : Touch 209952834583 s s22 := Touch.of22 heq24 ((h4).to (devRead_touch ..) rfl)
      refine Touch.red2 ?_
      refine Touch.red1 ?_
      exact h25
  · rename_i x26 st27 fst28 s29 x30 heq31
    have h32 : Touch 209952834583 s s29 := Touch.of22 heq31 ((Touch.refl ..).to (devRead_touch ..) rfl)
    refine Touch.red2 ?_
    refine Touch.red1 ?_
    exact h32

theorem readExport_touch (s j items) : Touch 209952834583 s (State.readExport s j items).2.2.2 := by
  unfold State.readExport
  extract_lets at0
  clear_value at0
  split
  · rename_i x1 bs2 s3 heq4
    have h5 : Touch 209952834583 s s3 := Touch.of22 heq4 ((Touch.refl ..).to (importObject_touch ..) rfl)
    extract_lets f6 n7 entries8 last9 slot10
    clear_value slot10
    clear_value last9
    clear_value entries8
    clear_value n7
    clear_value f6
    refine Touch.ite222 ?_ ?_
    · refine Touch.red3 ?_
      refine Touch.red2 ?_
      refine Touch.red1 ?_
      exact h5
    · refine Touch.foldl222 ?_ (fun b11 b12 b13 t14 a15 h16 => ?_)
      · refine Touch.red3 ?_
        refine Touch.red2 ?_
        refine Touch.red1 ?_
        exact h5
      · split
        rename_i acc17 st18 book19 got20 s21 heq22
        have h23 : Touch 209952834583 s s21 := by
          refine Touch.of222 heq22 ?_
          refine Touch.red3 ?_
          refine Touch.red2 ?_
          refine Touch.red1 ?_
          exact h16
        refine Touch.ite222 ?_ ?_
        · refine Touch.red3 ?_
          refine Touch.red2 ?_
          refine Touch.red1 ?_
          exact h16
        · split
          · rename_i x24 heq25
            refine Touch.ite222 ?_ ?_
            · refine Touch.red3 ?_
              refine Touch.red2 ?_
              refine Touch.red1 ?_
              exact h16
            · refine Touch.red3 ?_
              refine Touch.red2 ?_
              refine Touch.red1 ?_
              exact h23
          · rename_i x26 e27 heq28
            refine Touch.ite222 ?_ ?_
            · refine Touch.red3 ?_
              refine Touch.red2 ?_
              refine Touch.red1 ?_
              exact h23
            · split
              · rename_i x29 bs30 s31 heq32
                have h33 : Touch 209952834583 s s31 := Touch.of22 heq32 ((h23).to (importObject_touch ..) rfl)
                refine Touch.ite222 ?_ ?_
                · refine Touch.red3 ?_
                  refine Touch.red2 ?_
                  refine Touch.red1 ?_
                  exact h33
                · refine Touch.red3 ?_
                  refine Touch.red2 ?_
                  refine Touch.red1 ?_
                  exact h33
              · rename_i x34 st35 fst36 s37 x38 heq39
                have h40 : Touch 209952834583 s s37 := Touch.of22 heq39 ((h23).to (importObject_touch ..) rfl)
                refine Touch.red3 ?_
                refine Touch.red2 ?_
                refine Touch.red1 ?_
                exact h40
  · rename_i x41 st42 fst43 s44 x45 heq46
    have h47 : Touch 209952834583 s s44 := Touch.of22 heq46 ((Touch.refl ..).to (importObject_touch ..) rfl)
    refine Touch.red3 ?_
    refine Touch.red2 ?_
    refine Touch.red1 ?_
    exact h47

/-! ### Jobs -/

theorem setMeas_touch (s : State) (k : Nat) (bs : List Byte) : Touch (2 ^ 33) s (s.setMeas k bs) := by
  unfold State.setMeas
  split
  · rename_i hk
    have : ∀ l : List Nat, (∀ i ∈ l, i < 8) → ∀ t, Touch (2 ^ 33) s t →
        Touch (2 ^ 33) s (l.foldl (fun s i => s.wr (Reg.measBase + 64 * k + 8 * i) (fieldLE bs (8 * i) 8)) t) := by
      intro l
      induction l with
      | nil => exact fun _ _ ht => ht
      | cons i l ih =>
        intro hl t ht
        have hi := hl i (List.mem_cons_self ..)
        exact ih (fun j hj => hl j (List.mem_cons_of_mem _ hj)) _ (ht.to (wr_touch_in (k := 33) _ _ _
          (regArea_eq (lo := 0x500000) (hi := 0x600000) (by simp only [Reg.measBase]; omega) rfl (by decide))) rfl)
    exact this _ (fun i hi => List.mem_range.1 hi) s (Touch.refl ..)
  · exact Touch.refl ..

theorem extendMeas_touch (s k v) : Touch 8589934592 s (State.extendMeas s k v) := by
  unfold State.extendMeas
  exact (Touch.refl ..).to (setMeas_touch ..) rfl

theorem logEntry_touch (s e) : Touch 8590196736 s (State.logEntry s e) := by
  unfold State.logEntry
  extract_lets log0 src1 src2
  have h3 : Touch 8590196736 s src1 := (Touch.refl ..).to (extendMeas_touch ..) rfl
  clear_value src1
  clear_value src2
  clear_value log0
  exact Touch.set_sec (h3) rfl

theorem loadExchange_touch (s j items peers) : Touch 206730952726 s (State.loadExchange s j items peers).2 := by
  unfold State.loadExchange
  extract_lets ms0 s1 corr2 s3 ack4 due5
  have h6 : Touch 206730952726 s s1 := (Touch.refl ..).to (setF_touch_in (k := 25) _ _ _ rfl) rfl
  clear_value s1
  have h7 : Touch 206730952726 s s3 := by
    unfold s3
    refine Touch.ite ?_ ?_
    · refine Touch.foldl ?_ (fun t8 a9 h10 => ?_)
      · exact h6
      · exact (h10).to (event_touch ..) rfl
    · exact h6
  clear_value s3
  clear_value due5
  clear_value ack4
  clear_value corr2
  clear_value ms0
  split
  · rename_i x11 p12 heq13
    extract_lets port14
    clear_value port14
    refine Touch.red1 ?_
    exact (h6).to (event_touch ..) rfl
  · rename_i x15 heq16
    refine Touch.ite2 ?_ ?_
    · refine Touch.red1 ?_
      exact h6
    · refine Touch.ite2 ?_ ?_
      · refine Touch.red1 ?_
        exact h7
      · refine Touch.ite2 ?_ ?_
        · refine Touch.red1 ?_
          exact h7
        · refine Touch.red1 ?_
          exact h7

theorem loadDigests_touch (s j items step restored peers) : Touch 268439552 s (State.loadDigests s j items step restored peers) := by
  unfold State.loadDigests
  extract_lets ms0 send1 s2 s3 s4
  have h5 : Touch 268439552 s s2 := by
    unfold s2
    unfold send1
    exact (Touch.refl ..).to (sendDigest_touch ..) rfl
  clear_value s2
  have h6 : Touch 268439552 s s3 := by
    unfold s3
    unfold send1
    exact (h5).to (sendDigest_touch ..) rfl
  clear_value s3
  have h7 : Touch 268439552 s s4 := by
    unfold s4
    unfold send1
    exact (h6).to (sendDigest_touch ..) rfl
  clear_value s4
  clear_value ms0
  unfold send1
  exact (h7).to (sendDigest_touch ..) rfl

theorem lockBanks_touch (s slot j on) : Touch 1073742848 s (State.lockBanks s slot j on) := by
  unfold State.lockBanks
  refine Touch.foldl ?_ (fun t0 a1 h2 => ?_)
  · exact Touch.refl ..
  · extract_lets left3 holders4 src5 s6 adds7
    have h8 : Touch 1073742848 s s6 := ((h2).to (setBank_touch ..) rfl).to (setBf_touch _ _ _ _ (by decide)) rfl
    clear_value s6
    clear_value adds7
    clear_value src5
    clear_value holders4
    clear_value left3
    refine Touch.ite ?_ ?_
    · exact h8
    · exact (h8).to (setBf_touch _ _ _ _ (by decide)) rfl

theorem markStandby_touch (s) : Touch 1073741824 s (State.markStandby s) := by
  unfold State.markStandby
  refine Touch.foldl ?_ (fun t0 a1 h2 => ?_)
  · exact Touch.refl ..
  · extract_lets base3 n4 s5
    have h6 : Touch 1073741824 s s5 := by
      unfold s5
      refine Touch.foldl ?_ (fun t7 a8 h9 => ?_)
      · exact h2
      · exact (h9).to (setBf_touch _ _ _ _ (by decide)) rfl
    clear_value s5
    clear_value n4
    clear_value base3
    refine Touch.ite ?_ ?_
    · exact h2
    · exact (h6).to (setBf_touch _ _ _ _ (by decide)) rfl

theorem latchCkp_touch (s slot index items correlated) : Touch 67149824 s (State.latchCkp s slot index items correlated) := by
  unfold State.latchCkp
  extract_lets w0 a1 off2 mirror3 parity4 bytes5 src6 src7 s8 s9 s10 s11 s12 s13
  have h14 : Touch 67149824 s s8 := by
    unfold s8
    refine Touch.to (N := 40960) ?_ { Touch.refl _ s with fabric := fun e => absurd e (by decide), ckp := fun e => absurd e (by decide), sound := fun e => ⟨e.mem, e.regs, e.board⟩ } rfl
    exact Touch.refl ..
  clear_value s8
  have h15 : Touch 67149824 s s9 := (((h14).to (wr_touch_in (k := 26) _ _ _ rfl) rfl).to (setF_touch_in (k := 26) _ _ _ rfl) rfl).to (setF_touch_in (k := 26) _ _ _ rfl) rfl
  clear_value s9
  have h16 : Touch 67149824 s s10 := ((h15).to (setF_touch_in (k := 26) _ _ _ rfl) rfl).to (setF_touch_in (k := 26) _ _ _ rfl) rfl
  clear_value s10
  have h17 : Touch 67149824 s s11 := (h16).to (setF_touch_in (k := 26) _ _ _ rfl) rfl
  clear_value s11
  have h18 : Touch 67149824 s s12 := (h17).to (setF_touch_in (k := 26) _ _ _ rfl) rfl
  clear_value s12
  have h19 : Touch 67149824 s s13 := (h18).to (setF_touch_in (k := 26) _ _ _ rfl) rfl
  clear_value s13
  clear_value src7
  clear_value src6
  clear_value bytes5
  clear_value parity4
  clear_value mirror3
  clear_value off2
  clear_value a1
  clear_value w0
  exact (((h19).to (setF_touch_in (k := 26) _ _ _ rfl) rfl).to (setF_touch_in (k := 26) _ _ _ rfl) rfl).to (setF_touch_in (k := 26) _ _ _ rfl) rfl

theorem putJob_touch (s slot base j items correlated book got restored startOk) : Touch 210179370647 s (State.putJob s slot base j items correlated book got restored startOk) := by
  unfold State.putJob
  extract_lets f0 step1 s2 s3 s4 s5 s6 s7 s8 s9 s10 src11 s12 s13 s14 s15 s16 s17 s18 n19 s20
  have h21 : Touch 210179370647 s s2 := (Touch.refl ..).to (setJob_touch ..) rfl
  clear_value s2
  have h22 : Touch 210179370647 s s3 := (h21).to (clearJob_touch ..) rfl
  clear_value s3
  have h23 : Touch 210179370647 s s4 := ((((h22).to (setJf_touch _ _ _ _ (by decide)) rfl).to (setJf_touch _ _ _ _ (by decide)) rfl).to (setJf_touch _ _ _ _ (by decide)) rfl).to (setJf_touch _ _ _ _ (by decide)) rfl
  clear_value s4
  have h24 : Touch 210179370647 s s5 := (((h23).to (setJf_touch _ _ _ _ (by decide)) rfl).to (setJf_touch _ _ _ _ (by decide)) rfl).to (setJf_touch _ _ _ _ (by decide)) rfl
  clear_value s5
  have h25 : Touch 210179370647 s s6 := (h24).to (setJf_touch _ _ _ _ (by decide)) rfl
  clear_value s6
  have h26 : Touch 210179370647 s s7 := (((h25).to (wr_touch_in (k := 24) _ _ _ rfl) rfl).to (setF_touch_in (k := 24) _ _ _ rfl) rfl).to (setF_touch_in (k := 24) _ _ _ rfl) rfl
  clear_value s7
  have h27 : Touch 210179370647 s s8 := (((h26).to (setF_touch_in (k := 24) _ _ _ rfl) rfl).to (setF_touch_in (k := 24) _ _ _ rfl) rfl).to (setF_touch_in (k := 24) _ _ _ rfl) rfl
  clear_value s8
  have h28 : Touch 210179370647 s s9 := (h27).to (setF_touch_in (k := 24) _ _ _ rfl) rfl
  clear_value s9
  have h29 : Touch 210179370647 s s10 := (((h28).to (setF_touch_in (k := 25) _ _ _ rfl) rfl).to (setF_touch_in (k := 25) _ _ _ rfl) rfl).to (setF_touch_in (k := 25) _ _ _ rfl) rfl
  clear_value s10
  have h30 : Touch 210179370647 s s12 := Touch.set_rng (h29) rfl
  clear_value s12
  have h31 : Touch 210179370647 s s13 := (h30).to (setV_touch ..) rfl
  clear_value s13
  have h32 : Touch 210179370647 s s14 := (h31).to (devWrite_touch ..) rfl
  clear_value s14
  have h33 : Touch 210179370647 s s15 := (h32).to (lockBanks_touch ..) rfl
  clear_value s15
  have h34 : Touch 210179370647 s s16 := (h33).to (latchCkp_touch ..) rfl
  clear_value s16
  have h35 : Touch 210179370647 s s17 := by
    unfold s17
    refine Touch.foldl ?_ (fun t36 a37 h38 => ?_)
    · exact h34
    · exact (h38).to (itemRestore_touch ..) rfl
  clear_value s17
  have h39 : Touch 210179370647 s s18 := by
    unfold s18
    refine Touch.ite ?_ ?_
    · exact (h35).to (devWrite_touch ..) rfl
    · exact h35
  clear_value s18
  have h40 : Touch 210179370647 s s20 := by
    unfold s20
    refine Touch.ite ?_ ?_
    · exact (h39).to (event_touch ..) rfl
    · exact h39
  clear_value s20
  clear_value n19
  clear_value src11
  clear_value step1
  clear_value f0
  refine Touch.ite ?_ ?_
  · exact (h40).to (event_touch ..) rfl
  · exact h40

theorem load_touch (s i slot base bytes jobId peers) : Touch 219042266871 s (State.load s i slot base bytes jobId peers) := by
  unfold State.load
  split
  rename_i x0 e1 job2 head3 s4 heq5
  have h6 : Touch 219042266871 s s4 := Touch.of222 heq5 (((Touch.refl ..).to (markStandby_touch ..) rfl).to (readPackage_touch ..) rfl)
  extract_lets s7 has8
  have h9 : Touch 219042266871 s s7 := by
    unfold s7
    refine Touch.ite ?_ ?_
    · exact (h6).to (logEntry_touch ..) rfl
    · exact h6
  clear_value s7
  clear_value has8
  split
  · rename_i job10
    have h11 : Touch 219042266871 s s4 := Touch.of222 heq5 (((Touch.refl ..).to (markStandby_touch ..) rfl).to (readPackage_touch ..) rfl)
    exact (h9).to (opReject_touch ..) rfl
  · rename_i job12 j13
    have h14 : Touch 219042266871 s s4 := Touch.of222 heq5 (((Touch.refl ..).to (markStandby_touch ..) rfl).to (readPackage_touch ..) rfl)
    extract_lets items15 e16
    clear_value e16
    clear_value items15
    refine Touch.ite ?_ ?_
    · exact (h9).to (opReject_touch ..) rfl
    · refine Touch.ite ?_ ?_
      · exact (h9).to (opReject_touch ..) rfl
      · refine Touch.ite ?_ ?_
        · refine Touch.ite ?_ ?_
          · exact (h9).to (opReject_touch ..) rfl
          · exact ((h9).to (putJob_touch ..) rfl).to (opDone_touch ..) rfl
        · split
          · rename_i x17 s18 heq19
            have h20 : Touch 219042266871 s s18 := Touch.of2 heq19 ((h9).to (loadExchange_touch ..) rfl)
            extract_lets w21 partner22 cap23 items24 corr25
            clear_value corr25
            clear_value items24
            clear_value cap23
            clear_value partner22
            clear_value w21
            refine Touch.ite ?_ ?_
            · split
              · rename_i x26 book27 got28 s29 heq30
                have h31 : Touch 219042266871 s s29 := Touch.of222 heq30 ((h20).to (readExport_touch ..) rfl)
                extract_lets step32 same33
                clear_value same33
                clear_value step32
                exact (((h31).to (loadDigests_touch ..) rfl).to (putJob_touch ..) rfl).to (opDone_touch ..) rfl
              · rename_i x34 e35 fst36 fst37 s38 x39 heq40
                have h41 : Touch 219042266871 s s38 := Touch.of222 heq40 ((h20).to (readExport_touch ..) rfl)
                refine Touch.ite ?_ ?_
                · exact ((h41).to (opReject_touch ..) rfl).to (exportFallback_touch ..) rfl
                · exact (h41).to (opReject_touch ..) rfl
            · exact (((h20).to (loadDigests_touch ..) rfl).to (putJob_touch ..) rfl).to (opDone_touch ..) rfl
          · rename_i x42 e43 s44 x45 heq46
            have h47 : Touch 219042266871 s s44 := Touch.of2 heq46 ((h9).to (loadExchange_touch ..) rfl)
            exact (h47).to (opReject_touch ..) rfl

theorem execJobLoad_touch (op peers s) {t : State} (e : execJobLoad op peers s = .next t) :
    Touch 219042266871 s t := by
  refine run_touch e rfl fun u => ?_
  unfold State.withOp
  split
  · rename_i x0 o1 heq2
    refine Touch.ite ?_ ?_
    · beta_reduce
      extract_lets slot3 base4 bytes5
      clear_value bytes5
      clear_value base4
      clear_value slot3
      split
      · rename_i x6 snd7 heq8
        refine Touch.ite ?_ ?_
        · exact (Touch.refl ..).to (load_touch ..) rfl
        · exact (Touch.refl ..).to (opReject_touch ..) rfl
      · rename_i x9 e10 d11 x12 heq13
        exact (Touch.refl ..).to (opReject_touch ..) rfl
    · exact Touch.refl ..
  · rename_i x14 heq15
    exact Touch.refl ..

theorem openAdds_touch (s j) : Touch 1073741824 s (State.openAdds s j) := by
  unfold State.openAdds
  refine Touch.foldl ?_ (fun t0 a1 h2 => ?_)
  · exact Touch.refl ..
  · exact (h2).to (setBf_touch _ _ _ _ (by decide)) rfl

theorem execJobStart_touch (op s) {t : State} (e : execJobStart op s = .next t) :
    Touch 209999006967 s t := by
  refine run_touch e rfl fun u => ?_
  unfold State.withOp
  split
  · rename_i x0 o1 heq2
    refine Touch.ite ?_ ?_
    · beta_reduce
      unfold State.withSlot
      extract_lets slot3
      clear_value slot3
      split
      · rename_i x4 j5 heq6
        refine Touch.ite ?_ ?_
        · beta_reduce
          extract_lets st7 s8 s9 src10 s11
          have h12 : Touch 209999006967 u s8 := ((Touch.refl ..).to (setJf_touch _ _ _ _ (by decide)) rfl).to (modJob_touch ..) rfl
          clear_value s8
          have h13 : Touch 209999006967 u s9 := (h12).to (openAdds_touch ..) rfl
          clear_value s9
          have h14 : Touch 209999006967 u s11 := by
            unfold s11
            refine Touch.ite ?_ ?_
            · exact (Touch.set_ckp (h13) rfl).to (setF_touch_in (k := 26) _ _ _ rfl) rfl
            · exact h13
          clear_value s11
          clear_value src10
          clear_value st7
          refine Touch.ite ?_ ?_
          · exact (Touch.refl ..).to (opReject_touch ..) rfl
          · refine Touch.ite ?_ ?_
            · exact (Touch.refl ..).to (opReject_touch ..) rfl
            · exact (h14).to (opDone_touch ..) rfl
        · exact (Touch.refl ..).to (opReject_touch ..) rfl
      · rename_i x15 heq16
        exact (Touch.refl ..).to (opReject_touch ..) rfl
    · exact Touch.refl ..
  · rename_i x17 heq18
    exact Touch.refl ..

theorem execJobStop_touch (op s) {t : State} (e : execJobStop op s = .next t) :
    Touch 214747054071 s t := by
  refine run_touch e rfl fun u => ?_
  unfold State.withOp
  split
  · rename_i x0 o1 heq2
    refine Touch.ite ?_ ?_
    · beta_reduce
      unfold State.withSlot
      extract_lets slot3 now4
      clear_value now4
      clear_value slot3
      split
      · rename_i x5 j6 heq7
        refine Touch.ite ?_ ?_
        · beta_reduce
          extract_lets ph8
          clear_value ph8
          refine Touch.ite ?_ ?_
          · exact (Touch.refl ..).to (opDone_touch ..) rfl
          · refine Touch.ite ?_ ?_
            · refine Touch.to ?_ (opDone_touch ..) rfl
              refine Touch.ite ?_ ?_
              · exact (Touch.refl ..).to (modJob_touch ..) rfl
              · exact (Touch.refl ..).to (setJf_touch _ _ _ _ (by decide)) rfl
            · refine Touch.ite ?_ ?_
              · exact (((Touch.refl ..).to (abandon_touch ..) rfl).to (setJf_touch _ _ _ _ (by decide)) rfl).to (opDone_touch ..) rfl
              · exact ((Touch.refl ..).to (modJob_touch ..) rfl).to (opDone_touch ..) rfl
        · exact (Touch.refl ..).to (opReject_touch ..) rfl
      · rename_i x9 heq10
        exact (Touch.refl ..).to (opReject_touch ..) rfl
    · exact Touch.refl ..
  · rename_i x11 heq12
    exact Touch.refl ..

theorem unload_touch (s slot j) : Touch 214256242679 s (State.unload s slot j) := by
  unfold State.unload
  extract_lets s0 s1 s2 s3 src4 s5 src6
  have h7 : Touch 214256242679 s s0 := (Touch.refl ..).to (abandonCues_touch ..) rfl
  clear_value s0
  have h8 : Touch 214256242679 s s1 := (h7).to (lockBanks_touch ..) rfl
  clear_value s1
  have h9 : Touch 214256242679 s s2 := Touch.set_jobs (h8) rfl
  clear_value s2
  have h10 : Touch 214256242679 s s3 := (h9).to (clearJob_touch ..) rfl
  clear_value s3
  have h11 : Touch 214256242679 s s5 := by
    unfold s5
    refine Touch.ite ?_ ?_
    · exact (Touch.set_rng (h10) rfl).to (setF_touch_in (k := 25) _ _ _ rfl) rfl
    · exact h10
  clear_value s5
  clear_value src6
  clear_value src4
  refine Touch.ite ?_ ?_
  · exact Touch.set_ckp (h11) rfl
  · exact h11

theorem execJobUnload_touch (op s) {t : State} (e : execJobUnload op s = .next t) :
    Touch 214260436983 s t := by
  refine run_touch e rfl fun u => ?_
  unfold State.withOp
  split
  · rename_i x0 o1 heq2
    refine Touch.ite ?_ ?_
    · beta_reduce
      unfold State.withSlot
      extract_lets slot3
      clear_value slot3
      split
      · rename_i x4 j5 heq6
        refine Touch.ite ?_ ?_
        · beta_reduce
          refine Touch.ite ?_ ?_
          · exact (Touch.refl ..).to (opReject_touch ..) rfl
          · exact ((Touch.refl ..).to (unload_touch ..) rfl).to (opDone_touch ..) rfl
        · exact (Touch.refl ..).to (opReject_touch ..) rfl
      · rename_i x7 heq8
        exact (Touch.refl ..).to (opReject_touch ..) rfl
    · exact Touch.refl ..
  · rename_i x9 heq10
    exact Touch.refl ..

theorem execRecipe_touch (op s) {t : State} (e : execRecipe op s = .next t) :
    Touch 209931898103 s t := by
  refine run_touch e rfl fun u => ?_
  unfold State.withOp
  split
  · rename_i x0 o1 heq2
    refine Touch.ite ?_ ?_
    · beta_reduce
      unfold State.withJob
      split
      · rename_i x3 slot4 j5 heq6
        beta_reduce
        extract_lets i7 bs8
        clear_value bs8
        clear_value i7
        split
        · rename_i x9 snd10 heq11
          exact ((Touch.refl ..).to (modJob_touch ..) rfl).to (opDone_touch ..) rfl
        · rename_i x12 e13 d14 x15 heq16
          exact (Touch.refl ..).to (opReject_touch ..) rfl
      · rename_i x17 heq18
        exact (Touch.refl ..).to (opReject_touch ..) rfl
    · exact Touch.refl ..
  · rename_i x19 heq20
    exact Touch.refl ..

theorem execParam_touch (op s) {t : State} (e : execParam op s = .next t) :
    Touch 209931898103 s t := by
  refine run_touch e rfl fun u => ?_
  unfold State.withOp
  split
  · rename_i x0 o1 heq2
    refine Touch.ite ?_ ?_
    · beta_reduce
      unfold State.withJob
      split
      · rename_i x3 slot4 j5 heq6
        beta_reduce
        extract_lets i7 w8 v9
        clear_value v9
        clear_value w8
        clear_value i7
        split
        · rename_i x10 heq11
          exact (Touch.refl ..).to (opReject_touch ..) rfl
        · rename_i x12 bs13 heq14
          refine Touch.ite ?_ ?_
          · exact ((Touch.refl ..).to (modJob_touch ..) rfl).to (opDone_touch ..) rfl
          · exact (Touch.refl ..).to (opReject_touch ..) rfl
      · rename_i x15 heq16
        exact (Touch.refl ..).to (opReject_touch ..) rfl
    · exact Touch.refl ..
  · rename_i x17 heq18
    exact Touch.refl ..

theorem dropHeld_touch (s slot epoch) : Touch 206697398454 s (State.dropHeld s slot epoch) := by
  unfold State.dropHeld
  split
  · rename_i x0 j1 heq2
    extract_lets s3
    have h4 : Touch 206697398454 s s3 := by
      unfold s3
      refine Touch.foldl ?_ (fun t5 a6 h7 => ?_)
      · exact Touch.refl ..
      · split
        · rename_i x8 q9 r10 heq11
          exact (h7).to (putRecord_touch ..) rfl
        · rename_i x12 x13
          exact h7
    clear_value s3
    exact (h4).to (modJob_touch ..) rfl
  · rename_i x14 heq15
    exact Touch.refl ..

theorem execCancelAhead_touch (op s) {t : State} (e : execCancelAhead op s = .next t) :
    Touch 214226894327 s t := by
  refine run_touch e rfl fun u => ?_
  unfold State.withOp
  split
  · rename_i x0 o1 heq2
    refine Touch.ite ?_ ?_
    · beta_reduce
      unfold State.withJob
      split
      · rename_i x3 slot4 j5 heq6
        beta_reduce
        extract_lets e7 s8 s9 s10
        have h11 : Touch 214226894327 u s8 := (Touch.refl ..).to (abandonCues_touch ..) rfl
        clear_value s8
        have h12 : Touch 214226894327 u s9 := ((h11).to (dropHeld_touch ..) rfl).to (modJob_touch ..) rfl
        clear_value s9
        have h13 : Touch 214226894327 u s10 := ((h12).to (setJf_touch _ _ _ _ (by decide)) rfl).to (flood_touch ..) rfl
        clear_value s10
        clear_value e7
        exact (h13).to (opDone_touch ..) rfl
      · rename_i x14 heq15
        exact (Touch.refl ..).to (opReject_touch ..) rfl
    · exact Touch.refl ..
  · rename_i x16 heq17
    exact Touch.refl ..

theorem checkSamples_touch (s rq buf bytes a a1) : Touch 209919280151 s (State.checkSamples s rq buf bytes a a1).2 := by
  induction a1 generalizing s rq buf bytes a
  · unfold State.checkSamples
    refine Touch.red1 ?_
    exact Touch.refl ..
  · rename_i n0 a1
    unfold State.checkSamples
    split
    · rename_i x2 h3 s4 heq5
      have h6 : Touch 209919280151 s s4 := Touch.of22 heq5 ((Touch.refl ..).to (devRead_touch ..) rfl)
      refine Touch.ite2 ?_ ?_
      · exact (h6).to (a1 _ _ _ _ _) rfl
      · refine Touch.red1 ?_
        exact h6
    · rename_i x7 e8 fst9 s10 x11 heq12
      have h13 : Touch 209919280151 s s10 := Touch.of22 heq12 ((Touch.refl ..).to (devRead_touch ..) rfl)
      refine Touch.red1 ?_
      exact h13

theorem execData_touch (op s) {t : State} (e : execData op s = .next t) :
    Touch 209931898103 s t := by
  refine run_touch e rfl fun u => ?_
  unfold State.withOp
  split
  · rename_i x0 o1 heq2
    refine Touch.ite ?_ ?_
    · beta_reduce
      unfold State.withJob
      split
      · rename_i x3 slot4 j5 heq6
        beta_reduce
        extract_lets src7 n8 buf9 taken10 sh11
        clear_value sh11
        clear_value taken10
        clear_value buf9
        clear_value n8
        clear_value src7
        split
        · rename_i x12 heq13
          exact (Touch.refl ..).to (opReject_touch ..) rfl
        · rename_i x14 d15 heq16
          split
          · rename_i x17 s18 heq19
            have h20 : Touch 209931898103 u s18 := Touch.of2 heq19 ((Touch.refl ..).to (checkSamples_touch ..) rfl)
            exact (((h20).to (modJob_touch ..) rfl).to (showCursor_touch ..) rfl).to (opDone_touch ..) rfl
          · rename_i x21 e22 s23 x24 heq25
            have h26 : Touch 209931898103 u s23 := Touch.of2 heq25 ((Touch.refl ..).to (checkSamples_touch ..) rfl)
            extract_lets s27
            have h28 : Touch 209931898103 u s27 := by
              unfold s27
              refine Touch.ite ?_ ?_
              · exact (h26).to (event_touch ..) rfl
              · exact h26
            clear_value s27
            exact (h28).to (opDone_touch ..) rfl
      · rename_i x29 heq30
        exact (Touch.refl ..).to (opReject_touch ..) rfl
    · exact Touch.refl ..
  · rename_i x31 heq32
    exact Touch.refl ..

theorem execJoin_touch (op s) {t : State} (e : execJoin op s = .next t) :
    Touch 68 s t := by
  refine run_touch e rfl fun u => ?_
  unfold State.withOp
  split
  · rename_i x0 o1 heq2
    refine Touch.ite ?_ ?_
    · beta_reduce
      exact (Touch.refl ..).to (opDone_touch ..) rfl
    · exact Touch.refl ..
  · rename_i x3 heq4
    exact Touch.refl ..

theorem execLoss_touch (op s) {t : State} (e : execLoss op s = .next t) :
    Touch 214747054071 s t := by
  refine run_touch e rfl fun u => ?_
  unfold State.withOp
  split
  · rename_i x0 o1 heq2
    refine Touch.ite ?_ ?_
    · beta_reduce
      unfold State.withJob
      split
      · rename_i x3 slot4 j5 heq6
        beta_reduce
        split
        · rename_i x7 heq8
          exact (Touch.refl ..).to (opReject_touch ..) rfl
        · rename_i x9 t10 heq11
          refine Touch.ite ?_ ?_
          · exact (Touch.refl ..).to (opReject_touch ..) rfl
          · split
            · rename_i x12 h13 s14 heq15
              have h16 : Touch 214747054071 u s14 := Touch.of22 heq15 ((Touch.refl ..).to (devRead_touch ..) rfl)
              extract_lets codes17 bad18 s19
              have h20 : Touch 214747054071 u s19 := ((h16).to (modJob_touch ..) rfl).to (opDone_touch ..) rfl
              clear_value s19
              clear_value bad18
              clear_value codes17
              refine Touch.ite ?_ ?_
              · exact (h20).to (abandon_touch ..) rfl
              · exact h20
            · rename_i x21 e22 fst23 s24 x25 heq26
              have h27 : Touch 214747054071 u s24 := Touch.of22 heq26 ((Touch.refl ..).to (devRead_touch ..) rfl)
              exact (h27).to (opEnd_touch ..) rfl
      · rename_i x28 heq29
        exact (Touch.refl ..).to (opReject_touch ..) rfl
    · exact Touch.refl ..
  · rename_i x30 heq31
    exact Touch.refl ..

theorem execMetric_touch (op s) {t : State} (e : execMetric op s = .next t) :
    Touch 214747054071 s t := by
  refine run_touch e rfl fun u => ?_
  unfold State.withOp
  split
  · rename_i x0 o1 heq2
    refine Touch.ite ?_ ?_
    · beta_reduce
      unfold State.withJob
      split
      · rename_i x3 slot4 j5 heq6
        beta_reduce
        extract_lets a7 n8
        clear_value n8
        clear_value a7
        split
        · rename_i x9 heq10
          exact (Touch.refl ..).to (opReject_touch ..) rfl
        · rename_i x11 t12 heq13
          refine Touch.ite ?_ ?_
          · exact (Touch.refl ..).to (opReject_touch ..) rfl
          · split
            · rename_i x14 h15 s16 heq17
              have h18 : Touch 214747054071 u s16 := Touch.of22 heq17 ((Touch.refl ..).to (devRead_touch ..) rfl)
              refine Touch.ite ?_ ?_
              · extract_lets s19
                have h20 : Touch 214747054071 u s19 := (h18).to (modJob_touch ..) rfl
                clear_value s19
                refine Touch.to ?_ (opDone_touch ..) rfl
                split
                · rename_i x21 j22 heq23
                  exact (h20).to (setJf_touch _ _ _ _ (by decide)) rfl
                · rename_i x24 heq25
                  exact h20
              · split
                rename_i x26 e27 s28 heq29
                have h30 : Touch 214747054071 u s28 := Touch.of2 heq29 ((h18).to (devWrite_touch ..) rfl)
                exact (h30).to (opDone_touch ..) rfl
            · rename_i x31 e32 fst33 s34 x35 heq36
              have h37 : Touch 214747054071 u s34 := Touch.of22 heq36 ((Touch.refl ..).to (devRead_touch ..) rfl)
              exact (h37).to (opEnd_touch ..) rfl
      · rename_i x38 heq39
        exact (Touch.refl ..).to (opReject_touch ..) rfl
    · exact Touch.refl ..
  · rename_i x40 heq41
    exact Touch.refl ..

end Sys2Proof.Machine
end

