-- ==== Sys2Proof/Laws/TouchEngine.lean ====
section
/-!
SUPPORT. The footprint of every operation of collectives, products and engines: once per operation, the areas it can change.
-/
namespace Sys2Proof.Machine

open Sys2Proof

/-! ### Collective -/

theorem sendHops_touch (s x a) : Touch 4096 s (State.sendHops s x a).2 := by
  induction a generalizing s x
  · unfold State.sendHops
    refine Touch.red1 ?_
    exact Touch.refl ..
  · rename_i head0 tail1 tailih2
    unfold State.sendHops
    refine Touch.ite2 ?_ ?_
    · refine Touch.ite2 ?_ ?_
      · refine Touch.red1 ?_
        exact Touch.refl ..
      · exact ((Touch.refl ..).to (sendHop_touch ..) rfl).to (tailih2 _ _) rfl
    · refine Touch.ite2 ?_ ?_
      · exact (Touch.refl ..).to (tailih2 _ _) rfl
      · refine Touch.red1 ?_
        exact Touch.refl ..

theorem driveColl_touch (s x a) : Touch 4096 s (State.driveColl s x a).2 := by
  induction a generalizing s x
  · unfold State.driveColl
    refine Touch.red1 ?_
    exact Touch.refl ..
  · rename_i n0 a1
    unfold State.driveColl
    split
    rename_i x2 tracks3 s4 heq5
    have h6 : Touch 4096 s s4 := by
      refine Touch.of2 heq5 ?_
      refine Touch.foldl2 ?_ (fun b7 t8 a9 h10 => ?_)
      · refine Touch.red1 ?_
        exact Touch.refl ..
      · split
        rename_i x11 l12 s13 heq14
        have h15 : Touch 4096 s s13 := by
          refine Touch.of2 heq14 ?_
          refine Touch.to ?_ (sendHops_touch ..) rfl
          refine Touch.red1 ?_
          exact h10
        refine Touch.red1 ?_
        exact h15
    extract_lets sent16 x17
    clear_value x17
    clear_value sent16
    split
    · rename_i x18 x19 a20 g21 ps22 heq23 heq24
      exact (h6).to (a1 _ _) rfl
    · rename_i x25 x26 x27
      refine Touch.red1 ?_
      exact h6

theorem fenceColl_touch (s i x) : Touch 4160 s (State.fenceColl s i x) := by
  unfold State.fenceColl
  refine Touch.to ?_ (opDone_touch ..) rfl
  refine Touch.foldl ?_ (fun t0 a1 h2 => ?_)
  · exact Touch.refl ..
  · exact (h2).to (sendFence_touch ..) rfl

theorem finishOpColl_touch (s i x) : Touch 214742859767 s (State.finishOpColl s i x) := by
  unfold State.finishOpColl
  split
  · rename_i x0 heq1
    exact Touch.refl ..
  · rename_i x2 o3 heq4
    split
    · rename_i x5 heq6
      exact Touch.refl ..
    · rename_i x7 slot8 j9 heq10
      extract_lets d11 s12 isTarget13 top14
      have h15 : Touch 214742859767 s s12 := (Touch.refl ..).to (inc_touch_in (k := 28) _ _ rfl) rfl
      clear_value s12
      clear_value top14
      clear_value isTarget13
      clear_value d11
      split
      · rename_i x16 heq17
        exact (h15).to (fenceColl_touch ..) rfl
      · rename_i x18 t19 heq20
        extract_lets body21 rec22
        clear_value rec22
        clear_value body21
        split
        rename_i x23 e24 s25 heq26
        have h27 : Touch 214742859767 s s25 := Touch.of2 heq26 ((h15).to (devWrites_touch ..) rfl)
        extract_lets s28 s29 s30 s31
        have h32 : Touch 214742859767 s s28 := by
          unfold s28
          refine Touch.ite ?_ ?_
          · exact (h27).to (ownWrite_touch ..) rfl
          · exact h27
        clear_value s28
        have h33 : Touch 214742859767 s s29 := by
          unfold s29
          refine Touch.ite ?_ ?_
          · exact (h32).to (modJob_touch ..) rfl
          · exact h32
        clear_value s29
        have h34 : Touch 214742859767 s s30 := by
          unfold s30
          refine Touch.ite ?_ ?_
          · exact (h33).to (inc_touch_in (k := 28) _ _ rfl) rfl
          · exact h33
        clear_value s30
        have h35 : Touch 214742859767 s s31 := by
          unfold s31
          refine Touch.ite ?_ ?_
          · exact (h34).to (formSums_touch ..) rfl
          · exact h34
        clear_value s31
        refine Touch.ite ?_ ?_
        · exact (h35).to (fenceColl_touch ..) rfl
        · exact (h35).to (opAbortAt_touch ..) rfl

theorem putColl_touch (s key x) : Touch 214742859767 s (State.putColl s key x) := by
  unfold State.putColl
  split
  rename_i x0 x1 s2 heq3
  have h4 : Touch 214742859767 s s2 := Touch.of2 heq3 ((Touch.refl ..).to (driveColl_touch ..) rfl)
  refine Touch.ite ?_ ?_
  · split
    · rename_i x5 i6 heq7
      exact (Touch.set_colls (h4) rfl).to (finishOpColl_touch ..) rfl
    · rename_i x8 heq9
      exact (Touch.set_colls (h4) rfl).to (inc_touch_in (k := 28) _ _ rfl) rfl
  · split
    · rename_i x10 i11 heq12
      exact (Touch.set_colls (h4) rfl).to (opDone_touch ..) rfl
    · rename_i x13 heq14
      exact Touch.set_colls (h4) rfl

theorem startColl_touch (s key x) : Touch 214742859767 s (State.startColl s key x) := by
  unfold State.startColl
  extract_lets x0
  clear_value x0
  exact (Touch.refl ..).to (putColl_touch ..) rfl

theorem applyStep_touch (s p t body) : Touch 214742859767 s ((State.applyStep s p t body).getD s) := by
  unfold State.applyStep
  split
  · rename_i x0 f1 heq2
    refine Touch.someO ?_
    exact (Touch.refl ..).to (putColl_touch ..) rfl
  · rename_i x3 heq4
    exact Touch.refl ..

theorem execCollectiveAllreduce_touch (op exps s) {t : State} (e : execCollectiveAllreduce op exps s = .next t) :
    Touch 214747054071 s t := by
  refine run_touch e rfl fun u => ?_
  unfold State.withColl
  unfold State.withOp
  split
  · rename_i x0 o1 heq2
    refine Touch.ite ?_ ?_
    · beta_reduce
      unfold State.withJob
      split
      · rename_i x3 slot4 j5 heq6
        beta_reduce
        extract_lets index7
        clear_value index7
        split
        · rename_i x8 heq9
          exact (Touch.refl ..).to (opReject_touch ..) rfl
        · rename_i x10 bs11 heq12
          refine Touch.ite ?_ ?_
          · exact (Touch.refl ..).to (opReject_touch ..) rfl
          · refine Touch.ite ?_ ?_
            · split
              · rename_i x13 x14 t15 out16 heq17 heq18
                refine Touch.ite ?_ ?_
                · exact (Touch.refl ..).to (opReject_touch ..) rfl
                · split
                  · rename_i x19 vs20 ovf21 s22 heq23
                    have h24 : Touch 214747054071 u s22 := Touch.of222 heq23 ((Touch.refl ..).to (readVals_touch ..) rfl)
                    extract_lets g25 byHist26
                    clear_value byHist26
                    clear_value g25
                    split
                    rename_i x27 ec28 bound29 heq30
                    split
                    · rename_i x31 grid32 s33 heq34
                      have h35 : Touch 214747054071 u s33 := by
                        refine Touch.of22 heq34 ?_
                        refine Touch.ite22 ?_ ?_
                        · exact (h24).to (i32Exp_touch ..) rfl
                        · refine Touch.red2 ?_
                          refine Touch.red1 ?_
                          exact h24
                      extract_lets xs36 src37 x38
                      clear_value x38
                      clear_value src37
                      clear_value xs36
                      exact ((h35).to (opDone_touch ..) rfl).to (startColl_touch ..) rfl
                    · rename_i x39 e40 fst41 s42 x43 heq44
                      have h45 : Touch 214747054071 u s42 := by
                        refine Touch.of22 heq44 ?_
                        refine Touch.ite22 ?_ ?_
                        · exact (h24).to (i32Exp_touch ..) rfl
                        · refine Touch.red2 ?_
                          refine Touch.red1 ?_
                          exact h24
                      exact (h45).to (opAbortAt_touch ..) rfl
                  · rename_i x46 e47 fst48 fst49 s50 x51 heq52
                    have h53 : Touch 214747054071 u s50 := Touch.of222 heq52 ((Touch.refl ..).to (readVals_touch ..) rfl)
                    exact (h53).to (opAbortAt_touch ..) rfl
              · rename_i x54 x55 x56
                exact (Touch.refl ..).to (opReject_touch ..) rfl
            · exact Touch.refl ..
      · rename_i x57 heq58
        exact (Touch.refl ..).to (opReject_touch ..) rfl
    · exact Touch.refl ..
  · rename_i x59 heq60
    exact Touch.refl ..

theorem execCollectiveMax_touch (op s) {t : State} (e : execCollectiveMax op s = .next t) :
    Touch 214747054071 s t := by
  refine run_touch e rfl fun u => ?_
  unfold State.withColl
  unfold State.withOp
  split
  · rename_i x0 o1 heq2
    refine Touch.ite ?_ ?_
    · beta_reduce
      unfold State.withJob
      split
      · rename_i x3 slot4 j5 heq6
        beta_reduce
        extract_lets index7
        clear_value index7
        split
        · rename_i x8 heq9
          exact (Touch.refl ..).to (opReject_touch ..) rfl
        · rename_i x10 bs11 heq12
          refine Touch.ite ?_ ?_
          · exact (Touch.refl ..).to (opReject_touch ..) rfl
          · refine Touch.ite ?_ ?_
            · split
              · rename_i x13 x14 t15 out16 heq17 heq18
                refine Touch.ite ?_ ?_
                · exact (Touch.refl ..).to (opReject_touch ..) rfl
                · split
                  · rename_i x19 raw20 s21 heq22
                    have h23 : Touch 214747054071 u s21 := Touch.of22 heq22 ((Touch.refl ..).to (devRead_touch ..) rfl)
                    extract_lets xs24
                    clear_value xs24
                    exact ((h23).to (opDone_touch ..) rfl).to (startColl_touch ..) rfl
                  · rename_i x25 e26 fst27 s28 x29 heq30
                    have h31 : Touch 214747054071 u s28 := Touch.of22 heq30 ((Touch.refl ..).to (devRead_touch ..) rfl)
                    exact (h31).to (opAbortAt_touch ..) rfl
              · rename_i x32 x33 x34
                exact (Touch.refl ..).to (opReject_touch ..) rfl
            · exact Touch.refl ..
      · rename_i x35 heq36
        exact (Touch.refl ..).to (opReject_touch ..) rfl
    · exact Touch.refl ..
  · rename_i x37 heq38
    exact Touch.refl ..

theorem execCollectiveDigest_touch (op s) {t : State} (e : execCollectiveDigest op s = .next t) :
    Touch 214747054071 s t := by
  refine run_touch e rfl fun u => ?_
  unfold State.withColl
  unfold State.withOp
  split
  · rename_i x0 o1 heq2
    refine Touch.ite ?_ ?_
    · beta_reduce
      unfold State.withJob
      split
      · rename_i x3 slot4 j5 heq6
        beta_reduce
        extract_lets index7
        clear_value index7
        split
        · rename_i x8 heq9
          exact (Touch.refl ..).to (opReject_touch ..) rfl
        · rename_i x10 bs11 heq12
          refine Touch.ite ?_ ?_
          · exact (Touch.refl ..).to (opReject_touch ..) rfl
          · refine Touch.ite ?_ ?_
            · split
              · rename_i x13 x14 t15 out16 heq17 heq18
                extract_lets pos19 g20 r21
                clear_value r21
                clear_value g20
                clear_value pos19
                refine Touch.ite ?_ ?_
                · exact (Touch.refl ..).to (opReject_touch ..) rfl
                · split
                  · rename_i x22 raw23 s24 heq25
                    have h26 : Touch 214747054071 u s24 := Touch.of22 heq25 ((Touch.refl ..).to (devRead_touch ..) rfl)
                    extract_lets data27
                    clear_value data27
                    exact ((h26).to (opDone_touch ..) rfl).to (startColl_touch ..) rfl
                  · rename_i x28 e29 fst30 s31 x32 heq33
                    have h34 : Touch 214747054071 u s31 := Touch.of22 heq33 ((Touch.refl ..).to (devRead_touch ..) rfl)
                    exact (h34).to (opAbortAt_touch ..) rfl
              · rename_i x35 x36 x37
                exact (Touch.refl ..).to (opReject_touch ..) rfl
            · exact Touch.refl ..
      · rename_i x38 heq39
        exact (Touch.refl ..).to (opReject_touch ..) rfl
    · exact Touch.refl ..
  · rename_i x40 heq41
    exact Touch.refl ..

theorem execCollectiveBroadcast_touch (op s) {t : State} (e : execCollectiveBroadcast op s = .next t) :
    Touch 214747054071 s t := by
  refine run_touch e rfl fun u => ?_
  unfold State.withColl
  unfold State.withOp
  split
  · rename_i x0 o1 heq2
    refine Touch.ite ?_ ?_
    · beta_reduce
      unfold State.withJob
      split
      · rename_i x3 slot4 j5 heq6
        beta_reduce
        extract_lets index7
        clear_value index7
        split
        · rename_i x8 heq9
          exact (Touch.refl ..).to (opReject_touch ..) rfl
        · rename_i x10 bs11 heq12
          refine Touch.ite ?_ ?_
          · exact (Touch.refl ..).to (opReject_touch ..) rfl
          · refine Touch.ite ?_ ?_
            · split
              · rename_i x13 x14 t15 out16 heq17 heq18
                extract_lets n19
                clear_value n19
                refine Touch.ite ?_ ?_
                · exact (Touch.refl ..).to (opReject_touch ..) rfl
                · refine Touch.ite ?_ ?_
                  · split
                    · rename_i x20 raw21 s22 heq23
                      have h24 : Touch 214747054071 u s22 := Touch.of22 heq23 ((Touch.refl ..).to (devRead_touch ..) rfl)
                      exact ((h24).to (opDone_touch ..) rfl).to (startColl_touch ..) rfl
                    · rename_i x25 e26 fst27 s28 x29 heq30
                      have h31 : Touch 214747054071 u s28 := Touch.of22 heq30 ((Touch.refl ..).to (devRead_touch ..) rfl)
                      exact (h31).to (opAbortAt_touch ..) rfl
                  · exact ((Touch.refl ..).to (opDone_touch ..) rfl).to (startColl_touch ..) rfl
              · rename_i x32 x33 x34
                exact (Touch.refl ..).to (opReject_touch ..) rfl
            · exact Touch.refl ..
      · rename_i x35 heq36
        exact (Touch.refl ..).to (opReject_touch ..) rfl
    · exact Touch.refl ..
  · rename_i x37 heq38
    exact Touch.refl ..

theorem coverXor_touch (s tracks) : Touch 4096 s (State.coverXor s tracks) := by
  unfold State.coverXor
  refine Touch.foldl ?_ (fun t0 a1 h2 => ?_)
  · exact Touch.refl ..
  · split
    · rename_i x3 x4 i5 o6 heq7 heq8
      exact (h2).to (modPort_touch ..) rfl
    · rename_i x9 x10 x11
      exact h2

theorem execCollectiveXor_touch (op s) {t : State} (e : execCollectiveXor op s = .next t) :
    Touch 214747054071 s t := by
  refine run_touch e rfl fun u => ?_
  unfold State.withColl
  unfold State.withOp
  split
  · rename_i x0 o1 heq2
    refine Touch.ite ?_ ?_
    · beta_reduce
      unfold State.withJob
      split
      · rename_i x3 slot4 j5 heq6
        beta_reduce
        extract_lets index7
        clear_value index7
        split
        · rename_i x8 heq9
          exact (Touch.refl ..).to (opReject_touch ..) rfl
        · rename_i x10 bs11 heq12
          refine Touch.ite ?_ ?_
          · exact (Touch.refl ..).to (opReject_touch ..) rfl
          · refine Touch.ite ?_ ?_
            · split
              · rename_i x13 out14 heq15
                extract_lets n16 a17 tracks18 start19 toward20
                clear_value toward20
                clear_value tracks18
                clear_value a17
                clear_value n16
                refine Touch.ite ?_ ?_
                · exact (Touch.refl ..).to (opReject_touch ..) rfl
                · refine Touch.ite ?_ ?_
                  · split
                    · rename_i x21 out22 heq23
                      refine Touch.ite ?_ ?_
                      · exact (Touch.refl ..).to (opReject_touch ..) rfl
                      · unfold start19
                        extract_lets x24 from25
                        clear_value from25
                        clear_value x24
                        exact (((Touch.refl ..).to (coverXor_touch ..) rfl).to (opDone_touch ..) rfl).to (putColl_touch ..) rfl
                    · rename_i x26 heq27
                      exact (Touch.refl ..).to (opReject_touch ..) rfl
                  · split
                    · rename_i x28 raw29 s30 heq31
                      have h32 : Touch 214747054071 u s30 := Touch.of22 heq31 ((Touch.refl ..).to (devRead_touch ..) rfl)
                      unfold start19
                      extract_lets x33 from34
                      clear_value from34
                      clear_value x33
                      exact (((h32).to (coverXor_touch ..) rfl).to (opDone_touch ..) rfl).to (putColl_touch ..) rfl
                    · rename_i x35 e36 fst37 s38 x39 heq40
                      have h41 : Touch 214747054071 u s38 := Touch.of22 heq40 ((Touch.refl ..).to (devRead_touch ..) rfl)
                      extract_lets s42
                      have h43 : Touch 214747054071 u s42 := by
                        unfold s42
                        refine Touch.ite ?_ ?_
                        · refine Touch.foldl ?_ (fun t44 a45 h46 => ?_)
                          · exact h41
                          · exact (h46).to (countError_touch ..) rfl
                        · exact h41
                      clear_value s42
                      refine Touch.ite ?_ ?_
                      · unfold start19
                        extract_lets x47 from48
                        clear_value from48
                        clear_value x47
                        exact (((h43).to (coverXor_touch ..) rfl).to (opDone_touch ..) rfl).to (putColl_touch ..) rfl
                      · exact (h43).to (opAbortAt_touch ..) rfl
              · rename_i x49 heq50
                exact (Touch.refl ..).to (opReject_touch ..) rfl
            · exact Touch.refl ..
      · rename_i x51 heq52
        exact (Touch.refl ..).to (opReject_touch ..) rfl
    · exact Touch.refl ..
  · rename_i x53 heq54
    exact Touch.refl ..

theorem senderReject_touch (s op dst status) : Touch 206697398358 s (State.senderReject s op dst status) := by
  unfold State.senderReject
  exact ((Touch.refl ..).to (event_touch ..) rfl).to (opDone_touch ..) rfl

theorem execCollectiveSend_touch (op s) {t : State} (e : execCollectiveSend op s = .next t) :
    Touch 214747054071 s t := by
  refine run_touch e rfl fun u => ?_
  unfold State.withColl
  unfold State.withOp
  split
  · rename_i x0 o1 heq2
    refine Touch.ite ?_ ?_
    · beta_reduce
      unfold State.withJob
      split
      · rename_i x3 slot4 j5 heq6
        beta_reduce
        extract_lets index7
        clear_value index7
        split
        · rename_i x8 heq9
          exact (Touch.refl ..).to (opReject_touch ..) rfl
        · rename_i x10 bs11 heq12
          refine Touch.ite ?_ ?_
          · exact (Touch.refl ..).to (opReject_touch ..) rfl
          · refine Touch.ite ?_ ?_
            · split
              · rename_i x13 x14 t15 p16 heq17 heq18
                refine Touch.ite ?_ ?_
                · exact (Touch.refl ..).to (opReject_touch ..) rfl
                · refine Touch.ite ?_ ?_
                  · exact (Touch.refl ..).to (senderReject_touch ..) rfl
                  · refine Touch.ite ?_ ?_
                    · exact (Touch.refl ..).to (opDone_touch ..) rfl
                    · split
                      · rename_i x19 raw20 s21 heq22
                        have h23 : Touch 214747054071 u s21 := Touch.of22 heq22 ((Touch.refl ..).to (devRead_touch ..) rfl)
                        extract_lets k24 s25
                        have h26 : Touch 214747054071 u s25 := by
                          unfold s25
                          refine Touch.foldl ?_ (fun t27 a28 h29 => ?_)
                          · exact h23
                          · extract_lets body30
                            clear_value body30
                            split
                            rename_i x31 e32 s33 heq34
                            have h35 : Touch 214747054071 u s33 := Touch.of2 heq34 ((h29).to (newTag_touch ..) rfl)
                            exact (h35).to (sendMsg_touch ..) rfl
                        clear_value s25
                        clear_value k24
                        exact ((h26).to (sendFence_touch ..) rfl).to (opDone_touch ..) rfl
                      · rename_i x36 e37 fst38 s39 x40 heq41
                        have h42 : Touch 214747054071 u s39 := Touch.of22 heq41 ((Touch.refl ..).to (devRead_touch ..) rfl)
                        exact (h42).to (opAbortAt_touch ..) rfl
              · rename_i x43 x44 heq45
                exact (Touch.refl ..).to (opReject_touch ..) rfl
              · rename_i x46 x47 val48 heq49 heq50
                exact (Touch.refl ..).to (senderReject_touch ..) rfl
            · exact Touch.refl ..
      · rename_i x51 heq52
        exact (Touch.refl ..).to (opReject_touch ..) rfl
    · exact Touch.refl ..
  · rename_i x53 heq54
    exact Touch.refl ..

theorem execCollectiveRecv_touch (op s) {t : State} (e : execCollectiveRecv op s = .next t) :
    Touch 209931898103 s t := by
  refine run_touch e rfl fun u => ?_
  unfold State.withColl
  unfold State.withOp
  split
  · rename_i x0 o1 heq2
    refine Touch.ite ?_ ?_
    · beta_reduce
      unfold State.withJob
      split
      · rename_i x3 slot4 j5 heq6
        beta_reduce
        extract_lets index7
        clear_value index7
        split
        · rename_i x8 heq9
          exact (Touch.refl ..).to (opReject_touch ..) rfl
        · rename_i x10 bs11 heq12
          refine Touch.ite ?_ ?_
          · exact (Touch.refl ..).to (opReject_touch ..) rfl
          · refine Touch.ite ?_ ?_
            · split
              · rename_i x13 out14 heq15
                refine Touch.ite ?_ ?_
                · exact (Touch.refl ..).to (opReject_touch ..) rfl
                · exact (Touch.refl ..).to (opDone_touch ..) rfl
              · rename_i x16 heq17
                exact (Touch.refl ..).to (opReject_touch ..) rfl
            · exact Touch.refl ..
      · rename_i x18 heq19
        exact (Touch.refl ..).to (opReject_touch ..) rfl
    · exact Touch.refl ..
  · rename_i x20 heq21
    exact Touch.refl ..

/-! ### Products -/

theorem readRec_touch (s rq t) : Touch 209919280151 s (State.readRec s rq t).2.2 := by
  unfold State.readRec
  exact (Touch.refl ..).to (readForm_touch ..) rfl

theorem loadRot_touch (s epoch) : Touch 512 s (State.loadRot s epoch) := by
  unfold State.loadRot
  split
  · rename_i epoch0 h1
    refine Touch.ite ?_ ?_
    · exact Touch.refl ..
    · exact Touch.set_rng (Touch.refl ..) rfl
  · rename_i epoch2
    exact Touch.refl ..

theorem prodRead_touch (s rq j c) : Touch 209919280663 s (State.prodRead s rq j c).2.2.2 := by
  unfold State.prodRead
  split
  · rename_i x0 heq1
    refine Touch.red3 ?_
    refine Touch.red2 ?_
    refine Touch.red1 ?_
    exact Touch.refl ..
  · rename_i x2 p3 heq4
    split
    · rename_i x5 qb6 s7 heq8
      have h9 : Touch 209919280663 s s7 := Touch.of22 heq8 ((Touch.refl ..).to (readRec_touch ..) rfl)
      split
      · rename_i x10 qb11 s12 heq13
        have h14 : Touch 209919280663 s s12 := Touch.of22 heq13 ((h9).to (readRec_touch ..) rfl)
        extract_lets n15 same16
        clear_value same16
        clear_value n15
        refine Touch.ite222 ?_ ?_
        · refine Touch.red3 ?_
          refine Touch.red2 ?_
          refine Touch.red1 ?_
          exact h14
        · refine Touch.ite222 ?_ ?_
          · refine Touch.red3 ?_
            refine Touch.red2 ?_
            refine Touch.red1 ?_
            exact h14
          · refine Touch.ite222 ?_ ?_
            · refine Touch.red3 ?_
              refine Touch.red2 ?_
              refine Touch.red1 ?_
              exact h14
            · refine Touch.red3 ?_
              refine Touch.red2 ?_
              refine Touch.red1 ?_
              exact (h14).to (loadRot_touch ..) rfl
      · rename_i x17 e18 fst19 s20 x21 heq22
        have h23 : Touch 209919280663 s s20 := Touch.of22 heq22 ((h9).to (readRec_touch ..) rfl)
        refine Touch.red3 ?_
        refine Touch.red2 ?_
        refine Touch.red1 ?_
        exact h23
    · rename_i x24 e25 fst26 s27 x28 heq29
      have h30 : Touch 209919280663 s s27 := Touch.of22 heq29 ((Touch.refl ..).to (readRec_touch ..) rfl)
      refine Touch.red3 ?_
      refine Touch.red2 ?_
      refine Touch.red1 ?_
      exact h30

theorem prodOf_touch (s rq j c) : Touch 209919280663 s (State.prodOf s rq j c).2 := by
  unfold State.prodOf
  split
  · rename_i x0 fst1 p2 s3 heq4
    have h5 : Touch 209919280663 s s3 := Touch.of222 heq4 ((Touch.refl ..).to (prodRead_touch ..) rfl)
    refine Touch.red1 ?_
    exact h5
  · rename_i x6 fst7 fst8 fst9 s10 x11 heq12
    have h13 : Touch 209919280663 s s10 := Touch.of222 heq12 ((Touch.refl ..).to (prodRead_touch ..) rfl)
    refine Touch.red1 ?_
    exact h13

theorem fbOf_touch (s rq j q) : Touch 209919280151 s (State.fbOf s rq j q).2.2 := by
  unfold State.fbOf
  refine Touch.ite22 ?_ ?_
  · split
    · rename_i x0 t1 heq2
      split
      · rename_i x3 qb4 s5 heq6
        have h7 : Touch 209919280151 s s5 := Touch.of22 heq6 ((Touch.refl ..).to (readRec_touch ..) rfl)
        refine Touch.red2 ?_
        refine Touch.red1 ?_
        exact h7
      · rename_i x8 e9 fst10 s11 x12 heq13
        have h14 : Touch 209919280151 s s11 := Touch.of22 heq13 ((Touch.refl ..).to (readRec_touch ..) rfl)
        refine Touch.red2 ?_
        refine Touch.red1 ?_
        exact h14
    · rename_i x15 heq16
      refine Touch.red2 ?_
      refine Touch.red1 ?_
      exact Touch.refl ..
  · refine Touch.red2 ?_
    refine Touch.red1 ?_
    exact Touch.refl ..

theorem keepPart_touch (s slot view t st x own bs) : Touch 209919315095 s (State.keepPart s slot view t st x own bs) := by
  unfold State.keepPart
  extract_lets bs0 names1 new2
  clear_value new2
  clear_value names1
  clear_value bs0
  split
  · rename_i x3 heq4
    exact Touch.refl ..
  · rename_i x5 j6 heq7
    extract_lets j8 rec9 writes10
    clear_value writes10
    clear_value rec9
    clear_value j8
    split
    · rename_i st11
      exact (Touch.refl ..).to (setJob_touch ..) rfl
    · rename_i st12 st13
      refine Touch.ite ?_ ?_
      · exact Touch.refl ..
      · refine Touch.ite ?_ ?_
        · exact (Touch.refl ..).to (setJob_touch ..) rfl
        · split
          · rename_i x14 s15 heq16
            have h17 : Touch 209919315095 s s15 := Touch.of2 heq16 (((Touch.refl ..).to (setJob_touch ..) rfl).to (devWrites_touch ..) rfl)
            exact (h17).to (modJob_touch ..) rfl
          · rename_i x18 fst19 s20 x21 heq22
            have h23 : Touch 209919315095 s s20 := Touch.of2 heq22 (((Touch.refl ..).to (setJob_touch ..) rfl).to (devWrites_touch ..) rfl)
            exact h23

theorem keepRungUp_touch (s slot j t mode step pre r10 spans) : Touch 209952869527 s (State.keepRungUp s slot j t mode step pre r10 spans) := by
  unfold State.keepRungUp
  extract_lets parts0 up1 st2 rec3 old4 w5 bs6 len7 own8 s9
  have h10 : Touch 209952869527 s s9 := by
    unfold s9
    refine Touch.foldl ?_ (fun t11 a12 h13 => ?_)
    · exact Touch.refl ..
    · exact (h13).to (keepPart_touch ..) rfl
  clear_value s9
  clear_value own8
  clear_value len7
  clear_value bs6
  clear_value w5
  clear_value old4
  clear_value rec3
  clear_value st2
  clear_value up1
  clear_value parts0
  refine Touch.ite ?_ ?_
  · exact Touch.refl ..
  · exact (h10).to (addF_touch_in (k := 25) _ _ _ rfl) rfl

theorem feed_touch (s rq j t q fb slices k r b up) : Touch 209919280151 s (State.feed s rq j t q fb slices k r b up).2.2 := by
  unfold State.feed
  split
  · rename_i x0 x1 heq2
    refine Touch.red2 ?_
    refine Touch.red1 ?_
    exact Touch.refl ..
  · rename_i x3 heq4
    split
    · rename_i x5 x6 q7 heq8
      split
      · rename_i x9 blk10 fst11 s12 heq13
        have h14 : Touch 209919280151 s s12 := Touch.of222 heq13 ((Touch.refl ..).to (readBlockAt_touch ..) rfl)
        refine Touch.red2 ?_
        refine Touch.red1 ?_
        exact h14
      · rename_i x15 e16 fst17 fst18 s19 x20 heq21
        have h22 : Touch 209919280151 s s19 := Touch.of222 heq21 ((Touch.refl ..).to (readBlockAt_touch ..) rfl)
        refine Touch.red2 ?_
        refine Touch.red1 ?_
        exact h22
    · rename_i x23 heq24
      extract_lets blk25
      clear_value blk25
      split
      · rename_i x26 blk27 fst28 s29 heq30
        have h31 : Touch 209919280151 s s29 := Touch.of222 heq30 ((Touch.refl ..).to (readQBlock_touch ..) rfl)
        refine Touch.ite22 ?_ ?_
        · split
          · rename_i fb32
            refine Touch.red2 ?_
            refine Touch.red1 ?_
            exact h31
          · rename_i fb33 ft34 fq35
            refine Touch.ite22 ?_ ?_
            · refine Touch.red2 ?_
              refine Touch.red1 ?_
              exact h31
            · split
              · rename_i x36 blk37 fst38 s39 heq40
                have h41 : Touch 209919280151 s s39 := Touch.of222 heq40 ((h31).to (readQBlock_touch ..) rfl)
                refine Touch.red2 ?_
                refine Touch.red1 ?_
                exact h41
              · rename_i x42 e43 fst44 fst45 s46 x47 heq48
                have h49 : Touch 209919280151 s s46 := Touch.of222 heq48 ((h31).to (readQBlock_touch ..) rfl)
                refine Touch.red2 ?_
                refine Touch.red1 ?_
                exact h49
        · refine Touch.red2 ?_
          refine Touch.red1 ?_
          exact h31
      · rename_i x50 e51 fst52 fst53 s54 x55 heq56
        have h57 : Touch 209919280151 s s54 := Touch.of222 heq56 ((Touch.refl ..).to (readQBlock_touch ..) rfl)
        refine Touch.red2 ?_
        refine Touch.red1 ?_
        exact h57

theorem feedRow_touch (s rq j t q fb slices r up a) : Touch 209919280151 s (State.feedRow s rq j t q fb slices r up a).2.2 := by
  induction a generalizing s rq j t q fb slices r up
  · unfold State.feedRow
    refine Touch.red2 ?_
    refine Touch.red1 ?_
    exact Touch.refl ..
  · rename_i head0 tail1 tailih2
    unfold State.feedRow
    split
    · rename_i x3 x4 s5 heq6
      have h7 : Touch 209919280151 s s5 := Touch.of22 heq6 ((Touch.refl ..).to (feed_touch ..) rfl)
      split
      · rename_i x8 xs9 s10 heq11
        have h12 : Touch 209919280151 s s10 := Touch.of22 heq11 ((h7).to (tailih2 _ _ _ _ _ _ _ _ _) rfl)
        refine Touch.red2 ?_
        refine Touch.red1 ?_
        exact h12
      · rename_i x13 x14
        exact (h7).to (tailih2 _ _ _ _ _ _ _ _ _) rfl
    · rename_i x15 e16 fst17 s18 x19 heq20
      have h21 : Touch 209919280151 s s18 := Touch.of22 heq20 ((Touch.refl ..).to (feed_touch ..) rfl)
      refine Touch.red2 ?_
      refine Touch.red1 ?_
      exact h21

theorem feedRows_touch (s rq j t q fb slices bs up a) : Touch 209919280151 s (State.feedRows s rq j t q fb slices bs up a).2.2 := by
  induction a generalizing s rq j t q fb slices bs up
  · unfold State.feedRows
    refine Touch.red2 ?_
    refine Touch.red1 ?_
    exact Touch.refl ..
  · rename_i head0 tail1 tailih2
    unfold State.feedRows
    split
    · rename_i x3 x4 s5 heq6
      have h7 : Touch 209919280151 s s5 := Touch.of22 heq6 ((Touch.refl ..).to (feedRow_touch ..) rfl)
      split
      · rename_i x8 xs9 s10 heq11
        have h12 : Touch 209919280151 s s10 := Touch.of22 heq11 ((h7).to (tailih2 _ _ _ _ _ _ _ _ _) rfl)
        refine Touch.red2 ?_
        refine Touch.red1 ?_
        exact h12
      · rename_i x13 x14
        exact (h7).to (tailih2 _ _ _ _ _ _ _ _ _) rfl
    · rename_i x15 e16 fst17 s18 x19 heq20
      have h21 : Touch 209919280151 s s18 := Touch.of22 heq20 ((Touch.refl ..).to (feedRow_touch ..) rfl)
      refine Touch.red2 ?_
      refine Touch.red1 ?_
      exact h21

theorem mismatches_touch (s e t per rows ks bs) : Touch 206697398294 s (State.mismatches s e t per rows ks bs) := by
  unfold State.mismatches
  refine Touch.foldl ?_ (fun t0 a1 h2 => ?_)
  · exact Touch.refl ..
  · refine Touch.foldl ?_ (fun t3 a4 h5 => ?_)
    · exact h2
    · refine Touch.ite ?_ ?_
      · exact (h5).to (event_touch ..) rfl
      · exact h5

theorem showPass_touch (s e p w fa fb up kt i jx) : Touch 4294967296 s (State.showPass s e p w fa fb up kt i jx) := by
  unfold State.showPass
  extract_lets kMask0 s1 fmt2
  have h3 : Touch 4294967296 s s1 := (Touch.refl ..).to (wrEng_touch _ _ _ _ (by decide)) rfl
  clear_value s1
  clear_value fmt2
  clear_value kMask0
  exact (h3).to (wrEng_touch _ _ _ _ (by decide)) rfl

theorem captureAt_touch (s e first) : Touch 4294967552 s (State.captureAt s e first) := by
  unfold State.captureAt
  refine Touch.ite ?_ ?_
  · split
    · rename_i epoch0 h1 heq2
      split
      · rename_i x3 c4 heq5
        exact (Touch.refl ..).to (captured_touch ..) rfl
      · rename_i x6 heq7
        exact Touch.refl ..
    · rename_i epoch8 heq9
      exact (Touch.refl ..).to (captured_touch ..) rfl
  · exact Touch.refl ..

theorem pass_touch (s rq e j p x up kt i jx) : Touch 214214247703 s (State.pass s rq e j p x up kt i jx).2.2 := by
  unfold State.pass
  extract_lets w0 ks1 rows2 cols3 rho4 top5 bands6
  clear_value bands6
  clear_value top5
  clear_value rho4
  clear_value cols3
  clear_value rows2
  clear_value ks1
  clear_value w0
  split
  · rename_i x7 fb8 s9 heq10
    have h11 : Touch 214214247703 s s9 := Touch.of22 heq10 ((Touch.refl ..).to (fbOf_touch ..) rfl)
    split
    · rename_i x12 fb13 s14 heq15
      have h16 : Touch 214214247703 s s14 := Touch.of22 heq15 ((h11).to (fbOf_touch ..) rfl)
      split
      · rename_i x17 bs18 s19 heq20
        have h21 : Touch 214214247703 s s19 := Touch.of22 heq20 ((h16).to (feedRows_touch ..) rfl)
        split
        · rename_i x22 bs23 s24 heq25
          have h26 : Touch 214214247703 s s24 := Touch.of22 heq25 ((h21).to (feedRows_touch ..) rfl)
          extract_lets elems27 excess28 nv29 lost30 retry31 s32 s33 esc34 s35 s36 s37 s38 s39
          have h40 : Touch 214214247703 s s32 := by
            unfold s32
            refine Touch.ite ?_ ?_
            · exact (h26).to (mismatches_touch ..) rfl
            · exact h26
          clear_value s32
          have h41 : Touch 214214247703 s s33 := by
            unfold s33
            refine Touch.ite ?_ ?_
            · exact (h40).to (mismatches_touch ..) rfl
            · exact h40
          clear_value s33
          have h42 : Touch 214214247703 s s35 := (((h41).to (addEf_touch _ _ _ _ (by decide)) rfl).to (addEf_touch _ _ _ _ (by decide)) rfl).to (addEf_touch _ _ _ _ (by decide)) rfl
          clear_value s35
          have h43 : Touch 214214247703 s s36 := ((h42).to (addEf_touch _ _ _ _ (by decide)) rfl).to (addEf_touch _ _ _ _ (by decide)) rfl
          clear_value s36
          have h44 : Touch 214214247703 s s37 := (h43).to (showPass_touch ..) rfl
          clear_value s37
          have h45 : Touch 214214247703 s s38 := (h44).to (captureAt_touch ..) rfl
          clear_value s38
          have h46 : Touch 214214247703 s s39 := Touch.set_cells (h45) rfl
          clear_value s39
          clear_value esc34
          clear_value retry31
          clear_value lost30
          clear_value nv29
          clear_value excess28
          clear_value elems27
          refine Touch.red2 ?_
          refine Touch.red1 ?_
          exact h46
        · rename_i x47 e48 fst49 s50 x51 heq52
          have h53 : Touch 214214247703 s s50 := Touch.of22 heq52 ((h21).to (feedRows_touch ..) rfl)
          refine Touch.red2 ?_
          refine Touch.red1 ?_
          exact h53
      · rename_i x54 e55 fst56 s57 x58 heq59
        have h60 : Touch 214214247703 s s57 := Touch.of22 heq59 ((h16).to (feedRows_touch ..) rfl)
        refine Touch.red2 ?_
        refine Touch.red1 ?_
        exact h60
    · rename_i x61 e62 fst63 s64 x65 heq66
      have h67 : Touch 214214247703 s s64 := Touch.of22 heq66 ((h11).to (fbOf_touch ..) rfl)
      refine Touch.red2 ?_
      refine Touch.red1 ?_
      exact h67
  · rename_i x68 e69 fst70 s71 x72 heq73
    have h74 : Touch 214214247703 s s71 := Touch.of22 heq73 ((Touch.refl ..).to (fbOf_touch ..) rfl)
    refine Touch.red2 ?_
    refine Touch.red1 ?_
    exact h74

theorem preload_touch (s rq e p x) : Touch 209919280151 s (State.preload s rq e p x).2.2 := by
  unfold State.preload
  extract_lets w0
  clear_value w0
  split
  rename_i x1 a2 fst3 snd4 heq5
  split
  · rename_i x6 bs7 s8 heq9
    have h10 : Touch 209919280151 s s8 := Touch.of22 heq9 ((Touch.refl ..).to (devRead_touch ..) rfl)
    extract_lets h11 x12 els13 excess14 retry15
    clear_value retry15
    clear_value excess14
    clear_value els13
    clear_value x12
    clear_value h11
    refine Touch.ite22 ?_ ?_
    · refine Touch.red2 ?_
      refine Touch.red1 ?_
      exact h10
    · refine Touch.red2 ?_
      refine Touch.red1 ?_
      exact h10
  · rename_i x16 e17 fst18 s19 x20 heq21
    have h22 : Touch 209919280151 s s19 := Touch.of22 heq21 ((Touch.refl ..).to (devRead_touch ..) rfl)
    refine Touch.red2 ?_
    refine Touch.red1 ?_
    exact h22

theorem readRows_touch (s rq p t a) : Touch 209919280151 s (State.readRows s rq p t a).2.2 := by
  induction a generalizing s rq p t
  · unfold State.readRows
    refine Touch.red2 ?_
    refine Touch.red1 ?_
    exact Touch.refl ..
  · rename_i head0 tail1 tailih2
    unfold State.readRows
    split
    · rename_i x3 v4 fst5 s6 heq7
      have h8 : Touch 209919280151 s s6 := Touch.of222 heq7 ((Touch.refl ..).to (readVals_touch ..) rfl)
      split
      · rename_i x9 l10 s11 heq12
        have h13 : Touch 209919280151 s s11 := Touch.of22 heq12 ((h8).to (tailih2 _ _ _ _) rfl)
        refine Touch.red2 ?_
        refine Touch.red1 ?_
        exact h13
      · rename_i x14 e15 fst16 s17 x18 heq19
        have h20 : Touch 209919280151 s s17 := Touch.of22 heq19 ((h8).to (tailih2 _ _ _ _) rfl)
        refine Touch.red2 ?_
        refine Touch.red1 ?_
        exact h20
    · rename_i x21 e22 fst23 fst24 s25 x26 heq27
      have h28 : Touch 209919280151 s s25 := Touch.of222 heq27 ((Touch.refl ..).to (readVals_touch ..) rfl)
      refine Touch.red2 ?_
      refine Touch.red1 ?_
      exact h28

theorem replayVals_touch (s rq p w) : Touch 209919280151 s (State.replayVals s rq p w).2.2.2 := by
  unfold State.replayVals
  split
  · rename_i x0 l1 s2 heq3
    have h4 : Touch 209919280151 s s2 := Touch.of22 heq3 ((Touch.refl ..).to (readRows_touch ..) rfl)
    split
    · rename_i x5 l6 s7 heq8
      have h9 : Touch 209919280151 s s7 := Touch.of22 heq8 ((h4).to (readRows_touch ..) rfl)
      extract_lets nv10
      clear_value nv10
      refine Touch.red3 ?_
      refine Touch.red2 ?_
      refine Touch.red1 ?_
      exact h9
    · rename_i x11 e12 fst13 s14 x15 heq16
      have h17 : Touch 209919280151 s s14 := Touch.of22 heq16 ((h4).to (readRows_touch ..) rfl)
      refine Touch.red3 ?_
      refine Touch.red2 ?_
      refine Touch.red1 ?_
      exact h17
  · rename_i x18 e19 fst20 s21 x22 heq23
    have h24 : Touch 209919280151 s s21 := Touch.of22 heq23 ((Touch.refl ..).to (readRows_touch ..) rfl)
    refine Touch.red3 ?_
    refine Touch.red2 ?_
    refine Touch.red1 ?_
    exact h24

theorem finishVals_go_touch (rq j p c w vals nv step f key bs s a) : Touch 209919280151 s (State.finishVals.go rq j p c w vals nv step f key bs s a).2.2.2 := by
  induction a generalizing rq j p c w vals nv step f key bs s
  · unfold State.finishVals.go
    refine Touch.red3 ?_
    refine Touch.red2 ?_
    refine Touch.red1 ?_
    exact Touch.refl ..
  · rename_i head0 tail1 tailih2
    unfold State.finishVals.go
    extract_lets r3 aux4 pre5 at6
    have h7 : Touch 209919280151 s aux4.2.2.2 := by
      unfold aux4
      refine Touch.ite222 ?_ ?_
      · split
        · rename_i x8 t9 heq10
          exact (Touch.refl ..).to (readVals_touch ..) rfl
        · rename_i x11 heq12
          refine Touch.red3 ?_
          refine Touch.red2 ?_
          refine Touch.red1 ?_
          exact Touch.refl ..
      · refine Touch.red3 ?_
        refine Touch.red2 ?_
        refine Touch.red1 ?_
        exact Touch.refl ..
    clear_value aux4
    clear_value at6
    clear_value pre5
    clear_value r3
    split
    · rename_i x13 v14 fst15 s16
      extract_lets old17 outs18 outs19
      have h20 : Touch 209919280151 s old17.2.2 := by
        unfold old17
        refine Touch.ite22 ?_ ?_
        · exact (h7).to (devRead_touch ..) rfl
        · refine Touch.red2 ?_
          refine Touch.red1 ?_
          exact h7
      clear_value old17
      clear_value outs19
      clear_value outs18
      split
      · rename_i x21 bs22 s23
        extract_lets r24 rr25
        clear_value rr25
        clear_value r24
        split
        · rename_i x26 l27 ws28 s29 heq30
          have h31 : Touch 209919280151 s s29 := Touch.of222 heq30 ((h20).to (tailih2 _ _ _ _ _ _ _ _ _ _ _ _) rfl)
          refine Touch.red3 ?_
          refine Touch.red2 ?_
          refine Touch.red1 ?_
          exact h31
        · rename_i x32 x33
          exact (h20).to (tailih2 _ _ _ _ _ _ _ _ _ _ _ _) rfl
      · rename_i x34 e35 fst36 s37 x38
        refine Touch.red3 ?_
        refine Touch.red2 ?_
        refine Touch.red1 ?_
        exact h20
    · rename_i x39 e40 fst41 fst42 s43 x44
      refine Touch.red3 ?_
      refine Touch.red2 ?_
      refine Touch.red1 ?_
      exact h7

theorem finishVals_touch (s rq j p c w vals nv step) : Touch 209919280151 s (State.finishVals s rq j p c w vals nv step).2.2.2 := by
  unfold State.finishVals
  extract_lets f0 key1 bias2
  have h3 : Touch 209919280151 s bias2.2.2.2 := by
    unfold bias2
    refine Touch.ite222 ?_ ?_
    · split
      · rename_i x4 t5 heq6
        exact (Touch.refl ..).to (readVals_touch ..) rfl
      · rename_i x7 heq8
        refine Touch.red3 ?_
        refine Touch.red2 ?_
        refine Touch.red1 ?_
        exact Touch.refl ..
    · refine Touch.red3 ?_
      refine Touch.red2 ?_
      refine Touch.red1 ?_
      exact Touch.refl ..
  clear_value bias2
  clear_value key1
  clear_value f0
  refine Touch.ite222 ?_ ?_
  · refine Touch.red3 ?_
    refine Touch.red2 ?_
    refine Touch.red1 ?_
    exact Touch.refl ..
  · split
    · rename_i x9 v10 fst11 s12
      exact (h3).to (finishVals_go_touch ..) rfl
    · rename_i x13 e14 fst15 fst16 s17 x18
      refine Touch.red3 ?_
      refine Touch.red2 ?_
      refine Touch.red1 ?_
      exact h3

theorem drainOut_touch (s rq j p c x step) : Touch 209919280151 s (State.drainOut s rq j p c x step).2 := by
  unfold State.drainOut
  extract_lets w0 f1 plain2 hdr3 src4 mode5 et6 pre7
  have h8 : Touch 209919280151 s src4.2.2.2 := by
    unfold src4
    refine Touch.ite222 ?_ ?_
    · exact (Touch.refl ..).to (replayVals_touch ..) rfl
    · refine Touch.red3 ?_
      refine Touch.red2 ?_
      refine Touch.red1 ?_
      exact Touch.refl ..
  clear_value src4
  clear_value pre7
  clear_value et6
  clear_value mode5
  clear_value hdr3
  clear_value plain2
  clear_value f1
  clear_value w0
  refine Touch.ite2 ?_ ?_
  · split
    rename_i x9 a10 fst11 snd12 heq13
    split
    rename_i x14 e15 fst16 rows17 s18 heq19
    have h20 : Touch 209919280151 s s18 := Touch.of222 heq19 ((Touch.refl ..).to (finishVals_touch ..) rfl)
    refine Touch.red1 ?_
    exact h20
  · split
    · rename_i x21 v22 fst23 s24
      split
      · rename_i x25 ys26 rows27 s28 heq29
        have h30 : Touch 209919280151 s s28 := Touch.of222 heq29 ((h8).to (finishVals_touch ..) rfl)
        extract_lets step31 ovf32 spans33 top34 drawn35 q36 codes37 ws38
        clear_value ws38
        clear_value codes37
        clear_value q36
        clear_value drawn35
        clear_value top34
        clear_value spans33
        clear_value ovf32
        clear_value step31
        refine Touch.ite2 ?_ ?_
        · refine Touch.red1 ?_
          exact h30
        · refine Touch.red1 ?_
          exact h30
      · rename_i x39 e40 fst41 fst42 s43 x44 heq45
        have h46 : Touch 209919280151 s s43 := Touch.of222 heq45 ((h8).to (finishVals_touch ..) rfl)
        refine Touch.red1 ?_
        exact h46
    · rename_i x47 e48 fst49 fst50 s51 x52
      refine Touch.red1 ?_
      exact h8

theorem addTileRow_touch (s rq p x step m) : Touch 231922991095 s (State.addTileRow s rq p x step m).2 := by
  unfold State.addTileRow
  extract_lets w0 h1 info2 xs3
  clear_value xs3
  clear_value info2
  clear_value h1
  clear_value w0
  split
  rename_i x4 a5 fst6 snd7 heq8
  split
  rename_i x9 st10 fst11 s12 heq13
  have h14 : Touch 231922991095 s s12 := Touch.of22 heq13 ((Touch.refl ..).to (addRow_touch ..) rfl)
  refine Touch.red1 ?_
  exact h14

theorem addF32s_touch (s rq w) : Touch 231922991095 s (State.addF32s s rq w).2 := by
  unfold State.addF32s
  refine Touch.foldl2 ?_ (fun b0 t1 a2 h3 => ?_)
  · refine Touch.red1 ?_
    exact Touch.refl ..
  · refine Touch.ite2 ?_ ?_
    · refine Touch.red1 ?_
      exact h3
    · extract_lets a4
      clear_value a4
      split
      · rename_i x5 bs6 s7 heq8
        have h9 : Touch 231922991095 s s7 := by
          refine Touch.of22 heq8 ?_
          refine Touch.to ?_ (accessRead_touch ..) rfl
          refine Touch.red1 ?_
          exact h3
        refine Touch.red1 ?_
        exact (h9).to (storeBytes_touch ..) rfl
      · rename_i x10 e11 fst12 s13 x14 heq15
        have h16 : Touch 231922991095 s s13 := by
          refine Touch.of22 heq15 ?_
          refine Touch.to ?_ (accessRead_touch ..) rfl
          refine Touch.red1 ?_
          exact h3
        refine Touch.red1 ?_
        exact h16

theorem addRows_touch (s rq p x d step) : Touch 231922991095 s (State.addRows s rq p x d step).2 := by
  unfold State.addRows
  extract_lets wide0
  clear_value wide0
  split
  rename_i x1 e2 n3 s4 heq5
  have h6 : Touch 231922991095 s s4 := by
    refine Touch.of22 heq5 ?_
    refine Touch.foldl22 ?_ (fun b7 b8 t9 a10 h11 => ?_)
    · refine Touch.red2 ?_
      refine Touch.red1 ?_
      exact Touch.refl ..
    · refine Touch.ite22 ?_ ?_
      · refine Touch.red2 ?_
        refine Touch.red1 ?_
        exact h11
      · split
        rename_i x12 e13 s14 heq15
        have h16 : Touch 231922991095 s s14 := by
          refine Touch.of2 heq15 ?_
          refine Touch.ite2 ?_ ?_
          · refine Touch.to ?_ (addTileRow_touch ..) rfl
            refine Touch.red2 ?_
            refine Touch.red1 ?_
            exact h11
          · refine Touch.to ?_ (addF32s_touch ..) rfl
            refine Touch.red2 ?_
            refine Touch.red1 ?_
            exact h11
        refine Touch.red2 ?_
        refine Touch.red1 ?_
        exact h16
  refine Touch.red1 ?_
  exact (h6).to (addEf_touch _ _ _ _ (by decide)) rfl

theorem storeTile_touch (s rq j p scope x d step) : Touch 231922991095 s (State.storeTile s rq j p scope x d step).2 := by
  unfold State.storeTile
  refine Touch.ite2 ?_ ?_
  · split
    · rename_i x0 s1 heq2
      have h3 : Touch 231922991095 s s1 := Touch.of2 heq2 ((Touch.refl ..).to (devWrites_touch ..) rfl)
      split
      rename_i x4 e5 s6 heq7
      have h8 : Touch 231922991095 s s6 := Touch.of2 heq7 ((h3).to (addRows_touch ..) rfl)
      refine Touch.red1 ?_
      refine Touch.ite ?_ ?_
      · exact h8
      · exact (h8).to (markNonrepro_touch ..) rfl
    · rename_i x9 x10
      exact (Touch.refl ..).to (devWrites_touch ..) rfl
  · exact (Touch.refl ..).to (writeQuant_touch ..) rfl

theorem noteDraws_touch (s slot p w q) : Touch 41976320 s (State.noteDraws s slot p w q) := by
  unfold State.noteDraws
  extract_lets s0 drawn1 free2 cols3 s4 s5
  have h6 : Touch 41976320 s s0 := (Touch.refl ..).to (loadRot_touch ..) rfl
  clear_value s0
  have h7 : Touch 41976320 s s4 := (h6).to (addF_touch_in (k := 25) _ _ _ rfl) rfl
  clear_value s4
  have h8 : Touch 41976320 s s5 := by
    unfold s5
    refine Touch.ite ?_ ?_
    · refine Touch.to ?_ (addF_touch_in (k := 25) _ _ _ rfl) rfl
      refine Touch.foldl ?_ (fun t9 a10 h11 => ?_)
      · exact h7
      · exact (h11).to (bumpLane_touch ..) rfl
    · exact h7
  clear_value s5
  clear_value cols3
  clear_value free2
  clear_value drawn1
  refine Touch.ite ?_ ?_
  · exact (h8).to (setJf_touch _ _ _ _ (by decide)) rfl
  · exact h8

/-! ### Engine -/

theorem opStop_touch (s i e d a) : Touch 214747054071 s (State.opStop s i e d a) := by
  unfold State.opStop
  refine Touch.ite ?_ ?_
  · exact (Touch.refl ..).to (opReject_touch ..) rfl
  · exact (Touch.refl ..).to (opAbortAt_touch ..) rfl

theorem startProduct_touch (s op j c p able) : Touch 214747054071 s (State.startProduct s op j c p able) := by
  unfold State.startProduct
  extract_lets rq0
  clear_value rq0
  split
  · rename_i x1 fb2 s3 heq4
    have h5 : Touch 214747054071 s s3 := Touch.of22 heq4 ((Touch.refl ..).to (fbOf_touch ..) rfl)
    split
    · rename_i x6 fb7 s8 heq9
      have h10 : Touch 214747054071 s s8 := Touch.of22 heq9 ((h5).to (fbOf_touch ..) rfl)
      split
      rename_i x11 et12 bound13 etB14 heq15
      extract_lets slices16 ts17
      clear_value ts17
      clear_value slices16
      exact (Touch.set_tiles (h10) rfl).to (opDone_touch ..) rfl
    · rename_i x18 e19 fst20 s21 x22 heq23
      have h24 : Touch 214747054071 s s21 := Touch.of22 heq23 ((h5).to (fbOf_touch ..) rfl)
      exact (h24).to (opStop_touch ..) rfl
  · rename_i x25 e26 fst27 s28 x29 heq30
    have h31 : Touch 214747054071 s s28 := Touch.of22 heq30 ((Touch.refl ..).to (fbOf_touch ..) rfl)
    exact (h31).to (opStop_touch ..) rfl

theorem execProduct_touch (op engines s) {t : State} (e : execProduct op engines s = .next t) :
    Touch 214747054071 s t := by
  refine run_touch e rfl fun u => ?_
  unfold State.withOp
  split
  · rename_i x0 o1 heq2
    refine Touch.ite ?_ ?_
    · beta_reduce
      unfold State.withJob
      split
      · rename_i x3 slot4 j5 heq6
        beta_reduce
        extract_lets j7 able8
        clear_value able8
        clear_value j7
        refine Touch.ite ?_ ?_
        · exact Touch.refl ..
        · split
          · rename_i x9 snd10 heq11
            split
            · rename_i x12 fst13 p14 s15 heq16
              have h17 : Touch 214747054071 u s15 := Touch.of222 heq16 ((Touch.refl ..).to (prodRead_touch ..) rfl)
              exact (h17).to (startProduct_touch ..) rfl
            · rename_i x18 e19 d20 fst21 s22 x23 heq24
              have h25 : Touch 214747054071 u s22 := Touch.of222 heq24 ((Touch.refl ..).to (prodRead_touch ..) rfl)
              exact (h25).to (opStop_touch ..) rfl
          · rename_i x26 e27 d28 x29 heq30
            exact (Touch.refl ..).to (opReject_touch ..) rfl
      · rename_i x31 heq32
        exact (Touch.refl ..).to (opReject_touch ..) rfl
    · exact Touch.refl ..
  · rename_i x33 heq34
    exact Touch.refl ..

theorem putSet_touch (s e k x) : Touch 4294967552 s (State.putSet s e k x) := by
  unfold State.putSet
  extract_lets s0 s1 s2
  have h3 : Touch 4294967552 s s0 := Touch.set_sets (Touch.refl ..) rfl
  clear_value s0
  have h4 : Touch 4294967552 s s1 := (h3).to (setEf_touch _ _ _ _ (by split <;> decide)) rfl
  clear_value s1
  have h5 : Touch 4294967552 s s2 := (h4).to (setEf_touch _ _ _ _ (by split <;> decide)) rfl
  clear_value s2
  exact ((h5).to (setEf_touch _ _ _ _ (by split <;> decide)) rfl).to (arrayState_touch ..) rfl

theorem freeSet_touch (s e k) : Touch 4294967552 s (State.freeSet s e k) := by
  unfold State.freeSet
  extract_lets s0
  have h1 : Touch 4294967552 s s0 := Touch.set_sets (Touch.refl ..) rfl
  clear_value s0
  exact ((h1).to (setEf_touch _ _ _ _ (by split <;> decide)) rfl).to (arrayState_touch ..) rfl

theorem setRows_touch (s e k n) : Touch 4294967296 s (State.setRows s e k n) := by
  unfold State.setRows
  exact (Touch.refl ..).to (setEf_touch _ _ _ _ (by split <;> decide)) rfl

theorem workOf_touch (s e w) : Touch 209919280663 s (State.workOf s e w).2 := by
  unfold State.workOf
  split
  · rename_i x0 o1 heq2
    split
    · rename_i x3 slot4 j5 heq6
      split
      · rename_i x7 p8 s9 heq10
        have h11 : Touch 209919280663 s s9 := Touch.of2 heq10 ((Touch.refl ..).to (prodOf_touch ..) rfl)
        refine Touch.red1 ?_
        exact h11
      · rename_i x12 s13 heq14
        have h15 : Touch 209919280663 s s13 := Touch.of2 heq14 ((Touch.refl ..).to (prodOf_touch ..) rfl)
        refine Touch.red1 ?_
        exact h15
    · rename_i x16 heq17
      refine Touch.red1 ?_
      exact Touch.refl ..
  · rename_i x18 heq19
    refine Touch.red1 ?_
    exact Touch.refl ..

theorem replayPass_touch (s e p x kt i jx) : Touch 4294967296 s (State.replayPass s e p x kt i jx).2 := by
  unfold State.replayPass
  extract_lets s0
  have h1 : Touch 4294967296 s s0 := (((Touch.refl ..).to (addEf_touch _ _ _ _ (by decide)) rfl).to (addEf_touch _ _ _ _ (by decide)) rfl).to (addEf_touch _ _ _ _ (by decide)) rfl
  clear_value s0
  refine Touch.red1 ?_
  exact (h1).to (showPass_touch ..) rfl

theorem runPass_touch (s e k o j p x) : Touch 214742859767 s (State.runPass s e k o j p x) := by
  unfold State.runPass
  split
  · rename_i x0 heq1
    exact (Touch.refl ..).to (putSet_touch ..) rfl
  · rename_i x2 kt3 i4 jx5 tail6 heq7
    refine Touch.ite ?_ ?_
    · split
      rename_i x8 x9 s10 heq11
      have h12 : Touch 214742859767 s s10 := Touch.of2 heq11 ((Touch.refl ..).to (replayPass_touch ..) rfl)
      exact (h12).to (putSet_touch ..) rfl
    · split
      · rename_i x13 x14 s15 heq16
        have h17 : Touch 214742859767 s s15 := Touch.of22 heq16 ((Touch.refl ..).to (pass_touch ..) rfl)
        exact (h17).to (putSet_touch ..) rfl
      · rename_i x18 st19 fst20 s21 x22 heq23
        have h24 : Touch 214742859767 s s21 := Touch.of22 heq23 ((Touch.refl ..).to (pass_touch ..) rfl)
        exact (h24).to (opAbortAt_touch ..) rfl

theorem beginRun_touch (s e k o j p x) : Touch 214742859767 s (State.beginRun s e k o j p x) := by
  unfold State.beginRun
  extract_lets s0
  have h1 : Touch 214742859767 s s0 := (Touch.refl ..).to (setRows_touch ..) rfl
  clear_value s0
  refine Touch.ite ?_ ?_
  · split
    · rename_i x2 x3 s4 heq5
      have h6 : Touch 214742859767 s s4 := Touch.of22 heq5 ((h1).to (preload_touch ..) rfl)
      exact (h6).to (putSet_touch ..) rfl
    · rename_i x7 st8 fst9 s10 x11 heq12
      have h13 : Touch 214742859767 s s10 := Touch.of22 heq12 ((h1).to (preload_touch ..) rfl)
      exact (h13).to (opAbortAt_touch ..) rfl
  · exact (h1).to (runPass_touch ..) rfl

theorem failRows_touch (s e k wrong) : Touch 256 s (State.failRows s e k wrong) := by
  unfold State.failRows
  split
  · rename_i x0 x1 heq2
    extract_lets elems3
    clear_value elems3
    exact Touch.set_sets (Touch.refl ..) rfl
  · rename_i x4 heq5
    exact Touch.refl ..

theorem setError_touch (s e x) : Touch 214742859767 s (State.setError s e x) := by
  unfold State.setError
  exact ((Touch.refl ..).to (event_touch ..) rfl).to (opAbort_touch ..) rfl

theorem bindTile_touch (s e k w) : Touch 214742859767 s (State.bindTile s e k w) := by
  unfold State.bindTile
  extract_lets s0
  have h1 : Touch 214742859767 s s0 := Touch.set_tiles (Touch.refl ..) rfl
  clear_value s0
  split
  · rename_i x2 o3 slot4 j5 p6 s7 heq8
    have h9 : Touch 214742859767 s s7 := Touch.of2 heq8 ((h1).to (workOf_touch ..) rfl)
    extract_lets s10
    have h11 : Touch 214742859767 s s10 := by
      unfold s10
      refine Touch.ite ?_ ?_
      · exact (h9).to (modJob_touch ..) rfl
      · exact h9
    clear_value s10
    exact (h11).to (beginRun_touch ..) rfl
  · rename_i x12 s13 heq14
    have h15 : Touch 214742859767 s s13 := Touch.of2 heq14 ((h1).to (workOf_touch ..) rfl)
    exact h15

theorem execPassStart_touch (engine set meet s) {t : State} (e : execPassStart engine set meet s = .next t) :
    Touch 214742859767 s t := by
  refine run_touch e rfl fun u => ?_
  extract_lets st0 s1
  have h2 : Touch 214742859767 u s1 := ((Touch.refl ..).to (addEf_touch _ _ _ _ (by decide)) rfl).to (addEf_touch _ _ _ _ (by decide)) rfl
  clear_value s1
  clear_value st0
  refine Touch.ite ?_ ?_
  · exact Touch.refl ..
  · split
    · rename_i x3 x4 heq5
      exact (Touch.refl ..).to (setError_touch ..) rfl
    · rename_i x6 heq7
      refine Touch.to ?_ (failRows_touch ..) rfl
      split
      · rename_i x8 x9 heq10
        refine Touch.ite ?_ ?_
        · exact h2
        · split
          · rename_i x11 o12 slot13 j14 p15 s16 heq17
            have h18 : Touch 214742859767 u s16 := Touch.of2 heq17 ((h2).to (workOf_touch ..) rfl)
            exact (h18).to (runPass_touch ..) rfl
          · rename_i x19 s20 heq21
            have h22 : Touch 214742859767 u s20 := Touch.of2 heq21 ((h2).to (workOf_touch ..) rfl)
            exact (h22).to (freeSet_touch ..) rfl
      · rename_i x23 heq24
        split
        · rename_i x25 heq26
          exact h2
        · rename_i x27 w28 heq29
          exact (h2).to (bindTile_touch ..) rfl

theorem countDamage_touch (s slot view p) : Touch 206697434263 s (State.countDamage s slot view p).2 := by
  unfold State.countDamage
  refine Touch.foldl2 ?_ (fun b0 t1 a2 h3 => ?_)
  · refine Touch.red1 ?_
    exact Touch.refl ..
  · split
    · rename_i x4 j5 heq6
      refine Touch.ite2 ?_ ?_
      · refine Touch.red1 ?_
        exact h3
      · extract_lets s7
        have h8 : Touch 206697434263 s s7 := by
          unfold s7
          refine Touch.to ?_ (addWatch_touch ..) rfl
          refine Touch.red1 ?_
          exact h3
        clear_value s7
        refine Touch.ite2 ?_ ?_
        · refine Touch.red1 ?_
          exact (h8).to (trigger_touch ..) rfl
        · refine Touch.red1 ?_
          exact h8
    · rename_i x9 heq10
      refine Touch.red1 ?_
      exact h3

theorem noteWiden_touch (s slot view t q) : Touch 206714211479 s (State.noteWiden s slot view t q) := by
  unfold State.noteWiden
  extract_lets s0
  have h1 : Touch 206714211479 s s0 := (Touch.refl ..).to (countCopy_touch ..) rfl
  clear_value s0
  refine Touch.ite ?_ ?_
  · exact (((h1).to (addWatch_touch ..) rfl).to (inc_touch_in (k := 24) _ _ rfl) rfl).to (modJob_touch ..) rfl
  · exact h1

theorem secondWrite_touch (s rq slot j p c x) : Touch 209978035863 s (State.secondWrite s rq slot j p c x).2 := by
  unfold State.secondWrite
  split
  · rename_i x0 plain1 rows2 q3 ovf4 nv5 spans6 pre7 s8 heq9
    have h10 : Touch 209978035863 s s8 := Touch.of2 heq9 ((Touch.refl ..).to (drainOut_touch ..) rfl)
    extract_lets s11
    have h12 : Touch 209978035863 s s11 := (h10).to (noteDraws_touch ..) rfl
    clear_value s11
    split
    · rename_i x13 s14 heq15
      have h16 : Touch 209978035863 s s14 := Touch.of2 heq15 ((h12).to (writeQuant_touch ..) rfl)
      refine Touch.red1 ?_
      exact ((h16).to (modJob_touch ..) rfl).to (noteWiden_touch ..) rfl
    · rename_i x17 x18
      exact (h12).to (writeQuant_touch ..) rfl
  · rename_i x19 d20 s21 x22 heq23
    have h24 : Touch 209978035863 s s21 := Touch.of2 heq23 ((Touch.refl ..).to (drainOut_touch ..) rfl)
    refine Touch.red1 ?_
    exact h24

theorem afterWrite_touch (s slot scope view t q watch) : Touch 206714211479 s (State.afterWrite s slot scope view t q watch).2 := by
  unfold State.afterWrite
  extract_lets s0
  have h1 : Touch 206714211479 s s0 := (Touch.refl ..).to (noteWrite_touch ..) rfl
  clear_value s0
  split
  · rename_i x2 j3 heq4
    refine Touch.ite2 ?_ ?_
    · extract_lets widen5
      clear_value widen5
      refine Touch.red1 ?_
      exact (h1).to (trigger_touch ..) rfl
    · refine Touch.red1 ?_
      exact h1
  · rename_i x6 heq7
    refine Touch.red1 ?_
    exact h1

theorem drained_touch (s e o x d) : Touch 210992365654 s (State.drained s e o x d) := by
  unfold State.drained
  extract_lets s0 sat1 s2
  have h3 : Touch 210992365654 s s0 := (((Touch.refl ..).to (addEf_touch _ _ _ _ (by decide)) rfl).to (addEf_touch _ _ _ _ (by decide)) rfl).to (addEf_touch _ _ _ _ (by decide)) rfl
  clear_value s0
  have h4 : Touch 210992365654 s s2 := (h3).to (event_touch ..) rfl
  clear_value s2
  clear_value sat1
  refine Touch.ite ?_ ?_
  · exact (h3).to (event_touch ..) rfl
  · refine Touch.ite ?_ ?_
    · split
      · rename_i x5 o6 heq7
        exact Touch.set_ops (h4) rfl
      · rename_i x8 heq9
        exact h4
    · exact h3

theorem ackRows_touch (s op rows) : Touch 64 s (State.ackRows s op rows) := by
  unfold State.ackRows
  split
  · rename_i x0 o1 heq2
    exact Touch.set_ops (Touch.refl ..) rfl
  · rename_i x3 heq4
    exact Touch.refl ..

theorem captureTile_touch (s j o p x d) : Touch 209919314967 s (State.captureTile s j o p x d).2.2 := by
  unfold State.captureTile
  extract_lets w0 hdr1
  clear_value hdr1
  clear_value w0
  split
  · rename_i x2 heq3
    refine Touch.red2 ?_
    refine Touch.red1 ?_
    exact Touch.refl ..
  · rename_i x4 q5 heq6
    extract_lets a7
    clear_value a7
    split
    rename_i x8 ws9 recs10 heq11
    extract_lets out12
    clear_value out12
    split
    rename_i x13 e14 s15 heq16
    have h17 : Touch 209919314967 s s15 := Touch.of2 heq16 ((Touch.refl ..).to (devWrites_touch ..) rfl)
    refine Touch.red2 ?_
    refine Touch.red1 ?_
    exact h17

theorem stored_touch (s slot o view p run q) : Touch 206714211479 s (State.stored s slot o view p run q).2 := by
  unfold State.stored
  extract_lets s0
  have h1 : Touch 206714211479 s s0 := by
    unfold s0
    refine Touch.ite ?_ ?_
    · exact (Touch.refl ..).to (countDamage_touch ..) rfl
    · exact Touch.refl ..
  clear_value s0
  split
  · rename_i x2 u3
    exact (h1).to (afterWrite_touch ..) rfl
  · rename_i x4
    refine Touch.red1 ?_
    exact h1

theorem keepOutput_touch (s slot j p c w d) : Touch 209952869527 s (State.keepOutput s slot j p c w d) := by
  unfold State.keepOutput
  refine Touch.ite ?_ ?_
  · exact Touch.refl ..
  · exact (Touch.refl ..).to (keepRungUp_touch ..) rfl

theorem drainStore_touch (s e k o slot j p x d) : Touch 231922991095 s (State.drainStore s e k o slot j p x d) := by
  unfold State.drainStore
  extract_lets w0
  clear_value w0
  refine Touch.ite ?_ ?_
  · exact (Touch.refl ..).to (putSet_touch ..) rfl
  · split
    · rename_i x1 s2 heq3
      have h4 : Touch 231922991095 s s2 := Touch.of2 heq3 (((Touch.refl ..).to (keepOutput_touch ..) rfl).to (storeTile_touch ..) rfl)
      split
      rename_i x5 widen6 s7 heq8
      have h9 : Touch 231922991095 s s7 := Touch.of2 heq8 ((((h4).to (setRows_touch ..) rfl).to (ackRows_touch ..) rfl).to (stored_touch ..) rfl)
      refine Touch.ite ?_ ?_
      · exact (h9).to (putSet_touch ..) rfl
      · exact ((h9).to (freeSet_touch ..) rfl).to (opAck_touch ..) rfl
    · rename_i x10 st11 s12 x13 heq14
      have h15 : Touch 231922991095 s s12 := Touch.of2 heq14 (((Touch.refl ..).to (keepOutput_touch ..) rfl).to (storeTile_touch ..) rfl)
      exact (h15).to (opAbortAt_touch ..) rfl

theorem drainSet_touch (s e k o slot j p x) : Touch 231922991095 s (State.drainSet s e k o slot j p x) := by
  unfold State.drainSet
  extract_lets w0 up1 damage2
  clear_value damage2
  clear_value up1
  clear_value w0
  split
  rename_i x3 d4 s5 heq6
  have h7 : Touch 231922991095 s s5 := Touch.of2 heq6 ((Touch.refl ..).to (drainOut_touch ..) rfl)
  refine Touch.ite ?_ ?_
  · exact (h7).to (opAbortAt_touch ..) rfl
  · extract_lets s8
    have h9 : Touch 231922991095 s s8 := ((h7).to (drained_touch ..) rfl).to (noteDraws_touch ..) rfl
    clear_value s8
    refine Touch.ite ?_ ?_
    · exact (h9).to (drainStore_touch ..) rfl
    · split
      · rename_i x10 fst11 s12 heq13
        have h14 : Touch 231922991095 s s12 := Touch.of22 heq13 ((h9).to (captureTile_touch ..) rfl)
        extract_lets s15
        have h16 : Touch 231922991095 s s15 := ((h14).to (setRows_touch ..) rfl).to (freeSet_touch ..) rfl
        clear_value s15
        refine Touch.ite ?_ ?_
        · exact Touch.set_heldTiles (h16) rfl
        · exact Touch.set_heldTiles (h16) rfl
      · rename_i x17 st18 a19 s20 x21 heq22
        have h23 : Touch 231922991095 s s20 := Touch.of22 heq22 ((h9).to (captureTile_touch ..) rfl)
        exact (h23).to (opAbortAt_touch ..) rfl

theorem execTileDrain_touch (engine set s) {t : State} (e : execTileDrain engine set s = .next t) :
    Touch 231922991095 s t := by
  refine run_touch e rfl fun u => ?_
  split
  · rename_i x0 x1 heq2
    exact (Touch.refl ..).to (setError_touch ..) rfl
  · rename_i x3 heq4
    split
    · rename_i x5 heq6
      exact Touch.refl ..
    · rename_i x7 x8 heq9
      refine Touch.ite ?_ ?_
      · exact Touch.refl ..
      · split
        · rename_i x10 s11 heq12
          have h13 : Touch 231922991095 u s11 := Touch.of2 heq12 ((Touch.refl ..).to (workOf_touch ..) rfl)
          exact (h13).to (freeSet_touch ..) rfl
        · rename_i x14 o15 slot16 j17 p18 s19 heq20
          have h21 : Touch 231922991095 u s19 := Touch.of2 heq20 ((Touch.refl ..).to (workOf_touch ..) rfl)
          exact (h21).to (drainSet_touch ..) rfl

theorem execSecondDrain_touch (engine set s) {t : State} (e : execSecondDrain engine set s = .next t) :
    Touch 214742859767 s t := by
  refine run_touch e rfl fun u => ?_
  split
  · rename_i x0 x1 heq2
    exact (Touch.refl ..).to (setError_touch ..) rfl
  · rename_i x3 heq4
    split
    · rename_i x5 heq6
      exact Touch.refl ..
    · rename_i x7 x8 heq9
      refine Touch.ite ?_ ?_
      · exact Touch.refl ..
      · split
        · rename_i x10 s11 heq12
          have h13 : Touch 214742859767 u s11 := Touch.of2 heq12 ((Touch.refl ..).to (workOf_touch ..) rfl)
          exact (h13).to (freeSet_touch ..) rfl
        · rename_i x14 o15 slot16 j17 p18 s19 heq20
          have h21 : Touch 214742859767 u s19 := Touch.of2 heq20 ((Touch.refl ..).to (workOf_touch ..) rfl)
          split
          · rename_i x22 s23 heq24
            have h25 : Touch 214742859767 u s23 := Touch.of2 heq24 ((h21).to (secondWrite_touch ..) rfl)
            exact ((h25).to (freeSet_touch ..) rfl).to (opAck_touch ..) rfl
          · rename_i x26 st27 s28 x29 heq30
            have h31 : Touch 214742859767 u s28 := Touch.of2 heq30 ((h21).to (secondWrite_touch ..) rfl)
            exact (h31).to (opAbortAt_touch ..) rfl

theorem updateEtB_touch (s rq j c p w) : Touch 209919280151 s (State.updateEtB s rq j c p w).2.2 := by
  unfold State.updateEtB
  split
  rename_i x0 a1 fst2 snd3 heq4
  split
  · rename_i x5 fb6 s7 heq8
    have h9 : Touch 209919280151 s s7 := Touch.of22 heq8 ((Touch.refl ..).to (fbOf_touch ..) rfl)
    split
    · rename_i x10 fb11 s12 heq13
      have h14 : Touch 209919280151 s s12 := Touch.of22 heq13 ((h9).to (fbOf_touch ..) rfl)
      split
      · rename_i x15 bs16 s17 heq18
        have h19 : Touch 209919280151 s s17 := Touch.of22 heq18 ((h14).to (devRead_touch ..) rfl)
        extract_lets h20 top21 base22 up23
        clear_value up23
        clear_value base22
        clear_value top21
        clear_value h20
        refine Touch.red2 ?_
        refine Touch.red1 ?_
        exact h19
      · rename_i x24 e25 fst26 s27 x28 heq29
        have h30 : Touch 209919280151 s s27 := Touch.of22 heq29 ((h14).to (devRead_touch ..) rfl)
        refine Touch.red2 ?_
        refine Touch.red1 ?_
        exact h30
    · rename_i x31 e32 fst33 s34 x35 heq36
      have h37 : Touch 209919280151 s s34 := Touch.of22 heq36 ((h9).to (fbOf_touch ..) rfl)
      refine Touch.red2 ?_
      refine Touch.red1 ?_
      exact h37
  · rename_i x38 e39 fst40 s41 x42 heq43
    have h44 : Touch 209919280151 s s41 := Touch.of22 heq43 ((Touch.refl ..).to (fbOf_touch ..) rfl)
    refine Touch.red2 ?_
    refine Touch.red1 ?_
    exact h44

theorem execA64Overflow_touch (engine set s) {t : State} (e : execA64Overflow engine set s = .next t) :
    Touch 214742859767 s t := by
  refine run_touch e rfl fun u => ?_
  split
  · rename_i x0 heq1
    exact Touch.refl ..
  · rename_i x2 x3 heq4
    refine Touch.ite ?_ ?_
    · exact Touch.refl ..
    · split
      · rename_i x5 s6 heq7
        have h8 : Touch 214742859767 u s6 := Touch.of2 heq7 ((Touch.refl ..).to (workOf_touch ..) rfl)
        exact (h8).to (freeSet_touch ..) rfl
      · rename_i x9 o10 slot11 j12 p13 s14 heq15
        have h16 : Touch 214742859767 u s14 := Touch.of2 heq15 ((Touch.refl ..).to (workOf_touch ..) rfl)
        extract_lets w17 next18 step19 run20 y21
        clear_value y21
        clear_value run20
        clear_value next18
        clear_value w17
        split
        · rename_i x22 etB23 s24 heq25
          have h26 : Touch 214742859767 u s24 := by
            refine Touch.of22 heq25 ?_
            refine Touch.ite22 ?_ ?_
            · exact (h16).to (updateEtB_touch ..) rfl
            · refine Touch.red2 ?_
              refine Touch.red1 ?_
              exact h16
          extract_lets s27 s28
          have h29 : Touch 214742859767 u s27 := ((h26).to (addEf_touch _ _ _ _ (by decide)) rfl).to (addEf_touch _ _ _ _ (by decide)) rfl
          clear_value s27
          have h30 : Touch 214742859767 u s28 := Touch.set_ops (h29) rfl
          clear_value s28
          exact (h30).to (beginRun_touch ..) rfl
        · rename_i x31 e32 fst33 s34 x35 heq36
          have h37 : Touch 214742859767 u s34 := by
            refine Touch.of22 heq36 ?_
            refine Touch.ite22 ?_ ?_
            · exact (h16).to (updateEtB_touch ..) rfl
            · refine Touch.red2 ?_
              refine Touch.red1 ?_
              exact h16
          exact (h37).to (opAbortAt_touch ..) rfl

theorem execEngineWatchdog_touch (engine s) {t : State} (e : execEngineWatchdog engine s = .next t) :
    Touch 231922991095 s t := by
  refine run_touch e rfl fun u => ?_
  refine Touch.ite ?_ ?_
  · exact Touch.refl ..
  · extract_lets s0
    have h1 : Touch 231922991095 u s0 := ((Touch.refl ..).to (setEf_touch _ _ _ _ (by decide)) rfl).to (event_touch ..) rfl
    clear_value s0
    exact (h1).to (engineFail_touch ..) rfl

theorem capture_touch (s e) : Touch 210992365846 s (State.capture s e) := by
  unfold State.capture
  refine Touch.ite ?_ ?_
  · exact (Touch.refl ..).to (discardWrite_touch ..) rfl
  · extract_lets s0
    have h1 : Touch 210992365846 s s0 := (Touch.refl ..).to (setEf_touch _ _ _ _ (by decide)) rfl
    clear_value s0
    refine Touch.ite ?_ ?_
    · refine Touch.ite ?_ ?_
      · exact h1
      · exact Touch.set_captures (h1) rfl
    · exact (h1).to (captureHeld_touch ..) rfl

theorem execTestCapture_touch (engine s) {t : State} (e : execTestCapture engine s = .next t) :
    Touch 210992365846 s t := by
  refine run_touch e rfl fun u => ?_
  unfold State.hostWrite
  refine Touch.ite ?_ ?_
  · beta_reduce
    exact (Touch.refl ..).to (capture_touch ..) rfl
  · exact Touch.refl ..

theorem release_touch (s h sub) : Touch 231922991095 s (State.release s h sub) := by
  unfold State.release
  extract_lets r0 gone1 x2
  have h3 : Touch 231922991095 s gone1 := Touch.set_heldTiles (Touch.refl ..) rfl
  clear_value gone1
  clear_value x2
  clear_value r0
  split
  · rename_i x4 s5 heq6
    have h7 : Touch 231922991095 s s5 := Touch.of2 heq6 ((h3).to (workOf_touch ..) rfl)
    exact h7
  · rename_i x8 o9 slot10 j11 p12 s13 heq14
    have h15 : Touch 231922991095 s s13 := Touch.of2 heq14 ((h3).to (workOf_touch ..) rfl)
    extract_lets j16 rq17
    clear_value rq17
    clear_value j16
    split
    · rename_i x18 s19 heq20
      have h21 : Touch 231922991095 s s19 := Touch.of2 heq20 (((h15).to (keepOutput_touch ..) rfl).to (storeTile_touch ..) rfl)
      split
      rename_i x22 widen23 s24 heq25
      have h26 : Touch 231922991095 s s24 := Touch.of2 heq25 (((h21).to (ackRows_touch ..) rfl).to (stored_touch ..) rfl)
      split
      rename_i x27 e28 s29 heq30
      have h31 : Touch 231922991095 s s29 := by
        refine Touch.of2 heq30 ?_
        refine Touch.ite2 ?_ ?_
        · exact (h26).to (secondWrite_touch ..) rfl
        · refine Touch.red1 ?_
          exact h26
      refine Touch.ite ?_ ?_
      · exact (h31).to (opAck_touch ..) rfl
      · exact (h31).to (opAbortAt_touch ..) rfl
    · rename_i x32 st33 s34 x35 heq36
      have h37 : Touch 231922991095 s s34 := Touch.of2 heq36 (((h15).to (keepOutput_touch ..) rfl).to (storeTile_touch ..) rfl)
      exact (h37).to (opAbortAt_touch ..) rfl

theorem masterRungUp_touch (s slot j p) : Touch 209952869527 s (State.masterRungUp s slot j p) := by
  unfold State.masterRungUp
  refine Touch.ite ?_ ?_
  · split
    · rename_i x0 m1 heq2
      split
      · rename_i x3 vs4 fst5 s6 heq7
        have h8 : Touch 209952869527 s s6 := Touch.of222 heq7 ((Touch.refl ..).to (readVals_touch ..) rfl)
        extract_lets spans9
        clear_value spans9
        exact (h8).to (keepRungUp_touch ..) rfl
      · rename_i x10 fst11 fst12 fst13 s14 x15 heq16
        have h17 : Touch 209952869527 s s14 := Touch.of222 heq16 ((Touch.refl ..).to (readVals_touch ..) rfl)
        exact h17
    · rename_i x18 heq19
      exact Touch.refl ..
  · exact Touch.refl ..

theorem checkWork_touch (s rq j c p h role engine) : Touch 209919280151 s (State.checkWork s rq j c p h role engine).2 := by
  unfold State.checkWork
  extract_lets src0 w1 fa2 fb3
  have h4 : Touch 209919280151 s fa2.2.2 := (Touch.refl ..).to (fbOf_touch ..) rfl
  clear_value fa2
  have h5 : Touch 209919280151 s fb3.2.2 := (h4).to (fbOf_touch ..) rfl
  clear_value fb3
  clear_value w1
  clear_value src0
  refine Touch.ite2 ?_ ?_
  · refine Touch.red1 ?_
    exact Touch.refl ..
  · split
    rename_i x6 ua7 ub8 heq9
    extract_lets qas10 qbs11
    clear_value qbs11
    clear_value qas10
    split
    rename_i x12 et13 bound14 etB15 heq16
    refine Touch.red1 ?_
    exact h5

theorem issueCheck_touch (s h role engine) : Touch 231922991095 s (State.issueCheck s h role engine) := by
  unfold State.issueCheck
  split
  · rename_i x0 s1 heq2
    have h3 : Touch 231922991095 s s1 := Touch.of2 heq2 ((Touch.refl ..).to (workOf_touch ..) rfl)
    exact h3
  · rename_i x4 o5 slot6 j7 p8 s9 heq10
    have h11 : Touch 231922991095 s s9 := Touch.of2 heq10 ((Touch.refl ..).to (workOf_touch ..) rfl)
    refine Touch.ite ?_ ?_
    · exact (h11).to (release_touch ..) rfl
    · extract_lets s12
      have h13 : Touch 231922991095 s s12 := by
        unfold s12
        refine Touch.ite ?_ ?_
        · exact (h11).to (masterRungUp_touch ..) rfl
        · exact h11
      clear_value s12
      split
      rename_i x14 w15 s16 heq17
      have h18 : Touch 231922991095 s s16 := Touch.of2 heq17 ((h13).to (checkWork_touch ..) rfl)
      extract_lets s19
      have h20 : Touch 231922991095 s s19 := Touch.set_tiles (h18) rfl
      clear_value s19
      refine Touch.ite ?_ ?_
      · exact (h20).to (inc_touch_in (k := 24) _ _ rfl) rfl
      · exact h20

theorem execFaultCheckRun_touch (tile engine s) {t : State} (e : execFaultCheckRun tile engine s = .next t) :
    Touch 231922991095 s t := by
  refine run_touch e rfl fun u => ?_
  split
  · rename_i x0 heq1
    exact Touch.refl ..
  · rename_i x2 h3 heq4
    split
    · rename_i x5 heq6
      exact ((Touch.refl ..).to (inc_touch_in (k := 24) _ _ rfl) rfl).to (release_touch ..) rfl
    · rename_i x7 heq8
      exact ((Touch.refl ..).to (inc_touch_in (k := 24) _ _ rfl) rfl).to (release_touch ..) rfl
    · rename_i x9 role10 e11 heq12
      refine Touch.ite ?_ ?_
      · exact Touch.refl ..
      · exact (Touch.refl ..).to (issueCheck_touch ..) rfl
    · rename_i x13 x14 x15 x16
      exact Touch.refl ..

theorem putHeld_touch (s i h) : Touch 256 s (State.putHeld s i h) := by
  unfold State.putHeld
  exact Touch.set_heldTiles (Touch.refl ..) rfl

theorem execFaultCheckCompare_touch (tile s) {t : State} (e : execFaultCheckCompare tile s = .next t) :
    Touch 231922991095 s t := by
  refine run_touch e rfl fun u => ?_
  split
  · rename_i x0 heq1
    exact Touch.refl ..
  · rename_i x2 h3 heq4
    split
    · rename_i x5 heq6
      exact Touch.refl ..
    · rename_i x7 b8 heq9
      refine Touch.ite ?_ ?_
      · exact Touch.refl ..
      · split
        · rename_i x10 s11 heq12
          have h13 : Touch 231922991095 u s11 := Touch.of2 heq12 ((Touch.refl ..).to (workOf_touch ..) rfl)
          exact h13
        · rename_i x14 o15 slot16 j17 p18 s19 heq20
          have h21 : Touch 231922991095 u s19 := Touch.of2 heq20 ((Touch.refl ..).to (workOf_touch ..) rfl)
          extract_lets s22 h23
          have h24 : Touch 231922991095 u s22 := (h21).to (inc_touch_in (k := 24) _ _ rfl) rfl
          clear_value s22
          clear_value h23
          refine Touch.ite ?_ ?_
          · refine Touch.ite ?_ ?_
            · exact (h24).to (putHeld_touch ..) rfl
            · exact (h24).to (release_touch ..) rfl
          · exact ((h24).to (putHeld_touch ..) rfl).to (inc_touch_in (k := 24) _ _ rfl) rfl

theorem faultyEngine_touch (s e slot abandon) : Touch 231922991095 s (State.faultyEngine s e slot abandon) := by
  unfold State.faultyEngine
  extract_lets was0 s1 s2
  have h3 : Touch 231922991095 s s1 := by
    unfold s1
    refine Touch.ite ?_ ?_
    · exact Touch.refl ..
    · exact (Touch.refl ..).to (setUnit_touch ..) rfl
  clear_value s1
  have h4 : Touch 231922991095 s s2 := by
    unfold s2
    refine Touch.ite ?_ ?_
    · exact (h3).to (abandon_touch ..) rfl
    · exact h3
  clear_value s2
  clear_value was0
  refine Touch.ite ?_ ?_
  · exact (h4).to (replaceEngine_touch ..) rfl
  · refine Touch.ite ?_ ?_
    · exact h4
    · exact (h4).to (rerunTiles_touch ..) rfl

theorem discardHeld_touch (s h) : Touch 256 s (State.discardHeld s h) := by
  unfold State.discardHeld
  extract_lets s0 e1 near2 src3
  have h4 : Touch 256 s s0 := Touch.set_heldTiles (Touch.refl ..) rfl
  clear_value s0
  clear_value src3
  clear_value near2
  clear_value e1
  split
  · rename_i x5 heq6
    exact h4
  · rename_i x7 o8 heq9
    extract_lets able10
    clear_value able10
    exact Touch.set_tiles (h4) rfl

theorem execFaultVerdict_touch (tile s) {t : State} (e : execFaultVerdict tile s = .next t) :
    Touch 231922991095 s t := by
  refine run_touch e rfl fun u => ?_
  split
  · rename_i x0 heq1
    exact Touch.refl ..
  · rename_i x2 h3 heq4
    split
    · rename_i x5 heq6
      exact Touch.refl ..
    · rename_i x7 b8 heq9
      refine Touch.ite ?_ ?_
      · exact Touch.refl ..
      · split
        · rename_i x10 s11 heq12
          have h13 : Touch 231922991095 u s11 := Touch.of2 heq12 ((Touch.refl ..).to (workOf_touch ..) rfl)
          exact h13
        · rename_i x14 o15 slot16 j17 p18 s19 heq20
          have h21 : Touch 231922991095 u s19 := Touch.of2 heq20 ((Touch.refl ..).to (workOf_touch ..) rfl)
          extract_lets ea22 eb23 args24 lost25 again26 h27
          clear_value h27
          clear_value again26
          clear_value args24
          clear_value eb23
          clear_value ea22
          split
          · rename_i x28 c29 heq30
            extract_lets ec31 s32 s33 s34
            have h35 : Touch 231922991095 u s32 := (h21).to (event_touch ..) rfl
            clear_value s32
            have h36 : Touch 231922991095 u s33 := (h35).to (putHeld_touch ..) rfl
            clear_value s33
            have h37 : Touch 231922991095 u s34 := (h36).to (faultyEngine_touch ..) rfl
            clear_value s34
            clear_value ec31
            refine Touch.ite ?_ ?_
            · refine Touch.ite ?_ ?_
              · exact h37
              · exact (h37).to (release_touch ..) rfl
            · refine Touch.ite ?_ ?_
              · exact (((h21).to (event_touch ..) rfl).to (faultyEngine_touch ..) rfl).to (discardHeld_touch ..) rfl
              · unfold lost25
                extract_lets s38 s39 s40
                have h41 : Touch 231922991095 u s38 := ((h21).to (inc_touch_in (k := 24) _ _ rfl) rfl).to (event_touch ..) rfl
                clear_value s38
                have h42 : Touch 231922991095 u s39 := ((h41).to (toTest_touch ..) rfl).to (toTest_touch ..) rfl
                clear_value s39
                have h43 : Touch 231922991095 u s40 := by
                  unfold s40
                  refine Touch.ite ?_ ?_
                  · exact (h42).to (toTest_touch ..) rfl
                  · exact h42
                clear_value s40
                exact ((h43).to (abandon_touch ..) rfl).to (discardHeld_touch ..) rfl
          · rename_i x44 heq45
            refine Touch.ite ?_ ?_
            · unfold lost25
              extract_lets s46 s47 s48
              have h49 : Touch 231922991095 u s46 := ((h21).to (inc_touch_in (k := 24) _ _ rfl) rfl).to (event_touch ..) rfl
              clear_value s46
              have h50 : Touch 231922991095 u s47 := ((h49).to (toTest_touch ..) rfl).to (toTest_touch ..) rfl
              clear_value s47
              have h51 : Touch 231922991095 u s48 := by
                unfold s48
                refine Touch.ite ?_ ?_
                · exact (h50).to (toTest_touch ..) rfl
                · exact h50
              clear_value s48
              exact ((h51).to (abandon_touch ..) rfl).to (discardHeld_touch ..) rfl
            · exact h21

theorem execEngineSelfTestDone_touch (engine pass s) {t : State} (e : execEngineSelfTestDone engine pass s = .next t) :
    Touch 231922991095 s t := by
  refine run_touch e rfl fun u => ?_
  extract_lets u0 w1 due2 s3
  have h4 : Touch 231922991095 u s3 := (Touch.refl ..).to (setEntry_touch ..) rfl
  clear_value s3
  clear_value due2
  clear_value w1
  clear_value u0
  refine Touch.ite ?_ ?_
  · exact Touch.refl ..
  · refine Touch.ite ?_ ?_
    · exact (Touch.refl ..).to (setEntry_touch ..) rfl
    · refine Touch.ite ?_ ?_
      · exact (h4).to (replaceEngine_touch ..) rfl
      · exact h4

theorem execDamageCheck_touch (tile s) {t : State} (e : execDamageCheck tile s = .next t) :
    Touch 231922991095 s t := by
  refine run_touch e rfl fun u => ?_
  split
  · rename_i x0 heq1
    exact Touch.refl ..
  · rename_i x2 h3 heq4
    split
    · rename_i x5 heq6
      exact Touch.refl ..
    · rename_i x7 b8 heq9
      refine Touch.ite ?_ ?_
      · exact Touch.refl ..
      · split
        · rename_i x10 s11 heq12
          have h13 : Touch 231922991095 u s11 := Touch.of2 heq12 ((Touch.refl ..).to (workOf_touch ..) rfl)
          exact h13
        · rename_i x14 o15 slot16 j17 p18 s19 heq20
          have h21 : Touch 231922991095 u s19 := Touch.of2 heq20 ((Touch.refl ..).to (workOf_touch ..) rfl)
          extract_lets s22
          have h23 : Touch 231922991095 u s22 := (h21).to (inc_touch_in (k := 24) _ _ rfl) rfl
          clear_value s22
          refine Touch.ite ?_ ?_
          · split
            rename_i x24 widen25 s26 heq27
            have h28 : Touch 231922991095 u s26 := Touch.of2 heq27 (((h23).to (inc_touch_in (k := 24) _ _ rfl) rfl).to (countDamage_touch ..) rfl)
            exact (h28).to (release_touch ..) rfl
          · exact (h23).to (release_touch ..) rfl

end Sys2Proof.Machine
end

