-- ==== Sys2Proof/Laws/TouchSteps.lean ====
section
/-!
SUPPORT. The footprint of every operation of external memory, intervals, fills, moves, updates, steps and failover: once per operation, the areas it can change.
-/
namespace Sys2Proof.Machine

open Sys2Proof

/-! ### ExtMem -/

theorem execHbmAccess_touch (who addr len write bytes ups die s) {t : State} (e : execHbmAccess who addr len write bytes ups die s = .next t) :
    Touch 231922991095 s t := by
  refine run_touch e rfl fun u => ?_
  extract_lets s0
  have h1 : Touch 231922991095 u s0 := (Touch.refl ..).to (addStackF_touch _ _ _ _ (by decide)) rfl
  clear_value s0
  refine Touch.ite ?_ ?_
  · split
    rename_i x2 st3 s4 heq5
    have h6 : Touch 231922991095 u s4 := Touch.of2 heq5 ((h1).to (accessWrite_touch ..) rfl)
    exact (h6).to (answer_touch ..) rfl
  · split
    rename_i x7 st8 bs9 s10 heq11
    have h12 : Touch 231922991095 u s10 := Touch.of22 heq11 ((h1).to (accessRead_touch ..) rfl)
    exact (h12).to (answer_touch ..) rfl

theorem execDdrAccess_touch (who addr len write bytes ups s) {t : State} (e : execDdrAccess who addr len write bytes ups s = .next t) :
    Touch 231922991095 s t := by
  refine run_touch e rfl fun u => ?_
  refine Touch.ite ?_ ?_
  · split
    rename_i x0 st1 s2 heq3
    have h4 : Touch 231922991095 u s2 := Touch.of2 heq3 ((Touch.refl ..).to (accessWrite_touch ..) rfl)
    exact (h4).to (answer_touch ..) rfl
  · split
    rename_i x5 st6 bs7 s8 heq9
    have h10 : Touch 231922991095 u s8 := Touch.of22 heq9 ((Touch.refl ..).to (accessRead_touch ..) rfl)
    exact (h10).to (answer_touch ..) rfl

theorem execHbmPatrolScrub_touch (addr symbols s) {t : State} (e : execHbmPatrolScrub addr symbols s = .next t) :
    Touch 231922991095 s t := by
  refine run_touch e rfl fun u => ?_
  extract_lets a0 s1
  have h2 : Touch 231922991095 u s1 := (Touch.refl ..).to (dieReports_touch ..) rfl
  clear_value s1
  clear_value a0
  refine Touch.ite ?_ ?_
  · exact Touch.refl ..
  · refine Touch.ite ?_ ?_
    · exact h2
    · refine Touch.ite ?_ ?_
      · exact (h2).to (correctSector_touch ..) rfl
      · exact (h2).to (uncorrSector_touch ..) rfl

theorem execDdrPatrolScrub_touch (addr devices s) {t : State} (e : execDdrPatrolScrub addr devices s = .next t) :
    Touch 231922991095 s t := by
  refine run_touch e rfl fun u => ?_
  extract_lets a0
  clear_value a0
  refine Touch.ite ?_ ?_
  · exact Touch.refl ..
  · refine Touch.ite ?_ ?_
    · exact Touch.refl ..
    · refine Touch.ite ?_ ?_
      · exact (Touch.refl ..).to (correctLine_touch ..) rfl
      · exact (Touch.refl ..).to (uncorrLine_touch ..) rfl

theorem sensorFault_touch (s unit sensor reading) : Touch 223877267478 s (State.sensorFault s unit sensor reading) := by
  unfold State.sensorFault
  exact (((Touch.refl ..).to (inc_touch_in (k := 34) _ _ rfl) rfl).to (setF_touch_in (k := 34) _ _ _ rfl) rfl).to (event_touch ..) rfl

theorem thermCheck_touch (s) : Touch 17179869188 s (State.thermCheck s) := by
  unfold State.thermCheck
  refine Touch.ite ?_ ?_
  · exact (Touch.refl ..).to (setTherm_touch ..) rfl
  · exact Touch.refl ..

theorem stackToLevel_touch (s i new t) : Touch 231922728951 s (State.stackToLevel s i new t) := by
  unfold State.stackToLevel
  extract_lets old0 u1 s2 s3
  have h4 : Touch 231922728951 s s2 := ((Touch.refl ..).to (setStackF_touch _ _ _ _ (by decide)) rfl).to (event_touch ..) rfl
  clear_value s2
  have h5 : Touch 231922728951 s s3 := ((h4).to (setStackF_touch _ _ _ _ (by decide)) rfl).to (setF_touch_in (k := 29) _ _ _ rfl) rfl
  clear_value s3
  clear_value u1
  clear_value old0
  refine Touch.ite ?_ ?_
  · exact Touch.refl ..
  · refine Touch.ite ?_ ?_
    · exact ((h5).to (putUnit_touch ..) rfl).to (declareFailed_touch ..) rfl
    · exact h4

theorem stackSample_touch (s stack temp bad) : Touch 231922728951 s (State.stackSample s stack temp bad) := by
  unfold State.stackSample
  extract_lets x0 s1
  have h2 : Touch 231922728951 s s1 := ((Touch.refl ..).to (setStack_touch ..) rfl).to (sensorFault_touch ..) rfl
  clear_value s1
  clear_value x0
  refine Touch.ite ?_ ?_
  · exact (h2).to (stackToLevel_touch ..) rfl
  · split
    · rename_i temp3
      exact (Touch.refl ..).to (setStack_touch ..) rfl
    · rename_i temp4 t5
      extract_lets s6 cur7 cool8 s9
      have h10 : Touch 231922728951 s s6 := (Touch.refl ..).to (setStackF_touch _ _ _ _ (by decide)) rfl
      clear_value s6
      have h11 : Touch 231922728951 s s9 := (h10).to (setStack_touch ..) rfl
      clear_value s9
      clear_value cool8
      clear_value cur7
      exact (h11).to (stackToLevel_touch ..) rfl

theorem execHbmTempSample_touch (stack temp s) {t : State} (e : execHbmTempSample stack temp s = .next t) :
    Touch 231922728951 s t := by
  refine run_touch e rfl fun u => ?_
  extract_lets x0 bad1 s2 lvl3 s4
  have h5 : Touch 231922728951 u s2 := by
    unfold s2
    refine Touch.ite ?_ ?_
    · exact Touch.refl ..
    · exact (Touch.refl ..).to (stackSample_touch ..) rfl
  clear_value s2
  have h6 : Touch 231922728951 u s4 := by
    unfold s4
    refine Touch.ite ?_ ?_
    · exact (h5).to (addStackF_touch _ _ _ _ (by decide)) rfl
    · exact h5
  clear_value s4
  clear_value lvl3
  clear_value bad1
  clear_value x0
  refine Touch.ite ?_ ?_
  · exact Touch.refl ..
  · exact (h6).to (thermCheck_touch ..) rfl

theorem ddrOffline_touch (s c) : Touch 231922728951 s (State.ddrOffline s c) := by
  unfold State.ddrOffline
  extract_lets u0 s1 k2 s3 src4
  have h5 : Touch 231922728951 s s1 := ((Touch.refl ..).to (setF_touch_in (k := 29) _ _ _ rfl) rfl).to (event_touch ..) rfl
  clear_value s1
  have h6 : Touch 231922728951 s s3 := by
    unfold s3
    refine Touch.ite ?_ ?_
    · refine Touch.foldl ?_ (fun t7 a8 h9 => ?_)
      · exact h5
      · exact (h9).to (event_touch ..) rfl
    · exact h5
  clear_value s3
  clear_value src4
  clear_value k2
  clear_value u0
  refine Touch.ite ?_ ?_
  · exact (h5).to (declareFailed_touch ..) rfl
  · refine Touch.ite ?_ ?_
    · exact (Touch.set_ckp (h6) rfl).to (event_touch ..) rfl
    · exact h6

theorem channelToLevel_touch (s c new t) : Touch 231922728951 s (State.channelToLevel s c new t) := by
  unfold State.channelToLevel
  extract_lets x0 s1
  have h2 : Touch 231922728951 s s1 := ((Touch.refl ..).to (setChannel_touch ..) rfl).to (event_touch ..) rfl
  clear_value s1
  clear_value x0
  refine Touch.ite ?_ ?_
  · exact Touch.refl ..
  · refine Touch.ite ?_ ?_
    · exact (h2).to (ddrOffline_touch ..) rfl
    · exact h2

theorem execDimmTempSample_touch (channel temp s) {t : State} (e : execDimmTempSample channel temp s = .next t) :
    Touch 231922728951 s t := by
  refine run_touch e rfl fun u => ?_
  extract_lets x0 bad1 s2 s3
  have h4 : Touch 231922728951 u s2 := ((Touch.refl ..).to (setChannel_touch ..) rfl).to (sensorFault_touch ..) rfl
  clear_value s2
  have h5 : Touch 231922728951 u s3 := by
    unfold s3
    refine Touch.ite ?_ ?_
    · exact (h4).to (channelToLevel_touch ..) rfl
    · split
      · rename_i temp6
        exact (Touch.refl ..).to (setChannel_touch ..) rfl
      · rename_i temp7 t8
        extract_lets cool9 s10
        have h11 : Touch 231922728951 u s10 := (Touch.refl ..).to (setChannel_touch ..) rfl
        clear_value s10
        clear_value cool9
        exact (h11).to (channelToLevel_touch ..) rfl
  clear_value s3
  clear_value bad1
  clear_value x0
  refine Touch.ite ?_ ?_
  · exact Touch.refl ..
  · exact (h5).to (thermCheck_touch ..) rfl

theorem execThermalLevelFall_touch (dimm index s) {t : State} (e : execThermalLevelFall dimm index s = .next t) :
    Touch 231922728951 s t := by
  refine run_touch e rfl fun u => ?_
  refine Touch.ite ?_ ?_
  · extract_lets x0
    clear_value x0
    refine Touch.ite ?_ ?_
    · exact ((Touch.refl ..).to (setChannel_touch ..) rfl).to (channelToLevel_touch ..) rfl
    · exact Touch.refl ..
  · extract_lets x1 lvl2
    clear_value lvl2
    clear_value x1
    refine Touch.ite ?_ ?_
    · exact ((Touch.refl ..).to (setStack_touch ..) rfl).to (stackToLevel_touch ..) rfl
    · exact Touch.refl ..

theorem slowNotice_touch (s kind) : Touch 536875008 s (State.slowNotice s kind) := by
  unfold State.slowNotice
  refine Touch.foldl ?_ (fun t0 a1 h2 => ?_)
  · exact Touch.refl ..
  · refine Touch.ite ?_ ?_
    · exact ((h2).to (sendNotice_touch ..) rfl).to (inc_touch_in (k := 29) _ _ rfl) rfl
    · exact h2

theorem execSlowNoticeSend_touch (s) {t : State} (e : execSlowNoticeSend s = .next t) :
    Touch 536883204 s t := by
  refine run_touch e rfl fun u => ?_
  refine Touch.ite ?_ ?_
  · extract_lets s0 src1
    have h2 : Touch 536883204 u s0 := (Touch.refl ..).to (slowNotice_touch ..) rfl
    clear_value s0
    clear_value src1
    exact (Touch.set_fabric (h2) rfl).to (setF_touch_in (k := 29) _ _ _ rfl) rfl
  · refine Touch.ite ?_ ?_
    · extract_lets s3 src4
      have h5 : Touch 536883204 u s3 := (Touch.refl ..).to (slowNotice_touch ..) rfl
      clear_value s3
      clear_value src4
      exact (Touch.set_fabric (h5) rfl).to (setF_touch_in (k := 29) _ _ _ rfl) rfl
    · exact Touch.refl ..

/-! ### Interval -/

theorem copyMem_touch (s : State) (src dst n : Nat) : Touch 0x1000000801 s (s.copyMem src dst n) := by
  unfold State.copyMem
  extract_lets kept gone s1
  have h1 : Touch 0x1000000801 s s1 := ((Touch.refl ..).to (clearVoids_touch ..) rfl).to (zeroBytes_touch ..) rfl
  clear_value s1 kept gone
  exact Touch.set_voided (Touch.set_mem h1 rfl rfl fun h => SMap.wf_setAll _ h) rfl

theorem nonce_touch (s) : Touch 2 s (State.nonce s).2 := by
  unfold State.nonce
  split
  rename_i x0 b1 s2 heq3
  have h4 : Touch 2 s s2 := Touch.of2 heq3 ((Touch.refl ..).to (draw_touch ..) rfl)
  split
  rename_i x5 b6 s7 heq8
  have h9 : Touch 2 s s7 := Touch.of2 heq8 ((h4).to (draw_touch ..) rfl)
  refine Touch.red1 ?_
  exact h9

theorem seal_touch (s j kind mac enc body) : Touch 33554434 s (State.seal s j kind mac enc body).2 := by
  unfold State.seal
  split
  rename_i x0 n1 s2 heq3
  have h4 : Touch 33554434 s s2 := Touch.of2 heq3 ((Touch.refl ..).to (nonce_touch ..) rfl)
  extract_lets s5
  have h6 : Touch 33554434 s s5 := (h4).to (inc_touch_in (k := 25) _ _ rfl) rfl
  clear_value s5
  split
  · rename_i x7 k8 heq9
    refine Touch.red1 ?_
    refine Touch.ite ?_ ?_
    · exact (h6).to (addF_touch_in (k := 25) _ _ _ rfl) rfl
    · exact h6
  · rename_i x10 heq11
    refine Touch.red1 ?_
    exact h6

theorem parityList_touch (s k g u items) : Touch 209919280151 s (State.parityList s k g u items).2 := by
  unfold State.parityList
  split
  rename_i x0 l1 s2 heq3
  have h4 : Touch 209919280151 s s2 := by
    refine Touch.of2 heq3 ?_
    refine Touch.foldl2 ?_ (fun b5 t6 a7 h8 => ?_)
    · refine Touch.red1 ?_
      exact Touch.refl ..
    · split
      · rename_i x9 heq10
        refine Touch.red1 ?_
        exact h8
      · rename_i x11 l12 heq13
        split
        · rename_i x14 bs15 s16 heq17
          have h18 : Touch 209919280151 s s16 := by
            refine Touch.of22 heq17 ?_
            refine Touch.to ?_ (devRead_touch ..) rfl
            refine Touch.red1 ?_
            exact h8
          refine Touch.red1 ?_
          exact h18
        · rename_i x19 fst20 fst21 s22 x23 heq24
          have h25 : Touch 209919280151 s s22 := by
            refine Touch.of22 heq24 ?_
            refine Touch.to ?_ (devRead_touch ..) rfl
            refine Touch.red1 ?_
            exact h8
          refine Touch.red1 ?_
          exact h25
  refine Touch.red1 ?_
  exact h4

theorem startStripe_touch (s index stripe u target mine) : Touch 214742859767 s (State.startStripe s index stripe u target mine) := by
  unfold State.startStripe
  extract_lets a0
  clear_value a0
  split
  rename_i x1 g2 fst3 first4 heq5
  extract_lets desc6 x7
  clear_value x7
  clear_value desc6
  exact (Touch.refl ..).to (putColl_touch ..) rfl

theorem startParity_touch (s k u stripes) : Touch 214742859767 s (State.startParity s k u stripes) := by
  unfold State.startParity
  split
  rename_i x0 g1 fst2 first3 heq4
  split
  · rename_i x5 s6 heq7
    have h8 : Touch 214742859767 s s6 := Touch.of2 heq7 ((Touch.refl ..).to (parityList_touch ..) rfl)
    exact h8
  · rename_i x9 l10 s11 heq12
    have h13 : Touch 214742859767 s s11 := Touch.of2 heq12 ((Touch.refl ..).to (parityList_touch ..) rfl)
    refine Touch.foldl ?_ (fun t14 a15 h16 => ?_)
    · exact h13
    · exact (h16).to (startStripe_touch ..) rfl

theorem restartStripes_touch (s) : Touch 214742859767 s (State.restartStripes s) := by
  unfold State.restartStripes
  extract_lets todo0
  clear_value todo0
  refine Touch.ite ?_ ?_
  · exact Touch.refl ..
  · exact (Touch.refl ..).to (startParity_touch ..) rfl

theorem applyJournal_touch (s) : Touch 68719511553 s (State.applyJournal s) := by
  unfold State.applyJournal
  extract_lets base0 s1
  have h2 : Touch 68719511553 s s1 := by
    unfold s1
    refine Touch.foldl ?_ (fun t3 a4 h5 => ?_)
    · exact Touch.refl ..
    · exact (h5).to (copyMem_touch ..) rfl
  clear_value s1
  clear_value base0
  exact ((h2).to (copyMem_touch ..) rfl).to (endJournal_touch ..) rfl

theorem exportFails_touch (s reason again) : Touch 206764539926 s (State.exportFails s reason again) := by
  unfold State.exportFails
  extract_lets src0 s1
  have h2 : Touch 206764539926 s s1 := Touch.set_ckp (Touch.refl ..) rfl
  clear_value s1
  clear_value src0
  exact (((h2).to (setF_touch_in (k := 26) _ _ _ rfl) rfl).to (inc_touch_in (k := 26) _ _ rfl) rfl).to (event_touch ..) rfl

theorem openExport_touch (s step) : Touch 210019978263 s (State.openExport s step) := by
  unfold State.openExport
  extract_lets c0 bookOff1 e2
  clear_value e2
  clear_value bookOff1
  clear_value c0
  refine Touch.ite ?_ ?_
  · exact (Touch.refl ..).to (exportFails_touch ..) rfl
  · refine Touch.ite ?_ ?_
    · exact (Touch.refl ..).to (exportFails_touch ..) rfl
    · split
      · rename_i x3 s4 heq5
        have h6 : Touch 210019978263 s s4 := Touch.of2 heq5 ((Touch.refl ..).to (devWrite_touch ..) rfl)
        exact ((Touch.set_ckp (h6) rfl).to (setF_touch_in (k := 26) _ _ _ rfl) rfl).to (lend_touch ..) rfl
      · rename_i x7 fst8 s9 x10 heq11
        have h12 : Touch 210019978263 s s9 := Touch.of2 heq11 ((Touch.refl ..).to (devWrite_touch ..) rfl)
        exact (h12).to (exportFails_touch ..) rfl

theorem startExport_touch (s) : Touch 210019978263 s (State.startExport s) := by
  unfold State.startExport
  extract_lets c0
  clear_value c0
  refine Touch.ite ?_ ?_
  · exact Touch.refl ..
  · split
    · rename_i x1 s2 heq3
      have h4 : Touch 210019978263 s s2 := Touch.of2 heq3 ((Touch.refl ..).to (readBook_touch ..) rfl)
      refine Touch.ite ?_ ?_
      · exact (h4).to (exportFails_touch ..) rfl
      · exact h4
    · rename_i x5 l6 s7 heq8
      have h9 : Touch 210019978263 s s7 := Touch.of2 heq8 ((Touch.refl ..).to (readBook_touch ..) rfl)
      refine Touch.ite ?_ ?_
      · exact (h9).to (openExport_touch ..) rfl
      · exact h9

theorem advanceP_touch (s slot) : Touch 210020043991 s (State.advanceP s slot) := by
  unfold State.advanceP
  extract_lets k0 old1 s2 s3 c4 s5
  have h6 : Touch 210020043991 s s2 := by
    unfold s2
    refine Touch.ite ?_ ?_
    · exact (Touch.refl ..).to (ownNum_touch ..) rfl
    · exact Touch.refl ..
  clear_value s2
  have h7 : Touch 210020043991 s s3 := by
    unfold s3
    refine Touch.ite ?_ ?_
    · exact (h6).to (applyJournal_touch ..) rfl
    · exact h6
  clear_value s3
  have h8 : Touch 210020043991 s s5 := Touch.set_ckp (h7) rfl
  clear_value s5
  clear_value c4
  clear_value old1
  clear_value k0
  split
  · rename_i x9 heq10
    exact Touch.refl ..
  · rename_i x11 step12 heq13
    extract_lets s14 due15 s16 s17 src18 s19
    have h20 : Touch 210020043991 s s14 := ((((h8).to (setF_touch_in (k := 26) _ _ _ rfl) rfl).to (setF_touch_in (k := 26) _ _ _ rfl) rfl).to (setF_touch_in (k := 26) _ _ _ rfl) rfl).to (setF_touch_in (k := 26) _ _ _ rfl) rfl
    clear_value s14
    have h21 : Touch 210020043991 s s16 := by
      unfold s16
      refine Touch.foldl ?_ (fun t22 a23 h24 => ?_)
      · exact h20
      · exact (h24).to (opAck_touch ..) rfl
    clear_value s16
    have h25 : Touch 210020043991 s s17 := (h21).to (modJob_touch ..) rfl
    clear_value s17
    have h26 : Touch 210020043991 s s19 := by
      unfold s19
      refine Touch.ite ?_ ?_
      · exact h25
      · exact Touch.set_fov (h25) rfl
    clear_value s19
    clear_value src18
    clear_value due15
    exact (h26).to (startExport_touch ..) rfl

theorem applyVote_touch (s slot pending failed) : Touch 210020060375 s (State.applyVote s slot pending failed) := by
  unfold State.applyVote
  refine Touch.ite ?_ ?_
  · extract_lets s0 src1
    have h2 : Touch 210020060375 s s0 := ((Touch.refl ..).to (discardS_touch ..) rfl).to (endJournal_touch ..) rfl
    clear_value s0
    clear_value src1
    exact Touch.set_ckp (h2) rfl
  · refine Touch.ite ?_ ?_
    · exact (Touch.refl ..).to (advanceP_touch ..) rfl
    · exact Touch.refl ..

theorem beginInterval_touch (s) : Touch 67141632 s (State.beginInterval s) := by
  unfold State.beginInterval
  exact ((Touch.set_ckp (Touch.refl ..) rfl).to (setF_touch_in (k := 26) _ _ _ rfl) rfl).to (setF_touch_in (k := 26) _ _ _ rfl) rfl

theorem execForcedInterval_touch (slot pending failed s) {t : State} (e : execForcedInterval slot pending failed s = .next t) :
    Touch 210020060375 s t := by
  refine run_touch e rfl fun u => ?_
  unfold State.withCkp
  split
  · rename_i x0 j1 heq2
    refine Touch.ite ?_ ?_
    · beta_reduce
      split
      rename_i x3 p4 f5 heq6
      refine Touch.ite ?_ ?_
      · exact Touch.refl ..
      · refine Touch.ite ?_ ?_
        · exact Touch.refl ..
        · extract_lets s7 c8 s9 src10
          have h11 : Touch 210020060375 u s7 := (Touch.refl ..).to (applyVote_touch ..) rfl
          clear_value s7
          have h12 : Touch 210020060375 u s9 := Touch.set_ckp (h11) rfl
          clear_value s9
          clear_value src10
          clear_value c8
          refine Touch.ite ?_ ?_
          · refine Touch.ite ?_ ?_
            · exact (Touch.set_ckp (h12) rfl).to (setF_touch_in (k := 26) _ _ _ rfl) rfl
            · refine Touch.ite ?_ ?_
              · exact h12
              · exact Touch.set_ckp (h12) rfl
          · exact (Touch.set_ckp (h12) rfl).to (beginInterval_touch ..) rfl
    · exact Touch.refl ..
  · rename_i x13 heq14
    exact Touch.refl ..

theorem copyIn_touch (s j slot k) : Touch 209919314967 s (State.copyIn s j slot k).2 := by
  unfold State.copyIn
  refine Touch.foldl2 ?_ (fun b0 t1 a2 h3 => ?_)
  · refine Touch.red1 ?_
    exact Touch.refl ..
  · refine Touch.ite2 ?_ ?_
    · refine Touch.red1 ?_
      exact h3
    · split
      · rename_i x4 bs5 s6 heq7
        have h8 : Touch 209919314967 s s6 := by
          refine Touch.of22 heq7 ?_
          refine Touch.to ?_ (itemLive_touch ..) rfl
          refine Touch.red1 ?_
          exact h3
        split
        · rename_i x9 s10 heq11
          have h12 : Touch 209919314967 s s10 := Touch.of2 heq11 ((h8).to (devWrite_touch ..) rfl)
          refine Touch.red1 ?_
          exact h12
        · rename_i x13 fst14 s15 x16 heq17
          have h18 : Touch 209919314967 s s15 := Touch.of2 heq17 ((h8).to (devWrite_touch ..) rfl)
          refine Touch.red1 ?_
          exact h18
      · rename_i x19 fst20 fst21 s22 x23 heq24
        have h25 : Touch 209919314967 s s22 := by
          refine Touch.of22 heq24 ?_
          refine Touch.to ?_ (itemLive_touch ..) rfl
          refine Touch.red1 ?_
          exact h3
        refine Touch.red1 ?_
        exact h25

theorem execIntervalStop_touch (slot peers s) {t : State} (e : execIntervalStop slot peers s = .next t) :
    Touch 210129125015 s t := by
  refine run_touch e rfl fun u => ?_
  unfold State.withCkp
  split
  · rename_i x0 j1 heq2
    refine Touch.ite ?_ ?_
    · beta_reduce
      extract_lets s3 c4 items5 c6 u7 s8 s9
      have h10 : Touch 210129125015 u s3 := by
        unfold s3
        refine Touch.ite ?_ ?_
        · exact (Touch.refl ..).to (beginInterval_touch ..) rfl
        · exact Touch.refl ..
      clear_value s3
      have h11 : Touch 210129125015 u s8 := Touch.set_ckp (h10) rfl
      clear_value s8
      have h12 : Touch 210129125015 u s9 := ((h11).to (setF_touch_in (k := 26) _ _ _ rfl) rfl).to (setF_touch_in (k := 26) _ _ _ rfl) rfl
      clear_value s9
      clear_value u7
      clear_value c6
      clear_value items5
      clear_value c4
      refine Touch.ite ?_ ?_
      · exact h10
      · split
        · rename_i x13 s14 heq15
          have h16 : Touch 210129125015 u s14 := Touch.of2 heq15 ((h12).to (copyIn_touch ..) rfl)
          exact h16
        · rename_i x17 s18 heq19
          have h20 : Touch 210129125015 u s18 := Touch.of2 heq19 ((h12).to (copyIn_touch ..) rfl)
          extract_lets s21 src22 s23
          have h24 : Touch 210129125015 u s21 := (h20).to (flood_touch ..) rfl
          clear_value s21
          have h25 : Touch 210129125015 u s23 := Touch.set_ckp (h24) rfl
          clear_value s23
          clear_value src22
          exact ((h25).to (setF_touch_in (k := 26) _ _ _ rfl) rfl).to (rollback_touch ..) rfl
    · exact Touch.refl ..
  · rename_i x26 heq27
    exact Touch.refl ..

theorem shipItem_touch (s j p k blocks it) : Touch 210019947543 s (State.shipItem s j p k blocks it) := by
  unfold State.shipItem
  extract_lets partner0 epoch1 mac2 enc3
  clear_value enc3
  clear_value mac2
  clear_value epoch1
  clear_value partner0
  refine Touch.foldl ?_ (fun t4 a5 h6 => ?_)
  · exact Touch.refl ..
  · split
    · rename_i x7 bs8 s9 heq10
      have h11 : Touch 210019947543 s s9 := Touch.of22 heq10 ((h6).to (devRead_touch ..) rfl)
      split
      rename_i x12 obj13 s14 heq15
      have h16 : Touch 210019947543 s s14 := Touch.of2 heq15 ((h11).to (seal_touch ..) rfl)
      exact ((h16).to (sendPut_touch ..) rfl).to (addF_touch_in (k := 26) _ _ _ rfl) rfl
    · rename_i x17 fst18 fst19 s20 x21 heq22
      have h23 : Touch 210019947543 s s20 := Touch.of22 heq22 ((h6).to (devRead_touch ..) rfl)
      exact h23

theorem shipMirror_touch (s j k book) : Touch 210019947543 s (State.shipMirror s j k book) := by
  unfold State.shipMirror
  extract_lets blocks0
  clear_value blocks0
  split
  · rename_i x1 heq2
    exact Touch.refl ..
  · rename_i x3 step4 heq5
    extract_lets s6
    have h7 : Touch 210019947543 s s6 := by
      unfold s6
      refine Touch.foldl ?_ (fun t8 a9 h10 => ?_)
      · exact Touch.refl ..
      · refine Touch.ite ?_ ?_
        · exact (h10).to (shipItem_touch ..) rfl
        · exact h10
    clear_value s6
    split
    rename_i x11 obj12 s13 heq14
    have h15 : Touch 210019947543 s s13 := Touch.of2 heq14 ((h7).to (seal_touch ..) rfl)
    extract_lets epoch16
    clear_value epoch16
    exact ((h15).to (sendPut_touch ..) rfl).to (sendFence_touch ..) rfl

theorem shieldAct_touch (s slot) : Touch 214742859767 s (State.shieldAct s slot) := by
  unfold State.shieldAct
  extract_lets t0 w1 s2 s3
  have h4 : Touch 214742859767 s s2 := ((Touch.refl ..).to (inc_touch_in (k := 27) _ _ rfl) rfl).to (event_touch ..) rfl
  clear_value s2
  have h5 : Touch 214742859767 s s3 := by
    unfold s3
    refine Touch.foldl ?_ (fun t6 a7 h8 => ?_)
    · exact h4
    · extract_lets st9
      clear_value st9
      refine Touch.ite ?_ ?_
      · exact (h8).to (toTest_touch ..) rfl
      · exact h8
  clear_value s3
  clear_value w1
  clear_value t0
  split
  · rename_i x10 heq11
    exact Touch.refl ..
  · rename_i x12 j13 heq14
    refine Touch.ite ?_ ?_
    · refine Touch.ite ?_ ?_
      · exact (h5).to (abandon_touch ..) rfl
      · exact ((h5).to (flood_touch ..) rfl).to (rollback_touch ..) rfl
    · extract_lets s15
      have h16 : Touch 214742859767 s s15 := by
        unfold s15
        refine Touch.ite ?_ ?_
        · exact (h4).to (abandon_touch ..) rfl
        · exact (h4).to (flood_touch ..) rfl
      clear_value s15
      exact (h16).to (exportFallback_touch ..) rfl

theorem shieldNow_touch (s slot) : Touch 214742859767 s (State.shieldNow s slot) := by
  unfold State.shieldNow
  refine Touch.ite ?_ ?_
  · exact Touch.set_ckp (Touch.refl ..) rfl
  · exact (Touch.refl ..).to (shieldAct_touch ..) rfl

theorem expelAct_touch (s) : Touch 231922728951 s (State.expelAct s) := by
  unfold State.expelAct
  extract_lets s0
  have h1 : Touch 231922728951 s s0 := (Touch.refl ..).to (declareFailed_touch ..) rfl
  clear_value s0
  refine Touch.foldl ?_ (fun t2 a3 h4 => ?_)
  · exact h1
  · refine Touch.ite ?_ ?_
    · exact h4
    · exact (h4).to (toTest_touch ..) rfl

theorem expelNow_touch (s) : Touch 231922728951 s (State.expelNow s) := by
  unfold State.expelNow
  refine Touch.ite ?_ ?_
  · exact Touch.set_ckp (Touch.refl ..) rfl
  · exact (Touch.refl ..).to (expelAct_touch ..) rfl

theorem execSnapshotSeal_touch (slot s) {t : State} (e : execSnapshotSeal slot s = .next t) :
    Touch 231922728951 s t := by
  refine run_touch e rfl fun u => ?_
  unfold State.withCkp
  split
  · rename_i x0 j1 heq2
    refine Touch.ite ?_ ?_
    · beta_reduce
      refine Touch.ite ?_ ?_
      · exact Touch.refl ..
      · extract_lets k3 step4
        clear_value step4
        clear_value k3
        split
        rename_i x5 b6 s7 heq8
        have h9 : Touch 231922728951 u s7 := Touch.of2 heq8 ((Touch.refl ..).to (draw_touch ..) rfl)
        extract_lets us10 entries11 book12 s13 c14 s15 s16 s17 s18 s19 s20 s21 u22
        have h23 : Touch 231922728951 u s13 := (h9).to (putWhole_touch ..) rfl
        clear_value s13
        have h24 : Touch 231922728951 u s15 := Touch.set_ckp (h23) rfl
        clear_value s15
        have h25 : Touch 231922728951 u s16 := (((h24).to (setF_touch_in (k := 26) _ _ _ rfl) rfl).to (setF_touch_in (k := 26) _ _ _ rfl) rfl).to (setF_touch_in (k := 26) _ _ _ rfl) rfl
        clear_value s16
        have h26 : Touch 231922728951 u s17 := ((((h25).to (setF_touch_in (k := 26) _ _ _ rfl) rfl).to (setF_touch_in (k := 26) _ _ _ rfl) rfl).to (setF_touch_in (k := 26) _ _ _ rfl) rfl).to (setJf_touch _ _ _ _ (by decide)) rfl
        clear_value s17
        have h27 : Touch 231922728951 u s18 := ((h26).to (inc_touch_in (k := 26) _ _ rfl) rfl).to (addF_touch_in (k := 26) _ _ _ rfl) rfl
        clear_value s18
        have h28 : Touch 231922728951 u s19 := (h27).to (event_touch ..) rfl
        clear_value s19
        have h29 : Touch 231922728951 u s20 := (h28).to (lend_touch ..) rfl
        clear_value s20
        have h30 : Touch 231922728951 u s21 := (h29).to (shipMirror_touch ..) rfl
        clear_value s21
        clear_value u22
        clear_value c14
        clear_value book12
        clear_value entries11
        clear_value us10
        split
        rename_i x31 g32 fst33 first34 heq35
        extract_lets s36 s37
        have h38 : Touch 231922728951 u s36 := by
          unfold s36
          refine Touch.ite ?_ ?_
          · exact ((h30).to (startParity_touch ..) rfl).to (addF_touch_in (k := 26) _ _ _ rfl) rfl
          · exact h30
        clear_value s36
        have h39 : Touch 231922728951 u s37 := by
          unfold s37
          refine Touch.ite ?_ ?_
          · exact ((h38).to (setJf_touch _ _ _ _ (by decide)) rfl).to (modJob_touch ..) rfl
          · exact h38
        clear_value s37
        refine Touch.foldl ?_ (fun t40 a41 h42 => ?_)
        · exact h39
        · refine Touch.ite ?_ ?_
          · exact (h42).to (shieldAct_touch ..) rfl
          · exact (h42).to (expelAct_touch ..) rfl
    · exact Touch.refl ..
  · rename_i x43 heq44
    exact Touch.refl ..

theorem execDrainComplete_touch (slot s) {t : State} (e : execDrainComplete slot s = .next t) :
    Touch 210019998743 s t := by
  refine run_touch e rfl fun u => ?_
  unfold State.withCkp
  split
  · rename_i x0 j1 heq2
    refine Touch.ite ?_ ?_
    · beta_reduce
      extract_lets k3 u4 waits5 enc6 mac7
      clear_value mac7
      clear_value enc6
      clear_value waits5
      clear_value u4
      clear_value k3
      split
      rename_i x8 g9 fst10 first11 heq12
      extract_lets stripe13 s14
      have h15 : Touch 210019998743 u s14 := by
        unfold s14
        split
        · rename_i x16 x17 heq18
          extract_lets raw19
          clear_value raw19
          split
          rename_i x20 obj21 s22 heq23
          have h24 : Touch 210019998743 u s22 := by
            refine Touch.of2 heq23 ?_
            refine Touch.ite2 ?_ ?_
            · exact (Touch.refl ..).to (seal_touch ..) rfl
            · refine Touch.red1 ?_
              exact Touch.refl ..
          extract_lets up25 s26 src27
          have h28 : Touch 210019998743 u s26 := (h24).to (putWhole_touch ..) rfl
          clear_value s26
          clear_value src27
          clear_value up25
          refine Touch.to (N := 49152) ?_ { Touch.refl _ s26 with colls := fun e => absurd e (by decide), ckp := fun e => absurd e (by decide), sound := fun e => ⟨e.mem, e.regs, e.board⟩ } rfl
          exact h28
        · rename_i x29 heq30
          exact Touch.refl ..
      clear_value s14
      clear_value stripe13
      refine Touch.ite ?_ ?_
      · exact Touch.refl ..
      · refine Touch.ite ?_ ?_
        · split
          · rename_i x31 book32 s33 heq34
            have h35 : Touch 210019998743 u s33 := Touch.of2 heq34 ((Touch.refl ..).to (readBook_touch ..) rfl)
            exact (Touch.set_ckp (h35) rfl).to (shipMirror_touch ..) rfl
          · rename_i x36 s37 heq38
            have h39 : Touch 210019998743 u s37 := Touch.of2 heq38 ((Touch.refl ..).to (readBook_touch ..) rfl)
            exact h39
        · refine Touch.ite ?_ ?_
          · exact Touch.refl ..
          · exact (h15).to (setF_touch_in (k := 26) _ _ _ rfl) rfl
    · exact Touch.refl ..
  · rename_i x40 heq41
    exact Touch.refl ..

theorem execDrainGivenUp_touch (slot s) {t : State} (e : execDrainGivenUp slot s = .next t) :
    Touch 206764523542 s t := by
  refine run_touch e rfl fun u => ?_
  unfold State.withCkp
  split
  · rename_i x0 j1 heq2
    refine Touch.ite ?_ ?_
    · beta_reduce
      split
      · rename_i x3 heq4
        exact Touch.refl ..
      · rename_i x5 it6 heq7
        extract_lets s8
        have h9 : Touch 206764523542 u s8 := Touch.set_colls (Touch.refl ..) rfl
        clear_value s8
        exact ((((h9).to (setF_touch_in (k := 26) _ _ _ rfl) rfl).to (setF_touch_in (k := 26) _ _ _ rfl) rfl).to (inc_touch_in (k := 26) _ _ rfl) rfl).to (event_touch ..) rfl
    · exact Touch.refl ..
  · rename_i x10 heq11
    exact Touch.refl ..

theorem writeObjects_touch (s j objs) : Touch 209952869399 s (State.writeObjects s j objs).2 := by
  unfold State.writeObjects
  refine Touch.foldl2 ?_ (fun b0 t1 a2 h3 => ?_)
  · refine Touch.red1 ?_
    exact Touch.refl ..
  · refine Touch.ite2 ?_ ?_
    · refine Touch.red1 ?_
      exact h3
    · split
      rename_i x4 obj5 s6 heq7
      have h8 : Touch 209952869399 s s6 := by
        refine Touch.of2 heq7 ?_
        refine Touch.to ?_ (seal_touch ..) rfl
        refine Touch.red1 ?_
        exact h3
      split
      · rename_i x9 s10 heq11
        have h12 : Touch 209952869399 s s10 := Touch.of2 heq11 ((h8).to (devWrite_touch ..) rfl)
        refine Touch.red1 ?_
        exact h12
      · rename_i x13 fst14 s15 x16 heq17
        have h18 : Touch 209952869399 s s15 := Touch.of2 heq17 ((h8).to (devWrite_touch ..) rfl)
        refine Touch.red1 ?_
        exact h18

theorem exportBodies_touch (s k) : Touch 209919280151 s (State.exportBodies s k).2 := by
  unfold State.exportBodies
  split
  · rename_i x0 s1 heq2
    have h3 : Touch 209919280151 s s1 := Touch.of2 heq2 ((Touch.refl ..).to (readBook_touch ..) rfl)
    refine Touch.red1 ?_
    exact h3
  · rename_i x4 l5 s6 heq7
    have h8 : Touch 209919280151 s s6 := Touch.of2 heq7 ((Touch.refl ..).to (readBook_touch ..) rfl)
    refine Touch.foldl2 ?_ (fun b9 t10 a11 h12 => ?_)
    · refine Touch.red1 ?_
      exact h8
    · split
      · rename_i x13 heq14
        refine Touch.red1 ?_
        exact h12
      · rename_i x15 book16 got17 heq18
        split
        · rename_i x19 bs20 s21 heq22
          have h23 : Touch 209919280151 s s21 := by
            refine Touch.of22 heq22 ?_
            refine Touch.to ?_ (devRead_touch ..) rfl
            refine Touch.red1 ?_
            exact h12
          refine Touch.red1 ?_
          exact h23
        · rename_i x24 fst25 fst26 s27 x28 heq29
          have h30 : Touch 209919280151 s s27 := by
            refine Touch.of22 heq29 ?_
            refine Touch.to ?_ (devRead_touch ..) rfl
            refine Touch.red1 ?_
            exact h12
          refine Touch.red1 ?_
          exact h30

theorem execExportComplete_touch (slot s) {t : State} (e : execExportComplete slot s = .next t) :
    Touch 210019978263 s t := by
  refine run_touch e rfl fun u => ?_
  unfold State.withCkp
  split
  · rename_i x0 j1 heq2
    refine Touch.ite ?_ ?_
    · beta_reduce
      split
      · rename_i x3 heq4
        exact Touch.refl ..
      · rename_i x5 e6 step7 heq8
        extract_lets base9 n10 offs11
        clear_value offs11
        clear_value n10
        clear_value base9
        split
        · rename_i x12 s13 heq14
          have h15 : Touch 210019978263 u s13 := Touch.of2 heq14 ((Touch.refl ..).to (exportBodies_touch ..) rfl)
          exact (h15).to (exportFails_touch ..) rfl
        · rename_i x16 book17 bodies18 s19 heq20
          have h21 : Touch 210019978263 u s19 := Touch.of2 heq20 ((Touch.refl ..).to (exportBodies_touch ..) rfl)
          extract_lets objs22
          clear_value objs22
          split
          · rename_i x23 s24 heq25
            have h26 : Touch 210019978263 u s24 := Touch.of2 heq25 ((h21).to (writeObjects_touch ..) rfl)
            extract_lets src27 s28
            have h29 : Touch 210019978263 u s28 := Touch.set_ckp (h26) rfl
            clear_value s28
            clear_value src27
            exact ((((h29).to (setF_touch_in (k := 26) _ _ _ rfl) rfl).to (setF_touch_in (k := 26) _ _ _ rfl) rfl).to (inc_touch_in (k := 26) _ _ rfl) rfl).to (event_touch ..) rfl
          · rename_i x30 s31 heq32
            have h33 : Touch 210019978263 u s31 := Touch.of2 heq32 ((h21).to (writeObjects_touch ..) rfl)
            exact (h33).to (exportFails_touch ..) rfl
    · exact Touch.refl ..
  · rename_i x34 heq35
    exact Touch.refl ..

/-! ### Fill -/

theorem noteFill_touch (s slot engine n per free) : Touch 41976320 s (State.noteFill s slot engine n per free) := by
  unfold State.noteFill
  refine Touch.ite ?_ ?_
  · exact Touch.refl ..
  · refine Touch.ite ?_ ?_
    · extract_lets lanes0 s1
      have h2 : Touch 41976320 s s1 := by
        unfold s1
        refine Touch.foldl ?_ (fun t3 a4 h5 => ?_)
        · exact Touch.refl ..
        · exact (h5).to (bumpLane_touch ..) rfl
      clear_value s1
      clear_value lanes0
      exact ((h2).to (addF_touch_in (k := 25) _ _ _ rfl) rfl).to (setJf_touch _ _ _ _ (by decide)) rfl
    · exact (Touch.refl ..).to (addF_touch_in (k := 25) _ _ _ rfl) rfl

theorem putFill_touch (s op engine slot t bs n per free) : Touch 214747054071 s (State.putFill s op engine slot t bs n per free) := by
  unfold State.putFill
  refine Touch.ite ?_ ?_
  · exact (Touch.refl ..).to (opReject_touch ..) rfl
  · extract_lets s0
    have h1 : Touch 214747054071 s s0 := (Touch.refl ..).to (noteFill_touch ..) rfl
    clear_value s0
    split
    rename_i x2 e3 s4 heq5
    have h6 : Touch 214747054071 s s4 := Touch.of2 heq5 ((h1).to (devWrite_touch ..) rfl)
    exact (h6).to (opEnd_touch ..) rfl

theorem execFillRaw_touch (op engine s) {t : State} (e : execFillRaw op engine s = .next t) :
    Touch 214747054071 s t := by
  refine run_touch e rfl fun u => ?_
  unfold State.withFill
  unfold State.withOp
  split
  · rename_i x0 o1 heq2
    refine Touch.ite ?_ ?_
    · beta_reduce
      unfold State.withJob
      split
      · rename_i x3 slot4 j5 heq6
        beta_reduce
        split
        · rename_i x7 heq8
          exact (Touch.refl ..).to (opReject_touch ..) rfl
        · rename_i x9 bs10 heq11
          extract_lets d12 key13 bs14
          clear_value bs14
          clear_value key13
          clear_value d12
          refine Touch.ite ?_ ?_
          · exact (Touch.refl ..).to (opReject_touch ..) rfl
          · split
            · rename_i x15 heq16
              exact (Touch.refl ..).to (opReject_touch ..) rfl
            · rename_i x17 t18 heq19
              refine Touch.ite ?_ ?_
              · exact Touch.refl ..
              · exact (Touch.refl ..).to (putFill_touch ..) rfl
      · rename_i x20 heq21
        exact (Touch.refl ..).to (opReject_touch ..) rfl
    · exact Touch.refl ..
  · rename_i x22 heq23
    exact Touch.refl ..

theorem execFillBernoulli_touch (op engine s) {t : State} (e : execFillBernoulli op engine s = .next t) :
    Touch 214747054071 s t := by
  refine run_touch e rfl fun u => ?_
  unfold State.withFill
  unfold State.withOp
  split
  · rename_i x0 o1 heq2
    refine Touch.ite ?_ ?_
    · beta_reduce
      unfold State.withJob
      split
      · rename_i x3 slot4 j5 heq6
        beta_reduce
        split
        · rename_i x7 heq8
          exact (Touch.refl ..).to (opReject_touch ..) rfl
        · rename_i x9 bs10 heq11
          extract_lets d12 key13 bs14
          clear_value bs14
          clear_value key13
          clear_value d12
          refine Touch.ite ?_ ?_
          · exact (Touch.refl ..).to (opReject_touch ..) rfl
          · split
            · rename_i x15 heq16
              exact (Touch.refl ..).to (opReject_touch ..) rfl
            · rename_i x17 t18 heq19
              refine Touch.ite ?_ ?_
              · exact Touch.refl ..
              · exact (Touch.refl ..).to (putFill_touch ..) rfl
      · rename_i x20 heq21
        exact (Touch.refl ..).to (opReject_touch ..) rfl
    · exact Touch.refl ..
  · rename_i x22 heq23
    exact Touch.refl ..

theorem execFillNormal_touch (op engine s) {t : State} (e : execFillNormal op engine s = .next t) :
    Touch 214747054071 s t := by
  refine run_touch e rfl fun u => ?_
  unfold State.withFill
  unfold State.withOp
  split
  · rename_i x0 o1 heq2
    refine Touch.ite ?_ ?_
    · beta_reduce
      unfold State.withJob
      split
      · rename_i x3 slot4 j5 heq6
        beta_reduce
        split
        · rename_i x7 heq8
          exact (Touch.refl ..).to (opReject_touch ..) rfl
        · rename_i x9 bs10 heq11
          extract_lets d12 key13 vs14 n15
          clear_value n15
          clear_value vs14
          clear_value key13
          clear_value d12
          refine Touch.ite ?_ ?_
          · exact (Touch.refl ..).to (opReject_touch ..) rfl
          · split
            · rename_i x16 heq17
              exact (Touch.refl ..).to (opReject_touch ..) rfl
            · rename_i x18 t19 heq20
              refine Touch.ite ?_ ?_
              · exact Touch.refl ..
              · exact (Touch.refl ..).to (putFill_touch ..) rfl
      · rename_i x21 heq22
        exact (Touch.refl ..).to (opReject_touch ..) rfl
    · exact Touch.refl ..
  · rename_i x23 heq24
    exact Touch.refl ..

theorem catRows_touch (s rq t tau w g a) : Touch 209919280151 s (State.catRows s rq t tau w g a).2.2.2 := by
  induction a generalizing s rq t tau w g
  · unfold State.catRows
    refine Touch.red3 ?_
    refine Touch.red2 ?_
    refine Touch.red1 ?_
    exact Touch.refl ..
  · rename_i head0 tail1 tailih2
    unfold State.catRows
    split
    · rename_i x3 xs4 fst5 s6 heq7
      have h8 : Touch 209919280151 s s6 := Touch.of222 heq7 ((Touch.refl ..).to (readVals_touch ..) rfl)
      split
      · rename_i x9 l10 nans11 s12 heq13
        have h14 : Touch 209919280151 s s12 := Touch.of222 heq13 ((h8).to (tailih2 _ _ _ _ _ _) rfl)
        extract_lets r15
        clear_value r15
        refine Touch.red3 ?_
        refine Touch.red2 ?_
        refine Touch.red1 ?_
        exact h14
      · rename_i x16 x17
        exact (h8).to (tailih2 _ _ _ _ _ _) rfl
    · rename_i x18 e19 fst20 fst21 s22 x23 heq24
      have h25 : Touch 209919280151 s s22 := Touch.of222 heq24 ((Touch.refl ..).to (readVals_touch ..) rfl)
      refine Touch.red3 ?_
      refine Touch.red2 ?_
      refine Touch.red1 ?_
      exact h25

theorem execFillCategorical_touch (op engine s) {t : State} (e : execFillCategorical op engine s = .next t) :
    Touch 214747054071 s t := by
  refine run_touch e rfl fun u => ?_
  unfold State.withFill
  unfold State.withOp
  split
  · rename_i x0 o1 heq2
    refine Touch.ite ?_ ?_
    · beta_reduce
      unfold State.withJob
      split
      · rename_i x3 slot4 j5 heq6
        beta_reduce
        split
        · rename_i x7 heq8
          exact (Touch.refl ..).to (opReject_touch ..) rfl
        · rename_i x9 bs10 heq11
          extract_lets d12 key13 tau14 w15 g16 per17
          clear_value per17
          clear_value g16
          clear_value w15
          clear_value tau14
          clear_value key13
          clear_value d12
          refine Touch.ite ?_ ?_
          · exact (Touch.refl ..).to (opReject_touch ..) rfl
          · split
            · rename_i x18 heq19
              exact (Touch.refl ..).to (opReject_touch ..) rfl
            · rename_i x20 t21 heq22
              refine Touch.ite ?_ ?_
              · exact Touch.refl ..
              · split
                · rename_i x23 heq24
                  exact (Touch.refl ..).to (opReject_touch ..) rfl
                · rename_i x25 t26 heq27
                  refine Touch.ite ?_ ?_
                  · exact (Touch.refl ..).to (opReject_touch ..) rfl
                  · split
                    · rename_i x28 cols29 nans30 s31 heq32
                      have h33 : Touch 214747054071 u s31 := Touch.of222 heq32 ((Touch.refl ..).to (catRows_touch ..) rfl)
                      extract_lets s34
                      have h35 : Touch 214747054071 u s34 := by
                        unfold s34
                        refine Touch.foldl ?_ (fun t36 a37 h38 => ?_)
                        · exact h33
                        · exact (h38).to (event_touch ..) rfl
                      clear_value s34
                      exact (h35).to (putFill_touch ..) rfl
                    · rename_i x39 e40 fst41 fst42 s43 x44 heq45
                      have h46 : Touch 214747054071 u s43 := Touch.of222 heq45 ((Touch.refl ..).to (catRows_touch ..) rfl)
                      exact (h46).to (opAbortAt_touch ..) rfl
      · rename_i x47 heq48
        exact (Touch.refl ..).to (opReject_touch ..) rfl
    · exact Touch.refl ..
  · rename_i x49 heq50
    exact Touch.refl ..

/-! ### Move -/

theorem quantPass_touch (s rq j t w spans) : Touch 209952869911 s (State.quantPass s rq j t w spans).2.2 := by
  unfold State.quantPass
  extract_lets q0
  clear_value q0
  split
  rename_i x1 e2 s3 heq4
  have h5 : Touch 209952869911 s s3 := Touch.of2 heq4 ((Touch.refl ..).to (writeQuant_touch ..) rfl)
  refine Touch.red2 ?_
  refine Touch.red1 ?_
  exact ((h5).to (loadRot_touch ..) rfl).to (addF_touch_in (k := 25) _ _ _ rfl) rfl

theorem writeTile_touch (s rq slot t w spans) : Touch 209969647255 s (State.writeTile s rq slot t w spans).2 := by
  unfold State.writeTile
  extract_lets s0 j1
  have h2 : Touch 209969647255 s s0 := (Touch.refl ..).to (keepRungUp_touch ..) rfl
  clear_value s0
  clear_value j1
  split
  · rename_i x3 q4 s5 heq6
    have h7 : Touch 209969647255 s s5 := Touch.of22 heq6 ((h2).to (quantPass_touch ..) rfl)
    split
    rename_i x8 widen9 s10 heq11
    have h12 : Touch 209969647255 s s10 := Touch.of2 heq11 ((h7).to (afterWrite_touch ..) rfl)
    refine Touch.ite2 ?_ ?_
    · refine Touch.red1 ?_
      exact h12
    · split
      · rename_i x13 q14 s15 heq16
        have h17 : Touch 209969647255 s s15 := Touch.of22 heq16 ((h12).to (quantPass_touch ..) rfl)
        refine Touch.red1 ?_
        exact ((h17).to (modJob_touch ..) rfl).to (noteWiden_touch ..) rfl
      · rename_i x18 e19 fst20 s21 x22 heq23
        have h24 : Touch 209969647255 s s21 := Touch.of22 heq23 ((h12).to (quantPass_touch ..) rfl)
        refine Touch.red1 ?_
        exact h24
  · rename_i x25 e26 fst27 s28 x29 heq30
    have h31 : Touch 209969647255 s s28 := Touch.of22 heq30 ((h2).to (quantPass_touch ..) rfl)
    refine Touch.red1 ?_
    exact h31

theorem writeScaled_touch (s rq slot t w spans) : Touch 209969647255 s (State.writeScaled s rq slot t w spans).2 := by
  unfold State.writeScaled
  refine Touch.foldl2 ?_ (fun b0 t1 a2 h3 => ?_)
  · refine Touch.red1 ?_
    exact Touch.refl ..
  · refine Touch.ite2 ?_ ?_
    · refine Touch.red1 ?_
      exact h3
    · refine Touch.to ?_ (writeTile_touch ..) rfl
      refine Touch.red1 ?_
      exact h3

theorem putA64_touch (s rq t p step vals ovf) : Touch 209919314967 s (State.putA64 s rq t p step vals ovf).2 := by
  unfold State.putA64
  extract_lets place0
  clear_value place0
  refine Touch.foldl2 ?_ (fun b1 t2 a3 h4 => ?_)
  · refine Touch.red1 ?_
    exact Touch.refl ..
  · refine Touch.ite2 ?_ ?_
    · refine Touch.red1 ?_
      exact h4
    · split
      · rename_i x5 h6 s7 heq8
        have h9 : Touch 209919314967 s s7 := by
          refine Touch.of22 heq8 ?_
          refine Touch.to ?_ (readHdr_touch ..) rfl
          refine Touch.red1 ?_
          exact h4
        extract_lets mine10 h11
        clear_value h11
        clear_value mine10
        exact (h9).to (devWrites_touch ..) rfl
      · rename_i x12 e13 fst14 s15 x16 heq17
        have h18 : Touch 209919314967 s s15 := by
          refine Touch.of22 heq17 ?_
          refine Touch.to ?_ (readHdr_touch ..) rfl
          refine Touch.red1 ?_
          exact h4
        refine Touch.red1 ?_
        exact h18

theorem readForA64_touch (s rq t p n) : Touch 209919280151 s (State.readForA64 s rq t p n).2.2.2 := by
  unfold State.readForA64
  refine Touch.ite222 ?_ ?_
  · split
    · rename_i x0 xs1 s2 heq3
      have h4 : Touch 209919280151 s s2 := Touch.of22 heq3 ((Touch.refl ..).to (readA64s_touch ..) rfl)
      refine Touch.red3 ?_
      refine Touch.red2 ?_
      refine Touch.red1 ?_
      exact h4
    · rename_i x5 e6 fst7 s8 x9 heq10
      have h11 : Touch 209919280151 s s8 := Touch.of22 heq10 ((Touch.refl ..).to (readA64s_touch ..) rfl)
      refine Touch.red3 ?_
      refine Touch.red2 ?_
      refine Touch.red1 ?_
      exact h11
  · split
    · rename_i x12 vs13 fst14 s15 heq16
      have h17 : Touch 209919280151 s s15 := Touch.of222 heq16 ((Touch.refl ..).to (readVals_touch ..) rfl)
      refine Touch.red3 ?_
      refine Touch.red2 ?_
      refine Touch.red1 ?_
      exact h17
    · rename_i x18 e19 fst20 fst21 s22 x23 heq24
      have h25 : Touch 209919280151 s s22 := Touch.of222 heq24 ((Touch.refl ..).to (readVals_touch ..) rfl)
      refine Touch.red3 ?_
      refine Touch.red2 ?_
      refine Touch.red1 ?_
      exact h25

theorem putWide_touch (s rq t p mode vals) : Touch 209919314967 s (State.putWide s rq t p mode vals).2.2 := by
  unfold State.putWide
  refine Touch.ite22 ?_ ?_
  · split
    · rename_i x0 ec1 s2 heq3
      have h4 : Touch 209919314967 s s2 := Touch.of22 heq3 ((Touch.refl ..).to (i32Exp_touch ..) rfl)
      extract_lets xs5
      clear_value xs5
      split
      rename_i x6 e7 s8 heq9
      have h10 : Touch 209919314967 s s8 := Touch.of2 heq9 ((h4).to (devWrites_touch ..) rfl)
      refine Touch.red2 ?_
      refine Touch.red1 ?_
      exact h10
    · rename_i x11 e12 fst13 s14 x15 heq16
      have h17 : Touch 209919314967 s s14 := Touch.of22 heq16 ((Touch.refl ..).to (i32Exp_touch ..) rfl)
      refine Touch.red2 ?_
      refine Touch.red1 ?_
      exact h17
  · split
    rename_i x18 e19 s20 heq21
    have h22 : Touch 209919314967 s s20 := Touch.of2 heq21 ((Touch.refl ..).to (devWrites_touch ..) rfl)
    refine Touch.red2 ?_
    refine Touch.red1 ?_
    exact h22

theorem moveToA64_touch (s op rq c src dst qs) : Touch 214742859767 s (State.moveToA64 s op rq c src dst qs) := by
  unfold State.moveToA64
  extract_lets n0
  clear_value n0
  split
  · rename_i x1 vals2 ovf3 s4 heq5
    have h6 : Touch 214742859767 s s4 := Touch.of222 heq5 ((Touch.refl ..).to (readForA64_touch ..) rfl)
    extract_lets s7
    have h8 : Touch 214742859767 s s7 := by
      unfold s7
      refine Touch.ite ?_ ?_
      · exact (h6).to (srcMismatches_touch ..) rfl
      · exact h6
    clear_value s7
    split
    rename_i x9 e10 s11 heq12
    have h13 : Touch 214742859767 s s11 := Touch.of2 heq12 ((h8).to (putA64_touch ..) rfl)
    exact (h13).to (opEnd_touch ..) rfl
  · rename_i x14 e15 fst16 fst17 s18 x19 heq20
    have h21 : Touch 214742859767 s s18 := Touch.of222 heq20 ((Touch.refl ..).to (readForA64_touch ..) rfl)
    exact (h21).to (opAbortAt_touch ..) rfl

theorem moveToOther_touch (s op slot rq j c src dst qs) : Touch 214742859767 s (State.moveToOther s op slot rq j c src dst qs) := by
  unfold State.moveToOther
  extract_lets n0 p1
  clear_value p1
  clear_value n0
  split
  · rename_i x2 vs3 fst4 s5 heq6
    have h7 : Touch 214742859767 s s5 := Touch.of222 heq6 ((Touch.refl ..).to (readVals_touch ..) rfl)
    extract_lets s8 key9 w10
    have h11 : Touch 214742859767 s s8 := by
      unfold s8
      refine Touch.ite ?_ ?_
      · exact (h7).to (srcMismatches_touch ..) rfl
      · exact h7
    clear_value s8
    clear_value w10
    clear_value key9
    refine Touch.ite ?_ ?_
    · split
      rename_i x12 e13 s14 heq15
      have h16 : Touch 214742859767 s s14 := Touch.of2 heq15 ((h11).to (writeScaled_touch ..) rfl)
      exact (h16).to (opEnd_touch ..) rfl
    · split
      rename_i x17 e18 sat19 s20 heq21
      have h22 : Touch 214742859767 s s20 := Touch.of22 heq21 ((h11).to (putWide_touch ..) rfl)
      refine Touch.ite ?_ ?_
      · exact (h22).to (opDone_touch ..) rfl
      · exact (h22).to (opEnd_touch ..) rfl
  · rename_i x23 e24 fst25 fst26 s27 x28 heq29
    have h30 : Touch 214742859767 s s27 := Touch.of222 heq29 ((Touch.refl ..).to (readVals_touch ..) rfl)
    exact (h30).to (opAbortAt_touch ..) rfl

theorem doMove_touch (s op slot rq j c src dst qs) : Touch 214742859767 s (State.doMove s op slot rq j c src dst qs) := by
  unfold State.doMove
  refine Touch.ite ?_ ?_
  · exact (Touch.refl ..).to (moveToA64_touch ..) rfl
  · exact (Touch.refl ..).to (moveToOther_touch ..) rfl

theorem execMove_touch (op mover s) {t : State} (e : execMove op mover s = .next t) :
    Touch 214747054071 s t := by
  refine run_touch e rfl fun u => ?_
  unfold State.withOp
  split
  · rename_i x0 o1 heq2
    refine Touch.ite ?_ ?_
    · beta_reduce
      unfold State.withJob
      split
      · rename_i x3 slot4 j5 heq6
        beta_reduce
        extract_lets j7 rq8
        clear_value rq8
        clear_value j7
        split
        · rename_i x9 x10 src11 dst12 heq13 heq14
          split
          rename_i x15 form16 qs17 s18 heq19
          have h20 : Touch 214747054071 u s18 := by
            refine Touch.of22 heq19 ?_
            refine Touch.ite22 ?_ ?_
            · exact (Touch.refl ..).to (readRec_touch ..) rfl
            · refine Touch.red2 ?_
              refine Touch.red1 ?_
              exact Touch.refl ..
          refine Touch.ite ?_ ?_
          · exact (h20).to (opStop_touch ..) rfl
          · split
            · rename_i x21 snd22 heq23
              refine Touch.ite ?_ ?_
              · exact (h20).to (opDone_touch ..) rfl
              · exact (h20).to (doMove_touch ..) rfl
            · rename_i x24 e25 d26 x27 heq28
              exact (h20).to (opReject_touch ..) rfl
        · rename_i x29 x30 heq31
          exact (Touch.refl ..).to (opReject_touch ..) rfl
        · rename_i x32 x33 heq34 x35
          exact (Touch.refl ..).to (opReject_touch ..) rfl
      · rename_i x36 heq37
        exact (Touch.refl ..).to (opReject_touch ..) rfl
    · exact Touch.refl ..
  · rename_i x38 heq39
    exact Touch.refl ..

/-! ### Update -/

theorem readAll_touch (s rq a) : Touch 209919280151 s (State.readAll s rq a).2.2.2 := by
  induction a generalizing s rq
  · unfold State.readAll
    refine Touch.red3 ?_
    refine Touch.red2 ?_
    refine Touch.red1 ?_
    exact Touch.refl ..
  · rename_i head0 tail1 tailih2
    unfold State.readAll
    split
    · rename_i x3 vs4 fst5 s6 heq7
      have h8 : Touch 209919280151 s s6 := Touch.of222 heq7 ((Touch.refl ..).to (readNoted_touch ..) rfl)
      split
      · rename_i x9 l10 a11 s12 heq13
        have h14 : Touch 209919280151 s s12 := Touch.of222 heq13 ((h8).to (tailih2 _ _) rfl)
        refine Touch.red3 ?_
        refine Touch.red2 ?_
        refine Touch.red1 ?_
        exact h14
      · rename_i x15 x16
        exact (h8).to (tailih2 _ _) rfl
    · rename_i x17 e18 fst19 fst20 s21 x22 heq23
      have h24 : Touch 209919280151 s s21 := Touch.of222 heq23 ((Touch.refl ..).to (readNoted_touch ..) rfl)
      refine Touch.red3 ?_
      refine Touch.red2 ?_
      refine Touch.red1 ?_
      exact h24

theorem writeWork_touch (s rq slot j t step scope vals) : Touch 209969647255 s (State.writeWork s rq slot j t step scope vals).2 := by
  unfold State.writeWork
  refine Touch.ite2 ?_ ?_
  · extract_lets w0
    clear_value w0
    exact (Touch.refl ..).to (writeScaled_touch ..) rfl
  · split
    rename_i x1 e2 fst3 s4 heq5
    have h6 : Touch 209969647255 s s4 := Touch.of22 heq5 ((Touch.refl ..).to (putWide_touch ..) rfl)
    refine Touch.red1 ?_
    exact h6

theorem noteGrad_touch (s slot t vals) : Touch 128 s (State.noteGrad s slot t vals) := by
  unfold State.noteGrad
  refine Touch.ite ?_ ?_
  · exact (Touch.refl ..).to (modJob_touch ..) rfl
  · exact Touch.refl ..

theorem noteUpdate_touch (s slot unit kind seed t outs) : Touch 206705852438 s (State.noteUpdate s slot unit kind seed t outs) := by
  unfold State.noteUpdate
  extract_lets s0 bad1 s2 h3 src4
  have h5 : Touch 206705852438 s s0 := (Touch.refl ..).to (setJf_touch _ _ _ _ (by decide)) rfl
  clear_value s0
  have h6 : Touch 206705852438 s s2 := by
    unfold s2
    refine Touch.ite ?_ ?_
    · exact (h5).to (event_touch ..) rfl
    · exact h5
  clear_value s2
  clear_value src4
  clear_value h3
  clear_value bad1
  refine Touch.ite ?_ ?_
  · exact Touch.set_fov (h6) rfl
  · exact h6

theorem doUpdate_touch (s op unit slot j c d r) : Touch 214742859767 s (State.doUpdate s op unit slot j c d r) := by
  unfold State.doUpdate
  extract_lets rq0
  clear_value rq0
  split
  · rename_i x1 ws2 ms3 vs4 gs5 fst6 s7 heq8
    have h9 : Touch 214742859767 s s7 := Touch.of222 heq8 ((Touch.refl ..).to (readAll_touch ..) rfl)
    extract_lets k10 outs11 writes12
    clear_value writes12
    clear_value outs11
    clear_value k10
    split
    · rename_i x13 s14 heq15
      have h16 : Touch 214742859767 s s14 := Touch.of2 heq15 ((h9).to (devWrites_touch ..) rfl)
      extract_lets s17
      have h18 : Touch 214742859767 s s17 := ((h16).to (noteGrad_touch ..) rfl).to (noteUpdate_touch ..) rfl
      clear_value s17
      split
      · rename_i x19 t20 heq21
        split
        rename_i x22 e23 s24 heq25
        have h26 : Touch 214742859767 s s24 := Touch.of2 heq25 ((h18).to (writeWork_touch ..) rfl)
        exact (h26).to (opEnd_touch ..) rfl
      · rename_i x27 heq28
        exact (h18).to (opDone_touch ..) rfl
    · rename_i x29 e30 s31 x32 heq33
      have h34 : Touch 214742859767 s s31 := Touch.of2 heq33 ((h9).to (devWrites_touch ..) rfl)
      exact (h34).to (opAbortAt_touch ..) rfl
  · rename_i x35 e36 fst37 a38 s39 x40 heq41
    have h42 : Touch 214742859767 s s39 := Touch.of222 heq41 ((Touch.refl ..).to (readAll_touch ..) rfl)
    exact (h42).to (opAbortAt_touch ..) rfl

theorem withUpdate_touch (s op unit kind) : Touch 214747054071 s (State.withUpdate s op unit kind) := by
  unfold State.withUpdate
  unfold State.withOp
  split
  · rename_i x0 o1 heq2
    refine Touch.ite ?_ ?_
    · beta_reduce
      unfold State.withJob
      split
      · rename_i x3 slot4 j5 heq6
        beta_reduce
        split
        · rename_i x7 heq8
          exact (Touch.refl ..).to (opReject_touch ..) rfl
        · rename_i x9 bs10 heq11
          extract_lets d12
          clear_value d12
          refine Touch.ite ?_ ?_
          · exact Touch.refl ..
          · split
            · rename_i x13 r14 heq15
              exact (Touch.refl ..).to (doUpdate_touch ..) rfl
            · rename_i x16 e17 off18 heq19
              exact (Touch.refl ..).to (opReject_touch ..) rfl
      · rename_i x20 heq21
        exact (Touch.refl ..).to (opReject_touch ..) rfl
    · exact Touch.refl ..
  · rename_i x22 heq23
    exact Touch.refl ..

theorem execUpdateAdamw_touch (op unit s) {t : State} (e : execUpdateAdamw op unit s = .next t) :
    Touch 214747054071 s t := by
  refine run_touch e rfl fun u => ?_
  exact (Touch.refl ..).to (withUpdate_touch ..) rfl

theorem execUpdateSgd_touch (op unit s) {t : State} (e : execUpdateSgd op unit s = .next t) :
    Touch 214747054071 s t := by
  refine run_touch e rfl fun u => ?_
  exact (Touch.refl ..).to (withUpdate_touch ..) rfl

theorem execUpdateCyleyAdamw_touch (op unit s) {t : State} (e : execUpdateCyleyAdamw op unit s = .next t) :
    Touch 214747054071 s t := by
  refine run_touch e rfl fun u => ?_
  exact (Touch.refl ..).to (withUpdate_touch ..) rfl

theorem rebuildWork_touch (s slot) : Touch 209969647255 s (State.rebuildWork s slot) := by
  unfold State.rebuildWork
  split
  · rename_i x0 heq1
    exact Touch.refl ..
  · rename_i x2 j3 heq4
    extract_lets todo5 step6 rq7 s8 s9
    have h10 : Touch 209969647255 s s8 := (Touch.refl ..).to (modJob_touch ..) rfl
    clear_value s8
    have h11 : Touch 209969647255 s s9 := by
      unfold s9
      refine Touch.foldl ?_ (fun t12 a13 h14 => ?_)
      · exact h10
      · split
        · rename_i x15 vs16 fst17 s18 heq19
          have h20 : Touch 209969647255 s s18 := Touch.of222 heq19 ((h14).to (readVals_touch ..) rfl)
          exact (h20).to (writeWork_touch ..) rfl
        · rename_i x21 e22 fst23 fst24 s25 x26 heq27
          have h28 : Touch 209969647255 s s25 := Touch.of222 heq27 ((h14).to (readVals_touch ..) rfl)
          exact h28
    clear_value s9
    clear_value rq7
    clear_value step6
    clear_value todo5
    exact (h11).to (modJob_touch ..) rfl

/-! ### Matinee -/

theorem snapMasters_touch (s rq m) : Touch 209919280151 s (State.snapMasters s rq m).2.2.2 := by
  unfold State.snapMasters
  split
  · rename_i x0 heq1
    refine Touch.red3 ?_
    refine Touch.red2 ?_
    refine Touch.red1 ?_
    exact Touch.refl ..
  · rename_i x2 it3 heq4
    extract_lets base5
    clear_value base5
    split
    rename_i x6 e7 vs8 fst9 s10 heq11
    have h12 : Touch 209919280151 s s10 := Touch.of222 heq11 ((Touch.refl ..).to (readVals_touch ..) rfl)
    refine Touch.red3 ?_
    refine Touch.red2 ?_
    refine Touch.red1 ?_
    exact h12

theorem rebuildCopies_touch (s rq slot j step a) : Touch 209969647255 s (State.rebuildCopies s rq slot j step a).2.2 := by
  induction a generalizing s rq slot j step
  · unfold State.rebuildCopies
    refine Touch.red2 ?_
    refine Touch.red1 ?_
    exact Touch.refl ..
  · rename_i head0 tail1 tailih2
    unfold State.rebuildCopies
    split
    · rename_i x3 vs4 fst5 s6 heq7
      have h8 : Touch 209969647255 s s6 := Touch.of222 heq7 ((Touch.refl ..).to (snapMasters_touch ..) rfl)
      split
      · rename_i x9 s10 heq11
        have h12 : Touch 209969647255 s s10 := by
          refine Touch.of2 heq11 ?_
          refine Touch.ite2 ?_ ?_
          · refine Touch.red1 ?_
            exact h8
          · exact (h8).to (writeWork_touch ..) rfl
        exact (h12).to (tailih2 _ _ _ _ _) rfl
      · rename_i x13 e14 s15 x16 heq17
        have h18 : Touch 209969647255 s s15 := by
          refine Touch.of2 heq17 ?_
          refine Touch.ite2 ?_ ?_
          · refine Touch.red1 ?_
            exact h8
          · exact (h8).to (writeWork_touch ..) rfl
        refine Touch.red2 ?_
        refine Touch.red1 ?_
        exact h18
    · rename_i x19 e20 fst21 a22 s23 x24 heq25
      have h26 : Touch 209969647255 s s23 := Touch.of222 heq25 ((Touch.refl ..).to (snapMasters_touch ..) rfl)
      refine Touch.red2 ?_
      refine Touch.red1 ?_
      exact h26

theorem rebuild_touch (s slot engine j i) : Touch 214742859767 s (State.rebuild s slot engine j i) := by
  unfold State.rebuild
  extract_lets todo0 s1
  have h2 : Touch 214742859767 s s1 := (Touch.refl ..).to (modJob_touch ..) rfl
  clear_value s1
  clear_value todo0
  split
  · rename_i x3 fst4 s5 heq6
    have h7 : Touch 214742859767 s s5 := Touch.of22 heq6 ((h2).to (rebuildCopies_touch ..) rfl)
    extract_lets s8
    have h9 : Touch 214742859767 s s8 := (h7).to (modJob_touch ..) rfl
    clear_value s8
    split
    · rename_i x10 o11 heq12
      exact Touch.set_ops (h9) rfl
    · rename_i x13 heq14
      exact h9
  · rename_i x15 e16 a17 s18 x19 heq20
    have h21 : Touch 214742859767 s s18 := Touch.of22 heq20 ((h2).to (rebuildCopies_touch ..) rfl)
    exact (h21).to (opAbortAt_touch ..) rfl

theorem execMatinee_touch (op s) {t : State} (e : execMatinee op s = .next t) :
    Touch 214747054071 s t := by
  refine run_touch e rfl fun u => ?_
  unfold State.withOp
  split
  · rename_i x0 o1 heq2
    refine Touch.ite ?_ ?_
    · beta_reduce
      unfold State.withJob
      split
      · rename_i x3 slot4 j5 heq6
        beta_reduce
        extract_lets s7
        have h8 : Touch 214747054071 u s7 := (Touch.refl ..).to (modJob_touch ..) rfl
        clear_value s7
        refine Touch.ite ?_ ?_
        · exact (h8).to (opDone_touch ..) rfl
        · split
          · rename_i x9 e10 heq11
            exact (h8).to (rebuild_touch ..) rfl
          · rename_i x12 heq13
            exact (h8).to (opDone_touch ..) rfl
      · rename_i x14 heq15
        exact (Touch.refl ..).to (opReject_touch ..) rfl
    · exact Touch.refl ..
  · rename_i x16 heq17
    exact Touch.refl ..

theorem execMatineeRebuildRestart_touch (slot s) {t : State} (e : execMatineeRebuildRestart slot s = .next t) :
    Touch 214742859767 s t := by
  refine run_touch e rfl fun u => ?_
  split
  · rename_i x0 j1 heq2
    split
    · rename_i x3 e4 heq5
      refine Touch.foldl ?_ (fun t6 a7 h8 => ?_)
      · exact Touch.refl ..
      · exact (h8).to (rebuild_touch ..) rfl
    · rename_i x9 heq10
      exact Touch.refl ..
  · rename_i x11 heq12
    exact Touch.refl ..

/-! ### Steps -/

theorem placeSamples_touch (s slot j) : Touch 209919314967 s (State.placeSamples s slot j) := by
  unfold State.placeSamples
  extract_lets rq0
  clear_value rq0
  refine Touch.foldl ?_ (fun t1 a2 h3 => ?_)
  · exact Touch.refl ..
  · split
    · rename_i x4 heq5
      exact h3
    · rename_i x6 t7 heq8
      refine Touch.foldl ?_ (fun t9 a10 h11 => ?_)
      · exact h3
      · refine Touch.ite ?_ ?_
        · exact h11
        · split
          · rename_i x12 bs13 s14 heq15
            have h16 : Touch 209919314967 s s14 := Touch.of22 heq15 ((h11).to (devRead_touch ..) rfl)
            exact (h16).to (devWrite_touch ..) rfl
          · rename_i x17 fst18 fst19 s20 x21 heq22
            have h23 : Touch 209919314967 s s20 := Touch.of22 heq22 ((h11).to (devRead_touch ..) rfl)
            exact h23

theorem markPending_touch (s slot j) : Touch 32768 s (State.markPending s slot j) := by
  unfold State.markPending
  refine Touch.ite ?_ ?_
  · exact Touch.refl ..
  · extract_lets s0
    have h1 : Touch 32768 s s0 := by
      unfold s0
      refine Touch.foldl ?_ (fun t2 a3 h4 => ?_)
      · exact Touch.refl ..
      · exact (h4).to (markItem_touch ..) rfl
    clear_value s0
    refine Touch.foldl ?_ (fun t5 a6 h7 => ?_)
    · exact h1
    · exact (h7).to (markItem_touch ..) rfl

theorem zeroTensor_touch (s slot j t) : Touch 209919314967 s (State.zeroTensor s slot j t) := by
  unfold State.zeroTensor
  extract_lets rq0 et1
  clear_value et1
  clear_value rq0
  refine Touch.ite ?_ ?_
  · exact (Touch.refl ..).to (devWrites_touch ..) rfl
  · exact (Touch.refl ..).to (devWrite_touch ..) rfl

theorem clearWatch_touch (s j i) : Touch 206697434135 s (State.clearWatch s j i) := by
  unfold State.clearWatch
  extract_lets a0 s1
  have h2 : Touch 206697434135 s s1 := (Touch.refl ..).to (ownWrite_touch ..) rfl
  clear_value s1
  clear_value a0
  exact (h2).to (ownWrite_touch ..) rfl

theorem loadKeys_touch (s step) : Touch 33554944 s (State.loadKeys s step) := by
  unfold State.loadKeys
  extract_lets h0 s1 src2
  have h3 : Touch 33554944 s s1 := ((Touch.refl ..).to (setF_touch_in (k := 25) _ _ _ rfl) rfl).to (setF_touch_in (k := 25) _ _ _ rfl) rfl
  clear_value s1
  clear_value src2
  clear_value h0
  refine Touch.ite ?_ ?_
  · exact Touch.set_rng (h3) rfl
  · exact h3

theorem joinAhead_touch (s slot epoch) : Touch 96 s (State.joinAhead s slot epoch) := by
  unfold State.joinAhead
  extract_lets join0
  clear_value join0
  refine Touch.to (N := 96) ?_ { Touch.refl _ s with queues := fun e => absurd e (by decide), ops := fun e => absurd e (by decide), sound := fun e => ⟨e.mem, e.regs, e.board⟩ } rfl
  exact Touch.refl ..

theorem openAttempt_touch (s slot j) : Touch 214742859767 s (State.openAttempt s slot j) := by
  unfold State.openAttempt
  extract_lets step0 epoch1 s2 j3 j4 j5 r6 s7 s8 s9 s10 s11 src12 s13 s14 s15 zero16 s17 s18 s19 s20
  have h21 : Touch 214742859767 s s2 := ((Touch.refl ..).to (loadKeys_touch ..) rfl).to (markPending_touch ..) rfl
  clear_value s2
  have h22 : Touch 214742859767 s s7 := (h21).to (setJob_touch ..) rfl
  clear_value s7
  have h23 : Touch 214742859767 s s8 := (((h22).to (addF_touch_in (k := 24) _ _ _ rfl) rfl).to (addF_touch_in (k := 24) _ _ _ rfl) rfl).to (addF_touch_in (k := 24) _ _ _ rfl) rfl
  clear_value s8
  have h24 : Touch 214742859767 s s9 := (h23).to (addF_touch_in (k := 25) _ _ _ rfl) rfl
  clear_value s9
  have h25 : Touch 214742859767 s s10 := (((h24).to (setJf_touch _ _ _ _ (by decide)) rfl).to (setF_touch_in (k := 24) _ _ _ rfl) rfl).to (setF_touch_in (k := 24) _ _ _ rfl) rfl
  clear_value s10
  have h26 : Touch 214742859767 s s11 := by
    unfold s11
    refine Touch.ite ?_ ?_
    · exact (h25).to (setF_touch_in (k := 27) _ _ _ rfl) rfl
    · exact h25
  clear_value s11
  have h27 : Touch 214742859767 s s13 := Touch.set_fov (h26) rfl
  clear_value s13
  have h28 : Touch 214742859767 s s14 := by
    unfold s14
    refine Touch.foldl ?_ (fun t29 a30 h31 => ?_)
    · exact h27
    · exact (h31).to (clearWatch_touch ..) rfl
  clear_value s14
  have h32 : Touch 214742859767 s s15 := by
    unfold s15
    refine Touch.ite ?_ ?_
    · exact (h28).to (rebuildWork_touch ..) rfl
    · exact h28
  clear_value s15
  have h33 : Touch 214742859767 s s17 := by
    unfold s17
    refine Touch.foldl ?_ (fun t34 a35 h36 => ?_)
    · exact h32
    · exact (h36).to (zeroTensor_touch ..) rfl
  clear_value s17
  have h37 : Touch 214742859767 s s18 := (h33).to (placeSamples_touch ..) rfl
  clear_value s18
  have h38 : Touch 214742859767 s s19 := ((h37).to (joinAhead_touch ..) rfl).to (setJf_touch _ _ _ _ (by decide)) rfl
  clear_value s19
  have h39 : Touch 214742859767 s s20 := ((h38).to (releaseApart_touch ..) rfl).to (restartStripes_touch ..) rfl
  clear_value s20
  clear_value zero16
  clear_value src12
  clear_value r6
  clear_value j5
  clear_value j4
  clear_value j3
  clear_value epoch1
  clear_value step0
  exact (h39).to (phaseStep_touch ..) rfl

theorem execAttemptOpen_touch (slot s) {t : State} (e : execAttemptOpen slot s = .next t) :
    Touch 214742859767 s t := by
  refine run_touch e rfl fun u => ?_
  split
  · rename_i x0 j1 heq2
    refine Touch.ite ?_ ?_
    · exact (Touch.refl ..).to (openAttempt_touch ..) rfl
    · exact Touch.refl ..
  · rename_i x3 heq4
    exact Touch.refl ..

theorem execRotationKeyLoad_touch (epoch s) {t : State} (e : execRotationKeyLoad epoch s = .next t) :
    Touch 516 s t := by
  refine run_touch e rfl fun u => ?_
  refine Touch.ite ?_ ?_
  · exact Touch.set_rng (Touch.refl ..) rfl
  · exact Touch.refl ..

theorem execMaxAttemptsReached_touch (slot s) {t : State} (e : execMaxAttemptsReached slot s = .next t) :
    Touch 206705786902 s t := by
  refine run_touch e rfl fun u => ?_
  split
  · rename_i x0 j1 heq2
    refine Touch.ite ?_ ?_
    · exact (Touch.refl ..).to (stopJob_touch ..) rfl
    · exact Touch.refl ..
  · rename_i x3 heq4
    exact Touch.refl ..

theorem raise_touch (s slot i rung) : Touch 206714211479 s (State.raise s slot i rung) := by
  unfold State.raise
  split
  · rename_i x0 heq1
    exact Touch.refl ..
  · rename_i x2 j3 heq4
    extract_lets f5 new6 first7 s8 s9 s10
    have h11 : Touch 206714211479 s s8 := (Touch.refl ..).to (setJob_touch ..) rfl
    clear_value s8
    have h12 : Touch 206714211479 s s9 := by
      unfold s9
      refine Touch.ite ?_ ?_
      · exact (h11).to (addF_touch_in (k := 24) _ _ _ rfl) rfl
      · exact h11
    clear_value s9
    have h13 : Touch 206714211479 s s10 := (h12).to (setWatchFlag_touch ..) rfl
    clear_value s10
    clear_value first7
    clear_value new6
    clear_value f5
    refine Touch.ite ?_ ?_
    · exact Touch.refl ..
    · exact (h13).to (ownNum_touch ..) rfl

theorem stormRule_touch (s slot) : Touch 206714211479 s (State.stormRule s slot) := by
  unfold State.stormRule
  split
  · rename_i x0 heq1
    exact Touch.refl ..
  · rename_i x2 j3 heq4
    refine Touch.ite ?_ ?_
    · exact Touch.refl ..
    · extract_lets begins5 s6
      have h7 : Touch 206714211479 s s6 := by
        unfold s6
        refine Touch.ite ?_ ?_
        · exact (((Touch.refl ..).to (setF_touch_in (k := 24) _ _ _ rfl) rfl).to (inc_touch_in (k := 24) _ _ rfl) rfl).to (event_touch ..) rfl
        · exact Touch.refl ..
      clear_value s6
      clear_value begins5
      refine Touch.ite ?_ ?_
      · refine Touch.foldl ?_ (fun t8 a9 h10 => ?_)
        · exact h7
        · refine Touch.ite ?_ ?_
          · exact (h10).to (raise_touch ..) rfl
          · exact h10
      · exact h7

theorem execMicroBatchBoundary_touch (slot mb s) {t : State} (e : execMicroBatchBoundary slot mb s = .next t) :
    Touch 206714211479 s t := by
  refine run_touch e rfl fun u => ?_
  unfold State.withOpen
  split
  · rename_i x0 j1 heq2
    refine Touch.ite ?_ ?_
    · beta_reduce
      refine Touch.ite ?_ ?_
      · exact Touch.refl ..
      · extract_lets s3 s4
        have h5 : Touch 206714211479 u s3 := (Touch.refl ..).to (setJob_touch ..) rfl
        clear_value s3
        have h6 : Touch 206714211479 u s4 := by
          unfold s4
          refine Touch.foldl ?_ (fun t7 a8 h9 => ?_)
          · exact h5
          · exact (h9).to (raise_touch ..) rfl
        clear_value s4
        exact (h6).to (stormRule_touch ..) rfl
    · exact Touch.refl ..
  · rename_i x10 heq11
    exact Touch.refl ..

theorem localS_touch (s rq j a a1) : Touch 209919280151 s (State.localS s rq j a a1).2.2.2 := by
  induction a generalizing s rq j a1
  · unfold State.localS
    refine Touch.red3 ?_
    refine Touch.red2 ?_
    refine Touch.red1 ?_
    exact Touch.refl ..
  · rename_i head0 tail1 tailih2
    unfold State.localS
    split
    · rename_i x3 c4 heq5
      exact (Touch.refl ..).to (tailih2 _ _ _ _) rfl
    · rename_i x6 heq7
      split
      · rename_i x8 v9 fst10 s11 heq12
        have h13 : Touch 209919280151 s s11 := Touch.of222 heq12 ((Touch.refl ..).to (sumOf_touch ..) rfl)
        exact (h13).to (tailih2 _ _ _ _) rfl
      · rename_i x14 e15 fst16 a17 s18 x19 heq20
        have h21 : Touch 209919280151 s s18 := Touch.of222 heq20 ((Touch.refl ..).to (sumOf_touch ..) rfl)
        refine Touch.red3 ?_
        refine Touch.red2 ?_
        refine Touch.red1 ?_
        exact h21

theorem curtainSends_touch (s line counts votes) : Touch 268439552 s (State.curtainSends s line counts votes) := by
  unfold State.curtainSends
  extract_lets ec0 s1 s2 s3
  have h4 : Touch 268439552 s s1 := by
    unfold s1
    refine Touch.ite ?_ ?_
    · exact (Touch.refl ..).to (inc_touch_in (k := 28) _ _ rfl) rfl
    · exact Touch.refl ..
  clear_value s1
  have h5 : Touch 268439552 s s2 := (h4).to (sendSteps_touch ..) rfl
  clear_value s2
  have h6 : Touch 268439552 s s3 := (h5).to (sendSteps_touch ..) rfl
  clear_value s3
  clear_value ec0
  exact ((h6).to (sendSteps_touch ..) rfl).to (sendSteps_touch ..) rfl

theorem rehearse_touch (s slot j normS) : Touch 210053497879 s (State.rehearse s slot j normS).2 := by
  unfold State.rehearse
  extract_lets p0 loss1
  clear_value loss1
  clear_value p0
  split
  · rename_i x2 heq3
    refine Touch.red1 ?_
    exact ((Touch.refl ..).to (inc_touch_in (k := 27) _ _ rfl) rfl).to (event_touch ..) rfl
  · rename_i x4 w5 heq6
    split
    rename_i x7 book8 s9 heq10
    have h11 : Touch 210053497879 s s9 := Touch.of2 heq10 ((Touch.refl ..).to (readBook_touch ..) rfl)
    extract_lets exact12 tol13 same14
    clear_value same14
    clear_value tol13
    clear_value exact12
    refine Touch.ite2 ?_ ?_
    · refine Touch.red1 ?_
      exact h11
    · refine Touch.red1 ?_
      exact ((h11).to (inc_touch_in (k := 27) _ _ rfl) rfl).to (event_touch ..) rfl

theorem curtain_touch (s slot j peers) : Touch 214742859767 s (State.curtain s slot j peers) := by
  unfold State.curtain
  split
  · rename_i x0 v1 fst2 s3 heq4
    have h5 : Touch 214742859767 s s3 := Touch.of222 heq4 ((Touch.refl ..).to (localS_touch ..) rfl)
    extract_lets line6 lineS7 total8 sum9 nfNorm10 ints11 cause12 normS13
    clear_value normS13
    clear_value cause12
    clear_value ints11
    clear_value nfNorm10
    clear_value sum9
    clear_value total8
    clear_value lineS7
    clear_value line6
    split
    rename_i x14 p15 f16 heq17
    extract_lets s18
    have h19 : Touch 214742859767 s s18 := (h5).to (curtainSends_touch ..) rfl
    clear_value s18
    refine Touch.ite ?_ ?_
    · exact (h19).to (abandon_touch ..) rfl
    · split
      rename_i x20 bad21 s22 heq23
      have h24 : Touch 214742859767 s s22 := by
        refine Touch.of2 heq23 ?_
        refine Touch.ite2 ?_ ?_
        · exact (h19).to (rehearse_touch ..) rfl
        · refine Touch.red1 ?_
          exact h19
      split
      rename_i x25 p26 f27 heq28
      extract_lets s29 vote30 src31 s32
      have h33 : Touch 214742859767 s s29 := by
        unfold s29
        refine Touch.ite ?_ ?_
        · exact (h24).to (watchClose_touch ..) rfl
        · exact h24
      clear_value s29
      have h34 : Touch 214742859767 s s32 := Touch.set_ckp (h33) rfl
      clear_value s32
      clear_value src31
      clear_value vote30
      exact (((h34).to (modJob_touch ..) rfl).to (setJf_touch _ _ _ _ (by decide)) rfl).to (phaseStep_touch ..) rfl
  · rename_i x35 e36 fst37 a38 s39 x40 heq41
    have h42 : Touch 214742859767 s s39 := Touch.of222 heq41 ((Touch.refl ..).to (localS_touch ..) rfl)
    exact (h42).to (opFailed_touch ..) rfl

theorem execCurtain_touch (slot peers s) {t : State} (e : execCurtain slot peers s = .next t) :
    Touch 214742859767 s t := by
  refine run_touch e rfl fun u => ?_
  unfold State.withOpen
  split
  · rename_i x0 j1 heq2
    refine Touch.ite ?_ ?_
    · beta_reduce
      refine Touch.ite ?_ ?_
      · exact Touch.refl ..
      · exact (Touch.refl ..).to (curtain_touch ..) rfl
    · exact Touch.refl ..
  · rename_i x3 heq4
    exact Touch.refl ..

theorem pushHistory_touch (s slot j h a) : Touch 206697434263 s (State.pushHistory s slot j h a) := by
  unfold State.pushHistory
  extract_lets new0
  clear_value new0
  refine Touch.ite ?_ ?_
  · exact (Touch.refl ..).to (ownWrite_touch ..) rfl
  · exact ((Touch.refl ..).to (modJob_touch ..) rfl).to (markItem_touch ..) rfl

theorem pushHistories_touch (s slot j) : Touch 206697434263 s (State.pushHistories s slot j) := by
  unfold State.pushHistories
  refine Touch.foldl ?_ (fun t0 a1 h2 => ?_)
  · exact Touch.refl ..
  · split
    · rename_i x3 x4 t5 a6 heq7 heq8
      refine Touch.ite ?_ ?_
      · exact h2
      · exact (h2).to (pushHistory_touch ..) rfl
    · rename_i x9 x10 x11
      exact h2

theorem closeWatch_touch (s j i step) : Touch 206697434135 s (State.closeWatch s j i step) := by
  unfold State.closeWatch
  extract_lets a0 s1 s2 s3 s4 watched5
  have h6 : Touch 206697434135 s s1 := (Touch.refl ..).to (ownNum_touch ..) rfl
  clear_value s1
  have h7 : Touch 206697434135 s s2 := (h6).to (addWatch_touch ..) rfl
  clear_value s2
  have h8 : Touch 206697434135 s s3 := (h7).to (addWatch_touch ..) rfl
  clear_value s3
  have h9 : Touch 206697434135 s s4 := (h8).to (addWatch_touch ..) rfl
  clear_value s4
  clear_value watched5
  clear_value a0
  split
  · rename_i x10 heq11
    exact (h9).to (addWatch_touch ..) rfl
  · rename_i x12 val13 x14 heq15
    exact ((h9).to (ownNum_touch ..) rfl).to (setWatchFlag_touch ..) rfl
  · rename_i x16 heq17
    exact h9

theorem releaseOutbound_touch (s slot j) : Touch 209927707831 s (State.releaseOutbound s slot j) := by
  unfold State.releaseOutbound
  split
  rename_i x0 out1 stay2 heq3
  extract_lets s4 s5
  have h6 : Touch 209927707831 s s4 := by
    unfold s4
    refine Touch.foldl ?_ (fun t7 a8 h9 => ?_)
    · exact Touch.refl ..
    · split
      · rename_i x10 q11 r12 heq13
        exact (h9).to (putRecord_touch ..) rfl
      · rename_i x14 a15 bs16 heq17
        exact (h9).to (devWrite_touch ..) rfl
      · rename_i x18 p19 msg20 heq21
        exact (h9).to (sendPut_touch ..) rfl
  clear_value s4
  have h22 : Touch 209927707831 s s5 := (h6).to (modJob_touch ..) rfl
  clear_value s5
  exact (h22).to (setJf_touch _ _ _ _ (by decide)) rfl

theorem witness_touch (s slot j step) : Touch 32896 s (State.witness s slot j step) := by
  unfold State.witness
  extract_lets w0 src1 s2
  have h3 : Touch 32896 s s2 := Touch.set_ckp (Touch.refl ..) rfl
  clear_value s2
  clear_value src1
  clear_value w0
  split
  · rename_i x4 c5 heq6
    exact (h3).to (modJob_touch ..) rfl
  · rename_i x7 heq8
    exact h3

theorem decideInterval_touch (s slot must) : Touch 75530240 s (State.decideInterval s slot must) := by
  unfold State.decideInterval
  extract_lets due0 n1 s2 src3
  have h4 : Touch 75530240 s s2 := ((Touch.refl ..).to (setF_touch_in (k := 26) _ _ _ rfl) rfl).to (inc_touch_in (k := 26) _ _ rfl) rfl
  clear_value s2
  clear_value src3
  clear_value n1
  clear_value due0
  refine Touch.ite ?_ ?_
  · exact Touch.refl ..
  · refine Touch.ite ?_ ?_
    · exact ((Touch.refl ..).to (setJf_touch _ _ _ _ (by decide)) rfl).to (beginInterval_touch ..) rfl
    · exact Touch.set_ckp (h4) rfl

theorem takeVote_touch (s slot failed) : Touch 210020060375 s (State.takeVote s slot failed) := by
  unfold State.takeVote
  split
  · rename_i x0 v1 heq2
    extract_lets src3 s4
    have h5 : Touch 210020060375 s s4 := Touch.set_ckp (Touch.refl ..) rfl
    clear_value s4
    clear_value src3
    exact (h5).to (applyVote_touch ..) rfl
  · rename_i x6 heq7
    exact Touch.refl ..

theorem openVote_touch (s t) : Touch 65536 s (State.openVote s t) := by
  unfold State.openVote
  refine Touch.ite ?_ ?_
  · exact Touch.set_fov (Touch.refl ..) rfl
  · exact Touch.refl ..

theorem commitCkp_touch (s slot failed) : Touch 210028448983 s (State.commitCkp s slot failed) := by
  unfold State.commitCkp
  refine Touch.ite ?_ ?_
  · exact Touch.refl ..
  · extract_lets must0 src1 s2 s3
    have h4 : Touch 210028448983 s s2 := Touch.set_ckp (Touch.refl ..) rfl
    clear_value s2
    have h5 : Touch 210028448983 s s3 := (h4).to (takeVote_touch ..) rfl
    clear_value s3
    clear_value src1
    clear_value must0
    exact ((h5).to (openVote_touch ..) rfl).to (decideInterval_touch ..) rfl

theorem rehearsed_touch (s) : Touch 134283264 s (State.rehearsed s) := by
  unfold State.rehearsed
  refine Touch.ite ?_ ?_
  · extract_lets src0 src1
    have h2 : Touch 134283264 s src0 := ((Touch.refl ..).to (setF_touch_in (k := 27) _ _ _ rfl) rfl).to (inc_touch_in (k := 27) _ _ rfl) rfl
    clear_value src0
    clear_value src1
    exact Touch.set_fov (h2) rfl
  · exact Touch.refl ..

theorem commit_touch (s slot j) : Touch 214742859767 s (State.commit s slot j) := by
  unfold State.commit
  extract_lets step0 failed1 next2 epoch3 s4 s5 s6 s7 s8 s9 s10 s11 s12 s13 s14 s15 s16 s17
  have h18 : Touch 214742859767 s s4 := (Touch.refl ..).to (pushHistories_touch ..) rfl
  clear_value s4
  have h19 : Touch 214742859767 s s5 := by
    unfold s5
    refine Touch.foldl ?_ (fun t20 a21 h22 => ?_)
    · exact h18
    · exact (h22).to (closeWatch_touch ..) rfl
  clear_value s5
  have h23 : Touch 214742859767 s s6 := (h19).to (setV_touch ..) rfl
  clear_value s6
  have h24 : Touch 214742859767 s s7 := by
    unfold s7
    refine Touch.ite ?_ ?_
    · exact (h23).to (witness_touch ..) rfl
    · exact h23
  clear_value s7
  have h25 : Touch 214742859767 s s8 := by
    unfold s8
    refine Touch.ite ?_ ?_
    · exact h24
    · exact (h24).to (watchClose_touch ..) rfl
  clear_value s8
  have h26 : Touch 214742859767 s s9 := ((h25).to (setJf_touch _ _ _ _ (by decide)) rfl).to (setJf_touch _ _ _ _ (by decide)) rfl
  clear_value s9
  have h27 : Touch 214742859767 s s10 := (h26).to (releaseOutbound_touch ..) rfl
  clear_value s10
  have h28 : Touch 214742859767 s s11 := (h27).to (modJob_touch ..) rfl
  clear_value s11
  have h29 : Touch 214742859767 s s12 := (h28).to (showCursor_touch ..) rfl
  clear_value s12
  have h30 : Touch 214742859767 s s13 := (h29).to (putRecord_touch ..) rfl
  clear_value s13
  have h31 : Touch 214742859767 s s14 := ((h30).to (dropApart_touch ..) rfl).to (releaseApart_touch ..) rfl
  clear_value s14
  have h32 : Touch 214742859767 s s15 := (((h31).to (rehearsed_touch ..) rfl).to (setJf_touch _ _ _ _ (by decide)) rfl).to (setF_touch_in (k := 24) _ _ _ rfl) rfl
  clear_value s15
  have h33 : Touch 214742859767 s s16 := (h32).to (commitCkp_touch ..) rfl
  clear_value s16
  have h34 : Touch 214742859767 s s17 := ((h33).to (restartStripes_touch ..) rfl).to (stepBoundary_touch ..) rfl
  clear_value s17
  clear_value epoch3
  clear_value next2
  clear_value failed1
  clear_value step0
  refine Touch.ite ?_ ?_
  · exact ((Touch.refl ..).to (abandon_touch ..) rfl).to (exportFallback_touch ..) rfl
  · refine Touch.ite ?_ ?_
    · exact ((h34).to (setJf_touch _ _ _ _ (by decide)) rfl).to (modJob_touch ..) rfl
    · exact h34

theorem execCommit_touch (slot s) {t : State} (e : execCommit slot s = .next t) :
    Touch 214742859767 s t := by
  refine run_touch e rfl fun u => ?_
  unfold State.withOpen
  split
  · rename_i x0 j1 heq2
    refine Touch.ite ?_ ?_
    · beta_reduce
      refine Touch.ite ?_ ?_
      · exact (Touch.refl ..).to (commit_touch ..) rfl
      · exact Touch.refl ..
    · exact Touch.refl ..
  · rename_i x3 heq4
    exact Touch.refl ..

theorem execSilenceReached_touch (slot tensor s) {t : State} (e : execSilenceReached slot tensor s = .next t) :
    Touch 206714211351 s t := by
  refine run_touch e rfl fun u => ?_
  split
  · rename_i x0 j1 heq2
    extract_lets a3 flags4 n5
    clear_value n5
    clear_value flags4
    clear_value a3
    refine Touch.ite ?_ ?_
    · exact Touch.refl ..
    · exact (((Touch.refl ..).to (setWatchFlag_touch ..) rfl).to (inc_touch_in (k := 24) _ _ rfl) rfl).to (event_touch ..) rfl
  · rename_i x6 heq7
    exact Touch.refl ..

/-! ### Failover -/

theorem askBook_touch (s c addr n what) : Touch 69632 s (State.askBook s c addr n what) := by
  unfold State.askBook
  split
  · rename_i x0 p1 heq2
    exact (Touch.refl ..).to (sendRequest_touch ..) rfl
  · rename_i x3 heq4
    exact Touch.set_fov (Touch.refl ..) rfl

theorem execUnderstudyBookRead_touch (s) {t : State} (e : execUnderstudyBookRead s = .next t) :
    Touch 69636 s t := by
  refine run_touch e rfl fun u => ?_
  refine Touch.ite ?_ ?_
  · exact Touch.refl ..
  · extract_lets src0 s1 src2
    have h3 : Touch 69636 u s1 := Touch.set_fov (Touch.refl ..) rfl
    clear_value s1
    clear_value src2
    clear_value src0
    refine Touch.ite ?_ ?_
    · exact (h3).to (askBook_touch ..) rfl
    · exact Touch.set_fov (h3) rfl

theorem bookBytes_touch (s bs) : Touch 69632 s (State.bookBytes s bs) := by
  unfold State.bookBytes
  extract_lets book0 src1 s2 n3 src4
  have h5 : Touch 69632 s s2 := Touch.set_fov (Touch.refl ..) rfl
  clear_value s2
  clear_value src4
  clear_value n3
  clear_value src1
  clear_value book0
  refine Touch.ite ?_ ?_
  · exact (h5).to (askBook_touch ..) rfl
  · refine Touch.ite ?_ ?_
    · exact (h5).to (askBook_touch ..) rfl
    · exact Touch.set_fov (h5) rfl

theorem donorBytes_touch (s bs) : Touch 69632 s (State.donorBytes s bs) := by
  unfold State.donorBytes
  extract_lets donor0 src1 s2 k3 n4 src5
  have h6 : Touch 69632 s s2 := Touch.set_fov (Touch.refl ..) rfl
  clear_value s2
  clear_value src5
  clear_value n4
  clear_value k3
  clear_value src1
  clear_value donor0
  refine Touch.ite ?_ ?_
  · exact (h6).to (askBook_touch ..) rfl
  · split
    · rename_i x7 heq8
      exact h6
    · rename_i x9 j10 heq11
      refine Touch.ite ?_ ?_
      · exact Touch.set_fov (h6) rfl
      · extract_lets ents12
        clear_value ents12
        refine Touch.foldl ?_ (fun t13 a14 h15 => ?_)
        · exact h6
        · split
          · rename_i x16 d17 heq18
            exact (h15).to (getPieces_touch ..) rfl
          · rename_i x19 heq20
            exact Touch.set_fov (h15) rfl

theorem fillAnswer_touch (s o status bs) : Touch 209919384599 s (State.fillAnswer s o status bs) := by
  unfold State.fillAnswer
  refine Touch.ite ?_ ?_
  · exact Touch.set_fov (Touch.refl ..) rfl
  · refine Touch.ite ?_ ?_
    · split
      · rename_i x0 s1 heq2
        have h3 : Touch 209919384599 s s1 := Touch.of2 heq2 ((Touch.refl ..).to (devWrite_touch ..) rfl)
        exact h3
      · rename_i x4 fst5 s6 x7 heq8
        have h9 : Touch 209919384599 s s6 := Touch.of2 heq8 ((Touch.refl ..).to (devWrite_touch ..) rfl)
        exact Touch.set_fov (h9) rfl
    · split
      · rename_i x10 heq11
        exact (Touch.refl ..).to (bookBytes_touch ..) rfl
      · rename_i x12 heq13
        exact Touch.set_fov (Touch.refl ..) rfl
      · rename_i x14 x15 x16
        exact (Touch.refl ..).to (donorBytes_touch ..) rfl

theorem storedUnit_touch (s j u) : Touch 209952834583 s (State.storedUnit s j u).2 := by
  unfold State.storedUnit
  extract_lets head0
  clear_value head0
  refine Touch.ite2 ?_ ?_
  · refine Touch.red1 ?_
    exact Touch.refl ..
  · split
    · rename_i x1 raw2 s3 heq4
      have h5 : Touch 209952834583 s s3 := Touch.of22 heq4 ((Touch.refl ..).to (devRead_touch ..) rfl)
      refine Touch.ite2 ?_ ?_
      · refine Touch.red1 ?_
        exact h5
      · exact (h5).to (openObject_touch ..) rfl
    · rename_i x6 fst7 fst8 s9 x10 heq11
      have h12 : Touch 209952834583 s s9 := Touch.of22 heq11 ((Touch.refl ..).to (devRead_touch ..) rfl)
      refine Touch.red1 ?_
      exact h12

theorem ownUnits_touch (s j) : Touch 209952834583 s (State.ownUnits s j).2 := by
  unfold State.ownUnits
  refine Touch.ite2 ?_ ?_
  · refine Touch.red1 ?_
    exact Touch.refl ..
  · split
    · rename_i x0 s1 heq2
      have h3 : Touch 209952834583 s s1 := Touch.of2 heq2 ((Touch.refl ..).to (readBook_touch ..) rfl)
      refine Touch.red1 ?_
      exact h3
    · rename_i x4 own5 s6 heq7
      have h8 : Touch 209952834583 s s6 := Touch.of2 heq7 ((Touch.refl ..).to (readBook_touch ..) rfl)
      extract_lets u9
      clear_value u9
      refine Touch.ite2 ?_ ?_
      · refine Touch.red1 ?_
        exact h8
      · split
        · rename_i x10 s11 heq12
          have h13 : Touch 209952834583 s s11 := Touch.of2 heq12 ((h8).to (storedUnit_touch ..) rfl)
          refine Touch.red1 ?_
          exact h13
        · rename_i x14 own15 s16 heq17
          have h18 : Touch 209952834583 s s16 := Touch.of2 heq17 ((h8).to (storedUnit_touch ..) rfl)
          split
          rename_i x19 g20 i21 snd22 heq23
          extract_lets ents24
          clear_value ents24
          split
          rename_i x25 l26 s27 heq28
          have h29 : Touch 209952834583 s s27 := Touch.of2 heq28 ((h18).to (parityList_touch ..) rfl)
          refine Touch.red1 ?_
          exact h29

theorem giveUnits_touch (s u own list f) : Touch 214742859767 s (State.giveUnits s u own list f) := by
  unfold State.giveUnits
  split
  rename_i x0 g1 i2 snd3 heq4
  extract_lets a5
  clear_value a5
  refine Touch.foldl ?_ (fun t6 a7 h8 => ?_)
  · exact Touch.refl ..
  · extract_lets stripe9 mine10 x11
    clear_value x11
    clear_value mine10
    clear_value stripe9
    exact (h8).to (putColl_touch ..) rfl

theorem beginFill_touch (s j) : Touch 201412608 s (State.beginFill s j) := by
  unfold State.beginFill
  extract_lets book0 k1 total2 s3 s4 give5 s6 src7 s8 s9
  have h10 : Touch 201412608 s s3 := ((Touch.refl ..).to (setF_touch_in (k := 26) _ _ _ rfl) rfl).to (setF_touch_in (k := 27) _ _ _ rfl) rfl
  clear_value s3
  have h11 : Touch 201412608 s s4 := ((h10).to (setF_touch_in (k := 27) _ _ _ rfl) rfl).to (setF_touch_in (k := 27) _ _ _ rfl) rfl
  clear_value s4
  have h12 : Touch 201412608 s s6 := (h11).to (setF_touch_in (k := 27) _ _ _ rfl) rfl
  clear_value s6
  have h13 : Touch 201412608 s s8 := Touch.set_fov (h12) rfl
  clear_value s8
  have h14 : Touch 201412608 s s9 := (h13).to (fetchItems_touch ..) rfl
  clear_value s9
  clear_value src7
  clear_value give5
  clear_value total2
  clear_value k1
  clear_value book0
  refine Touch.ite ?_ ?_
  · exact (h14).to (askBook_touch ..) rfl
  · exact h14

theorem execFillBarrier_touch (failed s) {t : State} (e : execFillBarrier failed s = .next t) :
    Touch 214742859767 s t := by
  refine run_touch e rfl fun u => ?_
  refine Touch.ite ?_ ?_
  · exact Touch.refl ..
  · split
    · rename_i x0 heq1
      exact (Touch.refl ..).to (exportFallback_touch ..) rfl
    · rename_i x2 j3 heq4
      refine Touch.ite ?_ ?_
      · refine Touch.ite ?_ ?_
        · exact (Touch.refl ..).to (exportFallback_touch ..) rfl
        · exact (Touch.refl ..).to (beginFill_touch ..) rfl
      · extract_lets bad5
        split
        rename_i x6 mine7 s8 heq9
        have h10 : Touch 214742859767 u s8 := Touch.of2 heq9 ((Touch.refl ..).to (ownUnits_touch ..) rfl)
        refine Touch.ite ?_ ?_
        · exact (h10).to (exportFallback_touch ..) rfl
        · extract_lets src11 s12
          have h13 : Touch 214742859767 u s12 := Touch.set_fov (h10) rfl
          clear_value s12
          clear_value src11
          split
          · rename_i mine14 u15 own16 list17
            have h18 : Touch 214742859767 u s8 := Touch.of2 heq9 ((Touch.refl ..).to (ownUnits_touch ..) rfl)
            refine Touch.ite ?_ ?_
            · refine Touch.foldl ?_ (fun t19 a20 h21 => ?_)
              · exact h13
              · exact (h21).to (giveUnits_touch ..) rfl
            · exact h13
          · rename_i mine22
            have h23 : Touch 214742859767 u s8 := Touch.of2 heq9 ((Touch.refl ..).to (ownUnits_touch ..) rfl)
            exact h13

theorem execUnderstudyWaitExpiry_touch (s) {t : State} (e : execUnderstudyWaitExpiry s = .next t) :
    Touch 206840082454 s t := by
  refine run_touch e rfl fun u => ?_
  refine Touch.ite ?_ ?_
  · exact ((Touch.refl ..).to (flood_touch ..) rfl).to (exportFallback_touch ..) rfl
  · exact Touch.refl ..

theorem placeUnits_touch (s k book nums) : Touch 209919331351 s (State.placeUnits s k book nums) := by
  unfold State.placeUnits
  extract_lets u0 list1 s2
  have h3 : Touch 209919331351 s s2 := by
    unfold s2
    refine Touch.foldl ?_ (fun t4 a5 h6 => ?_)
    · exact Touch.refl ..
    · refine Touch.ite ?_ ?_
      · exact (h6).to (devWrite_touch ..) rfl
      · exact h6
  clear_value s2
  clear_value list1
  clear_value u0
  exact Touch.set_colls (h3) rfl

theorem verifyFill_touch (s j k book nums) : Touch 210053497879 s (State.verifyFill s j k book nums).2 := by
  unfold State.verifyFill
  refine Touch.foldl2 ?_ (fun b0 t1 a2 h3 => ?_)
  · refine Touch.red1 ?_
    exact Touch.refl ..
  · extract_lets e4
    clear_value e4
    split
    · rename_i x5 raw6 s7 heq8
      have h9 : Touch 210053497879 s s7 := by
        refine Touch.of22 heq8 ?_
        refine Touch.to ?_ (devRead_touch ..) rfl
        refine Touch.red1 ?_
        exact h3
      refine Touch.ite2 ?_ ?_
      · refine Touch.red1 ?_
        exact (h9).to (addF_touch_in (k := 27) _ _ _ rfl) rfl
      · refine Touch.red1 ?_
        exact h9
    · rename_i x10 fst11 fst12 s13 x14 heq15
      have h16 : Touch 210053497879 s s13 := by
        refine Touch.of22 heq15 ?_
        refine Touch.to ?_ (devRead_touch ..) rfl
        refine Touch.red1 ?_
        exact h3
      refine Touch.red1 ?_
      exact h16

theorem sealFill_touch (s slot k j) : Touch 210120707735 s (State.sealFill s slot k j) := by
  unfold State.sealFill
  extract_lets step0 s1 c2 src3 s4 s5
  have h6 : Touch 210120707735 s s1 := (Touch.refl ..).to (putWhole_touch ..) rfl
  clear_value s1
  have h7 : Touch 210120707735 s s4 := by
    unfold s4
    refine Touch.to (N := 98304) ?_ { Touch.refl _ s1 with ckp := fun e => absurd e (by decide), fov := fun e => absurd e (by decide), sound := fun e => ⟨e.mem, e.regs, e.board⟩ } rfl
    exact h6
  clear_value s4
  have h8 : Touch 210120707735 s s5 := ((((h7).to (setF_touch_in (k := 26) _ _ _ rfl) rfl).to (setF_touch_in (k := 26) _ _ _ rfl) rfl).to (setF_touch_in (k := 26) _ _ _ rfl) rfl).to (setF_touch_in (k := 26) _ _ _ rfl) rfl
  clear_value s5
  clear_value src3
  clear_value c2
  clear_value step0
  split
  rename_i x9 fst10 s11 heq12
  have h13 : Touch 210120707735 s s11 := Touch.of2 heq12 ((h8).to (copySlot_touch ..) rfl)
  extract_lets s14 s15
  have h16 : Touch 210120707735 s s14 := (h13).to (modJob_touch ..) rfl
  clear_value s14
  have h17 : Touch 210120707735 s s15 := (h16).to (inc_touch_in (k := 27) _ _ rfl) rfl
  clear_value s15
  refine Touch.ite ?_ ?_
  · exact (h17).to (inc_touch_in (k := 27) _ _ rfl) rfl
  · exact h17

theorem execFillSeal_touch (s) {t : State} (e : execFillSeal s = .next t) :
    Touch 210129112727 s t := by
  refine run_touch e rfl fun u => ?_
  split
  · rename_i x0 heq1
    exact Touch.refl ..
  · rename_i x2 slot3 j4 heq5
    extract_lets k6
    clear_value k6
    refine Touch.ite ?_ ?_
    · exact Touch.refl ..
    · split
      rename_i x7 l8 s9 heq10
      have h11 : Touch 210129112727 u s9 := by
        refine Touch.of2 heq10 ?_
        refine Touch.ite2 ?_ ?_
        · refine Touch.red1 ?_
          exact Touch.refl ..
        · exact (Touch.refl ..).to (readBook_touch ..) rfl
      extract_lets nums12
      clear_value nums12
      split
      rename_i x13 ok14 s15 heq16
      have h17 : Touch 210129112727 u s15 := by
        refine Touch.of2 heq16 ?_
        split
        · rename_i x18 d19 heq20
          exact ((h11).to (placeUnits_touch ..) rfl).to (verifyFill_touch ..) rfl
        · rename_i x21 heq22
          refine Touch.red1 ?_
          exact Touch.set_colls (h11) rfl
      refine Touch.ite ?_ ?_
      · extract_lets src23 s24
        have h25 : Touch 210129112727 u s24 := Touch.set_fov (h17) rfl
        clear_value s24
        clear_value src23
        refine Touch.ite ?_ ?_
        · exact h25
        · exact (h25).to (exportFallback_touch ..) rfl
      · refine Touch.ite ?_ ?_
        · exact (h17).to (sealFill_touch ..) rfl
        · extract_lets lost26 s27 src28
          have h29 : Touch 210129112727 u s27 := by
            unfold s27
            refine Touch.foldl ?_ (fun t30 a31 h32 => ?_)
            · exact h17
            · split
              · rename_i x33 raw34 s35 heq36
                have h37 : Touch 210129112727 u s35 := Touch.of22 heq36 ((h32).to (devRead_touch ..) rfl)
                exact (h37).to (itemRestore_touch ..) rfl
              · rename_i x38 fst39 fst40 s41 x42 heq43
                have h44 : Touch 210129112727 u s41 := Touch.of22 heq43 ((h32).to (devRead_touch ..) rfl)
                exact h44
          clear_value s27
          clear_value src28
          clear_value lost26
          exact Touch.set_fov (h29) rfl

theorem execRehearsalBarrier_touch (failed s) {t : State} (e : execRehearsalBarrier failed s = .next t) :
    Touch 206840070294 s t := by
  refine run_touch e rfl fun u => ?_
  extract_lets filledUp0 survivor1 s2 s3 src4
  have h5 : Touch 206840070294 u s2 := by
    unfold s2
    refine Touch.ite ?_ ?_
    · exact (Touch.refl ..).to (inc_touch_in (k := 27) _ _ rfl) rfl
    · exact Touch.refl ..
  clear_value s2
  have h6 : Touch 206840070294 u s3 := by
    unfold s3
    split
    · rename_i x7 p8 heq9
      exact ((h5).to (setJf_touch _ _ _ _ (by decide)) rfl).to (modJob_touch ..) rfl
    · rename_i x10 heq11
      exact h5
  clear_value s3
  clear_value src4
  clear_value survivor1
  clear_value filledUp0
  refine Touch.ite ?_ ?_
  · exact Touch.refl ..
  · refine Touch.ite ?_ ?_
    · exact (Touch.refl ..).to (exportFallback_touch ..) rfl
    · exact (Touch.set_fov (h6) rfl).to (setF_touch_in (k := 27) _ _ _ rfl) rfl

theorem decideVote_touch (s slot t all) : Touch 231922728951 s (State.decideVote s slot t all) := by
  unfold State.decideVote
  extract_lets vals0 src1 s2 agreed3
  have h4 : Touch 231922728951 s s2 := (Touch.set_fov (Touch.refl ..) rfl).to (inc_touch_in (k := 27) _ _ rfl) rfl
  clear_value s2
  clear_value src1
  clear_value vals0
  refine Touch.ite ?_ ?_
  · unfold agreed3
    exact ((h4).to (setF_touch_in (k := 27) _ _ _ rfl) rfl).to (setF_touch_in (k := 27) _ _ _ rfl) rfl
  · split
    · rename_i x5 p6 heq7
      extract_lets donor8 out9 s10 s11 src12 s13
      have h14 : Touch 231922728951 s s10 := by
        unfold s10
        refine Touch.foldl ?_ (fun t15 a16 h17 => ?_)
        · exact h4
        · exact (h17).to (event_touch ..) rfl
      clear_value s10
      have h18 : Touch 231922728951 s s11 := (h14).to (addF_touch_in (k := 27) _ _ _ rfl) rfl
      clear_value s11
      have h19 : Touch 231922728951 s s13 := Touch.set_fov (h18) rfl
      clear_value s13
      clear_value src12
      clear_value out9
      clear_value donor8
      refine Touch.ite ?_ ?_
      · exact ((h19).to (setF_touch_in (k := 27) _ _ _ rfl) rfl).to (expelNow_touch ..) rfl
      · unfold agreed3
        exact ((h19).to (setF_touch_in (k := 27) _ _ _ rfl) rfl).to (setF_touch_in (k := 27) _ _ _ rfl) rfl
    · rename_i x20 heq21
      exact ((h4).to (setF_touch_in (k := 27) _ _ _ rfl) rfl).to (shieldNow_touch ..) rfl

theorem execReplicaVote_touch (values s) {t : State} (e : execReplicaVote values s = .next t) :
    Touch 231922728951 s t := by
  refine run_touch e rfl fun u => ?_
  split
  · rename_i x0 x1 t2 slot3 heq4 heq5
    extract_lets all6 rank7 mates8
    clear_value mates8
    clear_value rank7
    clear_value all6
    refine Touch.ite ?_ ?_
    · exact Touch.refl ..
    · exact (Touch.refl ..).to (decideVote_touch ..) rfl
  · rename_i x9 x10 x11
    exact Touch.refl ..

theorem execVoteTimeout_touch (s) {t : State} (e : execVoteTimeout s = .next t) :
    Touch 214742859767 s t := by
  refine run_touch e rfl fun u => ?_
  split
  · rename_i x0 x1 t2 slot3 heq4 heq5
    exact ((Touch.set_fov (Touch.refl ..) rfl).to (setF_touch_in (k := 27) _ _ _ rfl) rfl).to (shieldNow_touch ..) rfl
  · rename_i x6 x7 x8
    exact Touch.refl ..

end Sys2Proof.Machine
end

