-- ==== Sys2Proof/Laws/TouchLink.lean ====
section
/-!
SUPPORT. The footprint of every operation of the host link, torus links, transactions and notices: once per operation, the areas it can change.
-/
namespace Sys2Proof.Machine

open Sys2Proof

/-! ### HostLink -/

theorem execBadAccess_touch (offset width write newPeriod s) {t : State} (e : execBadAccess offset width write newPeriod s = .next t) :
    Touch 206697398294 s t := by
  refine run_touch e rfl fun u => ?_
  refine Touch.ite ?_ ?_
  · exact Touch.refl ..
  · extract_lets s0
    have h1 : Touch 206697398294 u s0 := by
      unfold s0
      refine Touch.ite ?_ ?_
      · exact Touch.refl ..
      · exact (Touch.refl ..).to (emit_touch ..) rfl
    clear_value s0
    refine Touch.ite ?_ ?_
    · exact (h1).to (event_touch ..) rfl
    · exact (h1).to (suppress_touch ..) rfl

theorem execHostMemAccess_touch (hpa len write bytes ups s) {t : State} (e : execHostMemAccess hpa len write bytes ups s = .next t) :
    Touch 231922991095 s t := by
  refine run_touch e rfl fun u => ?_
  refine Touch.ite ?_ ?_
  · exact (Touch.refl ..).to (emit_touch ..) rfl
  · split
    · rename_i x0 heq1
      exact (Touch.refl ..).to (emit_touch ..) rfl
    · rename_i x2 a3 heq4
      extract_lets s5 src6
      have h7 : Touch 231922991095 u s5 := by
        unfold s5
        refine Touch.ite ?_ ?_
        · exact (Touch.refl ..).to (settle_touch ..) rfl
        · exact Touch.refl ..
      clear_value s5
      clear_value src6
      refine Touch.ite ?_ ?_
      · refine Touch.ite ?_ ?_
        · exact (h7).to (emit_touch ..) rfl
        · refine Touch.ite ?_ ?_
          · exact (h7).to (suppress_touch ..) rfl
          · exact (Touch.set_host (h7) rfl rfl).to (event_touch ..) rfl
      · refine Touch.ite ?_ ?_
        · split
          rename_i x8 st9 s10 heq11
          have h12 : Touch 231922991095 u s10 := by
            refine Touch.of2 heq11 ?_
            unfold State.asHost
            extract_lets pages13 src14
            clear_value src14
            clear_value pages13
            split
            rename_i x15 r16 s17 heq18
            have h19 : Touch 231922991095 u s17 := by
              refine Touch.of2 heq18 ?_
              beta_reduce
              exact (Touch.set_host (h7) rfl rfl).to (accessWrite_touch ..) rfl
            refine Touch.red1 ?_
            exact Touch.set_host (h19) rfl rfl
          exact (h12).to (emit_touch ..) rfl
        · split
          rename_i x20 r21 s22 heq23
          have h24 : Touch 231922991095 u s22 := by
            refine Touch.of2 heq23 ?_
            unfold State.asHost
            extract_lets pages25 src26
            clear_value src26
            clear_value pages25
            split
            rename_i x27 r28 s29 heq30
            have h31 : Touch 231922991095 u s29 := by
              refine Touch.of2 heq30 ?_
              beta_reduce
              split
              rename_i x32 st33 bs34 s35 heq36
              have h37 : Touch 231922991095 u s35 := Touch.of22 heq36 ((Touch.set_host (h7) rfl rfl).to (accessRead_touch ..) rfl)
              refine Touch.red1 ?_
              exact h37
            refine Touch.red1 ?_
            exact Touch.set_host (h31) rfl rfl
          refine Touch.ite ?_ ?_
          · exact (h24).to (emit_touch ..) rfl
          · exact (h24).to (emit_touch ..) rfl

theorem execHdmDecoderCommit_touch (decoder base size ways s) {t : State} (e : execHdmDecoderCommit decoder base size ways s = .next t) :
    Touch 137439084548 s t := by
  refine run_touch e rfl fun u => ?_
  split
  · rename_i x0 d1 heq2
    exact Touch.refl ..
  · rename_i x3 heq4
    extract_lets limit5 d6 src7
    clear_value src7
    clear_value d6
    clear_value limit5
    refine Touch.ite ?_ ?_
    · exact (Touch.refl ..).to (emit_touch ..) rfl
    · exact (Touch.set_host (Touch.refl ..) rfl rfl).to (emit_touch ..) rfl

theorem execD3hotRequest_touch (s) {t : State} (e : execD3hotRequest s = .next t) :
    Touch 137439084548 s t := by
  refine run_touch e rfl fun u => ?_
  refine Touch.ite ?_ ?_
  · exact Touch.set_host (Touch.refl ..) rfl rfl
  · exact (Touch.refl ..).to (emit_touch ..) rfl

theorem execAtsInvalidation_touch (page s) {t : State} (e : execAtsInvalidation page s = .next t) :
    Touch 137439084548 s t := by
  refine run_touch e rfl fun u => ?_
  exact (Touch.set_host (Touch.refl ..) rfl rfl).to (emit_touch ..) rfl

theorem execCxlCacheSnoop_touch (addr s) {t : State} (e : execCxlCacheSnoop addr s = .next t) :
    Touch 4 s t := by
  refine run_touch e rfl fun u => ?_
  exact (Touch.refl ..).to (emit_touch ..) rfl

theorem execDoeDiscovery_touch (index s) {t : State} (e : execDoeDiscovery index s = .next t) :
    Touch 4 s t := by
  refine run_touch e rfl fun u => ?_
  split
  rename_i x0 v1 t2 heq3
  extract_lets next4
  clear_value next4
  exact (Touch.refl ..).to (emit_touch ..) rfl

theorem execCdatRead_touch (entry s) {t : State} (e : execCdatRead entry s = .next t) :
    Touch 4 s t := by
  refine run_touch e rfl fun u => ?_
  extract_lets t0 next1
  clear_value next1
  clear_value t0
  split
  · rename_i x2 e3 heq4
    exact (Touch.refl ..).to (emit_touch ..) rfl
  · rename_i x5 heq6
    exact (Touch.refl ..).to (emit_touch ..) rfl

theorem execDoeAbort_touch (s) {t : State} (e : execDoeAbort s = .next t) :
    Touch 137439084548 s t := by
  refine run_touch e rfl fun u => ?_
  exact Touch.set_host (Touch.refl ..) rfl rfl

theorem execIdeIntegrityFailure_touch (s) {t : State} (e : execIdeIntegrityFailure s = .next t) :
    Touch 206698577942 s t := by
  refine run_touch e rfl fun u => ?_
  refine Touch.ite ?_ ?_
  · exact Touch.refl ..
  · extract_lets src0 s1
    have h2 : Touch 206698577942 u s1 := Touch.set_host (Touch.refl ..) rfl rfl
    clear_value s1
    clear_value src0
    exact ((h2).to (setF_touch_in (k := 20) _ _ _ rfl) rfl).to (event_touch ..) rfl

theorem farFails_touch (s addr use who status) : Touch 210129095927 s (State.farFails s addr use who status) := by
  unfold State.farFails
  extract_lets s0
  have h1 : Touch 210129095927 s s0 := ((Touch.refl ..).to (inc_touch_in (k := 29) _ _ rfl) rfl).to (event_touch ..) rfl
  clear_value s0
  split
  · rename_i use2
    split
    · rename_i x3 slot4 heq5
      exact ((h1).to (modJob_touch ..) rfl).to (opDone_touch ..) rfl
    · rename_i x6 heq7
      exact h1
  · rename_i use8
    exact (h1).to (haltQueue_touch ..) rfl
  · rename_i use9
    exact h1
  · rename_i use10
    refine Touch.ite ?_ ?_
    · exact ((h1).to (opDone_touch ..) rfl).to (exportFallback_touch ..) rfl
    · refine Touch.ite ?_ ?_
      · exact (h1).to (exportFails_touch ..) rfl
      · exact (h1).to (opDone_touch ..) rfl
  · rename_i use11 x12 x13 x14 x15
    exact (h1).to (opDone_touch ..) rfl

theorem execFarRequestError_touch (addr use who s) {t : State} (e : execFarRequestError addr use who s = .next t) :
    Touch 210129095927 s t := by
  refine run_touch e rfl fun u => ?_
  exact (Touch.refl ..).to (farFails_touch ..) rfl

theorem execFarRequestTimeout_touch (addr use who s) {t : State} (e : execFarRequestTimeout addr use who s = .next t) :
    Touch 210129095927 s t := by
  refine run_touch e rfl fun u => ?_
  exact (Touch.refl ..).to (farFails_touch ..) rfl

theorem ringHead_touch (s v a raw) : Touch 206697398294 s (State.ringHead s v a raw) := by
  unfold State.ringHead
  refine Touch.ite ?_ ?_
  · exact (Touch.refl ..).to (discardWrite_touch ..) rfl
  · exact (Touch.refl ..).to (wr_touch_in (k := 21) _ _ _ rfl) rfl

theorem execHostRingHeadWrite_touch (head s) {t : State} (e : execHostRingHeadWrite head s = .next t) :
    Touch 206697398294 s t := by
  refine run_touch e rfl fun u => ?_
  unfold State.hostWrite
  refine Touch.ite ?_ ?_
  · beta_reduce
    exact (Touch.refl ..).to (ringHead_touch ..) rfl
  · exact Touch.refl ..

theorem biasCmdOp_touch (s toHost tier pages first off v) : Touch 206698577942 s (State.biasCmdOp s toHost tier pages first off v) := by
  unfold State.biasCmdOp
  refine Touch.ite ?_ ?_
  · exact (Touch.refl ..).to (discardWrite_touch ..) rfl
  · refine Touch.ite ?_ ?_
    · exact (Touch.refl ..).to (discardWrite_touch ..) rfl
    · extract_lets a0 n1 src2
      clear_value src2
      clear_value n1
      clear_value a0
      refine Touch.ite ?_ ?_
      · exact (Touch.refl ..).to (setF_touch_in (k := 20) _ _ _ rfl) rfl
      · exact ((Touch.set_host (Touch.refl ..) rfl rfl).to (setF_touch_in (k := 20) _ _ _ rfl) rfl).to (setF_touch_in (k := 20) _ _ _ rfl) rfl

theorem execBiasToDevice_touch (tier pages first s) {t : State} (e : execBiasToDevice tier pages first s = .next t) :
    Touch 206698577942 s t := by
  refine run_touch e rfl fun u => ?_
  unfold State.hostWrite
  refine Touch.ite ?_ ?_
  · beta_reduce
    exact (Touch.refl ..).to (biasCmdOp_touch ..) rfl
  · exact Touch.refl ..

theorem execBiasToHost_touch (tier pages first s) {t : State} (e : execBiasToHost tier pages first s = .next t) :
    Touch 206698577942 s t := by
  refine run_touch e rfl fun u => ?_
  unfold State.hostWrite
  refine Touch.ite ?_ ?_
  · beta_reduce
    exact (Touch.refl ..).to (biasCmdOp_touch ..) rfl
  · exact Touch.refl ..

theorem execBiasCommandComplete_touch (s) {t : State} (e : execBiasCommandComplete s = .next t) :
    Touch 137440133124 s t := by
  refine run_touch e rfl fun u => ?_
  split
  · rename_i x0 heq1
    exact Touch.refl ..
  · rename_i x2 toHost3 tier4 first5 pages6 heq7
    extract_lets lo8 rest9 m10 src11
    clear_value src11
    clear_value m10
    clear_value rest9
    clear_value lo8
    exact (Touch.set_host (Touch.refl ..) rfl rfl).to (setF_touch_in (k := 20) _ _ _ rfl) rfl

/-! ### LinkRows -/

theorem attemptFailed_touch (s p cause) : Touch 209113952342 s (State.attemptFailed s p cause) := by
  unfold State.attemptFailed
  refine Touch.ite ?_ ?_
  · exact (Touch.refl ..).to (fullTrain_touch ..) rfl
  · exact (Touch.refl ..).to (trainFailed_touch ..) rfl

theorem trainOrder_touch (s p signal) : Touch 209113952342 s (State.trainOrder s p signal) := by
  unfold State.trainOrder
  extract_lets x0 dead1
  clear_value dead1
  clear_value x0
  refine Touch.ite ?_ ?_
  · exact Touch.refl ..
  · split
    · rename_i x2 heq3
      exact (Touch.refl ..).to (attemptFailed_touch ..) rfl
    · rename_i x4 r5 heq6
      extract_lets mask7
      clear_value mask7
      exact ((Touch.refl ..).to (setPort_touch ..) rfl).to (setPf_touch _ _ _ _ (by decide)) rfl

theorem trainEye_touch (s p signal eye) : Touch 4096 s (State.trainEye s p signal eye) := by
  unfold State.trainEye
  exact (Touch.refl ..).to (modPort_touch ..) rfl

theorem trainWidth_touch (s p) : Touch 209113952342 s (State.trainWidth s p) := by
  unfold State.trainWidth
  extract_lets x0 union1 old2 w3 upper4 s5
  have h6 : Touch 209113952342 s s5 := ((Touch.refl ..).to (setPort_touch ..) rfl).to (setPf_touch _ _ _ _ (by decide)) rfl
  clear_value s5
  clear_value upper4
  clear_value w3
  clear_value old2
  clear_value union1
  clear_value x0
  refine Touch.ite ?_ ?_
  · exact Touch.refl ..
  · refine Touch.ite ?_ ?_
    · exact (Touch.refl ..).to (attemptFailed_touch ..) rfl
    · refine Touch.ite ?_ ?_
      · exact (h6).to (event_touch ..) rfl
      · exact h6

theorem trainWord_touch (s p lane inverted w) : Touch 268439552 s (State.trainWord s p lane inverted w) := by
  unfold State.trainWord
  extract_lets n0 s1
  have h2 : Touch 268439552 s s1 := (Touch.refl ..).to (modPort_touch ..) rfl
  clear_value s1
  clear_value n0
  exact (h2).to (setPf_touch _ _ _ _ (by decide)) rfl

theorem trainReply_touch (s p lane signal eye) : Touch 4102 s (State.trainReply s p lane signal eye) := by
  unfold State.trainReply
  extract_lets x0
  clear_value x0
  refine Touch.ite ?_ ?_
  · exact Touch.refl ..
  · refine Touch.ite ?_ ?_
    · exact ((Touch.refl ..).to (modPort_touch ..) rfl).to (sendTraining_touch ..) rfl
    · refine Touch.ite ?_ ?_
      · exact ((Touch.refl ..).to (modPort_touch ..) rfl).to (sendTraining_touch ..) rfl
      · refine Touch.ite ?_ ?_
        · split
          rename_i x1 hi2 s3 heq4
          have h5 : Touch 4102 s s3 := Touch.of2 heq4 ((Touch.refl ..).to (draw_touch ..) rfl)
          split
          rename_i x6 hi7 s8 heq9
          have h10 : Touch 4102 s s8 := Touch.of2 heq9 ((h5).to (draw_touch ..) rfl)
          exact (h10).to (sendTraining_touch ..) rfl
        · exact (Touch.refl ..).to (sendTraining_touch ..) rfl

theorem trainReady_touch (s p) : Touch 4096 s (State.trainReady s p) := by
  unfold State.trainReady
  exact (Touch.refl ..).to (modPort_touch ..) rfl

theorem execTrainingFrameReceived_touch (port lane signal inverted word eye s) {t : State} (e : execTrainingFrameReceived port lane signal inverted word eye s = .next t) :
    Touch 209113952342 s t := by
  refine run_touch e rfl fun u => ?_
  extract_lets st0 s1 s2
  have h3 : Touch 209113952342 u s1 := by
    unfold s1
    refine Touch.ite ?_ ?_
    · exact (Touch.refl ..).to (restartTraining_touch ..) rfl
    · exact Touch.refl ..
  clear_value s1
  have h4 : Touch 209113952342 u s2 := ((((h3).to (trainWord_touch ..) rfl).to (trainOrder_touch ..) rfl).to (trainEye_touch ..) rfl).to (trainWidth_touch ..) rfl
  clear_value s2
  clear_value st0
  refine Touch.ite ?_ ?_
  · exact Touch.refl ..
  · refine Touch.ite ?_ ?_
    · exact (Touch.refl ..).to (enterRetrain_touch ..) rfl
    · refine Touch.ite ?_ ?_
      · refine Touch.ite ?_ ?_
        · exact h4
        · exact ((h4).to (trainReply_touch ..) rfl).to (trainReady_touch ..) rfl
      · exact Touch.refl ..

theorem execTrainingTimeout_touch (port s) {t : State} (e : execTrainingTimeout port s = .next t) :
    Touch 209113952342 s t := by
  refine run_touch e rfl fun u => ?_
  refine Touch.ite ?_ ?_
  · exact (Touch.refl ..).to (trainFailed_touch ..) rfl
  · exact Touch.refl ..

theorem execRetrainTimeout_touch (port s) {t : State} (e : execRetrainTimeout port s = .next t) :
    Touch 209113952342 s t := by
  refine run_touch e rfl fun u => ?_
  refine Touch.ite ?_ ?_
  · exact (Touch.refl ..).to (fullTrain_touch ..) rfl
  · exact Touch.refl ..

theorem fecCounts_touch (s p errs) : Touch 268439552 s (State.fecCounts s p errs) := by
  unfold State.fecCounts
  extract_lets fixed0 bad1 s2
  have h3 : Touch 268439552 s s2 := ((Touch.refl ..).to (addPf_touch _ _ _ _ (by decide)) rfl).to (addPf_touch _ _ _ _ (by decide)) rfl
  clear_value s2
  clear_value bad1
  clear_value fixed0
  exact (h3).to (modPort_touch ..) rfl

theorem execFecFrameReceived_touch (port errs s) {t : State} (e : execFecFrameReceived port errs s = .next t) :
    Touch 209113952342 s t := by
  refine run_touch e rfl fun u => ?_
  extract_lets x0 errs1 bad2 s3 full4 s5
  have h6 : Touch 209113952342 u s3 := (Touch.refl ..).to (fecCounts_touch ..) rfl
  clear_value s3
  have h7 : Touch 209113952342 u s5 := (h6).to (modPort_touch ..) rfl
  clear_value s5
  clear_value full4
  clear_value bad2
  clear_value errs1
  clear_value x0
  refine Touch.ite ?_ ?_
  · exact (h6).to (modPort_touch ..) rfl
  · refine Touch.ite ?_ ?_
    · refine Touch.ite ?_ ?_
      · exact (h6).to (modPort_touch ..) rfl
      · refine Touch.ite ?_ ?_
        · exact (h6).to (modPort_touch ..) rfl
        · exact (h7).to (portEnter_touch ..) rfl
    · exact Touch.refl ..

theorem execErrorRateWindow_touch (port s) {t : State} (e : execErrorRateWindow port s = .next t) :
    Touch 209113952342 s t := by
  refine run_touch e rfl fun u => ?_
  extract_lets x0 lanes1 s2 s3
  have h4 : Touch 209113952342 u s2 := (Touch.refl ..).to (setPort_touch ..) rfl
  clear_value s2
  have h5 : Touch 209113952342 u s3 := (h4).to (setPf_touch _ _ _ _ (by decide)) rfl
  clear_value s3
  clear_value lanes1
  clear_value x0
  refine Touch.ite ?_ ?_
  · exact h4
  · refine Touch.ite ?_ ?_
    · exact (h5).to (enterRetrain_touch ..) rfl
    · exact h5

theorem execLaneSignalLoss_touch (port lane s) {t : State} (e : execLaneSignalLoss port lane s = .next t) :
    Touch 209113952342 s t := by
  refine run_touch e rfl fun u => ?_
  refine Touch.ite ?_ ?_
  · exact ((Touch.refl ..).to (setPf_touch _ _ _ _ (by decide)) rfl).to (enterRetrain_touch ..) rfl
  · exact Touch.refl ..

theorem execFlitTransmit_touch (port s) {t : State} (e : execFlitTransmit port s = .next t) :
    Touch 268439556 s t := by
  refine run_touch e rfl fun u => ?_
  exact (Touch.refl ..).to (transmit_touch ..) rfl

theorem execDataFlitReceived_touch (port flit late s) {t : State} (e : execDataFlitReceived port flit late s = .next t) :
    Touch 209113952342 s t := by
  refine run_touch e rfl fun u => ?_
  unfold State.receive
  refine Touch.ite ?_ ?_
  · exact Touch.refl ..
  · extract_lets x0 s1
    have h2 : Touch 209113952342 u s1 := (Touch.refl ..).to (setPort_touch ..) rfl
    clear_value s1
    clear_value x0
    refine Touch.ite ?_ ?_
    · exact ((h2).to (addPf_touch _ _ _ _ (by decide)) rfl).to (askReplay_touch ..) rfl
    · refine Touch.ite ?_ ?_
      · exact h2
      · beta_reduce
        exact ((h2).to (flitFields_touch ..) rfl).to (acceptData_touch ..) rfl

theorem execIdleFlitReceived_touch (port flit late s) {t : State} (e : execIdleFlitReceived port flit late s = .next t) :
    Touch 209113952342 s t := by
  refine run_touch e rfl fun u => ?_
  unfold State.receive
  refine Touch.ite ?_ ?_
  · exact Touch.refl ..
  · extract_lets x0 s1
    have h2 : Touch 209113952342 u s1 := (Touch.refl ..).to (setPort_touch ..) rfl
    clear_value s1
    clear_value x0
    refine Touch.ite ?_ ?_
    · exact ((h2).to (addPf_touch _ _ _ _ (by decide)) rfl).to (askReplay_touch ..) rfl
    · refine Touch.ite ?_ ?_
      · exact h2
      · beta_reduce
        exact ((h2).to (flitFields_touch ..) rfl).to (flowPart_touch ..) rfl

theorem execInitFlitSend_touch (port s) {t : State} (e : execInitFlitSend port s = .next t) :
    Touch 209113952342 s t := by
  refine run_touch e rfl fun u => ?_
  refine Touch.ite ?_ ?_
  · exact Touch.refl ..
  · extract_lets x0 s1
    have h2 : Touch 209113952342 u s1 := (Touch.refl ..).to (sendFlit_touch ..) rfl
    clear_value s1
    clear_value x0
    exact ((h2).to (modPort_touch ..) rfl).to (initDone_touch ..) rfl

theorem acceptInit_touch (s p flit) : Touch 209113952342 s (State.acceptInit s p flit) := by
  unfold State.acceptInit
  extract_lets b0 f1 s2
  have h3 : Touch 209113952342 s s2 := (Touch.refl ..).to (modPort_touch ..) rfl
  clear_value s2
  clear_value f1
  clear_value b0
  refine Touch.ite ?_ ?_
  · exact Touch.refl ..
  · exact (h3).to (initDone_touch ..) rfl

theorem execInitFlitReceived_touch (port flit late s) {t : State} (e : execInitFlitReceived port flit late s = .next t) :
    Touch 209113952342 s t := by
  refine run_touch e rfl fun u => ?_
  unfold State.receive
  refine Touch.ite ?_ ?_
  · exact Touch.refl ..
  · extract_lets x0 s1
    have h2 : Touch 209113952342 u s1 := (Touch.refl ..).to (setPort_touch ..) rfl
    clear_value s1
    clear_value x0
    refine Touch.ite ?_ ?_
    · exact ((h2).to (addPf_touch _ _ _ _ (by decide)) rfl).to (askReplay_touch ..) rfl
    · refine Touch.ite ?_ ?_
      · exact h2
      · beta_reduce
        exact ((h2).to (flitFields_touch ..) rfl).to (acceptInit_touch ..) rfl

theorem execInitTimeout_touch (port s) {t : State} (e : execInitTimeout port s = .next t) :
    Touch 209113952342 s t := by
  refine run_touch e rfl fun u => ?_
  refine Touch.ite ?_ ?_
  · exact (Touch.refl ..).to (enterRetrain_touch ..) rfl
  · exact Touch.refl ..

theorem execLinkFlitReceived_touch (port flit late s) {t : State} (e : execLinkFlitReceived port flit late s = .next t) :
    Touch 209113952342 s t := by
  refine run_touch e rfl fun u => ?_
  unfold State.receive
  refine Touch.ite ?_ ?_
  · exact Touch.refl ..
  · extract_lets x0 s1 b2
    have h3 : Touch 209113952342 u s1 := (Touch.refl ..).to (setPort_touch ..) rfl
    clear_value s1
    clear_value b2
    clear_value x0
    refine Touch.ite ?_ ?_
    · exact ((h3).to (addPf_touch _ _ _ _ (by decide)) rfl).to (askReplay_touch ..) rfl
    · refine Touch.ite ?_ ?_
      · exact h3
      · beta_reduce
        refine Touch.ite ?_ ?_
        · exact (((h3).to (flitFields_touch ..) rfl).to (setPf_touch _ _ _ _ (by decide)) rfl).to (enterRetrain_touch ..) rfl
        · exact (h3).to (flitFields_touch ..) rfl

theorem execReplayTimeout_touch (port s) {t : State} (e : execReplayTimeout port s = .next t) :
    Touch 209113952342 s t := by
  refine run_touch e rfl fun u => ?_
  split
  · rename_i x0 q1 snd2 heq3
    exact (Touch.refl ..).to (replayFrom_touch ..) rfl
  · rename_i x4 heq5
    exact Touch.refl ..

theorem portEnableOp_touch (s p) : Touch 209113952342 s (State.portEnableOp s p) := by
  unfold State.portEnableOp
  extract_lets s0 u1
  have h2 : Touch 209113952342 s s0 := (Touch.refl ..).to (setPf_touch _ _ _ _ (by decide)) rfl
  clear_value s0
  clear_value u1
  refine Touch.ite ?_ ?_
  · exact (h2).to (restartTraining_touch ..) rfl
  · exact h2

theorem portDisableOp_touch (s p) : Touch 209113952342 s (State.portDisableOp s p) := by
  unfold State.portDisableOp
  extract_lets s0 s1
  have h2 : Touch 209113952342 s s0 := (Touch.refl ..).to (setPf_touch _ _ _ _ (by decide)) rfl
  clear_value s0
  have h3 : Touch 209113952342 s s1 := (h2).to (portStop_touch ..) rfl
  clear_value s1
  refine Touch.ite ?_ ?_
  · exact h2
  · refine Touch.ite ?_ ?_
    · exact ((h3).to (setPf_touch _ _ _ _ (by decide)) rfl).to (modPort_touch ..) rfl
    · exact h3

theorem execPortEnable_touch (port s) {t : State} (e : execPortEnable port s = .next t) :
    Touch 209113952342 s t := by
  refine run_touch e rfl fun u => ?_
  unfold State.hostWrite
  refine Touch.ite ?_ ?_
  · beta_reduce
    exact (Touch.refl ..).to (portEnableOp_touch ..) rfl
  · exact Touch.refl ..

theorem execPortDisable_touch (port s) {t : State} (e : execPortDisable port s = .next t) :
    Touch 209113952342 s t := by
  refine run_touch e rfl fun u => ?_
  unfold State.hostWrite
  refine Touch.ite ?_ ?_
  · beta_reduce
    exact (Touch.refl ..).to (portDisableOp_touch ..) rfl
  · exact Touch.refl ..

theorem execPortFullTrain_touch (port s) {t : State} (e : execPortFullTrain port s = .next t) :
    Touch 209113952342 s t := by
  refine run_touch e rfl fun u => ?_
  unfold State.hostWrite
  refine Touch.ite ?_ ?_
  · beta_reduce
    exact (Touch.refl ..).to (fullTrain_touch ..) rfl
  · exact Touch.refl ..

theorem execPortRetrain_touch (port s) {t : State} (e : execPortRetrain port s = .next t) :
    Touch 209113952342 s t := by
  refine run_touch e rfl fun u => ?_
  unfold State.hostWrite
  refine Touch.ite ?_ ?_
  · beta_reduce
    exact (Touch.refl ..).to (enterRetrain_touch ..) rfl
  · exact Touch.refl ..

theorem takeMsg_touch (s p vc m) : Touch 4096 s (State.takeMsg s p vc m) := by
  unfold State.takeMsg
  exact ((Touch.refl ..).to (modPort_touch ..) rfl).to (freeSlots_touch ..) rfl

theorem execHelloSend_touch (port s) {t : State} (e : execHelloSend port s = .next t) :
    Touch 4100 s t := by
  refine run_touch e rfl fun u => ?_
  refine Touch.ite ?_ ?_
  · exact (Touch.refl ..).to (sendHello_touch ..) rfl
  · exact Touch.refl ..

theorem peerRegs_touch (s p b) : Touch 268435456 s (State.peerRegs s p b) := by
  unfold State.peerRegs
  extract_lets s0 s1 ver2 s3 s4
  have h5 : Touch 268435456 s s0 := ((Touch.refl ..).to (setPf_touch _ _ _ _ (by decide)) rfl).to (setPf_touch _ _ _ _ (by decide)) rfl
  clear_value s0
  have h6 : Touch 268435456 s s1 := (h5).to (setPf_touch _ _ _ _ (by decide)) rfl
  clear_value s1
  have h7 : Touch 268435456 s s3 := (h6).to (wrPort_touch _ _ _ _ (by decide)) rfl
  clear_value s3
  have h8 : Touch 268435456 s s4 := ((h7).to (setPf_touch _ _ _ _ (by decide)) rfl).to (setPf_touch _ _ _ _ (by decide)) rfl
  clear_value s4
  clear_value ver2
  exact (h8).to (setPf_touch _ _ _ _ (by decide)) rfl

theorem execHelloReceived_touch (port s) {t : State} (e : execHelloReceived port s = .next t) :
    Touch 209113952342 s t := by
  refine run_touch e rfl fun u => ?_
  split
  · rename_i x0 heq1
    exact Touch.refl ..
  · rename_i x2 m3 heq4
    extract_lets s5 b6 s7 st8
    have h9 : Touch 209113952342 u s5 := (Touch.refl ..).to (takeMsg_touch ..) rfl
    clear_value s5
    have h10 : Touch 209113952342 u s7 := ((h9).to (peerRegs_touch ..) rfl).to (modPort_touch ..) rfl
    clear_value s7
    clear_value st8
    clear_value b6
    refine Touch.ite ?_ ?_
    · exact (h9).to (rejectTxn_touch ..) rfl
    · refine Touch.ite ?_ ?_
      · refine Touch.ite ?_ ?_
        · exact (h10).to (helloDecide_touch ..) rfl
        · exact h10
      · refine Touch.ite ?_ ?_
        · exact (h10).to (helloDecide_touch ..) rfl
        · exact h10

theorem execQuarantineHello_touch (port s) {t : State} (e : execQuarantineHello port s = .next t) :
    Touch 4100 s t := by
  refine run_touch e rfl fun u => ?_
  refine Touch.ite ?_ ?_
  · exact (Touch.refl ..).to (sendHello_touch ..) rfl
  · exact Touch.refl ..

theorem execHelloExchangeTimeout_touch (port s) {t : State} (e : execHelloExchangeTimeout port s = .next t) :
    Touch 4100 s t := by
  refine run_touch e rfl fun u => ?_
  refine Touch.ite ?_ ?_
  · exact (Touch.refl ..).to (sendHello_touch ..) rfl
  · exact Touch.refl ..

theorem execPulseSend_touch (port s) {t : State} (e : execPulseSend port s = .next t) :
    Touch 4100 s t := by
  refine run_touch e rfl fun u => ?_
  extract_lets st0 n1 s2 epoch3
  have h4 : Touch 4100 u s2 := (Touch.refl ..).to (modPort_touch ..) rfl
  clear_value s2
  clear_value epoch3
  clear_value n1
  clear_value st0
  refine Touch.ite ?_ ?_
  · split
    rename_i x5 tag6 s7 heq8
    have h9 : Touch 4100 u s7 := Touch.of2 heq8 ((h4).to (newTag_touch ..) rfl)
    exact (h9).to (sendMsg_touch ..) rfl
  · exact Touch.refl ..

theorem alive_touch (s p seq) : Touch 268447744 s (State.alive s p seq) := by
  unfold State.alive
  extract_lets s0 src1 s2
  have h3 : Touch 268447744 s s0 := (Touch.refl ..).to (modPort_touch ..) rfl
  clear_value s0
  have h4 : Touch 268447744 s s2 := by
    unfold s2
    refine Touch.ite ?_ ?_
    · exact (Touch.set_fabric (h3) rfl).to (setPf_touch _ _ _ _ (by decide)) rfl
    · exact h3
  clear_value s2
  clear_value src1
  refine Touch.ite ?_ ?_
  · exact h3
  · exact (h4).to (report_touch ..) rfl

theorem execPulseReceived_touch (port s) {t : State} (e : execPulseReceived port s = .next t) :
    Touch 206965846038 s t := by
  refine run_touch e rfl fun u => ?_
  split
  · rename_i x0 heq1
    exact Touch.refl ..
  · rename_i x2 m3 heq4
    extract_lets s5 b6
    have h7 : Touch 206965846038 u s5 := (Touch.refl ..).to (takeMsg_touch ..) rfl
    clear_value s5
    clear_value b6
    refine Touch.ite ?_ ?_
    · exact (h7).to (rejectTxn_touch ..) rfl
    · exact (h7).to (alive_touch ..) rfl

theorem execMissedPulse_touch (port s) {t : State} (e : execMissedPulse port s = .next t) :
    Touch 268447748 s t := by
  refine run_touch e rfl fun u => ?_
  extract_lets n0 s1
  have h2 : Touch 268447748 u s1 := ((Touch.refl ..).to (modPort_touch ..) rfl).to (addPf_touch _ _ _ _ (by decide)) rfl
  clear_value s1
  clear_value n0
  refine Touch.ite ?_ ?_
  · exact (h2).to (suspect_touch ..) rfl
  · exact h2

theorem execNeighbourSuspect_touch (port s) {t : State} (e : execNeighbourSuspect port s = .next t) :
    Touch 268447748 s t := by
  refine run_touch e rfl fun u => ?_
  refine Touch.ite ?_ ?_
  · exact (Touch.refl ..).to (suspect_touch ..) rfl
  · exact Touch.refl ..

/-! ### Txn -/

theorem consume_touch (s p m) : Touch 4096 s (State.consume s p m) := by
  unfold State.consume
  exact ((Touch.refl ..).to (modPort_touch ..) rfl).to (freeSlots_touch ..) rfl

theorem holdApart_touch (s p m) : Touch 4096 s (State.holdApart s p m) := by
  unfold State.holdApart
  exact (Touch.refl ..).to (modPort_touch ..) rfl

theorem staleMsg_touch (s p m) : Touch 268439552 s (State.staleMsg s p m) := by
  unfold State.staleMsg
  extract_lets t0 s1
  have h2 : Touch 268439552 s s1 := ((Touch.refl ..).to (consume_touch ..) rfl).to (addPf_touch _ _ _ _ (by decide)) rfl
  clear_value s1
  clear_value t0
  refine Touch.ite ?_ ?_
  · exact (h2).to (answerGet_touch ..) rfl
  · exact h2

theorem openMirror_touch (s body) : Touch 206730952726 s (State.openMirror s body).2 := by
  unfold State.openMirror
  extract_lets seed0
  clear_value seed0
  exact (Touch.refl ..).to (openObject_touch ..) rfl

theorem markBitmap_touch (s a n) : Touch 206697434135 s (State.markBitmap s a n) := by
  unfold State.markBitmap
  extract_lets base0
  clear_value base0
  refine Touch.foldl ?_ (fun t1 a2 h3 => ?_)
  · exact Touch.refl ..
  · extract_lets b4 at5
    clear_value at5
    clear_value b4
    refine Touch.ite ?_ ?_
    · exact (h3).to (ownNum_touch ..) rfl
    · exact h3

theorem putJournal_touch (s a plain) : Touch 209919314967 s (State.putJournal s a plain).2 := by
  unfold State.putJournal
  extract_lets old0 at1
  clear_value at1
  clear_value old0
  refine Touch.ite2 ?_ ?_
  · refine Touch.red1 ?_
    exact Touch.refl ..
  · split
    · rename_i x2 t3 heq4
      have h5 : Touch 209919314967 s t3 := Touch.of2 heq4 ((Touch.refl ..).to (devWrite_touch ..) rfl)
      extract_lets src6 t7
      have h8 : Touch 209919314967 s t7 := by
        unfold t7
        refine Touch.ite ?_ ?_
        · exact h5
        · exact Touch.set_ckp (h5) rfl
      clear_value t7
      clear_value src6
      refine Touch.red1 ?_
      exact (h8).to (markBitmap_touch ..) rfl
    · rename_i x9 st10 t11 x12 heq13
      have h14 : Touch 209919314967 s t11 := Touch.of2 heq13 ((Touch.refl ..).to (devWrite_touch ..) rfl)
      refine Touch.red1 ?_
      exact h14

theorem putMirror_touch (s p a body) : Touch 209952869399 s (State.putMirror s p a body).2 := by
  unfold State.putMirror
  extract_lets off0
  clear_value off0
  refine Touch.ite2 ?_ ?_
  · split
    · rename_i x1 s2 heq3
      have h4 : Touch 209952869399 s s2 := Touch.of2 heq3 ((Touch.refl ..).to (openMirror_touch ..) rfl)
      refine Touch.red1 ?_
      exact h4
    · rename_i x5 plain6 s7 heq8
      have h9 : Touch 209952869399 s s7 := Touch.of2 heq8 ((Touch.refl ..).to (openMirror_touch ..) rfl)
      refine Touch.ite2 ?_ ?_
      · split
        rename_i x10 st11 s12 heq13
        have h14 : Touch 209952869399 s s12 := Touch.of2 heq13 ((h9).to (devWrite_touch ..) rfl)
        refine Touch.red1 ?_
        exact h14
      · exact (h9).to (putJournal_touch ..) rfl
  · split
    rename_i x15 st16 s17 heq18
    have h19 : Touch 209952869399 s s17 := Touch.of2 heq18 ((Touch.refl ..).to (devWrite_touch ..) rfl)
    refine Touch.red1 ?_
    exact h19

theorem putData_touch (s p a body) : Touch 209952869399 s (State.putData s p a body).2 := by
  unfold State.putData
  extract_lets c0
  clear_value c0
  refine Touch.ite2 ?_ ?_
  · exact (Touch.refl ..).to (putMirror_touch ..) rfl
  · split
    rename_i x1 st2 s3 heq4
    have h5 : Touch 209952869399 s s3 := Touch.of2 heq4 ((Touch.refl ..).to (devWrites_touch ..) rfl)
    refine Touch.red1 ?_
    exact h5

theorem execTxnPut_touch (port vc s) {t : State} (e : execTxnPut port vc s = .next t) :
    Touch 210221308951 s t := by
  refine run_touch e rfl fun u => ?_
  unfold State.withTxn
  split
  · rename_i x0 heq1
    exact Touch.refl ..
  · rename_i x2 m3 heq4
    extract_lets t5
    clear_value t5
    refine Touch.ite ?_ ?_
    · exact Touch.refl ..
    · refine Touch.ite ?_ ?_
      · split
        · rename_i x6 heq7
          beta_reduce
          extract_lets s8
          have h9 : Touch 210221308951 u s8 := (Touch.refl ..).to (consume_touch ..) rfl
          clear_value s8
          refine Touch.ite ?_ ?_
          · exact (h9).to (rejectTxn_touch ..) rfl
          · split
            · rename_i x10 t11 heq12
              have h13 : Touch 210221308951 u t11 := Touch.of2 heq12 ((h9).to (putData_touch ..) rfl)
              exact h13
            · rename_i x14 st15 t16 x17 heq18
              have h19 : Touch 210221308951 u t16 := Touch.of2 heq18 ((h9).to (putData_touch ..) rfl)
              exact (h19).to (rejectTxn_touch ..) rfl
        · rename_i x20 heq21
          exact (Touch.refl ..).to (holdApart_touch ..) rfl
        · rename_i x22 x23 x24
          exact (Touch.refl ..).to (staleMsg_touch ..) rfl
      · beta_reduce
        extract_lets s25
        have h26 : Touch 210221308951 u s25 := (Touch.refl ..).to (consume_touch ..) rfl
        clear_value s25
        refine Touch.ite ?_ ?_
        · exact (h26).to (rejectTxn_touch ..) rfl
        · split
          · rename_i x27 t28 heq29
            have h30 : Touch 210221308951 u t28 := Touch.of2 heq29 ((h26).to (putData_touch ..) rfl)
            exact h30
          · rename_i x31 st32 t33 x34 heq35
            have h36 : Touch 210221308951 u t33 := Touch.of2 heq35 ((h26).to (putData_touch ..) rfl)
            exact (h36).to (rejectTxn_touch ..) rfl

theorem getData_touch (s rq a a1) : Touch 209919280151 s (State.getData s rq a a1).2.2 := by
  induction a1 generalizing s rq a
  · unfold State.getData
    refine Touch.red2 ?_
    refine Touch.red1 ?_
    exact Touch.refl ..
  · rename_i head0 tail1 tailih2
    unfold State.getData
    split
    · rename_i x3 bs4 s5 heq6
      have h7 : Touch 209919280151 s s5 := Touch.of22 heq6 ((Touch.refl ..).to (devRead_touch ..) rfl)
      exact (h7).to (tailih2 _ _ _) rfl
    · rename_i x8 st9 fst10 s11 x12 heq13
      have h14 : Touch 209919280151 s s11 := Touch.of22 heq13 ((Touch.refl ..).to (devRead_touch ..) rfl)
      refine Touch.red2 ?_
      refine Touch.red1 ?_
      exact h14

theorem execTxnGet_touch (port vc s) {t : State} (e : execTxnGet port vc s = .next t) :
    Touch 210187719703 s t := by
  refine run_touch e rfl fun u => ?_
  unfold State.withTxn
  split
  · rename_i x0 heq1
    exact Touch.refl ..
  · rename_i x2 m3 heq4
    extract_lets t5
    clear_value t5
    refine Touch.ite ?_ ?_
    · exact Touch.refl ..
    · refine Touch.ite ?_ ?_
      · split
        · rename_i x6 heq7
          beta_reduce
          extract_lets s8 rq9
          have h10 : Touch 210187719703 u s8 := (Touch.refl ..).to (consume_touch ..) rfl
          clear_value s8
          clear_value rq9
          refine Touch.ite ?_ ?_
          · exact ((h10).to (rejectTxn_touch ..) rfl).to (answerGet_touch ..) rfl
          · split
            · rename_i x11 bs12 s13 heq14
              have h15 : Touch 210187719703 u s13 := Touch.of22 heq14 ((h10).to (getData_touch ..) rfl)
              exact (h15).to (answerGet_touch ..) rfl
            · rename_i x16 st17 fst18 s19 x20 heq21
              have h22 : Touch 210187719703 u s19 := Touch.of22 heq21 ((h10).to (getData_touch ..) rfl)
              exact ((h22).to (rejectTxn_touch ..) rfl).to (answerGet_touch ..) rfl
        · rename_i x23 heq24
          exact (Touch.refl ..).to (holdApart_touch ..) rfl
        · rename_i x25 x26 x27
          exact (Touch.refl ..).to (staleMsg_touch ..) rfl
      · beta_reduce
        extract_lets s28 rq29
        have h30 : Touch 210187719703 u s28 := (Touch.refl ..).to (consume_touch ..) rfl
        clear_value s28
        clear_value rq29
        refine Touch.ite ?_ ?_
        · exact ((h30).to (rejectTxn_touch ..) rfl).to (answerGet_touch ..) rfl
        · split
          · rename_i x31 bs32 s33 heq34
            have h35 : Touch 210187719703 u s33 := Touch.of22 heq34 ((h30).to (getData_touch ..) rfl)
            exact (h35).to (answerGet_touch ..) rfl
          · rename_i x36 st37 fst38 s39 x40 heq41
            have h42 : Touch 210187719703 u s39 := Touch.of22 heq41 ((h30).to (getData_touch ..) rfl)
            exact ((h42).to (rejectTxn_touch ..) rfl).to (answerGet_touch ..) rfl

theorem forget_touch (s q o) : Touch 4096 s (State.forget s q o) := by
  unfold State.forget
  exact (Touch.refl ..).to (modPort_touch ..) rfl

theorem execTxnGetResponse_touch (port vc s) {t : State} (e : execTxnGetResponse port vc s = .next t) :
    Touch 209919384663 s t := by
  refine run_touch e rfl fun u => ?_
  split
  · rename_i x0 heq1
    exact Touch.refl ..
  · rename_i x2 m3 heq4
    extract_lets t5 s6
    have h7 : Touch 209919384663 u s6 := (Touch.refl ..).to (consume_touch ..) rfl
    clear_value s6
    clear_value t5
    refine Touch.ite ?_ ?_
    · exact Touch.refl ..
    · split
      · rename_i x8 heq9
        exact h7
      · rename_i x10 q11 o12 heq13
        extract_lets s14
        have h15 : Touch 209919384663 u s14 := (h7).to (forget_touch ..) rfl
        clear_value s14
        refine Touch.ite ?_ ?_
        · split
          rename_i x16 st17 s18 heq19
          have h20 : Touch 209919384663 u s18 := by
            refine Touch.of2 heq19 ?_
            refine Touch.ite2 ?_ ?_
            · exact (h15).to (devWrite_touch ..) rfl
            · refine Touch.red1 ?_
              exact h15
          refine Touch.foldl ?_ (fun t21 a22 h23 => ?_)
          · exact h20
          · exact (h23).to (opAck_touch ..) rfl
        · exact (h15).to (fillAnswer_touch ..) rfl

theorem addI32s_touch (s rq a body a1) : Touch 231922991095 s (State.addI32s s rq a body a1).2.2 := by
  induction a1 generalizing s rq a body
  · unfold State.addI32s
    refine Touch.red2 ?_
    refine Touch.red1 ?_
    exact Touch.refl ..
  · rename_i head0 tail1 tailih2
    unfold State.addI32s
    split
    · rename_i x3 heq4
      split
      · rename_i x5 bs6 s7 heq8
        have h9 : Touch 231922991095 s s7 := Touch.of22 heq8 ((Touch.refl ..).to (accessRead_touch ..) rfl)
        exact (((h9).to (storeBytes_touch ..) rfl).to (countAtomic_touch ..) rfl).to (tailih2 _ _ _ _) rfl
      · rename_i x10 st11 fst12 s13 x14 heq15
        have h16 : Touch 231922991095 s s13 := Touch.of22 heq15 ((Touch.refl ..).to (accessRead_touch ..) rfl)
        refine Touch.red2 ?_
        refine Touch.red1 ?_
        exact h16
    · rename_i x17 x18
      refine Touch.red2 ?_
      refine Touch.red1 ?_
      exact Touch.refl ..

theorem execTxnAtomicAddI32_touch (port s) {t : State} (e : execTxnAtomicAddI32 port s = .next t) :
    Touch 231922991095 s t := by
  refine run_touch e rfl fun u => ?_
  unfold State.withTxn
  split
  · rename_i x0 heq1
    exact Touch.refl ..
  · rename_i x2 m3 heq4
    extract_lets t5
    clear_value t5
    refine Touch.ite ?_ ?_
    · exact Touch.refl ..
    · refine Touch.ite ?_ ?_
      · split
        · rename_i x6 heq7
          beta_reduce
          refine Touch.ite ?_ ?_
          · exact Touch.refl ..
          · extract_lets s8
            have h9 : Touch 231922991095 u s8 := (Touch.refl ..).to (consume_touch ..) rfl
            clear_value s8
            refine Touch.ite ?_ ?_
            · exact (h9).to (rejectTxn_touch ..) rfl
            · refine Touch.ite ?_ ?_
              · exact (h9).to (rejectTxn_touch ..) rfl
              · refine Touch.ite ?_ ?_
                · exact (h9).to (rejectTxn_touch ..) rfl
                · split
                  · rename_i x10 sat11 s12 heq13
                    have h14 : Touch 231922991095 u s12 := Touch.of22 heq13 ((h9).to (addI32s_touch ..) rfl)
                    refine Touch.ite ?_ ?_
                    · exact (h14).to (countError_touch ..) rfl
                    · exact h14
                  · rename_i x15 st16 fst17 s18 x19 heq20
                    have h21 : Touch 231922991095 u s18 := Touch.of22 heq20 ((h9).to (addI32s_touch ..) rfl)
                    exact (h21).to (rejectTxn_touch ..) rfl
        · rename_i x22 heq23
          exact (Touch.refl ..).to (holdApart_touch ..) rfl
        · rename_i x24 x25 x26
          exact (Touch.refl ..).to (staleMsg_touch ..) rfl
      · beta_reduce
        refine Touch.ite ?_ ?_
        · exact Touch.refl ..
        · extract_lets s27
          have h28 : Touch 231922991095 u s27 := (Touch.refl ..).to (consume_touch ..) rfl
          clear_value s27
          refine Touch.ite ?_ ?_
          · exact (h28).to (rejectTxn_touch ..) rfl
          · refine Touch.ite ?_ ?_
            · exact (h28).to (rejectTxn_touch ..) rfl
            · refine Touch.ite ?_ ?_
              · exact (h28).to (rejectTxn_touch ..) rfl
              · split
                · rename_i x29 sat30 s31 heq32
                  have h33 : Touch 231922991095 u s31 := Touch.of22 heq32 ((h28).to (addI32s_touch ..) rfl)
                  refine Touch.ite ?_ ?_
                  · exact (h33).to (countError_touch ..) rfl
                  · exact h33
                · rename_i x34 st35 fst36 s37 x38 heq39
                  have h40 : Touch 231922991095 u s37 := Touch.of22 heq39 ((h28).to (addI32s_touch ..) rfl)
                  exact (h40).to (rejectTxn_touch ..) rfl

theorem execTxnAtomicAddA64_touch (port s) {t : State} (e : execTxnAtomicAddA64 port s = .next t) :
    Touch 231922991095 s t := by
  refine run_touch e rfl fun u => ?_
  unfold State.withTxn
  split
  · rename_i x0 heq1
    exact Touch.refl ..
  · rename_i x2 m3 heq4
    extract_lets t5
    clear_value t5
    refine Touch.ite ?_ ?_
    · exact Touch.refl ..
    · refine Touch.ite ?_ ?_
      · split
        · rename_i x6 heq7
          beta_reduce
          refine Touch.ite ?_ ?_
          · exact Touch.refl ..
          · extract_lets s8 a9 info10
            have h11 : Touch 231922991095 u s8 := (Touch.refl ..).to (consume_touch ..) rfl
            clear_value s8
            clear_value info10
            clear_value a9
            refine Touch.ite ?_ ?_
            · exact (h11).to (rejectTxn_touch ..) rfl
            · refine Touch.ite ?_ ?_
              · exact (h11).to (rejectTxn_touch ..) rfl
              · split
                · rename_i x12 sat13 s14 heq15
                  have h16 : Touch 231922991095 u s14 := Touch.of22 heq15 ((h11).to (addRow_touch ..) rfl)
                  refine Touch.ite ?_ ?_
                  · exact (h16).to (countError_touch ..) rfl
                  · exact h16
                · rename_i x17 st18 fst19 s20 x21 heq22
                  have h23 : Touch 231922991095 u s20 := Touch.of22 heq22 ((h11).to (addRow_touch ..) rfl)
                  exact (h23).to (rejectTxn_touch ..) rfl
        · rename_i x24 heq25
          exact (Touch.refl ..).to (holdApart_touch ..) rfl
        · rename_i x26 x27 x28
          exact (Touch.refl ..).to (staleMsg_touch ..) rfl
      · beta_reduce
        refine Touch.ite ?_ ?_
        · exact Touch.refl ..
        · extract_lets s29 a30 info31
          have h32 : Touch 231922991095 u s29 := (Touch.refl ..).to (consume_touch ..) rfl
          clear_value s29
          clear_value info31
          clear_value a30
          refine Touch.ite ?_ ?_
          · exact (h32).to (rejectTxn_touch ..) rfl
          · refine Touch.ite ?_ ?_
            · exact (h32).to (rejectTxn_touch ..) rfl
            · split
              · rename_i x33 sat34 s35 heq36
                have h37 : Touch 231922991095 u s35 := Touch.of22 heq36 ((h32).to (addRow_touch ..) rfl)
                refine Touch.ite ?_ ?_
                · exact (h37).to (countError_touch ..) rfl
                · exact h37
              · rename_i x38 st39 fst40 s41 x42 heq43
                have h44 : Touch 231922991095 u s41 := Touch.of22 heq43 ((h32).to (addRow_touch ..) rfl)
                exact (h44).to (rejectTxn_touch ..) rfl

theorem deliver_touch (s p t slot i o at' data total) : Touch 214742859767 s (State.deliver s p t slot i o at' data total) := by
  unfold State.deliver
  split
  · rename_i x0 t1 heq2
    have h3 : Touch 214742859767 s t1 := Touch.of2 heq2 ((Touch.refl ..).to (devWrite_touch ..) rfl)
    extract_lets n4 s5
    have h6 : Touch 214742859767 s s5 := Touch.set_ops (h3) rfl
    clear_value s5
    clear_value n4
    refine Touch.ite ?_ ?_
    · exact (h6).to (opAck_touch ..) rfl
    · exact h6
  · rename_i x7 st8 t9 x10 heq11
    have h12 : Touch 214742859767 s t9 := Touch.of2 heq11 ((Touch.refl ..).to (devWrite_touch ..) rfl)
    exact ((h12).to (rejectTxn_touch ..) rfl).to (opAbortAt_touch ..) rfl

theorem execTxnSend_touch (port vc s) {t : State} (e : execTxnSend port vc s = .next t) :
    Touch 214742859767 s t := by
  refine run_touch e rfl fun u => ?_
  unfold State.withTxn
  split
  · rename_i x0 heq1
    exact Touch.refl ..
  · rename_i x2 m3 heq4
    extract_lets t5
    clear_value t5
    refine Touch.ite ?_ ?_
    · exact Touch.refl ..
    · refine Touch.ite ?_ ?_
      · split
        · rename_i x6 heq7
          beta_reduce
          extract_lets reject8 channel9 b10 mb11 off12 data13
          clear_value data13
          clear_value off12
          clear_value mb11
          clear_value b10
          clear_value channel9
          split
          · rename_i x14 heq15
            unfold reject8
            exact ((Touch.refl ..).to (consume_touch ..) rfl).to (rejectTxn_touch ..) rfl
          · rename_i x16 slot17 j18 d19 heq20
            refine Touch.ite ?_ ?_
            · unfold reject8
              exact ((Touch.refl ..).to (consume_touch ..) rfl).to (rejectTxn_touch ..) rfl
            · split
              · rename_i x21 x22 i23 o24 out25 heq26 heq27
                exact ((Touch.refl ..).to (consume_touch ..) rfl).to (deliver_touch ..) rfl
              · rename_i x28 x29 x30
                exact Touch.refl ..
        · rename_i x31 heq32
          exact (Touch.refl ..).to (holdApart_touch ..) rfl
        · rename_i x33 x34 x35
          exact (Touch.refl ..).to (staleMsg_touch ..) rfl
      · beta_reduce
        extract_lets reject36 channel37 b38 mb39 off40 data41
        clear_value data41
        clear_value off40
        clear_value mb39
        clear_value b38
        clear_value channel37
        split
        · rename_i x42 heq43
          unfold reject36
          exact ((Touch.refl ..).to (consume_touch ..) rfl).to (rejectTxn_touch ..) rfl
        · rename_i x44 slot45 j46 d47 heq48
          refine Touch.ite ?_ ?_
          · unfold reject36
            exact ((Touch.refl ..).to (consume_touch ..) rfl).to (rejectTxn_touch ..) rfl
          · split
            · rename_i x49 x50 i51 o52 out53 heq54 heq55
              exact ((Touch.refl ..).to (consume_touch ..) rfl).to (deliver_touch ..) rfl
            · rename_i x56 x57 x58
              exact Touch.refl ..

theorem takeChunk_touch (s port m) : Touch 214742859767 s ((State.takeChunk s port m).getD s) := by
  unfold State.takeChunk
  extract_lets t0 index1
  clear_value index1
  clear_value t0
  split
  · rename_i x2 heq3
    refine Touch.someO ?_
    exact (Touch.refl ..).to (holdApart_touch ..) rfl
  · rename_i x4 heq5
    refine Touch.someO ?_
    exact (Touch.refl ..).to (staleMsg_touch ..) rfl
  · rename_i x6 x7 x8
    refine Touch.iteO ?_ ?_
    · refine Touch.someO ?_
      exact ((Touch.refl ..).to (consume_touch ..) rfl).to (rejectTxn_touch ..) rfl
    · refine Touch.iteO ?_ ?_
      · refine Touch.someO ?_
        exact (Touch.refl ..).to (consume_touch ..) rfl
      · refine Touch.toO ?_ (applyStep_touch ..) rfl
        exact (Touch.refl ..).to (consume_touch ..) rfl

theorem execTxnCollectiveStep_touch (port s) {t : State} (e : execTxnCollectiveStep port s = .next t) :
    Touch 214742859767 s t := by
  refine run_touch e rfl fun u => ?_
  split
  · rename_i x0 m1 heq2
    refine Touch.ite ?_ ?_
    · refine Touch.toO ?_ (takeChunk_touch ..) rfl
      exact Touch.refl ..
    · exact Touch.refl ..
  · rename_i x3 heq4
    exact Touch.refl ..

theorem coverForwards_touch (s p) : Touch 4096 s (State.coverForwards s p) := by
  unfold State.coverForwards
  extract_lets open0
  clear_value open0
  refine Touch.foldl ?_ (fun t1 a2 h3 => ?_)
  · exact Touch.refl ..
  · extract_lets tag4 s5 s6
    have h7 : Touch 4096 s s5 := (h3).to (sendFence_touch ..) rfl
    clear_value s5
    have h8 : Touch 4096 s s6 := (h7).to (modPort_touch ..) rfl
    clear_value s6
    clear_value tag4
    exact (h8).to (modPort_touch ..) rfl

theorem execTxnFence_touch (port s) {t : State} (e : execTxnFence port s = .next t) :
    Touch 4100 s t := by
  refine run_touch e rfl fun u => ?_
  split
  · rename_i x0 heq1
    exact Touch.refl ..
  · rename_i x2 m3 heq4
    extract_lets t5 body6 s7 src8
    have h9 : Touch 4100 u s7 := ((Touch.refl ..).to (consume_touch ..) rfl).to (modPort_touch ..) rfl
    clear_value s7
    clear_value src8
    clear_value body6
    clear_value t5
    refine Touch.ite ?_ ?_
    · exact Touch.refl ..
    · refine Touch.ite ?_ ?_
      · exact (Touch.refl ..).to (coverForwards_touch ..) rfl
      · exact (h9).to (sendMsg_touch ..) rfl

theorem execTxnFenceResponse_touch (port s) {t : State} (e : execTxnFenceResponse port s = .next t) :
    Touch 206965936214 s t := by
  refine run_touch e rfl fun u => ?_
  split
  · rename_i x0 heq1
    exact Touch.refl ..
  · rename_i x2 m3 heq4
    extract_lets t5 s6 b7 errors8
    have h9 : Touch 206965936214 u s6 := (Touch.refl ..).to (consume_touch ..) rfl
    clear_value s6
    clear_value errors8
    clear_value b7
    clear_value t5
    refine Touch.ite ?_ ?_
    · exact Touch.refl ..
    · refine Touch.ite ?_ ?_
      · exact ((Touch.refl ..).to (consume_touch ..) rfl).to (rejectTxn_touch ..) rfl
      · split
        · rename_i x10 heq11
          exact h9
        · rename_i x12 o13 heq14
          extract_lets s15
          have h16 : Touch 206965936214 u s15 := (h9).to (forget_touch ..) rfl
          clear_value s15
          refine Touch.ite ?_ ?_
          · exact (h16).to (covered_touch ..) rfl
          · refine Touch.ite ?_ ?_
            · refine Touch.foldl ?_ (fun t17 a18 h19 => ?_)
              · exact h16
              · exact (h19).to (opAck_touch ..) rfl
            · exact (h16).to (requestOver_touch ..) rfl

theorem execTxnForward_touch (port vc s) {t : State} (e : execTxnForward port vc s = .next t) :
    Touch 206965837846 s t := by
  refine run_touch e rfl fun u => ?_
  split
  · rename_i x0 heq1
    exact Touch.refl ..
  · rename_i x2 m3 heq4
    extract_lets t5 pieces6 kept7 s8
    have h9 : Touch 206965837846 u s8 := (Touch.refl ..).to (modPort_touch ..) rfl
    clear_value s8
    clear_value kept7
    clear_value pieces6
    clear_value t5
    refine Touch.ite ?_ ?_
    · exact Touch.refl ..
    · split
      · rename_i x10 heq11
        exact ((Touch.refl ..).to (consume_touch ..) rfl).to (rejectTxn_touch ..) rfl
      · rename_i x12 q13 heq14
        extract_lets s15 s16
        have h17 : Touch 206965837846 u s15 := (h9).to (modPort_touch ..) rfl
        clear_value s15
        have h18 : Touch 206965837846 u s16 := (h17).to (addPf_touch _ _ _ _ (by decide)) rfl
        clear_value s16
        exact (h18).to (modPort_touch ..) rfl

theorem execTxnTimeout_touch (port tag s) {t : State} (e : execTxnTimeout port tag s = .next t) :
    Touch 268546116 s t := by
  refine run_touch e rfl fun u => ?_
  split
  · rename_i x0 heq1
    exact Touch.refl ..
  · rename_i x2 o3 heq4
    exact (((Touch.refl ..).to (forget_touch ..) rfl).to (requestOver_touch ..) rfl).to (suspect_touch ..) rfl

/-! ### Notice -/

theorem execNoticeSlow_touch (port s) {t : State} (e : execNoticeSlow port s = .next t) :
    Touch 206965846038 s t := by
  refine run_touch e rfl fun u => ?_
  unfold State.withNotice
  split
  · rename_i x0 heq1
    exact Touch.refl ..
  · rename_i x2 m3 b4 heq5
    extract_lets s6 key7 src8 s9
    have h10 : Touch 206965846038 u s6 := (Touch.refl ..).to (consume_touch ..) rfl
    clear_value s6
    have h11 : Touch 206965846038 u s9 := Touch.set_fabric (h10) rfl
    clear_value s9
    clear_value src8
    clear_value key7
    refine Touch.ite ?_ ?_
    · exact (h10).to (rejectTxn_touch ..) rfl
    · refine Touch.ite ?_ ?_
      · beta_reduce
        exact (h10).to (setPf_touch _ _ _ _ (by decide)) rfl
      · refine Touch.ite ?_ ?_
        · exact h10
        · beta_reduce
          exact ((h11).to (spread_touch ..) rfl).to (setPf_touch _ _ _ _ (by decide)) rfl

theorem execNoticeClear_touch (port s) {t : State} (e : execNoticeClear port s = .next t) :
    Touch 206965846038 s t := by
  refine run_touch e rfl fun u => ?_
  unfold State.withNotice
  split
  · rename_i x0 heq1
    exact Touch.refl ..
  · rename_i x2 m3 b4 heq5
    extract_lets s6 key7 src8 s9
    have h10 : Touch 206965846038 u s6 := (Touch.refl ..).to (consume_touch ..) rfl
    clear_value s6
    have h11 : Touch 206965846038 u s9 := Touch.set_fabric (h10) rfl
    clear_value s9
    clear_value src8
    clear_value key7
    refine Touch.ite ?_ ?_
    · exact (h10).to (rejectTxn_touch ..) rfl
    · refine Touch.ite ?_ ?_
      · beta_reduce
        exact (h10).to (setPf_touch _ _ _ _ (by decide)) rfl
      · refine Touch.ite ?_ ?_
        · exact h10
        · beta_reduce
          exact ((h11).to (spread_touch ..) rfl).to (setPf_touch _ _ _ _ (by decide)) rfl

theorem execSlowStretchExpiry_touch (port s) {t : State} (e : execSlowStretchExpiry port s = .next t) :
    Touch 268435460 s t := by
  refine run_touch e rfl fun u => ?_
  exact (Touch.refl ..).to (setPf_touch _ _ _ _ (by decide)) rfl

theorem cancelOpen_touch (s slot cause j) : Touch 214742859767 s (State.cancelOpen s slot cause j) := by
  unfold State.cancelOpen
  extract_lets s0
  have h1 : Touch 214742859767 s s0 := by
    unfold s0
    refine Touch.ite ?_ ?_
    · exact Touch.refl ..
    · exact (Touch.refl ..).to (setJob_touch ..) rfl
  clear_value s0
  exact (h1).to (abandon_touch ..) rfl

theorem cancel_touch (s epoch cause) : Touch 214742859767 s (State.cancel s epoch cause) := by
  unfold State.cancel
  extract_lets named0
  clear_value named0
  refine Touch.ite ?_ ?_
  · exact (Touch.refl ..).to (exportFallback_touch ..) rfl
  · split
    · rename_i named1 k2 j3
      refine Touch.ite ?_ ?_
      · exact (Touch.refl ..).to (cancelOpen_touch ..) rfl
      · exact Touch.refl ..
    · rename_i named4
      refine Touch.ite ?_ ?_
      · exact (Touch.refl ..).to (dropApart_touch ..) rfl
      · exact Touch.refl ..

theorem execNoticeCancel_touch (port s) {t : State} (e : execNoticeCancel port s = .next t) :
    Touch 214742859767 s t := by
  refine run_touch e rfl fun u => ?_
  unfold State.withNotice
  split
  · rename_i x0 heq1
    exact Touch.refl ..
  · rename_i x2 m3 b4 heq5
    extract_lets s6 key7 src8 s9
    have h10 : Touch 214742859767 u s6 := (Touch.refl ..).to (consume_touch ..) rfl
    clear_value s6
    have h11 : Touch 214742859767 u s9 := Touch.set_fabric (h10) rfl
    clear_value s9
    clear_value src8
    clear_value key7
    refine Touch.ite ?_ ?_
    · exact (h10).to (rejectTxn_touch ..) rfl
    · refine Touch.ite ?_ ?_
      · beta_reduce
        exact (h10).to (cancel_touch ..) rfl
      · refine Touch.ite ?_ ?_
        · exact h10
        · beta_reduce
          exact ((h11).to (spread_touch ..) rfl).to (cancel_touch ..) rfl

theorem dropQueries_touch (s c) : Touch 8192 s (State.dropQueries s c) := by
  unfold State.dropQueries
  exact Touch.set_fabric (Touch.refl ..) rfl

theorem deviceFailed_touch (s c code) : Touch 214742859767 s (State.deviceFailed s c code) := by
  unfold State.deviceFailed
  extract_lets s0
  have h1 : Touch 214742859767 s s0 := by
    unfold s0
    refine Touch.foldl ?_ (fun t2 a3 h4 => ?_)
    · exact (Touch.refl ..).to (dropQueries_touch ..) rfl
    · exact (h4).to (neighbourFailed_touch ..) rfl
  clear_value s0
  refine Touch.ite ?_ ?_
  · exact (h1).to (memberFailed_touch ..) rfl
  · exact h1

theorem declareNeighbour_touch (s p c) : Touch 231922728951 s (State.declareNeighbour s p c) := by
  unfold State.declareNeighbour
  extract_lets s0
  have h1 : Touch 231922728951 s s0 := (((Touch.refl ..).to (flood_touch ..) rfl).to (inc_touch_in (k := 28) _ _ rfl) rfl).to (event_touch ..) rfl
  clear_value s0
  refine Touch.ite ?_ ?_
  · exact (h1).to (declareFailed_touch ..) rfl
  · exact (h1).to (deviceFailed_touch ..) rfl

theorem execNoticeSelfFailed_touch (port s) {t : State} (e : execNoticeSelfFailed port s = .next t) :
    Touch 231922728951 s t := by
  refine run_touch e rfl fun u => ?_
  unfold State.withNotice
  split
  · rename_i x0 heq1
    exact Touch.refl ..
  · rename_i x2 m3 b4 heq5
    extract_lets s6 key7 src8 s9
    have h10 : Touch 231922728951 u s6 := (Touch.refl ..).to (consume_touch ..) rfl
    clear_value s6
    have h11 : Touch 231922728951 u s9 := Touch.set_fabric (h10) rfl
    clear_value s9
    clear_value src8
    clear_value key7
    refine Touch.ite ?_ ?_
    · exact (h10).to (rejectTxn_touch ..) rfl
    · refine Touch.ite ?_ ?_
      · beta_reduce
        extract_lets c12
        clear_value c12
        split
        · rename_i x13 q14 heq15
          exact (h10).to (declareNeighbour_touch ..) rfl
        · rename_i x16 heq17
          exact (h10).to (deviceFailed_touch ..) rfl
      · refine Touch.ite ?_ ?_
        · exact h10
        · beta_reduce
          extract_lets c18
          clear_value c18
          split
          · rename_i x19 q20 heq21
            exact ((h11).to (spread_touch ..) rfl).to (declareNeighbour_touch ..) rfl
          · rename_i x22 heq23
            exact ((h11).to (spread_touch ..) rfl).to (deviceFailed_touch ..) rfl

theorem execNoticeFailed_touch (port s) {t : State} (e : execNoticeFailed port s = .next t) :
    Touch 231922728951 s t := by
  refine run_touch e rfl fun u => ?_
  unfold State.withNotice
  split
  · rename_i x0 heq1
    exact Touch.refl ..
  · rename_i x2 m3 b4 heq5
    extract_lets s6 key7 src8 s9
    have h10 : Touch 231922728951 u s6 := (Touch.refl ..).to (consume_touch ..) rfl
    clear_value s6
    have h11 : Touch 231922728951 u s9 := Touch.set_fabric (h10) rfl
    clear_value s9
    clear_value src8
    clear_value key7
    refine Touch.ite ?_ ?_
    · exact (h10).to (rejectTxn_touch ..) rfl
    · refine Touch.ite ?_ ?_
      · beta_reduce
        extract_lets c12
        clear_value c12
        refine Touch.ite ?_ ?_
        · exact (h10).to (declareFailed_touch ..) rfl
        · exact (h10).to (deviceFailed_touch ..) rfl
      · refine Touch.ite ?_ ?_
        · exact h10
        · beta_reduce
          extract_lets c13
          clear_value c13
          refine Touch.ite ?_ ?_
          · exact ((h11).to (spread_touch ..) rfl).to (declareFailed_touch ..) rfl
          · exact ((h11).to (spread_touch ..) rfl).to (deviceFailed_touch ..) rfl

theorem execNoticeQuery_touch (port s) {t : State} (e : execNoticeQuery port s = .next t) :
    Touch 206965846038 s t := by
  refine run_touch e rfl fun u => ?_
  unfold State.withNotice
  split
  · rename_i x0 heq1
    exact Touch.refl ..
  · rename_i x2 m3 b4 heq5
    extract_lets s6 key7 src8 s9
    have h10 : Touch 206965846038 u s6 := (Touch.refl ..).to (consume_touch ..) rfl
    clear_value s6
    have h11 : Touch 206965846038 u s9 := Touch.set_fabric (h10) rfl
    clear_value s9
    clear_value src8
    clear_value key7
    refine Touch.ite ?_ ?_
    · exact (h10).to (rejectTxn_touch ..) rfl
    · refine Touch.ite ?_ ?_
      · beta_reduce
        extract_lets c12 src13 s14
        have h15 : Touch 206965846038 u s14 := Touch.set_fabric (h10) rfl
        clear_value s14
        clear_value src13
        clear_value c12
        split
        · rename_i x16 heq17
          exact h10
        · rename_i x18 p19 heq20
          refine Touch.ite ?_ ?_
          · exact (h15).to (report_touch ..) rfl
          · exact h15
      · refine Touch.ite ?_ ?_
        · exact h10
        · beta_reduce
          extract_lets c21 src22 s23
          have h24 : Touch 206965846038 u s23 := Touch.set_fabric ((h11).to (spread_touch ..) rfl) rfl
          clear_value s23
          clear_value src22
          clear_value c21
          split
          · rename_i x25 heq26
            exact (h11).to (spread_touch ..) rfl
          · rename_i x27 p28 heq29
            refine Touch.ite ?_ ?_
            · exact (h24).to (report_touch ..) rfl
            · exact h24

theorem execNoticeReport_touch (port s) {t : State} (e : execNoticeReport port s = .next t) :
    Touch 231922728951 s t := by
  refine run_touch e rfl fun u => ?_
  unfold State.withNotice
  split
  · rename_i x0 heq1
    exact Touch.refl ..
  · rename_i x2 m3 b4 heq5
    extract_lets s6 key7 src8 s9
    have h10 : Touch 231922728951 u s6 := (Touch.refl ..).to (consume_touch ..) rfl
    clear_value s6
    have h11 : Touch 231922728951 u s9 := Touch.set_fabric (h10) rfl
    clear_value s9
    clear_value src8
    clear_value key7
    refine Touch.ite ?_ ?_
    · exact (h10).to (rejectTxn_touch ..) rfl
    · refine Touch.ite ?_ ?_
      · beta_reduce
        extract_lets c12
        clear_value c12
        split
        · rename_i x13 heq14
          exact h10
        · rename_i x15 q16 heq17
          refine Touch.ite ?_ ?_
          · exact (h10).to (declareNeighbour_touch ..) rfl
          · refine Touch.ite ?_ ?_
            · exact h10
            · extract_lets s18 src19 s20
              have h21 : Touch 231922728951 u s18 := ((h10).to (inc_touch_in (k := 28) _ _ rfl) rfl).to (event_touch ..) rfl
              clear_value s18
              have h22 : Touch 231922728951 u s20 := Touch.set_fabric (h21) rfl
              clear_value s20
              clear_value src19
              exact (h22).to (fullTrain_touch ..) rfl
      · refine Touch.ite ?_ ?_
        · exact h10
        · beta_reduce
          extract_lets c23
          clear_value c23
          split
          · rename_i x24 heq25
            exact (h11).to (spread_touch ..) rfl
          · rename_i x26 q27 heq28
            refine Touch.ite ?_ ?_
            · exact ((h11).to (spread_touch ..) rfl).to (declareNeighbour_touch ..) rfl
            · refine Touch.ite ?_ ?_
              · exact (h11).to (spread_touch ..) rfl
              · extract_lets s29 src30 s31
                have h32 : Touch 231922728951 u s29 := (((h11).to (spread_touch ..) rfl).to (inc_touch_in (k := 28) _ _ rfl) rfl).to (event_touch ..) rfl
                clear_value s29
                have h33 : Touch 231922728951 u s31 := Touch.set_fabric (h32) rfl
                clear_value s31
                clear_value src30
                exact (h33).to (fullTrain_touch ..) rfl

theorem execConfirmTimeout_touch (port s) {t : State} (e : execConfirmTimeout port s = .next t) :
    Touch 231922728951 s t := by
  refine run_touch e rfl fun u => ?_
  split
  · rename_i x0 heq1
    exact Touch.refl ..
  · rename_i x2 q3 heq4
    refine Touch.ite ?_ ?_
    · exact (Touch.refl ..).to (declareNeighbour_touch ..) rfl
    · refine Touch.ite ?_ ?_
      · exact (Touch.refl ..).to (dropQueries_touch ..) rfl
      · extract_lets s5
        have h6 : Touch 231922728951 u s5 := (Touch.refl ..).to (dropQueries_touch ..) rfl
        clear_value s5
        exact (h6).to (declareNeighbour_touch ..) rfl

theorem markInCast_touch (s) : Touch 268435456 s (State.markInCast s) := by
  unfold State.markInCast
  refine Touch.foldl ?_ (fun t0 a1 h2 => ?_)
  · exact Touch.refl ..
  · exact (h2).to (markPort_touch ..) rfl

theorem formCast_touch (s) : Touch 209113952342 s (State.formCast s) := by
  unfold State.formCast
  split
  · rename_i x0 k1 heq2
    exact ((Touch.refl ..).to (setF_touch_in (k := 28) _ _ _ rfl) rfl).to (event_touch ..) rfl
  · rename_i x3 heq4
    extract_lets src5 s6
    have h7 : Touch 209113952342 s s6 := Touch.set_fabric (Touch.refl ..) rfl
    clear_value s6
    clear_value src5
    exact (((((h7).to (setF_touch_in (k := 28) _ _ _ rfl) rfl).to (setF_touch_in (k := 28) _ _ _ rfl) rfl).to (markInCast_touch ..) rfl).to (helloAll_touch ..) rfl).to (castRefresh_touch ..) rfl

theorem dissolveCast_touch (s) : Touch 209113952342 s (State.dissolveCast s) := by
  unfold State.dissolveCast
  exact ((((Touch.refl ..).to (setF_touch_in (k := 28) _ _ _ rfl) rfl).to (setF_touch_in (k := 28) _ _ _ rfl) rfl).to (markInCast_touch ..) rfl).to (helloAll_touch ..) rfl

theorem execCastForm_touch (s) {t : State} (e : execCastForm s = .next t) :
    Touch 209113952342 s t := by
  refine run_touch e rfl fun u => ?_
  unfold State.castWrite
  unfold State.hostWrite
  refine Touch.ite ?_ ?_
  · beta_reduce
    refine Touch.ite ?_ ?_
    · exact (Touch.refl ..).to (formCast_touch ..) rfl
    · exact (Touch.refl ..).to (discardWrite_touch ..) rfl
  · exact Touch.refl ..

theorem execCastDissolve_touch (s) {t : State} (e : execCastDissolve s = .next t) :
    Touch 209113952342 s t := by
  refine run_touch e rfl fun u => ?_
  unfold State.castWrite
  unfold State.hostWrite
  refine Touch.ite ?_ ?_
  · beta_reduce
    refine Touch.ite ?_ ?_
    · exact (Touch.refl ..).to (dissolveCast_touch ..) rfl
    · exact (Touch.refl ..).to (discardWrite_touch ..) rfl
  · exact Touch.refl ..

end Sys2Proof.Machine
end

