-- ==== Sys2Proof/Laws/TouchStart.lean ====
section
/-!
SUPPORT. The footprint of every operation of the start, the mailbox, units, register writes, management and power: once per operation, the areas it can change.
-/
namespace Sys2Proof.Machine

open Sys2Proof

/-! ### Nor -/

theorem norProgram_touch (s a bs) : Touch 262144 s (State.norProgram s a bs) := by
  unfold State.norProgram
  extract_lets cells0 src1
  clear_value src1
  clear_value cells0
  exact Touch.set_sec (Touch.refl ..) rfl

theorem norErase_touch (s a n) : Touch 262144 s (State.norErase s a n) := by
  unfold State.norErase
  exact Touch.set_sec (Touch.refl ..) rfl

theorem norWrite_touch (s a n bs) : Touch 262144 s (State.norWrite s a n bs) := by
  unfold State.norWrite
  exact ((Touch.refl ..).to (norErase_touch ..) rfl).to (norProgram_touch ..) rfl

theorem writeHeader_touch (s preferred) : Touch 262144 s (State.writeHeader s preferred) := by
  unfold State.writeHeader
  split
  · rename_i x0 x1 k2 fst3 seq4 heq5 heq6
    extract_lets h7
    clear_value h7
    exact (Touch.refl ..).to (norWrite_touch ..) rfl
  · rename_i x8 x9 x10
    exact Touch.refl ..

theorem showRecord_touch (s : State) : Touch (2 ^ 33) s s.showRecord := by
  unfold State.showRecord
  split
  · rename_i p hp
    have : ∀ l : List Nat, (∀ i ∈ l, i < 32) → ∀ t, Touch (2 ^ 33) s t →
        Touch (2 ^ 33) s (l.foldl (fun s i => s.wr (Reg.startRecord + 8 * i) (leNat (s.norBytes (0x10000 + 256 * p + 8 * i) 8))) t) := by
      intro l
      induction l with
      | nil => exact fun _ _ ht => ht
      | cons i l ih =>
        intro hl t ht
        have hi := hl i (List.mem_cons_self ..)
        exact ih (fun j hj => hl j (List.mem_cons_of_mem _ hj)) _ (ht.to (wr_touch_in (k := 33) _ _ _
          (regArea_eq (lo := 0x500000) (hi := 0x600000) (by simp only [Reg.startRecord]; omega) rfl (by decide))) rfl)
    exact this _ (fun i hi => List.mem_range.1 hi) s (Touch.refl ..)
  · exact Touch.refl ..

theorem ledgerPut_touch (s o bs) : Touch 8590196736 s (State.ledgerPut s o bs) := by
  unfold State.ledgerPut
  split
  · rename_i best0 b1 heq2
    exact ((Touch.refl ..).to (norProgram_touch ..) rfl).to (showRecord_touch ..) rfl
  · rename_i best3 heq4
    exact Touch.refl ..

theorem openRecord_touch (s) : Touch 262144 s (State.openRecord s).2 := by
  unfold State.openRecord
  extract_lets p0
  clear_value p0
  refine Touch.red1 ?_
  refine Touch.ite ?_ ?_
  · exact (Touch.refl ..).to (norErase_touch ..) rfl
  · exact Touch.refl ..

theorem clearRecord_touch (s) : Touch 262144 s (State.clearRecord s) := by
  unfold State.clearRecord
  extract_lets count0 pref1
  clear_value pref1
  clear_value count0
  split
  rename_i x2 p3 s4 heq5
  have h6 : Touch 262144 s s4 := Touch.of2 heq5 ((Touch.refl ..).to (openRecord_touch ..) rfl)
  exact (h6).to (norProgram_touch ..) rfl

theorem writeHealth_touch (s) : Touch 262144 s (State.writeHealth s) := by
  unfold State.writeHealth
  split
  rename_i x0 k1 seq2 heq3
  extract_lets s4 src5
  have h6 : Touch 262144 s s4 := (Touch.refl ..).to (norWrite_touch ..) rfl
  clear_value s4
  clear_value src5
  exact Touch.set_sec (h6) rfl

theorem useHealth_touch (s h) : Touch 134481920 s (State.useHealth s h) := by
  unfold State.useHealth
  extract_lets words0 rows1 s2 s3 found4 src5 src6 src7
  have h8 : Touch 134481920 s s2 := by
    unfold s2
    refine Touch.foldl ?_ (fun t9 a10 h11 => ?_)
    · exact Touch.refl ..
    · exact (h11).to (setStack_touch ..) rfl
  clear_value s2
  have h12 : Touch 134481920 s s3 := by
    unfold s3
    refine Touch.foldl ?_ (fun t13 a14 h15 => ?_)
    · exact h8
    · exact (h15).to (setChannel_touch ..) rfl
  clear_value s3
  have h16 : Touch 134481920 s src5 := (h12).to (setF_touch_in (k := 27) _ _ _ rfl) rfl
  clear_value src5
  clear_value src7
  clear_value src6
  clear_value found4
  clear_value rows1
  clear_value words0
  exact Touch.set_sec (h16) rfl

theorem execHealthRecordWrite_touch (s) {t : State} (e : execHealthRecordWrite s = .next t) :
    Touch 262148 s t := by
  refine run_touch e rfl fun u => ?_
  refine Touch.ite ?_ ?_
  · exact (Touch.refl ..).to (writeHealth_touch ..) rfl
  · exact Touch.refl ..

/-! ### Start -/

theorem resetDevice_touch (s : State) : Touch 0x2FFFFFFFE1 s s.resetDevice := by
  unfold State.resetDevice
  extract_lets src stkSrc secSrc mgtSrc r
  have h : Touch 0x2FFFFFFFE1 s r := by
    refine {
      fresh := fun _ => rfl, out := fun _ => rfl, pins := fun _ => rfl, board := fun _ => ⟨rfl, rfl⟩, badAt := fun _ => rfl, pending := rfl
      mem := fun e => absurd e (by decide), queues := fun e => absurd e (by decide), ops := fun e => absurd e (by decide)
      jobs := fun e => absurd e (by decide), array := fun e => absurd e (by decide), rng := fun e => absurd e (by decide)
      banks := fun e => absurd e (by decide), outer := fun e => absurd e (by decide), ports := fun e => absurd e (by decide)
      fabric := fun e => absurd e (by decide), colls := fun e => absurd e (by decide), ckp := fun e => absurd e (by decide)
      fov := fun e => absurd e (by decide), host := fun e => absurd e (by decide), due := fun e => absurd e (by decide)
      sec := fun e => absurd e (by decide), mgt := fun e => absurd e (by decide), regs := ?regs, far := ?far, sound := ?sound }
    case regs =>
      intro off e
      exfalso
      obtain ⟨h1, h2⟩ := regArea_lt off
      generalize regArea off = k at *
      interval_cases k <;> exact absurd e (by decide)
    case far =>
      intro _ a ha
      show SMap.get 0 (s.mem.filter fun e => decide (farBase ≤ e.1)) a = SMap.get 0 s.mem a
      rw [SMap.get_filter 0 (fun k => decide (farBase ≤ k))]
      simp [ha]
    case sound =>
      exact fun e => ⟨SMap.wf_filter _ e.mem, regsWf_filter _ e.regs, e.board⟩
  clear_value r src
  exact (h.to (wr_touch_in (k := 21) _ _ _ rfl) rfl).to (wr_touch_in (k := 34) _ _ _ rfl) rfl

theorem holdReset_touch (s) : Touch 206158430185 s (State.holdReset s) := by
  unfold State.holdReset
  extract_lets s0 src1
  have h2 : Touch 206158430185 s s0 := (Touch.refl ..).to (resetDevice_touch ..) rfl
  clear_value s0
  clear_value src1
  exact Touch.set_pins (h2) rfl

theorem applySettings_touch (s k) : Touch 68718428160 s (State.applySettings s k) := by
  unfold State.applySettings
  refine Touch.foldl ?_ (fun t0 a1 h2 => ?_)
  · exact Touch.refl ..
  · refine Touch.ite ?_ ?_
    · extract_lets m3
      clear_value m3
      exact (h2).to (wr_touch_any ..) rfl
    · exact h2

theorem lockSettings_touch (s) : Touch 68718428160 s (State.lockSettings s) := by
  unfold State.lockSettings
  extract_lets named0 s1
  have h2 : Touch 68718428160 s s1 := by
    unfold s1
    refine Touch.foldl ?_ (fun t3 a4 h5 => ?_)
    · exact Touch.refl ..
    · extract_lets m6
      clear_value m6
      refine Touch.ite ?_ ?_
      · exact h5
      · exact (h5).to (wr_touch_any ..) rfl
  clear_value s1
  clear_value named0
  refine Touch.foldl ?_ (fun t7 a8 h9 => ?_)
  · exact h2
  · extract_lets m10
    clear_value m10
    exact (h9).to (wr_touch_any ..) rfl

theorem initUnit_touch (s u st) : Touch 2147483648 s (State.initUnit s u st) := by
  unfold State.initUnit
  exact (Touch.refl ..).to (wrUnit_touch ..) rfl

theorem startFails_touch (s u code) : Touch 208878960662 s (State.startFails s u code) := by
  unfold State.startFails
  exact (Touch.refl ..).to (setUnit_touch ..) rfl

theorem step0_touch (s) : Touch 232602732574 s (State.step0 s).2 := by
  unfold State.step0
  refine Touch.ite2 ?_ ?_
  · refine Touch.red1 ?_
    exact Touch.refl ..
  · extract_lets f0
    clear_value f0
    split
    rename_i x1 cal2 s3 heq4
    have h5 : Touch 232602732574 s s3 := Touch.of2 heq4 ((Touch.refl ..).to (draw_touch ..) rfl)
    extract_lets src6 src7 s8 s9 s10 s11 s12
    have h13 : Touch 232602732574 s s8 := by
      unfold s8
      refine Touch.to (N := 262152) ?_ { Touch.refl _ s3 with pins := fun e => absurd e (by decide), sec := fun e => absurd e (by decide), sound := fun e => ⟨e.mem, e.regs, e.board⟩ } rfl
      exact h5
    clear_value s8
    have h14 : Touch 232602732574 s s9 := (((h13).to (setF_touch_in (k := 34) _ _ _ rfl) rfl).to (wr_touch_in (k := 20) _ _ _ rfl) rfl).to (setF_touch_in (k := 33) _ _ _ rfl) rfl
    clear_value s9
    have h15 : Touch 232602732574 s s10 := (h14).to (wr_touch_in (k := 33) _ _ _ rfl) rfl
    clear_value s10
    have h16 : Touch 232602732574 s s11 := (h15).to (setF_touch_in (k := 33) _ _ _ rfl) rfl
    clear_value s11
    have h17 : Touch 232602732574 s s12 := by
      unfold s12
      split
      · rename_i x18 k19 heq20
        exact (h16).to (useHealth_touch ..) rfl
      · rename_i x21 heq22
        exact ((h16).to (event_touch ..) rfl).to (useHealth_touch ..) rfl
    clear_value s12
    clear_value src7
    clear_value src6
    refine Touch.red1 ?_
    exact h17

theorem step1_touch (s m) : Touch 1048576 s (State.step1 s m).2 := by
  unfold State.step1
  split
  · rename_i x0 heq1
    refine Touch.red1 ?_
    exact Touch.refl ..
  · rename_i x2 val3 heq4
    refine Touch.red1 ?_
    exact ((Touch.refl ..).to (setF_touch_in (k := 20) _ _ _ rfl) rfl).to (setF_touch_in (k := 20) _ _ _ rfl) rfl

theorem step2_touch (s) : Touch 274877120534 s (State.step2 s).2 := by
  unfold State.step2
  extract_lets area0 src1 src2
  clear_value src2
  clear_value src1
  clear_value area0
  split
  · rename_i x3 r4 heq5
    refine Touch.red1 ?_
    exact (Touch.refl ..).to (event_touch ..) rfl
  · rename_i x6 i7 heq8
    extract_lets s9 s10 s11
    have h12 : Touch 274877120534 s s9 := Touch.set_sec (Touch.refl ..) rfl
    clear_value s9
    have h13 : Touch 274877120534 s s10 := (((h12).to (wr_touch_in (k := 20) _ _ _ rfl) rfl).to (setF_touch_in (k := 33) _ _ _ rfl) rfl).to (setF_touch_in (k := 33) _ _ _ rfl) rfl
    clear_value s10
    have h14 : Touch 274877120534 s s11 := ((h13).to (setF_touch_in (k := 33) _ _ _ rfl) rfl).to (setF_touch_in (k := 34) _ _ _ rfl) rfl
    clear_value s11
    refine Touch.red1 ?_
    exact ((h14).to (applySettings_touch ..) rfl).to (ledgerPut_touch ..) rfl

theorem step3_touch (s) : Touch 524288 s (State.step3 s).2 := by
  unfold State.step3
  refine Touch.ite2 ?_ ?_
  · refine Touch.red1 ?_
    exact Touch.set_mgt (Touch.refl ..) rfl
  · refine Touch.red1 ?_
    exact Touch.refl ..

theorem step4_touch (s) : Touch 2147483648 s (State.step4 s).2 := by
  unfold State.step4
  refine Touch.red1 ?_
  refine Touch.foldl ?_ (fun t0 a1 h2 => ?_)
  · exact Touch.refl ..
  · exact (h2).to (initUnit_touch ..) rfl

theorem step5_touch (s m) : Touch 274877906935 s (State.step5 s m).2 := by
  unfold State.step5
  extract_lets alt0 s1 s2 s3
  have h4 : Touch 274877906935 s s1 := (Touch.refl ..).to (applySettings_touch ..) rfl
  clear_value s1
  have h5 : Touch 274877906935 s s2 := by
    unfold s2
    refine Touch.foldl ?_ (fun t6 a7 h8 => ?_)
    · exact h4
    · extract_lets x9 left10 remap11 fixed12 spares13 changed14 s15 s16 s17
      have h18 : Touch 274877906935 s s15 := (h8).to (setStack_touch ..) rfl
      clear_value s15
      have h19 : Touch 274877906935 s s16 := by
        unfold s16
        refine Touch.ite ?_ ?_
        · exact (h18).to (showRemap_touch ..) rfl
        · exact ((h18).to (setStackF_touch _ _ _ _ (by decide)) rfl).to (setStackF_touch _ _ _ _ (by decide)) rfl
      clear_value s16
      have h20 : Touch 274877906935 s s17 := ((h19).to (setStackF_touch _ _ _ _ (by decide)) rfl).to (setStackF_touch _ _ _ _ (by decide)) rfl
      clear_value s17
      clear_value changed14
      clear_value spares13
      clear_value fixed12
      clear_value remap11
      clear_value left10
      clear_value x9
      exact ((h20).to (setStackF_touch _ _ _ _ (by decide)) rfl).to (initUnit_touch ..) rfl
  clear_value s2
  have h21 : Touch 274877906935 s s3 := (h5).to (setF_touch_in (k := 29) _ _ _ rfl) rfl
  clear_value s3
  clear_value alt0
  split
  · rename_i x22 k23 heq24
    refine Touch.red1 ?_
    exact Touch.refl ..
  · rename_i x25 heq26
    refine Touch.red1 ?_
    refine Touch.foldl ?_ (fun t27 a28 h29 => ?_)
    · exact h21
    · refine Touch.ite ?_ ?_
      · exact (h29).to (stackFull_touch ..) rfl
      · exact h29

theorem step6_touch (s m) : Touch 208878962710 s (State.step6 s m).2 := by
  unfold State.step6
  extract_lets b0 there1 bad2 trained3 act4 lost5 s6
  have h7 : Touch 208878962710 s s6 := by
    unfold s6
    refine Touch.foldl ?_ (fun t8 a9 h10 => ?_)
    · exact Touch.refl ..
    · extract_lets x11 s12 s13 s14 s15
      have h16 : Touch 208878962710 s s12 := (h10).to (setChannel_touch ..) rfl
      clear_value s12
      have h17 : Touch 208878962710 s s13 := ((h16).to (setChanF_touch _ _ _ _ (by decide)) rfl).to (setChanF_touch _ _ _ _ (by decide)) rfl
      clear_value s13
      have h18 : Touch 208878962710 s s14 := by
        unfold s14
        refine Touch.ite ?_ ?_
        · exact (((h17).to (setChanF_touch _ _ _ _ (by decide)) rfl).to (setChanF_touch _ _ _ _ (by decide)) rfl).to (setChanF_touch _ _ _ _ (by decide)) rfl
        · exact h17
      clear_value s14
      have h19 : Touch 208878962710 s s15 := (h18).to (startFails_touch ..) rfl
      clear_value s15
      clear_value x11
      refine Touch.ite ?_ ?_
      · exact (h18).to (initUnit_touch ..) rfl
      · refine Touch.ite ?_ ?_
        · exact (h18).to (initUnit_touch ..) rfl
        · refine Touch.ite ?_ ?_
          · refine Touch.ite ?_ ?_
            · exact (h19).to (event_touch ..) rfl
            · exact h19
          · exact (h18).to (initUnit_touch ..) rfl
  clear_value s6
  clear_value lost5
  clear_value act4
  clear_value trained3
  clear_value bad2
  clear_value there1
  clear_value b0
  refine Touch.ite2 ?_ ?_
  · refine Touch.red1 ?_
    exact Touch.refl ..
  · refine Touch.red1 ?_
    exact (h7).to (setF_touch_in (k := 29) _ _ _ rfl) rfl

theorem startStandby_touch (s b) : Touch 1073741824 s (State.startStandby s b).2 := by
  unfold State.startStandby
  extract_lets t0 inUse1
  clear_value inUse1
  clear_value t0
  refine Touch.ite2 ?_ ?_
  · refine Touch.red1 ?_
    exact Touch.refl ..
  · refine Touch.red1 ?_
    exact ((Touch.refl ..).to (setBf_touch _ _ _ _ (by decide)) rfl).to (setBf_touch _ _ _ _ (by decide)) rfl

theorem step7_touch (s m) : Touch 274877645847 s (State.step7 s m).2 := by
  unfold State.step7
  extract_lets s0 new1 room2 src3 src4 s5 failed6 s7 s8 s9 step10 lost11
  have h12 : Touch 274877645847 s s0 := (Touch.refl ..).to (applySettings_touch ..) rfl
  clear_value s0
  have h13 : Touch 274877645847 s s5 := Touch.set_sec (h12) rfl
  clear_value s5
  have h14 : Touch 274877645847 s s7 := by
    unfold s7
    refine Touch.foldl ?_ (fun t15 a16 h17 => ?_)
    · exact h13
    · exact (h17).to (initUnit_touch ..) rfl
  clear_value s7
  have h18 : Touch 274877645847 s s8 := by
    unfold s8
    refine Touch.foldl ?_ (fun t19 a20 h21 => ?_)
    · exact h14
    · refine Touch.ite ?_ ?_
      · exact (h21).to (initBank_touch ..) rfl
      · exact h21
  clear_value s8
  have h22 : Touch 274877645847 s s9 := (h18).to (markStandby_touch ..) rfl
  clear_value s9
  clear_value lost11
  clear_value failed6
  clear_value src4
  clear_value src3
  clear_value room2
  clear_value new1
  split
  rename_i x23 ok24 s25 heq26
  have h27 : Touch 274877645847 s s25 := by
    refine Touch.of2 heq26 ?_
    refine Touch.foldl2 ?_ (fun b28 t29 a30 h31 => ?_)
    · refine Touch.red1 ?_
      exact h22
    · unfold step10
      extract_lets s32
      have h33 : Touch 274877645847 s s32 := by
        unfold s32
        refine Touch.to ?_ (startFails_touch ..) rfl
        refine Touch.to ?_ (setBf_touch _ _ _ _ (by decide)) rfl
        refine Touch.red1 ?_
        exact h31
      clear_value s32
      refine Touch.ite2 ?_ ?_
      · refine Touch.red1 ?_
        exact h33
      · split
        rename_i x34 ok35 s36 heq37
        have h38 : Touch 274877645847 s s36 := Touch.of2 heq37 ((h33).to (startStandby_touch ..) rfl)
        refine Touch.red1 ?_
        exact h38
  refine Touch.red1 ?_
  exact h27

theorem step8_touch (s m) : Touch 4294967296 s (State.step8 s m).2 := by
  unfold State.step8
  extract_lets s0
  have h1 : Touch 4294967296 s s0 := by
    unfold s0
    refine Touch.foldl ?_ (fun t2 a3 h4 => ?_)
    · exact Touch.refl ..
    · refine Touch.ite ?_ ?_
      · extract_lets map5
        clear_value map5
        exact ((h4).to (wrEng_touch _ _ _ _ (by decide)) rfl).to (setEf_touch _ _ _ _ (by decide)) rfl
      · exact h4
  clear_value s0
  refine Touch.red1 ?_
  exact h1

theorem step9_touch (s m) : Touch 274877448214 s (State.step9 s m).2 := by
  unfold State.step9
  extract_lets s0 bad1 s2 s3 role4 src5 s6 s7 short8
  have h9 : Touch 274877448214 s s0 := (Touch.refl ..).to (applySettings_touch ..) rfl
  clear_value s0
  have h10 : Touch 274877448214 s s2 := by
    unfold s2
    refine Touch.foldl ?_ (fun t11 a12 h13 => ?_)
    · exact h9
    · extract_lets taken14
      clear_value taken14
      refine Touch.ite ?_ ?_
      · exact (h13).to (startFails_touch ..) rfl
      · exact (h13).to (initUnit_touch ..) rfl
  clear_value s2
  have h15 : Touch 274877448214 s s3 := by
    unfold s3
    refine Touch.foldl ?_ (fun t16 a17 h18 => ?_)
    · exact h10
    · exact (h18).to (initUnit_touch ..) rfl
  clear_value s3
  have h19 : Touch 274877448214 s s6 := Touch.set_fov (h15) rfl
  clear_value s6
  have h20 : Touch 274877448214 s s7 := ((h19).to (setF_touch_in (k := 27) _ _ _ rfl) rfl).to (setF_touch_in (k := 27) _ _ _ rfl) rfl
  clear_value s7
  clear_value short8
  clear_value src5
  clear_value role4
  clear_value bad1
  split
  · rename_i bad21 c22 tail23
    refine Touch.red1 ?_
    exact h20
  · rename_i bad24
    refine Touch.red1 ?_
    exact (h20).to (lend_touch ..) rfl

theorem step10_touch (s m) : Touch 274877493334 s (State.step10 s m).2 := by
  unfold State.step10
  extract_lets s0 lost1 s2
  have h3 : Touch 274877493334 s s0 := (Touch.refl ..).to (applySettings_touch ..) rfl
  clear_value s0
  have h4 : Touch 274877493334 s s2 := by
    unfold s2
    refine Touch.foldl ?_ (fun t5 a6 h7 => ?_)
    · exact h3
    · refine Touch.ite ?_ ?_
      · exact (h7).to (initUnit_touch ..) rfl
      · extract_lets s8
        have h9 : Touch 274877493334 s s8 := (h7).to (initUnit_touch ..) rfl
        clear_value s8
        refine Touch.ite ?_ ?_
        · exact h9
        · exact (h9).to (portEnableOp_touch ..) rfl
  clear_value s2
  clear_value lost1
  refine Touch.red1 ?_
  exact h4

theorem step11_touch (s m) : Touch 68718428160 s (State.step11 s m).2 := by
  unfold State.step11
  refine Touch.ite2 ?_ ?_
  · refine Touch.red1 ?_
    exact ((Touch.refl ..).to (applySettings_touch ..) rfl).to (setF_touch_in (k := 20) _ _ _ rfl) rfl
  · refine Touch.red1 ?_
    exact Touch.refl ..

theorem step12_touch (s) : Touch 274877120534 s (State.step12 s).2 := by
  unfold State.step12
  extract_lets zero0 b1 s2 s3 s4 record5 s6 s7 seed8 src9 s10 s11 svns12 floor13 src14 src15 src16 s17
  have h18 : Touch 274877120534 s s2 := (Touch.refl ..).to (setMeas_touch ..) rfl
  clear_value s2
  have h19 : Touch 274877120534 s s3 := ((((h18).to (setMeas_touch ..) rfl).to (extendMeas_touch ..) rfl).to (setMeas_touch ..) rfl).to (extendMeas_touch ..) rfl
  clear_value s3
  have h20 : Touch 274877120534 s s4 := (((h19).to (setMeas_touch ..) rfl).to (extendMeas_touch ..) rfl).to (setMeas_touch ..) rfl
  clear_value s4
  have h21 : Touch 274877120534 s s6 := (((h20).to (extendMeas_touch ..) rfl).to (setMeas_touch ..) rfl).to (extendMeas_touch ..) rfl
  clear_value s6
  have h22 : Touch 274877120534 s s7 := ((h21).to (setMeas_touch ..) rfl).to (setMeas_touch ..) rfl
  clear_value s7
  have h23 : Touch 274877120534 s s10 := Touch.set_sec (h22) rfl
  clear_value s10
  have h24 : Touch 274877120534 s s11 := (h23).to (lockSettings_touch ..) rfl
  clear_value s11
  have h25 : Touch 274877120534 s s17 := by
    unfold s17
    refine Touch.ite ?_ ?_
    · exact ((Touch.set_sec (h24) rfl).to (setF_touch_in (k := 33) _ _ _ rfl) rfl).to (event_touch ..) rfl
    · exact h24
  clear_value s17
  clear_value src16
  clear_value src15
  clear_value src14
  clear_value floor13
  clear_value svns12
  clear_value src9
  clear_value seed8
  clear_value record5
  clear_value b1
  clear_value zero0
  refine Touch.red1 ?_
  exact ((h25).to (setF_touch_in (k := 33) _ _ _ rfl) rfl).to (setF_touch_in (k := 20) _ _ _ rfl) rfl

theorem doStep_touch (s m k) : Touch 274877906943 s (State.doStep s m k).2 := by
  unfold State.doStep
  split
  · rename_i x0 fst1 ev2 u3 heq4
    refine Touch.red1 ?_
    exact Touch.refl ..
  · rename_i x5 heq6
    split
    · rename_i k7
      exact (Touch.refl ..).to (step0_touch ..) rfl
    · rename_i k8
      exact (Touch.refl ..).to (step1_touch ..) rfl
    · rename_i k9
      exact (Touch.refl ..).to (step2_touch ..) rfl
    · rename_i k10
      exact (Touch.refl ..).to (step3_touch ..) rfl
    · rename_i k11
      exact (Touch.refl ..).to (step4_touch ..) rfl
    · rename_i k12
      exact (Touch.refl ..).to (step5_touch ..) rfl
    · rename_i k13
      exact (Touch.refl ..).to (step6_touch ..) rfl
    · rename_i k14
      exact (Touch.refl ..).to (step7_touch ..) rfl
    · rename_i k15
      exact (Touch.refl ..).to (step8_touch ..) rfl
    · rename_i k16
      exact (Touch.refl ..).to (step9_touch ..) rfl
    · rename_i k17
      exact (Touch.refl ..).to (step10_touch ..) rfl
    · rename_i k18
      exact (Touch.refl ..).to (step11_touch ..) rfl
    · rename_i k19 x20 x21 x22 x23 x24 x25 x26 x27 x28 x29 x30 x31
      exact (Touch.refl ..).to (step12_touch ..) rfl

theorem abortStart_touch (s) : Touch 232735903766 s (State.abortStart s) := by
  unfold State.abortStart
  extract_lets s0 s1 s2 src3
  have h4 : Touch 232735903766 s s0 := (Touch.refl ..).to (event_touch ..) rfl
  clear_value s0
  have h5 : Touch 232735903766 s s1 := ((h4).to (setF_touch_in (k := 33) _ _ _ rfl) rfl).to (setFault_touch ..) rfl
  clear_value s1
  have h6 : Touch 232735903766 s s2 := by
    unfold s2
    refine Touch.foldl ?_ (fun t7 a8 h9 => ?_)
    · exact h5
    · exact ((h9).to (setPort_touch ..) rfl).to (setPf_touch _ _ _ _ (by decide)) rfl
  clear_value s2
  clear_value src3
  exact Touch.set_sec (h6) rfl

theorem beginRecord_touch (s) : Touch 215287595030 s (State.beginRecord s).2 := by
  unfold State.beginRecord
  extract_lets b0 pref1 last2 forms3 count4 old5 early6 prefSeq7 was8
  clear_value was8
  clear_value prefSeq7
  clear_value early6
  clear_value old5
  clear_value count4
  clear_value forms3
  clear_value last2
  clear_value pref1
  clear_value b0
  split
  · rename_i forms9
    refine Touch.red1 ?_
    exact Touch.refl ..
  · rename_i forms10 f11
    extract_lets image12 new13
    clear_value image12
    split
    rename_i x14 p15 s16 heq17
    have h18 : Touch 215287595030 s s16 := Touch.of2 heq17 ((Touch.refl ..).to (openRecord_touch ..) rfl)
    extract_lets s19 src20 s21 s22 s23 s24
    have h25 : Touch 215287595030 s s19 := (h18).to (norProgram_touch ..) rfl
    clear_value s19
    have h26 : Touch 215287595030 s s21 := Touch.set_sec (h25) rfl
    clear_value s21
    have h27 : Touch 215287595030 s s22 := ((h26).to (setF_touch_in (k := 33) _ _ _ rfl) rfl).to (showRecord_touch ..) rfl
    clear_value s22
    have h28 : Touch 215287595030 s s23 := by
      unfold s23
      unfold new13
      refine Touch.foldl ?_ (fun t29 a30 h31 => ?_)
      · exact h27
      · refine Touch.ite ?_ ?_
        · exact (h31).to (event_touch ..) rfl
        · exact h31
    clear_value s23
    have h32 : Touch 215287595030 s s24 := by
      unfold s24
      unfold new13
      refine Touch.foldl ?_ (fun t33 a34 h35 => ?_)
      · exact h28
      · refine Touch.ite ?_ ?_
        · exact (h35).to (event_touch ..) rfl
        · exact h35
    clear_value s24
    clear_value src20
    refine Touch.red1 ?_
    refine Touch.ite ?_ ?_
    · exact (h32).to (event_touch ..) rfl
    · exact h32

theorem stepFailed_touch (s k e) : Touch 232735903766 s (State.stepFailed s k e) := by
  unfold State.stepFailed
  extract_lets s0 more1 src2
  have h3 : Touch 232735903766 s s0 := (Touch.refl ..).to (event_touch ..) rfl
  clear_value s0
  clear_value src2
  clear_value more1
  refine Touch.ite ?_ ?_
  · exact Touch.set_sec (h3) rfl
  · exact (h3).to (abortStart_touch ..) rfl

theorem endStep_touch (s k e) : Touch 232736952342 s (State.endStep s k e) := by
  unfold State.endStep
  split
  rename_i x0 cal1 s2 heq3
  have h4 : Touch 232736952342 s s2 := Touch.of2 heq3 ((Touch.refl ..).to (draw_touch ..) rfl)
  extract_lets entry5 go6 src7 src8 s9
  have h10 : Touch 232736952342 s s9 := Touch.set_sec (h4) rfl
  clear_value s9
  clear_value src8
  clear_value src7
  clear_value entry5
  refine Touch.ite ?_ ?_
  · refine Touch.ite ?_ ?_
    · unfold go6
      refine Touch.ite ?_ ?_
      · exact (h10).to (stepFailed_touch ..) rfl
      · extract_lets src11 src12
        have h13 : Touch 232736952342 s src11 := (h10).to (setF_touch_in (k := 20) _ _ _ rfl) rfl
        clear_value src11
        clear_value src12
        exact Touch.set_sec (h13) rfl
    · split
      rename_i x14 ok15 s16 heq17
      have h18 : Touch 232736952342 s s16 := Touch.of2 heq17 ((h10).to (beginRecord_touch ..) rfl)
      refine Touch.ite ?_ ?_
      · unfold go6
        refine Touch.ite ?_ ?_
        · exact (h18).to (stepFailed_touch ..) rfl
        · extract_lets src19 src20
          have h21 : Touch 232736952342 s src19 := (h18).to (setF_touch_in (k := 20) _ _ _ rfl) rfl
          clear_value src19
          clear_value src20
          exact Touch.set_sec (h21) rfl
      · refine Touch.ite ?_ ?_
        · exact ((h18).to (event_touch ..) rfl).to (abortStart_touch ..) rfl
        · exact ((h18).to (setF_touch_in (k := 20) _ _ _ rfl) rfl).to (abortStart_touch ..) rfl
  · unfold go6
    refine Touch.ite ?_ ?_
    · exact ((h4).to (ledgerPut_touch ..) rfl).to (stepFailed_touch ..) rfl
    · extract_lets src22 src23
      have h24 : Touch 232736952342 s src22 := ((h4).to (ledgerPut_touch ..) rfl).to (setF_touch_in (k := 20) _ _ _ rfl) rfl
      clear_value src22
      clear_value src23
      exact Touch.set_sec (h24) rfl

theorem walk_touch (m a a1) : Touch 274877906943 a1 (State.walk m a a1) := by
  induction a generalizing m a1
  · unfold State.walk
    exact Touch.refl ..
  · rename_i head0 tail1 tailih2
    unfold State.walk
    refine Touch.ite ?_ ?_
    · exact Touch.refl ..
    · extract_lets s3
      have h4 : Touch 274877906943 a1 s3 := by
        unfold s3
        refine Touch.ite ?_ ?_
        · exact (Touch.refl ..).to (ledgerPut_touch ..) rfl
        · exact Touch.refl ..
      clear_value s3
      refine Touch.ite ?_ ?_
      · exact h4
      · exact (((h4).to (doStep_touch ..) rfl).to (endStep_touch ..) rfl).to (tailih2 _ _) rfl

theorem beginStart_touch (s cause restarts) : Touch 206158430189 s (State.beginStart s cause restarts) := by
  unfold State.beginStart
  extract_lets s0 src1 src2 src3
  have h4 : Touch 206158430189 s s0 := ((Touch.refl ..).to (resetDevice_touch ..) rfl).to (setFault_touch ..) rfl
  clear_value s0
  clear_value src3
  clear_value src2
  clear_value src1
  refine Touch.to (N := 262152) ?_ { Touch.refl _ s0 with pins := fun e => absurd e (by decide), sec := fun e => absurd e (by decide), sound := fun e => ⟨e.mem, e.regs, e.board⟩ } rfl
  exact h4

theorem runStart_touch (a a1) : Touch 274877906943 a1 (State.runStart a a1) := by
  induction a generalizing a1
  · unfold State.runStart
    exact Touch.refl ..
  · rename_i head0 tail1 tailih2
    unfold State.runStart
    split
    · rename_i x3 heq4
      exact Touch.refl ..
    · rename_i x5 k6 heq7
      extract_lets s8
      have h9 : Touch 274877906943 a1 s8 := (Touch.refl ..).to (walk_touch ..) rfl
      clear_value s8
      refine Touch.ite ?_ ?_
      · exact ((h9).to (beginStart_touch ..) rfl).to (tailih2 _) rfl
      · exact h9

theorem start_touch (s cause rep) : Touch 274877906943 s (State.start s cause rep) := by
  unfold State.start
  exact ((Touch.refl ..).to (beginStart_touch ..) rfl).to (runStart_touch ..) rfl

theorem execPerstNRelease_touch (rep s) {t : State} (e : execPerstNRelease rep s = .next t) :
    Touch 274877906943 s t := by
  refine run_touch e rfl fun u => ?_
  refine Touch.ite ?_ ?_
  · exact Touch.refl ..
  · extract_lets src0 s1
    have h2 : Touch 274877906943 u s1 := Touch.set_pins (Touch.refl ..) rfl
    clear_value s1
    clear_value src0
    refine Touch.ite ?_ ?_
    · exact (h2).to (start_touch ..) rfl
    · exact h2

theorem execPerstNConditionsMet_touch (rep s) {t : State} (e : execPerstNConditionsMet rep s = .next t) :
    Touch 274877906943 s t := by
  refine run_touch e rfl fun u => ?_
  refine Touch.ite ?_ ?_
  · exact Touch.refl ..
  · extract_lets src0 s1
    have h2 : Touch 274877906943 u s1 := Touch.set_pins (Touch.refl ..) rfl
    clear_value s1
    clear_value src0
    exact (h2).to (start_touch ..) rfl

theorem execPerstNAssert_touch (s) {t : State} (e : execPerstNAssert s = .next t) :
    Touch 206158430189 s t := by
  refine run_touch e rfl fun u => ?_
  exact (Touch.set_pins (Touch.refl ..) rfl).to (holdReset_touch ..) rfl

theorem execCxlLinkDown_touch (rep s) {t : State} (e : execCxlLinkDown rep s = .next t) :
    Touch 274877906943 s t := by
  refine run_touch e rfl fun u => ?_
  refine Touch.ite ?_ ?_
  · exact (Touch.refl ..).to (start_touch ..) rfl
  · exact Touch.refl ..

theorem execStartWatchdogExpiry_touch (stepNo unit rep s) {t : State} (e : execStartWatchdogExpiry stepNo unit rep s = .next t) :
    Touch 274877906943 s t := by
  refine run_touch e rfl fun u => ?_
  refine Touch.ite ?_ ?_
  · exact Touch.refl ..
  · extract_lets s0
    have h1 : Touch 274877906943 u s0 := (Touch.refl ..).to (endStep_touch ..) rfl
    clear_value s0
    refine Touch.ite ?_ ?_
    · exact ((h1).to (beginStart_touch ..) rfl).to (runStart_touch ..) rfl
    · exact h1

theorem execPwrGoodLoss_touch (s) {t : State} (e : execPwrGoodLoss s = .next t) :
    Touch 206158430189 s t := by
  refine run_touch e rfl fun u => ?_
  extract_lets src0 src1 s2
  have h3 : Touch 206158430189 u s2 := by
    unfold s2
    refine Touch.to (N := 262152) ?_ { Touch.refl _ u with pins := fun e => absurd e (by decide), sec := fun e => absurd e (by decide), sound := fun e => ⟨e.mem, e.regs, e.board⟩ } rfl
    exact Touch.refl ..
  clear_value s2
  clear_value src1
  clear_value src0
  refine Touch.ite ?_ ?_
  · exact h3
  · exact (h3).to (holdReset_touch ..) rfl

theorem execPwrGoodAssert_touch (s) {t : State} (e : execPwrGoodAssert s = .next t) :
    Touch 12 s t := by
  refine run_touch e rfl fun u => ?_
  exact Touch.set_pins (Touch.refl ..) rfl

theorem execStbyOkAssert_touch (s) {t : State} (e : execStbyOkAssert s = .next t) :
    Touch 524300 s t := by
  refine run_touch e rfl fun u => ?_
  refine Touch.to (N := 524296) ?_ { Touch.refl _ u with pins := fun e => absurd e (by decide), mgt := fun e => absurd e (by decide), sound := fun e => ⟨e.mem, e.regs, e.board⟩ } rfl
  exact Touch.refl ..

theorem stopController_touch (s) : Touch 17180393472 s (State.stopController s) := by
  unfold State.stopController
  extract_lets src0 src1
  have h2 : Touch 17180393472 s src0 := ((Touch.refl ..).to (setF_touch_in (k := 34) _ _ _ rfl) rfl).to (setF_touch_in (k := 34) _ _ _ rfl) rfl
  clear_value src0
  clear_value src1
  exact Touch.set_mgt (h2) rfl

theorem execStbyOkDeassert_touch (s) {t : State} (e : execStbyOkDeassert s = .next t) :
    Touch 17180393484 s t := by
  refine run_touch e rfl fun u => ?_
  extract_lets src0 src1
  have h2 : Touch 17180393484 u src0 := (Touch.refl ..).to (stopController_touch ..) rfl
  clear_value src0
  clear_value src1
  exact Touch.set_pins (h2) rfl

theorem execUndervoltageLockout_touch (s) {t : State} (e : execUndervoltageLockout s = .next t) :
    Touch 206158430189 s t := by
  refine run_touch e rfl fun u => ?_
  extract_lets src0 src1 s2 s3 src4
  have h5 : Touch 206158430189 u s2 := by
    unfold s2
    refine Touch.to (N := 262152) ?_ { Touch.refl _ u with pins := fun e => absurd e (by decide), sec := fun e => absurd e (by decide), sound := fun e => ⟨e.mem, e.regs, e.board⟩ } rfl
    exact Touch.refl ..
  clear_value s2
  have h6 : Touch 206158430189 u s3 := by
    unfold s3
    refine Touch.ite ?_ ?_
    · exact h5
    · exact (h5).to (holdReset_touch ..) rfl
  clear_value s3
  clear_value src4
  clear_value src1
  clear_value src0
  exact Touch.set_mgt (h6) rfl

theorem execVsbLow_touch (s) {t : State} (e : execVsbLow s = .next t) :
    Touch 206158430189 s t := by
  refine run_touch e rfl fun u => ?_
  extract_lets src0 src1 s2
  have h3 : Touch 206158430189 u s2 := by
    unfold s2
    refine Touch.to (N := 262152) ?_ { Touch.refl _ u with pins := fun e => absurd e (by decide), sec := fun e => absurd e (by decide), sound := fun e => ⟨e.mem, e.regs, e.board⟩ } rfl
    exact Touch.refl ..
  clear_value s2
  clear_value src1
  clear_value src0
  exact ((h3).to (stopController_touch ..) rfl).to (holdReset_touch ..) rfl

theorem emptyBoard_touch (s : State) : Touch 16 s s.emptyBoard :=
  { Touch.refl _ s with
    board := fun e => absurd e (by decide), sound := fun e => ⟨e.mem, e.regs, Nat.zero_le _⟩ }

theorem execVsbComesUp_touch (s) {t : State} (e : execVsbComesUp s = .next t) :
    Touch 68718428188 s t := by
  refine run_touch e rfl fun u => ?_
  extract_lets src0 s1 s2
  have h3 : Touch 68718428188 u s1 := Touch.set_pins (Touch.refl ..) rfl
  clear_value s1
  have h4 : Touch 68718428188 u s2 := (h3).to (emptyBoard_touch ..) rfl
  clear_value s2
  clear_value src0
  refine Touch.foldl ?_ (fun t5 a6 h7 => ?_)
  · exact h4
  · exact (h7).to (wr_touch_any ..) rfl

theorem execRefclkLost_touch (s) {t : State} (e : execRefclkLost s = .next t) :
    Touch 206698446878 s t := by
  refine run_touch e rfl fun u => ?_
  refine Touch.ite ?_ ?_
  · exact Touch.refl ..
  · extract_lets src0 s1
    have h2 : Touch 206698446878 u s1 := Touch.set_pins (Touch.refl ..) rfl
    clear_value s1
    clear_value src0
    refine Touch.ite ?_ ?_
    · exact ((h2).to (setF_touch_in (k := 20) _ _ _ rfl) rfl).to (event_touch ..) rfl
    · exact h2

theorem execRefclkReturn_touch (s) {t : State} (e : execRefclkReturn s = .next t) :
    Touch 1048588 s t := by
  refine run_touch e rfl fun u => ?_
  extract_lets src0 src1
  have h2 : Touch 1048588 u src0 := (Touch.refl ..).to (setF_touch_in (k := 20) _ _ _ rfl) rfl
  clear_value src0
  clear_value src1
  exact Touch.set_pins (h2) rfl

theorem execTimerRecalibration_touch (s) {t : State} (e : execTimerRecalibration s = .next t) :
    Touch 14 s t := by
  refine run_touch e rfl fun u => ?_
  refine Touch.ite ?_ ?_
  · split
    rename_i x0 cal1 s2 heq3
    have h4 : Touch 14 u s2 := Touch.of2 heq3 ((Touch.refl ..).to (draw_touch ..) rfl)
    exact Touch.set_pins (h4) rfl
  · exact Touch.refl ..

theorem execFclkLost_touch (s) {t : State} (e : execFclkLost s = .next t) :
    Touch 231922728959 s t := by
  refine run_touch e rfl fun u => ?_
  extract_lets src0 s1
  have h2 : Touch 231922728959 u s1 := Touch.set_pins (Touch.refl ..) rfl
  clear_value s1
  clear_value src0
  refine Touch.ite ?_ ?_
  · exact (h2).to (declareFailed_touch ..) rfl
  · exact h2

theorem execSlotIdChanged_touch (slot s) {t : State} (e : execSlotIdChanged slot s = .next t) :
    Touch 206697398302 s t := by
  refine run_touch e rfl fun u => ?_
  refine Touch.ite ?_ ?_
  · exact Touch.refl ..
  · extract_lets seen0 src1 s2 src3
    have h4 : Touch 206697398302 u s2 := Touch.set_pins (Touch.refl ..) rfl
    clear_value s2
    clear_value src3
    clear_value src1
    clear_value seen0
    refine Touch.ite ?_ ?_
    · exact h4
    · refine Touch.ite ?_ ?_
      · exact (h4).to (suppress_touch ..) rfl
      · exact (Touch.set_pins (h4) rfl).to (event_touch ..) rfl

theorem execJtagTapInstruction_touch (code s) {t : State} (e : execJtagTapInstruction code s = .next t) :
    Touch 0x40004 s t := by
  unfold execJtagTapInstruction at e
  split at e
  · refine run_touch e rfl fun u => ?_
    exact Touch.ite (Touch.set_out (Touch.set_sec (Touch.refl ..) rfl) rfl) (Touch.set_sec (Touch.refl ..) rfl)
  · split at e
    · cases e
    · exact run_touch e rfl fun u => Touch.set_sec (Touch.refl ..) rfl

/-! ### Mailbox -/

theorem accepted_touch (s head body id) : Touch 215287595030 s (State.accepted s head body id) := by
  unfold State.accepted
  extract_lets code0 digest1 s2
  have h3 : Touch 215287595030 s s2 := (Touch.refl ..).to (event_touch ..) rfl
  clear_value s2
  clear_value digest1
  clear_value code0
  refine Touch.ite ?_ ?_
  · exact (h3).to (logEntry_touch ..) rfl
  · exact h3

theorem refuse_touch (s status) : Touch 0 s (State.refuse s status).2.2 := by
  unfold State.refuse
  refine Touch.red2 ?_
  refine Touch.red1 ?_
  exact Touch.refl ..

theorem mbxEvidence_touch (s _head body) : Touch 0 s (State.mbxEvidence s _head body).2.2 := by
  unfold State.mbxEvidence
  extract_lets b0 alt1 flags2 fixed3 all4
  clear_value all4
  clear_value fixed3
  clear_value flags2
  clear_value alt1
  clear_value b0
  refine Touch.red2 ?_
  refine Touch.red1 ?_
  exact Touch.refl ..

theorem mbxCerts_touch (s _head _body) : Touch 0 s (State.mbxCerts s _head _body).2.2 := by
  unfold State.mbxCerts
  extract_lets startKey0
  clear_value startKey0
  refine Touch.red2 ?_
  refine Touch.red1 ?_
  exact Touch.refl ..

theorem mbxReadLedger_touch (s _head body) : Touch 0 s (State.mbxReadLedger s _head body).2.2 := by
  unfold State.mbxReadLedger
  extract_lets n0
  clear_value n0
  refine Touch.ite22 ?_ ?_
  · exact (Touch.refl ..).to (refuse_touch ..) rfl
  · split
    · rename_i x1 heq2
      refine Touch.red2 ?_
      refine Touch.red1 ?_
      exact Touch.refl ..
    · rename_i x3 p4 heq5
      extract_lets recs6
      clear_value recs6
      refine Touch.red2 ?_
      refine Touch.red1 ?_
      exact Touch.refl ..

theorem mbxClearLedger_touch (s head body) : Touch 215287595030 s (State.mbxClearLedger s head body).2.2 := by
  unfold State.mbxClearLedger
  refine Touch.ite22 ?_ ?_
  · refine Touch.red2 ?_
    refine Touch.red1 ?_
    exact ((Touch.refl ..).to (clearRecord_touch ..) rfl).to (accepted_touch ..) rfl
  · exact (Touch.refl ..).to (refuse_touch ..) rfl

theorem mbxReadHealth_touch (s _head _body) : Touch 0 s (State.mbxReadHealth s _head _body).2.2 := by
  unfold State.mbxReadHealth
  refine Touch.red2 ?_
  refine Touch.red1 ?_
  exact Touch.refl ..

theorem mbxImageUpdate_touch (s _head body) : Touch 209919542295 s (State.mbxImageUpdate s _head body).2.2 := by
  unfold State.mbxImageUpdate
  extract_lets a0 n1 target2
  clear_value target2
  clear_value n1
  clear_value a0
  refine Touch.ite22 ?_ ?_
  · exact (Touch.refl ..).to (refuse_touch ..) rfl
  · refine Touch.ite22 ?_ ?_
    · exact (Touch.refl ..).to (refuse_touch ..) rfl
    · refine Touch.ite22 ?_ ?_
      · exact (Touch.refl ..).to (refuse_touch ..) rfl
      · refine Touch.ite22 ?_ ?_
        · exact (Touch.refl ..).to (refuse_touch ..) rfl
        · split
          · rename_i x3 bs4 s5 heq6
            have h7 : Touch 209919542295 s s5 := Touch.of22 heq6 ((Touch.refl ..).to (devRead_touch ..) rfl)
            split
            · rename_i x8 r9 heq10
              exact (h7).to (refuse_touch ..) rfl
            · rename_i x11 a12 heq13
              extract_lets s14
              have h15 : Touch 209919542295 s s14 := (h7).to (norWrite_touch ..) rfl
              clear_value s14
              split
              · rename_i x16 r17 heq18
                exact (h15).to (refuse_touch ..) rfl
              · rename_i x19 a20 heq21
                refine Touch.red2 ?_
                refine Touch.red1 ?_
                refine Touch.ite ?_ ?_
                · exact (h15).to (writeHeader_touch ..) rfl
                · exact h15
          · rename_i x22 e23 fst24 s25 x26 heq27
            have h28 : Touch 209919542295 s s25 := Touch.of22 heq27 ((Touch.refl ..).to (devRead_touch ..) rfl)
            exact (h28).to (refuse_touch ..) rfl

theorem mbxIdeKeys_touch (s head body) : Touch 215288774678 s (State.mbxIdeKeys s head body).2.2 := by
  unfold State.mbxIdeKeys
  extract_lets n0 keys1 src2 s3
  have h4 : Touch 215288774678 s s3 := Touch.set_host (Touch.refl ..) rfl rfl
  clear_value s3
  clear_value src2
  clear_value keys1
  clear_value n0
  refine Touch.ite22 ?_ ?_
  · exact (Touch.refl ..).to (refuse_touch ..) rfl
  · refine Touch.ite22 ?_ ?_
    · exact (Touch.refl ..).to (refuse_touch ..) rfl
    · refine Touch.red2 ?_
      refine Touch.red1 ?_
      exact ((h4).to (setF_touch_in (k := 20) _ _ _ rfl) rfl).to (accepted_touch ..) rfl

theorem mbxSecret_touch (s head body) : Touch 215321149974 s (State.mbxSecret s head body).2.2 := by
  unfold State.mbxSecret
  refine Touch.ite22 ?_ ?_
  · exact (Touch.refl ..).to (refuse_touch ..) rfl
  · extract_lets id0 src1 s2
    have h3 : Touch 215321149974 s s2 := Touch.set_rng (Touch.refl ..) rfl
    clear_value s2
    clear_value src1
    clear_value id0
    refine Touch.red2 ?_
    refine Touch.red1 ?_
    exact (((h3).to (setF_touch_in (k := 25) _ _ _ rfl) rfl).to (setF_touch_in (k := 25) _ _ _ rfl) rfl).to (accepted_touch ..) rfl

theorem takePlace_touch (s o) : Touch 402718720 s (State.takePlace s o) := by
  unfold State.takePlace
  extract_lets s0 s1 src2 src3
  have h4 : Touch 402718720 s s0 := (((Touch.refl ..).to (setF_touch_in (k := 28) _ _ _ rfl) rfl).to (setF_touch_in (k := 28) _ _ _ rfl) rfl).to (setF_touch_in (k := 28) _ _ _ rfl) rfl
  clear_value s0
  have h5 : Touch 402718720 s s1 := (((h4).to (setF_touch_in (k := 28) _ _ _ rfl) rfl).to (setF_touch_in (k := 28) _ _ _ rfl) rfl).to (setF_touch_in (k := 28) _ _ _ rfl) rfl
  clear_value s1
  have h6 : Touch 402718720 s src2 := (h5).to (setF_touch_in (k := 27) _ _ _ rfl) rfl
  clear_value src2
  clear_value src3
  exact Touch.set_fov (h6) rfl

theorem mbxAssume_touch (s head body) : Touch 217838366806 s (State.mbxAssume s head body).2.2 := by
  unfold State.mbxAssume
  extract_lets o0 s1 src2 s3 s4
  have h5 : Touch 217838366806 s s1 := (Touch.refl ..).to (setF_touch_in (k := 27) _ _ _ rfl) rfl
  clear_value s1
  have h6 : Touch 217838366806 s s3 := Touch.set_sec (h5) rfl
  clear_value s3
  have h7 : Touch 217838366806 s s4 := (((h6).to (takePlace_touch ..) rfl).to (setF_touch_in (k := 27) _ _ _ rfl) rfl).to (setF_touch_in (k := 27) _ _ _ rfl) rfl
  clear_value s4
  clear_value src2
  clear_value o0
  split
  · rename_i x8 k9 st10 heq11
    exact ((Touch.refl ..).to (event_touch ..) rfl).to (refuse_touch ..) rfl
  · rename_i x12 heq13
    refine Touch.red2 ?_
    refine Touch.red1 ?_
    exact ((h7).to (formCast_touch ..) rfl).to (accepted_touch ..) rfl

theorem testReturn_touch (s t h) : Touch 231922991095 s (State.testReturn s t h) := by
  unfold State.testReturn
  refine Touch.ite ?_ ?_
  · extract_lets s0
    have h1 : Touch 231922991095 s s0 := (Touch.refl ..).to (setUnit_touch ..) rfl
    clear_value s0
    refine Touch.ite ?_ ?_
    · exact (h1).to (replaceEngine_touch ..) rfl
    · exact h1
  · refine Touch.ite ?_ ?_
    · exact (Touch.refl ..).to (setUnit_touch ..) rfl
    · exact Touch.refl ..

theorem settleTest_touch (s) : Touch 240512925687 s (State.settleTest s) := by
  unfold State.settleTest
  split
  · rename_i x0 heq1
    exact Touch.refl ..
  · rename_i x2 t3 heq4
    extract_lets left5 pats6 s7 src8 s9 s10
    have h11 : Touch 240512925687 s s7 := (Touch.refl ..).to (setF_touch_in (k := 33) _ _ _ rfl) rfl
    clear_value s7
    have h12 : Touch 240512925687 s s9 := Touch.set_sec (h11) rfl
    clear_value s9
    have h13 : Touch 240512925687 s s10 := by
      unfold s10
      refine Touch.foldl ?_ (fun t14 a15 h16 => ?_)
      · exact h12
      · exact (h16).to (testReturn_touch ..) rfl
    clear_value s10
    clear_value src8
    clear_value pats6
    clear_value left5
    refine Touch.ite ?_ ?_
    · exact h11
    · exact ((h13).to (setF_touch_in (k := 33) _ _ _ rfl) rfl).to (event_touch ..) rfl

theorem mbxTest_touch (s runs head body) : Touch 240512925687 s (State.mbxTest s runs head body).2.2 := by
  unfold State.mbxTest
  extract_lets a0 n1
  clear_value n1
  clear_value a0
  refine Touch.ite22 ?_ ?_
  · exact (Touch.refl ..).to (refuse_touch ..) rfl
  · split
    · rename_i x2 bs3 s4 heq5
      have h6 : Touch 240512925687 s s4 := Touch.of22 heq5 ((Touch.refl ..).to (devRead_touch ..) rfl)
      extract_lets p7 targets8 pats9 mine10 id11 s12 units13 entries14 held15 s16 src17 s18
      have h19 : Touch 240512925687 s s12 := by
        unfold s12
        refine Touch.ite ?_ ?_
        · split
          · rename_i x20 j21 heq22
            exact (h6).to (unload_touch ..) rfl
          · rename_i x23 heq24
            exact h6
        · exact h6
      clear_value s12
      have h25 : Touch 240512925687 s s16 := by
        unfold s16
        refine Touch.foldl ?_ (fun t26 a27 h28 => ?_)
        · exact h19
        · refine Touch.ite ?_ ?_
          · exact (h28).to (setUnit_touch ..) rfl
          · exact h28
      clear_value s16
      have h29 : Touch 240512925687 s s18 := Touch.set_sec (h25) rfl
      clear_value s18
      clear_value src17
      clear_value held15
      clear_value entries14
      clear_value units13
      clear_value id11
      clear_value mine10
      clear_value pats9
      clear_value targets8
      clear_value p7
      refine Touch.ite22 ?_ ?_
      · exact (h6).to (refuse_touch ..) rfl
      · refine Touch.ite22 ?_ ?_
        · exact (h6).to (refuse_touch ..) rfl
        · refine Touch.ite22 ?_ ?_
          · exact (h6).to (refuse_touch ..) rfl
          · refine Touch.ite22 ?_ ?_
            · exact (h6).to (refuse_touch ..) rfl
            · refine Touch.ite22 ?_ ?_
              · exact (h6).to (refuse_touch ..) rfl
              · refine Touch.ite22 ?_ ?_
                · exact (h6).to (refuse_touch ..) rfl
                · refine Touch.ite22 ?_ ?_
                  · exact ((h19).to (event_touch ..) rfl).to (refuse_touch ..) rfl
                  · refine Touch.red2 ?_
                    refine Touch.red1 ?_
                    exact (((h29).to (setF_touch_in (k := 33) _ _ _ rfl) rfl).to (accepted_touch ..) rfl).to (settleTest_touch ..) rfl
    · rename_i x30 e31 fst32 s33 x34 heq35
      have h36 : Touch 240512925687 s s33 := Touch.of22 heq35 ((Touch.refl ..).to (devRead_touch ..) rfl)
      exact (h36).to (refuse_touch ..) rfl

theorem mbxTestResult_touch (s _head body) : Touch 0 s (State.mbxTestResult s _head body).2.2 := by
  unfold State.mbxTestResult
  split
  · rename_i x0 id1 r2 heq3
    refine Touch.ite22 ?_ ?_
    · refine Touch.red2 ?_
      refine Touch.red1 ?_
      exact Touch.refl ..
    · exact (Touch.refl ..).to (refuse_touch ..) rfl
  · rename_i x4 heq5
    exact (Touch.refl ..).to (refuse_touch ..) rfl

theorem mbxKeyFuse_touch (s head body) : Touch 262144 s (State.mbxKeyFuse s head body).2.2 := by
  unfold State.mbxKeyFuse
  extract_lets f0 op1 slot2 hash3 pk4 sig5 signed6 byOwner7 byVendor8 src9 put10
  clear_value src9
  clear_value byVendor8
  clear_value byOwner7
  clear_value signed6
  clear_value sig5
  clear_value pk4
  clear_value hash3
  clear_value slot2
  clear_value op1
  clear_value f0
  refine Touch.ite22 ?_ ?_
  · exact (Touch.refl ..).to (refuse_touch ..) rfl
  · refine Touch.ite22 ?_ ?_
    · refine Touch.ite22 ?_ ?_
      · exact (Touch.refl ..).to (refuse_touch ..) rfl
      · refine Touch.ite22 ?_ ?_
        · exact (Touch.refl ..).to (refuse_touch ..) rfl
        · unfold put10
          refine Touch.red2 ?_
          refine Touch.red1 ?_
          exact Touch.set_sec (Touch.refl ..) rfl
    · refine Touch.ite22 ?_ ?_
      · refine Touch.ite22 ?_ ?_
        · exact (Touch.refl ..).to (refuse_touch ..) rfl
        · refine Touch.ite22 ?_ ?_
          · exact (Touch.refl ..).to (refuse_touch ..) rfl
          · refine Touch.ite22 ?_ ?_
            · exact (Touch.refl ..).to (refuse_touch ..) rfl
            · unfold put10
              refine Touch.red2 ?_
              refine Touch.red1 ?_
              exact Touch.set_sec (Touch.refl ..) rfl
      · refine Touch.ite22 ?_ ?_
        · exact (Touch.refl ..).to (refuse_touch ..) rfl
        · refine Touch.ite22 ?_ ?_
          · exact (Touch.refl ..).to (refuse_touch ..) rfl
          · refine Touch.ite22 ?_ ?_
            · exact (Touch.refl ..).to (refuse_touch ..) rfl
            · unfold put10
              refine Touch.red2 ?_
              refine Touch.red1 ?_
              exact Touch.set_sec (Touch.refl ..) rfl

theorem mbxReadLog_touch (s _head body) : Touch 0 s (State.mbxReadLog s _head body).2.2 := by
  unfold State.mbxReadLog
  refine Touch.red2 ?_
  refine Touch.red1 ?_
  exact Touch.refl ..

theorem mbxRun_touch (s runs code head body) : Touch 240513974263 s (State.mbxRun s runs code head body).2.2 := by
  unfold State.mbxRun
  split
  · rename_i code0
    exact (Touch.refl ..).to (mbxEvidence_touch ..) rfl
  · rename_i code1
    exact (Touch.refl ..).to (mbxCerts_touch ..) rfl
  · rename_i code2
    exact (Touch.refl ..).to (mbxReadLedger_touch ..) rfl
  · rename_i code3
    exact (Touch.refl ..).to (mbxClearLedger_touch ..) rfl
  · rename_i code4
    exact (Touch.refl ..).to (mbxReadHealth_touch ..) rfl
  · rename_i code5
    exact (Touch.refl ..).to (mbxImageUpdate_touch ..) rfl
  · rename_i code6
    exact (Touch.refl ..).to (mbxIdeKeys_touch ..) rfl
  · rename_i code7
    exact (Touch.refl ..).to (mbxSecret_touch ..) rfl
  · rename_i code8
    exact (Touch.refl ..).to (mbxAssume_touch ..) rfl
  · rename_i code9
    exact (Touch.refl ..).to (mbxTest_touch ..) rfl
  · rename_i code10
    exact (Touch.refl ..).to (mbxTestResult_touch ..) rfl
  · rename_i code11
    exact (Touch.refl ..).to (mbxKeyFuse_touch ..) rfl
  · rename_i code12
    exact (Touch.refl ..).to (mbxReadLog_touch ..) rfl
  · rename_i code13 x14 x15 x16 x17 x18 x19 x20 x21 x22 x23 x24 x25 x26
    exact (Touch.refl ..).to (refuse_touch ..) rfl

theorem mbxServe_touch (s runs req) : Touch 240513974263 s (State.mbxServe s runs req).2.2 := by
  unfold State.mbxServe
  extract_lets head0 body1
  clear_value body1
  clear_value head0
  refine Touch.ite22 ?_ ?_
  · exact (Touch.refl ..).to (refuse_touch ..) rfl
  · refine Touch.ite22 ?_ ?_
    · exact (Touch.refl ..).to (refuse_touch ..) rfl
    · refine Touch.ite22 ?_ ?_
      · exact (Touch.refl ..).to (refuse_touch ..) rfl
      · refine Touch.ite22 ?_ ?_
        · exact (Touch.refl ..).to (refuse_touch ..) rfl
        · split
          · rename_i x2 heq3
            exact (Touch.refl ..).to (refuse_touch ..) rfl
          · rename_i x4 now5 fits6 heq7
            refine Touch.ite22 ?_ ?_
            · exact (Touch.refl ..).to (refuse_touch ..) rfl
            · refine Touch.ite22 ?_ ?_
              · exact (Touch.refl ..).to (refuse_touch ..) rfl
              · exact (Touch.refl ..).to (mbxRun_touch ..) rfl

theorem mbxRespond_touch (s runs req) : Touch 240513974263 s (State.mbxRespond s runs req).2.2 := by
  unfold State.mbxRespond
  split
  rename_i x0 st1 out2 s3 heq4
  have h5 : Touch 240513974263 s s3 := by
    refine Touch.of22 heq4 ?_
    refine Touch.ite22 ?_ ?_
    · exact (Touch.refl ..).to (refuse_touch ..) rfl
    · exact (Touch.refl ..).to (mbxServe_touch ..) rfl
  refine Touch.red2 ?_
  refine Touch.red1 ?_
  exact h5

theorem mbxGo_touch (s runs) : Touch 240513974263 s (State.mbxGo s runs) := by
  unfold State.mbxGo
  refine Touch.ite ?_ ?_
  · exact (Touch.refl ..).to (discardWrite_touch ..) rfl
  · extract_lets s0 a1 fail2 get3
    have h4 : Touch 240513974263 s s0 := ((Touch.refl ..).to (setF_touch_in (k := 33) _ _ _ rfl) rfl).to (setF_touch_in (k := 33) _ _ _ rfl) rfl
    clear_value s0
    clear_value a1
    split
    · rename_i x5 bs6 s7 heq8
      have h9 : Touch 240513974263 s s7 := by
        refine Touch.of22 heq8 ?_
        unfold get3
        refine Touch.ite22 ?_ ?_
        · exact (h4).to (devRead_touch ..) rfl
        · refine Touch.red2 ?_
          refine Touch.red1 ?_
          exact h4
      split
      · rename_i x10 bs11 s12 heq13
        have h14 : Touch 240513974263 s s12 := by
          refine Touch.of22 heq13 ?_
          unfold get3
          refine Touch.ite22 ?_ ?_
          · exact (h9).to (devRead_touch ..) rfl
          · refine Touch.red2 ?_
            refine Touch.red1 ?_
            exact h9
        split
        rename_i x15 resp16 st17 s18 heq19
        have h20 : Touch 240513974263 s s18 := Touch.of22 heq19 ((h14).to (mbxRespond_touch ..) rfl)
        split
        rename_i x21 resp22 st23 heq24
        split
        rename_i x25 w26 s27 heq28
        have h29 : Touch 240513974263 s s27 := by
          refine Touch.of2 heq28 ?_
          refine Touch.ite2 ?_ ?_
          · exact (h20).to (devWrite_touch ..) rfl
          · refine Touch.red1 ?_
            exact h20
        exact ((h29).to (setF_touch_in (k := 33) _ _ _ rfl) rfl).to (setF_touch_in (k := 33) _ _ _ rfl) rfl
      · rename_i x30 e31 fst32 s33 x34 heq35
        have h36 : Touch 240513974263 s s33 := by
          refine Touch.of22 heq35 ?_
          unfold get3
          refine Touch.ite22 ?_ ?_
          · exact (h9).to (devRead_touch ..) rfl
          · refine Touch.red2 ?_
            refine Touch.red1 ?_
            exact h9
        unfold fail2
        exact ((h36).to (setF_touch_in (k := 33) _ _ _ rfl) rfl).to (setF_touch_in (k := 33) _ _ _ rfl) rfl
    · rename_i x37 e38 fst39 s40 x41 heq42
      have h43 : Touch 240513974263 s s40 := by
        refine Touch.of22 heq42 ?_
        unfold get3
        refine Touch.ite22 ?_ ?_
        · exact (h4).to (devRead_touch ..) rfl
        · refine Touch.red2 ?_
          refine Touch.red1 ?_
          exact h4
      unfold fail2
      exact ((h43).to (setF_touch_in (k := 33) _ _ _ rfl) rfl).to (setF_touch_in (k := 33) _ _ _ rfl) rfl

theorem request_touch (s p runs) : Touch 240513974263 s (State.request s p runs) := by
  unfold State.request
  split
  · rename_i p0
    refine Touch.ite ?_ ?_
    · exact (Touch.refl ..).to (mbxGo_touch ..) rfl
    · exact Touch.refl ..
  · rename_i p1 r2
    refine Touch.ite ?_ ?_
    · exact Touch.refl ..
    · refine Touch.ite ?_ ?_
      · exact (Touch.refl ..).to (emit_touch ..) rfl
      · split
        rename_i x3 resp4 st5 s6 heq7
        have h8 : Touch 240513974263 s s6 := Touch.of22 heq7 ((Touch.refl ..).to (mbxRespond_touch ..) rfl)
        exact (h8).to (emit_touch ..) rfl
  · rename_i p9 tag10 r11
    unfold State.mgmt
    refine Touch.ite ?_ ?_
    · exact Touch.refl ..
    · extract_lets s12 reply13
      have h14 : Touch 240513974263 s s12 := (Touch.refl ..).to (inc_touch_in (k := 34) _ _ rfl) rfl
      clear_value s12
      clear_value reply13
      refine Touch.ite ?_ ?_
      · exact (h14).to (emit_touch ..) rfl
      · split
        rename_i x15 c16 data17 s18 heq19
        have h20 : Touch 240513974263 s s18 := by
          refine Touch.of22 heq19 ?_
          beta_reduce
          split
          rename_i x21 resp22 st23 s24 heq25
          have h26 : Touch 240513974263 s s24 := Touch.of22 heq25 ((h14).to (mbxRespond_touch ..) rfl)
          refine Touch.red2 ?_
          refine Touch.red1 ?_
          exact h26
        exact (h20).to (emit_touch ..) rfl

theorem mbxRow_touch (s code p runs) : Touch 240513974263 s (State.mbxRow s code p runs) := by
  unfold State.mbxRow
  refine Touch.ite ?_ ?_
  · exact (Touch.refl ..).to (request_touch ..) rfl
  · exact Touch.refl ..

theorem execGetEvidence_touch (path s) {t : State} (e : execGetEvidence path s = .next t) :
    Touch 240513974263 s t := by
  refine run_touch e rfl fun u => ?_
  exact (Touch.refl ..).to (mbxRow_touch ..) rfl

theorem execGetCerts_touch (path s) {t : State} (e : execGetCerts path s = .next t) :
    Touch 240513974263 s t := by
  refine run_touch e rfl fun u => ?_
  exact (Touch.refl ..).to (mbxRow_touch ..) rfl

theorem execReadLedger_touch (path s) {t : State} (e : execReadLedger path s = .next t) :
    Touch 240513974263 s t := by
  refine run_touch e rfl fun u => ?_
  exact (Touch.refl ..).to (mbxRow_touch ..) rfl

theorem execClearLedger_touch (path s) {t : State} (e : execClearLedger path s = .next t) :
    Touch 240513974263 s t := by
  refine run_touch e rfl fun u => ?_
  exact (Touch.refl ..).to (mbxRow_touch ..) rfl

theorem execReadHealth_touch (path s) {t : State} (e : execReadHealth path s = .next t) :
    Touch 240513974263 s t := by
  refine run_touch e rfl fun u => ?_
  exact (Touch.refl ..).to (mbxRow_touch ..) rfl

theorem execImageUpdate_touch (path s) {t : State} (e : execImageUpdate path s = .next t) :
    Touch 240513974263 s t := by
  refine run_touch e rfl fun u => ?_
  exact (Touch.refl ..).to (mbxRow_touch ..) rfl

theorem execLoadIdeKeys_touch (path s) {t : State} (e : execLoadIdeKeys path s = .next t) :
    Touch 240513974263 s t := by
  refine run_touch e rfl fun u => ?_
  exact (Touch.refl ..).to (mbxRow_touch ..) rfl

theorem execLoadExportSecret_touch (path s) {t : State} (e : execLoadExportSecret path s = .next t) :
    Touch 240513974263 s t := by
  refine run_touch e rfl fun u => ?_
  exact (Touch.refl ..).to (mbxRow_touch ..) rfl

theorem execAssumePosition_touch (path s) {t : State} (e : execAssumePosition path s = .next t) :
    Touch 240513974263 s t := by
  refine run_touch e rfl fun u => ?_
  exact (Touch.refl ..).to (mbxRow_touch ..) rfl

theorem execTestPackage_touch (path runs s) {t : State} (e : execTestPackage path runs s = .next t) :
    Touch 240513974263 s t := by
  refine run_touch e rfl fun u => ?_
  exact (Touch.refl ..).to (mbxRow_touch ..) rfl

theorem execPatternTimeout_touch (unit s) {t : State} (e : execPatternTimeout unit s = .next t) :
    Touch 240512925687 s t := by
  refine run_touch e rfl fun u => ?_
  split
  · rename_i x0 heq1
    exact Touch.refl ..
  · rename_i x2 t3 heq4
    split
    · rename_i x5 heq6
      exact Touch.refl ..
    · rename_i x7 p8 snd9 heq10
      extract_lets entries11 src12
      clear_value src12
      clear_value entries11
      exact (Touch.set_sec (Touch.refl ..) rfl).to (settleTest_touch ..) rfl

theorem execTestResult_touch (path s) {t : State} (e : execTestResult path s = .next t) :
    Touch 240513974263 s t := by
  refine run_touch e rfl fun u => ?_
  exact ((Touch.refl ..).to (settleTest_touch ..) rfl).to (mbxRow_touch ..) rfl

theorem execKeyFuse_touch (path s) {t : State} (e : execKeyFuse path s = .next t) :
    Touch 240513974263 s t := by
  refine run_touch e rfl fun u => ?_
  exact (Touch.refl ..).to (mbxRow_touch ..) rfl

theorem execReadLog_touch (path s) {t : State} (e : execReadLog path s = .next t) :
    Touch 240513974263 s t := by
  refine run_touch e rfl fun u => ?_
  exact (Touch.refl ..).to (mbxRow_touch ..) rfl

/-! ### Units -/

theorem quiesce_touch (s u) : Touch 209113952342 s (State.quiesce s u) := by
  unfold State.quiesce
  refine Touch.ite ?_ ?_
  · exact (Touch.refl ..).to (portStop_touch ..) rfl
  · exact Touch.refl ..

theorem fenceNow_touch (s u source) : Touch 209147506774 s (State.fenceNow s u source) := by
  unfold State.fenceNow
  extract_lets st0 s1
  have h2 : Touch 209147506774 s s1 := by
    unfold s1
    refine Touch.ite ?_ ?_
    · exact (Touch.refl ..).to (setUnit_touch ..) rfl
    · exact Touch.refl ..
  clear_value s1
  clear_value st0
  exact ((h2).to (quiesce_touch ..) rfl).to (setUnit_touch ..) rfl

theorem fenceEngine_touch (s u source) : Touch 214743121911 s (State.fenceEngine s u source) := by
  unfold State.fenceEngine
  extract_lets src0 s1 e2 s3 w4 s5
  have h6 : Touch 214743121911 s s1 := Touch.set_mgt (Touch.refl ..) rfl
  clear_value s1
  have h7 : Touch 214743121911 s s3 := (h6).to (setUnit_touch ..) rfl
  clear_value s3
  have h8 : Touch 214743121911 s s5 := (h6).to (setEntry_touch ..) rfl
  clear_value s5
  clear_value w4
  clear_value e2
  clear_value src0
  split
  · rename_i x9 sp10 heq11
    exact ((h7).to (takeover_touch ..) rfl).to (setUnit_touch ..) rfl
  · rename_i x12 heq13
    exact (h8).to (event_touch ..) rfl

theorem fenceLater_touch (s u source) : Touch 208845406230 s (State.fenceLater s u source) := by
  unfold State.fenceLater
  extract_lets s0 src1
  have h2 : Touch 208845406230 s s0 := (Touch.refl ..).to (setEntry_touch ..) rfl
  clear_value s0
  clear_value src1
  exact Touch.set_mgt (h2) rfl

theorem opFence_touch (s u source immediate) : Touch 214743121911 s (State.opFence s u source immediate).2 := by
  unfold State.opFence
  extract_lets running0
  clear_value running0
  refine Touch.ite2 ?_ ?_
  · refine Touch.ite2 ?_ ?_
    · refine Touch.red1 ?_
      exact Touch.refl ..
    · refine Touch.red1 ?_
      exact (Touch.refl ..).to (fenceLater_touch ..) rfl
  · refine Touch.ite2 ?_ ?_
    · refine Touch.red1 ?_
      exact (Touch.refl ..).to (fenceNow_touch ..) rfl
    · refine Touch.ite2 ?_ ?_
      · refine Touch.red1 ?_
        exact Touch.refl ..
      · refine Touch.ite2 ?_ ?_
        · split
          · rename_i x1 sp2 heq3
            refine Touch.red1 ?_
            exact ((Touch.refl ..).to (abandon_touch ..) rfl).to (fenceEngine_touch ..) rfl
          · rename_i x4 heq5
            refine Touch.red1 ?_
            exact (Touch.refl ..).to (fenceLater_touch ..) rfl
        · refine Touch.red1 ?_
          exact (Touch.refl ..).to (fenceLater_touch ..) rfl

theorem opUnfence_touch (s u source) : Touch 208878960662 s (State.opUnfence s u source) := by
  unfold State.opUnfence
  extract_lets i0 st1 s2
  have h3 : Touch 208878960662 s s2 := (Touch.refl ..).to (setUnit_touch ..) rfl
  clear_value s2
  clear_value st1
  clear_value i0
  refine Touch.ite ?_ ?_
  · exact (h3).to (bankUse_touch ..) rfl
  · exact h3

theorem opOff_touch (s u source) : Touch 210221249623 s (State.opOff s u source) := by
  unfold State.opOff
  extract_lets i0 s1 s2
  have h3 : Touch 210221249623 s s1 := (Touch.refl ..).to (quiesce_touch ..) rfl
  clear_value s1
  have h4 : Touch 210221249623 s s2 := by
    unfold s2
    refine Touch.ite ?_ ?_
    · exact (((h3).to (bankOff_touch ..) rfl).to (setBf_touch _ _ _ _ (by decide)) rfl).to (setBf_touch _ _ _ _ (by decide)) rfl
    · exact h3
  clear_value s2
  clear_value i0
  exact (h4).to (setUnit_touch ..) rfl

theorem opOn_touch (s u source) : Touch 210221249623 s (State.opOn s u source) := by
  unfold State.opOn
  extract_lets i0 s1 s2
  have h3 : Touch 210221249623 s s1 := by
    unfold s1
    refine Touch.ite ?_ ?_
    · exact (((Touch.refl ..).to (initBank_touch ..) rfl).to (setBf_touch _ _ _ _ (by decide)) rfl).to (setBf_touch _ _ _ _ (by decide)) rfl
    · exact Touch.refl ..
  clear_value s1
  have h4 : Touch 210221249623 s s2 := (h3).to (setUnit_touch ..) rfl
  clear_value s2
  clear_value i0
  refine Touch.ite ?_ ?_
  · exact (h4).to (portEnableOp_touch ..) rfl
  · exact h4

theorem opEndTest_touch (s u source pass) : Touch 208878960662 s (State.opEndTest s u source pass) := by
  unfold State.opEndTest
  exact (Touch.refl ..).to (setUnit_touch ..) rfl

theorem unitOp_touch (s op u source immediate pass) : Touch 214743121911 s (State.unitOp s op u source immediate pass).2 := by
  unfold State.unitOp
  split
  · rename_i op0
    exact (Touch.refl ..).to (opFence_touch ..) rfl
  · rename_i op1
    refine Touch.red1 ?_
    exact (Touch.refl ..).to (opUnfence_touch ..) rfl
  · rename_i op2
    refine Touch.red1 ?_
    exact (Touch.refl ..).to (setUnit_touch ..) rfl
  · rename_i op3
    refine Touch.red1 ?_
    exact (Touch.refl ..).to (opEndTest_touch ..) rfl
  · rename_i op4
    refine Touch.red1 ?_
    exact (Touch.refl ..).to (opOff_touch ..) rfl
  · rename_i op5 x6 x7 x8 x9 x10
    refine Touch.red1 ?_
    exact (Touch.refl ..).to (opOn_touch ..) rfl

theorem unitRequest_touch (s op basis u source immediate pass) : Touch 214743121911 s (State.unitRequest s op basis u source immediate pass).2 := by
  unfold State.unitRequest
  split
  rename_i x0 r1 s2 heq3
  have h4 : Touch 214743121911 s s2 := by
    refine Touch.of2 heq3 ?_
    split
    · rename_i x5 heq6
      split
      rename_i x7 r8 s9 heq10
      have h11 : Touch 214743121911 s s9 := Touch.of2 heq10 ((Touch.refl ..).to (unitOp_touch ..) rfl)
      refine Touch.red1 ?_
      refine Touch.ite ?_ ?_
      · exact h11
      · exact (h11).to (inc_touch_in (k := 31) _ _ rfl) rfl
    · rename_i x12 x13
      refine Touch.red1 ?_
      exact (Touch.refl ..).to (inc_touch_in (k := 31) _ _ rfl) rfl
  refine Touch.red1 ?_
  exact h4

theorem unitRow_touch (s op basis u v immediate pass) : Touch 231922991095 s (State.unitRow s op basis u v immediate pass) := by
  unfold State.unitRow
  split
  · rename_i v0
    refine Touch.ite ?_ ?_
    · split
      rename_i x1 r2 s3 heq4
      have h5 : Touch 231922991095 s s3 := Touch.of2 heq4 ((Touch.refl ..).to (unitRequest_touch ..) rfl)
      exact (h5).to (wr_touch_in (k := 31) _ _ _ rfl) rfl
    · exact Touch.refl ..
  · rename_i v6 tag7
    unfold State.mgmt
    refine Touch.ite ?_ ?_
    · exact Touch.refl ..
    · extract_lets s8 reply9
      have h10 : Touch 231922991095 s s8 := (Touch.refl ..).to (inc_touch_in (k := 34) _ _ rfl) rfl
      clear_value s8
      clear_value reply9
      refine Touch.ite ?_ ?_
      · exact (h10).to (emit_touch ..) rfl
      · split
        rename_i x11 c12 data13 s14 heq15
        have h16 : Touch 231922991095 s s14 := by
          refine Touch.of22 heq15 ?_
          beta_reduce
          split
          rename_i x17 r18 s19 heq20
          have h21 : Touch 231922991095 s s19 := Touch.of2 heq20 ((h10).to (unitRequest_touch ..) rfl)
          refine Touch.red2 ?_
          refine Touch.red1 ?_
          exact h21
        exact (h16).to (emit_touch ..) rfl

theorem execUnitFence_touch (via basis unit immediate s) {t : State} (e : execUnitFence via basis unit immediate s = .next t) :
    Touch 231922991095 s t := by
  refine run_touch e rfl fun u => ?_
  exact (Touch.refl ..).to (unitRow_touch ..) rfl

theorem execUnitUnfence_touch (via basis unit s) {t : State} (e : execUnitUnfence via basis unit s = .next t) :
    Touch 231922991095 s t := by
  refine run_touch e rfl fun u => ?_
  exact (Touch.refl ..).to (unitRow_touch ..) rfl

theorem execUnitTest_touch (via basis unit s) {t : State} (e : execUnitTest via basis unit s = .next t) :
    Touch 231922991095 s t := by
  refine run_touch e rfl fun u => ?_
  exact (Touch.refl ..).to (unitRow_touch ..) rfl

theorem execUnitEndTest_touch (via basis unit pass s) {t : State} (e : execUnitEndTest via basis unit pass s = .next t) :
    Touch 231922991095 s t := by
  refine run_touch e rfl fun u => ?_
  exact (Touch.refl ..).to (unitRow_touch ..) rfl

theorem execUnitOff_touch (via basis unit s) {t : State} (e : execUnitOff via basis unit s = .next t) :
    Touch 231922991095 s t := by
  refine run_touch e rfl fun u => ?_
  exact (Touch.refl ..).to (unitRow_touch ..) rfl

theorem execUnitOn_touch (via basis unit s) {t : State} (e : execUnitOn via basis unit s = .next t) :
    Touch 231922991095 s t := by
  refine run_touch e rfl fun u => ?_
  exact (Touch.refl ..).to (unitRow_touch ..) rfl

theorem execPendingFenceApply_touch (unit s) {t : State} (e : execPendingFenceApply unit s = .next t) :
    Touch 214743121911 s t := by
  refine run_touch e rfl fun u => ?_
  split
  · rename_i x0 heq1
    exact Touch.refl ..
  · rename_i x2 u3 source4 heq5
    refine Touch.ite ?_ ?_
    · exact Touch.refl ..
    · refine Touch.ite ?_ ?_
      · exact (Touch.refl ..).to (fenceEngine_touch ..) rfl
      · extract_lets src6 s7
        have h8 : Touch 214743121911 u s7 := Touch.set_mgt (Touch.refl ..) rfl
        clear_value s7
        clear_value src6
        exact (h8).to (fenceNow_touch ..) rfl

/-! ### RegWrite -/

theorem regWritten_touch (s o old path) : Touch 209113952342 s (State.regWritten s o old path) := by
  unfold State.regWritten
  refine Touch.ite ?_ ?_
  · exact (Touch.refl ..).to (helloAll_touch ..) rfl
  · refine Touch.ite ?_ ?_
    · exact (Touch.refl ..).to (event_touch ..) rfl
    · exact Touch.refl ..

theorem castCtrl_touch (s v) : Touch 209113952342 s (State.castCtrl s v) := by
  unfold State.castCtrl
  extract_lets standing0 s1
  have h2 : Touch 209113952342 s s1 := (Touch.refl ..).to (setF_touch_in (k := 28) _ _ _ rfl) rfl
  clear_value s1
  clear_value standing0
  refine Touch.ite ?_ ?_
  · exact (h2).to (dissolveCast_touch ..) rfl
  · refine Touch.ite ?_ ?_
    · exact h2
    · exact (h2).to (formCast_touch ..) rfl

theorem ownRule_touch (s o v a raw) : Touch 210188742742 s ((State.ownRule s o v a raw).getD s) := by
  unfold State.ownRule
  extract_lets bank0
  clear_value bank0
  refine Touch.iteO ?_ ?_
  · refine Touch.someO ?_
    exact (Touch.refl ..).to (ownerWrite_touch ..) rfl
  · refine Touch.iteO ?_ ?_
    · refine Touch.someO ?_
      exact (Touch.refl ..).to (powerWrite_touch ..) rfl
    · refine Touch.iteO ?_ ?_
      · refine Touch.someO ?_
        exact (Touch.refl ..).to (ringHead_touch ..) rfl
      · split
        · rename_i x1 x2 vec3 heq4
          refine Touch.someO ?_
          refine Touch.ite ?_ ?_
          · exact (Touch.refl ..).to (unmask_touch ..) rfl
          · exact (Touch.refl ..).to (wrMask_touch ..) rfl
        · rename_i x5 x6 p7 heq8 heq9
          refine Touch.someO ?_
          refine Touch.ite ?_ ?_
          · exact (Touch.refl ..).to (portEnableOp_touch ..) rfl
          · exact (Touch.refl ..).to (portDisableOp_touch ..) rfl
        · rename_i x10 x11 heq12 heq13
          exact Touch.refl ..

theorem setControl_touch (s r o cov v a raw path) : Touch 274877493334 s (State.setControl s r o cov v a raw path) := by
  unfold State.setControl
  extract_lets old0 given1 new2
  clear_value new2
  clear_value given1
  clear_value old0
  refine Touch.ite ?_ ?_
  · exact Touch.refl ..
  · split
    · rename_i x3 t4 heq5
      have h6 : Touch 274877493334 s t4 := by
        refine Touch.ofO (d := s) heq5 ?_
        refine Touch.toO ?_ (ownRule_touch ..) rfl
        exact Touch.refl ..
      exact h6
    · rename_i x7 heq8
      split
      · rename_i x9 e10 heq11
        exact (Touch.refl ..).to (discardWrite_touch ..) rfl
      · rename_i x12 heq13
        refine Touch.ite ?_ ?_
        · exact (Touch.refl ..).to (castCtrl_touch ..) rfl
        · exact ((Touch.refl ..).to (wr_touch_any ..) rfl).to (regWritten_touch ..) rfl

theorem clearAt_touch (s o) : Touch 25759318016 s (State.clearAt s o) := by
  unfold State.clearAt
  split
  · rename_i x0 x1 x2 e3 heq4
    exact (Touch.refl ..).to (clearEng_touch _ _ _ _ (by decide) (by decide)) rfl
  · rename_i x5 x6 x7 e8 heq9 x10
    exact (Touch.refl ..).to (clearEng_touch _ _ _ _ (by decide) (by decide)) rfl
  · rename_i x11 x12 x13 p14 heq15 x16 x17
    exact (Touch.refl ..).to (clearPort_touch ..) rfl
  · rename_i x18 x19 x20 x21 x22 x23
    refine Touch.ite ?_ ?_
    · exact (Touch.refl ..).to (clearRegs_touch (k := 24) _ _ _ _ (by decide)) rfl
    · refine Touch.ite ?_ ?_
      · exact (Touch.refl ..).to (clearRegs_touch (k := 25) _ _ _ _ (by decide)) rfl
      · refine Touch.ite ?_ ?_
        · exact (Touch.refl ..).to (clearRegs_touch (k := 22) _ _ _ _ (by decide)) rfl
        · refine Touch.ite ?_ ?_
          · exact (Touch.refl ..).to (clearRegs_touch (k := 28) _ _ _ _ (by decide)) rfl
          · refine Touch.ite ?_ ?_
            · exact (Touch.refl ..).to (clearRegs_touch (k := 26) _ _ _ _ (by decide)) rfl
            · refine Touch.ite ?_ ?_
              · exact (Touch.refl ..).to (clearRegs_touch (k := 27) _ _ _ _ (by decide)) rfl
              · refine Touch.ite ?_ ?_
                · exact (Touch.refl ..).to (clearRegs_touch (k := 31) _ _ _ _ (by decide)) rfl
                · refine Touch.ite ?_ ?_
                  · exact (Touch.refl ..).to (clearRegs_touch (k := 34) _ _ _ _ (by decide)) rfl
                  · refine Touch.ite ?_ ?_
                    · exact (Touch.refl ..).to (clearRegs_touch (k := 21) _ _ _ _ (by decide)) rfl
                    · refine Touch.ite ?_ ?_
                      · exact (Touch.refl ..).to (clearBnk_touch ..) rfl
                      · refine Touch.ite ?_ ?_
                        · exact (Touch.refl ..).to (clearMem_touch ..) rfl
                        · exact Touch.refl ..

theorem command_touch (s o v a raw) : Touch 240518168567 s (State.command s o v a raw) := by
  unfold State.command
  extract_lets q0
  clear_value q0
  refine Touch.ite ?_ ?_
  · refine Touch.ite ?_ ?_
    · exact (Touch.refl ..).to (biasCmdOp_touch ..) rfl
    · refine Touch.ite ?_ ?_
      · exact (Touch.refl ..).to (discardWrite_touch ..) rfl
      · exact Touch.refl ..
  · refine Touch.ite ?_ ?_
    · split
      · rename_i x1 heq2
        exact (Touch.refl ..).to (queEnable_touch ..) rfl
      · rename_i x3 heq4
        exact (Touch.refl ..).to (queDisable_touch ..) rfl
      · rename_i x5 heq6
        exact (Touch.refl ..).to (queReset_touch ..) rfl
      · rename_i x7 x8 x9 x10
        exact Touch.refl ..
    · refine Touch.ite ?_ ?_
      · exact (Touch.refl ..).to (unitRow_touch ..) rfl
      · refine Touch.ite ?_ ?_
        · refine Touch.ite ?_ ?_
          · exact (Touch.refl ..).to (mbxGo_touch ..) rfl
          · exact Touch.refl ..
        · split
          · rename_i x11 x12 vec13 heq14
            refine Touch.ite ?_ ?_
            · exact (Touch.refl ..).to (fullTrain_touch ..) rfl
            · refine Touch.ite ?_ ?_
              · exact (Touch.refl ..).to (enterRetrain_touch ..) rfl
              · exact Touch.refl ..
          · rename_i x15 x16 p17 heq18 heq19
            refine Touch.ite ?_ ?_
            · exact (Touch.refl ..).to (discardWrite_touch ..) rfl
            · refine Touch.ite ?_ ?_
              · exact (Touch.refl ..).to (capture_touch ..) rfl
              · exact Touch.refl ..
          · rename_i x20 x21 heq22 heq23
            refine Touch.ite ?_ ?_
            · exact (Touch.refl ..).to (clearAt_touch ..) rfl
            · exact Touch.refl ..

theorem writePart_touch (s a n v path) : Touch 274877906935 s (State.writePart s a n v path) := by
  unfold State.writePart
  split
  · rename_i x0 r1 o2 snd3 heq4
    extract_lets cov5 new6
    clear_value new6
    clear_value cov5
    refine Touch.ite ?_ ?_
    · exact (Touch.refl ..).to (command_touch ..) rfl
    · exact (Touch.refl ..).to (setControl_touch ..) rfl
  · rename_i x7 heq8
    exact Touch.refl ..

theorem regWrite_touch (s off width v path) : Touch 274877906935 s (State.regWrite s off width v path) := by
  unfold State.regWrite
  refine Touch.ite ?_ ?_
  · exact Touch.refl ..
  · extract_lets whole0
    clear_value whole0
    refine Touch.ite ?_ ?_
    · exact (Touch.refl ..).to (writePart_touch ..) rfl
    · exact ((Touch.refl ..).to (writePart_touch ..) rfl).to (writePart_touch ..) rfl

theorem execRegisterWrite_touch (offset width v s) {t : State} (e : execRegisterWrite offset width v s = .next t) :
    Touch 274877906935 s t := by
  refine run_touch e rfl fun u => ?_
  exact (Touch.refl ..).to (regWrite_touch ..) rfl

/-! ### Mgmt -/

theorem execEntdaa_touch (addr s) {t : State} (e : execEntdaa addr s = .next t) :
    Touch 17179869188 s t := by
  refine run_touch e rfl fun u => ?_
  refine Touch.ite ?_ ?_
  · exact ((Touch.refl ..).to (setF_touch_in (k := 34) _ _ _ rfl) rfl).to (emit_touch ..) rfl
  · exact Touch.refl ..

theorem execSetEndpointId_touch (eid s) {t : State} (e : execSetEndpointId eid s = .next t) :
    Touch 17179869188 s t := by
  refine run_touch e rfl fun u => ?_
  unfold State.control
  refine Touch.ite ?_ ?_
  · split
    rename_i x0 bs1 s2 heq3
    have h4 : Touch 17179869188 u s2 := by
      refine Touch.of2 heq3 ?_
      beta_reduce
      refine Touch.ite2 ?_ ?_
      · refine Touch.red1 ?_
        exact Touch.refl ..
      · refine Touch.red1 ?_
        exact (Touch.refl ..).to (setF_touch_in (k := 34) _ _ _ rfl) rfl
    exact (h4).to (emit_touch ..) rfl
  · exact Touch.refl ..

theorem execGetEndpointId_touch (s) {t : State} (e : execGetEndpointId s = .next t) :
    Touch 4 s t := by
  refine run_touch e rfl fun u => ?_
  unfold State.control
  refine Touch.ite ?_ ?_
  · split
    rename_i x0 bs1 s2 heq3
    have h4 : Touch 4 u s2 := by
      refine Touch.of2 heq3 ?_
      beta_reduce
      refine Touch.red1 ?_
      exact Touch.refl ..
    exact (h4).to (emit_touch ..) rfl
  · exact Touch.refl ..

theorem execGetMctpVersionSupport_touch (s) {t : State} (e : execGetMctpVersionSupport s = .next t) :
    Touch 4 s t := by
  refine run_touch e rfl fun u => ?_
  unfold State.control
  refine Touch.ite ?_ ?_
  · split
    rename_i x0 bs1 s2 heq3
    have h4 : Touch 4 u s2 := by
      refine Touch.of2 heq3 ?_
      beta_reduce
      refine Touch.red1 ?_
      exact Touch.refl ..
    exact (h4).to (emit_touch ..) rfl
  · exact Touch.refl ..

theorem execGetMessageTypeSupport_touch (s) {t : State} (e : execGetMessageTypeSupport s = .next t) :
    Touch 4 s t := by
  refine run_touch e rfl fun u => ?_
  unfold State.control
  refine Touch.ite ?_ ?_
  · split
    rename_i x0 bs1 s2 heq3
    have h4 : Touch 4 u s2 := by
      refine Touch.of2 heq3 ?_
      beta_reduce
      refine Touch.red1 ?_
      exact Touch.refl ..
    exact (h4).to (emit_touch ..) rfl
  · exact Touch.refl ..

theorem execGetVendorDefinedMessageSupport_touch (s) {t : State} (e : execGetVendorDefinedMessageSupport s = .next t) :
    Touch 4 s t := by
  refine run_touch e rfl fun u => ?_
  unfold State.control
  refine Touch.ite ?_ ?_
  · split
    rename_i x0 bs1 s2 heq3
    have h4 : Touch 4 u s2 := by
      refine Touch.of2 heq3 ?_
      beta_reduce
      refine Touch.red1 ?_
      exact Touch.refl ..
    exact (h4).to (emit_touch ..) rfl
  · exact Touch.refl ..

theorem execGetStatus_touch (tag s) {t : State} (e : execGetStatus tag s = .next t) :
    Touch 17179869188 s t := by
  refine run_touch e rfl fun u => ?_
  unfold State.mgmt
  refine Touch.ite ?_ ?_
  · exact Touch.refl ..
  · extract_lets s0 reply1
    have h2 : Touch 17179869188 u s0 := (Touch.refl ..).to (inc_touch_in (k := 34) _ _ rfl) rfl
    clear_value s0
    clear_value reply1
    refine Touch.ite ?_ ?_
    · exact (h2).to (emit_touch ..) rfl
    · split
      rename_i x3 c4 data5 s6 heq7
      have h8 : Touch 17179869188 u s6 := by
        refine Touch.of22 heq7 ?_
        beta_reduce
        refine Touch.red2 ?_
        refine Touch.red1 ?_
        exact h2
      exact (h8).to (emit_touch ..) rfl

theorem execReadReg_touch (tag offset width s) {t : State} (e : execReadReg tag offset width s = .next t) :
    Touch 17179869188 s t := by
  refine run_touch e rfl fun u => ?_
  unfold State.mgmt
  refine Touch.ite ?_ ?_
  · exact Touch.refl ..
  · extract_lets s0 reply1
    have h2 : Touch 17179869188 u s0 := (Touch.refl ..).to (inc_touch_in (k := 34) _ _ rfl) rfl
    clear_value s0
    clear_value reply1
    refine Touch.ite ?_ ?_
    · exact (h2).to (emit_touch ..) rfl
    · split
      rename_i x3 c4 data5 s6 heq7
      have h8 : Touch 17179869188 u s6 := by
        refine Touch.of22 heq7 ?_
        beta_reduce
        refine Touch.ite22 ?_ ?_
        · refine Touch.red2 ?_
          refine Touch.red1 ?_
          exact h2
        · refine Touch.red2 ?_
          refine Touch.red1 ?_
          exact h2
      exact (h8).to (emit_touch ..) rfl

theorem execWriteReg_touch (tag offset v s) {t : State} (e : execWriteReg tag offset v s = .next t) :
    Touch 274877906935 s t := by
  refine run_touch e rfl fun u => ?_
  unfold State.mgmt
  refine Touch.ite ?_ ?_
  · exact Touch.refl ..
  · extract_lets s0 reply1
    have h2 : Touch 274877906935 u s0 := (Touch.refl ..).to (inc_touch_in (k := 34) _ _ rfl) rfl
    clear_value s0
    clear_value reply1
    refine Touch.ite ?_ ?_
    · exact (h2).to (emit_touch ..) rfl
    · split
      rename_i x3 c4 data5 s6 heq7
      have h8 : Touch 274877906935 u s6 := by
        refine Touch.of22 heq7 ?_
        beta_reduce
        refine Touch.ite22 ?_ ?_
        · refine Touch.red2 ?_
          refine Touch.red1 ?_
          exact (h2).to (regWrite_touch ..) rfl
        · refine Touch.red2 ?_
          refine Touch.red1 ?_
          exact h2
      exact (h8).to (emit_touch ..) rfl

theorem execReadUnits_touch (tag cls first count s) {t : State} (e : execReadUnits tag cls first count s = .next t) :
    Touch 17179869188 s t := by
  refine run_touch e rfl fun u => ?_
  unfold State.mgmt
  refine Touch.ite ?_ ?_
  · exact Touch.refl ..
  · extract_lets s0 reply1
    have h2 : Touch 17179869188 u s0 := (Touch.refl ..).to (inc_touch_in (k := 34) _ _ rfl) rfl
    clear_value s0
    clear_value reply1
    refine Touch.ite ?_ ?_
    · exact (h2).to (emit_touch ..) rfl
    · split
      rename_i x3 c4 data5 s6 heq7
      have h8 : Touch 17179869188 u s6 := by
        refine Touch.of22 heq7 ?_
        beta_reduce
        refine Touch.ite22 ?_ ?_
        · refine Touch.red2 ?_
          refine Touch.red1 ?_
          exact h2
        · refine Touch.red2 ?_
          refine Touch.red1 ?_
          exact h2
      exact (h8).to (emit_touch ..) rfl

theorem execReadEvents_touch (tag first count s) {t : State} (e : execReadEvents tag first count s = .next t) :
    Touch 17179869188 s t := by
  refine run_touch e rfl fun u => ?_
  unfold State.mgmt
  refine Touch.ite ?_ ?_
  · exact Touch.refl ..
  · extract_lets s0 reply1
    have h2 : Touch 17179869188 u s0 := (Touch.refl ..).to (inc_touch_in (k := 34) _ _ rfl) rfl
    clear_value s0
    clear_value reply1
    refine Touch.ite ?_ ?_
    · exact (h2).to (emit_touch ..) rfl
    · split
      rename_i x3 c4 data5 s6 heq7
      have h8 : Touch 17179869188 u s6 := by
        refine Touch.of22 heq7 ?_
        beta_reduce
        refine Touch.ite22 ?_ ?_
        · extract_lets from9
          clear_value from9
          refine Touch.red2 ?_
          refine Touch.red1 ?_
          exact h2
        · refine Touch.red2 ?_
          refine Touch.red1 ?_
          exact h2
      exact (h8).to (emit_touch ..) rfl

theorem execMctpAssemblyTimeout_touch (s) {t : State} (e : execMctpAssemblyTimeout s = .next t) :
    Touch 524292 s t := by
  refine run_touch e rfl fun u => ?_
  exact Touch.set_mgt (Touch.refl ..) rfl

theorem execMcWatchdog_touch (s) {t : State} (e : execMcWatchdog s = .next t) :
    Touch 223877791766 s t := by
  refine run_touch e rfl fun u => ?_
  refine Touch.ite ?_ ?_
  · exact (((Touch.refl ..).to (stopController_touch ..) rfl).to (inc_touch_in (k := 34) _ _ rfl) rfl).to (event_touch ..) rfl
  · exact Touch.refl ..

/-! ### Thermal -/

theorem sense_touch (s i reading lo hi) : Touch 223877791766 s (State.sense s i reading lo hi) := by
  unfold State.sense
  refine Touch.ite ?_ ?_
  · exact Touch.refl ..
  · extract_lets bad0 silent1 src2
    clear_value src2
    clear_value silent1
    clear_value bad0
    refine Touch.ite ?_ ?_
    · exact (Touch.set_mgt (Touch.refl ..) rfl).to (sensorFault_touch ..) rfl
    · exact Touch.set_mgt (Touch.refl ..) rfl

theorem setSupply_touch (s) : Touch 524290 s (State.setSupply s) := by
  unfold State.setSupply
  refine Touch.ite ?_ ?_
  · exact Touch.set_mgt (Touch.refl ..) rfl
  · refine Touch.ite ?_ ?_
    · exact Touch.set_mgt (Touch.refl ..) rfl
    · split
      rename_i x0 w1 s2 heq3
      have h4 : Touch 524290 s s2 := Touch.of2 heq3 ((Touch.refl ..).to (draw_touch ..) rfl)
      exact Touch.set_mgt (h4) rfl

theorem setCap_touch (s cap) : Touch 223877791766 s (State.setCap s cap) := by
  unfold State.setCap
  extract_lets old0 s1
  have h2 : Touch 223877791766 s s1 := ((Touch.refl ..).to (setF_touch_in (k := 34) _ _ _ rfl) rfl).to (setSupply_touch ..) rfl
  clear_value s1
  clear_value old0
  refine Touch.ite ?_ ?_
  · exact h2
  · exact (h2).to (event_touch ..) rfl

theorem execPowerControlTick_touch (mv ma s) {t : State} (e : execPowerControlTick mv ma s = .next t) :
    Touch 223877791766 s t := by
  refine run_touch e rfl fun u => ?_
  refine Touch.ite ?_ ?_
  · exact Touch.refl ..
  · extract_lets s0 limit1 p2 m3 vin4 excess5 s6 s7 s8 power9
    have h10 : Touch 223877791766 u s0 := ((Touch.refl ..).to (sense_touch ..) rfl).to (sense_touch ..) rfl
    clear_value s0
    have h11 : Touch 223877791766 u s6 := Touch.set_mgt (h10) rfl
    clear_value s6
    have h12 : Touch 223877791766 u s7 := ((h11).to (setF_touch_in (k := 34) _ _ _ rfl) rfl).to (setF_touch_in (k := 34) _ _ _ rfl) rfl
    clear_value s7
    have h13 : Touch 223877791766 u s8 := (h12).to (setF_touch_in (k := 34) _ _ _ rfl) rfl
    clear_value s8
    clear_value power9
    clear_value excess5
    clear_value vin4
    clear_value m3
    clear_value p2
    clear_value limit1
    exact (h13).to (setCap_touch ..) rfl

theorem execJunctionTempSample_touch (readings s) {t : State} (e : execJunctionTempSample readings s = .next t) :
    Touch 223877791766 s t := by
  refine run_touch e rfl fun u => ?_
  extract_lets s0 compute1 io2 warn3 tj4 cool5 src6 s7 s8 s9
  have h10 : Touch 223877791766 u s0 := by
    unfold s0
    refine Touch.foldl ?_ (fun t11 a12 h13 => ?_)
    · exact Touch.refl ..
    · exact (h13).to (sense_touch ..) rfl
  clear_value s0
  have h14 : Touch 223877791766 u s7 := Touch.set_mgt (h10) rfl
  clear_value s7
  have h15 : Touch 223877791766 u s8 := (h14).to (setCap_touch ..) rfl
  clear_value s8
  have h16 : Touch 223877791766 u s9 := by
    unfold s9
    refine Touch.ite ?_ ?_
    · exact h15
    · exact (h15).to (inc_touch_in (k := 34) _ _ rfl) rfl
  clear_value s9
  clear_value src6
  clear_value cool5
  clear_value tj4
  clear_value warn3
  clear_value io2
  clear_value compute1
  refine Touch.ite ?_ ?_
  · exact (h16).to (setTherm_touch ..) rfl
  · refine Touch.ite ?_ ?_
    · exact (h16).to (setTherm_touch ..) rfl
    · exact h16

theorem dropRails_touch (s : State) : Touch 0x80401 s s.dropRails := by
  refine { Touch.refl _ s with
    mem := fun e => absurd e (by decide), banks := fun e => absurd e (by decide), mgt := fun e => absurd e (by decide), far := ?_
    sound := fun e => ⟨SMap.wf_filter _ e.mem, e.regs, e.board⟩ }
  intro _ a ha
  show SMap.get 0 (s.mem.filter fun e => decide (farBase ≤ e.1)) a = SMap.get 0 s.mem a
  rw [SMap.get_filter 0 (fun k => decide (farBase ≤ k))]
  simp [ha]

theorem execThermalTrip_touch (s) {t : State} (e : execThermalTrip s = .next t) :
    Touch 231922728951 s t := by
  refine run_touch e rfl fun u => ?_
  refine Touch.ite ?_ ?_
  · exact Touch.refl ..
  · extract_lets s0
    have h1 : Touch 231922728951 u s0 := ((Touch.refl ..).to (declareFailed_touch ..) rfl).to (setFault_touch ..) rfl
    clear_value s0
    exact (h1).to (dropRails_touch ..) rfl

theorem execVinOutOfRange_touch (mv s) {t : State} (e : execVinOutOfRange mv s = .next t) :
    Touch 206697922582 s t := by
  refine run_touch e rfl fun u => ?_
  refine Touch.ite ?_ ?_
  · exact Touch.refl ..
  · extract_lets src0 s1
    have h2 : Touch 206697922582 u s1 := Touch.set_mgt (Touch.refl ..) rfl
    clear_value s1
    clear_value src0
    exact ((h2).to (setSupply_touch ..) rfl).to (event_touch ..) rfl

theorem execTelemetryUpdate_touch (vcore beat s) {t : State} (e : execTelemetryUpdate vcore beat s = .next t) :
    Touch 223877791766 s t := by
  refine run_touch e rfl fun u => ?_
  refine Touch.ite ?_ ?_
  · exact Touch.refl ..
  · extract_lets s0 s1 s2 s3 s4
    have h5 : Touch 223877791766 u s0 := ((Touch.refl ..).to (sense_touch ..) rfl).to (setSupply_touch ..) rfl
    clear_value s0
    have h6 : Touch 223877791766 u s1 := ((h5).to (setF_touch_in (k := 34) _ _ _ rfl) rfl).to (setF_touch_in (k := 34) _ _ _ rfl) rfl
    clear_value s1
    have h7 : Touch 223877791766 u s2 := by
      unfold s2
      refine Touch.ite ?_ ?_
      · exact h6
      · exact (h6).to (setF_touch_in (k := 34) _ _ _ rfl) rfl
    clear_value s2
    have h8 : Touch 223877791766 u s3 := (h7).to (setF_touch_in (k := 34) _ _ _ rfl) rfl
    clear_value s3
    have h9 : Touch 223877791766 u s4 := ((h8).to (setF_touch_in (k := 34) _ _ _ rfl) rfl).to (setF_touch_in (k := 34) _ _ _ rfl) rfl
    clear_value s4
    exact ((h9).to (setF_touch_in (k := 34) _ _ _ rfl) rfl).to (setF_touch_in (k := 34) _ _ _ rfl) rfl

end Sys2Proof.Machine
end

