-- ==== Sys2Proof/Tests/Slice0.lean ====
section
/-!
SUPPORT. Small tests, each of one step: for every statement with hypotheses a state and operands that meet them, clause by
clause, with what the command leaves there, and the operand checks, each with a term it refuses.
-/
namespace Sys2Proof.Tests

open Sys2Proof Sys2Proof.Machine

set_option Elab.async false

/-! ### Helpers -/

/-- The command completes on s and what it leaves passes p. -/
def leaves (c : Instr) (s : State) (p : State → Bool) : Bool :=
  match exec c s with
  | .next t => p t
  | _ => false

/-- The newest record has this code, unit and arguments. -/
def newest (t : State) (code unit : Nat) (args : List Nat) : Bool :=
  t.board.getLast?.any fun r => r.code == code && r.unit == unit && r.args == args

/-- s with fields of registers set. -/
def setAll (l : List (Fld × Nat)) (s : State) : State := l.foldl (fun s x => s.setF x.1 x.2) s

/-- s with whole registers set. -/
def wrAll (l : List (Nat × Nat)) (s : State) : State := l.foldl (fun s x => s.wr x.1 x.2) s

/-- A device that has started: PERST_N released, step S11 complete. -/
def up : State :=
  setAll [(Reg.lastStep, 11)]
    { State.reset with pins := { Pins.off with stby := true, pwr := true, perst := false, counted := true } }

/-- The host as a sender. -/
def byHost : Sender := ⟨5, 0, none⟩

/-! ### Well-formed commands -/

theorem test_ill_formed_units : [Instr.countClear 144, .portEnable 6, .bankPatrolScrub 3072 [], .attemptOpen 4, .cueComplete 16384,
    .msixMessage 2048, .hbmTempSample 8 none, .queCmdEnable (2 ^ 20), .fillRaw 0 144, .move 0 64, .updateSgd 0 16, .passStart 0 2 ⟨[], 0, 0, false⟩,
    .slotIdChanged 64, .hdmDecoderCommit 2 0 0 1, .handoverComplete 0 2, .txnPut 0 6, .microBatchBoundary 0 256,
    .product 0 [144], .bankPowerRequest 0 4, .laneSignalLoss 0 16, .fecFrameReceived 0 [(272, 0)]].all
      (fun c => !c.wf && match exec c up with | .fault _ => true | _ => false) = true := by decide +kernel

theorem test_ill_formed_addresses : [Instr.bankRead byHost 0x2FFFFFFF 2 [], .bankRead byHost 63 2 [], .bankRead byHost 0 0 [],
    .bankWrite byHost 1 [], .bankWrite byHost 0x30000000 [], .bankWrite byHost 0 [(64, 0)], .bankRead ⟨5, 1, none⟩ 0 1 [],
    .bankRead ⟨0, 0, none⟩ 0 1 [], .addW32 ⟨1, 144, none⟩ 0 0 false [], .addA64 byHost none 0 ⟨0, false, false, false, 0, 0⟩ [] [],
    .hbmAccess byHost 0xFFFFFFFFF 1 false [] [] 0, .hbmAccess byHost 0xD000000000 1 false [] [] 0,
    .hbmAccess byHost 0x1000000000 2 true [0] [] 0, .ddrAccess byHost 0xFFFFFFFFFF 1 false [] [], .hbmPatrolScrub 0xD000000000 ⟨0, []⟩,
    .ddrPatrolScrub 0xFFFFFFFFFF 0, .hostMemAccess (2 ^ 52) 1 false [] [], .badAccess (2 ^ 26) 4 false true,
    .registerWrite 0 4 (2 ^ 64), .farRequestError 0 0 0, .farRequestError 0x800000000000 5 0].all
      (fun c => !c.wf && match exec c up with | .fault _ => true | _ => false) = true := by decide +kernel

theorem test_ill_formed_values : [Instr.startWatchdogExpiry 13 0 [], .startWatchdogExpiry 0 65536 [], .doorbellCueTail 0 (2 ^ 32),
    .biasToHost 4 1 0, .biasToHost 0 0 0, .biasToDevice 0 1 (2 ^ 20), .doeDiscovery 256, .cdatRead 65536, .rotationKeyLoad (2 ^ 24),
    .bankOwnerWrite 0 0 8 0, .bankOwnerWrite 0 0 0 256, .getEvidence (.mctp 65536 []), .patternTimeout 0x1090, .entdaa 0, .entdaa 128,
    .setEndpointId 256, .getStatus 65536, .readReg 0 (2 ^ 32) 4, .writeReg 0 0 (2 ^ 32), .readEvents 0 (2 ^ 64) 1,
    .unitFence .host (2 ^ 32) 0 false, .unitOff .host 0 65536, .unitOn (.mctp 65536) 0 0, .junctionTempSample [],
    .telemetryUpdate none 65536, .hostRingHeadWrite (2 ^ 64), .atsInvalidation (2 ^ 52), .cxlCacheSnoop (2 ^ 52)].all
      (fun c => !c.wf && match exec c up with | .fault _ => true | _ => false) = true := by decide +kernel

theorem test_edges_well_formed : [Instr.countClear 143, .portEnable 5, .bankPatrolScrub 3071 [], .attemptOpen 3, .cueComplete 16383,
    .msixMessage 2047, .queCmdEnable (2 ^ 20 - 1), .slotIdChanged 63, .bankRead byHost 0x2FFFFFFF 1 [], .rotationKeyLoad (2 ^ 24 - 1),
    .registerWrite (2 ^ 26 - 1) 4 (2 ^ 64 - 1), .entdaa 127, .unitFence .host 0 65535 false].all
      (fun c => c.wf && match exec c up with | .next _ => true | _ => false) = true := by decide +kernel

/-- A debug instruction of the test access port stops while debug is enabled, and only then (R527). -/
theorem test_debug_stops : (match exec (.jtagTapInstruction 4) (setAll [(Reg.secDebug, 1)] up) with
    | .refused .debugUnit => true | _ => false) = true ∧ leaves (.jtagTapInstruction 4) up (fun t => t.sec.jtag == 0) = true := by
  decide +kernel

theorem test_step_takes_front : (match step { up with pending := [.entdaa 9, .queClear] } with
    | .next t => t.pending == [.queClear] && t.fld Reg.dynAddr == 9 | _ => false) = true
    ∧ step State.reset = .next State.reset := ⟨by decide +kernel, rfl⟩

theorem test_command_keeps_soundness : State.reset.Sound
    ∧ (match step { State.reset with pending := [.refclkReturn] } with | .next _ => true | _ => false) = true :=
  ⟨⟨rfl, rfl, by decide⟩, by decide +kernel⟩

/-! ### Counters -/

/-- Counters of every kind of window at 1, the last window of each. -/
def counted : State := wrAll ([0x4A3C80, 0x4A3D10, 0x80100, 0xA0100, 0x20100, 0x330100, 0x32FFD8, 0x200600, 0x2002D0, 0x2004C4,
  0x150100, 0x160200, 0xC0100, 0xE0100, 0x400100, 0x600100, 0x10100].map fun o => (o, 1)) up

theorem test_counters_clear : [(Instr.countClear 143, 0x4A3C80), (.drainClear 143, 0x4A3D10), (.numClear, 0x80100), (.rngClear, 0xA0100),
    (.queClear, 0x20100), (.bnkClear, 0x330100), (.bnkClear, 0x32FFD8), (.memClear, 0x200600), (.memClear, 0x2002D0),
    (.memClear, 0x2004C4), (.portClear 5, 0x150100), (.fabClear, 0x160200), (.ckpClear, 0xC0100), (.fovClear, 0xE0100),
    (.unitClear, 0x400100), (.mgtClear, 0x600100), (.evtClear, 0x10100)].all
      (fun x => counted.rd x.2 == 1 && leaves x.1 counted fun t => t.rd x.2 == 0 && t.rd 0x1C == 11) = true := by decide +kernel

theorem test_counters_keep_others : counted.served = true
    ∧ leaves .queClear counted (fun t => t.rd 0x80100 == 1 && t.rd 0x4A3C80 == 1) = true := by decide +kernel

/-! ### Banks -/

/-- The last bank belongs to the host on port A, and its last line is written. -/
def bankUp : State :=
  { setAll [(⟨0x32FFC0, 10, 8⟩, 5)] up with
    banks := [(3071, { Bank.off with defined := [(4095, 2 ^ 64 - 1)] })]
    mem := [(0x2FFFFFC0, 0xFF), (0x2FFFFFC1, 0xFF), (0x2FFFFFC2, 0xFF), (0x2FFFFFC3, 0x7F), (0x2FFFFFFF, 0xAA)] }

theorem test_bank_serves : bankUp.bankServes byHost 3071 ∧ bankUp.bankDefined 0x2FFFFFC0 64 := by
  unfold State.bankServes State.bankDefined; decide +kernel

theorem test_bank_read : (Instr.bankRead byHost 0x2FFFFFFC 4 []).wf = true
    ∧ leaves (.bankRead byHost 0x2FFFFFFC 4 []) bankUp (fun t => t.out == [.access 0 [0, 0, 0, 0xAA]]) = true := by decide +kernel

theorem test_bank_write : let cells : List (Nat × Byte) := [(0, 1), (63, 2)]
    (Instr.bankWrite byHost 0x2FFFFFC0 cells).wf = true ∧ (cells.map (·.1)).Nodup
    ∧ leaves (.bankWrite byHost 0x2FFFFFC0 cells) bankUp (fun t => t.byte 0x2FFFFFC0 == 1 && t.byte 0x2FFFFFFF == 2
        && t.byte 0x2FFFFFC1 == 0xFF) = true := by decide +kernel

theorem test_bank_atomics : byHost.wf = true
    ∧ leaves (.addW32 byHost 0x2FFFFFC0 2 true []) bankUp (fun t => t.num 0x2FFFFFC0 4 == 0x80000001 && t.out == [.access 0 [0xFF, 0xFF, 0xFF, 0x7F]]) = true
    ∧ leaves (.swap32 byHost 0x2FFFFFFC 7 []) bankUp (fun t => t.num 0x2FFFFFFC 4 == 7) = true
    ∧ leaves (.addI32 byHost 0x2FFFFFC0 1 []) bankUp (fun t => t.num 0x2FFFFFC0 4 == 0x7FFFFFFF && t.out == [.access St.saturated []]) = true
    ∧ leaves (.addW64 byHost 0x2FFFFFF8 1 false []) bankUp (fun t => t.num 0x2FFFFFF8 8 == 0xAA00000000000001 && t.out == [.access 0 []]) = true
    ∧ leaves (.swap64 byHost 0x2FFFFFF8 3 []) bankUp (fun t => t.num 0x2FFFFFF8 8 == 3) = true := by decide +kernel

/-- 1 + 2 = 3 in F32; an A64 element that saturates and one that does not (R159, R278). -/
theorem test_bank_float_and_exact_adds :
    leaves (.addF32 byHost 0x2FFFFFC4 0x40000000 []) { bankUp with mem := [(0x2FFFFFC6, 0x80), (0x2FFFFFC7, 0x3F)] }
      (fun t => t.num 0x2FFFFFC4 4 == 0x40400000) = true
    ∧ leaves (.addA64 byHost none 0x2FFFFFC0 ⟨0, false, false, false, 0, 0⟩ [2 ^ 63 - 1] []) bankUp
      (fun t => t.num 0x2FFFFFC0 8 == 2 ^ 63 - 1 && t.out.getLast? == some (.access St.saturated [])) = true
    ∧ leaves (.addA64 byHost none 0x2FFFFFC8 ⟨0, false, false, false, 0, 0⟩ [-1] []) bankUp
      (fun t => t.num 0x2FFFFFC8 8 == 2 ^ 64 - 1 && t.out == [.access 0 []]) = true := by decide +kernel

/-! ### HBM and DDR -/

/-- All eight stacks are up, channels 0 and 1 are the active DDR set with 32 GiB each. -/
def memUp : State :=
  setAll ([(Reg.ddrActive, 2)] ++ (List.range 8).flatMap (fun i => [(Reg.stackUp.plus (0x40 * i), 1)])
    ++ [0, 1].flatMap fun c => [(Reg.ddrTrained.plus (0x40 * c), 1), (Reg.ddrInSet.plus (0x40 * c), 1), (Reg.ddrCapacity.plus (0x40 * c), 2)]) up

theorem test_outer_serves : memUp.outerServes .hbm 0x1000000000 2048 ∧ memUp.outerServes .hbm 0xCFFFFFFFFF 1
    ∧ memUp.outerServes .ddr 0x10000000000 64 ∧ memUp.outerServes .ddr (0x10000000000 + 2 ^ 36 - 1) 1 := by
  unfold State.outerServes; decide +kernel

theorem test_outer_accesses : (Instr.hbmAccess byHost 0xCFFFFFFFFF 1 true [5] [] 0).wf = true
    ∧ leaves (.hbmAccess byHost 0xCFFFFFFFFF 1 true [5] [] 0) memUp (fun t => t.byte 0xCFFFFFFFFF == 5 && t.out == [.access 0 []]) = true
    ∧ leaves (.hbmAccess byHost 0x1000000000 2 false [] [] 0) memUp (fun t => t.out == [.access 0 [0, 0]]) = true
    ∧ (Instr.ddrAccess byHost 0x10FFFFFFFFF 1 true [6] []).wf = true
    ∧ leaves (.ddrAccess byHost 0x10FFFFFFFFF 1 true [6] []) memUp (fun t => t.byte 0x10FFFFFFFFF == 6) = true
    ∧ leaves (.ddrAccess byHost 0x10000000000 1 false [] []) memUp (fun t => t.out == [.access 0 [0]]) = true := by decide +kernel

theorem test_patrol_scrub : memUp.bf 3071 Reg.bankState ≠ 2 ∧ memUp.fld Reg.stackUp = 1 ∧ memUp.voided = [] ∧ (memUp.stack 0).remap = [] ∧ freeSpare 0 ≠ none
    ∧ leaves (.bankPatrolScrub 3071 []) (setAll [(Reg.bankScrubPos.plus (0x40 * 3071), 32767)] memUp)
      (fun t => t.bf 3071 Reg.bankScrubPos == 0) = true
    ∧ leaves (.hbmPatrolScrub 0x1000000000 ⟨0, []⟩) memUp (fun t => t == memUp) = true
    ∧ leaves (.hbmPatrolScrub 0x1000000000 ⟨2, []⟩) memUp (fun t => t.fld Reg.stackCorrected == 1) = true
    ∧ leaves (.hbmPatrolScrub 0x1000000000 ⟨3, []⟩) memUp (fun t => t.fld Reg.stackRemapUsed == 1 && t.fld Reg.stackCorrected == 1) = true
    ∧ leaves (.hbmPatrolScrub 0x1000000000 ⟨8, []⟩) memUp (fun t => t.fld Reg.stackRemapUsed == 1) = true := by decide +kernel

theorem test_ddr_scrub : memUp.tierOf 0x10000000000 64 = some .ddr ∧ memUp.ddrChannel 0x10000001000 = 1
    ∧ leaves (.ddrPatrolScrub 0x10000000000 0) memUp (fun t => t == memUp) = true
    ∧ leaves (.ddrPatrolScrub 0x10000001000 2) memUp (fun t => t.fld (Reg.ddrCorrected.plus 0x40) == 1) = true := by decide +kernel

/-! ### Owners, power and health -/

theorem test_owner_request_and_handover :
    bitAt 27 (bankUp.owner 3071 1) = false ∧ dualPort 3071 = true ∧ bankUp.bf 3071 Reg.bankLocked = 0 ∧ bankUp.bf 3071 Reg.bankState = 0
    ∧ leaves (.bankOwnerWrite 3071 1 1 143) bankUp (fun t => t.owner 3071 1 == 2 ^ 27 + 2 ^ 24 + 143 * 65536
      && leaves (.handoverComplete 3071 1) t (fun u => u.owner 3071 1 % 2 ^ 16 == 256 + 143)) = true
    ∧ leaves (.bankOwnerWrite 3071 0 0 0) bankUp (fun t => t.owner 3071 0 == 2 ^ 27 + 5 * 256) = true := by decide +kernel

/-- Bank 5 entering the state asked for. -/
def entering (req : Nat) (lost : Bool) : State :=
  { setAll [(Reg.bankState.plus 0x140, 3), (Reg.bankReq.plus 0x140, req)] up with
    banks := [(5, { Bank.off with lost, defined := [(0, 1)] })], mem := [(0x140000, 1), (0x180000, 2)] }

theorem test_bank_power :
    leaves (.bankPowerRequest 5 1) up (fun t => t.bf 5 Reg.bankReq == 1 && t.bf 5 Reg.bankState == 3) = true
    ∧ leaves (.bankPowerRequest 5 0) up (fun t => t.bf 5 Reg.bankState == 0) = true
    ∧ leaves (.bankPowerStateEntry 5) (entering 1 false) (fun t => t.bf 5 Reg.bankState == 1 && t.byte 0x140000 == 1) = true
    ∧ leaves (.bankPowerStateEntry 5) (entering 2 false) (fun t => t.bf 5 Reg.bankState == 2 && t.byte 0x140000 == 0
      && t.byte 0x180000 == 2 && (t.bank 5).lost) = true
    ∧ leaves (.bankPowerUpDone 5) (entering 0 true) (fun t => t.bf 5 Reg.bankState == 0 && (t.bank 5).defined == [] && !(t.bank 5).lost) = true
    ∧ leaves (.bankPowerUpDone 5) (entering 0 false) (fun t => t.bf 5 Reg.bankState == 0 && (t.bank 5).defined == [(0, 1)]) = true
    ∧ leaves (.bankPowerUpDone 5) (entering 1 true) (fun t => t.bf 5 Reg.bankState == 3 && (t.bank 5).defined == [] && !(t.bank 5).lost) = true := by
  decide +kernel

/-- Engine 0 is active with a degraded bank, engine 8 is its cluster's spare. -/
def degraded : State :=
  wrAll [(unitOff 0x1000, US.active), (unitOff 0x1008, US.spare)]
    (setAll ([(Reg.moveDegraded, 1)] ++ (engineBanks 0).map fun b => (Reg.bankDegraded.plus (0x40 * b), 1)) up)

/-- What the copy's reads find wrong is a free value; without errors the spare's banks serve the engine's. -/
theorem test_degraded_engine_moves : degraded.fld Reg.moveDegraded = 1 ∧ degraded.jobs = [] ∧ degraded.engSt 0 = US.active
    ∧ (∃ b ∈ engineBanks 0, degraded.bf b Reg.bankDegraded = 1) ∧ degraded.spareOf 0 = some 8
    ∧ (let t := degraded.quiet.aliasBanks 0 8 []
       t.bf 15 Reg.bankAliasValid == 1 && t.bf 15 Reg.bankAlias == 143 && t.served1 0 == 128 && t.engSt 8 == US.spare) = true := by decide +kernel

theorem test_health_is_written : leaves .healthRecordWrite { up with sec := { up.sec with healthDirty := true } }
    (fun t => !t.sec.healthDirty) = true := by decide +kernel

/-! ### Starts, pins and clocks -/

theorem test_resets_hold : leaves .perstNAssert { counted with mem := [(5, 1)] } (fun t => t.pins.perst && t.rd 0x80100 == 0 && t.byte 5 == 0) = true
    ∧ counted.pins.perst = false
    ∧ leaves .pwrGoodLoss counted (fun t => !t.pins.pwr && t.sec.powerOn && t.rd 0x80100 == 0) = true
    ∧ leaves .undervoltageLockout counted (fun t => t.mgt.railsOff && t.rd 0x80100 == 0) = true
    ∧ leaves .vsbLow (setAll [(Reg.eid, 9)] counted) (fun t => !t.pins.vsb && t.fld Reg.eid == 0 && t.rd 0x10100 == 1) = true := by
  decide +kernel

/-- Supplies present, PERST_N asserted; the same with PERST_N released early. -/
def ready : State := { up with pins := { up.pins with perst := true, counted := false } }
def early : State := { up with pins := { up.pins with counted := false, vin := false } }

theorem test_starts_begin : (ready.pins.vsb && ready.pins.stby && ready.pins.pwr && ready.pins.vin && ready.pins.ref && ready.pins.fclk) = true
    ∧ leaves (.perstNRelease []) ready (fun t => t.sec.step == some 0 && t.fld Reg.lastStep == 0 && t.sec.boot.cause == 1) = true
    ∧ early.pins.perst = false ∧ early.pins.counted = false
    ∧ leaves (.perstNConditionsMet []) early (fun t => t.sec.step == some 0 && t.pins.counted && t.pins.vin) = true
    ∧ up.pins.counted = true ∧ leaves (.cxlLinkDown []) up (fun t => t.sec.step == some 0 && t.sec.boot.cause == 3) = true := by
  decide +kernel

theorem test_start_aborts : let s := { up with sec := { up.sec with step := some 12, boot := { Boot.off with restarts := up.startSetting 4 } } }
    s.sec.step = some 12 ∧ s.startSetting 4 ≤ s.sec.boot.restarts
    ∧ leaves (.startWatchdogExpiry 12 65535 []) s (fun t => t.sec.step == none && t.fld Reg.secAborted == 1 && t.fld Reg.mgtFault == 1
      && newest t 0x1002 0xA000 [11]) = true := by decide +kernel

theorem test_supplies : leaves .pwrGoodAssert early (fun t => t.pins.vin) = true ∧ leaves .stbyOkAssert State.reset (fun t => t.pins.stby) = true
    ∧ leaves .stbyOkDeassert (setAll [(Reg.eid, 9), (Reg.dynAddr, 8), (Reg.slotIdReg, 7)] up)
      (fun t => t.fld Reg.eid == 0 && t.fld Reg.dynAddr == 0 && !t.pins.stby) = true
    ∧ leaves .vsbComesUp (wrAll [(0x10010, 7), (0x10108, 2)] up) (fun t => t.rd 0x10010 == 1 && t.rd 0x10108 == 0) = true := by decide +kernel

theorem test_clocks : (up.pins.ref && up.pins.counted && up.pins.vsb) = true
    ∧ leaves .refclkLost up (fun t => t.fld Reg.refclkLost == 1 && newest t 0x1005 0x9000 []) = true
    ∧ leaves .refclkReturn (setAll [(Reg.refclkLost, 1)] up) (fun t => t.fld Reg.refclkLost == 0) = true
    ∧ leaves .timerRecalibration up (fun t => t.fresh == 1) = true
    ∧ up.fld Reg.secAborted = 0 ∧ up.fov.dead = false
    ∧ leaves .fclkLost up (fun t => t.fov.dead && t.fld Reg.fovState == 6 && t.fld Reg.mgtFault == 1) = true := by decide +kernel

theorem test_straps_and_test_port : up.sec.step ≠ some 0 ∧ up.pins.slot = 0
    ∧ leaves (.slotIdChanged 63) up (fun t => t.pins.slot == 63 && t.fld Reg.slotIdReg == 0 && newest t 0x8009 0x9000 [0, 63]) = true
    ∧ leaves (.slotIdChanged 63) { up with pins := { up.pins with slotSeen := true } } (fun t => t.board == []) = true
    ∧ leaves (.jtagTapInstruction 1) up (fun t => t.out == [.value 0x4800] && t.sec.jtag == 1) = true
    ∧ leaves (.jtagTapInstruction 3) up (fun t => t.out == [] && t.sec.jtag == 3) = true := by decide +kernel

/-! ### The host link -/

theorem test_bad_access : leaves (.badAccess (2 ^ 26 - 1) 4 false true) up (fun t => t.out == [.value 0]
      && newest t 0x9001 0x9000 [2 ^ 26 - 1, 4]) = true
    ∧ leaves (.badAccess 0 2 true true) up (fun t => newest t 0x9001 0x9000 [0, 2 + 2 ^ 31]) = true
    ∧ leaves (.badAccess 4 8 false false) up (fun t => t.out == [.value 0] && t.board == []) = true
    ∧ exec (.badAccess 8 8 true true) up = .next { up with out := [] } := ⟨by decide +kernel, by decide +kernel, by decide +kernel, rfl⟩

/-- Decoder 0 maps HBM and the banks at 2^40, decoder 1 the DDR range at 2^41. -/
def mapped : State := { memUp with host := { HostLink.off with decoders := [some ⟨2 ^ 40, 832 * 2 ^ 30⟩, some ⟨2 ^ 41, 2 ^ 36⟩] } }

/-- The host reads and writes HBM, DDR and a bank, completes the handover of a bank to it, meets the hole, and is not served. -/
theorem test_host_memory : let hbm := 2 ^ 40 + 0x1000000000
    let bank := { bankUp with host := mapped.host }
    let a := 2 ^ 40 + 0x2FFFFFFE
    let given := setAll [(⟨0x32FFC0, 10, 8⟩, 1), (⟨0x32FFC0, 27, 27⟩, 1), (⟨0x32FFC0, 26, 24⟩, 5)] bank
    mapped.served = true ∧ mapped.host.ideInsecure = false
    ∧ mapped.hdmAddr hbm 2 = some 0x1000000000 ∧ mapped.outerServes .hbm 0x1000000000 2 ∧ (Instr.hostMemAccess hbm 2 true [7, 8] []).wf = true
    ∧ leaves (.hostMemAccess hbm 2 true [7, 8] []) mapped (fun t => t.byte 0x1000000001 == 8 && t.out == [.access 0 []]) = true
    ∧ leaves (.hostMemAccess hbm 2 false [] []) mapped (fun t => t.out == [.access 0 [0, 0]]) = true
    ∧ mapped.hdmAddr (2 ^ 41) 1 = some 0x10000000000 ∧ mapped.outerServes .ddr 0x10000000000 1
    ∧ leaves (.hostMemAccess (2 ^ 41) 1 true [3] []) mapped (fun t => t.byte 0x10000000000 == 3) = true
    ∧ bank.hdmAddr a 2 = some 0x2FFFFFFE ∧ bank.bankServes byHost 3071 ∧ ownedBy (bank.owner (bank.served1 3071) 0) .host = true
    ∧ leaves (.hostMemAccess a 2 true [7, 8] []) bank (fun t => t.byte 0x2FFFFFFF == 8 && t.out == [.access 0 []]) = true
    ∧ leaves (.hostMemAccess a 2 false [] []) bank (fun t => t.out == [.access 0 [0, 0xAA]]) = true
    ∧ bitAt 27 (given.owner 3071 0) = true ∧ ownedBy (given.owner 3071 0) .host = false
    ∧ leaves (.hostMemAccess a 2 false [] []) given (fun t => !bitAt 27 (t.owner 3071 0) && ownedBy (t.owner 3071 0) .host) = true
    ∧ mapped.holeFor 0x30000000 = true ∧ mapped.holeFor 0xFFFFFFFFF = true ∧ mapped.holeFor 0x2FFFFFFF = true
    ∧ leaves (.hostMemAccess (2 ^ 40 + 0x30000000) 1 true [1] []) mapped (fun t => t.mem == [] && t.host.holeStep
      && newest t 0x9002 0x9000 [0x30000000, 0]) = true
    ∧ leaves (.hostMemAccess (2 ^ 40 + 0xFFFFFFFFF) 1 true [1] []) { mapped with host := { mapped.host with holeStep := true } }
      (fun t => t.board == []) = true
    ∧ leaves (.hostMemAccess (2 ^ 40 + 0x2FFFFFFF) 1 false [] []) mapped (fun t => t.out == [.poison]) = true
    ∧ mapped.hdmAddr 0 1 = none ∧ leaves (.hostMemAccess 0 1 false [] []) mapped (fun t => t.out == [.unsupported]) = true
    ∧ leaves (.hostMemAccess hbm 2 true [7, 8] []) { mapped with host := { mapped.host with ideInsecure := true } } (fun t => t.out == [.unsupported]) = true := by
  unfold State.outerServes State.bankServes; decide +kernel

theorem test_decoders_commit : leaves (.hdmDecoderCommit 0 0 (832 * 2 ^ 30) 1) memUp (fun t => t.out == [.value 1]) = true
    ∧ leaves (.hdmDecoderCommit 1 (2 ^ 28) (2 ^ 36) 1) memUp (fun t => t.host.decoders == [none, some ⟨2 ^ 28, 2 ^ 36⟩]) = true
    ∧ leaves (.hdmDecoderCommit 1 0 (2 ^ 28) 2) memUp (fun t => t.out == [.value 2]) = true
    ∧ leaves (.hdmDecoderCommit 1 0 (2 ^ 28) 1) mapped (fun t => t.host == mapped.host && t.out == []) = true := by decide +kernel

theorem test_link_requests : up.allIdle = true ∧ leaves .d3hotRequest up (fun t => t.host.d3hot) = true
    ∧ (setAll [(Reg.jobState.plus 0x300, 2)] up).allIdle = false
    ∧ leaves .d3hotRequest (setAll [(Reg.jobState.plus 0x300, 2)] up) (fun t => t.out == [.unsupported]) = true
    ∧ leaves (.atsInvalidation 5) { up with host := { up.host with atc := [4, 5] } } (fun t => t.host.atc == [4] && t.out == [.value 5]) = true
    ∧ leaves (.cxlCacheSnoop (2 ^ 52 - 1)) up (fun t => t.out == [.snoopRspIHitI]) = true
    ∧ leaves .doeAbort { up with host := { up.host with doe := some [] } } (fun t => t.host.doe == none) = true := by decide +kernel

/-- The last discovery object ends the chain; the last CDAT entry names 0xFFFF next; the table sums to zero (R489, R490). -/
theorem test_doe_and_cdat : leaves (.doeDiscovery 2) up (fun t => t.out == [.response
      [1, 0, 0, 0, 3, 0, 0, 0, 0x3D, 0x1F, 1, 0]]) = true ∧ memUp.cdat.length = 15
    ∧ leaves (.cdatRead 14) memUp (fun t => t.out.any fun o => match o with | .response b => fieldLE b 10 2 == 0xFFFF | _ => false) = true
    ∧ ((memUp.cdat.flatten.map BitVec.toNat).foldl (· + ·) 0) % 256 = 0 := by decide +kernel

theorem test_ide_failure : let s := setAll [(Reg.ideSecure, 1)] { up with host := { up.host with ideKeys := [[1]] } }
    s.host.ideKeys ≠ [] ∧ leaves .ideIntegrityFailure s (fun t => t.host.ideInsecure && t.fld Reg.ideSecure == 0 && newest t 0x9003 0x9000 [0]
      && leaves (.hostMemAccess (2 ^ 52 - 1) 1 false [] []) t (fun u => u.out == [.unsupported])) = true := by decide +kernel

theorem test_far_failures : leaves (.farRequestError 0x800000000000 2 16383) up (fun t => t.fld Reg.farErrors == 1
      && newest t 0x400B 0x9000 [0, 0x8000, 2] && (t.board.getLast?.map (·.status)) == some St.farError) = true
    ∧ leaves (.farRequestTimeout 0xFFFFFFFFFFFF 2 0) up (fun t => newest t 0x400B 0x9000 [0xFFFFFFFF, 0xFFFF, 2]
      && (t.board.getLast?.map (·.status)) == some St.timeout) = true := by decide +kernel

theorem test_ring_head : let s := wrAll [(Reg.nextSeq, 10), (Reg.hostRingHead, 4)] up
    leaves (.hostRingHeadWrite 4) s (fun t => t.rd Reg.hostRingHead == 4 && t.board == []) = true
    ∧ leaves (.hostRingHeadWrite 9) s (fun t => t.rd Reg.hostRingHead == 9) = true
    ∧ leaves (.hostRingHeadWrite 3) s (fun t => t.rd Reg.hostRingHead == 4 && newest t 0xB001 0 [0x10030, 3, 2]) = true
    ∧ leaves (.hostRingHeadWrite 10) s (fun t => t.rd Reg.hostRingHead == 4 && newest t 0xB001 0 [0x10030, 10, 2]) = true := by decide +kernel

/-- A job with nothing in it. -/
def noJob : Job := jobOfPackage (List.replicate 128 0) (fun _ => []) 0 0

/-- A layout entry of format `fmt` with n elements in one dimension at `base`, and its record. -/
def layoutEntry (fmt flags n base rec bytes : Nat) : List Byte :=
  [1, 8, BitVec.ofNat 8 fmt, BitVec.ofNat 8 flags, 0, 0, 0, 0] ++ leBytes 4 n ++ leBytes 4 1 ++ leBytes 4 1 ++ leBytes 4 1
    ++ leBytes 8 base ++ leBytes 8 rec ++ leBytes 4 0 ++ leBytes 4 0xFFFFFFFF ++ leBytes 4 0 ++ leBytes 4 0 ++ leBytes 8 bytes

theorem test_bias : memUp.fld Reg.biasBusy = 0 ∧ (393215 + 1) * 2 ^ 21 = memUp.biasSize 0 ∧ (32767 + 1) * 2 ^ 21 = memUp.biasSize 1
    ∧ leaves (.biasToDevice 0 1 393215) memUp (fun t => t.fld Reg.biasBusy == 1 && t.host.bias == some (false, 0, 393215, 1)) = true
    ∧ memUp.usedByJob (biasAddr 1 32767) (2 ^ 21) = false
    ∧ leaves (.biasToHost 1 1 32767) memUp (fun t => t.fld Reg.biasBusy == 1 && leaves .biasCommandComplete t (fun u =>
        u.fld Reg.biasBusy == 0 && SMap.get false u.host.hostPages (2 ^ 20 + 32767) && !SMap.get false u.host.hostPages (2 ^ 20 + 32766))) = true
    ∧ (let s := { memUp with jobs := [(0, { noJob with layout := [List.replicate 64 0, layoutEntry fmtF32 0 1 0x1000000000 0 4] })] }
       s.usedByJob (biasAddr 0 0) (2 ^ 21) = true
       ∧ leaves (.biasToHost 0 1 0) s (fun t => t.fld Reg.biasRefused == 1 && t.host.bias == none) = true) := by decide +kernel

/-! ### Queues, cues and interrupts -/

/-- A queue of 16 cues with one posted, in a table in HBM; its completion ring of 16 lies in the far window. -/
def aQueue : Queue := { Queue.off with state := 1, log2 := 4, cplLog2 := 4, vector := 9, ring := 0x1000010000, cplBase := 0x800000000000, tail := 1, bell := true }
def queued (x : Queue) : State := setAll [(Reg.queEnable, 1), (Reg.directorMask, 0)] (wrAll [(Reg.queTableBase, 0x1000000000)]
  { memUp with queues := [(5, x)] })

theorem test_doorbells : (queued aQueue).served = true ∧ ((queued aQueue).queue 5).state = 1
    ∧ leaves (.doorbellCueTail 5 16) (queued aQueue) (fun t => (t.queue 5).tail == 16 && (t.queue 5).bell && t.fld Reg.doorbells == 1) = true
    ∧ leaves (.doorbellCueTail 5 17) (queued aQueue) (fun t => (t.queue 5).state == 2 && (t.queue 5).tail == 1 && newest t 0x3003 0xB000 [5, 0]) = true
    ∧ leaves (.doorbellCueTail 5 0) (queued aQueue) (fun t => (t.queue 5).state == 2 && newest t 0x3003 0xB000 [5, 1]) = true
    ∧ leaves (.doorbellCueTail 6 1) (queued aQueue) (fun t => newest t 0x3005 0xB000 [6, 0] && t.queues == (queued aQueue).queues) = true
    ∧ leaves (.doorbellCplHead 5 3) (queued { aQueue with cplTail := 3 }) (fun t => (t.queue 5).cplHead == 3) = true := by decide +kernel

/-- The descriptor that queue 5 is enabled from. -/
def described (x : Queue) : State := (queued x).putBytes 0x1000000140
  ([1, 4, 4, 5, 9, 0x20, 0, 0] ++ leBytes 8 0x1000010000 ++ leBytes 8 0x800000000000 ++ List.replicate 40 0)

theorem test_queue_commands : (described Queue.off).outerServes .hbm ((described Queue.off).rd Reg.queTableBase + 64 * 5) 64
    ∧ (described Queue.off).descCheck ((described Queue.off).bytes 0x1000000140 64) = 0
    ∧ leaves (.queCmdEnable 5) (described Queue.off) (fun t => t.num 0x1000000142 1 == 64 + 4
      && t.queue 5 == { Queue.off with state := 1, log2 := 4, bound := true, slot := 1, cplLog2 := 4, vector := 9, ring := 0x1000010000, cplBase := 0x800000000000 }) = true
    ∧ (described aQueue).inFlight 5 = false
    ∧ leaves (.queCmdDisable 5) (described aQueue) (fun t => t.queue 5 == { aQueue with state := 0, bell := false } && t.num 0x100000015C 4 == 1) = true
    ∧ leaves (.queCmdReset 5) (described { aQueue with state := 0 }) (fun t => (t.queue 5).tail == 0 && t.num 0x100000015C 4 == 0) = true := by
  unfold State.outerServes; decide +kernel

theorem test_cue_fetch : let s := queued aQueue
    s.fld Reg.queEnable = 1 ∧ s.fld Reg.directorMask = 0 ∧ s.sources = [5] ∧ aQueue.ready = true
    ∧ s.outerServes .hbm (s.rd Reg.queTableBase + 64 * 5) 64 ∧ s.outerServes .hbm aQueue.ring 64
    ∧ leaves .cueFetch s (fun t => (t.queue 5).head == 1 && !(t.queue 5).bell && t.rr == 5 && t.fld Reg.cuesFetched == 1) = true := by
  unfold State.outerServes; decide +kernel

/-- A cue's 64 bytes: opcode, phase and flags, index, and its operands from offset 36. -/
def cueBytes (opcode flags index : Nat) (operands : List Byte) : List Byte :=
  [1, 8, BitVec.ofNat 8 opcode, BitVec.ofNat 8 flags] ++ leBytes 4 7 ++ leBytes 4 index ++ leBytes 8 0
    ++ leBytes 4 noIndex ++ leBytes 4 noIndex ++ leBytes 4 noIndex ++ leBytes 4 0x55 ++ operands ++ List.replicate (28 - operands.length) 0

/-- The cue of the job in slot 3. -/
def cue (opcode flags index : Nat) (operands : List Byte) : CueRec :=
  { id := 1, raw := cueBytes opcode flags index operands, queue := none, job := some 3, epoch := some 0, step := 0, ahead := false, held := false }

/-- It has been given operation slot 16383. -/
def waitingOp (c : CueRec) : OpSlot :=
  { cue := c, run := 0, rows := 0, started := false, left := 0, status := 0, tagOut := none, detail := 0xFFFF, satNoted := false, rungs := [] }
def withOp (o : OpSlot) (j : Job) (s : State) : State :=
  setAll [(Reg.jobState.plus 0x300, 3), (Reg.jobId.plus 0x300, 7)] { s with ops := [(16383, o)], jobs := [(3, j)] }

/-- The job with an open attempt. -/
def opened : Job := { noJob with isOpen := true }

theorem test_cue_issues : let c := cue cJoin 0x20 3 []
    let s := { withOp (waitingOp c) opened up with waiting := [c], ops := [] }
    s.waiting.find? (fun d => d.id == c.id) = some c ∧ s.job 3 = some opened ∧ s.ckp.stopping = false ∧ c.fence = false ∧ s.mayIssue c = true
    ∧ s.freeSlot c = some 0 ∧ opened.issueCheck c = 0
    ∧ leaves (.cueIssue 1) s (fun t => t.waiting == [] && (SMap.find t.ops 0).map (·.cue) == some c) = true := by decide +kernel

theorem test_cue_completes : let o := { waitingOp (cue cJoin 0x20 3 []) with started := true }
    o.cue.inAttempt = true ∧ o.cue.index ≠ 0xFFFFF
    ∧ leaves (.cueComplete 16383) (withOp o opened up) (fun t => SMap.find t.ops 16383 == none
      && (t.job 3).map (·.completed) == some [3]) = true := by decide +kernel

theorem test_completion_record : let r : List Byte := [1, 4, 1] ++ List.replicate 28 0 ++ [0xFF]
    let s := queued { aQueue with recs := [r], cplTail := 15 }
    ((s.queue 5).unread < 16 ∧ s.host.ideInsecure = false ∧ s.outerServes .hbm (s.rd Reg.queTableBase + 64 * 5) 64)
    ∧ leaves (.completionRecordWrite 5) s (fun t => t.byte (0x800000000000 + 32 * 15 + 31) == 128 && (t.queue 5).cplTail == 16
      && SMap.get false t.host.due 9) = true := by unfold State.outerServes; decide +kernel

theorem test_vectors : let s := wrAll [(Reg.msixTable + 16 * 2047, 0x1000), (Reg.msixTable + 16 * 2047 + 8, 5), (Reg.msixTable + 16 * 2047 + 12, 0)] { up with host := { up.host with due := [(2047, true)] } }
    leaves (.msixMessage 2047) s (fun t => t.out == [.msix 2047 0x1000 5] && t.host.due == []) = true
    ∧ leaves (.msixMessage 2047) (wrAll [(Reg.msixTable + 16 * 2047 + 12, 1)] s) (fun t => t.out == [] && t.fld (pbaFld 2047) == 1
      && leaves (.msixUnmask 2047) t (fun u => u.out == [.msix 2047 0x1000 5] && u.fld (pbaFld 2047) == 0)) = true
    ∧ leaves (.msixUnmask 0) up (fun t => t.out == [] && t.rd (Reg.msixTable + 12) == 0) = true := by decide +kernel

/-! ### Operations of a job -/

/-- The cipher and the hash against published vectors of their standards (FIPS 197, FIPS 202), and the flit CRC against the check
value of CRC-64/ECMA-182 (log entry 20). -/
theorem test_aes_256 : aes256 (List.range 32) ((List.range 16).map (17 * ·))
    = [0x8e, 0xa2, 0xb7, 0xca, 0x51, 0x67, 0x45, 0xbf, 0xea, 0xfc, 0x49, 0x90, 0x4b, 0x49, 0x60, 0x89] := by decide +kernel
theorem test_sha3_512 : (sha3_512 []).take 8 = [0xa6, 0x9f, 0x73, 0xcc, 0xa2, 0x3a, 0x9a, 0xc5] := by decide +kernel

/-- An engine's window and unit entry: 143 is active, 8 is a spare. -/
def engUp : State := wrAll [(unitOff (0x1000 + 143), US.active), (unitOff 0x1008, US.spare)] memUp

/-- Tensors: 1 and 2 of 32 W16 elements in one block, 3 an F32, 4 and 5 I32 pairs, 6 a K40 master of one element, 7 to 9 F32, 10 an A64
element, 11 an N8 element in one block with its W16 copy 12. -/
def smallLayout : List (List Byte) :=
  [List.replicate 64 0, layoutEntry 0x10 0 32 0x1000100000 0x1000101000 0x1000, layoutEntry 0x10 0 32 0x1000102000 0x1000103000 0x1000,
   layoutEntry fmtF32 0 1 0x1000104000 0 4, layoutEntry fmtI32 0 2 0x1000105000 0 8, layoutEntry fmtI32 0 2 0x1000106000 0 8,
   layoutEntry fmtK40 0 1 0x1000107000 0 257, layoutEntry fmtF32 0 1 0x1000108000 0 4, layoutEntry fmtF32 0 1 0x1000109000 0 4,
   layoutEntry fmtF32 0 1 0x100010A000 0 4, layoutEntry fmtA64 0 1 0x100010B000 0 256,
   (layoutEntry 0x08 0 1 0x100010C000 0x100010D000 0x1000).set 40 12, layoutEntry 0x10 0 1 0x100010E000 0x100010F000 0x1000]

/-- A finishing record: F32 by RNE to tensor 3, nothing else. -/
def plainFinish : List Byte := [1, 4, 0x18, 0] ++ List.replicate 24 0 ++ leBytes 4 3

/-- A job over those tensors with an open attempt. -/
def smallJob : Job := { opened with layout := smallLayout, finish := [plainFinish] }

/-- A record of a W16 tensor with SE8 scales. -/
def w16Record : List Byte := QRec.bytes ⟨0x10, false, false, false, 0, false, false, 0, 0, 0, 0, 0, 0⟩

/-- A PRODUCT of tensors 1 and 2 over `klen` positions. -/
def prodCue (klen : Nat) : CueRec := cue cProduct 0x20 3
  (leBytes 3 1 ++ leBytes 3 2 ++ leBytes 3 0 ++ leBytes 4 0 ++ leBytes 4 1 ++ leBytes 4 0 ++ leBytes 4 klen ++ leBytes 2 0 ++ [1])

/-- The operation of that cue waits in slot 16383. -/
def prodUp (klen : Nat) : State :=
  withOp (waitingOp (prodCue klen)) smallJob ((engUp.putBytes 0x1000101000 w16Record).putBytes 0x1000103000 w16Record)

theorem test_product : (prodUp 32).jobWaits 16383 cProduct (waitingOp (prodCue 32)) 3 smallJob ∧ (prodUp 32).engSt 143 = US.active
    ∧ (prodUp 32).inMatinee 143 = false ∧ (smallJob.viewOf (waitingOp (prodCue 32))) = smallJob ∧ (smallJob.prodCheck (prodCue 32)).1 = 0
    ∧ (match (prodUp 32).quiet.prodRead ⟨1, 143, some 3⟩ smallJob (prodCue 32) with
       | (0, 0xFFFF, some p, t) => t == (prodUp 32).quiet && !p.qa.fbCopy && !p.qb.fbCopy && p.tiles == 1
         && leaves (.product 16383 [143]) (prodUp 32) fun t => t.tiles.map (fun w => (w.op, w.role, w.tile, w.engine, w.rows, w.cols)) == [(16383, 0, 0, 143, 1, 1)]
           && (SMap.find t.ops 16383).any fun o => o.started && o.left == 1
       | _ => false) = true := by
  unfold State.jobWaits State.opWaits; decide +kernel

/-- The product under way, of a job and over `klen` positions: one tile to be acknowledged. The first elements of its operands are 1 and 3. -/
def runningOp (klen : Nat) : OpSlot := { waitingOp (prodCue klen) with started := true, left := 1 }
def productOf (j : Job) (klen : Nat) : State :=
  withOp (runningOp klen) j ([(0x1000101000, w16Record), (0x1000103000, w16Record), (0x1000100000, [0x80, 0x3F]), (0x1000100100, [127]),
    (0x1000102000, [0x40, 0x40]), (0x1000102100, [127])].foldl (fun (s : State) w => s.putBytes w.1 w.2) engUp)
def running (klen : Nat) : State := productOf smallJob klen

/-- Its tile, in a role; a complete set with the sum 6 at exponent −1: 3 in F32. -/
def aTile (role : Nat) : TileWork :=
  { op := 16383, role, tile := 0, engine := 143, r0 := 0, rows := 1, c0 := 0, cols := 1, et0 := 0, etB := 0, bound := false
    sampled := false, slices := 4, acked := false }
def complete (role : Nat) (sampled : Bool) : AccSet :=
  { AccSet.start { aTile role with sampled } [] with et := -1, elems := [⟨6, false⟩] }
def with143 (x : AccSet) (s : State) : State := { s with sets := [(287, x)] }

/-- The same product in a replay job, into the A64 tensor, as an update of it, and into the N8 tensor with a fall-back copy. -/
def a64Finish (acc : Nat) : List Byte := [1, 4, 0x29, 0, 0, BitVec.ofNat 8 acc] ++ List.replicate 22 0 ++ leBytes 4 10
def replayJob : Job := { smallJob with header := [0, 0, 0, 8] ++ List.replicate 124 0 }
def a64Job (acc : Nat) : Job := { smallJob with finish := [a64Finish acc] }
def n8Job : Job := { smallJob with
  finish := [[1, 4, 0x08, 0] ++ List.replicate 24 0 ++ leBytes 4 11], recipe := List.replicate 11 [] ++ [[1, 1, 8, 0, 0, 0, 0, 0]] }

/-- The product that the cue gives, with its operands' records. -/
def theProd (j : Job) (klen : Nat) : Prod :=
  let none' : Prod := ⟨tensorOf 0 [], tensorOf 0 [], qrecOf [], qrecOf [], finOf [], tensorOf 0 [], 0, 0, 0, 0, 0, 0⟩
  { (j.prodShape (prodCue klen)).getD none' with qa := qrecOf w16Record, qb := qrecOf w16Record }

/-- What makes it the product of slot 16383, as a test. -/
def isProduct (j : Job) (klen : Nat) : Bool :=
  let s := productOf j klen
  let p := theProd j klen
  decide (SMap.find s.ops 16383 = some (runningOp klen) ∧ s.job 3 = some j ∧ s.host.hostPages = [] ∧ s.voided = []) && decide (j.prodShape (prodCue klen) = some { p with qa := qrecOf [], qb := qrecOf [] })
    && decide (p.k0 + p.klen ≤ paddedLen p.a.redLen 0)
    && [p.a, p.b].all fun t => s.tierOf t.record 32 == some .hbm && !s.stackOff t.record 32 && s.bytes t.record 32 == w16Record

def productJobs : List Job := [smallJob, replayJob, a64Job 0, a64Job 1, n8Job]
theorem products : (productJobs.all (fun j => isProduct j 32) && isProduct smallJob 0) = true := by
  decide +kernel

theorem isProduct_productIs (j : Job) (klen : Nat) (h : isProduct j klen = true) :
    (productOf j klen).productIs 16383 (runningOp klen) 3 j (theProd j klen) := by
  simp only [isProduct, Bool.and_eq_true, decide_eq_true_eq, List.all_cons, List.all_nil, beq_iff_eq, Bool.not_eq_true'] at h
  obtain ⟨⟨⟨⟨h0, h1, hp, hv⟩, h2⟩, h3⟩, ⟨⟨a1, a2⟩, a3⟩, ⟨⟨b1, b2⟩, b3⟩, -⟩ := h
  have hw : qrecForm w16Record = 0 := by decide +kernel
  refine ⟨h0, rfl, h1, ⟨_, h2, rfl, h3⟩, ⟨⟨a1, hp, hv, .inl ⟨rfl, a2⟩⟩, ?_, ?_⟩, ⟨⟨b1, hp, hv, .inl ⟨rfl, b2⟩⟩, ?_, ?_⟩, rfl, rfl, rfl, rfl,
    fun _ => rfl, fun h => absurd rfl h⟩
  · rw [a3]; exact hw
  · rw [a3]; rfl
  · rw [b3]; exact hw
  · rw [b3]; rfl

/-- A product does not depend on the sets, the tiles that wait and the held ones. -/
theorem productIs_array (s : State) (x : SMap AccSet) (w : List TileWork) (h : List HeldTile) (c : List Nat) (i : Nat) (o : OpSlot) (slot : Nat)
    (j : Job) (p : Prod) : ({ s with sets := x, tiles := w, heldTiles := h, captures := c } : State).productIs i o slot j p ↔ s.productIs i o slot j p :=
  Iff.rfl

theorem test_product_is : (∀ j ∈ productJobs, (productOf j 32).productIs 16383 (runningOp 32) 3 j (theProd j 32))
    ∧ (productOf smallJob 0).productIs 16383 (runningOp 0) 3 smallJob (theProd smallJob 0) := by
  have h := products
  simp only [Bool.and_eq_true, List.all_eq_true] at h
  exact ⟨fun j m => isProduct_productIs j 32 (h.1 j m), isProduct_productIs _ 0 h.2⟩

/-- The blocks of both operands can be read, no copy serving them, and so can the base of the update. -/
theorem test_product_feeds : let s := productOf smallJob 32
    s.copyIs smallJob (theProd smallJob 32).qa none
    ∧ s.copyIs smallJob (theProd smallJob 32).qb none ∧ s.passFeeds (theProd smallJob 32) (aTile 0) none none 0
    ∧ (productOf (a64Job 1) 32).baseServes (theProd (a64Job 1) 32) (aTile 0)
    ∧ (smallJob.replay = false ∧ replayJob.replay = true) ∧ (aTile 0).upOps (smallJob.viewOf (runningOp 32)) (runningOp 32).cue = (none, none) := by
  intro s
  refine ⟨Or.inl ?_, Or.inl ?_, ?_, ?_, ?_, ?_⟩
  case refine_4 => unfold State.baseServes State.outerServes; decide +kernel
  all_goals try decide +kernel
  intro bk hb
  rw [show (theProd smallJob 32).kBlocks 0 = [(0, 32)] by decide +kernel, List.mem_singleton] at hb
  subst hb
  have h0 : (aTile 0).rows = 1 ∧ (aTile 0).cols = 1 := ⟨rfl, rfl⟩
  have served : (productOf smallJob 32).blockServes (theProd smallJob 32).a (theProd smallJob 32).qa 0
      ∧ (productOf smallJob 32).blockServes (theProd smallJob 32).b (theProd smallJob 32).qb 0 := by
    unfold State.blockServes State.outerServes; decide +kernel
  have plain : (((productOf smallJob 32).storedBlock (theProd smallJob 32).a (theProd smallJob 32).qa 0).2.testBit 3 = false)
      ∧ (((productOf smallJob 32).storedBlock (theProd smallJob 32).b (theProd smallJob 32).qb 0).2.testBit 3 = false) := by decide +kernel
  refine ⟨fun m hm => ?_, fun n hn => ?_⟩
  · rw [h0.1] at hm
    obtain rfl : m = 0 := by omega
    exact ⟨served.1, fun e => absurd e (by rw [show ((aTile 0).r0 + 0) * _ + (0, 32).1 = 0 by decide +kernel, plain.1]; decide)⟩
  · rw [h0.2] at hn
    obtain rfl : n = 0 := by omega
    exact ⟨served.2, fun e => absurd e (by rw [show ((aTile 0).c0 + 0) * _ + (0, 32).1 = 0 by decide +kernel, plain.2]; decide)⟩

/-- Set 1 of engine 143 after a command. -/
def setAfter (c : Instr) (s : State) (f : AccSet → Bool) : Bool := leaves c s fun t => (SMap.find t.sets 287).any f
def quietMeet : PassMeet := ⟨[], 0, 0, false⟩
def waitingTile (s : State) : State := { s with tiles := [aTile 1, aTile 0] }

/-- A pass of the top slices carries the whole sum 1 · 3; a first pass on a bound and an idle set, of a replay job, without elements,
over a base, and with a set that cannot be corrected (R113, R140, R141, R146, R201). -/
theorem test_passes : let x := AccSet.start (aTile 0) ((theProd smallJob 32).passes 4)
    let s := running 32
    x.passes.length = 16 ∧ (running 32).engSt 143 = US.active
    ∧ setAfter (.passStart 143 1 quietMeet) (with143 x s) (fun y => y.passes.length == 15 && y.elems.map (·.v) == [3]) = true
    ∧ setAfter (.passStart 143 1 ⟨[(0, 5)], 0, 0, false⟩) (with143 { x with passes := x.passes.drop 1 } s) (fun y => y.passes.length == 14
      && y.elems.map (·.v) == [5]) = true
    ∧ setAfter (.passStart 143 1 quietMeet) (with143 x (productOf replayJob 32)) (fun y => y.passes.length == 15) = true
    ∧ setAfter (.passStart 143 1 quietMeet) (waitingTile s) (fun y => y.passes.length == 15 && y.work == aTile 1) = true
    ∧ leaves (.passStart 143 1 quietMeet) (waitingTile s) (fun t => t.tiles == [aTile 0] && t.ef 143 Reg.setState1 == 2 && t.ef 143 Reg.passes == 1) = true
    ∧ setAfter (.passStart 143 1 quietMeet) (waitingTile (productOf replayJob 32)) (fun y => y.passes.length == 15) = true
    ∧ setAfter (.passStart 143 1 quietMeet) (waitingTile (running 0)) (fun y => y.passes == []) = true
    ∧ setAfter (.passStart 143 1 quietMeet) ((waitingTile (productOf (a64Job 1) 32)).putBytes 0x100010B000 ([1, 8, 0x29, 0, 0, 0, 1, 0] ++ List.replicate 56 0 ++ [7]))
      (fun y => y.passes.length == 16 && y.elems.map (·.v) == [14]) = true
    ∧ leaves (.passStart 143 1 ⟨[], 0, 0, true⟩) (with143 x s) (fun t => t.sets == [] && t.board.any fun r => r.code == 0x4002 && r.unit == 0x108F) = true := by
  decide +kernel

/-- A sampled tile's place in the plan, and a held tile of engine 143 whose first run came to 6. -/
def ran (e : Nat) (v : Int) : TileResult :=
  { engine := e, et := -1, elems := [v], ovf := false, nv := false, lost := 0, retries := 0, bound := false
    out := { status := 0, plain := [], rows := [], quant := none, ovf := false, nv := false, spans := [], pre := 0 } }
def heldTile (damage : Bool) (verdict : Nat) (b c w : Option TileResult) : HeldTile :=
  { work := { aTile 0 with sampled := true }, damage, a := ran 143 6, b, c, wide := w, verdict }
def withHeld (h : HeldTile) : State := { running 32 with heldTiles := [h] }

/-- The product of a tile of set 1 of engine 143 reads, and leaves the state. -/
def works (s : State) (w : TileWork) (f : OpSlot → Nat → Job → Prod → Bool) : Bool :=
  match s.quiet.workOf 143 w with
  | (some (o, slot, j, p), t) => t == s.quiet && f o slot j p
  | _ => false

/-- A complete set of an F32 output: to its target, held as sampled, into the captures of a check run, or with an error (R145, R146, R173). -/
theorem test_drains : let drained := fun (j : Job) (x : AccSet) => { with143 x (productOf j 32) with heldTiles := [heldTile false 0 none none none] }
    works (with143 (complete 0 false) (running 32)) (aTile 0) (fun o _ j p => p.fin.direct && !p.fin.stats && p.fin.acc == 0
      && (match (with143 (complete 0 false) (running 32)).quiet.drainOut (engRq 143 o) j p o.cue (complete 0 false) 0 with
          | (d, u) => d.status == 0 && d.quant.isNone && d.rows == [] && d.spans == [] && d.plain == [(0x1000104000, [0, 0, 0x40, 0x40])]
            && u == (with143 (complete 0 false) (running 32)).quiet
            && [(0, true), (1, false), (2, false), (3, false)].all (fun c => (((u.drained 143 o (complete c.1 c.2) d).noteDraws 3 p (complete c.1 c.2).work d.quant).captureTile
              j o p (complete c.1 c.2) d).1 == 0))) = true
    ∧ ((a64Job 0).viewOf (runningOp 32)).planned (runningOp 32).cue 0 = none
    ∧ leaves (.tileDrain 143 ⟨1, false⟩) (drained smallJob (complete 0 false)) (fun t => t.sets == [] && t.num 0x1000104000 4 == 0x40400000
      && (SMap.find t.ops 16383).any fun o => o.rows == 1 && o.left == 0) = true
    ∧ [smallJob, a64Job 0].all (fun j =>
      leaves (.tileDrain 143 ⟨1, false⟩) (drained j (complete 0 true)) (fun t => t.sets == []
        && t.heldTiles.map (fun h => (h.a.elems, h.b.isSome, h.verdict)) == [([6], false, 0), ([6], false, 0)])
      && leaves (.tileDrain 143 ⟨1, false⟩) (drained j (complete 1 false)) (fun t => t.sets == [] && t.heldTiles.any fun h => (h.b.map (·.elems)) == some [6])
      && leaves (.tileDrain 143 ⟨1, false⟩) (drained j (complete 2 false)) (fun t => t.heldTiles.any fun h => (h.c.map (·.elems)) == some [6])
      && leaves (.tileDrain 143 ⟨1, true⟩) (drained j (complete 0 false)) (fun t => t.sets == [])
      && leaves (.secondDrain 143 ⟨1, true⟩) (drained j (complete 0 false)) (fun t => t.sets == [])) = true
    ∧ leaves (.tileDrain 143 ⟨1, false⟩) (drained smallJob (complete 3 false)) (fun t => t.heldTiles.any fun h => (h.wide.map (·.elems)) == some [6]) = true
    ∧ leaves (.tileDrain 143 ⟨1, false⟩) (drained (a64Job 0) (complete 0 false)) (fun t => t.sets == [] && t.num 0x100010B000 4 == 0x00290801 - 0x400
      && t.num 0x100010B040 8 == 6 && t.num 0x100010B006 2 == 0xFFFF && (SMap.find t.ops 16383).any fun o => o.rows == 1 && o.left == 0) = true := by
  decide +kernel

/-- The second drain of an N8 tile writes 3 with WIDE set, and as 0.75 · 2² to its W16 copy (R187). -/
theorem test_second_drain : let x := { complete 0 false with second := true }
    let s := with143 x (productOf n8Job 32)
    let p := theProd n8Job 32
    p.fin.direct = true ∧ p.fin.stats = false ∧ p.out.record = 0x100010D000
    ∧ (let d := (s.quiet.drainOut (engRq 143 (runningOp 32)) (n8Job.raisedRung p.out.idx) p (runningOp 32).cue x 0).1
       let writes := d.writes ++ s.mergedRecs n8Job (runningOp 32).cue.scope d.recs
       writes.map (·.1) = [0x100010C000, 0x100010C100, 0x100010C200, 0x100010E000, 0x100010E100, 0x100010E200, 0x100010D000, 0x100010F000]
       ∧ (d.recs.all fun r => formStatus (s.bytes (s.storeAddr r.2.1) 32) == 0) = true
       ∧ writes.all fun w => s.tierOf w.1 w.2.length == some .hbm && !s.stackOff w.1 w.2.length)
    ∧ leaves (.secondDrain 143 ⟨1, false⟩) s (fun t => t.sets == [] && t.num 0x100010E000 2 == 0x3F40 && t.num 0x100010E100 1 == 129 && (t.num 0x100010C200 1).testBit 3
      && (SMap.find t.ops 16383).any fun o => o.left == 0 && o.rows == 0) = true := by decide +kernel

/-- An overflow runs the product again, in steps of 8 and then at the bound (R147, R148). -/
theorem test_overflows : let y := { AccSet.start (aTile 0) [] with overflow := true, run := 2 }
    let again := fun (s : State) (n : Nat) (v : Int) => leaves (.a64Overflow 143 1) s fun t => t.ef 143 Reg.retryRuns == 1
      && (SMap.find t.ops 16383).any (fun o => o.run == 3)
      && (SMap.find t.sets 287).any fun z => z.run == 3 && z.et == 24 && z.passes.length == n && z.elems.map (·.v) == [v]
    again (with143 y (running 32)) 15 0 = true ∧ again (with143 y (running 0)) 0 0 = true ∧ again (with143 y (productOf replayJob 32)) 15 0 = true
    ∧ again ((with143 y (productOf (a64Job 1) 32)).putBytes 0x100010B000 ([1, 8, 0x29, 0, 0, 0, 25, 0] ++ List.replicate 56 0 ++ [7])) 16 14 = true
    ∧ leaves (.a64Overflow 143 1) (with143 { y with run := 3 } (running 32)) (fun t => (SMap.find t.sets 287).any fun z => z.run == 4 && z.bound) = true := by
  decide +kernel

/-- The check runs: on the spare, on an active engine of another cluster, and the rung-up run of a damage check (R175, R177, R179). -/
theorem test_check_run : (withHeld (heldTile false 0 none none none)).quiet.checkDue (heldTile false 0 none none none) = some (1, some 8)
    ∧ leaves (.faultCheckRun 0 8) (withHeld (heldTile false 0 none none none)) (fun t => t.tiles.map (fun w => (w.role, w.engine)) == [(1, 8)]
      && t.fld Reg.checksOnActive == 0) = true
    ∧ leaves (.faultCheckRun 0 0) (wrAll [(unitOff 0x1008, US.idle), (unitOff 0x1000, US.active)] (withHeld (heldTile false 5 (some (ran 8 7)) none none)))
      (fun t => t.tiles.map (fun w => (w.role, w.engine)) == []) = true
    ∧ leaves (.faultCheckRun 0 9) (wrAll [(unitOff 0x1008, US.idle), (unitOff 0x1009, US.active)] (withHeld (heldTile false 5 (some (ran 8 7)) none none)))
      (fun t => t.tiles.map (fun w => (w.role, w.engine)) == [(2, 9)] && t.fld Reg.checksOnActive == 1) = true
    ∧ (let h := heldTile true 1 (some (ran 8 6)) none none
       let p := theProd smallJob 32
       (withHeld h).quiet.checkDue h = some (3, some 8) ∧ smallJob.atW16 p.a = false ∧ p.b.isWeight = false
       ∧ leaves (.faultCheckRun 0 8) (withHeld h) (fun t => t.tiles.map (fun w => (w.role, w.engine)) == [(3, 8)]) = true) := by decide +kernel

/-- A damage check of operands at W16 is not run (R181). -/
theorem test_check_w16 : let j := { smallJob with recipe := List.replicate 3 [1, 1, 0x10, 0, 0, 0, 0, 0] }
    let h := heldTile true 1 (some (ran 8 6)) none none
    let s := { productOf j 32 with heldTiles := [h] }
    s.quiet.checkDue h = some (3, some 8) ∧ j.atW16 (theProd j 32).a = true ∧ j.atW16 (theProd j 32).b = true
    ∧ works s (aTile 0) (fun _ _ i _ => i == j) = true
    ∧ leaves (.faultCheckRun 0 8) s (fun t => t.tiles == [] && t.heldTiles == []) = true := by decide +kernel

theorem test_check_compare : works (withHeld (heldTile true 0 (some (ran 8 6)) none none)) (aTile 0) (fun _ _ _ _ => true) = true
    ∧ leaves (.faultCheckCompare 0) (withHeld (heldTile true 0 (some (ran 8 6)) none none)) (fun t => t.heldTiles.map (·.verdict) == [1]
      && t.fld Reg.faultChecks == 1) = true
    ∧ leaves (.faultCheckCompare 0) (withHeld (heldTile false 0 (some (ran 8 6)) none none)) (fun t => t.heldTiles == []) = true
    ∧ leaves (.faultCheckCompare 0) (withHeld (heldTile true 0 (some (ran 8 7)) none none)) (fun t => t.heldTiles.map (·.verdict) == [5]
      && t.fld Reg.faultMismatches == 1) = true := by decide +kernel

theorem test_verdicts : let h := fun c => withHeld (heldTile true 5 (some (ran 8 7)) (some (ran 17 c)) none)
    leaves (.faultVerdict 0) (h 6) (fun t => t.engSt 8 == US.failed && t.engSt 143 == US.active) = true
    ∧ leaves (.faultVerdict 0) (h 7) (fun t => t.engSt 143 == US.failed && t.engSt 8 == US.spare && t.heldTiles == []) = true
    ∧ leaves (.faultVerdict 0) (h 8) (fun t => t.fld Reg.faultUnresolved == 1 && t.heldTiles == []) = true
    ∧ leaves (.damageCheck 0) (withHeld (heldTile true 2 (some (ran 8 7)) (some (ran 17 6)) (some (ran 17 6))))
      (fun t => t.heldTiles == [] && t.fld Reg.damageChecks == 1) = true := by decide +kernel

/-- A draw descriptor of n elements into tensor 3 or 4. -/
def drawBytes (kind fmt n a b inRef outRef : Nat) : List Byte :=
  [1, 4, BitVec.ofNat 8 (16 * kind), BitVec.ofNat 8 fmt] ++ leBytes 3 0x100 ++ [0] ++ leBytes 4 9 ++ leBytes 4 n ++ leBytes 4 a ++ leBytes 4 b
    ++ leBytes 4 inRef ++ leBytes 4 outRef
def fillUp (bs : List Byte) : State :=
  withOp (waitingOp (cue cFill 0x20 3 (leBytes 3 0))) { smallJob with draw := [bs] } engUp

theorem test_fill_checks : [drawBytes 0 0 0 0 0 0 3, drawBytes 1 0 0 65535 0 0 3, drawBytes 2 fmtF32 0 0 0x3F800000 0 3,
    drawBytes 3 fmtI32 1 0 1 7 4].all (fun bs => drawCheck bs == 0) = true
    ∧ (fillUp (drawBytes 0 0 0 0 0 0 3)).jobWaits 16383 cFill (waitingOp (cue cFill 0x20 3 (leBytes 3 0))) 3 { smallJob with draw := [drawBytes 0 0 0 0 0 0 3] }
    ∧ (fillUp (drawBytes 0 0 0 0 0 0 3)).outerServes .hbm 0x1000104000 0 := by
  unfold State.jobWaits State.opWaits State.outerServes; decide +kernel

/-- Without elements a fill of each kind completes; one categorical row at temperature 0 over one score chooses column 0. -/
theorem test_fills : leaves (.fillRaw 16383 143) (fillUp (drawBytes 0 0 0 0 0 0 3)) (fun t => (SMap.find t.ops 16383).any (·.started)) = true
    ∧ leaves (.fillBernoulli 16383 143) (fillUp (drawBytes 1 0 0 65535 0 0 3)) (fun t => (SMap.find t.ops 16383).any (·.started)) = true
    ∧ leaves (.fillNormal 16383 143) (fillUp (drawBytes 2 fmtF32 0 0 0x3F800000 0 3)) (fun t => (SMap.find t.ops 16383).any (·.started)) = true
    ∧ (match (fillUp (drawBytes 3 fmtI32 1 0 1 7 4)).quiet.catRows ⟨1, 143, some 3⟩ (tensorOf 7 (smallLayout.getD 7 [])) (f32Val 0) 1 (fun _ _ => 0) [0] with
       | (0, cols, [], t) => cols == [0] && t == (fillUp (drawBytes 3 fmtI32 1 0 1 7 4)).quiet | _ => false) = true
    ∧ leaves (.fillCategorical 16383 143) (fillUp (drawBytes 3 fmtI32 1 0 1 7 4)) (fun t => (SMap.find t.ops 16383).any fun o => o.started && o.left == 0) = true := by
  decide +kernel

/-- A MOVE of the first element of the I32 tensor 4 to the F32 tensor 7. -/
def moveCue : CueRec := cue cMove 0x20 3 (leBytes 3 4 ++ leBytes 3 7 ++ [0] ++ leBytes 5 0 ++ leBytes 5 0 ++ leBytes 5 1)
def moveUp : State := (withOp (waitingOp moveCue) smallJob memUp).putBytes 0x1000105000 [3]

theorem test_move : moveUp.jobWaits 16383 cMove (waitingOp moveCue) 3 smallJob
    ∧ smallJob.viewOf (waitingOp moveCue) = smallJob ∧ smallJob.moveCheck moveCue (tensorOf 4 (smallLayout.getD 4 [])) (tensorOf 7 (smallLayout.getD 7 [])) 0 = (0, 0xFFFF)
    ∧ (match moveUp.quiet.readVals ⟨3, 63, some 3⟩ (tensorOf 4 (smallLayout.getD 4 [])) 0 1 with
       | (0, vals, false, t) => vals == [.fin false 3] && t == moveUp.quiet | _ => false) = true
    ∧ moveUp.outerServes .hbm 0x1000108000 4
    ∧ leaves (.move 16383 63) moveUp (fun t => t.num 0x1000108000 4 == 0x40400000) = true := by
  unfold State.jobWaits State.opWaits State.outerServes; decide +kernel

/-- A collective descriptor from one tensor to another. -/
def collBytes (kind axes fmt inRef outRef depth peer runLen bytes : Nat) : List Byte :=
  [1, 8, BitVec.ofNat 8 (16 * kind + axes), BitVec.ofNat 8 fmt] ++ leBytes 4 inRef ++ leBytes 4 outRef ++ [12, BitVec.ofNat 8 depth, 0, 0]
    ++ leBytes 3 peer ++ [BitVec.ofNat 8 runLen] ++ leBytes 4 0 ++ leBytes 8 bytes ++ List.replicate 32 0
def collCue : CueRec := cue cCollective 0x60 3 (leBytes 3 0)
/-- A cast of this device alone; tensor 4 holds 5 and 6. -/
def collUp (bs : List Byte) : State :=
  (withOp (waitingOp collCue) { smallJob with coll := [bs], collBase := 0x1000200000 } (setAll [(Reg.castExtent, 0x010101), (Reg.fabCoord, 0)] memUp)).putBytes
    0x1000105000 [5, 0, 0, 0, 6, 0, 0, 0]

theorem test_lone_collectives : let kept := fun t : State => t.bytes 0x1000106000 8 == [5, 0, 0, 0, 6, 0, 0, 0] && t.fld Reg.collectives == 1
      && (SMap.find t.ops 16383).any fun o => o.started && o.left == 0
    let s := collUp (collBytes 1 1 fmtI32 4 5 0 0 0 0)
    (List.range 3).all (fun a => s.castE a == 1 && s.castPos s.coord a == 0) = true
    ∧ s.outerServes .hbm 0x1000105000 8 ∧ s.outerServes .hbm 0x1000106000 8
    ∧ leaves (.collectiveAllreduce 16383 []) s kept = true
    ∧ leaves (.collectiveMax 16383) (collUp (collBytes 3 7 fmtI32 4 5 0 0 0 0)) kept = true
    ∧ leaves (.collectiveDigest 16383) (collUp (collBytes 4 7 0 4 5 0 0 0 8)) kept = true
    ∧ leaves (.collectiveBroadcast 16383) (collUp (collBytes 2 7 0 4 5 0 0 0 8)) kept = true := by
  unfold State.outerServes; decide +kernel

/-- Port 0 is UP and faces (1, 0, 0) in a torus and cast of two by one by one. -/
def castUp (bs : List Byte) : State :=
  setAll [(Reg.torusExtent, 0x020101), (Reg.castExtent, 0x020101), (Reg.fabCoord, 0), (Reg.castState, 2), (Reg.portState, PS.up)] (collUp bs)

theorem test_runs_and_slices : let s := castUp (collBytes 6 0 0 4 0 0 0x010000 0 8)
    s.facing 0x010000 = some 0 ∧ s.isMember 0x010000 = true ∧ s.canSend 0 = true ∧ (∀ p < 6, s.pf p Reg.portNeighbour ≠ 3) ∧ s.castE 1 * s.castE 2 < 2 ∧ s.outerServes .hbm 0x1000105000 8
    ∧ leaves (.collectiveSend 16383) s (fun t => (t.port 0).outbox != [] && (SMap.find t.ops 16383).any (fun o => o.left == 1)
      && (t.port 0).outstanding.any fun q => q.opcode == opFence && q.ops == [16383]) = true
    ∧ (setAll [(Reg.castExtent, 0x010101)] s).isMember 0x010000 = false
    ∧ leaves (.collectiveSend 16383) (setAll [(Reg.castExtent, 0x010101)] s) (fun t => t.ports == [] && t.board.any (fun r => r.args == [tsCast, 0])
      && (SMap.find t.ops 16383).any (fun o => o.status == St.torusError)) = true
    ∧ leaves (.collectiveRecv 16383) (castUp (collBytes 7 0 0 0 5 1 0 0 8)) (fun t => (SMap.find t.ops 16383).any fun o => o.started && o.left == 1) = true
    ∧ leaves (.collectiveXor 16383) (castUp (collBytes 5 1 0 4 0 0 0x010000 2 8)) (fun t => (SMap.find t.ops 16383).any fun o => o.started) = true := by
  unfold State.outerServes; decide +kernel

/-- An update descriptor: kind, learning rate 1, the rest at its least. -/
def updBytes (kind : Nat) : List Byte :=
  [1, 4, BitVec.ofNat 8 kind, 0] ++ leBytes 4 0x3F800000 ++ leBytes 4 0 ++ leBytes 4 0 ++ leBytes 4 0x3F800000 ++ leBytes 4 0
    ++ leBytes 4 0x3F800000 ++ leBytes 4 0
/-- UPDATE of master 6 by gradient 3 with state 7 and 8; master 2, gradient 1. -/
def updCue : CueRec := cue cUpdate 0x80 3 (leBytes 3 0 ++ leBytes 3 6 ++ leBytes 3 3 ++ leBytes 3 7 ++ leBytes 3 0)
def updUp (kind : Nat) : State :=
  ((withOp (waitingOp updCue) { smallJob with upd := [updBytes kind] } (wrAll [(unitOff 0x700F, US.active)] memUp)).putBytes 0x1000107000
    [0, 0, 0, 0x40]).putBytes 0x1000104000 [0, 0, 0x80, 0x3F]

theorem test_updates : let s := updUp 2
    s.jobWaits 16383 cUpdate (waitingOp updCue) 3 { smallJob with upd := [updBytes 2] } ∧ s.unitRaw (UId.updateUnit 15) = US.active
    ∧ (match smallJob.updRefs updCue with
       | .ok r => r.work.isNone && (match s.quiet.readAll ⟨2, 15, some 3⟩ [r.master, r.m, r.v, r.grad] with
         | (0, [ws, ms, vs, gs], 0, t) => t == s.quiet && ws == [.fin false 2] && gs == [.fin false 1] && ms.length + vs.length == 2 | _ => false)
       | _ => false) = true
    ∧ s.outerServes .hbm 0x1000107000 257 ∧ s.outerServes .hbm 0x1000108000 4 ∧ s.outerServes .hbm 0x1000109000 4
    ∧ leaves (.updateSgd 16383 15) s (fun t => t.num 0x1000107000 4 == 0x3F800000 && (SMap.find t.ops 16383).any (·.started)) = true
    ∧ leaves (.updateAdamw 16383 15) (updUp 1) (fun t => t.num 0x1000108000 4 == 0x3F800000 && (SMap.find t.ops 16383).any (·.started)) = true
    ∧ leaves (.updateCyleyAdamw 16383 15) (updUp 3) (fun t => t.num 0x1000107100 1 == 0 && (SMap.find t.ops 16383).any (·.started)) = true := by
  unfold State.jobWaits State.opWaits State.outerServes; decide +kernel

/-- A data source without samples, a loss tensor, and a metric to the far tier. -/
def dataCue : CueRec := cue cData 0 noIndex ([1, 1] ++ leBytes 4 9 ++ leBytes 4 0 ++ [0, 0] ++ leBytes 8 0x1000300000)
def sourceBytes : List Byte := [1, 4, 1, 0] ++ leBytes 4 1024 ++ leBytes 4 1 ++ leBytes 4 3 ++ List.replicate 16 0
def lossCue : CueRec := cue cLoss 0x20 3 (leBytes 3 3)
def metricCue : CueRec := cue cMetric 0x20 3 (leBytes 3 3 ++ [0] ++ leBytes 8 0xFFFFFFFFFFFC ++ leBytes 4 4)

theorem test_join_and_data : leaves (.join 16383) (withOp (waitingOp (cue cJoin 0x20 3 [])) smallJob memUp)
      (fun t => (SMap.find t.ops 16383).any (·.started)) = true
    ∧ (([sourceBytes].map dataOf).find? fun (d : DataDesc) => d.source == dataCue.op 36 1).isSome = true
    ∧ leaves (.data 16383) (withOp (waitingOp dataCue) { smallJob with data := [sourceBytes] } memUp) (fun t => (t.job 3).any (fun j =>
        j.shards.map (fun x => (x.shard, x.samples, x.buf, x.newEpoch, x.op)) == [(9, 0, 0x1000300000, true, 16383)])
      && (SMap.find t.ops 16383).any (fun o => o.left == 1)) = true := by decide +kernel

theorem test_loss_and_metric : let s := fun c => withOp (waitingOp c) smallJob memUp
    (s lossCue).outerServes .hbm 0x1000104000 4 ∧ lossCue.ofAttempt 3 = true ∧ metricCue.inAttempt = true
    ∧ leaves (.loss 16383) (s lossCue) (fun t => (t.job 3).any fun j => j.losses == [(3, [0])]) = true
    ∧ leaves (.loss 16383) ((s lossCue).putBytes 0x1000104000 [0, 0, 0x80, 0x7F]) (fun t => t.jf 3 Reg.jobAbandonCause == 1
      && (t.job 3).any fun j => !j.isOpen) = true
    ∧ (s metricCue).tierOf 0xFFFFFFFFFFFC 4 = some .far
    ∧ leaves (.metric 16383) (s metricCue) (fun t => t.mem == [] && (t.job 3).any fun j => j.outbound == [(0, .metric 0xFFFFFFFFFFFC [0, 0, 0, 0])]) = true := by
  unfold State.outerServes; decide +kernel

/-! ### Jobs and steps -/

/-- A package of an empty job 7 in HBM: header, three sections, a null tensor and its recipe. -/
def packageUp : State :=
  let hdr := [1, 16, 2, 0] ++ leBytes 4 7 ++ [1, 0, 1, 3] ++ leBytes 2 (up.fld Reg.numSmallMax) ++ leBytes 30 0 ++ leBytes 4 5 ++ leBytes 56 0
    ++ leBytes 4 16 ++ leBytes 20 0
  let table := [(1, 0, 256), (2, 1, 256), (3, 1, 512)].flatMap fun (x : Nat × Nat × Nat) => leBytes 4 x.1 ++ leBytes 4 x.2.1 ++ leBytes 8 x.2.2
  let s := setAll [(Reg.castState, 2), (Reg.castExtent, 0x010101), (Reg.fabCoord, 0), (Reg.castCorrAck, 1)]
    (wrAll [(Reg.exportBase, 0x800000000000), (Reg.snapBase, 0x1040000000), (Reg.snapSize, 0x4000000)] memUp)
  (((s.putBytes 0x1000400000 (hdr ++ table)).putBytes 0x1000400100 [1, 8]).putBytes 0x1000400200 [1, 1])

def loadCue : CueRec := { cue cJobLoad 0 noIndex ([3, 0, 0, 0] ++ leBytes 8 0x1000400000 ++ leBytes 8 1024) with job := none, epoch := none }
def loadUp : State := { packageUp with ops := [(16383, waitingOp loadCue)], queues := [(5, aQueue)] }

theorem test_job_load : loadUp.opWaits 16383 cJobLoad (waitingOp loadCue) ∧ loadCue.op 36 1 = 3 ∧ (loadUp.loadRefused 3 loadCue.jobId).1 = 0
    ∧ loadUp.tierOf (loadCue.op 40 8) (loadCue.op 48 8) = some .hbm ∧ loadUp.fld Reg.fovState ≠ 3 ∧ loadUp.fld Reg.castCorrAck = 1
    ∧ loadUp.rd Reg.exportBase ≠ 0
    ∧ (match loadUp.quiet.readPackage (loadCue.op 40 8) (loadCue.op 48 8) with
       | (0, some j, _, _) => j.hdr 4 4 == loadCue.jobId && !(j.hdr 3 1).testBit 0
         && loadUp.loadLocal j (placeItems (2 ^ 24) j.itemList) == 0 && (placeItems (2 ^ 24) j.itemList).length == 5
         && loadUp.castFits (loadUp.members j (placeItems (2 ^ 24) j.itemList) 0 [])
       | _ => false) = true := by
  unfold State.opWaits; decide +kernel

/-- The cue of a director opcode on slot 3, and a job there in this state. -/
def slotCue (opcode flags : Nat) : CueRec := { cue opcode 0 noIndex [3, BitVec.ofNat 8 flags, 0, 0] with job := none, epoch := none }
def slotUp (c : CueRec) (j : Job) (st : Nat) : State := setAll [(Reg.jobState.plus 0x300, st)] (withOp (waitingOp c) j memUp)

theorem test_job_start_stop_unload :
    ((slotUp (slotCue cJobStart 0) noJob 2).slotWaits 16383 cJobStart (waitingOp (slotCue cJobStart 0)) 3 noJob ∧ noJob.startOk = true
      ∧ leaves (.jobStart 16383) (slotUp (slotCue cJobStart 0) noJob 4) (fun t => t.jf 3 Reg.jobState == 3) = true)
    ∧ ((slotUp (slotCue cJobStop 0) noJob 3).slotWaits 16383 cJobStop (waitingOp (slotCue cJobStop 0)) 3 noJob
      ∧ leaves (.jobStop 16383) (slotUp (slotCue cJobStop 0) noJob 3) (fun t => t.jf 3 Reg.jobState == 4) = true
      ∧ leaves (.jobStop 16383) (slotUp (slotCue cJobStop 0) opened 3) (fun t => t.jf 3 Reg.jobState == 3 && (t.job 3).any (·.stopNext)) = true
      ∧ leaves (.jobStop 16383) { slotUp (slotCue cJobStop 0) noJob 3 with ckp := { Ckp.off with stopping := true, job := some 3 } } (fun t =>
        t.jf 3 Reg.jobState == 3 && (t.job 3).any (·.stopNext)) = true)
    ∧ ((slotUp (slotCue cJobUnload 0) noJob 2).slotWaits 16383 cJobUnload (waitingOp (slotCue cJobUnload 0)) 3 noJob
      ∧ leaves (.jobUnload 16383) (slotUp (slotCue cJobUnload 0) noJob 2) (fun t => t.jobs == [] && t.jf 3 Reg.jobState == 0) = true) := by
  unfold State.slotWaits State.opWaits; decide +kernel

/-- A change of tensor 3's entry, of the first word of descriptor 0, and of the matinee slice. -/
def changeCue (opcode : Nat) (operands : List Byte) : CueRec := { cue opcode 0 noIndex operands with epoch := none }
def recipeCue : CueRec := changeCue cRecipe (leBytes 3 3 ++ [0] ++ [1, 1, 0, 0, 0, 0, 0, 0])
def paramCue : CueRec := changeCue cParam (leBytes 3 0 ++ [1] ++ leBytes 4 0x3F800000)
def matineeCue (flags : Nat) : CueRec := changeCue cMatinee [1, BitVec.ofNat 8 flags, 0, 0]
def changed (c : CueRec) : State := withOp (waitingOp c) { smallJob with upd := [updBytes 1] } memUp

theorem test_changes_wait :
    ((changed recipeCue).jobWaits 16383 cRecipe (waitingOp recipeCue) 3 { smallJob with upd := [updBytes 1] }
      ∧ ({ smallJob with upd := [updBytes 1] }.recipeChange (recipeCue.op 36 3) ((recipeCue.raw.drop 40).take 8)).1 = 0
      ∧ leaves (.recipe 16383) (changed recipeCue) (fun t => (t.job 3).any fun j => j.pendRecipe == [(3, [1, 1, 0, 0, 0, 0, 0, 0])]) = true)
    ∧ ((updOf ((updBytes 1).take (4 * paramCue.op 39 1) ++ leBytes 4 (paramCue.op 40 4) ++ (updBytes 1).drop (4 * paramCue.op 39 1 + 4))).inRange = true
      ∧ leaves (.param 16383) (changed paramCue) (fun t => (t.job 3).any fun j => j.pendParam == [(0, 1, 0x3F800000)]) = true)
    ∧ ((matineeCue 0).op 37 1).testBit 0 = false
    ∧ leaves (.matinee 16383) (changed (matineeCue 0)) (fun t => (t.job 3).any fun j => j.pendMatinee == some 1) = true
    ∧ leaves (.cancelAhead 16383) { changed (changeCue cCancelAhead []) with
        waiting := [{ cue cJoin 0x30 3 [] with ahead := true }] } (fun t => t.waiting == [] && (t.job 3).any (·.isOpen)) = true := by
  unfold State.jobWaits State.opWaits; decide +kernel

/-- The protection is the job's of slot 3; the snapshot region starts at 0x10_4000_0000. -/
def protected3 (c : Ckp) (j : Job) : State :=
  { setAll [(Reg.jobState.plus 0x300, 3)] memUp with jobs := [(3, j)], ckp := { c with job := some 3, snapBase := 0x1040000000, snapSize := 0x4000000 } }

/-- A job that may try each step once, in its third step. -/
def tryOnce : Job := { noJob with header := [0, 0, 0, 0, 0, 0, 0, 0, 0, 0, 1] ++ List.replicate 117 0 }
def stepUp (j : Job) : State := setAll [(Reg.jobState.plus 0x300, 3), (Reg.jobStep.plus 0x300, 2)] { memUp with jobs := [(3, j)] }

theorem test_attempts : (stepUp tryOnce).mayOpen 3 tryOnce = true
    ∧ leaves (.attemptOpen 3) (stepUp tryOnce) (fun t => (t.job 3).any fun j => j.isOpen && j.epoch == 512) = true
    ∧ (let j := { tryOnce with isOpen := true, layout := smallLayout, trig := [] }
       (stepUp j).quiet.batchDone 3 j 0 = true ∧ j.boundaries ≤ j.mbLast
       ∧ leaves (.microBatchBoundary 3 0) (stepUp j) (fun t => (t.job 3).any fun x => x.boundaries == 1) = true)
    ∧ tryOnce.maxAttempts ≤ { tryOnce with failed := 1 }.failed
    ∧ leaves (.maxAttemptsReached 3) (stepUp { tryOnce with failed := 1 }) (fun t => t.jf 3 Reg.jobState == 4
      && newest t 0x3002 0xB000 [0, 0xB000]) = true := by decide +kernel

/-- A large job whose tensor 1 falls back to tensor 3 met a trigger in it. -/
def triggered : Job :=
  { tryOnce with
    isOpen := true, large := true, trig := [1], recipe := [[1], [1, 1, 2], [1]]
    layout := smallLayout.set 1 ((smallLayout.getD 1 []).set 40 3) }

theorem test_ladder : (triggered.tensor 1).any (fun x => x.fb != 0) = true ∧ triggered.rung 1 = 0 ∧ lastRung .n4 = 2
    ∧ eFmtOf (triggered.recipeAt 1).fmt = some .n4
    ∧ leaves (.microBatchBoundary 3 0) (stepUp triggered) (fun t => (t.job 3).any fun j => j.rung 1 == 1 && j.trig == []) = true := by decide +kernel

/-- Tensor 1's watch record says that it has been silent long enough. -/
def silent : State := ((setAll [(Reg.numSilenceSteps, 4)] (stepUp { smallJob with header := List.replicate 24 0 ++ leBytes 8 0x1000500000 ++ List.replicate 96 0 })).putBytes
  0x1000500043 [1]).putBytes 0x1000500060 [4]

theorem test_rotation_and_silence : leaves (.rotationKeyLoad (2 ^ 24 - 1)) { up with rng := { up.rng with job := some 3 } }
      (fun t => t.rng.rotEpoch == some (2 ^ 24 - 1)) = true
    ∧ silent.num 0x1000500043 1 = 1 ∧ silent.voided = [] ∧ silent.fld Reg.numSilenceSteps ≤ silent.num 0x1000500060 4
    ∧ leaves (.silenceReached 3 1) silent (fun t => t.num 0x1000500043 1 == 0x21 && t.fld Reg.silenceEvents == 1
      && newest t 0x2007 0xB000 [1, 4]) = true := by decide +kernel

/-- A cast of two along axis 0, at the curtain. -/
def curtainUp (j : Job) : State :=
  setAll [(Reg.torusExtent, 0x010102), (Reg.castExtent, 0x010102), (Reg.fabCoord, 0), (Reg.jobPhase.plus 0x300, 4)] (stepUp { j with isOpen := true })
def peer (nfLoss : Nat) : CurtainPeer := ⟨1, 0, nfLoss, 0, 0, 0⟩

theorem test_curtain : (curtainUp noJob).wholeCast [1] = true
    ∧ (match (curtainUp noJob).quiet.localS (.manager (some 3)) { noJob with isOpen := true } [] (.fin false 0) with
       | (0, own, 0, t) => own == .fin false 0 && t == (curtainUp noJob).quiet | _ => false) = true
    ∧ leaves (.curtain 3 [peer 0]) (curtainUp noJob) (fun t => (t.job 3).any fun j => j.isOpen && j.curtainPassed && j.normS == 0) = true
    ∧ leaves (.curtain 3 [peer 1]) (curtainUp noJob) (fun t => t.jf 3 Reg.jobAbandonCause == Cause.nfLoss && (t.job 3).any (!·.isOpen)) = true
    ∧ leaves (.commit 3) (setAll [(Reg.jobPhase.plus 0x300, 6)] (curtainUp noJob)) (fun t => t.jf 3 Reg.jobStep == 3
      && (t.job 3).any (!·.isOpen)) = true := by decide +kernel

/-- Before a forced interval; at its stop with one item of four bytes; at its seal. -/
def barrierUp (pending : Nat) : State := setAll [(Reg.ckpExporting, pending)] (protected3 { Ckp.off with barrier := true } noJob)
def oneItem (kind : Nat) : Item :=
  { kind, index := 0, src := [(0x1000600000, 4)], bytes := 4, slotOff := 2 ^ 24, base := none, baseValid := false, dirty := [], method := 0
    fullMirror := false, shipped := 0, protOff := 0 }
def stopUp (phase : Nat) (items : List Item) : State :=
  (setAll [(Reg.ckpPhase, phase)] (protected3 { Ckp.off with stopping := true, items } noJob)).putBytes 0x1000600000 [1, 2, 3, 4]

/-- A MATINEE cue with REBUILD set waits; engine 7 is in the slice; tensor 7 is an EVAL weight of master 6, or nothing is. -/
def rebuildUp (layout : List (List Byte)) : State :=
  { setAll [(Reg.protectedStep, 9), (⟨unitOff 0x1007, 3, 0⟩, US.active)]
      (protected3 { Ckp.off with hasP := true, items := [{ oneItem 1 with index := 6 }] } { noJob with matineeSize := 16, layout }) with
    ops := [(16383, { waitingOp (matineeCue 1) with started := true, left := 1 })], mem := [(0x1041000002, 0x40), (0x1041000003, 0x40)] }
def evalLayout : List (List Byte) := smallLayout.set 7 ((layoutEntry fmtF32 0x84 1 0x1000108000 0 4).set 48 6)

theorem test_rebuild_restarts : let ended := fun (t : State) =>
      t.ops == [(16383, { waitingOp (matineeCue 1) with started := true, left := 0, tagOut := some 9 })] && (t.job 3).any (·.mpc == 0)
    let s := rebuildUp evalLayout
    (s.job 3).any (fun j => s.mayRebuild 3 j == some 7) = true ∧ s.outerServes .hbm 0x1000108000 4
    ∧ leaves (.matineeRebuildRestart 3) (rebuildUp smallLayout) ended = true
    ∧ leaves (.matineeRebuildRestart 3) s (fun t => ended t && t.num 0x1000108000 4 == 0x40400000) = true := by
  unfold State.outerServes; decide +kernel

theorem test_interval : (barrierUp 1).drainVote = (1, 0)
    ∧ leaves (.forcedInterval 3 0 0) (barrierUp 1) (fun t => t.ckp.barrier) = true
    ∧ leaves (.forcedInterval 3 0 1) (barrierUp 1) (fun t => t.ckp.stopping && !t.ckp.barrier && t.fld Reg.ckpPhase == 1) = true
    ∧ leaves (.forcedInterval 3 0 0) (barrierUp 0) (fun t => t.ckp.stopping && !t.ckp.barrier) = true
    ∧ (stopUp 1 [oneItem 1]).outerServes .hbm 0x1000600000 4
    ∧ (stopUp 1 [oneItem 1]).outerServes .hbm ((stopUp 1 [oneItem 1]).ckp.slotAt (stopUp 1 [oneItem 1]).sSlot + 2 ^ 24) 4
    ∧ leaves (.intervalStop 3 ⟨0, []⟩) (stopUp 1 [oneItem 1]) (fun t => t.fld Reg.ckpPhase == 2 && t.num 0x1041000000 4 == 0x04030201) = true
    ∧ (stopUp 2 []).fld Reg.ckpPhase = 2 ∧ (stopUp 2 []).ckp.afterStop = [] ∧ (stopUp 2 []).ckp.stopping = true := by
  unfold State.outerServes; decide +kernel

/-- A drain under way; of an item outside every tier; of a member with a stripe that is done; and an export without items. -/
def drainUp (items : List Item) : State := setAll [(Reg.ckpDrainBusy, 1)] (protected3 { Ckp.off with items } noJob)
def stripeUp : State :=
  let s := setAll [(Reg.parityUnit, 2 ^ 21)] (drainUp [])
  { s with colls := [(deviceKey 0xFFFFF9 s.parityPlace.2.1, collNew none [] 0xFFFFF9 0 1 [])] }

theorem test_drains_end : (drainUp []).quiet.badItem 0 = none ∧ (drainUp []).fld Reg.parityUnit = 0 ∧ (drainUp []).ckp.reship = false
    ∧ leaves (.drainComplete 3) (drainUp []) (fun t => t.fld Reg.ckpDrainBusy == 0) = true
    ∧ (SMap.find stripeUp.colls (deviceKey 0xFFFFF9 stripeUp.parityPlace.2.1)).any (·.done) = true ∧ 0 < stripeUp.fld Reg.parityUnit
    ∧ leaves (.drainComplete 3) stripeUp (fun t => t.ckp.staged && t.fld Reg.ckpDrainBusy == 0) = true
    ∧ (let lost := { oneItem 3 with slotOff := 2 ^ 47 - 0x1040000000 - 4 }
       (drainUp [lost]).quiet.badItem 0 = some lost
       ∧ leaves (.drainGivenUp 3) (drainUp [lost]) (fun t => t.fld Reg.ckpDrainFailed == 1 && t.fld Reg.drainFails == 1
         && newest t 0x6002 0xB000 [3, 0]) = true) := by decide +kernel

/-- An export of an empty item list to the far tier, whose book is whole. -/
def exportUp : State :=
  (protected3 { Ckp.off with exporting := some (1, 9), exportBase := 0x800000000000, exportSize := 4096, hasP := true } noJob).putBytes 0x1040000000
    (bookWhole (1 :: List.replicate 95 0) [])

theorem test_export : (match exportUp.quiet.exportBodies exportUp.pSlot with
      | (some (book, bodies), v) => bodies == [] && (v.writeObjects noJob [(0x800000001000, exportBook book [0] 0)]).1
      | _ => false) = true
    ∧ leaves (.exportComplete 3) exportUp (fun t => t.ckp.exporting == none && t.fld Reg.exportStep == 9 && t.fld Reg.exports == 1) = true := by
  decide +kernel

/-- A polynomial shorter than the register keeps it so. -/
theorem crcBit_lt (w poly r : Nat) (b : Bool) (h : poly < 2 ^ w) : crcBit w poly r b < 2 ^ w := by
  have h2 : 2 * r % 2 ^ w < 2 ^ w := Nat.mod_lt _ (Nat.two_pow_pos w)
  simp only [crcBit]
  split
  · exact Nat.xor_lt_two_pow h2 h
  · exact h2

theorem crcMsb_lt (w poly : Nat) (h : poly < 2 ^ w) (bs : List Nat) (init : Nat) (hi : init < 2 ^ w) : crcMsb w poly init bs < 2 ^ w := by
  have inner : ∀ (l : List Nat) (byte r : Nat), r < 2 ^ w → l.foldl (fun r i => crcBit w poly r (byte.testBit (7 - i))) r < 2 ^ w := by
    intro l byte
    induction l with
    | nil => exact fun r hr => hr
    | cons i l ih => exact fun r _ => ih _ (crcBit_lt w poly r _ h)
  unfold crcMsb
  induction bs generalizing init with
  | nil => exact hi
  | cons b bs ih => exact ih _ (inner _ _ _ hi)

theorem leNat_leBytes (k : Nat) : ∀ n, leNat (leBytes k n) = n % 256 ^ k := by
  induction k with
  | zero => intro n; simp [leBytes, leNat, Nat.mod_one]
  | succ k ih =>
    intro n
    have e : leBytes (k + 1) n = BitVec.ofNat 8 n :: leBytes k (n / 256) := by
      simp only [leBytes, List.range_succ_eq_map, List.map_cons, List.map_map, Function.comp_def]
      congr 1
      apply List.map_congr_left
      intro i _
      rw [show 256 = 2 ^ 8 by rfl, ← Nat.shiftRight_eq_div_pow, ← Nat.shiftRight_add, Nat.mul_succ, Nat.add_comm]
    rw [e, leNat, ih, BitVec.toNat_ofNat, show 256 ^ (k + 1) = 256 * 256 ^ k by rw [Nat.pow_succ, Nat.mul_comm], Nat.mod_mul]

/-- What the transmitter makes passes the receiver's check (R338). -/
theorem flitOf_good (seq ack kind vc nak som eom crVc crTotal : Nat) (payload : List Byte) :
    flitGood (flitOf seq ack kind vc nak som eom crVc crTotal payload) = true := by
  generalize hb : leBytes 1 1 ++ leBytes 1 32 ++ leBytes 2 seq ++ leBytes 2 ack
    ++ leBytes 1 (64 * kind + 8 * vc + 4 * nak + 2 * som + eom) ++ leBytes 1 (32 * crVc + crTotal % 32)
    ++ payload.take 240 ++ List.replicate (240 - payload.length) 0 = body
  have hl : body.length = 248 := by
    subst hb
    simp only [List.length_append, leBytes, List.length_map, List.length_range, List.length_take, List.length_replicate]
    omega
  have hf : flitOf seq ack kind vc nak som eom crVc crTotal payload = body ++ leBytes 8 (crcMsb 64 0x42F0E1EBA9EA3693 0 (natBytes body)) := by
    simp only [flitOf, hb]
  have h1 : fieldLE body 0 1 ≤ 1 := by subst hb; simp [fieldLE, leBytes, leNat, List.range_succ_eq_map]
  have hlt := crcMsb_lt 64 0x42F0E1EBA9EA3693 (by decide) (natBytes body) 0 (by decide)
  rw [hf]
  have h2 : fieldLE (body ++ leBytes 8 (crcMsb 64 0x42F0E1EBA9EA3693 0 (natBytes body))) 0 1 = fieldLE body 0 1 := by
    simp only [fieldLE, List.drop_zero]; rw [List.take_append_of_le_length (by omega)]
  have h3 : fieldLE (body ++ leBytes 8 (crcMsb 64 0x42F0E1EBA9EA3693 0 (natBytes body))) 248 8 = crcMsb 64 0x42F0E1EBA9EA3693 0 (natBytes body) := by
    simp only [fieldLE]
    rw [List.drop_append_of_le_length (by omega), List.drop_eq_nil_of_le (by omega), List.nil_append,
      List.take_of_length_le (by simp [leBytes]), leNat_leBytes]
    exact Nat.mod_eq_of_lt (by simpa using hlt)
  simp only [flitGood, h2, h3, List.take_append_of_le_length (Nat.le_of_eq hl.symm), List.take_of_length_le (Nat.le_of_eq hl)]
  simp [hl, leBytes, h1]

/-! ### Engines, temperature and power -/

theorem test_watchdog : engUp.engSt 143 ≠ US.failed ∧ degraded.spareOf 0 = some 8
    ∧ leaves (.engineWatchdog 143) engUp (fun t => t.engSt 143 == US.failed && t.ef 143 Reg.wdogFired == 1) = true := by decide +kernel

/-- Engine 143 in TEST, which it entered as a spare for its self-test; row 255 is its own. -/
def testing (src : Nat) : State :=
  { wrAll [(unitOff 0x108F, US.test + 16 * US.spare + 4096 * src)] (setAll [((Reg.testRow.plus (0x400 * 143)), 255), ((Reg.testCol.plus (0x400 * 143)), 255)] up) with
    cells := [(143 * 2 ^ 17 + 255 * 256 + 255, -3)] }

theorem test_engine_tests : (testing 1).engSt 143 = US.test ∧ (testing 1).cellRow 143 255 = some 255 ∧ bits 15 12 ((testing 1).unitEntry 0x108F) = 1
    ∧ leaves (.testCapture 143) (testing 1) (fun t => t.ef 143 Reg.testA20 == 2 ^ 32 - 3 && t.ef 143 Reg.testValid == 1) = true
    ∧ leaves (.testCapture 143) up (fun t => t.ef 143 Reg.testValid == 0 && newest t 0xB001 0x108F [0x480044 + 0x400 * 143, 1, 4]) = true
    ∧ leaves (.engineSelfTestDone 143 true) (testing 1) (fun t => t.engSt 143 == US.spare) = true
    ∧ leaves (.engineSelfTestDone 143 false) (testing 1) (fun t => t.engSt 143 == US.failed) = true := by decide +kernel

/-- A capture waits on a busy engine, for the handshake of the cell in row 31 and column 0 with the first row of the next pass; that cell
ends its band's sum of the top slices, 4 · 6. -/
def capturing : State :=
  { setAll [(Reg.testRow.plus (0x400 * 143), 31), (Reg.arrayBusy.plus (0x400 * 143), 1)]
      (wrAll [(unitOff 0x108F, US.test + 16 * US.spare)] (with143 (AccSet.start (aTile 0) ((theProd smallJob 32).passes 4)) (productOf smallJob 32))) with
    captures := [143] }

theorem test_captures : capturing.engSt 143 = US.test ∧ capturing.testCell 143 = some (143 * 2 ^ 17 + 31 * 256)
    ∧ leaves (.testCapture 143) { capturing with captures := [] } (fun t => t.captures == [143] && t.ef 143 Reg.testValid == 0) = true
    ∧ leaves (.passStart 143 1 quietMeet) capturing (fun t => t.captures == [] && t.ef 143 Reg.testValid == 1 && t.ef 143 Reg.testA20 == 24) = true := by
  decide +kernel

theorem test_test_access : leaves (.registerWrite (0x480040 + 0x400 * 143) 4 (259 * 65536 + 7)) (testing 1) (fun t => t.ef 143 Reg.testRow == 259 && t.ef 143 Reg.testCol == 7) = true
    ∧ leaves (.registerWrite (0x480040 + 0x400 * 143) 4 5) up (fun t => t.ef 143 Reg.testCol == 0
      && newest t 0xB001 0x108F [0x480040 + 0x400 * 143, 5, 4]) = true
    ∧ leaves (.registerWrite (0x480044 + 0x400 * 143) 4 1) up (fun t => newest t 0xB001 0x108F [0x480044 + 0x400 * 143, 1, 4]) = true := by
  decide +kernel

/-- Stack 7 is up, channel 7 is trained, both at level 1 and cool for ten samples. -/
def warm (hot : Nat) : State :=
  { setAll [(Reg.ddrTrained.plus (0x40 * 7), 1), (Reg.stackLevel.plus (0x40 * 7), hot)] memUp with
    hbmStacks := [(7, { Stack.off with cool := 10 })], channels := [(7, { Channel.off with level := hot, cool := 10 })] }

theorem test_stack_temperature : plausible 125 = true ∧ plausible 126 = false ∧ plausible (-40) = true ∧ plausible (-41) = false
    ∧ leaves (.hbmTempSample 7 (some 125)) (warm 1) (fun t => t.fld (Reg.stackLevel.plus 0x1C0) == 4 && t.fov.dead
      && t.fld Reg.mgtTherm == 1 && t.fld (Reg.stackUp.plus 0x1C0) == 0) = true
    ∧ leaves (.hbmTempSample 7 (some (-40))) (warm 1) (fun t => t.fld (Reg.stackLevel.plus 0x1C0) == 1 && t.fld (Reg.stackTemp.plus 0x1C0) == 0xD8) = true
    ∧ leaves (.hbmTempSample 7 (some 126)) (warm 1) (fun t => t.fld (Reg.stackLevel.plus 0x1C0) == 2 && t.fld Reg.sensorFaults == 1) = true
    ∧ leaves (.thermalLevelFall false 7) (warm 1) (fun t => t.fld (Reg.stackLevel.plus 0x1C0) == 0) = true := by decide +kernel

theorem test_channel_temperature : (warm 1).fld (Reg.ddrTrained.plus 0x1C0) = 1
    ∧ leaves (.dimmTempSample 7 (some 125)) (warm 1) (fun t => (t.channel 7).level == 4 && t.fld Reg.ddrActive == 0) = true
    ∧ leaves (.dimmTempSample 7 (some (-41))) (warm 1) (fun t => (t.channel 7).level == 2 && (t.channel 7).faulty) = true
    ∧ leaves (.thermalLevelFall true 7) (warm 1) (fun t => (t.channel 7).level == 0) = true
    ∧ leaves .slowNoticeSend (warm 2) (fun t => t.fabric.slow && t.fld Reg.memSlow == 1) = true
    ∧ leaves .slowNoticeSend { warm 1 with fabric := { Fabric.off with slow := true } } (fun t => !t.fabric.slow && t.fld Reg.memSlow == 0) = true := by
  decide +kernel

/-- A limit of 1,200 W, and readings up to 115 °C. -/
def limited : State := setAll [(Reg.limitW, 1200), (Reg.tjWarn, 95)] memUp

theorem test_power : limited.controllerUp = true ∧ limited.mgt.faulty = []
    ∧ leaves (.powerControlTick (some 50000) (some 24000)) limited (fun t => t.fld Reg.pIn == 1200 && t.fld Reg.mgtExcursion == 0 && t.mgt.window == [1200]) = true
    ∧ leaves (.powerControlTick (some 50000) (some 24020)) limited (fun t => t.fld Reg.mgtExcursion == 1) = true
    ∧ leaves (.powerControlTick (some 70000) (some 80000)) limited (fun t => t.fld Reg.pIn == 5600 && t.fld Reg.mgtCap % 2 == 1) = true
    ∧ leaves (.telemetryUpdate (some 900) 65535) limited (fun t => t.fld Reg.vCore == 900 && t.fld Reg.beatRate == 65535 && t.fld Reg.pAvg == 0) = true
    ∧ leaves (.vinOutOfRange 39999) limited (fun t => t.mgt.supply == 550 && newest t 0x8007 0x9000 [39999]) = true
    ∧ leaves (.vinOutOfRange 60001) limited (fun t => t.mgt.vinLow) = true := by decide +kernel

theorem test_junction : let readings : List (Option Int) := List.replicate 39 (some (-40)) ++ [some 115]
    readings.length = 40 ∧ (readings.all fun r => r.any fun x => decide (-40 ≤ x) && decide (x ≤ 150)) = true
    ∧ leaves (.junctionTempSample readings) limited (fun t => t.mgt.tj == 115 && t.mgt.trip == 1 && t.fld Reg.mgtTherm == 1) = true
    ∧ leaves .thermalTrip { limited with mgt := { limited.mgt with trip := 3 }, mem := [(0x1000000000, 1)] } (fun t => t.mgt.railsOff && t.fov.dead && t.byte 0x1000000000 == 0) = true
    ∧ leaves .mcWatchdog (setAll [(Reg.eid, 9)] limited) (fun t => t.fld Reg.eid == 0 && t.fld Reg.mcRestarts == 1 && t.board.length == 1) = true := by decide +kernel

/-! ### The torus link -/

/-- Port 5 in a state, with this traffic state; the cast is two devices along the axis of ports 4 and 5. -/
def portUp (st : Nat) (x : Port) : State :=
  { setAll [(Reg.torusExtent, 0x020101), (Reg.castExtent, 0x020101), (Reg.fabCoord, 0), (Reg.portState.plus 0x50000, st)] memUp with ports := [(5, x)] }

/-- A control word with its CRC. -/
def withCrc (w : Nat) : Nat := w + 2 ^ 56 * crcMsb 8 0x07 0 (leNats 7 w)

theorem test_training : wordGood (withCrc 0xAA0000000F) = true ∧ wordGood (withCrc 0xAA0000000F + 1) = false
    ∧ leaves (.trainingFrameReceived 5 15 0 false (withCrc 0xF) 0) (portUp PS.quarantine Port.off) (fun t => t.pst 5 == PS.retrain) = true
    ∧ leaves (.trainingFrameReceived 5 15 0x8000 true (withCrc 0xAA0000000F) 0) (portUp PS.detect Port.off) (fun t => t.pst 5 == PS.train
      && (t.port 5).lanes.getD 15 (0, 0) == (16, 1) && t.pf 5 Reg.failedRemote == 0xAA00) = true
    ∧ leaves (.trainingFrameReceived 5 0 0 false (withCrc 0xA0) 0) (portUp PS.retrain { Port.off with train := 5, lastOut := true }) (fun t => (t.port 5).train == 6) = true
    ∧ (let s := portUp PS.train { Port.off with train := 5, readyOut := 4, readyIn := List.replicate 16 4 }
       (maskLanes 0x8001).headD 0 = 0 ∧ s.lanesInUse 5 = List.range 16
       ∧ leaves (.trainingFrameReceived 5 0 0x8001 false (withCrc 0x20) 0) s (fun t => (t.port 5).lastOut && t.out.length == 1) = true)
    ∧ leaves (.trainingFrameReceived 5 0 0 false 1 0) (portUp PS.detect Port.off) (fun t => t.pst 5 == PS.detect) = true := by decide +kernel

theorem test_training_timeouts : leaves (.trainingTimeout 5) (portUp PS.train { Port.off with failed := 1 }) (fun t => t.pst 5 == PS.train && (t.port 5).failed == 2) = true
    ∧ leaves (.trainingTimeout 5) (portUp PS.train { Port.off with failed := 2 }) (fun t => t.pst 5 == PS.down && newest t 0x5003 0x6005 [1, 0]) = true
    ∧ leaves (.retrainTimeout 5) (portUp PS.retrain Port.off) (fun t => t.pst 5 == PS.train) = true
    ∧ leaves (.initTimeout 5) (portUp PS.init Port.off) (fun t => t.pst 5 == PS.retrain) = true := by decide +kernel

theorem test_fec : leaves (.fecFrameReceived 5 []) (portUp PS.train { Port.off with train := 6, fecGood := 2 }) (fun t => (t.port 5).fecGood == 3 && t.pst 5 == PS.train) = true
    ∧ leaves (.fecFrameReceived 5 []) (portUp PS.train { Port.off with train := 6, fecGood := 3 }) (fun t => t.pst 5 == PS.init) = true
    ∧ leaves (.fecFrameReceived 5 ((List.range 16).map fun i => (4 * i, 3))) (portUp PS.init Port.off) (fun t => t.pf 5 Reg.uncorrCw == 1 && t.pst 5 == PS.init) = true
    ∧ leaves (.errorRateWindow 5) (portUp PS.up { Port.off with winCorr := [2240, 2241] }) (fun t => t.pst 5 == PS.retrain && t.pf 5 Reg.failedLocal == 2) = true
    ∧ leaves (.errorRateWindow 5) (portUp PS.up { Port.off with winUncorr := 8 }) (fun t => t.pst 5 == PS.retrain) = true
    ∧ leaves (.errorRateWindow 5) (portUp PS.up { Port.off with winUncorr := 7 }) (fun t => t.pst 5 == PS.up && (t.port 5).winUncorr == 0) = true
    ∧ leaves (.laneSignalLoss 5 15) (portUp PS.up Port.off) (fun t => t.pst 5 == PS.retrain && t.pf 5 Reg.failedLocal == 0x8000) = true := by decide +kernel

def off5 (st : Nat) : State := wrAll [(unitOff 0x6005, US.idle)] (portUp st Port.off)

theorem test_port_registers : (portUp PS.down Port.off).served = true ∧ (off5 PS.down).unitRaw 0x6005 = US.idle
    ∧ leaves (.portEnable 5) (off5 PS.down) (fun t => t.pst 5 == PS.detect && t.pf 5 Reg.portEnable == 1) = true
    ∧ leaves (.portDisable 5) (portUp PS.up Port.off) (fun t => t.pst 5 == PS.off && t.out.countP (fun o => match o with
      | .flit 5 f => flitKind f == 3 && fieldLE f 10 1 == 2 && fieldLE f 11 1 == 5 | _ => false) == 16) = true
    ∧ leaves (.portFullTrain 5) (portUp PS.detect Port.off) (fun t => t.pst 5 == PS.train) = true
    ∧ leaves (.portFullTrain 5) (portUp PS.retrain Port.off) (fun t => t.pst 5 == PS.train) = true
    ∧ leaves (.portRetrain 5) (portUp PS.hello Port.off) (fun t => t.pst 5 == PS.retrain && t.pf 5 Reg.retrains == 1) = true
    ∧ leaves (.portRetrain 5) (portUp PS.down Port.off) (fun t => t.pst 5 == PS.down) = true := by decide +kernel

/-- Port 5 in UP with its neighbour up. -/
def linkUp (x : Port) : State := setAll [(Reg.portNeighbour.plus 0x50000, 1)] (portUp PS.up x)

theorem test_flits_sent : (linkUp Port.off).pickVc 5 = none ∧ leaves (.flitTransmit 5) (linkUp Port.off) (fun t => match t.out with
      | [.flit 5 f] => f.length == 256 && flitKind f == 0 | _ => false) = true
    ∧ leaves (.flitTransmit 5) (portUp PS.init Port.off) (fun t => match t.out with | [.flit 5 f] => flitKind f == 0 | _ => false) = true
    ∧ leaves (.flitTransmit 5) (portUp PS.train { Port.off with lastOut := true }) (fun t => match t.out with | [.flit 5 f] => flitKind f == 0 | _ => false) = true
    ∧ leaves (.flitTransmit 5) (portUp PS.train Port.off) (fun t => t.out == []) = true
    ∧ (let s := linkUp { Port.off with txSeq := 65535, credits := [0, 0, 0, 0, 2, 0], outbox := [(4, true, true, some 0, [7])] }
       s.pickVc 5 = some (4, 0, 0) ∧ leaves (.flitTransmit 5) s (fun t => (t.port 5).txSeq == 0 && (t.port 5).outbox == [] && (t.port 0).freed.getD 4 0 == 1 && (match t.out with
         | [.flit 5 f] => flitKind f == 1 && fieldLE f 2 2 == 65535 && fieldLE f 8 1 == 7 | _ => false)) = true)
    ∧ leaves (.initFlitSend 5) (portUp PS.init Port.off) (fun t => t.pst 5 == PS.init && match t.out with | [.flit 5 f] => flitKind f == 2 | _ => false) = true
    ∧ leaves (.initFlitSend 5) (portUp PS.init { Port.off with initRx := true, initSeenRx := true }) (fun t => t.pst 5 == PS.hello) = true := by decide +kernel

/-- A flit of this kind, SEQ 65535, ACK 3. -/
def aFlit (kind : Nat) (payload : List Byte) : List Byte := flitOf 65535 3 kind 0 0 0 0 0 0 payload
def taking : State := linkUp { Port.off with rxSeq := 65535, replay := [(3, []), (4, [])] }
def initFlit : List Byte := aFlit 2 ([1, 4, 1, 0, 0, 0, 0, 16] ++ List.replicate 12 1)

theorem test_good_flits : taking.goodFlit 5 1 (aFlit 1 []) ∧ taking.goodFlit 5 0 (aFlit 0 []) ∧ taking.goodFlit 5 3 (aFlit 3 [1, 2, 1, 0, 0x34, 0x12])
    ∧ (portUp PS.init { Port.off with initSeenTx := true }).goodFlit 5 2 initFlit := by
  have g := flitOf_good
  refine ⟨⟨?_, ?_, ?_, g .., ?_⟩, ⟨?_, ?_, ?_, g .., ?_⟩, ⟨?_, ?_, ?_, g .., ?_⟩, ⟨?_, ?_, ?_, g .., ?_⟩⟩ <;> decide +kernel

theorem test_flit_fields : fieldLE (aFlit 1 []) 2 2 = (taking.port 5).rxSeq ∧ fieldLE (aFlit 3 [1, 2, 1, 0, 0x34, 0x12]) 8 1 ≤ 1
    ∧ fieldLE (aFlit 3 [1, 2, 1, 0, 0x34, 0x12]) 10 1 = 1 ∧ fieldLE initFlit 8 1 ≤ 1 ∧ bitAt 0 (fieldLE initFlit 10 1) = true := by decide +kernel

theorem test_bad_flit_and_replay : flitGood [] = false ∧ leaves (.dataFlitReceived 5 [] false) taking (fun t => t.pf 5 Reg.crcFails == 1 && (t.port 5).nakSend) = true
    ∧ leaves (.linkFlitReceived 5 [] true) taking (fun t => (t.port 5).rxSeq == 65535 && (t.port 5).nakSend) = true
    ∧ leaves (.replayTimeout 5) (linkUp { Port.off with replay := [(9, [])], replays := 6 }) (fun t => (t.port 5).resend == some 9 && t.pst 5 == PS.up) = true
    ∧ leaves (.replayTimeout 5) (linkUp { Port.off with replay := [(9, [])], replays := 7 }) (fun t => t.pst 5 == PS.retrain) = true := by decide +kernel

/-- A message with this header and body. -/
def msg (vc : Nat) (t : Txn) (body : List Byte) : Msg := { vc, bytes := { t with bytes := body.length }.head ++ body, flits := 1, apart := false }

/-- The HELLO of the expected neighbour of port 5: version, role, port, and the cast it names. -/
def hello (minor major role castId : Nat) : Msg :=
  msg 4 (up.txn opHello noCoord) ([1, 8, BitVec.ofNat 8 minor, 0, 2, BitVec.ofNat 8 major, 4, BitVec.ofNat 8 role] ++ leBytes 3 1 ++ [0] ++ leBytes 4 castId ++ leBytes 48 0)
def helloUp (acked : Bool) (m : Msg) : State :=
  setAll [(Reg.torusExtent, 0x010102), (Reg.castExtent, 0x010102), (Reg.castState, 1), (Reg.castId, 77)]
    (portUp PS.hello { Port.off with helloAcked := acked, inbox := [m] })

theorem test_hello : (helloUp true (hello 1 1 0 77)).waitingMsg 5 4 opHello false = some (hello 1 1 0 77) ∧ 64 ≤ (hello 1 1 0 77).body.length
    ∧ leaves (.helloReceived 5) (helloUp false (hello 1 1 0 77)) (fun t => t.pst 5 == PS.hello && t.pf 5 Reg.peerCast == 77 && t.pf 5 Reg.peerCoord == 1) = true
    ∧ leaves (.helloReceived 5) (helloUp true (hello 2 1 0 77)) (fun t => t.pst 5 == PS.quarantine && t.pf 5 Reg.portQuarCause == 1) = true
    ∧ (helloUp true (hello 1 1 0 77)).expected 5 = some 1 ∧ (helloUp true (hello 1 1 0 77)).ownCast = 77 ∧ portOpposite 5 = 4
    ∧ leaves (.helloReceived 5) (helloUp true (hello 1 1 0 77)) (fun t => t.pst 5 == PS.up) = true := by decide +kernel

theorem test_hello_sends : let queued := fun t : State => (t.port 5).outbox.length == 1
    leaves (.helloSend 5) (portUp PS.hello Port.off) queued = true ∧ leaves (.helloExchangeTimeout 5) (portUp PS.hello Port.off) queued = true
    ∧ leaves (.quarantineHello 5) (portUp PS.quarantine Port.off) queued = true
    ∧ leaves (.pulseSend 5) (portUp PS.standby { Port.off with pulseTx := 65535 }) (fun t => queued t && (t.port 5).pulseTx == 0) = true := by decide +kernel

theorem test_pulses : let m := msg 4 (up.txn opPulse noCoord) ([1, 4, 1, 0, 5, 1] ++ List.replicate 26 0)
    let s := setAll [(Reg.portNeighbour.plus 0x50000, 2)] (linkUp { Port.off with inbox := [m], missed := 4 })
    s.waitingMsg 5 4 opPulse false = some m ∧ 32 ≤ m.body.length
    ∧ leaves (.pulseReceived 5) s (fun t => (t.port 5).pulseRx == some 261 && (t.port 5).missed == 0 && t.pf 5 Reg.portNeighbour == 1) = true
    ∧ leaves (.missedPulse 5) (linkUp { Port.off with missed := 2 }) (fun t => t.pf 5 Reg.portNeighbour == 1 && (t.port 5).missed == 3) = true
    ∧ leaves (.missedPulse 5) (linkUp { Port.off with missed := 3 }) (fun t => t.pf 5 Reg.portNeighbour == 2) = true
    ∧ leaves (.neighbourSuspect 5) (linkUp { Port.off with missed := 4 }) (fun t => t.pf 5 Reg.portNeighbour == 2) = true := by decide +kernel

/-! ### Transactions -/

/-- Port 5 is UP with one message; HBM from 0x10_0070_0000 is an open window for all four kinds, of exponent −2. -/
def window : Nat × Nat × Nat × Int := (0x1000700000, 2 ^ 21, 15, -2)
def inUp (m : Msg) (x : Port) : State :=
  { linkUp { x with inbox := [m] } with fabric := { Fabric.off with windows := [window] } }
def txnTo (opcode a : Nat) : Txn := { up.txn opcode noCoord with arg := a, tag := 9, epoch := matineeEpoch }

theorem test_put : let m := msg 0 (txnTo opPut 0x10008FFFFE) [7, 8]
    (inUp m Port.off).takes 5 0 opPut m ∧ (inUp m Port.off).windowOpen 0 (txnOf m.bytes) 2 0 = true ∧ (inUp m Port.off).outerServes .hbm 0x10008FFFFE 2
    ∧ leaves (.txnPut 5 0) (inUp m Port.off) (fun t => t.byte 0x10008FFFFF == 8 && (t.port 5).inbox == []) = true
    ∧ (let m := msg 0 (txnTo opPut 0x10008FFFFF) [7, 8]
       (inUp m Port.off).windowOpen 0 (txnOf m.bytes) 2 0 = false
       ∧ leaves (.txnPut 5 0) (inUp m Port.off) (fun t => t.mem == [] && t.pf 5 Reg.txnRejected == 1) = true) := by
  unfold State.takes State.outerServes; decide +kernel

theorem test_get : let m : Msg := { vc := 5, bytes := { txnTo opGet 0x1000700000 with bytes := 2 }.head, flits := 1, apart := false }
    (inUp m Port.off).takes 5 5 opGet m ∧ (inUp m Port.off).windowOpen 5 (txnOf m.bytes) 2 1 = true ∧ (inUp m Port.off).outerServes .hbm 0x1000700000 2
    ∧ leaves (.txnGet 5 5) ((inUp m Port.off).putBytes 0x1000700000 [3, 4]) (fun t => match (t.port 5).outbox with
      | [(5, true, true, none, bs)] => bs.drop 48 == [3, 4] && (txnOf bs).resp && (txnOf bs).tag == 9 | _ => false) = true := by
  unfold State.takes State.outerServes; decide +kernel

theorem test_get_answer : let m := msg 5 { txnTo opGet 0 with resp := true } [3, 4]
    let s := { inUp m { Port.off with outstanding := [⟨9, opGet, [16383], 0x1000600000, 2, 0⟩] } with ops := [(16383, { waitingOp (cue cJoin 0 0 []) with left := 1 })] }
    (s.port 5).front 5 = some m ∧ (txnOf m.bytes).resp = true ∧ s.mine m = true
    ∧ s.requestOf 5 opGet 9 = some (5, ⟨9, opGet, [16383], 0x1000600000, 2, 0⟩) ∧ s.outerServes .hbm 0x1000600000 2
    ∧ leaves (.txnGetResponse 5 5) s (fun t => t.byte 0x1000600001 == 4 && (SMap.find t.ops 16383).any (·.left == 0)) = true := by
  unfold State.outerServes; decide +kernel

/-- An I32 element saturates; an A64 element of exponent −1 is re-expressed at the target's 0 and merges its header; one that saturates
counts an error (R159, R355). -/
theorem test_remote_adds : let m := msg 1 { txnTo opAtomic 0x1000700004 with exp := 65534 } [0xFF, 0xFF, 0xFF, 0x7F]
    let n := fun (x : List Byte) => msg 1 { txnTo opAtomic 0x1000700000 with exp := 65535, a64 := true, aflags := 4, retries := 2, lost := 3 } x
    let six := n [6, 0, 0, 0, 0, 0, 0, 0]
    (inUp m Port.off).takes 5 1 opAtomic m ∧ (inUp m Port.off).windowOpen 1 (txnOf m.bytes) 4 2 = true ∧ (txnOf m.bytes).a64 = false
    ∧ (inUp m Port.off).windowExp 0x1000700004 4 = some (sext 16 65534) ∧ m.body.length = 4 ∧ (inUp m Port.off).outerServes .hbm 0x1000700004 4
    ∧ leaves (.txnAtomicAddI32 5) ((inUp m Port.off).putBytes 0x1000700004 [1]) (fun t => t.num 0x1000700004 4 == 2 ^ 31 - 1 && (t.port 5).errors == 1
      && (t.port 5).inbox == []) = true
    ∧ (inUp six Port.off).takes 5 1 opAtomic six ∧ (inUp six Port.off).windowOpen 1 (txnOf six.bytes) 72 3 = true ∧ (txnOf six.bytes).a64 = true
    ∧ formStatus ((inUp six Port.off).bytes 0x1000700000 32) = 0 ∧ (inUp six Port.off).outerServes .hbm 0x1000700000 32
    ∧ (inUp six Port.off).outerServes .hbm 0x1000700040 8
    ∧ leaves (.txnAtomicAddA64 5) ((inUp six Port.off).putBytes 0x1000700040 [4]) (fun t => t.num 0x1000700040 8 == 7 && t.num 0x100070000C 4 == 3
      && (tileHdrOf (t.bytes 0x1000700000 32)).bound && (t.port 5).errors == 0 && (t.port 5).inbox == []) = true
    ∧ leaves (.txnAtomicAddA64 5) ((inUp (n (List.replicate 7 0 ++ [0x7F])) Port.off).putBytes 0x1000700040 (List.replicate 7 255 ++ [0x7F])) (fun t =>
      t.num 0x1000700040 8 == 2 ^ 63 - 1 && (tileHdrOf (t.bytes 0x1000700000 32)).ovf && (t.port 5).errors == 1) = true := by
  unfold State.takes State.outerServes; decide +kernel

/-- A RECV has issued for channel 0 and its slice comes; no RECV has issued for channel 1. -/
def sendTo (channel : Nat) : Msg :=
  msg 5 { txnTo opSend channel with epoch := 0 } ([1, 2, 0, 0] ++ leBytes 5 0 ++ List.replicate 7 0 ++ [1, 2, 3, 4, 5, 6, 7, 8])
def recvUp (m : Msg) : State :=
  let s := castUp (collBytes 7 0 0 0 5 1 0 0 8)
  { s with ops := [(16383, { waitingOp collCue with started := true, left := 1 })], ports := [(5, { Port.off with inbox := [m] })] }

theorem test_send : let m := sendTo 0
    (recvUp m).takes 5 5 opSend m ∧ (recvUp m).epochSlot = some 3 ∧ (collOf (collBytes 7 0 0 0 5 1 0 0 8)).kind = 7
    ∧ formStatus m.body = 0 ∧ fieldLE m.body 3 1 = 0 ∧ (m.body.drop 9).take 7 = List.replicate 7 0 ∧ (m.body.drop 16).length = 8
    ∧ ((recvUp m).recvOp 0 0 (recvUp m).openEpoch).map (·.1) = some 16383 ∧ (recvUp m).outerServes .hbm 0x1000106000 8
    ∧ leaves (.txnSend 5 5) (recvUp m) (fun t => t.byte 0x1000106007 == 8 && (SMap.find t.ops 16383).any (fun o => o.left == 0 && o.rows == 8)
      && (t.port 5).inbox == []) = true
    ∧ (recvUp (sendTo 1)).takes 5 5 opSend (sendTo 1)
    ∧ leaves (.txnSend 5 5) (recvUp (sendTo 1)) (fun t => t.pf 5 Reg.txnRejected == 1 && (t.port 5).inbox == []) = true := by
  unfold State.takes State.outerServes; decide +kernel

/-- A MAX of tensors 4 and 5, of the device's own operation, awaits two positions from port 5, each a chunk of its own. -/
def chunkMsg (epoch index chunk : Nat) : Msg := msg 1 { txnTo opStep (index + chunk * 2 ^ 40) with epoch } [9, 0, 0, 0]
def chunkUp (got : List Nat) (m : Msg) : State :=
  let desc := (collBytes 3 7 fmtI32 4 5 0 0 0 0).set 12 2
  let s := castUp desc
  { s with ports := [(5, { Port.off with inbox := [m] })], ops := [(16383, { waitingOp collCue with started := true, left := 1 })]
           colls := [(16383, { collNew (some 16383) desc 0 0 4 [5, 6] with tracks := [[⟨false, 5, 0, [0, 1], 2⟩]], got, sent := [0] })] }

theorem test_chunks : let s := chunkUp [] (chunkMsg 0 0 0)
    (s.port 5).front 1 = some (chunkMsg 0 0 0) ∧ s.epochRule 0 = 0 ∧ s.knownIndex 0 = true
    ∧ s.colls.map (fun e => (e.2.tracks.map fun t => t.map e.2.chunks, e.2.op)) = [([[2]], some 16383)] ∧ s.outerServes .hbm 0x1000106000 8
    ∧ leaves (.txnCollectiveStep 5) s (fun t => t.colls.map (fun e => (e.2.data, e.2.got)) == [([9, 6], [0])] && (t.port 5).inbox == []) = true
    ∧ leaves (.txnCollectiveStep 5) (chunkUp [0] (chunkMsg 0 0 1)) (fun t => t.colls == [] && t.bytes 0x1000106000 8 == [5, 0, 0, 0, 9, 0, 0, 0]
      && (SMap.find t.ops 16383).any (·.left == 1) && (t.port 0).outbox.length == 1 && t.fld Reg.collectives == 1) = true
    ∧ leaves (.txnCollectiveStep 5) (chunkUp [] (chunkMsg 0 0xFFFFF8 0)) (fun t => t.colls == s.colls && (t.port 5).inbox == []) = true
    ∧ (chunkUp [] (chunkMsg 0 1 0)).knownIndex 1 = false
    ∧ leaves (.txnCollectiveStep 5) (chunkUp [] (chunkMsg 0 1 0)) (fun t => t.pf 5 Reg.txnRejected == 1 && (t.port 5).inbox == []) = true
    ∧ s.epochRule 99 = 2
    ∧ leaves (.txnCollectiveStep 5) (chunkUp [] (chunkMsg 99 0 0)) (fun t => t.pf 5 Reg.stale == 1 && (t.port 5).inbox == []) = true := by
  unfold State.outerServes; decide +kernel

theorem test_fences : let m := msg 3 { up.txn opFence noCoord with tag := 9 } []
    let r := msg 3 { up.txn opFence noCoord with resp := true, tag := 9 } ([1, 2, 7, 0, 9, 0, 0, 0] ++ leBytes 4 1 ++ leBytes 4 0)
    let o : Outstanding := ⟨9, opFence, [16383], 0, 0, 0⟩
    let s := fun x => { inUp r { Port.off with outstanding := [x] } with ops := [(16383, { waitingOp (cue cJoin 0 0 []) with left := 1 })] }
    leaves (.txnFence 5) (inUp m { Port.off with errors := 3 }) (fun t => (t.port 5).errors == 0 && (t.port 5).outbox.length == 1 && (t.port 5).inbox == []) = true
    ∧ ((s o).port 5).front 3 = some r ∧ (txnOf r.bytes).resp = true
    ∧ leaves (.txnFenceResponse 5) (s o) (fun t => (SMap.find t.ops 16383).any fun o => o.left == 0 && o.status == St.torusError) = true
    ∧ (let v := msg 3 { up.txn opFence noCoord with resp := true, tag := 9 } ([2, 2] ++ List.replicate 14 0)
       formStatus v.body ≠ 0 ∧ leaves (.txnFenceResponse 5) (inUp v { Port.off with outstanding := [o] }) (fun t => (t.port 5).outstanding == [o]
         && t.pf 5 Reg.txnRejected == 1) = true)
    ∧ leaves (.txnTimeout 5 9) (s o) (fun t => (t.port 5).outstanding == [] && (SMap.find t.ops 16383).any (·.status == St.timeout)
      && t.pf 5 Reg.portNeighbour == 2) = true := by decide +kernel

/-- In a line of three along the first axis, port 0 leads on to (2, 0, 0). -/
def lineUp (m : Msg) : State :=
  setAll [(Reg.torusExtent, 0x040101), (Reg.castExtent, 0x030101), (Reg.fabCoord, 0x010000), (Reg.castState, 2), (Reg.portState, PS.up), (Reg.portNeighbour, 1)] (inUp m Port.off)

theorem test_forward : let m := msg 5 { txnTo opPut 0x1000700000 with dst := 0x020000 } [7]
    ((lineUp m).port 5).front 5 = some m ∧ (lineUp m).forwards 5 0x020000 = true ∧ (lineUp m).hopTo 0x020000 = some 0
    ∧ leaves (.txnForward 5 5) (lineUp m) (fun t => (t.port 5).inbox == [] && (t.port 5).fwd == [(0, none)] && (t.port 0).outbox.map (·.2.2.2.1) == [some 5] && (t.port 5).freed == List.replicate 6 0
      && t.pf 0 Reg.forwarded == 1) = true := by decide +kernel

/-! ### Notices and the cast -/

/-- Device (1, 0, 0) in that line with a notice from (0, 0, 0) on port 5 about (2, 0, 0) or itself. -/
def noticeMsg (kind flood cause subject epoch value : Nat) : Msg :=
  msg 3 (up.txn opNotice noCoord) (noticeBody kind flood 5 cause 0 subject epoch value)
def noticeUp (m : Msg) : State := setAll [(Reg.castState, 0)] (lineUp m)

theorem test_notices_come : let m := fun k => noticeMsg k 0 3 0x020000 0 0xFFFFFFFF
    ([nkSlow, nkClear, nkCancel, nkSelfFailed, nkQuery, nkReport, nkFailed].all fun k =>
      (noticeUp (m k)).noticeIn 5 k == some (m k, (m k).body) && bitAt 0 (fieldLE (m k).body 3 1) == false) = true
    ∧ leaves (.noticeSlow 5) (noticeUp (m nkSlow)) (fun t => t.pf 5 Reg.portSlowIn == 1) = true
    ∧ leaves (.noticeClear 5) (setAll [(Reg.portSlowIn.plus 0x50000, 1)] (noticeUp (m nkClear))) (fun t => t.pf 5 Reg.portSlowIn == 0) = true
    ∧ leaves (.slowStretchExpiry 5) (setAll [(Reg.portSlowIn.plus 0x50000, 1)] (noticeUp (m nkClear))) (fun t => t.pf 5 Reg.portSlowIn == 0) = true
    ∧ leaves (.noticeCancel 5) { noticeUp (m nkCancel) with jobs := [(3, opened)] } (fun t => t.jf 3 Reg.jobAbandonCause == 3 && (t.job 3).any (!·.isOpen)) = true
    ∧ leaves (.noticeCancel 5) { setAll [(Reg.jobState.plus 0x300, 3)] (noticeUp (m nkCancel)) with jobs := [(3, noJob)] } (fun t => t.jf 3 Reg.jobAbandonCause == 3
      && (t.job 3).any (!·.isOpen)) = true := by
  decide +kernel

theorem test_failures_noticed : let m := fun k c => noticeMsg k 0 3 c 0 0
    (noticeUp (m nkSelfFailed 0)).queryOn 0 = none ∧ (noticeUp (m nkSelfFailed 0)).expected 1 = some 0
    ∧ leaves (.noticeSelfFailed 5) (noticeUp (m nkSelfFailed 0)) (fun t => t.pf 1 Reg.portNeighbour == 3) = true
    ∧ leaves (.noticeFailed 5) (noticeUp (m nkFailed 0x020000)) (fun t => t.pf 0 Reg.portNeighbour == 3) = true
    ∧ leaves (.noticeFailed 5) { noticeUp (m nkFailed 0x010000) with jobs := [(3, opened)] } (fun t => t.fov.dead && t.fld Reg.fovState == 6
      && t.fld Reg.mgtFault == 1 && (t.job 3).any (!·.isOpen) && (List.range 6).all fun q => t.pst q == PS.off || t.pst q == PS.down) = true
    ∧ leaves (.noticeQuery 5) (noticeUp (m nkQuery 0x020000)) (fun t => t.fabric.toReport == [0x020000]) = true := by decide +kernel

theorem test_reports : let asked := fun s : State => { s with fabric := { s.fabric with queries := [⟨0, 0x020000, false⟩] } }
    let s := fun v => asked (noticeUp (noticeMsg nkReport 0 0 0x020000 0 v))
    (s 1).queryOn 0x020000 = some ⟨0, 0x020000, false⟩
    ∧ leaves (.noticeReport 5) (s 0xFFFFFFFF) (fun t => t.fld Reg.failedDeclared == 1) = true
    ∧ leaves (.noticeReport 5) (s 1) (fun t => t.fld Reg.linkFaults == 1 && t.fabric.faulted == [0] && t.pst 0 == PS.train) = true
    ∧ leaves (.confirmTimeout 0) (s 1) (fun t => t.fld Reg.failedDeclared == 1) = true
    ∧ leaves (.confirmTimeout 0) { s 1 with fabric := { (s 1).fabric with queries := [⟨0, 0x020000, true⟩] } } (fun t => t.fabric.queries == []) = true := by
  decide +kernel

theorem test_cast_forms : let s := setAll [(Reg.torusExtent, 0x010101), (Reg.castExtent, 0x010101), (Reg.fabCoord, 0), (Reg.castId, 77)] memUp
    s.served = true ∧ s.allIdle = true ∧ s.castFault = none
    ∧ leaves .castForm s (fun t => t.fld Reg.castForm == 1 && t.fld Reg.castState == 2) = true
    ∧ leaves .castForm (setAll [(Reg.castId, 0)] s) (fun t => t.fld Reg.castState == 0 && newest t 0x5008 0xB000 [0]) = true
    ∧ leaves .castDissolve (setAll [(Reg.castForm, 1), (Reg.castState, 2)] s) (fun t => t.fld Reg.castForm == 0 && t.fld Reg.castState == 0) = true
    ∧ leaves .castForm (setAll [(Reg.jobState.plus 0x300, 2)] s) (fun t => t.fld Reg.castForm == 0 && newest t 0xB001 0 [0x16001C, 1, 3]) = true
    ∧ leaves .castDissolve (setAll [(Reg.jobState.plus 0x300, 2)] s) (fun t => newest t 0xB001 0 [0x16001C, 0, 3]) = true := by decide +kernel

/-! ### Failover and votes -/

/-- An understudy in its place in a formed cast of two along the first axis, its mirror one place on. -/
def understudyUp (prot : Nat) : State := wrAll [(Reg.ckpProt, prot)] (setAll [(Reg.fovState, 3)] (castUp (collBytes 1 1 fmtI32 4 5 0 0 0 0)))

theorem test_understudy : let s := understudyUp (2 ^ 18)
    s.fld Reg.castState = 2 ∧ s.awaiting 2 = false ∧ s.mirrorThere (s.rd Reg.ckpProt) = true ∧ s.openRoute s.partnerNow = some 0
    ∧ leaves .understudyBookRead s (fun t => (t.port 0).outstanding.map (fun o => (o.opcode, o.bytes, o.use)) == [(opGet, 128, 2)]) = true
    ∧ (understudyUp 0).mirrorThere 0 = false
    ∧ leaves .understudyBookRead (understudyUp 0) (fun t => t.fov.fillFailed) = true := by decide +kernel

/-- A survivor or an understudy at the fill barrier, whose job has no items. -/
def barrier (fov : Nat) : State :=
  { setAll [(Reg.fovState, fov)] (protected3 { Ckp.off with hasP := true, mirrorOk := true } noJob) with fov := { Fov.off with recovery := fov != 3, bookOk := true } }

theorem test_fill_barrier : (barrier 3).atFillBarrier = true ∧ (barrier 3).understudy = true ∧ (barrier 3).fillVote = 0 ∧ (barrier 1).atFillBarrier = true
    ∧ (barrier 1).understudy = false ∧ (barrier 1).fillVote = 0
    ∧ leaves (.fillBarrier 0) (barrier 3) (fun t => t.fov.filling && t.fld Reg.fovState == 4 && t.fld Reg.fillBytes == 0) = true
    ∧ leaves (.fillBarrier 0) (barrier 1) (fun t => t.fov.barrierPassed && t.fov.recovery) = true
    ∧ leaves (.fillBarrier 1) (barrier 3) (fun t => t.fld Reg.fallbacks == 1 && !t.fov.recovery) = true
    ∧ leaves .understudyWaitExpiry (barrier 1) (fun t => t.fld Reg.fallbacks == 1 && t.jf 3 Reg.jobState == 5 && t.fld Reg.fovState == 0) = true := by
  decide +kernel

/-- A fill without items whose book names step 9; one of a lost item; and one with an item that cannot be read. -/
def filling (items : List Item) (fov : Fov) : State := { protected3 { Ckp.off with items, hasP := true } noJob with fov }
def book9 : List Byte := List.replicate 24 0 ++ [9] ++ List.replicate 103 0

theorem test_fill_seal : let f := { Fov.off with filling := true, recovery := true, book := book9 }
    (filling [] f).fillArrived = true ∧ (((filling [] f).quiet.placeUnits 0 book9 []).verifyFill noJob 0 book9 []).1 = true
    ∧ fieldLE book9 24 6 = 9
    ∧ (let bad := [oneItem 3]
       let b := book9 ++ [1, 10, 3, 0] ++ leBytes 4 0 ++ leBytes 8 0x0000FFFFFFFFFFFF ++ leBytes 8 4 ++ List.replicate 56 0
       let f := { f with book := b }
       (((filling bad f).quiet.placeUnits 0 b []).verifyFill noJob 0 b [0]).1 = false
       ∧ leaves .fillSeal (filling bad f) (fun t => t.fov.fillFailed && !t.fov.filling) = true)
    ∧ (filling [] { Fov.off with filled := [0] }).fillArrived = true ∧ (filling [] { Fov.off with filled := [0] }).fov.filled ≠ [] := by decide +kernel

/-- A survivor's lost item has come back: four zero bytes, as slot P's book says. -/
theorem test_refill : let entry := [1, 10, 1, 0] ++ leBytes 4 0 ++ leBytes 8 (2 ^ 24) ++ leBytes 8 4 ++ leBytes 24 0
    let book := bookWhole (1 :: List.replicate 95 0) [entry ++ digest32 [0, 0, 0, 0]]
    let s := (filling [oneItem 1] { Fov.off with filled := [0] }).putBytes 0x1040000000 book
    s.fillArrived = true
    ∧ (match s.quiet.readBook s.pSlot with
       | (some b, u) => b == book && ((u.placeUnits s.pSlot b [0]).verifyFill noJob s.pSlot b [0]).1 && leaves .fillSeal s fun t => t.fov.filled == []
       | _ => false) = true := by decide +kernel

theorem test_rehearsal_barrier : let s := setAll [(Reg.fovState, 4)] (filling [] { Fov.off with recovery := true })
    leaves (.rehearsalBarrier 0) s (fun t => t.fov.rehearsal && !t.fov.recovery && t.fld Reg.fovState == 5 && t.jf 3 Reg.jobState == 3) = true
    ∧ leaves (.rehearsalBarrier 1) s (fun t => !t.fov.rehearsal && t.fld Reg.fallbacks == 1) = true
    ∧ leaves (.rehearsalBarrier 0) (filling [] { Fov.off with recovery := true, barrierPassed := true }) (fun t => t.fov.rehearsal && t.fld Reg.fovState == 5) = true := by
  decide +kernel

/-- Three replicas along the second axis; this device is the first. -/
def voteUp : State :=
  setAll [(Reg.torusExtent, 0x010401), (Reg.castExtent, 0x010301), (Reg.fabCoord, 0), (Reg.runDigestLo, 5)]
    { protected3 Ckp.off noJob with fov := { Fov.off with voting := some 8 } }

theorem test_votes : voteUp.replicas = 3 ∧ voteUp.coord = 0 ∧ voteUp.digestV = 5
    ∧ ([0, 0x000100, 0x000200].all fun c => voteUp.isMember c && comp c 0 == 0) = true
    ∧ leaves (.replicaVote [(0x000100, 5), (0x000200, 5)]) voteUp (fun t => t.fld Reg.votedStep == 8 && t.fld Reg.fovLastVote == 1 && t.fov.voting == none) = true
    ∧ majorityOf [5, 6, 5] = some 5
    ∧ leaves (.replicaVote [(0x000200, 5), (0x000100, 6)]) voteUp (fun t => t.fld Reg.fovLastVote == 2 && t.fld Reg.expulsions == 1) = true
    ∧ leaves .voteTimeout { voteUp with ckp := { voteUp.ckp with stopping := true } } (fun t => t.fld Reg.fovLastVote == 3 && t.ckp.afterStop == [0]) = true := by
  decide +kernel

/-! ### Digests and images -/

/-- A digest has 64 bytes (FIPS 202). -/
theorem sha3_length (bs : List Byte) : (sha3 bs).length = 64 := by
  simp only [sha3, toBytes, List.length_map, sha3_512, sponge, List.length_take]
  rw [show ceilDiv 64 72 = 0 + 1 by decide, squeeze, squeeze, List.append_nil]
  simp [stateBytes]

theorem sha3_isEmpty (bs : List Byte) : (sha3 bs).isEmpty = false := by
  have h := sha3_length bs
  cases e : sha3 bs with
  | nil => rw [e] at h; simp at h
  | cons => rfl

/-- What a list of bytes programmed in a row leaves. -/
theorem get_cells (l : List Byte) : ∀ (a : Nat) (m : SMap Byte) (k : Nat), SMap.get 0xFF (SMap.setAll 0xFF m ((List.range' a l.length).zip l)) k
    = if a ≤ k ∧ k < a + l.length then l.getD (k - a) 0xFF else SMap.get 0xFF m k := by
  induction l with
  | nil => intro a m k; simp [SMap.setAll]
  | cons b l ih =>
    intro a m k
    have e : SMap.setAll 0xFF m ((List.range' a (b :: l).length).zip (b :: l))
        = SMap.setAll 0xFF (SMap.set 0xFF m a b) ((List.range' (a + 1) l.length).zip l) := by
      simp [SMap.setAll, List.range'_succ]
    rw [e, ih, SMap.get_set]
    by_cases h1 : a = k
    · subst h1; simp
    · by_cases h2 : a + 1 ≤ k ∧ k < a + 1 + l.length
      · rw [if_pos h2, if_pos (by simp; omega), show k - a = k - (a + 1) + 1 by omega]; rfl
      · rw [if_neg h2, if_neg h1, if_neg (by simp; omega)]

/-- Programming an erased image area leaves the image, erased after its end. -/
theorem norWrite_erased (s : State) (a n i : Nat) (bs : List Byte) (h : s.sec.nor = []) :
    (s.norWrite a n bs).norByte (a + i) = bs.getD i 0xFF := by
  have hn : (s.norErase a n).sec.nor = [] := by simp [State.norErase, h]
  have hb : ∀ k, (s.norErase a n).norByte k = 0xFF := by intro k; simp only [State.norByte, hn]; rfl
  have hc : ((List.range bs.length).zip bs |>.map fun p => (a + p.1, (s.norErase a n).norByte (a + p.1) &&& p.2))
      = (List.range' a bs.length).zip bs := by
    have e : List.range' a bs.length = (List.range bs.length).map (a + ·) := by rw [List.range_eq_range', List.map_add_range']; simp
    rw [e, List.zip_map_left]
    apply List.map_congr_left
    intro p _
    simp only [hb, Prod.map, id]
    congr 1
    exact BitVec.allOnes_and
  simp only [State.norWrite, State.norProgram, State.norByte] at hc ⊢
  rw [hc, hn, get_cells]
  split
  · simp
  · rename_i h; rw [List.getD_eq_default _ _ (by omega)]; rfl

/-- An image verifies where each check of R502 holds. -/
theorem verifyImage_ok (x : Sec) (img : Nat → Byte) (hl : layoutOk img = true) (hn : imgLE img 12 4 + 7240 + 16 ≤ 28 * 2 ^ 20)
    (hs : x.fuses.svnFloor ≤ imgLE img 8 2) (hb : blockOk img (imgLE img 12 4) 1 = true)
    (hk : keyLive x.fuses.vendorKeys x.fuses.vendorRevoked (sha3 (blockKey img (imgLE img 12 4))) = true)
    (hv : x.verifies (blockKey img (imgLE img 12 4)) (sha3 (slice img 0 (imgLE img 12 4))) (blockSig img (imgLE img 12 4)) = true)
    (a : Nat) (ha : imgLE img 12 4 + 7240 + settingsLen img (imgLE img 12 4 + 7240) = a) (he : a + 7240 ≤ 28 * 2 ^ 20)
    (ho : blockOk img a 2 = true) (hw : x.fuses.owned = false)
    (hz : x.verifies (blockKey img a) (sha3 (sha3 (slice img 0 (imgLE img 12 4)) ++ slice img (imgLE img 12 4 + 7240)
      (settingsLen img (imgLE img 12 4 + 7240)))) (blockSig img a) = true)
    (hp : settingsOk img (imgLE img 12 4 + 7240) = true) : ∃ y, x.verifyImage img = .ok y := by
  subst ha
  simp only [Sec.verifyImage]
  rw [if_neg (by simp only [hl, false_or, Bool.not_true, Bool.false_eq_true]; omega), if_neg (by omega), if_neg (by simp [hb, hk, hv]),
    if_neg (by omega), if_neg (by simp [ho, hw, hz]), if_neg (by simp [hp])]
  exact ⟨_, rfl⟩

/-- An image without content: header, five empty sections, a vendor block, empty settings, an owner block (Tables 15.3 and 15.4). -/
def imageCells : List (Nat × List Byte) :=
  [(0, [1, 16, 2, 0, 0, 0, 0, 0, 0, 0, 5, 0, 144]), (64, [1, 0, 0, 0, 144]), (80, [2, 0, 0, 0, 144]), (96, [3, 0, 0, 0, 144]), (112, [4, 0, 0, 0, 144]),
   (128, [5, 0, 0, 0, 144]), (144, [1, 2, 1, 0, 0x20, 0x0A, 0x13, 0x12]), (7384, [1, 2]), (7400, [1, 2, 2, 0, 0x20, 0x0A, 0x13, 0x12])]
def imageMem : Mem := (imageCells.foldl (fun (s : State) c => s.putBytes (0x800000000000 + c.1) c.2) State.reset).mem
def image : Nat → Byte := fun i => ({ up with mem := imageMem }.bytes 0x800000000000 14640).getD i 0xFF
def vendorKey : List Byte := blockKey image 144
def ownerKey : List Byte := blockKey image 7400

/-- The device whose vendor signed the firmware and whose owner key signed the settings; its measurements are done. -/
def mailUp : State :=
  { setAll [(Reg.measDone, 1), (Reg.romOnly, 0)] up with
    mem := imageMem
    sec := { up.sec with
      fuses := { Fuses.blank with vendorKeys := [sha3 vendorKey, [], [], []] }, live := { Fuses.blank with vendorKeys := [sha3 vendorKey, [], [], []] }
      sigs := [(sha3 vendorKey, sha3 (slice image 0 144), blockSig image 144),
        (sha3 ownerKey, sha3 (sha3 (slice image 0 144) ++ slice image 7384 16), blockSig image 7400)] } }

/-- A request over the data object exchange. -/
def doe (code : Nat) (body : List Byte) : Path := .doe (mailboxRequest code 5 body)

theorem doe_asked (s : State) (code : Nat) (body : List Byte) (h : s.fld Reg.mbxBusy = 0) (hu : s.mailboxUp = true) (hb : body.length ≤ 64000) :
    s.asked (doe code body) (mailboxRequest code 5 body) := by
  refine ⟨h, ?_, rfl, hu⟩
  simp [mailboxRequest, leBytes]
  omega

theorem mailUp_serves : mailUp.fld Reg.mbxBusy = 0 ∧ mailUp.mailboxUp = true ∧ mailUp.fld Reg.measDone = 1 ∧ mailUp.fld Reg.secAborted = 0
    ∧ mailUp.allIdle = true ∧ mailUp.served = true ∧ mailUp.host.ideInsecure = false ∧ mailUp.controllerUp = true := by decide +kernel

theorem image_verifies : ∃ y, mailUp.sec.now.verifyImage image = .ok y := by
  have h12 : imgLE image 12 4 = 144 := by decide +kernel
  have hlen : settingsLen image 7384 = 16 := by decide +kernel
  refine verifyImage_ok _ _ (by decide +kernel) (by rw [h12]; decide) (by decide +kernel) (by rw [h12]; decide +kernel) ?_ ?_ 7400
    (by rw [h12, hlen]) (by decide) (by decide +kernel) (by decide +kernel) ?_ (by rw [h12]; decide +kernel)
  · rw [h12]
    have he : (sha3 (blockKey image 144)).isEmpty = false := sha3_isEmpty _
    show (List.range 4).any _ = true
    rw [List.any_eq_true]
    exact ⟨0, by decide, by simp only [he]; simp [mailUp, Sec.now, vendorKey, bitAt, Fuses.blank]⟩
  · rw [h12]; simp [Sec.verifies, mailUp, Sec.now, vendorKey]
  · rw [h12, hlen]; simp [Sec.verifies, mailUp, Sec.now, ownerKey]

/-! ### The mailbox -/

/-- A device whose running image lists one key of a kind, by which one signature was made. -/
def signed (kind : Nat) (pk msg sig : List Byte) (s : State) : State :=
  { s with sec := { s.sec with keys := [(kind, pk)], sigs := [(sha3 pk, msg, sig)] } }

theorem signed_by (kind : Nat) (pk msg sig : List Byte) (s : State) : (signed kind pk msg sig s).signedBy kind msg sig = true := by
  simp [State.signedBy, Sec.verifies, signed]

theorem signed_regs (kind : Nat) (pk msg sig : List Byte) (s : State) : (signed kind pk msg sig s).regs = s.regs := rfl
theorem signed_pins (kind : Nat) (pk msg sig : List Byte) (s : State) : (signed kind pk msg sig s).pins = s.pins := rfl
theorem signed_bytes (kind : Nat) (pk msg sig : List Byte) (s : State) (a n : Nat) : (signed kind pk msg sig s).bytes a n = s.bytes a n := rfl
theorem signed_binding (kind : Nat) (pk msg sig : List Byte) (s : State) : (signed kind pk msg sig s).binding = s.binding := by
  simp only [State.binding, State.fld, State.rd, signed_regs]

/-- The same request over the mailbox's registers and over the management path. -/
def boxUp : State :=
  wrAll [(Reg.mbxReq, 0x800000020000), (Reg.mbxResp, 0x800000030000), (Reg.mbxRespMax, 65536)] (mailUp.putBytes 0x800000020000 (mailboxRequest 5 5 []))

theorem test_mailbox_path : boxUp.asked .mailbox (mailboxRequest 5 5 []) := by
  refine ⟨by decide +kernel, by decide +kernel, by decide +kernel, by decide +kernel, by decide +kernel, by decide +kernel, by decide +kernel,
    by decide +kernel, by decide +kernel⟩

theorem test_management_path : mailUp.asked (.mctp 65535 (mailboxRequest 5 5 [])) (mailboxRequest 5 5 []) :=
  ⟨mailUp_serves.1, by decide +kernel, rfl, by decide, mailUp_serves.2.2.2.2.2.2.2, by decide +kernel⟩

/-- What differs from that device neither in registers nor in pins is asked as it is. -/
theorem like_asked (s : State) (hr : s.regs = mailUp.regs) (hp : s.pins = mailUp.pins) (code : Nat) (body : List Byte) (hb : body.length ≤ 64000) :
    s.asked (doe code body) (mailboxRequest code 5 body) := by
  have h : ∀ f, s.fld f = mailUp.fld f := by intro f; simp only [State.fld, State.rd, hr]
  refine doe_asked s code body ((h _).trans mailUp_serves.1) ?_ hb
  rw [State.mailboxUp, hp, h]
  exact mailUp_serves.2.1

/-- Every request of its length is asked; the last test was number 9. -/
theorem test_reads_asked : mailUp.asked (doe 1 (List.replicate 32 7)) (mailboxRequest 1 5 (List.replicate 32 7)) ∧ mailUp.asked (doe 2 []) (mailboxRequest 2 5 [])
    ∧ (∀ n, mailUp.asked (doe 3 (leBytes 4 n)) (mailboxRequest 3 5 (leBytes 4 n))) ∧ (∀ i, mailUp.asked (doe 13 (leBytes 4 i)) (mailboxRequest 13 5 (leBytes 4 i)))
    ∧ ∀ n, { mailUp with sec := { mailUp.sec with testDone := some (9, []) } }.asked (doe 11 (leBytes 4 n)) (mailboxRequest 11 5 (leBytes 4 n)) :=
  ⟨like_asked _ rfl rfl _ _ (by simp), like_asked _ rfl rfl _ _ (by simp), fun n => like_asked _ rfl rfl _ _ (by simp [leBytes]),
    fun n => like_asked _ rfl rfl _ _ (by simp [leBytes]), fun n => like_asked _ rfl rfl _ _ (by simp [leBytes])⟩

theorem test_clear_ledger : mailUp.asked (doe 4 []) (mailboxRequest 4 5 []) ∧ (setAll [(Reg.jobState.plus 0x300, 2)] mailUp).allIdle = false
    ∧ (setAll [(Reg.jobState.plus 0x300, 2)] mailUp).fld Reg.secAborted = 0
    ∧ (setAll [(Reg.jobState.plus 0x300, 2)] mailUp).asked (doe 4 []) (mailboxRequest 4 5 []) :=
  ⟨like_asked _ rfl rfl _ _ (by simp), by decide +kernel, by decide +kernel, doe_asked _ _ _ (by decide +kernel) (by decide +kernel) (by simp)⟩

theorem verify_norWrite (s : State) (a n : Nat) (bs : List Byte) (img : Nat → Byte) :
    (s.norWrite a n bs).sec.now.verifyImage img = s.sec.now.verifyImage img := rfl

theorem test_image_update : let body := leBytes 8 0x800000000000 ++ leBytes 4 14640 ++ leBytes 1 1 ++ leBytes 1 1 ++ leBytes 2 0
    let bs := mailUp.bytes 0x800000000000 14640
    let u := mailUp.norWrite (imageBase 1) (28 * 2 ^ 20) bs
    mailUp.asked (doe 6 body) (mailboxRequest 6 5 body) ∧ mailUp.host.ideInsecure = false ∧ mailUp.runningImage ≠ some 1
    ∧ (∃ x, mailUp.sec.now.verifyImage (fun i => bs.getD i 0xFF) = .ok x) ∧ ∃ y, u.sec.now.verifyImage (u.imageAt 1) = .ok y := by
  intro body bs u
  have e : (fun i => bs.getD i 0xFF) = image := rfl
  have hu : u.imageAt 1 = image := by
    funext i
    exact norWrite_erased mailUp (imageBase 1) (28 * 2 ^ 20) i bs rfl
  obtain ⟨y, hy⟩ := image_verifies
  refine ⟨like_asked _ rfl rfl _ _ (by simp [body, leBytes]), mailUp_serves.2.2.2.2.2.2.1, by decide +kernel,
    ⟨y, by rw [e]; exact hy⟩, ⟨y, ?_⟩⟩
  rw [hu]
  exact (verify_norWrite mailUp _ _ bs image).trans hy

/-- A body with a signature at its end by the listed SECRET key. -/
def secretUp (code : Nat) (body : List Byte) : State :=
  signed 3 [9] (sha3 ((mailboxRequest code 5 body).take 16 ++ body.take (body.length - 4627) ++ mailUp.binding)) (body.drop (body.length - 4627)) mailUp

theorem secretUp_ok (code : Nat) (body : List Byte) : (secretUp code body).secretOk ((mailboxRequest code 5 body).take 16) body = true := by
  unfold State.secretOk secretUp
  rw [signed_binding]
  exact signed_by ..

/-- A key set and a secret. -/
def keySet : List Byte := List.replicate 4663 7
theorem keySet_length : keySet.length = 4663 := List.length_replicate ..

theorem test_secrets : (secretUp 7 keySet).asked (doe 7 keySet) (mailboxRequest 7 5 keySet) ∧ keySet.length = 4 + 32 * 1 + 4627 ∧ keySet.length = 36 + 4627
    ∧ (secretUp 8 keySet).asked (doe 8 keySet) (mailboxRequest 8 5 keySet) :=
  have h : keySet.length ≤ 64000 := by rw [keySet_length]; decide
  ⟨like_asked _ (signed_regs ..) (signed_pins ..) _ _ h, by rw [keySet_length], by rw [keySet_length],
    like_asked _ (signed_regs ..) (signed_pins ..) _ _ h⟩

/-- An order of number 1 for this device, which is spare, to place (63, 63, 63) of a torus and cast of 64 by 64 by 64. -/
def order : List Byte :=
  [1, 16, 2, 1] ++ leBytes 4 1 ++ leBytes 4 77 ++ leBytes 4 0 ++ leBytes 4 0x3F3F3F ++ leBytes 4 0 ++ leBytes 4 0x404040 ++ leBytes 4 0x404040
    ++ leBytes 8 (mailUp.rd Reg.serialHash) ++ leBytes 8 0 ++ leBytes 3 0xFFFFFF ++ leBytes 77 0
def spareUp : State := setAll [(Reg.fovRole, 1)] mailUp
def orderUp : State := signed 1 [9] (sha3 order) (List.replicate 4627 3) spareUp

theorem test_order : order.length = 128 ∧ orderUp.orderFault order (List.replicate 4627 3) = none
    ∧ spareUp.orderFault order [] = some (1, St.signature) := by
  refine ⟨by simp [order, leBytes], ?_, by decide +kernel⟩
  have h : orderUp.signedBy 1 (sha3 order) (List.replicate 4627 3) = true := signed_by ..
  have hs : orderUp.orderFault order (List.replicate 4627 3) = if !orderUp.signedBy 1 (sha3 order) (List.replicate 4627 3) then some (1, St.signature) else none := by
    have r := (show (if 1 < fieldLE order 0 1 then some (2, St.version)
      else if fieldLE order 2 1 % 16 ≠ 2 then some (2, St.format)
      else if orderReserved order then some (2, St.reservedBit)
      else if fieldLE order 32 8 ≠ orderUp.rd Reg.serialHash then some (3, St.target)
      else if fieldLE order 4 4 ≤ orderUp.fld Reg.lastOrderId then some (4, St.staleOrder)
      else if orderUp.fld Reg.fovRole ≠ 1 ∨ !orderUp.allIdle then some (5, St.notAllowed)
      else if fieldLE order 8 4 = 0 ∨ !extentOk (fieldLE order 24 3) ∨ !extentOk (fieldLE order 28 3)
        ∨ !(orderUp.takePlace order).isMember (fieldLE order 16 3) then some (6, St.cast) else none) = (none : Option (Nat × Nat)) by decide +kernel)
    simp only [State.orderFault]
    rw [r]
  rw [hs, h]; rfl

/-! ### Fleet tests and key fuses -/

/-- A package of test 9 for any device, signed, in the far window. -/
def package : List Byte := [1, 8, 2, 1] ++ leBytes 4 9 ++ leBytes 56 0
def packUp : State :=
  let s := mailUp.putBytes 0x800000010000 package
  signed 2 [9] (sha3 ((s.bytes 0x800000010000 4691).take 64)) ((s.bytes 0x800000010000 4691).drop 64) s

theorem test_test_package : let body := leBytes 8 0x800000010000 ++ leBytes 4 4691
    let bs := packUp.bytes 0x800000010000 4691
    let pk := bs.take (4691 - 4627)
    packUp.asked (doe 10 body) (mailboxRequest 10 5 body) ∧ pk.length = 64 + fieldLE pk 20 8
    ∧ 64 + 8 * fieldLE pk 10 2 + 96 * fieldLE pk 12 4 ≤ pk.length ∧ packUp.signedBy 2 (sha3 pk) (bs.drop pk.length) = true ∧ fieldLE pk 0 1 ≤ 1
    ∧ fieldLE pk 2 1 = 2 ∧ fieldLE pk 8 2 ≤ packUp.fld Reg.svn ∧ bitAt 0 (fieldLE pk 3 1) = true ∧ packUp.fld Reg.fovState ≠ 7
    ∧ packUp.jf 3 Reg.jobState = 0 ∧ packUp.sec.test = none ∧ (setAll [(Reg.jobState.plus 0x300, 2)] packUp).jf 3 Reg.jobState ≠ 0 := by
  intro body bs pk
  have hl : pk.length = 64 := by
    show ((packUp.bytes 0x800000010000 4691).take 64).length = 64
    simp only [State.bytes, List.length_take, List.length_map, List.length_range]
    rfl
  refine ⟨like_asked _ rfl rfl _ _ (by simp [body, leBytes]), by decide +kernel, by decide +kernel, ?_, by decide +kernel,
    by decide +kernel, by decide +kernel, by decide +kernel, by decide +kernel, by decide +kernel, rfl, by decide +kernel⟩
  rw [hl]
  have hb : bs = (mailUp.putBytes 0x800000010000 package).bytes 0x800000010000 4691 := signed_bytes ..
  show packUp.signedBy 2 (sha3 (bs.take 64)) (bs.drop 64) = true
  rw [hb]
  exact signed_by ..

/-- Test 9 runs patterns 0 and 1 on bank 3071. -/
def patterns (n : Nat) : State :=
  { mailUp with sec := { mailUp.sec with test := some { id := 9, digest := [], held := [], entries := [(0, 0x3BFF, none), (1, 0x3BFE, none)].take n } } }

theorem test_pattern_timeout : unitValid 0x3BFF = true
    ∧ ((patterns 2).sec.test.any fun x => x.entries.find? (fun e => e.2.1 == 0x3BFF && e.2.2.isNone) == some (0, 0x3BFF, none)) = true
    ∧ leaves (.patternTimeout 0x3BFF) (patterns 2) (fun t => t.sec.test.any fun x => x.entries == [(0, 0x3BFF, some 3), (1, 0x3BFE, none)]) = true
    ∧ leaves (.patternTimeout 0x3BFF) (patterns 1) (fun t => t.sec.test.isNone && t.fld Reg.testStateF == 2 && t.sec.testDone.map (·.1) == some 9) = true := by
  decide +kernel

/-- Key fuses with these owner and vendor slots; the owner of the first signs a change of slot 1. -/
def aKey : List Byte := List.replicate 2592 1
def aSig : List Byte := List.replicate 4627 2
def fuseBody (op : Nat) : List Byte := [BitVec.ofNat 8 op, 1, 0, 0] ++ List.replicate 64 5
def fuseUp (op : Nat) (owner vendor : List (List Byte)) : State :=
  { mailUp with sec := { mailUp.sec with
      fuses := { Fuses.blank with ownerKeys := owner, vendorKeys := vendor }
      sigs := [(sha3 aKey, sha3 ((mailboxRequest 12 5 (fuseBody op ++ aKey ++ aSig)).take 16 ++ fuseBody op ++ mailUp.binding), aSig)] } }

theorem aKey_length : aKey.length = 2592 := List.length_replicate ..
theorem aSig_length : aSig.length = 4627 := List.length_replicate ..

theorem test_key_fuses_asked (op : Nat) (owner vendor : List (List Byte)) :
    (fuseUp op owner vendor).asked (doe 12 (fuseBody op)) (mailboxRequest 12 5 (fuseBody op))
    ∧ (fuseUp op owner vendor).asked (doe 12 (fuseBody op ++ aKey ++ aSig)) (mailboxRequest 12 5 (fuseBody op ++ aKey ++ aSig))
    ∧ (fuseUp op owner vendor).sec.verifies aKey (sha3 ((mailboxRequest 12 5 (fuseBody op ++ aKey ++ aSig)).take 16 ++ fuseBody op
      ++ (fuseUp op owner vendor).binding)) aSig = true := by
  have h : (fuseBody op).length = 68 := rfl
  refine ⟨like_asked _ rfl rfl _ _ (by omega), like_asked _ rfl rfl _ _ ?_, ?_⟩
  · simp only [List.length_append, h, aKey_length, aSig_length]; omega
  · exact List.contains_iff_mem.2 (List.mem_singleton.2 rfl)

theorem test_key_fuses (k : List Byte) (h : k.isEmpty = false) : let blank : List (List Byte) := [[], [], [], []]
    { Fuses.blank with ownerKeys := blank }.owned = false ∧ { Fuses.blank with ownerKeys := [[1], [], [], []] }.owned = true
    ∧ (∃ n, n < 4 ∧ ([k, [], [], []] : List (List Byte)).getD n [] = k) ∧ (∃ n, n < 4 ∧ n ≠ 1 ∧ ([k, [1], [], [2]] : List (List Byte)).getD n [] = k)
    ∧ liveMask [k, [1], [], [2]] (0 + 2 ^ 1) ≠ 0 ∧ keyLive [k, [1], [], []] 0 k = true ∧ liveMask [k, [1], [], []] (0 + 2 ^ 1) ≠ 0 := by
  refine ⟨by decide +kernel, by decide +kernel, ⟨0, by decide, rfl⟩, ⟨0, by decide, by decide, rfl⟩, ?_, ?_, ?_⟩
  · simp only [liveMask, List.range_succ, List.range_zero, List.foldl_append, List.foldl_cons, List.foldl_nil, List.nil_append, List.getD_cons_zero, List.getD_cons_succ, h]
    decide
  · show (List.range 4).any _ = true
    rw [List.any_eq_true]
    exact ⟨0, by decide, by simp [h, bitAt]⟩
  · simp only [liveMask, List.range_succ, List.range_zero, List.foldl_append, List.foldl_cons, List.foldl_nil, List.nil_append, List.getD_cons_zero, List.getD_cons_succ, h]
    decide

theorem test_key_is_not_empty : (sha3 aKey).isEmpty = false := sha3_isEmpty aKey

/-! ### Management -/

/-- A device whose start has completed, managed over the side band. -/
def managed (romOnly : Nat) : State := setAll [(Reg.romOnly, romOnly)] up
def answers (c : Instr) (s : State) (cmd code : Nat) (p : List Byte → Bool) : Bool :=
  leaves c s fun t => match t.out with
    | [.response (a :: b :: x :: y :: d :: r)] => [a, b, x, y, d] == [1, BitVec.ofNat 8 cmd, 0xFF, 0xFF, BitVec.ofNat 8 code] && p r
    | _ => false

theorem test_addresses : (managed 1).controllerUp = true ∧ (managed 1).fld Reg.dynAddr = 0
    ∧ leaves (.entdaa 127) (managed 1) (fun t => t.fld Reg.dynAddr == 127) = true
    ∧ exec (.entdaa 1) (setAll [(Reg.dynAddr, 127)] (managed 1)) = .next { setAll [(Reg.dynAddr, 127)] (managed 1) with out := [] }
    ∧ leaves (.setEndpointId 254) (managed 1) (fun t => t.fld Reg.eid == 254 && t.out == [.response [0, 0, 254, 0]]) = true
    ∧ leaves (.setEndpointId 255) (managed 1) (fun t => t.fld Reg.eid == 0 && t.out == [.response [2]]) = true
    ∧ leaves .getEndpointId (setAll [(Reg.eid, 254)] (managed 1)) (fun t => t.out == [.response [0, 254, 0, 0]]) = true :=
  ⟨by decide +kernel, by decide +kernel, by decide +kernel, rfl, by decide +kernel, by decide +kernel, by decide +kernel⟩

theorem test_management_reads : answers (.getStatus 65535) (managed 1) 1 0 (fun r => r.length == 12) = true
    ∧ answers (.readReg 65535 0x3FFFFF8 8) (managed 1) 2 0 (fun r => r.length == 8) = true
    ∧ answers (.readReg 65535 0x4000000 4) (managed 1) 2 2 List.isEmpty = true
    ∧ answers (.readReg 65535 4 8) (managed 1) 2 2 List.isEmpty = true
    ∧ answers (.writeReg 65535 8 1200) (managed 1) 3 4 List.isEmpty = true := by decide +kernel

theorem test_management_writes : (managed 0).served = true ∧ (managed 0).fld Reg.ready = 0
    ∧ answers (.writeReg 65535 8 1200) (managed 0) 3 0 List.isEmpty = true
    ∧ leaves (.writeReg 65535 8 1200) (managed 0) (fun t => t.fld Reg.limitW == 1200 && newest t 0x8004 0xB000 [1200, 3]) = true
    ∧ leaves (.writeReg 65535 8 2400) (managed 0) (fun t => t.fld Reg.limitW == 2400) = true
    ∧ leaves (.writeReg 65535 8 2401) (managed 0) (fun t => t.fld Reg.limitW == up.fld Reg.limitW && newest t 0xB001 0 [0x600008, 2401, 2]) = true
    ∧ leaves (.writeReg 65535 8 1199) (managed 0) (fun t => newest t 0xB001 0 [0x600008, 1199, 2]) = true
    ∧ answers (.writeReg 65535 0x100000 0) (managed 0) 3 2 List.isEmpty = true := by decide +kernel

theorem test_management_lists : answers (.readUnits 65535 1 143 1) (managed 0) 5 0 (fun r => r.length == 8) = true
    ∧ answers (.readUnits 65535 3 2560 512) (managed 0) 5 0 (fun r => r.length == 4096) = true
    ∧ answers (.readEvents 65535 0 64) ((managed 0).event 0x8004 0xB000 [1200, 3]) 6 0 (fun r => !r.isEmpty) = true
    ∧ answers (.readEvents 65535 (2 ^ 64 - 1) 1) ((managed 0).event 0x8004 0xB000 [1200, 3]) 6 0 List.isEmpty = true := by decide +kernel

/-! ### Requests on units -/

/-- The state of a unit after a command, and the result that UNIT_CMD_STATUS shows. -/
def unitBecomes (c : Instr) (s : State) (u st res : Nat) : Bool :=
  leaves c s fun t => t.unitRaw u == st && bits 31 28 (t.rd Reg.unitCmdStatus) == res && bits 15 0 (t.rd Reg.unitCmdStatus) == u
/-- These units have these states, which the host gave them. -/
def hostSet (l : List (Nat × Nat)) (s : State) : State := l.foldl (fun s x => s.wr (unitOff x.1) (x.2 + 4096 * 2)) s

theorem test_paths_ready : (managed 0).pathReady .host ∧ (managed 0).pathReady (.mctp 65535) := by
  unfold State.pathReady; decide +kernel

theorem test_unit_rejected : [(Instr.unitFence .host 0 0x1090 false, 0x1090, 7), (.unitOn .host 0 0xFFFF, 0xFFFF, 7),
    (.unitEndTest .host 0 0x1000 true, 0x1000, 3), (.unitOff .host 0 0x2000, 0x2000, 6), (.unitTest .host 0 0x3BFF, 0x3BFF, 3),
    (.unitUnfence .host 0 0x6005, 0x6005, 3)].all (fun x => leaves x.1 up fun t => bits 31 28 (t.rd Reg.unitCmdStatus) == x.2.2
      && bits 15 0 (t.rd Reg.unitCmdStatus) == x.2.1 && t.fld Reg.unitRejected == 1 && t.fld Reg.unitRequests == 0) = true
    ∧ up.unitCheck 1 0 0x1090 = 7 ∧ answers (.unitOff (.mctp 65535) 0 0x2000) (managed 0) 4 0 (fun r => bits 31 28 (fieldLE r 0 8) == 6) = true := by
  decide +kernel

/-- Engine 0 is active with a spare and engine 143 without; a job runs. -/
def busy (jobs : List (Nat × Job)) : State :=
  { setAll [(Reg.jobState.plus 0x300, 3)] (wrAll [(unitOff 0x108F, US.active), (unitOff 0x1000, US.active), (unitOff 0x1008, US.spare)] memUp) with jobs }

theorem test_unit_fences : (busy []).unitCheck 1 0 0x1000 = 0 ∧ (busy []).anyRunning = true ∧ (busy []).inStop = false
    ∧ ((busy []).spareFor 0).isNone = false ∧ ((busy []).spareFor 15).isNone = true ∧ (busy []).beforeCurtain = none
    ∧ (busy []).unitCheck 1 0 0x108F = 0 ∧ (busy []).unitCheck 1 0 0x1008 = 0
    ∧ unitBecomes (.unitFence .host 0 0x1008 false) (busy []) 0x1008 US.fenced 0 = true
    ∧ unitBecomes (.unitFence .host 0 0x108F false) (busy []) 0x108F US.active 5 = true
    ∧ unitBecomes (.unitFence .host 0 0x1000 false) (busy []) 0x1000 US.active 1 = true
    ∧ unitBecomes (.unitFence .host 0 0x1000 true) (busy []) 0x1000 US.active 1 = true := by decide +kernel

theorem test_fence_immediate : (busy [(3, opened)]).beforeCurtain = some 3 ∧ (busy [(3, opened)]).unitCheck 1 0 0x1000 = 0
    ∧ (busy [(3, opened)]).inStop = false
    ∧ leaves (.unitFence .host 0 0x1000 true) { busy [(3, opened)] with ckp := { Ckp.off with stopping := true } } (fun t => t.unitRaw 0x1000 == US.active
      && t.mgt.fences == [(0x1000, 2)]) = true := by decide +kernel

def fencedUp : State :=
  hostSet [(0x108F, US.fenced), (0x1000, US.fenced), (0x3BFF, US.fenced), (0x4007, US.fenced), (0x5000, US.fenced), (0x5007, US.fenced),
    (0x6005, US.fenced)] (wrAll [(unitOff 0x1008, US.spare)] memUp)

theorem test_unfence : [0x108F, 0x1000, 0x3BFF, 0x4007, 0x5000, 0x5007, 0x6005].all (fun u => fencedUp.unitCheck 2 0 u == 0) = true
    ∧ bits 10 8 (fencedUp.owner 3071 0) = 0 ∧ bits 10 8 (fencedUp.owner 3071 1) = 0
    ∧ [(0x108F, US.spare), (0x1000, US.idle), (0x3BFF, US.idle), (0x4007, US.active), (0x5000, US.active), (0x5007, US.idle), (0x6005, US.idle)].all
      (fun x => unitBecomes (.unitUnfence .host 0 x.1) fencedUp x.1 x.2 0) = true := by decide +kernel

theorem test_unit_tests : fencedUp.unitCheck 3 0 0x108F = 0 ∧ unitBecomes (.unitTest .host 0 0x108F) fencedUp 0x108F US.test 0 = true
    ∧ leaves (.unitTest .host 0 0x108F) fencedUp (fun t => bits 7 4 (t.unitEntry 0x108F) == US.fenced && t.unitCheck 4 0 0x108F == 2
      && t.unitCheck 4 1 0x108F == 0 && unitBecomes (.unitEndTest .host 1 0x108F true) t 0x108F US.fenced 0
      && unitBecomes (.unitEndTest .host 1 0x108F false) t 0x108F US.failed 0) = true := by decide +kernel

theorem test_unit_power : fencedUp.unitCheck 5 0 0x3BFF = 0 ∧ unitBecomes (.unitOff .host 0 0x3BFF) fencedUp 0x3BFF US.off 0 = true
    ∧ (hostSet [(0x6005, US.off), (0x3BFF, US.off)] memUp).unitCheck 6 0 0x6005 = 0 ∧ memUp.fov.dead = false ∧ memUp.pst 5 = PS.off
    ∧ unitBecomes (.unitOn .host 0 0x3BFF) (hostSet [(0x6005, US.off), (0x3BFF, US.off)] memUp) 0x3BFF US.idle 0 = true
    ∧ leaves (.unitOn .host 0 0x6005) (hostSet [(0x6005, US.off), (0x3BFF, US.off)] memUp) (fun t => t.pst 5 == PS.detect && t.unitRaw 0x6005 == US.idle) = true := by
  decide +kernel

def waitingFence (u : Nat) : State := { busy [] with mgt := { (busy []).mgt with fences := [(u, 2)] } }

theorem test_waiting_fences : (waitingFence 0x1000).jobs = [] ∧ unitValid 0x1000 = true
    ∧ leaves (.pendingFenceApply 0x108F) (waitingFence 0x108F) (fun t => t.unitRaw 0x108F == US.active && t.mgt.fences == []
      && newest t 0x8003 0x108F [1, 2]) = true
    ∧ leaves (.pendingFenceApply 0x1008) (waitingFence 0x1008) (fun t => t.unitRaw 0x1008 == US.fenced && t.mgt.fences == []) = true := by decide +kernel

/-! ### Register writes -/

theorem test_register_writes : State.reset.served = false
    ∧ leaves (.registerWrite 0x600008 4 1200) State.reset (fun t => t.rd 0x600008 == State.reset.rd 0x600008) = true
    ∧ exec (.registerWrite 0x1FFFF 4 1200) up = .next { up with out := [] }
    ∧ ((findReg 0x200008 bar0).any fun x => !x.1.isCommand && x.2.1 == 0x200008) = true
    ∧ up.ownRule 0x200008 0x5F5A5550 0x200008 0x5F5A5550 = none
    ∧ leaves (.registerWrite 0x200008 4 0x5F5A5550) up (fun t => t.rd 0x200008 == 0x5F5A5550 && t.out == []) = true
    ∧ leaves (.registerWrite 0x200008 4 0x50505050) up (fun t => t.rd 0x200008 == up.rd 0x200008
      && newest t 0xB001 0 [0x200008, 0x50505050, 2]) = true
    ∧ leaves (.registerWrite Reg.unitCmd 8 (2 ^ 28 + 0x1008)) (busy []) (fun t => t.unitRaw 0x1008 == US.fenced) = true :=
  ⟨by decide +kernel, by decide +kernel, rfl, by decide +kernel, by decide +kernel, by decide +kernel, by decide +kernel, by decide +kernel⟩

theorem test_engine_counters : let s := wrAll [(0x4A3C80, 2 ^ 64 - 2), (0x4A3CA8, 7)] up
    s.served = true ∧ s.regRead 0x4A3CA8 8 = 7 ∧ (s.addF ⟨0x4A3C80, 63, 0⟩ 5).rd 0x4A3C80 = 2 ^ 64 - 1
    ∧ leaves (.registerWrite (0x4800C0 + 0x400 * 143) 4 3) s (fun t => t.rd 0x4A3C80 == 0 && t.rd 0x4A3CA8 == 0) = true
    ∧ exec (.registerWrite (0x4800C0 + 0x400 * 143) 4 2) s = .next { s with out := [] } :=
  ⟨by decide +kernel, by decide +kernel, by decide +kernel, by decide +kernel, rfl⟩

end Sys2Proof.Tests
end

namespace Sys2Proof.Machine

open Sys2Proof

/-! ### Bit ranges -/

theorem testBit_bits (hi lo n i : Nat) : (bits hi lo n).testBit i = (decide (i < hi + 1 - lo) && n.testBit (lo + i)) := by
  rw [bits, Nat.testBit_mod_two_pow, Nat.testBit_shiftRight]

/-- A range of n replaced: what lies above it, what is put there, and what lies below. -/
theorem setBits_eq (hi lo v n : Nat) :
    setBits hi lo v n
      = 2 ^ lo * (2 ^ (hi + 1 - lo) * ((n >>> lo) / 2 ^ (hi + 1 - lo)) + v % 2 ^ (hi + 1 - lo)) + n % 2 ^ lo := by
  have h1 : 2 ^ lo * (n >>> lo) + n % 2 ^ lo = n := by rw [Nat.shiftRight_eq_div_pow]; exact Nat.div_add_mod ..
  have h2 := Nat.div_add_mod (n >>> lo) (2 ^ (hi + 1 - lo))
  rw [← h2, Nat.mul_add] at h1
  simp only [setBits, bits, Nat.shiftLeft_eq, Nat.mul_add]
  rw [Nat.mul_comm _ (2 ^ lo), Nat.mul_comm _ (2 ^ lo)]
  omega

theorem testBit_setBits (hi lo v n i : Nat) :
    (setBits hi lo v n).testBit i = if lo ≤ i ∧ i < hi + 1 then v.testBit (i - lo) else n.testBit i := by
  rw [setBits_eq, Nat.testBit_two_pow_mul_add _ (Nat.mod_lt _ (Nat.two_pow_pos _)),
    Nat.testBit_two_pow_mul_add _ (Nat.mod_lt _ (Nat.two_pow_pos _)), Nat.testBit_mod_two_pow, Nat.testBit_mod_two_pow]
  by_cases h1 : i < lo
  · rw [if_pos h1, if_neg (by omega), decide_eq_true h1, Bool.true_and]
  · rw [if_neg h1]
    by_cases h2 : i - lo < hi + 1 - lo
    · rw [if_pos h2, if_pos (by omega), decide_eq_true h2, Bool.true_and]
    · rw [if_neg h2, if_neg (by omega), Nat.testBit_div_two_pow, Nat.testBit_shiftRight]
      congr 1
      omega

/-- A range reads what was last put there. -/
theorem bits_setBits (hi lo v n : Nat) : bits hi lo (setBits hi lo v n) = v % 2 ^ (hi + 1 - lo) := by
  refine Nat.eq_of_testBit_eq fun i => ?_
  rw [testBit_bits, testBit_setBits, Nat.testBit_mod_two_pow]
  by_cases h : i < hi + 1 - lo
  · rw [if_pos (by omega), Nat.add_sub_cancel_left]
  · rw [decide_eq_false h, Bool.false_and, Bool.false_and]

/-- A range that lies apart from the one replaced reads as before. -/
theorem bits_setBits_other {hi lo hi' lo' : Nat} (v n : Nat) (h : hi < lo' ∨ hi' < lo) :
    bits hi' lo' (setBits hi lo v n) = bits hi' lo' n := by
  refine Nat.eq_of_testBit_eq fun i => ?_
  rw [testBit_bits, testBit_bits, testBit_setBits]
  by_cases hi' : i < hi' + 1 - lo'
  · rw [if_neg (by omega)]
  · rw [decide_eq_false hi', Bool.false_and, Bool.false_and]

/-- Masking changes nothing in a range that the mask holds whole. -/
theorem bits_and_of_full {hi lo m : Nat} (n : Nat) (h : bits hi lo m = 2 ^ (hi + 1 - lo) - 1) :
    bits hi lo (n &&& m) = bits hi lo n := by
  have e : bits hi lo (n &&& m) = bits hi lo n &&& bits hi lo m := by
    simp only [bits, Nat.shiftRight_and_distrib, Nat.and_mod_two_pow]
  rw [e, h, Nat.and_two_pow_sub_one_eq_mod, Nat.mod_eq_of_lt (bits_lt ..)]

/-! ### Fields -/

/-- No bit of the field is reserved (R16). -/
abbrev Fld.held (f : Fld) : Prop := bits f.hi f.lo (regMask f.off) = 2 ^ (f.hi + 1 - f.lo) - 1

theorem State.rd_setF (s : State) (f : Fld) (v off : Nat) :
    (s.setF f v).rd off = if f.off = off then setBits f.hi f.lo v (s.rd f.off) &&& regMask f.off else s.rd off :=
  State.rd_wr ..

theorem State.rd_setF_other (s : State) {f : Fld} {off : Nat} (v : Nat) (h : f.off ≠ off) : (s.setF f v).rd off = s.rd off :=
  State.rd_wr_other s _ h

theorem State.rd_inc_other (s : State) {f : Fld} {off : Nat} (h : f.off ≠ off) : (s.inc f).rd off = s.rd off :=
  State.rd_wr_other s _ h

/-- A field whose bits are all there reads what was last put there. -/
theorem State.fld_setF (s : State) {f : Fld} (v : Nat) (hf : f.held) : (s.setF f v).fld f = v % 2 ^ (f.hi + 1 - f.lo) := by
  rw [State.fld, State.rd_setF, if_pos rfl, bits_and_of_full _ hf, bits_setBits]

/-- Another field of the same register reads as before. -/
theorem State.fld_setF_apart (s : State) {f g : Fld} (v : Nat) (hg : g.held) (ho : f.off = g.off) (h : f.hi < g.lo ∨ g.hi < f.lo) :
    (s.setF f v).fld g = s.fld g := by
  rw [State.fld, State.rd_setF, if_pos ho, ho, bits_and_of_full _ hg, bits_setBits_other _ _ h, State.fld]

/-- A counter advanced by n reads n more, or its largest value (R133). -/
theorem State.fld_addF (s : State) {f : Fld} (n : Nat) (hf : f.held) :
    (s.addF f n).fld f = min (s.fld f + n) (2 ^ (f.hi + 1 - f.lo) - 1) := by
  have hp := Nat.two_pow_pos (f.hi + 1 - f.lo)
  rw [State.addF, State.fld_setF s _ hf, satAdd, Nat.mod_eq_of_lt (by omega)]

end Sys2Proof.Machine

namespace Sys2Proof.Machine

open Sys2Proof

/-! ### Records of the call board -/

/-- The registers that writing a record may change (R563, R567, R569). -/
def recordRegs : List Nat := [0x10004, 0x10010, 0x10018, 0x10100, 0x10108, 0x10110, 0x200618]

section
variable {off : Nat} (h : off ∉ recordRegs)
include h

theorem State.rd_wr_record (s : State) {o : Nat} (v : Nat) (ho : o ∈ recordRegs) : (s.wr o v).rd off = s.rd off :=
  State.rd_wr_other s v (ne_of_mem_of_not_mem ho h)

theorem State.rd_setF_record (s : State) {f : Fld} (v : Nat) (ho : f.off ∈ recordRegs) : (s.setF f v).rd off = s.rd off :=
  State.rd_wr_record h s _ ho

theorem State.rd_inc_record (s : State) {f : Fld} (ho : f.off ∈ recordRegs) : (s.inc f).rd off = s.rd off :=
  State.rd_wr_record h s _ ho

omit h in
theorem State.rd_putFar (s : State) (a : Nat) (bs : List Byte) (off : Nat) : (s.putFar a bs).rd off = s.rd off := by
  unfold State.putFar
  split
  · exact State.putBytes_rd ..
  · rfl

theorem State.rd_copyToHost (s : State) (r : EvRec) : (s.copyToHost r).rd off = s.rd off := by
  unfold State.copyToHost
  split
  · extract_lets n t
    split
    · exact (State.rd_setF_record h _ _ (by decide)).trans ((State.rd_setF_record h _ _ (by decide)).trans (State.rd_putFar ..))
    · exact (State.rd_setF_record h _ _ (by decide)).trans (State.rd_inc_record h _ (by decide))
  · rfl

/-- A record leaves every other register as it was. -/
theorem State.rd_record (s : State) (sev code unit : Nat) (args : List Nat) (status gen : Nat) :
    (s.record sev code unit args status gen).rd off = s.rd off := by
  unfold State.record
  by_cases hv : s.pins.vsb = true
  · rw [if_pos hv]
    split
    rename_i us t heq
    have h0 : t.rd off = s.rd off := congrArg (fun p : BitVec 64 × State => p.2.rd off) heq.symm
    extract_lets key sup j r full s1 s2 s3 s4 s5
    have h1 : s2.rd off = t.rd off :=
      (State.rd_inc_record h _ (by decide)).trans (State.rd_wr_record h _ _ (by decide))
    have h2 : s3.rd off = s2.rd off := by
      change (if _ then _ else _ : State).rd off = _
      split
      · exact (State.rd_wr_record h _ _ (by decide)).trans
          ((State.rd_setF_record h _ _ (by decide)).trans (State.rd_inc_record h _ (by decide)))
      · exact State.rd_wr_record h _ _ (by decide)
    have h3 : s4.rd off = s3.rd off := by
      change (if _ then _ else _ : State).rd off = _
      split <;> rfl
    have h4 : s5.rd off = s4.rd off := by
      change (if _ then _ else _ : State).rd off = _
      split <;> rfl
    rw [State.rd_copyToHost h, h4, h3, h2, h1, h0]
  · rw [if_neg hv]

theorem State.rd_event (s : State) (code unit : Nat) (args : List Nat) (status : Nat) :
    (s.event code unit args status).rd off = s.rd off :=
  State.rd_record h ..

end

theorem State.fld_event (s : State) (code unit : Nat) (args : List Nat) (status : Nat) {f : Fld} (h : f.off ∉ recordRegs) :
    (s.event code unit args status).fld f = s.fld f := by
  rw [State.fld, State.rd_event h, State.fld]

/-- On standby power the record is the board's newest. -/
theorem State.board_record (s : State) (sev code unit : Nat) (args : List Nat) (status gen : Nat) (hv : s.pins.vsb = true) :
    ∃ r : EvRec, (s.record sev code unit args status gen).board.getLast? = some r ∧ r.code = code ∧ r.unit = unit ∧ r.args = args
      ∧ r.sev = sev ∧ r.action = (evInfo code).2 := by
  unfold State.record
  rw [if_pos hv]
  split
  extract_lets key sup j r full s1 s2 s3 s4 s5
  refine ⟨r, ?_, rfl, rfl, rfl, rfl, rfl⟩
  have h2 : Touch 0x200000 s1 s2 := ((wr_touch_in (k := 21) _ _ _ rfl).widen rfl).to (inc_touch_in (k := 21) _ _ rfl) rfl
  have h3 : Touch 0x200000 s2 s3 := Touch.ite
    (((((Touch.refl ..).to (inc_touch_in (k := 21) _ _ rfl) rfl).to (setF_touch_in (k := 21) _ _ _ rfl) rfl)).to
      (wr_touch_in (k := 21) _ _ _ rfl) rfl) ((Touch.refl ..).to (wr_touch_in (k := 21) _ _ _ rfl) rfl)
  have h4 : s4.board = s3.board := by
    change (if _ then _ else _ : State).board = _
    split <;> rfl
  have h5 : s5.board = s4.board := by
    change (if _ then _ else _ : State).board = _
    split <;> rfl
  rw [((copyToHost_touch ..).board rfl).1, h5, h4, (h3.board rfl).1, (h2.board rfl).1]
  exact List.getLast?_concat

theorem State.noted_event (s : State) (code unit : Nat) (args : List Nat) (status : Nat) (hv : s.pins.vsb = true) :
    Noted (s.event code unit args status) code unit args :=
  State.board_record s _ code unit args status 0 hv

end Sys2Proof.Machine

namespace Sys2Proof.Machine

open Sys2Proof

/-! ### The frame of a step -/

/-- Every command stays within its areas, by the footprint of its own meaning. -/
theorem exec_touch {c : Instr} {s t : State} (e : exec c s = .next t) : Touch (areas (areasOf c)) s t := by
  cases c with simp only [areasOf]
  | perstNRelease rep => exact (execPerstNRelease_touch rep s e).widen rfl
  | startWatchdogExpiry stepNo unit rep => exact (execStartWatchdogExpiry_touch stepNo unit rep s e).widen rfl
  | perstNAssert => exact (execPerstNAssert_touch s e).widen rfl
  | cxlLinkDown rep => exact (execCxlLinkDown_touch rep s e).widen rfl
  | pwrGoodLoss => exact (execPwrGoodLoss_touch s e).widen rfl
  | pwrGoodAssert => exact (execPwrGoodAssert_touch s e).widen rfl
  | stbyOkAssert => exact (execStbyOkAssert_touch s e).widen rfl
  | undervoltageLockout => exact (execUndervoltageLockout_touch s e).widen rfl
  | vsbLow => exact (execVsbLow_touch s e).widen rfl
  | refclkLost => exact (execRefclkLost_touch s e).widen rfl
  | refclkReturn => exact (execRefclkReturn_touch s e).widen rfl
  | fclkLost => exact (execFclkLost_touch s e).widen rfl
  | slotIdChanged slot => exact (execSlotIdChanged_touch slot s e).widen rfl
  | timerRecalibration => exact (execTimerRecalibration_touch s e).widen rfl
  | doorbellCueTail queue tail => exact (execDoorbellCueTail_touch queue tail s e).widen rfl
  | doorbellCplHead queue head => exact (execDoorbellCplHead_touch queue head s e).widen rfl
  | cueFetch => exact (execCueFetch_touch s e).widen rfl
  | cueIssue id => exact (execCueIssue_touch id s e).widen rfl
  | cueComplete op => exact (execCueComplete_touch op s e).widen rfl
  | completionRecordWrite queue => exact (execCompletionRecordWrite_touch queue s e).widen rfl
  | msixMessage vector => exact (execMsixMessage_touch vector s e).widen rfl
  | msixUnmask vector => exact (execMsixUnmask_touch vector s e).widen rfl
  | badAccess offset width write newPeriod => exact (execBadAccess_touch offset width write newPeriod s e).widen rfl
  | hostMemAccess hpa len write bytes ups => exact (execHostMemAccess_touch hpa len write bytes ups s e).widen rfl
  | hdmDecoderCommit decoder base size ways => exact (execHdmDecoderCommit_touch decoder base size ways s e).widen rfl
  | d3hotRequest => exact (execD3hotRequest_touch s e).widen rfl
  | atsInvalidation page => exact (execAtsInvalidation_touch page s e).widen rfl
  | doeDiscovery index => exact (execDoeDiscovery_touch index s e).widen rfl
  | cdatRead entry => exact (execCdatRead_touch entry s e).widen rfl
  | doeAbort => exact (execDoeAbort_touch s e).widen rfl
  | ideIntegrityFailure => exact (execIdeIntegrityFailure_touch s e).widen rfl
  | farRequestError addr use who => exact (execFarRequestError_touch addr use who s e).widen rfl
  | farRequestTimeout addr use who => exact (execFarRequestTimeout_touch addr use who s e).widen rfl
  | product op engines => exact (execProduct_touch op engines s e).widen rfl
  | fillRaw op engine => exact (execFillRaw_touch op engine s e).widen rfl
  | fillBernoulli op engine => exact (execFillBernoulli_touch op engine s e).widen rfl
  | fillNormal op engine => exact (execFillNormal_touch op engine s e).widen rfl
  | fillCategorical op engine => exact (execFillCategorical_touch op engine s e).widen rfl
  | move op mover => exact (execMove_touch op mover s e).widen rfl
  | collectiveAllreduce op exps => exact (execCollectiveAllreduce_touch op exps s e).widen rfl
  | collectiveBroadcast op => exact (execCollectiveBroadcast_touch op s e).widen rfl
  | collectiveMax op => exact (execCollectiveMax_touch op s e).widen rfl
  | collectiveDigest op => exact (execCollectiveDigest_touch op s e).widen rfl
  | collectiveXor op => exact (execCollectiveXor_touch op s e).widen rfl
  | collectiveSend op => exact (execCollectiveSend_touch op s e).widen rfl
  | collectiveRecv op => exact (execCollectiveRecv_touch op s e).widen rfl
  | updateAdamw op unit => exact (execUpdateAdamw_touch op unit s e).widen rfl
  | updateSgd op unit => exact (execUpdateSgd_touch op unit s e).widen rfl
  | updateCyleyAdamw op unit => exact (execUpdateCyleyAdamw_touch op unit s e).widen rfl
  | data op => exact (execData_touch op s e).widen rfl
  | join op => exact (execJoin_touch op s e).widen rfl
  | loss op => exact (execLoss_touch op s e).widen rfl
  | metric op => exact (execMetric_touch op s e).widen rfl
  | jobLoad op peers => exact (execJobLoad_touch op peers s e).widen rfl
  | jobStart op => exact (execJobStart_touch op s e).widen rfl
  | jobStop op => exact (execJobStop_touch op s e).widen rfl
  | jobUnload op => exact (execJobUnload_touch op s e).widen rfl
  | recipe op => exact (execRecipe_touch op s e).widen rfl
  | param op => exact (execParam_touch op s e).widen rfl
  | matinee op => exact (execMatinee_touch op s e).widen rfl
  | cancelAhead op => exact (execCancelAhead_touch op s e).widen rfl
  | attemptOpen slot => exact (execAttemptOpen_touch slot s e).widen rfl
  | rotationKeyLoad epoch => exact (execRotationKeyLoad_touch epoch s e).widen rfl
  | microBatchBoundary slot mb => exact (execMicroBatchBoundary_touch slot mb s e).widen rfl
  | curtain slot peers => exact (execCurtain_touch slot peers s e).widen rfl
  | maxAttemptsReached slot => exact (execMaxAttemptsReached_touch slot s e).widen rfl
  | commit slot => exact (execCommit_touch slot s e).widen rfl
  | forcedInterval slot pending failed => exact (execForcedInterval_touch slot pending failed s e).widen rfl
  | intervalStop slot peers => exact (execIntervalStop_touch slot peers s e).widen rfl
  | snapshotSeal slot => exact (execSnapshotSeal_touch slot s e).widen rfl
  | drainComplete slot => exact (execDrainComplete_touch slot s e).widen rfl
  | drainGivenUp slot => exact (execDrainGivenUp_touch slot s e).widen rfl
  | exportComplete slot => exact (execExportComplete_touch slot s e).widen rfl
  | matineeRebuildRestart slot => exact (execMatineeRebuildRestart_touch slot s e).widen rfl
  | passStart engine set meet => exact (execPassStart_touch engine set meet s e).widen rfl
  | tileDrain engine set => exact (execTileDrain_touch engine set s e).widen rfl
  | secondDrain engine set => exact (execSecondDrain_touch engine set s e).widen rfl
  | a64Overflow engine set => exact (execA64Overflow_touch engine set s e).widen rfl
  | engineWatchdog engine => exact (execEngineWatchdog_touch engine s e).widen rfl
  | testCapture engine => exact (execTestCapture_touch engine s e).widen rfl
  | faultCheckRun tile engine => exact (execFaultCheckRun_touch tile engine s e).widen rfl
  | faultCheckCompare tile => exact (execFaultCheckCompare_touch tile s e).widen rfl
  | faultVerdict tile => exact (execFaultVerdict_touch tile s e).widen rfl
  | damageCheck tile => exact (execDamageCheck_touch tile s e).widen rfl
  | silenceReached slot tensor => exact (execSilenceReached_touch slot tensor s e).widen rfl
  | bankRead who addr len ups => exact (execBankRead_touch who addr len ups s e).widen rfl
  | bankWrite who line cells => exact (execBankWrite_touch who line cells s e).widen rfl
  | addW32 who addr v want ups => exact (execAddW32_touch who addr v want ups s e).widen rfl
  | addW64 who addr v want ups => exact (execAddW64_touch who addr v want ups s e).widen rfl
  | addI32 who addr v ups => exact (execAddI32_touch who addr v ups s e).widen rfl
  | addA64 who hdr addr info elems ups => exact (execAddA64_touch who hdr addr info elems ups s e).widen rfl
  | addF32 who addr v ups => exact (execAddF32_touch who addr v ups s e).widen rfl
  | swap32 who addr v ups => exact (execSwap32_touch who addr v ups s e).widen rfl
  | swap64 who addr v ups => exact (execSwap64_touch who addr v ups s e).widen rfl
  | bankOwnerWrite bank port kind index => exact (execBankOwnerWrite_touch bank port kind index s e).widen rfl
  | handoverComplete bank port => exact (execHandoverComplete_touch bank port s e).widen rfl
  | bankPowerRequest bank req => exact (execBankPowerRequest_touch bank req s e).widen rfl
  | bankPowerStateEntry bank => exact (execBankPowerStateEntry_touch bank s e).widen rfl
  | bankPatrolScrub bank ups => exact (execBankPatrolScrub_touch bank ups s e).widen rfl
  | degradedEngineMove engine => exact (execDegradedEngineMove_touch engine s e).widen rfl
  | hbmAccess who addr len write bytes ups die => exact (execHbmAccess_touch who addr len write bytes ups die s e).widen rfl
  | hbmPatrolScrub addr symbols => exact (execHbmPatrolScrub_touch addr symbols s e).widen rfl
  | ddrPatrolScrub addr devices => exact (execDdrPatrolScrub_touch addr devices s e).widen rfl
  | healthRecordWrite => exact (execHealthRecordWrite_touch s e).widen rfl
  | hbmTempSample stack temp => exact (execHbmTempSample_touch stack temp s e).widen rfl
  | thermalLevelFall dimm index => exact (execThermalLevelFall_touch dimm index s e).widen rfl
  | dimmTempSample channel temp => exact (execDimmTempSample_touch channel temp s e).widen rfl
  | slowNoticeSend => exact (execSlowNoticeSend_touch s e).widen rfl
  | trainingFrameReceived port lane signal inverted word eye =>
    exact (execTrainingFrameReceived_touch port lane signal inverted word eye s e).widen rfl
  | trainingTimeout port => exact (execTrainingTimeout_touch port s e).widen rfl
  | fecFrameReceived port errs => exact (execFecFrameReceived_touch port errs s e).widen rfl
  | flitTransmit port => exact (execFlitTransmit_touch port s e).widen rfl
  | dataFlitReceived port flit late => exact (execDataFlitReceived_touch port flit late s e).widen rfl
  | idleFlitReceived port flit late => exact (execIdleFlitReceived_touch port flit late s e).widen rfl
  | initFlitSend port => exact (execInitFlitSend_touch port s e).widen rfl
  | initFlitReceived port flit late => exact (execInitFlitReceived_touch port flit late s e).widen rfl
  | initTimeout port => exact (execInitTimeout_touch port s e).widen rfl
  | linkFlitReceived port flit late => exact (execLinkFlitReceived_touch port flit late s e).widen rfl
  | replayTimeout port => exact (execReplayTimeout_touch port s e).widen rfl
  | errorRateWindow port => exact (execErrorRateWindow_touch port s e).widen rfl
  | retrainTimeout port => exact (execRetrainTimeout_touch port s e).widen rfl
  | portEnable port => exact (execPortEnable_touch port s e).widen rfl
  | portDisable port => exact (execPortDisable_touch port s e).widen rfl
  | portFullTrain port => exact (execPortFullTrain_touch port s e).widen rfl
  | portRetrain port => exact (execPortRetrain_touch port s e).widen rfl
  | txnSend port vc => exact (execTxnSend_touch port vc s e).widen rfl
  | txnPut port vc => exact (execTxnPut_touch port vc s e).widen rfl
  | txnGet port vc => exact (execTxnGet_touch port vc s e).widen rfl
  | txnGetResponse port vc => exact (execTxnGetResponse_touch port vc s e).widen rfl
  | txnAtomicAddI32 port => exact (execTxnAtomicAddI32_touch port s e).widen rfl
  | txnAtomicAddA64 port => exact (execTxnAtomicAddA64_touch port s e).widen rfl
  | txnCollectiveStep port => exact (execTxnCollectiveStep_touch port s e).widen rfl
  | txnFence port => exact (execTxnFence_touch port s e).widen rfl
  | txnFenceResponse port => exact (execTxnFenceResponse_touch port s e).widen rfl
  | txnForward port vc => exact (execTxnForward_touch port vc s e).widen rfl
  | txnTimeout port tag => exact (execTxnTimeout_touch port tag s e).widen rfl
  | helloSend port => exact (execHelloSend_touch port s e).widen rfl
  | helloReceived port => exact (execHelloReceived_touch port s e).widen rfl
  | quarantineHello port => exact (execQuarantineHello_touch port s e).widen rfl
  | helloExchangeTimeout port => exact (execHelloExchangeTimeout_touch port s e).widen rfl
  | pulseSend port => exact (execPulseSend_touch port s e).widen rfl
  | pulseReceived port => exact (execPulseReceived_touch port s e).widen rfl
  | missedPulse port => exact (execMissedPulse_touch port s e).widen rfl
  | neighbourSuspect port => exact (execNeighbourSuspect_touch port s e).widen rfl
  | noticeSlow port => exact (execNoticeSlow_touch port s e).widen rfl
  | noticeClear port => exact (execNoticeClear_touch port s e).widen rfl
  | slowStretchExpiry port => exact (execSlowStretchExpiry_touch port s e).widen rfl
  | noticeCancel port => exact (execNoticeCancel_touch port s e).widen rfl
  | noticeSelfFailed port => exact (execNoticeSelfFailed_touch port s e).widen rfl
  | noticeQuery port => exact (execNoticeQuery_touch port s e).widen rfl
  | noticeReport port => exact (execNoticeReport_touch port s e).widen rfl
  | noticeFailed port => exact (execNoticeFailed_touch port s e).widen rfl
  | confirmTimeout port => exact (execConfirmTimeout_touch port s e).widen rfl
  | castForm => exact (execCastForm_touch s e).widen rfl
  | castDissolve => exact (execCastDissolve_touch s e).widen rfl
  | understudyBookRead => exact (execUnderstudyBookRead_touch s e).widen rfl
  | fillBarrier failed => exact (execFillBarrier_touch failed s e).widen rfl
  | understudyWaitExpiry => exact (execUnderstudyWaitExpiry_touch s e).widen rfl
  | fillSeal => exact (execFillSeal_touch s e).widen rfl
  | rehearsalBarrier failed => exact (execRehearsalBarrier_touch failed s e).widen rfl
  | replicaVote values => exact (execReplicaVote_touch values s e).widen rfl
  | voteTimeout => exact (execVoteTimeout_touch s e).widen rfl
  | getEvidence path => exact (execGetEvidence_touch path s e).widen rfl
  | getCerts path => exact (execGetCerts_touch path s e).widen rfl
  | readLedger path => exact (execReadLedger_touch path s e).widen rfl
  | clearLedger path => exact (execClearLedger_touch path s e).widen rfl
  | readHealth path => exact (execReadHealth_touch path s e).widen rfl
  | imageUpdate path => exact (execImageUpdate_touch path s e).widen rfl
  | loadIdeKeys path => exact (execLoadIdeKeys_touch path s e).widen rfl
  | loadExportSecret path => exact (execLoadExportSecret_touch path s e).widen rfl
  | assumePosition path => exact (execAssumePosition_touch path s e).widen rfl
  | testPackage path runs => exact (execTestPackage_touch path runs s e).widen rfl
  | patternTimeout unit => exact (execPatternTimeout_touch unit s e).widen rfl
  | testResult path => exact (execTestResult_touch path s e).widen rfl
  | keyFuse path => exact (execKeyFuse_touch path s e).widen rfl
  | readLog path => exact (execReadLog_touch path s e).widen rfl
  | entdaa addr => exact (execEntdaa_touch addr s e).widen rfl
  | setEndpointId eid => exact (execSetEndpointId_touch eid s e).widen rfl
  | getEndpointId => exact (execGetEndpointId_touch s e).widen rfl
  | getMctpVersionSupport => exact (execGetMctpVersionSupport_touch s e).widen rfl
  | getMessageTypeSupport => exact (execGetMessageTypeSupport_touch s e).widen rfl
  | getVendorDefinedMessageSupport => exact (execGetVendorDefinedMessageSupport_touch s e).widen rfl
  | getStatus tag => exact (execGetStatus_touch tag s e).widen rfl
  | readReg tag offset width => exact (execReadReg_touch tag offset width s e).widen rfl
  | writeReg tag offset v => exact (execWriteReg_touch tag offset v s e).widen rfl
  | readUnits tag cls first count => exact (execReadUnits_touch tag cls first count s e).widen rfl
  | readEvents tag first count => exact (execReadEvents_touch tag first count s e).widen rfl
  | mctpAssemblyTimeout => exact (execMctpAssemblyTimeout_touch s e).widen rfl
  | unitFence via basis unit immediate => exact (execUnitFence_touch via basis unit immediate s e).widen rfl
  | unitUnfence via basis unit => exact (execUnitUnfence_touch via basis unit s e).widen rfl
  | unitTest via basis unit => exact (execUnitTest_touch via basis unit s e).widen rfl
  | unitEndTest via basis unit pass => exact (execUnitEndTest_touch via basis unit pass s e).widen rfl
  | unitOff via basis unit => exact (execUnitOff_touch via basis unit s e).widen rfl
  | unitOn via basis unit => exact (execUnitOn_touch via basis unit s e).widen rfl
  | pendingFenceApply unit => exact (execPendingFenceApply_touch unit s e).widen rfl
  | powerControlTick mv ma => exact (execPowerControlTick_touch mv ma s e).widen rfl
  | junctionTempSample readings => exact (execJunctionTempSample_touch readings s e).widen rfl
  | thermalTrip => exact (execThermalTrip_touch s e).widen rfl
  | vinOutOfRange mv => exact (execVinOutOfRange_touch mv s e).widen rfl
  | telemetryUpdate vcore beat => exact (execTelemetryUpdate_touch vcore beat s e).widen rfl
  | mcWatchdog => exact (execMcWatchdog_touch s e).widen rfl
  | hostRingHeadWrite head => exact (execHostRingHeadWrite_touch head s e).widen rfl
  | queCmdEnable queue => exact (execQueCmdEnable_touch queue s e).widen rfl
  | queCmdDisable queue => exact (execQueCmdDisable_touch queue s e).widen rfl
  | queCmdReset queue => exact (execQueCmdReset_touch queue s e).widen rfl
  | biasToDevice tier pages first => exact (execBiasToDevice_touch tier pages first s e).widen rfl
  | biasToHost tier pages first => exact (execBiasToHost_touch tier pages first s e).widen rfl
  | countClear engine => exact (execCountClear_touch engine s e).widen rfl
  | drainClear engine => exact (execDrainClear_touch engine s e).widen rfl
  | numClear => exact (execNumClear_touch s e).widen rfl
  | rngClear => exact (execRngClear_touch s e).widen rfl
  | queClear => exact (execQueClear_touch s e).widen rfl
  | bnkClear => exact (execBnkClear_touch s e).widen rfl
  | memClear => exact (execMemClear_touch s e).widen rfl
  | portClear port => exact (execPortClear_touch port s e).widen rfl
  | fabClear => exact (execFabClear_touch s e).widen rfl
  | ckpClear => exact (execCkpClear_touch s e).widen rfl
  | fovClear => exact (execFovClear_touch s e).widen rfl
  | unitClear => exact (execUnitClear_touch s e).widen rfl
  | mgtClear => exact (execMgtClear_touch s e).widen rfl
  | evtClear => exact (execEvtClear_touch s e).widen rfl
  | registerWrite offset width v => exact (execRegisterWrite_touch offset width v s e).widen rfl
  | laneSignalLoss port lane => exact (execLaneSignalLoss_touch port lane s e).widen rfl
  | ddrAccess who addr len write bytes ups => exact (execDdrAccess_touch who addr len write bytes ups s e).widen rfl
  | bankPowerUpDone bank => exact (execBankPowerUpDone_touch bank s e).widen rfl
  | biasCommandComplete => exact (execBiasCommandComplete_touch s e).widen rfl
  | engineSelfTestDone engine pass => exact (execEngineSelfTestDone_touch engine pass s e).widen rfl
  | stbyOkDeassert => exact (execStbyOkDeassert_touch s e).widen rfl
  | vsbComesUp => exact (execVsbComesUp_touch s e).widen rfl
  | perstNConditionsMet rep => exact (execPerstNConditionsMet_touch rep s e).widen rfl
  | jtagTapInstruction code => exact (execJtagTapInstruction_touch code s e).widen rfl
  | cxlCacheSnoop addr => exact (execCxlCacheSnoop_touch addr s e).widen rfl

/-- Soundness does not speak of the waiting commands. -/
theorem State.Sound.pending {s : State} (h : s.Sound) (l : List Instr) : ({ s with pending := l } : State).Sound :=
  ⟨h.mem, h.regs, h.board⟩

theorem step_cons (s : State) (c : Instr) (rest : List Instr) :
    step { s with pending := c :: rest } = exec c { s with pending := rest } := rfl

theorem step_nil {s : State} (h : s.pending = []) : step s = .next s := by
  rw [step, h]

/-- Settles O1: the two arms of `step`. -/
theorem stepRunsTheFrontCommand : Obligations.StepRunsTheFrontCommand :=
  ⟨step_cons, fun _ => step_nil⟩

/-- Settles O2: nothing is listed at reset, so every register and byte reads its reset value. -/
theorem resetLeavesTheStatedValues : Obligations.ResetLeavesTheStatedValues :=
  ⟨fun _ => rfl, fun _ => rfl, rfl, rfl, by decide +kernel⟩

/-- Settles O3: memory, registers and board are empty. -/
theorem resetIsSound : Obligations.ResetIsSound :=
  ⟨rfl, rfl, Nat.zero_le _⟩

/-- Settles O4: an empty queue leaves the state, and a command's footprint keeps what is sound. -/
theorem stepsKeepSoundness : Obligations.StepsKeepSoundness := by
  intro s t hs e
  cases hp : s.pending with
  | nil =>
    rw [step_nil hp] at e
    cases e
    exact hs
  | cons c rest =>
    have e' : exec c { s with pending := rest } = .next t := by
      rw [← e, step, hp]
    exact (exec_touch e').sound (hs.pending rest)

end Sys2Proof.Machine

namespace Sys2Proof.Machine

open Sys2Proof

/-! ### The frame of a command -/

/-- A command whose operands are taken carries out its meaning on the quiet state. -/
theorem run_next {ok : Bool} (f : State → State) (s : State) (h : ok = true) :
    run ok f s = .next { f s.quiet with pending := s.pending } := by
  rw [run, if_pos h]

/-- The same, with what the meaning makes of the quiet state. -/
theorem run_to {ok : Bool} {f : State → State} {s u : State} (h : ok = true) (e : f s.quiet = u) (hu : u.pending = s.pending) :
    run ok f s = .next u := by
  rw [run_next f s h, e, ← hu]

/-! ### The register map -/

theorem findIn_range {x : Nat} {l : List RegDesc} {r : RegDesc} (h : findIn x l = some r) : r.off ≤ x ∧ x < r.off + r.width / 8 := by
  induction l with
  | nil => simp [findIn] at h
  | cons a l ih =>
    unfold findIn at h
    split at h
    · next hx => cases h; exact hx
    · exact ih h

/-- A register covers the offsets from its own on, as far as it is wide. -/
theorem findReg_range {off : Nat} {l : List Block} {r : RegDesc} {o k : Nat} (h : findReg off l = some (r, o, k)) :
    o ≤ off ∧ off < o + r.width / 8 := by
  induction l with
  | nil => simp [findReg] at h
  | cons b l ih =>
    unfold findReg at h
    split at h
    · next hb =>
      dsimp only at h
      split at h
      · next r' hr =>
        cases h
        have hi := Nat.div_mul_le_self (off - b.base) b.stride
        have hx := findIn_range hr
        omega
      · exact ih h
    · exact ih h

theorem bar0_widths : (bar0.all fun b => b.regs.all fun r => decide (r.width ≤ 64)) = true := by decide +kernel

theorem findReg_width {off : Nat} {r : RegDesc} {o k : Nat} (h : findReg off bar0 = some (r, o, k)) : r.width ≤ 64 := by
  obtain ⟨b, hb, hr⟩ := findReg_mem h
  exact of_decide_eq_true (List.all_eq_true.1 (List.all_eq_true.1 bar0_widths b hb) r hr)

theorem recordRegs_readOnly : (recordRegs.all fun o => (List.range 8).all fun d =>
    (findReg (o + d) bar0).all fun x => x.2.1 != o || x.1.writable == 0) = true := by decide +kernel

/-- No write sets a bit of a register that records change. -/
theorem not_mem_recordRegs {off : Nat} {r : RegDesc} {o k : Nat} (h : findReg off bar0 = some (r, o, k)) (hw : r.writable ≠ 0) :
    o ∉ recordRegs := by
  intro ho
  have hr := findReg_range h
  have hwd := findReg_width h
  have hd := List.all_eq_true.1 (List.all_eq_true.1 recordRegs_readOnly o ho) (off - o) (List.mem_range.2 (by omega))
  rw [Nat.add_sub_cancel' hr.1, h] at hd
  simp [hw] at hd

/-! ### Register writes -/

section
variable {s : State} {off width v : Nat}

theorem exec_registerWrite (ho : off < 2 ^ 26) (hv : v < 2 ^ 64) :
    exec (.registerWrite off width v) s = .next { s.quiet.regWrite off width v Src.host with pending := s.pending } :=
  run_next (fun s => s.regWrite off width v Src.host) s (by rw [decide_eq_true ho, decide_eq_true hv]; rfl)

/-- Before S11 only DEV and SEC are served (R478). -/
theorem State.open0_of_not_served (h : s.served = false) (hd : 0x10000 ≤ off) (hs : ¬(0x500000 ≤ off ∧ off < 0x600000)) :
    s.open0 off = false := by
  simp only [State.open0, h, Bool.false_or, Bool.or_eq_false_iff, decide_eq_false_iff_not, Bool.and_eq_false_iff]
  omega

theorem State.regWrite_closed (path : Nat) (h : s.open0 off = false) : s.regWrite off width v path = s := by
  rw [State.regWrite, if_pos (.inr (by rw [h]; rfl))]

theorem State.regWrite_misaligned (path : Nat) (h : ¬((width = 4 ∨ width = 8) ∧ off % width = 0)) :
    s.regWrite off width v path = s := by
  have h' : ((width == 4 || width == 8) && off % width == 0) = false :=
    Bool.eq_false_iff.2 fun e => h (by simpa using e)
  rw [State.regWrite, if_pos (.inl (by rw [h']; rfl))]

/-- A write that covers no more than one register is one write of that register. -/
theorem State.regWrite_one (path : Nat) {r : RegDesc} {o k : Nat} (hs : s.served = true) (hr : findReg off bar0 = some (r, o, k))
    (hw : width = 4 ∨ (width = 8 ∧ r.width = 64)) (ha : off % width = 0) :
    s.regWrite off width v path = s.writePart off width v path := by
  have hopen : s.open0 off = true := by simp [State.open0, hs]
  have hwidth : (width == 4 || width == 8) = true := by simpa using hw.imp_right (·.1)
  rw [State.regWrite, if_neg (by simp [hopen, hwidth, ha])]
  simp only [hr]
  rw [if_pos (hw.imp_right fun h => by simp [h.2])]

theorem State.writePart_control (n path : Nat) {r : RegDesc} {o k : Nat} (hr : findReg off bar0 = some (r, o, k))
    (hc : r.isCommand = false) :
    s.writePart off n v path = s.setControl r o (ones (8 * n) <<< (8 * (off - o))) ((v % 2 ^ (8 * n)) <<< (8 * (off - o))) off
      (v % 2 ^ (8 * n)) path := by
  simp [State.writePart, hr, hc]

theorem State.setControl_untouched (r : RegDesc) (o cov a raw path : Nat) (h : cov &&& r.writable = 0) :
    s.setControl r o cov v a raw path = s := by
  rw [State.setControl, if_pos h]

/-- Whether a register has a rule of its own depends on its place alone. -/
theorem State.ownRule_none {o a raw : Nat} (h : s.ownRule o v a raw = none) (t : State) : t.ownRule o v a raw = none := by
  unfold State.ownRule at h ⊢
  dsimp only at h ⊢
  by_cases h1 : 0x300000 ≤ o ∧ o < 0x330000 ∧ o % 0x40 < 8
  · rw [if_pos h1] at h; cases h
  by_cases h2 : 0x300000 ≤ o ∧ o < 0x330000 ∧ o % 0x40 = 8
  · rw [if_neg h1, if_pos h2] at h; cases h
  by_cases h3 : o = Reg.hostRingHead
  · rw [if_neg h1, if_neg h2, if_pos h3] at h; cases h
  rw [if_neg h1, if_neg h2, if_neg h3] at h ⊢
  cases hm : windowIndex 0x800C 16 2048 o with
  | some vec => rw [hm] at h; cases h
  | none =>
    cases hp : windowIndex 0x100008 0x10000 6 o with
    | some p => rw [hm, hp] at h; cases h
    | none => rfl

/-- Nothing follows the new value of a register that the device does not answer. -/
theorem State.regWritten_silent {o : Nat} (old path : Nat) (h : o ∉ [0x160008, 0x160010, 0x16001C, 0x160020, 0x600008]) :
    s.regWritten o old path = s := by
  simp only [List.mem_cons, not_or] at h
  obtain ⟨h1, h2, -, h3, h4, -⟩ := h
  have h4' : o ≠ Reg.limitW.off := h4
  rw [State.regWritten, if_neg (by simp [h1, h2, h3]), if_neg h4']

/-- A register without a rule of its own takes the value where nothing forbids it (R574). -/
theorem State.setControl_written {r : RegDesc} {o cov a raw : Nat} (path : Nat) (h : cov &&& r.writable ≠ 0)
    (hown : s.ownRule o (mergeBits (cov &&& r.writable) (s.rd o) v) a raw = none)
    (hsil : o ∉ [0x160008, 0x160010, 0x16001C, 0x160020, 0x600008])
    (hf : s.writeFault r o cov (mergeBits (cov &&& r.writable) (s.rd o) v) = none) :
    s.setControl r o cov v a raw path = s.wr o (mergeBits (cov &&& r.writable) (s.rd o) v) := by
  have hcoord : o ≠ Reg.fabCoord.off := fun e => hsil (by rw [e]; decide)
  have hcast : o ≠ 0x16001C := fun e => hsil (by rw [e]; decide)
  simp only [State.setControl, if_neg h, if_neg hcoord, hown, hf, if_neg hcast, State.regWritten_silent _ _ hsil]

/-- Or else discards the write, with its one record. -/
theorem State.setControl_discarded {r : RegDesc} {o cov a raw n : Nat} (path : Nat) (h : cov &&& r.writable ≠ 0)
    (hown : s.ownRule o (mergeBits (cov &&& r.writable) (s.rd o) v) a raw = none)
    (hsil : o ∉ [0x160008, 0x160010, 0x16001C, 0x160020, 0x600008])
    (hf : s.writeFault r o cov (mergeBits (cov &&& r.writable) (s.rd o) v) = some n) :
    s.setControl r o cov v a raw path = s.discardWrite a raw n := by
  have hcoord : o ≠ Reg.fabCoord.off := fun e => hsil (by rw [e]; decide)
  simp only [State.setControl, if_neg h, if_neg hcoord, hown, hf]

/-- A write of a register changes that one only. -/
theorem onlyRegs_wr (s : State) (o v : Nat) : OnlyRegs (fun x => x = o) s { s.quiet.wr o v with pending := s.pending } :=
  ⟨by simp only [State.wr_eq], fun _ hx => State.rd_wr_other s.quiet v (Ne.symm hx)⟩

theorem findReg_unitCmd : findReg Reg.unitCmd bar0 = some (r64 0x008 [wo 63 32, wo 31 28, wo 27 27, wo 15 0], Reg.unitCmd, 0) := by
  decide +kernel

theorem State.command_unitCmd (a raw : Nat) :
    s.command Reg.unitCmd v a raw = s.unitRow (bits 31 28 v) (bits 63 32 v) (bits 15 0 v) .host (bits 27 27 v == 1) := by
  rw [State.command, if_neg (by decide), if_neg (by decide), if_pos rfl]

/-- UNIT_CMD written whole is its request (R540). -/
theorem State.regWrite_unitCmd (path : Nat) (hs : s.served = true) (hv : v < 2 ^ 64) :
    s.regWrite Reg.unitCmd 8 v path = s.unitRow (bits 31 28 v) (bits 63 32 v) (bits 15 0 v) .host (bits 27 27 v == 1) := by
  rw [State.regWrite_one path hs findReg_unitCmd (.inr ⟨rfl, rfl⟩) (by decide), State.writePart]
  simp only [findReg_unitCmd]
  rw [if_pos (by decide), State.command_unitCmd, Nat.sub_self, Nat.mul_zero, Nat.shiftLeft_zero, Nat.mod_eq_of_lt hv]

end

/-- What the write of a plain register comes to, once its width and place are good. -/
theorem exec_registerWrite_control {s : State} {off width v : Nat} {r : RegDesc} {o k : Nat} (ho : off < 2 ^ 26) (hv : v < 2 ^ 64)
    (hs : s.served = true) (hr : findReg off bar0 = some (r, o, k)) (hc : r.isCommand = false)
    (hw : width = 4 ∨ (width = 8 ∧ r.width = 64)) (ha : off % width = 0) :
    exec (.registerWrite off width v) s = .next
      { s.quiet.setControl r o (ones (8 * width) <<< (8 * (off - o))) ((v % 2 ^ (8 * width)) <<< (8 * (off - o))) off
          (v % 2 ^ (8 * width)) Src.host with pending := s.pending } := by
  rw [exec_registerWrite ho hv, State.regWrite_one (s := s.quiet) _ hs hr hw ha, State.writePart_control _ _ hr hc]

/-- Settles O57: a write is dropped, is one write of a plain register, or is UNIT_CMD's request. -/
theorem registerWritesAreWholeOrNot : Obligations.RegisterWritesAreWholeOrNot := by
  intro s off width v ho hv
  refine ⟨fun hs hd hsec => ?_, fun hw => ?_, fun r o k hs hr hc hw ha => ?_, fun hs hop => ?_⟩
  · rw [exec_registerWrite ho hv, State.regWrite_closed _ (State.open0_of_not_served (s := s.quiet) hs hd hsec)]
  · rw [exec_registerWrite ho hv, State.regWrite_misaligned _ hw]
  · have he := exec_registerWrite_control ho hv hs hr hc hw ha
    intro cov val new
    refine ⟨fun hcov => ?_, fun hcov hown hsil => ?_⟩
    · rw [he, State.setControl_untouched _ _ _ _ _ _ hcov]
    · have hown' : s.quiet.ownRule o new off (v % 2 ^ (8 * width)) = none := State.ownRule_none hown _
      rw [he]
      refine ⟨fun hf => ?_, fun n hf => ?_⟩
      · rw [State.setControl_written (s := s.quiet) _ hcov hown' hsil hf]
        exact ⟨_, rfl, onlyRegs_wr s o new, State.rd_wr_same s.quiet o new, State.wr_out ..⟩
      · rw [State.setControl_discarded (s := s.quiet) _ hcov hown' hsil hf]
        have hfree : o ∉ recordRegs := not_mem_recordRegs hr fun e => hcov (by rw [e, Nat.and_zero])
        exact ⟨_, rfl, State.rd_event hfree .., fun hp => State.noted_event s.quiet _ _ _ _ hp⟩
  · rw [exec_registerWrite (by decide) hv, State.regWrite_unitCmd (s := s.quiet) _ hs hv, hop]
    exact (run_next (fun s => s.unitRow 1 (bits 63 32 v) (bits 15 0 v) .host (bits 27 27 v == 1)) s (by
      rw [unitOk, decide_eq_true (bits_lt ..), decide_eq_true (bits_lt ..)]; rfl)).symm

end Sys2Proof.Machine

namespace Sys2Proof.Machine

open Sys2Proof

/-! ### Ports -/

theorem State.port_setPort (s : State) (p : Nat) (x : Port) (q : Nat) :
    (s.setPort p x).port q = if p = q then x else s.port q :=
  SMap.get_set ..

theorem State.port_modPort (s : State) (p : Nat) (f : Port → Port) (q : Nat) :
    (s.modPort p f).port q = if p = q then f (s.port q) else s.port q := by
  rw [State.modPort, State.port_setPort]
  split
  · next h => rw [h]
  · rfl

theorem State.port_modPort_same (s : State) (p : Nat) (f : Port → Port) : (s.modPort p f).port p = f (s.port p) := by
  rw [State.port_modPort, if_pos rfl]

theorem State.port_modPort_other (s : State) {p q : Nat} (f : Port → Port) (h : p ≠ q) : (s.modPort p f).port q = s.port q := by
  rw [State.port_modPort, if_neg h]

/-- A change of a port's link state that keeps its waiting requests keeps those of every port. -/
theorem State.outstanding_modPort (s : State) (p : Nat) (f : Port → Port) (q : Nat) (h : ∀ x, (f x).outstanding = x.outstanding) :
    ((s.modPort p f).port q).outstanding = (s.port q).outstanding := by
  rw [State.port_modPort]
  split
  · exact h _
  · rfl

theorem State.port_congr {s t : State} (h : t.ports = s.ports) (q : Nat) : t.port q = s.port q := by
  rw [State.port, h, State.port]

/-- What changes no register at all leaves every register. -/
theorem Touch.rd_of_lt {M : Nat} {s t : State} (h : Touch M s t) (hM : M < 2 ^ 20) (off : Nat) : t.rd off = s.rd off :=
  h.regs off (Nat.testBit_lt_two_pow (lt_of_lt_of_le hM (Nat.pow_le_pow_right (by decide) (regArea_lt off).1)))

/-! ### The registers of a port -/

/-- No bit of these fields is reserved, in any port's window. -/
theorem portFields_held : ∀ p < 6, (Reg.txnRejected.plus (0x10000 * p)).held ∧ (Reg.forwarded.plus (0x10000 * p)).held
    ∧ (Reg.portNeighbour.plus (0x10000 * p)).held := by decide +kernel

section
variable {s : State} {p : Nat} {f : Fld}

theorem State.pf_setPf (v : Nat) (hp : p < 6) (hf : (f.plus (0x10000 * p)).held) :
    (s.setPf p f v).pf p f = v % 2 ^ (f.hi + 1 - f.lo) := by
  rw [State.setPf, if_pos hp]
  exact State.fld_setF s v hf

theorem State.pf_addPf (n : Nat) (hp : p < 6) (hf : (f.plus (0x10000 * p)).held) :
    (s.addPf p f n).pf p f = min (s.pf p f + n) (2 ^ (f.hi + 1 - f.lo) - 1) := by
  rw [State.addPf, if_pos hp]
  exact State.fld_addF s n hf

/-- A record changes no register of a port. -/
theorem State.pf_event (code unit : Nat) (args : List Nat) (status : Nat) (hp : p < 6) (hf : 0x100000 ≤ f.off ∧ f.off < 0x110000) :
    (s.event code unit args status).pf p f = s.pf p f := by
  refine State.fld_event s code unit args status fun h => ?_
  simp only [recordRegs, Fld.plus, List.mem_cons, List.not_mem_nil, or_false] at h
  omega

end

/-! ### Messages -/

theorem length_leBytes (k n : Nat) : (leBytes k n).length = k := by
  rw [leBytes, List.length_map, List.length_range]

theorem Txn.length_head (t : Txn) : t.head.length = 48 := by
  simp only [Txn.head, List.length_append, length_leBytes]

theorem State.port_sendMsg (s : State) (p vc : Nat) (t : Txn) (body : List Byte) :
    (s.sendMsg p vc t body).port p
      = { s.port p with outbox := (s.port p).outbox ++ cutMsg vc ((48 + body.length) / 240 + 1) true (t.head ++ body) } := by
  rw [State.sendMsg, State.port_modPort_same, List.length_append, Txn.length_head]

/-! What notices do not change of a port: the requests that wait for their answers -/

theorem State.outstanding_sendMsg (s : State) (p vc : Nat) (t : Txn) (body : List Byte) (q : Nat) :
    ((s.sendMsg p vc t body).port q).outstanding = (s.port q).outstanding :=
  State.outstanding_modPort _ _ _ _ (by intro; rfl)

theorem State.outstanding_newTag (s : State) (p q : Nat) : ((s.newTag p).2.port q).outstanding = (s.port q).outstanding :=
  State.outstanding_modPort s p (fun x => { x with nextTag := (x.nextTag + 1) % 65536 }) q fun _ => rfl

theorem State.outstanding_sendNotice (s : State) (p : Nat) (body : List Byte) (q : Nat) :
    ((s.sendNotice p body).port q).outstanding = (s.port q).outstanding :=
  (State.outstanding_sendMsg ..).trans (State.outstanding_newTag ..)

theorem State.outstanding_spread (s : State) (except : Option Nat) (body : List Byte) (q : Nat) :
    ((s.spread except body).port q).outstanding = (s.port q).outstanding := by
  unfold State.spread
  induction List.range 6 generalizing s with
  | nil => rfl
  | cons p ps ih =>
    rw [List.foldl_cons, ih]
    split
    · exact State.outstanding_sendNotice ..
    · rfl

theorem State.outstanding_flood (s : State) (kind cause subject epoch value q : Nat) :
    ((s.flood kind cause subject epoch value).port q).outstanding = (s.port q).outstanding :=
  State.outstanding_spread ..

theorem State.outstanding_startConfirm (s : State) (p q : Nat) : ((s.startConfirm p).port q).outstanding = (s.port q).outstanding := by
  unfold State.startConfirm
  split
  · next c _ =>
    refine Eq.trans (congrArg Port.outstanding (State.port_congr (s := s.flood nkQuery 0 c 0 0) ?_ q)) (State.outstanding_flood ..)
    exact State.inc_ports ..
  · rfl

theorem State.outstanding_report (s : State) (p value q : Nat) : ((s.report p value).port q).outstanding = (s.port q).outstanding := by
  unfold State.report
  split
  · split
    · exact State.outstanding_flood ..
    · rfl
  · rfl

theorem State.rd_startConfirm (s : State) (p : Nat) {off : Nat} (h : off ≠ Reg.queriesSent.off) :
    (s.startConfirm p).rd off = s.rd off := by
  unfold State.startConfirm
  split
  · exact (State.rd_inc_other _ h.symm).trans ((flood_touch ..).rd_of_lt (by decide) off)
  · rfl

theorem State.outstanding_suspect (s : State) (p q : Nat) : ((s.suspect p).port q).outstanding = (s.port q).outstanding := by
  unfold State.suspect
  split
  · rw [State.outstanding_report, State.outstanding_startConfirm, State.port_congr ((setPf_touch s p _ 2 (by decide)).ports rfl)]
  · rfl

/-- A message leaves the inbox; of the rest of a port only the slots it frees change. -/
theorem State.port_consume (s : State) (p : Nat) (m : Msg) :
    (s.consume p m).port p = { s.port p with
      inbox := (s.port p).inbox.erase m, freed := (s.port p).freed.set m.vc ((s.port p).freed.getD m.vc 0 + m.flits) } := by
  rw [State.consume, State.freeSlots, State.port_modPort_same, State.port_modPort_same]

theorem State.outstanding_forget (s : State) (p : Nat) (o : Outstanding) :
    ((s.forget p o).port p).outstanding = (s.port p).outstanding.erase o := by
  rw [State.forget, State.port_modPort_same]

/-- An acknowledgement of an operation that has met no failure counts down and gives it the status. -/
theorem State.ops_opAck {s : State} {i : Nat} {x : OpSlot} (status : Nat) (h : SMap.find s.ops i = some x) (hx : x.status = 0) :
    SMap.find (s.opAck i status).ops i = some { x with left := x.left - 1, status } := by
  unfold State.opAck
  rw [h]
  simp only [hx, if_true, SMap.find_put]

theorem State.outstanding_opAck (s : State) (i status q : Nat) : ((s.opAck i status).port q).outstanding = (s.port q).outstanding := by
  rw [State.port_congr ((opAck_touch s i status).ports rfl)]

/-- A request of use 0 for one operation ends as that operation's acknowledgement. -/
theorem State.requestOver_op (s : State) (q : Nat) {o : Outstanding} {i : Nat} (status : Nat) (hu : o.use = 0) (ho : o.ops = [i]) :
    s.requestOver q o status = s.opAck i status := by
  unfold State.requestOver
  rw [hu, ho]
  rfl

/-- A rejected transaction is counted; the requests that wait and the operations are as before. -/
theorem State.outstanding_rejectTxn (s : State) (p status tag q : Nat) :
    ((s.rejectTxn p status tag).port q).outstanding = (s.port q).outstanding := by
  have h : ((((s.countError p status tag 1).modPort p
      fun x => { x with rejectedStep := true }).addPf p Reg.txnRejected 1).port q).outstanding
      = (s.port q).outstanding := by
    rw [State.port_congr ((addPf_touch _ p _ 1 (by decide)).ports rfl)]
    exact (State.outstanding_modPort _ _ _ _ (by intro; rfl)).trans (State.outstanding_modPort _ _ _ _ (by intro; rfl))
  unfold State.rejectTxn
  dsimp only
  split
  · exact h
  · rw [State.port_congr ((event_touch ..).ports rfl), h]

theorem State.pf_rejectTxn (s : State) {p : Nat} (status tag : Nat) (hp : p < 6) :
    (s.rejectTxn p status tag).pf p Reg.txnRejected = min (s.pf p Reg.txnRejected + 1) (2 ^ 64 - 1) := by
  have h := State.pf_addPf (s := (s.countError p status tag 1).modPort p fun x => { x with rejectedStep := true }) 1 hp
    (portFields_held p hp).1
  unfold State.rejectTxn
  dsimp only
  split
  · exact h
  · rw [State.pf_event _ _ _ _ hp (by decide)]
    exact h

/-- A neighbour that was ALIVE is SUSPECT then (Table 10.16). -/
theorem State.pf_suspect {s : State} {p : Nat} (hp : p < 6) (h : s.pf p Reg.portNeighbour = 1) :
    (s.suspect p).pf p Reg.portNeighbour = 2 := by
  rw [State.suspect, if_pos h]
  have hs : (((s.setPf p Reg.portNeighbour 2).startConfirm p).report p 0xFFFFFFFF).pf p Reg.portNeighbour
      = (s.setPf p Reg.portNeighbour 2).pf p Reg.portNeighbour := by
    have hoff : (Reg.portNeighbour.plus (0x10000 * p)).off ≠ Reg.queriesSent.off := by
      simp only [Fld.plus, Reg.portNeighbour, Reg.queriesSent]
      omega
    rw [State.pf, State.fld, (report_touch ..).rd_of_lt (by decide), State.rd_startConfirm _ _ hoff, State.pf, State.fld]
  rw [hs, State.pf_setPf _ hp (portFields_held p hp).2.2]
  rfl

end Sys2Proof.Machine

namespace Sys2Proof.Machine

open Sys2Proof

/-! ### What the commands of a port come to (R356, R357, R360, R380) -/

/-- A FENCE leaves the inbox, and its port's report begins anew (R357). -/
def State.fenceTaken (s : State) (p : Nat) (m : Msg) : State :=
  (s.consume p m).modPort p fun x => { x with errors := 0, firstTag := 0, firstStatus := 0 }

section
variable {s : State} {p : Nat} {m : Msg}

theorem State.port_fenceTaken (s : State) (p : Nat) (m : Msg) : ((s.fenceTaken p m).port p).outbox = (s.port p).outbox
    ∧ ((s.fenceTaken p m).port p).inbox = (s.port p).inbox.erase m ∧ ((s.fenceTaken p m).port p).errors = 0 := by
  rw [State.fenceTaken, State.port_modPort_same, State.port_consume]
  exact ⟨rfl, rfl, rfl⟩

/-- A message sent stands at the end of what its port sends. -/
theorem State.queued_sendMsg {s u : State} {p : Nat} (vc : Nat) (t : Txn) (body : List Byte)
    (h : (u.port p).outbox = (s.port p).outbox) : s.queued (u.sendMsg p vc t body) p vc body :=
  ⟨t.head, t.length_head, by rw [State.port_sendMsg, h]⟩

theorem exec_txnFence (hp : p < 6) (hm : (s.port p).inbox.head? = some m) (ho : (txnOf m.bytes).opcode = opFence)
    (hr : (txnOf m.bytes).resp = false) (hf : (s.port p).fwd = []) :
    exec (.txnFence p) s = .next ((s.quiet.fenceTaken p m).sendMsg p 3
      { (s.quiet.fenceTaken p m).txn opFence (txnOf m.bytes).src with resp := true, bytes := 16, tag := (txnOf m.bytes).tag }
      (s.port p).report) := by
  have hm' : (s.quiet.port p).inbox.head? = some m := hm
  have hf' : (s.quiet.port p).fwd = [] := hf
  change execTxnFence p s = _
  unfold execTxnFence
  refine run_to (decide_eq_true hp) ?_ rfl
  simp only [hm', ho, hr, hf']
  rfl

theorem exec_txnFenceResponse_malformed (hp : p < 6) (hm : (s.port p).front 3 = some m) (ho : (txnOf m.bytes).opcode = opFence)
    (hr : (txnOf m.bytes).resp = true) (hb : formStatus m.body ≠ 0) :
    exec (.txnFenceResponse p) s = .next ((s.quiet.consume p m).rejectTxn p tsMalformed (txnOf m.bytes).tag) := by
  have hm' : (s.quiet.port p).front 3 = some m := hm
  change execTxnFenceResponse p s = _
  unfold execTxnFenceResponse
  refine run_to (decide_eq_true hp) ?_ (rejectTxn_touch ..).pending
  simp only [hm', ho, hr, ne_eq, not_true_eq_false, Bool.not_true, Bool.false_eq_true, or_self, if_false, if_pos hb]

/-- A FENCE of one operation is answered: the operation is acknowledged, with TORUS_ERROR where the report has errors. -/
theorem exec_txnFenceResponse_op {o : Outstanding} {i : Nat} (hp : p < 6) (hm : (s.port p).front 3 = some m)
    (ho : (txnOf m.bytes).opcode = opFence) (hr : (txnOf m.bytes).resp = true) (hb : formStatus m.body = 0)
    (hf : (s.port p).outstanding.find? (fun o => o.opcode == opFence && o.tag == (txnOf m.bytes).tag) = some o) (hu : o.use = 0)
    (hi : o.ops = [i]) :
    exec (.txnFenceResponse p) s
      = .next (((s.quiet.consume p m).forget p o).opAck i (if fieldLE m.body 8 4 = 0 then 0 else St.torusError)) := by
  have hm' : (s.quiet.port p).front 3 = some m := hm
  have hf' : ((s.quiet.consume p m).port p).outstanding.find? (fun o => o.opcode == opFence && o.tag == (txnOf m.bytes).tag) = some o := by
    rw [State.port_consume]
    exact hf
  change execTxnFenceResponse p s = _
  unfold execTxnFenceResponse
  refine run_to (decide_eq_true hp) ?_ (opAck_touch ..).pending
  simp only [hm', ho, hr, hb, hf', hu, ne_eq, not_true_eq_false, Bool.not_true, Bool.false_eq_true, or_self, if_false]
  rw [if_neg (by decide)]
  split
  · rw [hi]
    rfl
  · exact State.requestOver_op _ _ _ hu hi

theorem exec_txnTimeout_op {o : Outstanding} {i : Nat} (hp : p < 6)
    (hf : (s.port p).outstanding.find? (fun y => y.tag == o.tag) = some o) (hu : o.use = 0) (hi : o.ops = [i]) :
    exec (.txnTimeout p o.tag) s = .next (((s.quiet.forget p o).opAck i St.timeout).suspect p) := by
  have hf' : (s.quiet.port p).outstanding.find? (fun y => y.tag == o.tag) = some o := hf
  change execTxnTimeout p o.tag s = _
  unfold execTxnTimeout
  refine run_to (decide_eq_true hp) ?_ ((suspect_touch ..).pending.trans (opAck_touch ..).pending)
  simp only [hf']
  rw [State.requestOver_op _ _ _ hu hi]

/-- The payloads of a forwarded message, which hold its input slots (R380). -/
def forwardedPieces (p vc : Nat) (m : Msg) : List (Nat × Bool × Bool × Option Nat × List Byte) :=
  (cutMsg vc (m.bytes.length / 240 + 1) true m.bytes).zipIdx.map fun e =>
    (e.1.1, e.1.2.1, e.1.2.2.1, (if e.2 < m.flits then some p else none), e.1.2.2.2.2)

/-- A message goes on from port p to port q (R380). -/
def State.forwardTo (s : State) (p vc q : Nat) (m : Msg) : State :=
  (((s.modPort p fun x => { x with inbox := x.inbox.erase m }).modPort q fun x =>
      { x with outbox := x.outbox ++ forwardedPieces p vc m }).addPf q Reg.forwarded (ceilDiv m.bytes.length 240)).modPort p fun x =>
    if x.fwd.contains (q, none) then x else { x with fwd := x.fwd ++ [(q, none)] }

theorem exec_txnForward {vc q : Nat} (hp : p < 6) (hvc : vc < 6) (hm : (s.port p).front vc = some m)
    (hf : s.forwards vc (txnOf m.bytes).dst = true) (hq : s.hopTo (txnOf m.bytes).dst = some q) (hup : s.pst q = PS.up)
    (hn : s.pf q Reg.portNeighbour ≠ 3) :
    exec (.txnForward p vc) s = .next (s.quiet.forwardTo p vc q m) := by
  have hm' : (s.quiet.port p).front vc = some m := hm
  have hf' : s.quiet.forwards vc (txnOf m.bytes).dst = true := hf
  have hopen : (s.quiet.hopTo (txnOf m.bytes).dst).filter (fun q => s.quiet.pst q == PS.up && s.quiet.pf q Reg.portNeighbour != 3)
      = some q := by
    change (s.hopTo (txnOf m.bytes).dst).filter (fun q => s.pst q == PS.up && s.pf q Reg.portNeighbour != 3) = some q
    rw [hq, Option.filter_some, if_pos (by simp [hup, hn])]
  change execTxnForward p vc s = _
  unfold execTxnForward
  refine run_to (by rw [portOk, vcOk, decide_eq_true hp, decide_eq_true hvc]; rfl) ?_ (addPf_touch _ q _ _ (by decide)).pending
  simp only [hm', hf', hopen, Bool.not_true, Bool.false_eq_true, if_false]
  rfl

section
variable {vc q : Nat} (hqp : q ≠ p)
include hqp

/-- The port a message goes on by has its payloads at its end. -/
theorem State.port_forwardTo_out : (s.forwardTo p vc q m).port q
    = { s.port q with outbox := (s.port q).outbox ++ forwardedPieces p vc m } := by
  rw [State.forwardTo, State.port_modPort_other _ _ hqp.symm, State.port_congr ((addPf_touch _ q _ _ (by decide)).ports rfl),
    State.port_modPort_same, State.port_modPort_other _ _ hqp.symm]

/-- The port it came by keeps the slots that its flits hold, and owes a FENCE. -/
theorem State.port_forwardTo_in : ((s.forwardTo p vc q m).port p).inbox = (s.port p).inbox.erase m
    ∧ ((s.forwardTo p vc q m).port p).freed = (s.port p).freed ∧ (q, none) ∈ ((s.forwardTo p vc q m).port p).fwd := by
  rw [State.forwardTo, State.port_modPort_same, State.port_congr ((addPf_touch _ q _ _ (by decide)).ports rfl),
    State.port_modPort_other _ _ hqp, State.port_modPort_same]
  split
  · next h => exact ⟨rfl, rfl, List.contains_iff_mem.1 h⟩
  · exact ⟨rfl, rfl, List.mem_append_right _ (List.mem_singleton_self _)⟩

omit hqp in
theorem State.pf_forwardTo (hq : q < 6) : (s.forwardTo p vc q m).pf q Reg.forwarded
    = min (s.pf q Reg.forwarded + ceilDiv m.bytes.length 240) (2 ^ 64 - 1) :=
  State.pf_addPf _ hq (portFields_held q hq).2.1

end

end

/-- Settles O47: each command by what it comes to, and what that leaves of the ports, the operations and the counters. -/
theorem fencesForwardsAndTimeoutsAct : Obligations.FencesForwardsAndTimeoutsAct := by
  intro s p m hp t
  refine ⟨fun hm ho hr hf => ?_, fun o i x hm ho hr hb hfind hu hi hx hst => ?_, fun hm ho hr hb => ?_,
    fun vc q hvc hm hf hq hq6 hqp hup hn => ?_, fun o i x hfind hu hi hx hst => ?_⟩
  · obtain ⟨hout, hin, herr⟩ := State.port_fenceTaken s.quiet p m
    refine ⟨_, exec_txnFence hp hm ho hr hf, State.queued_sendMsg 3 _ _ hout, ?_, ?_⟩
    · rw [State.port_sendMsg, herr]
    · rw [State.port_sendMsg, hin]
      rfl
  · refine ⟨_, exec_txnFenceResponse_op hp hm ho hr hb hfind hu hi, ?_, State.ops_opAck _ hx hst⟩
    rw [State.outstanding_opAck, State.outstanding_forget, State.port_consume]
    rfl
  · refine ⟨_, exec_txnFenceResponse_malformed hp hm ho hr hb, ?_, (rejectTxn_touch ..).ops rfl, State.pf_rejectTxn _ _ _ hp⟩
    rw [State.outstanding_rejectTxn, State.port_consume]
    rfl
  · obtain ⟨hin, hfreed, hfwd⟩ := State.port_forwardTo_in (s := s.quiet) (m := m) (vc := vc) hqp
    refine ⟨_, exec_txnForward hp hvc hm hf hq hup hn, ?_, hin, hfreed, hfwd, State.pf_forwardTo hq6⟩
    rw [State.port_forwardTo_out hqp]
    rfl
  · refine ⟨_, exec_txnTimeout_op hp hfind hu hi, ?_, ?_, fun h => State.pf_suspect hp ?_⟩
    · rw [State.outstanding_suspect, State.outstanding_opAck, State.outstanding_forget]
      rfl
    · rw [(suspect_touch ..).ops rfl]
      exact State.ops_opAck _ hx hst
    · rw [State.pf, State.fld, (opAck_touch ..).rd_of_lt (by decide)]
      exact h

end Sys2Proof.Machine

namespace Sys2Proof.Machine

open Sys2Proof

/-! ### A device that has declared itself failed stays so while its ports stop (R443) -/

theorem State.setPf_fov (s : State) (p : Nat) (f : Fld) (v : Nat) : (s.setPf p f v).fov = s.fov := by
  unfold State.setPf
  split
  · exact State.setF_fov ..
  · rfl

theorem State.dead_ite {c : Prop} [Decidable c] (a b : State) : (if c then a else b).fov.dead = if c then a.fov.dead else b.fov.dead :=
  apply_ite (fun t : State => t.fov.dead) c a b

theorem State.dead_foldl {α : Type} {f : State → α → State} (l : List α) (s : State) (h : ∀ t a, (f t a).fov.dead = t.fov.dead) :
    (l.foldl f s).fov.dead = s.fov.dead :=
  List.foldlRecOn (motive := fun t : State => t.fov.dead = s.fov.dead) l f rfl fun t ht a _ => (h t a).trans ht

theorem State.dead_requestOver (s : State) (q : Nat) (o : Outstanding) (status : Nat) :
    (s.requestOver q o status).fov.dead = s.fov.dead := by
  unfold State.requestOver
  split
  · exact State.dead_foldl _ _ fun t i => by rw [(opAck_touch t i status).fov rfl]
  · rw [(covered_touch ..).fov rfl]
  · rfl
  · rfl

theorem State.dead_dropLink (s : State) (p : Nat) : (s.dropLink p).fov.dead = s.fov.dead := by
  change ((s.failOutstanding p St.linkDown).dropOutbox p).fov.dead = _
  rw [(dropOutbox_touch ..).fov rfl]
  exact State.dead_foldl _ _ fun t o => State.dead_requestOver ..

theorem State.dead_portEnter (s : State) (p st : Nat) : (s.portEnter p st).fov.dead = s.fov.dead := by
  unfold State.portEnter
  extract_lets old nb s2 s3 s4 s5 u s7 s8
  have h3 : s3.fov = s.fov := by
    simp only [s3, s2, apply_ite State.fov, State.setPf_fov, ite_self]
  have h4 : s4.fov = s3.fov := by
    simp only [s4, apply_ite State.fov, State.setPf_fov, (modPort_touch ..).fov rfl, ite_self]
  have h5 : s5.fov.dead = s4.fov.dead := by
    simp only [s5, State.dead_ite, State.setPf_fov, State.dead_dropLink, ite_self]
  have h7 : s7.fov = s5.fov := by
    simp only [s7, apply_ite State.fov, (putUnit_touch ..).fov rfl, ite_self]
  have h8 : s8.fov = s7.fov := by
    simp only [s8, apply_ite State.fov, (startConfirm_touch ..).fov rfl, ite_self]
  rw [(castRefresh_touch ..).fov rfl, (markPort_touch ..).fov rfl, h8, h7, h5, h4, h3]

theorem State.dead_portStop (s : State) (p st cause : Nat) : (s.portStop p st cause).fov.dead = s.fov.dead := by
  unfold State.portStop
  rw [State.dead_portEnter]
  split
  · exact State.dead_foldl _ _ fun t _ => by rw [(sendFlit_touch ..).fov rfl]
  · rfl

theorem Touch.fld {M : Nat} {s t : State} (h : Touch M s t) (f : Fld) (hf : M.testBit (regArea f.off) = false) : t.fld f = s.fld f := by
  rw [State.fld, h.regs f.off hf, State.fld]

/-- FAULT_N shows what it is driven to (R531). -/
theorem State.fld_setFault (s : State) (low : Bool) : (s.setFault low).fld Reg.mgtFault = b2n low := by
  unfold State.setFault
  split
  · assumption
  · rw [State.emit_fld, State.fld_setF _ _ (by decide +kernel)]
    cases low <;> rfl

/-- A device that declares itself failed is dead and FAILED, with FAULT_N driven (R443). -/
theorem State.declareFailed_shows {s : State} {code : Nat} (unit : Nat) (hd : s.fov.dead = false) (hc : code ≠ 0x7107) :
    (s.declareFailed code unit).fov.dead = true ∧ (s.declareFailed code unit).fld Reg.fovState = 6
      ∧ (s.declareFailed code unit).fld Reg.mgtFault = 1 := by
  unfold State.declareFailed
  rw [if_neg (by rw [hd]; decide), if_neg hc]
  extract_lets s0 fov s2 s3 s4 s5
  have hdead : s5.fov.dead = true := by
    change (State.setFault ..).fov.dead = true
    rw [(setFault_touch ..).fov rfl, State.setF_fov, (event_touch s3 ..).fov rfl, (flood_touch s2 ..).fov rfl]
  have hstate : s5.fld Reg.fovState = 6 := by
    change (State.setFault ..).fld _ = 6
    rw [(setFault_touch ..).fld Reg.fovState rfl, State.fld_setF _ _ (by decide +kernel)]
    rfl
  have hfault : s5.fld Reg.mgtFault = 1 := State.fld_setFault ..
  have hports : Touch 209113952342 s5 ((List.range 6).foldl (fun s p =>
      if s.pst p = PS.off ∨ s.pst p = PS.down then s else (s.flushNotices p).portStop p PS.down 5) s5) :=
    Touch.foldl (Touch.refl ..) fun t p ht => Touch.ite ht ((ht.to (flushNotices_touch ..) rfl).to (portStop_touch ..) rfl)
  refine ⟨?_, by rw [hports.fld _ rfl, hstate], by rw [hports.fld _ rfl, hfault]⟩
  rw [State.dead_foldl _ _ fun t p => ?_, hdead]
  rw [State.dead_ite, State.dead_portStop, (flushNotices_touch ..).fov rfl, ite_self]

/-! ### Supplies, clocks, straps and the test access port -/

section
variable (s : State)

/-- The management controller stops, and its pin with it (R529). -/
theorem exec_stbyOkDeassert : exec .stbyOkDeassert s = .next (({ s with
    out := [], pins := { s.pins with stby := false }, mgt := { s.mgt with assembling := false } }.setF Reg.eid 0).setF Reg.dynAddr 0) := by
  change execStbyOkDeassert s = _
  unfold execStbyOkDeassert
  refine run_to rfl ?_ ((State.setF_pending ..).trans (State.setF_pending ..))
  simp only [State.stopController, State.setF, State.wr_eq]
  rfl

/-- The registers of the call board that start anew with standby power (R563, R572). -/
def boardRegs : List Nat := [0x10010, 0x10018, 0x10100, 0x10108, 0x10110, 0x10004]

/-- They are set to their reset values. -/
def State.boardReset (s : State) : State := boardRegs.foldl (fun (s : State) o => s.wr o (regReset o)) s

theorem boardReset_touch : Touch 0xFFFF00000 s s.boardReset :=
  Touch.foldl (Touch.refl ..) fun t o ht => ht.to (wr_touch_any t o _) (Nat.and_self _)

theorem State.rd_foldl_reset (l : List Nat) (off : Nat) :
    (l.foldl (fun (s : State) o => s.wr o (regReset o)) s).rd off = if off ∈ l then regReset off &&& regMask off else s.rd off := by
  induction l generalizing s with
  | nil => rfl
  | cons o l ih =>
    rw [List.foldl_cons, ih, State.rd_wr]
    by_cases hl : off ∈ l
    · rw [if_pos hl, if_pos (List.mem_cons_of_mem _ hl)]
    · by_cases ho : o = off
      · rw [if_neg hl, if_pos ho, ho, if_pos List.mem_cons_self]
      · rw [if_neg hl, if_neg ho, if_neg (by simpa [hl] using Ne.symm ho)]

theorem State.rd_boardReset {off : Nat} (h : off ∈ boardRegs) : s.boardReset.rd off = regReset off &&& regMask off :=
  (State.rd_foldl_reset s boardRegs off).trans (if_pos h)

theorem State.rd_boardReset_other {off : Nat} (h : off ∉ boardRegs) : s.boardReset.rd off = s.rd off :=
  (State.rd_foldl_reset s boardRegs off).trans (if_neg h)

theorem exec_vsbComesUp : exec .vsbComesUp s
    = .next { s with out := [], pins := { s.pins with vsb := true }, board := [], suppressed := [] }.boardReset := by
  change execVsbComesUp s = _
  unfold execVsbComesUp
  exact run_to rfl rfl (boardReset_touch _).pending

theorem exec_refclkLost (hr : s.pins.ref = true) (hc : s.pins.counted = true) : exec .refclkLost s = .next
    (({ s with out := [], pins := { s.pins with ref := false } }.setF Reg.refclkLost 1).event Ev.refclkLost UId.ioNorth) := by
  change execRefclkLost s = _
  unfold execRefclkLost
  refine run_to rfl ?_ ((event_touch ..).pending.trans (State.setF_pending ..))
  simp only [hr, hc, Bool.not_true, Bool.false_eq_true, if_false, if_true]

theorem exec_refclkReturn : exec .refclkReturn s
    = .next ({ s with out := [], pins := { s.pins with ref := true } }.setF Reg.refclkLost 0) := by
  change execRefclkReturn s = _
  unfold execRefclkReturn
  refine run_to rfl ?_ (State.setF_pending ..)
  simp only [State.setF, State.wr_eq]
  rfl

theorem exec_timerRecalibration (hr : s.pins.ref = true) (hc : s.pins.counted = true) : exec .timerRecalibration s
    = .next { s with out := [], fresh := s.fresh + 1, pins := { s.pins with cal := Config.freeWord s.fresh } } := by
  change execTimerRecalibration s = _
  unfold execTimerRecalibration
  refine run_to rfl ?_ rfl
  rw [if_pos ⟨hr, hc⟩]
  rfl

theorem exec_fclkLost (hc : s.pins.counted = true) (ha : s.fld Reg.secAborted = 0) : exec .fclkLost s
    = .next ({ s with out := [], pins := { s.pins with fclk := false } }.declareFailed 0x7109 UId.ioSouth) := by
  change execFclkLost s = _
  unfold execFclkLost
  refine run_to rfl ?_ (declareFailed_touch ..).pending
  exact if_pos ⟨hc, ha⟩

/-- A strap that changes after the start has latched it (R530): one event in each start, and no more. -/
theorem exec_slotIdChanged {k : Nat} (hk : k < 64) (hne : k ≠ s.pins.slot) (hc : s.pins.counted = true) (hs : s.sec.step ≠ some 0) :
    exec (.slotIdChanged k) s = .next (if s.pins.slotSeen then
        { s with out := [], pins := { s.pins with slot := k } }.suppress Ev.slotIdChanged UId.ioNorth
      else { s with out := [], pins := { s.pins with slot := k, slotSeen := true } }.event Ev.slotIdChanged UId.ioNorth
        [s.fld Reg.slotIdReg, k]) := by
  change execSlotIdChanged k s = _
  unfold execSlotIdChanged
  refine run_to (decide_eq_true hk) ?_ ?_
  · simp only [if_neg hne, hc, Bool.not_true, Bool.false_eq_true, false_or, if_neg hs]
    rfl
  · split
    · rfl
    · exact (event_touch ..).pending

/-- One of the four standard instructions (R527). -/
theorem exec_jtag_standard {k : Nat} (hk : k < 4) : exec (.jtagTapInstruction k) s
    = .next { s with out := if k = 1 then [.value 0x4800] else [], sec := { s.sec with jtag := k } } := by
  change execJtagTapInstruction k s = _
  unfold execJtagTapInstruction
  rw [if_pos hk]
  by_cases h1 : k = 1
  · subst h1
    rfl
  · rw [if_neg h1]
    exact run_to rfl (if_neg h1) rfl

/-- Another one selects BYPASS while debug is not enabled. -/
theorem exec_jtag_bypass {k : Nat} (hk : 4 ≤ k) (hd : s.fld Reg.secDebug = 0) :
    exec (.jtagTapInstruction k) s = .next { s with out := [], sec := { s.sec with jtag := 0 } } := by
  change execJtagTapInstruction k s = _
  unfold execJtagTapInstruction
  rw [if_neg (by omega), if_neg (by omega)]
  rfl

end

/-- The fields of one register that the controller's stop clears. -/
theorem addressFields_held : Reg.eid.held ∧ Reg.dynAddr.held ∧ Reg.refclkLost.held := by decide +kernel

theorem boardCounters_zero : ∀ i < 3, 0x10100 + 8 * i ∈ boardRegs ∧ regReset (0x10100 + 8 * i) &&& regMask (0x10100 + 8 * i) = 0 := by
  decide +kernel

/-- Settles O16: each command by what it comes to, and what that leaves. -/
theorem suppliesClocksAndPinsAct : Obligations.SuppliesClocksAndPinsAct := by
  obtain ⟨heid, hdyn, href⟩ := addressFields_held
  refine ⟨fun s => ⟨rfl, rfl, ?_, ?_, fun hr hc hv => ?_, ?_, exec_timerRecalibration s⟩,
    fun s hc => ⟨fun ha hd => ?_, fun k hk hne hs => ?_⟩, fun s k => ⟨exec_jtag_standard s, exec_jtag_bypass s⟩⟩
  · refine ⟨_, exec_stbyOkDeassert s, ?_, ?_, ?_, ?_, fun off ho => ?_⟩
    · rw [State.fld_setF_apart (f := Reg.dynAddr) _ 0 heid rfl (.inl (by decide)), State.fld_setF _ 0 heid, Nat.zero_mod]
    · rw [State.fld_setF _ 0 hdyn, Nat.zero_mod]
    · rw [State.setF_pins, State.setF_pins]
    · simp only [State.setF, State.wr_eq]
    · rw [State.rd_setF_other (f := Reg.dynAddr) _ 0 ho.symm, State.rd_setF_other (f := Reg.eid) _ 0 ho.symm]
      rfl
  · refine ⟨_, exec_vsbComesUp s, ((boardReset_touch _).board rfl).1, ?_, ?_, (boardReset_touch _).pins rfl, fun i hi => ?_,
      fun off ho => ?_⟩
    · rw [State.rd_boardReset _ (by decide)]
      decide +kernel
    · rw [State.rd_boardReset _ (by decide)]
      decide +kernel
    · obtain ⟨hmem, hzero⟩ := boardCounters_zero i hi
      rw [State.rd_boardReset _ hmem, hzero]
    · rw [State.rd_boardReset_other _ ho]
      rfl
  · refine ⟨_, exec_refclkLost s hr hc, ?_, ?_, ?_⟩
    · rw [State.fld_event _ _ _ _ _ (by decide), State.fld_setF _ _ href]
      rfl
    · rw [(event_touch ..).pins rfl, State.setF_pins]
    · exact State.noted_event _ _ _ _ _ (by rw [State.setF_pins]; exact hv)
  · refine ⟨_, exec_refclkReturn s, ?_, State.setF_out .., ?_, fun off ho => ?_⟩
    · rw [State.fld_setF _ 0 href, Nat.zero_mod]
    · simp only [State.setF, State.wr_eq]
    · rw [State.rd_setF_other (f := Reg.refclkLost) _ 0 ho.symm]
      rfl
  · obtain ⟨hdead, hstate, hfault⟩ := State.declareFailed_shows (s := { s with out := [], pins := { s.pins with fclk := false } })
      (code := 0x7109) UId.ioSouth hd (by decide)
    exact ⟨_, exec_fclkLost s hc ha, hdead, hstate, hfault, (declareFailed_touch ..).pins rfl⟩
  · refine ⟨_, exec_slotIdChanged s hk hne hc hs, ?_⟩
    by_cases hseen : s.pins.slotSeen = true
    · rw [if_pos hseen]
      refine ⟨rfl, ?_, fun _ h => ?_, fun _ => rfl⟩
      · rw [← hseen]
        rfl
      · rw [hseen] at h
        cases h
    · rw [if_neg hseen]
      refine ⟨(event_touch ..).fld _ rfl, (event_touch ..).pins rfl,
        fun hv _ => State.noted_event _ _ _ _ _ hv, fun h => absurd h hseen⟩

end Sys2Proof.Machine

namespace Sys2Proof.Machine

open Sys2Proof

/-! ### Windows of registers -/

/-- A register of window i of a block is found there, where every block before it in the map ends below it. -/
theorem findReg_window {n i d : Nat} {b : Block} {r : RegDesc} (hb : bar0[n]? = some b)
    (hpre : ((bar0.take n).all fun c => decide (c.base + c.stride * c.count ≤ b.base)) = true) (hi : i < b.count)
    (hd : d < b.stride) (hr : findIn d b.regs = some r) :
    findReg (b.base + b.stride * i + d) bar0 = some (r, b.base + b.stride * i + r.off, i) := by
  have hskip : ∀ l : List Block, (∀ c ∈ l, c.base + c.stride * c.count ≤ b.base) → ∀ l' : List Block,
      findReg (b.base + b.stride * i + d) (l ++ l') = findReg (b.base + b.stride * i + d) l' := by
    intro l
    induction l with
    | nil => exact fun _ _ => rfl
    | cons c l ih =>
      intro hl l'
      have hc := hl c (List.mem_cons_self ..)
      rw [List.cons_append, findReg, if_neg (by omega), ih fun c hc => hl c (List.mem_cons_of_mem _ hc)]
  have hlt : b.stride * i + d < b.stride * b.count := by
    have h := Nat.mul_le_mul_left b.stride (Nat.succ_le_of_lt hi)
    rw [Nat.mul_succ] at h
    omega
  have hidx : (b.base + b.stride * i + d - b.base) / b.stride = i := by
    rw [Nat.add_assoc, Nat.add_sub_cancel_left, Nat.add_comm, Nat.add_mul_div_left _ _ (by omega), Nat.div_eq_of_lt hd, Nat.zero_add]
  have hoff : b.base + b.stride * i + d - b.base - i * b.stride = d := by
    rw [Nat.mul_comm i]
    omega
  obtain ⟨hn, hget⟩ := List.getElem?_eq_some_iff.1 hb
  rw [← List.take_append_drop n bar0, List.drop_eq_getElem_cons hn, hget,
    hskip _ (fun c hc => of_decide_eq_true (List.all_eq_true.1 hpre c hc)), findReg, if_pos (by omega)]
  simp only [hidx, hoff, hr]
  rw [Nat.mul_comm i]

section
variable {off o i : Nat} {r : RegDesc} (h : findReg off bar0 = some (r, off, i))
include h

theorem regMask_of_findReg : regMask off = r.mask := by
  rw [regMask, h]
  exact if_pos rfl

theorem regReset_of_findReg : regReset off = r.resetValue i ||| standbyReset off := by
  rw [regReset, h]
  exact if_pos rfl

end

/-- A register without a step resets to the same value in every window. -/
theorem resetValue_of_step_zero {r : RegDesc} (h : r.step = 0) (i : Nat) : r.resetValue i = r.resetValue 0 := by
  rw [RegDesc.resetValue, RegDesc.resetValue, h, Nat.mul_zero, Nat.mul_zero]

theorem standbyReset_of_not_bankCfg {off : Nat} (h : off % 0x40 ≠ 0x0C) : standbyReset off = 0 := by
  rw [standbyReset]
  exact if_neg fun ⟨_, _, h', _⟩ => h h'

/-! ### Counter clears -/

section
variable {P Q : Nat → Prop} {s t u : State}

theorem cleared_refl (h : s.out = []) : Cleared (fun _ => False) s s :=
  ⟨⟨rfl, fun _ _ => rfl⟩, fun _ h => h.elim, h⟩

/-- Two clears one after the other clear what either does. -/
theorem Cleared.trans (h : Cleared P s t) (k : Cleared Q t u) : Cleared (fun o => P o ∨ Q o) s u := by
  obtain ⟨⟨hst, hkept⟩, hzero, -⟩ := h
  obtain ⟨⟨htu, kkept⟩, kzero, kout⟩ := k
  refine ⟨⟨?_, fun off ho => ?_⟩, fun off ho => ?_, kout⟩
  · rw [htu, hst]
  · rw [not_or] at ho
    rw [kkept off ho.2, hkept off ho.1]
  · by_cases hq : Q off
    · exact kzero off hq
    · rw [kkept off hq, hzero off (ho.resolve_right hq)]

theorem Cleared.congr (h : Cleared P s t) (hpq : ∀ o, P o ↔ Q o) : Cleared Q s t := by
  rwa [← funext fun o => propext (hpq o)]

/-- A clear of one part after the other, over a range of indices. -/
theorem cleared_foldl {P : Nat → Nat → Prop} {f : State → Nat → State} {n : Nat}
    (hf : ∀ i, i < n → ∀ t, t.out = [] → Cleared (P i) t (f t i)) (h : s.out = []) :
    Cleared (fun o => ∃ i, i < n ∧ P i o) s ((List.range n).foldl f s) := by
  induction n with
  | zero => exact (cleared_refl h).congr fun o => ⟨False.elim, fun ⟨_, hi, _⟩ => absurd hi (Nat.not_lt_zero _)⟩
  | succ n ih =>
    have ih := ih fun i hi => hf i (Nat.lt_succ_of_lt hi)
    rw [List.range_succ, List.foldl_append, List.foldl_cons, List.foldl_nil]
    refine (ih.trans (hf n (Nat.lt_succ_self n) _ ih.2.2)).congr fun o => ⟨?_, ?_⟩
    · rintro (⟨i, hi, ho⟩ | ho)
      · exact ⟨i, Nat.lt_succ_of_lt hi, ho⟩
      · exact ⟨n, Nat.lt_succ_self n, ho⟩
    · rintro ⟨i, hi, ho⟩
      rcases Nat.lt_succ_iff_lt_or_eq.1 hi with hi | rfl
      · exact .inl ⟨i, hi, ho⟩
      · exact .inr ho

theorem cleared_wr (off : Nat) (h : s.out = []) : Cleared (fun o => o = off) s (s.wr off 0) := by
  refine ⟨⟨by simp only [State.wr_eq], fun o ho => State.rd_wr_other s 0 (Ne.symm ho)⟩, ?_, (State.wr_out ..).trans h⟩
  rintro o rfl
  rw [State.rd_wr_same, Nat.zero_and]

theorem cleared_clearRegs (off step n : Nat) (h : s.out = []) : Cleared (inRange off step n) s (s.clearRegs off step n) :=
  cleared_foldl (fun i _ _ ht => cleared_wr (off + step * i) ht) h

theorem cleared_clearWin (off stride count step n : Nat) {i : Nat} (hi : i < count) (h : s.out = []) :
    Cleared (inRange (off + stride * i) step n) s (s.clearWin off stride count i step n) := by
  rw [State.clearWin, if_pos hi]
  exact cleared_clearRegs _ _ _ h

end

section
variable {s : State}

/-- The windows of the stacks and of the channels, and the block's own counters (R325). -/
theorem cleared_clearMem (h : s.out = []) : Cleared (fun o => inRange 0x200600 8 6 o
    ∨ ∃ i, i < 8 ∧ (inRange (0x200110 + 0x40 * i) 4 5 o ∨ inRange (0x200304 + 0x40 * i) 4 4 o)) s s.clearMem := by
  have hwins := cleared_foldl (f := fun s i => (s.clearWin 0x200110 0x40 8 i 4 5).clearWin 0x200304 0x40 8 i 4 4)
    (fun i hi t ht =>
      have hstack := cleared_clearWin 0x200110 0x40 8 4 5 hi ht
      hstack.trans (cleared_clearWin 0x200304 0x40 8 4 4 hi hstack.2.2)) h
  exact (hwins.trans (cleared_clearRegs 0x200600 8 6 hwins.2.2)).congr fun o => Or.comm

/-- The counters of the bank entries. -/
def bankCounter (o : Nat) : Prop := ∃ b, b < 3072 ∧ (o = 0x300018 + 0x40 * b ∨ o = 0x30001C + 0x40 * b ∨ o = 0x300020 + 0x40 * b)

/-- The same, as BNK_CLEAR looks for them. -/
def isBankCounter (o : Nat) : Bool :=
  decide (0x300000 ≤ o) && decide (o < 0x330000) && (o % 0x40 == 0x18 || o % 0x40 == 0x1C || o % 0x40 == 0x20)

theorem isBankCounter_iff (o : Nat) : isBankCounter o = true ↔ bankCounter o := by
  simp only [isBankCounter, Bool.and_eq_true, Bool.or_eq_true, decide_eq_true_eq, beq_iff_eq, bankCounter]
  constructor
  · intro ho
    exact ⟨(o - 0x300000) / 0x40, by omega, by omega⟩
  · rintro ⟨b, hb, ho⟩
    omega

/-- A bank's counters reset to zero. -/
theorem regReset_bankCounter {o : Nat} (h : bankCounter o) : regReset o = 0 := by
  obtain ⟨b, hb, ho⟩ := h
  have hreg : ∀ d ∈ [0x18, 0x1C, 0x20], regReset (0x300000 + 0x40 * b + d) = 0 := by
    intro d hd
    have hfind : findIn d bankEntry = some (v32 d) ∧ d < 0x40 ∧ (v32 d).off = d ∧ (v32 d).step = 0 ∧ (v32 d).resetValue 0 = 0 := by
      simp only [List.mem_cons, List.not_mem_nil, or_false] at hd
      rcases hd with rfl | rfl | rfl <;> decide
    obtain ⟨hin, hlt, hoff, hstep, hres⟩ := hfind
    have hf : findReg (0x300000 + 0x40 * b + d) bar0 = some (v32 d, 0x300000 + 0x40 * b + d, b) := by
      rw [← hoff]
      exact findReg_window (n := 16) (b := ⟨0x300000, 0x40, 3072, bankEntry⟩) rfl (by decide) hb hlt hin
    rw [regReset_of_findReg hf, resetValue_of_step_zero hstep, hres, Nat.zero_or, standbyReset_of_not_bankCfg]
    simp only [List.mem_cons, List.not_mem_nil, or_false] at hd
    omega
  have hd : o - (0x300000 + 0x40 * b) ∈ [0x18, 0x1C, 0x20] := by
    simp only [List.mem_cons, List.not_mem_nil, or_false]
    omega
  rw [← hreg _ hd]
  congr 1
  omega

/-- A register that is no longer listed reads its reset value. -/
theorem State.rd_filter (s : State) (p : Nat → Bool) (off : Nat) :
    ({ s with regs := s.regs.filter fun e => p e.1 } : State).rd off = if p off then s.rd off else regReset off := by
  rw [State.rd_eq, State.rd_eq]
  change ((SMap.find (s.regs.filter fun e => p e.1) off).map _).getD _ = _
  rw [SMap.find_filter]
  split <;> rfl

/-- The counters of every bank entry, and the block's own (R297). -/
theorem cleared_clearBnk (h : s.out = []) : Cleared (fun o => inRange 0x330100 8 6 o ∨ bankCounter o) s s.clearBnk := by
  have hbanks : Cleared bankCounter s { s with regs := s.regs.filter fun e => !isBankCounter e.1 } := by
    refine ⟨⟨rfl, fun off ho => ?_⟩, fun off ho => ?_, h⟩ <;> rw [State.rd_filter s fun o => !isBankCounter o]
    · rw [← isBankCounter_iff, Bool.not_eq_true] at ho
      rw [ho]
      rfl
    · rw [(isBankCounter_iff off).2 ho]
      exact regReset_bankCounter ho
  exact (hbanks.trans (cleared_clearRegs 0x330100 8 6 h)).congr fun o => Or.comm

/-- A clear register that the device serves does its clear (R478). -/
theorem exec_clear {ok : Bool} {P : Nat → Prop} {f : State → State} (off : Nat) (hok : ok = true) (hs : s.served = true)
    (hf : Cleared P s.quiet (f s.quiet)) : ∃ t, run ok (fun s => s.hostWrite off f) s = .next t ∧ Cleared P s t := by
  obtain ⟨⟨heq, hkept⟩, hzero, hout⟩ := hf
  have hwrite : s.quiet.hostWrite off f = f s.quiet := by
    rw [State.hostWrite, if_pos (by rw [State.open0]; exact Bool.or_eq_true_iff.2 (.inl (Bool.or_eq_true_iff.2 (.inl hs))))]
  exact ⟨_, run_to hok hwrite (by rw [heq]), ⟨heq, hkept⟩, hzero, hout⟩

end

/-- Settles O7: each clear writes zero to its own counters, and to no other register. -/
theorem countersClear : Obligations.CountersClear := by
  refine ⟨fun s hs => ⟨fun e he => ?_, fun e he => ?_, ?_, ?_, ?_, ?_, ?_⟩,
    fun s hs => ⟨fun p hp => ?_, ?_, ?_, ?_, ?_, ?_, ?_⟩⟩
  · exact exec_clear _ (decide_eq_true he) hs (cleared_clearWin _ _ _ _ _ he rfl)
  · exact exec_clear _ (decide_eq_true he) hs (cleared_clearWin _ _ _ _ _ he rfl)
  · exact exec_clear _ rfl hs (cleared_clearRegs _ _ _ rfl)
  · exact exec_clear _ rfl hs (cleared_clearRegs _ _ _ rfl)
  · exact exec_clear _ rfl hs (cleared_clearRegs _ _ _ rfl)
  · exact exec_clear _ rfl hs (cleared_clearBnk rfl)
  · exact exec_clear _ rfl hs (cleared_clearMem rfl)
  · exact exec_clear _ (decide_eq_true hp) hs (cleared_clearWin _ _ _ _ _ hp rfl)
  · exact exec_clear _ rfl hs (cleared_clearRegs _ _ _ rfl)
  · exact exec_clear _ rfl hs (cleared_clearRegs _ _ _ rfl)
  · exact exec_clear _ rfl hs (cleared_clearRegs _ _ _ rfl)
  · exact exec_clear _ rfl hs (cleared_clearRegs _ _ _ rfl)
  · exact exec_clear _ rfl hs (cleared_clearRegs _ _ _ rfl)
  · exact exec_clear _ rfl hs (cleared_clearRegs _ _ _ rfl)

end Sys2Proof.Machine

namespace Sys2Proof.Machine

open Sys2Proof

/-! ### The registers of an engine -/

/-- A register of an engine's window is found in it. -/
theorem findReg_engine {e d off own : Nat} {r : RegDesc} (he : e < 144) (hd : d < 0x400) (hr : findIn d engWindow = some r)
    (hoff : off = 0x480000 + 0x400 * e + d) (hown : own = 0x480000 + 0x400 * e + r.off) :
    findReg off bar0 = some (r, own, e) := by
  rw [hoff, hown]
  exact findReg_window (n := 30) (b := ⟨0x480000, 0x400, 144, engWindow⟩) rfl (by decide) he hd hr

/-- The six counters of an engine's window, and both halves of each. -/
theorem engWindow_counter : ∀ k < 6, findIn (0x80 + 8 * k) engWindow = some (v64 (0x80 + 8 * k))
    ∧ findIn (0x84 + 8 * k) engWindow = some (v64 (0x80 + 8 * k)) := by decide

theorem v64_mask (d : Nat) : (v64 d).mask = 2 ^ 64 - 1 := rfl

theorem v64_resetValue (d i : Nat) : (v64 d).resetValue i = 0 := by
  rw [resetValue_of_step_zero rfl]
  simp [RegDesc.resetValue, v64, r64, ro]

/-- A register whose every bit is there and that resets to zero holds 64 bits. -/
theorem State.rd_lt (s : State) {off : Nat} (h : regReset off < 2 ^ 64) : s.rd off < 2 ^ 64 := by
  rw [State.rd]
  split
  · exact BitVec.isLt _
  · exact h

/-- A 64-bit counter advanced by n reads n more, or its largest value (R133). -/
theorem State.rd_addF_counter (s : State) {off : Nat} (n : Nat) (hm : regMask off = 2 ^ 64 - 1) (hr : regReset off = 0) :
    (s.addF ⟨off, 63, 0⟩ n).rd off = min (s.rd off + n) (2 ^ 64 - 1) := by
  have hread : ∀ t : State, t.fld ⟨off, 63, 0⟩ = t.rd off := fun t => bits_whole _ _ (t.rd_lt (by rw [hr]; decide))
  have hheld : (⟨off, 63, 0⟩ : Fld).held := by
    change bits 63 0 (regMask off) = 2 ^ 64 - 1
    rw [hm]
    rfl
  exact (hread _).symm.trans ((State.fld_addF s n hheld).trans
    (congrArg (fun x => min (x + n) (2 ^ 64 - 1)) (hread s)))

section
variable {s : State} {e k : Nat} (he : e < 144) (hk : k < 6)
include he hk

theorem findReg_engCounter : findReg (0x480080 + 0x400 * e + 8 * k) bar0
    = some (v64 (0x80 + 8 * k), 0x480080 + 0x400 * e + 8 * k, e) := by
  have hoff : 0x480080 + 0x400 * e + 8 * k = 0x480000 + 0x400 * e + (0x80 + 8 * k) := by omega
  exact findReg_engine he (by omega) (engWindow_counter k hk).1 hoff hoff

theorem findReg_engCounter_high : findReg (0x480080 + 0x400 * e + 8 * k + 4) bar0
    = some (v64 (0x80 + 8 * k), 0x480080 + 0x400 * e + 8 * k, e) := by
  have hoff : 0x480080 + 0x400 * e + 8 * k = 0x480000 + 0x400 * e + (0x80 + 8 * k) := by omega
  exact findReg_engine (d := 0x84 + 8 * k) he (by omega) (engWindow_counter k hk).2 (by omega) hoff

theorem regMask_engCounter : regMask (0x480080 + 0x400 * e + 8 * k) = 2 ^ 64 - 1 := by
  rw [regMask_of_findReg (findReg_engCounter he hk), v64_mask]

theorem regReset_engCounter : regReset (0x480080 + 0x400 * e + 8 * k) = 0 := by
  rw [regReset_of_findReg (findReg_engCounter he hk), v64_resetValue, standbyReset_of_not_bankCfg (by omega), Nat.zero_or]

/-- A counter of an engine shows no other state. -/
theorem State.shown_engCounter : s.shown (0x480080 + 0x400 * e + 8 * k) = s.rd (0x480080 + 0x400 * e + 8 * k) := by
  unfold State.shown
  simp only [Reg.devRev, Reg.queStatus, Reg.treeRoot]
  iterate 15 refine (if_neg (by omega)).trans ?_
  exact if_neg (by omega)

/-- An engine's counter is read whole by one 8-byte access (R133). -/
theorem State.regRead_engCounter (hs : s.served = true) :
    s.regRead (0x480080 + 0x400 * e + 8 * k) 8 = s.rd (0x480080 + 0x400 * e + 8 * k) := by
  have hal : (0x480080 + 0x400 * e + 8 * k) % 8 = 0 := by omega
  have hopen : s.open0 (0x480080 + 0x400 * e + 8 * k) = true := by simp [State.open0, hs]
  rw [State.regRead, if_neg (by simp [hopen, hal]), if_neg (by omega)]
  simp only [findReg_engCounter he hk, findReg_engCounter_high he hk, State.shown_engCounter he hk]
  rw [if_neg (by decide), if_neg (by omega), if_pos trivial, if_pos ⟨rfl, trivial⟩]
  exact Nat.mod_add_div ..

end

/-! ### Command registers of an engine -/

theorem engWindow_countClear : findIn 0xC0 engWindow = some (clr 0xC0) := by decide

theorem findReg_countClear {e : Nat} (he : e < 144) :
    findReg (0x4800C0 + 0x400 * e) bar0 = some (clr 0xC0, 0x4800C0 + 0x400 * e, e) := by
  have hoff : 0x4800C0 + 0x400 * e = 0x480000 + 0x400 * e + 0xC0 := by omega
  exact findReg_engine he (by decide) engWindow_countClear hoff hoff

theorem windowIndex_none {base stride n off : Nat} (h : (off - base) % stride ≠ 0) : windowIndex base stride n off = none :=
  if_neg fun h' => h h'.2.1

theorem windowIndex_engine {base e : Nat} (he : e < 144) : windowIndex base 0x400 144 (base + 0x400 * e) = some e := by
  have hd : (base + 0x400 * e - base) / 0x400 = e := by omega
  rw [windowIndex, hd, if_pos ⟨by omega, by omega, he⟩]

section
variable {s : State} {e v a raw : Nat} (he : e < 144)
include he

/-- COUNT_CLEAR acts on its bit 0 (R133). -/
theorem State.command_countClear : s.command (0x4800C0 + 0x400 * e) v a raw
    = if bits 0 0 v = 1 then s.clearEng e 0x480080 6 else s := by
  rw [State.command]
  refine (if_neg ?_).trans ((if_neg ?_).trans ((if_neg ?_).trans ((if_neg ?_).trans ?_)))
  iterate 4 simp only [Reg.biasCmd, Reg.queCmd, Reg.unitCmd, Reg.mbxCmd]; omega
  rw [windowIndex_none (by omega), windowIndex_none (by omega), State.clearAt, windowIndex_engine he]

end

theorem bits_bit0 (v : Nat) : bits 0 0 v = b2n (bitAt 0 v) := by
  rw [bits, bitAt, Nat.testBit_zero, b2n]
  simp only [Nat.shiftRight_zero]
  have := Nat.mod_two_eq_zero_or_one v
  split <;> simp_all

/-- A write of a command register of 32 bits is that command (R18). -/
theorem exec_registerWrite_command {s : State} {off v : Nat} {r : RegDesc} {k : Nat} (ho : off < 2 ^ 26) (hv : v < 2 ^ 32)
    (hs : s.served = true) (hr : findReg off bar0 = some (r, off, k)) (hc : r.isCommand = true) (ha : off % 4 = 0) :
    exec (.registerWrite off 4 v) s = .next { s.quiet.command off v off v with pending := s.pending } := by
  rw [exec_registerWrite ho (by omega), State.regWrite_one (s := s.quiet) _ hs hr (.inl rfl) ha, State.writePart]
  simp only [hr, hc, if_true]
  rw [Nat.sub_self, Nat.mul_zero, Nat.shiftLeft_zero, Nat.mod_eq_of_lt hv]

theorem State.open0_of_served {s : State} (h : s.served = true) (off : Nat) : s.open0 off = true := by
  simp [State.open0, h]

theorem exec_countClear {s : State} {e : Nat} (he : e < 144) (hs : s.served = true) :
    exec (.countClear e) s = .next { s.quiet.clearEng e 0x480080 6 with pending := s.pending } := by
  change execCountClear e s = _
  rw [execCountClear, run_next _ s (decide_eq_true he)]
  rw [State.hostWrite, if_pos (State.open0_of_served (s := s.quiet) hs _)]

/-- Settles O58: the counters are whole 64-bit registers without a view of their own, and COUNT_CLEAR is the clear itself. -/
theorem engineCountersStopAndClear : Obligations.EngineCountersStopAndClear := by
  intro e he
  refine ⟨fun k hk => ⟨regReset_engCounter he hk, fun s hs => State.regRead_engCounter he hk hs, fun s n =>
    State.rd_addF_counter s n (regMask_engCounter he hk) (regReset_engCounter he hk)⟩, fun s v hs hv => ?_⟩
  have hw := exec_registerWrite_command (v := v) (by omega) hv hs (findReg_countClear he) rfl (by omega)
  rw [State.command_countClear he, bits_bit0] at hw
  refine ⟨fun hb => ⟨?_, (countersClear.1 s hs).1 e he⟩, fun hb => ?_⟩
  · rw [hw, hb, exec_countClear he hs]
    rfl
  · rw [hw, hb]
    rfl

end Sys2Proof.Machine

namespace Sys2Proof.Machine

open Sys2Proof

/-! ### Operations of a job -/

section
variable {s : State} {i opcode slot : Nat} {o : OpSlot} {j : Job}

/-- A waiting operation is the one its command acts on. -/
theorem State.withOp_waits (h : s.opWaits i opcode o) (f : OpSlot → State) : s.quiet.withOp i opcode f = f o := by
  obtain ⟨-, hfind, hopcode, hstarted, -⟩ := h
  rw [State.withOp, show SMap.find s.quiet.ops i = some o from hfind]
  exact if_pos ⟨hopcode, by rw [hstarted]; rfl⟩

theorem State.withJob_waits (h : s.jobWaits i opcode o slot j) (f : Nat → Job → State) : s.quiet.withJob i o f = f slot j := by
  obtain ⟨-, -, hslot, hjob⟩ := h
  rw [State.withJob, hslot, Option.bind_some, show s.quiet.job slot = some j from hjob]
  rfl

/-- An operation that has done its work. -/
theorem State.opDone_find {t : State} (h : SMap.find t.ops i = some o) (status left : Nat) :
    t.opDone i status left
      = { t with ops := SMap.put t.ops i { o with started := true, left, status := if o.status = 0 then status else o.status } } := by
  rw [State.opDone, h]

/-- One that had no status ends without one. -/
theorem State.opRan_opDone {t : State} (h : SMap.find t.ops i = some o) (h0 : o.status = 0) (left : Nat) :
    (t.opDone i 0 left).opRan i o left := by
  rw [State.opRan, State.opDone_find h, SMap.find_put, if_pos rfl, if_pos h0, h0]

end

/-- What has been done of an operation shows in its slot alone. -/
theorem State.opDone_eq (s : State) (i status left : Nat) : s.opDone i status left = { s with ops := (s.opDone i status left).ops } := by
  rw [State.opDone]
  split <;> rfl

/-! ### The tiles of a product -/

theorem State.fbOf_none (s : State) (rq : Requester) (j : Job) {q : QRec} (h : q.fbCopy = false) : s.fbOf rq j q = (0, none, s) := by
  rw [State.fbOf, h]
  rfl

/-- Tile i of a product as it is issued to the engines `able`. -/
def tileOf (op : Nat) (j : Job) (c : CueRec) (p : Prod) (able : List Nat) (i : Nat) : TileWork :=
  { op, role := 0, tile := i, engine := able.getD (i % max 1 able.length) 0, r0 := (p.tileBox i).1, rows := (p.tileBox i).2.1
    c0 := (p.tileBox i).2.2.1, cols := (p.tileBox i).2.2.2, et0 := (j.etsOf p (recsOf p.qa none none) (recsOf p.qb none none)).1
    etB := (j.etsOf p (recsOf p.qa none none) (recsOf p.qb none none)).2.2
    bound := (j.etsOf p (recsOf p.qa none none) (recsOf p.qb none none)).2.1
    sampled := (j.planned c i).isSome, slices := max (slicesOf p.qa none) (slicesOf p.qb none), acked := false }

/-- s with tiles issued behind those that wait. -/
def State.withTiles (s : State) (ts : List TileWork) : State := { s with tiles := s.tiles ++ ts }

/-- A product without fall-back copies is cut into its tiles at once. -/
theorem State.startProduct_plain (s : State) (op : Nat) (j : Job) (c : CueRec) {p : Prod} (able : List Nat)
    (ha : p.qa.fbCopy = false) (hb : p.qb.fbCopy = false) :
    s.startProduct op j c p able = (s.withTiles ((List.range p.tiles).map (tileOf op j c p able))).opDone op 0 p.tiles := by
  simp only [State.startProduct, State.fbOf_none _ _ _ ha, State.fbOf_none _ _ _ hb]
  rfl

/-- The engines that PRODUCT names, where each can take a tile of the cue's phase. -/
theorem filter_able {s : State} {es : List Nat} {b : Bool} (h : ∀ e ∈ es, e < 144 ∧ s.engSt e = US.active ∧ s.inMatinee e = b) :
    (es.filter fun e => s.quiet.engSt e == US.active && s.quiet.inMatinee e == b) = es := by
  refine List.filter_eq_self.2 fun e he => ?_
  obtain ⟨-, hst, hmat⟩ := h e he
  rw [Bool.and_eq_true, beq_iff_eq, beq_iff_eq]
  exact ⟨hst, hmat⟩

/-- A PRODUCT whose operands read and name no copy issues its tiles. -/
theorem exec_product {s u : State} {i slot : Nat} {es : List Nat} {o : OpSlot} {j : Job} {p : Prod}
    (hw : s.jobWaits i cProduct o slot j) (hes : es ≠ [])
    (hable : ∀ e ∈ es, e < 144 ∧ s.engSt e = US.active ∧ s.inMatinee e = (o.cue.phase == phEval))
    (hcheck : ((j.viewOf o).prodCheck o.cue).1 = 0) (ha : p.qa.fbCopy = false) (hb : p.qb.fbCopy = false)
    (hread : s.quiet.prodRead ⟨1, es.headD 0, some slot⟩ (j.viewOf o) o.cue = (0, 0xFFFF, some p, u))
    (hpend : u.pending = s.pending) :
    exec (.product i es) s
      = .next ((u.withTiles ((List.range p.tiles).map (tileOf i (j.viewOf o) o.cue p es))).opDone i 0 p.tiles) := by
  have hall : (opOk i && es.all engOk) = true := by
    rw [Bool.and_eq_true, List.all_eq_true]
    exact ⟨decide_eq_true hw.1.1, fun e he => decide_eq_true (hable e he).1⟩
  obtain ⟨d, hcheck⟩ : ∃ d, (j.viewOf o).prodCheck o.cue = (0, d) := ⟨_, Prod.ext hcheck rfl⟩
  change execProduct i es s = _
  refine run_to hall ?_ ?_
  · simp only [State.withOp_waits hw.1, State.withJob_waits hw, filter_able hable, List.isEmpty_iff, hes, if_false, hcheck, hread,
      State.startProduct_plain u i _ _ es ha hb]
  · rw [State.opDone_eq]
    exact hpend

/-- Settles O24: the operands' records hold and name no copy, so the tiles join those that wait and the operation waits for them. -/
theorem productsAreCutIntoTiles : Obligations.ProductsAreCutIntoTiles := by
  intro s i slot es o j p hw hes hable hcheck hqa hqb rng hread
  have hfind : SMap.find s.ops i = some o := hw.1.2.1
  have hstatus : o.status = 0 := hw.1.2.2.2.2
  refine ⟨_, exec_product hw hes hable hcheck hqa hqb hread rfl, State.opRan_opDone ?_ hstatus _, by rw [State.opDone_eq]; rfl,
    by rw [State.opDone_eq]; rfl, _, by rw [State.opDone_eq]; rfl, ?_, fun k w hk => ?_⟩
  · exact hfind
  · rw [List.length_map, List.length_range]
  · rw [List.getElem?_map, Option.map_eq_some_iff] at hk
    obtain ⟨a, ha, rfl⟩ := hk
    obtain ⟨hlt, rfl⟩ := List.getElem?_eq_some_iff.1 ha
    rw [List.getElem_range]
    have hlen : max 1 es.length = es.length := Nat.max_eq_right (List.length_pos_of_ne_nil hes)
    exact ⟨rfl, rfl, rfl, by rw [tileOf, hlen], rfl⟩

end Sys2Proof.Machine

namespace Sys2Proof.Machine

open Sys2Proof

/-! ### A tile bound while its job slot is listed twice

The state keeps jobs by slot as a list of entries, and reads the first one of a slot. Nothing in the statement keeps a slot from being
listed twice. Binding a tile stores the job anew, which drops the second entry, and R149's rule for a rehearsal looks at every entry:
with an open job only in the entry that is dropped, overflow marks the set before the tile is bound and saturates after it. -/

namespace BoundTwice

/-- The address of the one tensor, whose planes and record lie in the first page of stack 0. -/
def base : Nat := 0x1000000000

/-- 32 elements of W16 in one block, with a record. -/
def entry : List Byte :=
  [1, 8, 0x10, 0, 0, 0, 0, 0] ++ leBytes 4 32 ++ leBytes 4 1 ++ leBytes 4 1 ++ leBytes 4 1 ++ leBytes 8 base ++ leBytes 8 (base + 0x400)
    ++ List.replicate 16 0 ++ leBytes 8 0x1000

/-- The job of the slot: the tensor, and a finishing record that names it as the output. -/
def job : Job :=
  { jobOfPackage (List.replicate 128 0) (fun _ => []) 0 0 with
    layout := [List.replicate 64 0, entry], finish := [List.replicate 28 0 ++ leBytes 4 1] }

/-- A PRODUCT of the tensor with itself: one row, one column, 32 positions. -/
def cue : CueRec :=
  { id := 0, raw := [1, 8, 1, 0] ++ List.replicate 32 0 ++ leBytes 3 1 ++ leBytes 3 1 ++ leBytes 3 0 ++ leBytes 4 0 ++ leBytes 4 1 ++ leBytes 4 0
      ++ leBytes 4 32 ++ List.replicate 3 0
    queue := none, job := some 0, epoch := some 0, step := 0, ahead := false, held := false }

/-- Its operation, under way. -/
def op : OpSlot :=
  { cue, run := 0, rows := 0, started := true, left := 1, status := 0, tagOut := none, detail := 0xFFFF, satNoted := false, rungs := [] }

/-- Its tile, whose Et₀ is too low for the sum 1 · 1. -/
def tile : TileWork :=
  { op := 0, role := 0, tile := 0, engine := 0, r0 := 0, rows := 1, c0 := 0, cols := 1, et0 := -80, etB := 0, bound := false, sampled := false
    slices := 1, acked := false }

/-- A W16 record, as memory holds it. -/
def record : List Byte := [0, 0, 0x10, 0x20] ++ List.replicate 28 0

/-- The first element is 1, at scale 1. -/
def memory : Mem := [(base, 0x80), (base + 1, 0x3F), (base + 0x100, 127), (base + 0x402, 0x10), (base + 0x403, 0x20)]

/-- A rehearsal on a started device: engine 0 is active, and the job of slot 0 is listed closed and, behind that, open. -/
def state : State :=
  { ((State.reset.setF Reg.stackUp 1).setF Reg.ready 1).wr (unitOff (UId.engine 0)) US.active with
    mem := memory, ops := [(0, op)], jobs := [(0, job), (0, { job with isOpen := true })], tiles := [tile]
    fov := { Fov.off with rehearsal := true } }

/-- The product, with its operands' record. -/
def prod : Prod :=
  { a := tensorOf 1 entry, b := tensorOf 1 entry, qa := qrecOf record, qb := qrecOf record, fin := finOf (List.replicate 28 0 ++ leBytes 4 1)
    out := tensorOf 1 entry, row0 := 0, rows := 1, k0 := 0, klen := 32, col0 := 0, cols := 1 }

/-- Nothing goes wrong meanwhile. -/
def meet : PassMeet := ⟨[], 0, 0, false⟩

theorem recordIs : state.recordIs (tensorOf 1 entry) (qrecOf record) := by
  have hbytes : state.bytes (tensorOf 1 entry).record 32 = record := by decide +kernel
  refine ⟨?_, ?_, ?_⟩
  · unfold State.outerServes
    decide +kernel
  · rw [hbytes]
    decide +kernel
  · rw [hbytes]

theorem productIs : state.productIs 0 op 0 job prod := by
  have hshape : job.prodShape cue = some { prod with qa := qrecOf [], qb := qrecOf [] } := by decide +kernel
  refine ⟨rfl, rfl, rfl, ⟨_, hshape, ?_, ?_⟩, recordIs, recordIs, ?_, rfl, rfl, rfl, fun _ => rfl, ?_⟩ <;> decide +kernel

theorem passFeeds : state.passFeeds prod tile none none 0 := by
  have hfeeds : state.feeds (tensorOf 1 entry) (qrecOf record) none 1 0 0 := by
    have hserves : state.blockServes (tensorOf 1 entry) (qrecOf record) 0 := by
      unfold State.blockServes State.outerServes
      decide +kernel
    have hplain : (state.storedBlock (tensorOf 1 entry) (qrecOf record) 0).2.testBit 3 = false := by decide +kernel
    exact ⟨hserves, fun h => absurd (hplain.symm.trans h) (by decide)⟩
  intro bk hbk
  rw [show prod.kBlocks 0 = [(0, 32)] by decide +kernel, List.mem_singleton] at hbk
  subst hbk
  refine ⟨fun m hm => ?_, fun n hn => ?_⟩
  · obtain rfl : m = 0 := Nat.lt_one_iff.1 hm
    exact hfeeds
  · obtain rfl : n = 0 := Nat.lt_one_iff.1 hn
    exact hfeeds

theorem passes : prod.passes 1 = [(0, 0, 0)] := by decide +kernel

/-- Seen from the state before, the pass overflows and marks the set for a retry. -/
theorem overflow_passed : (state.passed 0 prod none none (AccSet.start tile (prod.passes 1)) 0 0 0).overflow = true := by decide +kernel

/-- The command leaves a set that saturated. -/
def saturated : Bool :=
  match exec (.passStart 0 0 meet) state with
  | .next t => (SMap.find t.sets 0).any fun y => !y.overflow
  | _ => false

theorem saturated_of_exec {t : State} (h : exec (.passStart 0 0 meet) state = .next t) :
    (SMap.find t.sets 0).any (fun y => !y.overflow) = true := by
  have hsat : saturated = true := by decide +kernel
  rwa [saturated, h] at hsat

end BoundTwice

/-- Refutes O38: a tile bound during a rehearsal saturates, where the slot's job is listed twice and only the hidden entry is open. -/
theorem not_passesRunAndSetsDrain : ¬ Obligations.PassesRunAndSetsDrain := by
  intro h
  obtain ⟨t, hexec, ⟨hset, -⟩, -⟩ := (((h.1 BoundTwice.state 0 0 0 BoundTwice.meet BoundTwice.op BoundTwice.job BoundTwice.prod
    (by decide) (by decide) (.inl (by decide +kernel))).2.1 BoundTwice.tile rfl rfl BoundTwice.productIs).1 0 0 0 [] (by decide +kernel)
    BoundTwice.passes).1 (by decide +kernel) rfl none none (.inl (by decide +kernel)) (.inl (by decide +kernel)) BoundTwice.passFeeds
  have hsat := BoundTwice.saturated_of_exec hexec
  rw [show SMap.find t.sets 0 = _ from hset, Option.any_some, Bool.not_eq_true'] at hsat
  exact absurd (BoundTwice.overflow_passed.symm.trans hsat) (by decide)

end Sys2Proof.Machine

namespace Sys2Proof.Machine

open Sys2Proof

/-! ### A capture of an idle array while another waits

A capture that waits is held in `captures`, which is no register. The statement lets a capture of an idle array change two registers and
nothing else; where one of the same engine waits, it ends that one with its own value. -/

namespace WaitingCapture

/-- A device that has started: engine 0 is in TEST with an idle array, and a capture of it waits. -/
def state : State :=
  { (State.reset.setF Reg.lastStep 11).wr (unitOff (UId.engine 0)) US.test with
    pins := { Pins.off with stby := true, pwr := true, perst := false, counted := true }, captures := [0] }

/-- The command leaves no capture waiting. -/
def ended : Bool :=
  match exec (.testCapture 0) state with
  | .next t => t.captures.isEmpty
  | _ => false

theorem captures_of_exec {t : State} (h : exec (.testCapture 0) state = .next t) : t.captures = [] := by
  have hended : ended = true := by decide +kernel
  rw [ended, h] at hended
  exact List.isEmpty_iff.1 hended

end WaitingCapture

/-- Refutes O40: a test capture of an idle array ends a capture that waits, so more than its two registers changes. -/
theorem not_enginesFailAndAreTested : ¬ Obligations.EnginesFailAndAreTested := by
  intro h
  have htest := ((h WaitingCapture.state 0 (by decide)).2.1 (by decide +kernel)).1
  obtain ⟨t, hexec, -, -, -, honly, -⟩ := htest 0 (by decide +kernel) (by decide +kernel) (by decide +kernel)
  have hkept : t.captures = [0] := by
    rw [honly]
    rfl
  exact absurd ((WaitingCapture.captures_of_exec hexec).symm.trans hkept) (by decide)

end Sys2Proof.Machine

namespace Sys2Proof.Machine

open Sys2Proof

/-! ### Reads of HBM that are served at once -/

theorem State.tierOf_hbm {s : State} {a n : Nat} (h : s.tierOf a n = some .hbm) (t : State) : t.tierOf a n = some .hbm := by
  rw [State.tierOf] at h ⊢
  split at h
  · cases h
  · rename_i hb
    rw [if_neg hb]
    split at h
    · rename_i hr
      rw [if_pos hr]
    · split at h
      · cases h
      · split at h <;> cases h

section
variable {s : State} {a n : Nat}

theorem State.openOuter_served {w : Bool} (h : s.outerServes .hbm a n) : s.openOuter .hbm a n w = (0, s) := by
  obtain ⟨-, hpages, hvoided, hup⟩ := h
  have hoff : s.stackOff a n = false := by
    rcases hup with ⟨-, hoff⟩ | ⟨htier, -⟩
    · exact hoff
    · cases htier
  rw [State.openOuter, if_neg (by rw [hoff]; simp), if_neg (by rw [State.hostBias, hpages]; simp), State.voidsIn, hvoided]
  rfl

theorem State.openRange_served (rq : Requester) {w add : Bool} (h : s.outerServes .hbm a n) : s.openRange rq a n w add = (0, s) := by
  rw [State.openRange, h.1]
  split
  · rfl
  · exact State.openOuter_served h

/-- A read that HBM serves gives the bytes and leaves the state. -/
theorem State.devRead_served (rq : Requester) (h : s.outerServes .hbm a n) : s.devRead rq a n = (0, s.bytes a n, s) := by
  rw [State.devRead, State.openRange_served rq h]
  simp only [h.1]
  rfl

variable {rq : Requester} {j : Job} {t : Tensor} {q : QRec} {f : Option (Tensor × QRec)} {no : Nat}

theorem State.readRec_recordIs (h : s.recordIs t q) : s.readRec rq t = (0, q, s) := by
  obtain ⟨hserves, hform, rfl⟩ := h
  simp only [State.readRec, State.readForm, State.devRead_served rq hserves, hform]

theorem State.fbOf_copyIs (h : s.copyIs j q f) : s.fbOf rq j q = (0, f, s) := by
  cases f with
  | none =>
    rcases h with h | h
    · exact State.fbOf_none s rq j h
    · rw [State.fbOf, h]
      split <;> rfl
  | some x =>
    obtain ⟨hcopy, htensor, hrec⟩ := h
    simp only [State.fbOf, hcopy, htensor, State.readRec_recordIs hrec, if_true]

/-- A block whose planes HBM serves is read as it is stored. -/
theorem State.readQBlock_served (h : s.blockServes t q no) :
    s.readQBlock rq t q.stored no = (0, (s.storedBlock t q no).1, (s.storedBlock t q no).2, s) := by
  obtain ⟨hcodes, hscale, htag⟩ := h
  simp only [State.readQBlock, State.readBlockAt, State.devRead_served rq hcodes, State.devRead_served rq hscale,
    State.devRead_served rq htag]
  rfl

/-! ### Feeders -/

variable {slices r b k : Nat}

theorem State.fed_narrow (h : (s.storedBlock t q (r * t.blocksPer q.stored.rotN + b)).2.testBit 3 = false) :
    s.fed t q f r b k = feedBlock q.stored.fmt q.sf16 k q.pre (s.storedBlock t q (r * t.blocksPer q.stored.rotN + b)).1 := by
  simp only [State.fed, h]

theorem State.fed_wide {ft : Tensor} {fq : QRec} (h : (s.storedBlock t q (r * t.blocksPer q.stored.rotN + b)).2.testBit 3 = true) :
    s.fed t q (some (ft, fq)) r b k
      = feedBlock fq.stored.fmt fq.sf16 k fq.pre (s.storedBlock ft fq (r * t.blocksPer q.stored.rotN + b)).1 := by
  simp only [State.fed, h]

/-- A feeder gives the block that the operand holds, or its copy's (R106, R183). -/
theorem State.feed_feeds (h : s.feeds t q f slices r b) :
    s.feed rq j t q f slices k r b none = (0, s.fed t q f r b k, s) := by
  obtain ⟨hserves, hwide⟩ := h
  simp only [State.feed, Option.bind_none, State.readQBlock_served hserves]
  cases hw : (s.storedBlock t q (r * t.blocksPer q.stored.rotN + b)).2.testBit 3 with
  | false => simp only [State.fed_narrow hw, Bool.false_eq_true, if_false]
  | true =>
    obtain ⟨ft, fq, rfl, hslices, hcopy⟩ := hwide hw
    simp only [State.fed_wide hw, if_true, State.readQBlock_served hcopy, if_neg (Nat.not_lt.2 hslices)]

theorem State.feedRow_feeds (l : List (Nat × Nat)) (h : ∀ bk ∈ l, s.feeds t q f slices r bk.1) :
    s.feedRow rq j t q f slices r none l = (0, l.map fun bk => s.fed t q f r bk.1 bk.2, s) := by
  induction l with
  | nil => rfl
  | cons bk l ih =>
    obtain ⟨b, k⟩ := bk
    have hb := State.feed_feeds (rq := rq) (j := j) (k := k) (h (b, k) (List.mem_cons_self ..))
    simp only [State.feedRow, hb, ih fun x hx => h x (List.mem_cons_of_mem _ hx), List.map_cons]

theorem State.feedRows_feeds (l : List (Nat × Nat)) (rows : List Nat) (h : ∀ r ∈ rows, ∀ bk ∈ l, s.feeds t q f slices r bk.1) :
    s.feedRows rq j t q f slices l none rows = (0, rows.map fun r => l.map fun bk => s.fed t q f r bk.1 bk.2, s) := by
  induction rows with
  | nil => rfl
  | cons r rows ih =>
    have hr := State.feedRow_feeds (rq := rq) (j := j) l (h r (List.mem_cons_self ..))
    simp only [State.feedRows, hr, ih fun x hx => h x (List.mem_cons_of_mem _ hx), List.map_cons]

end

/-! ### The product of a tile -/

theorem Job.prodShape_viewOf (j : Job) (o : OpSlot) (c : CueRec) : (j.viewOf o).prodShape c = j.prodShape c := rfl

section
variable {s : State} {i e slot : Nat} {o : OpSlot} {j : Job} {p : Prod}

/-- The state once the key that a product's signs use is loaded (R209). -/
def State.keyed (s : State) (p : Prod) : State := s.loadRot (rotEpochOf p.qa.rot p.qa.rotStep p.qa.step)

theorem State.prodRead_productIs (rq : Requester) (h : s.productIs i o slot j p) :
    s.prodRead rq (j.viewOf o) o.cue = (0, 0xFFFF, some p, s.keyed p) := by
  obtain ⟨-, -, -, ⟨q, hshape, hp, hlen⟩, ha, hb, hout, hrot, hkey, hstep, hsame, hseg⟩ := h
  have hpa : p.a = q.a := by rw [hp]
  have hpb : p.b = q.b := by rw [hp]
  have hpk : p.k0 = q.k0 := by rw [hp]
  rw [hpa] at ha
  rw [hpb] at hb
  rw [hpk] at hseg
  have hagree : (p.qa.rot == p.qb.rot && p.qa.rotKey == p.qb.rotKey && p.qa.rotStep == p.qb.rotStep
      && (!p.qa.rotStep || p.qa.step == p.qb.step)) = true := by
    simp only [hrot, hkey, hstep, beq_self_eq_true, Bool.true_and, Bool.or_eq_true, Bool.not_eq_true', beq_iff_eq]
    rw [← hstep]
    cases hr : p.qa.rotStep
    · exact .inl rfl
    · exact .inr (hsame hr)
  have hfits : ¬ paddedLen q.a.redLen (rotLen p.qa.rot) < q.k0 + q.klen := Nat.not_lt.2 hlen
  have hwhole : ¬(rotLen p.qa.rot ≠ 0 ∧ q.k0 % rotLen p.qa.rot ≠ 0) := fun hn => hn.2 (hseg hn.1)
  simp only [State.prodRead, Job.prodShape_viewOf, hshape, State.readRec_recordIs ha, State.readRec_recordIs hb, hout, hagree,
    Bool.not_true, Bool.false_eq_true, or_self, if_false, if_neg hwhole, if_neg hfits]
  rw [← hp]
  rfl

/-- A tile's operation is still there, and its product reads (R188). -/
theorem State.workOf_productIs (e : Nat) {w : TileWork} (h : s.productIs w.op o slot j p) :
    s.workOf e w = (some (o, slot, j.viewOf o, p), s.keyed p) := by
  obtain ⟨hop, hslot, hjob, -⟩ := id h
  simp only [State.workOf, hop, hslot, Option.bind_some, hjob, Option.map_some, State.prodOf, State.prodRead_productIs (engRq e o) h]

end

end Sys2Proof.Machine

namespace Sys2Proof.Machine

open Sys2Proof

/-! ### What an engine's own changes leave -/

/-- What an engine changes besides memory and records: the command's outputs, the array, the key register of its draws, and its own
registers. -/
def engineAreas : Nat := areas [.out, .array, .rng, .engines]

theorem touch_quiet (s : State) : Touch engineAreas s s.quiet := Touch.set_out (Touch.refl ..) rfl

/-- The registers below the engine windows belong to areas before them. -/
theorem regArea_lt_engines {off : Nat} (h : off < 0x480000) : regArea off < 32 := by
  have hsplit : blockEnds = blockEnds.take 11 ++ blockEnds.drop 11 := rfl
  have hlow : ((blockEnds.take 11).countP fun b => b ≤ off) ≤ 11 := List.countP_le_length
  have hhigh : ((blockEnds.drop 11).countP fun b => decide (b ≤ off)) = 0 := by
    refine List.countP_eq_zero.2 fun b hb => ?_
    have hmin : ∀ b ∈ blockEnds.drop 11, 0x480000 ≤ b := by decide
    have := hmin b hb
    rw [decide_eq_true_eq]
    omega
  rw [regArea, hsplit, List.countP_append, hhigh]
  omega

section
variable {s t : State} {slot : Nat} {o : OpSlot} {j : Job} {p : Prod} {q : QRec} {x : Tensor} {f : Option (Tensor × QRec)}
  (h : Touch engineAreas s t)
include h

theorem Touch.engine_rd {off : Nat} (ho : off < 0x480000) : t.rd off = s.rd off := by
  have hlt := regArea_lt_engines ho
  have hle := (regArea_lt off).1
  refine h.regs off ?_
  have hbits : ∀ k < 12, engineAreas.testBit (20 + k) = false := by decide
  obtain ⟨k, hk⟩ := Nat.exists_eq_add_of_le hle
  rw [hk]
  exact hbits k (by omega)

theorem Touch.engine_bytes (a n : Nat) : t.bytes a n = s.bytes a n := by
  refine List.map_congr_left fun i _ => ?_
  rcases lt_or_ge (a + i) farBase with ha | ha
  · exact h.mem rfl _ ha
  · exact h.far rfl _ ha

theorem Touch.engine_hostPages : t.host.hostPages = s.host.hostPages := by
  rw [h.host rfl]

theorem Touch.engine_fld {g : Fld} (hg : g.off < 0x480000) : t.fld g = s.fld g :=
  congrArg (bits g.hi g.lo) (h.engine_rd hg)

theorem Touch.engine_stackOff (a n : Nat) : t.stackOff a n = s.stackOff a n := by
  have hup : ∀ i ∈ List.range 8, (t.fld (Reg.stackUp.plus (0x40 * i)) != 1 || t.unitRaw (UId.stack i) == US.fenced)
      = (s.fld (Reg.stackUp.plus (0x40 * i)) != 1 || s.unitRaw (UId.stack i) == US.fenced) := by
    intro i hi
    rw [List.mem_range] at hi
    rw [State.unitRaw, State.unitRaw, State.unitEntry, State.unitEntry,
      h.engine_fld (g := Reg.stackUp.plus (0x40 * i)) (by simp only [Reg.stackUp, Fld.plus]; omega),
      h.engine_rd (off := unitOff (UId.stack i)) (by simp only [unitOff, UId.stack]; omega)]
  simp only [State.stackOff, List.filter_congr hup]

/-- What HBM serves it serves after the engine's change. -/
theorem Touch.engine_serves {a n : Nat} (hs : s.outerServes .hbm a n) : t.outerServes .hbm a n := by
  obtain ⟨htier, hpages, hvoided, hup⟩ := hs
  refine ⟨State.tierOf_hbm htier t, h.engine_hostPages.trans hpages, (h.outer rfl).2.2.trans hvoided, .inl ⟨rfl, ?_⟩⟩
  rw [h.engine_stackOff]
  rcases hup with ⟨-, hoff⟩ | ⟨hddr, -⟩
  · exact hoff
  · cases hddr

theorem Touch.engine_recordIs (hr : s.recordIs x q) : t.recordIs x q := by
  obtain ⟨hserves, hform, hq⟩ := hr
  rw [← h.engine_bytes] at hform hq
  exact ⟨h.engine_serves hserves, hform, hq⟩

theorem Touch.engine_copyIs (hc : s.copyIs j q f) : t.copyIs j q f := by
  cases f with
  | none => exact hc
  | some y => exact ⟨hc.1, hc.2.1, h.engine_recordIs hc.2.2⟩

theorem Touch.engine_storedBlock (no : Nat) : t.storedBlock x q no = s.storedBlock x q no := by
  simp only [State.storedBlock, State.num, h.engine_bytes]

theorem Touch.engine_blockServes {no : Nat} (hb : s.blockServes x q no) : t.blockServes x q no :=
  ⟨h.engine_serves hb.1, h.engine_serves hb.2.1, h.engine_serves hb.2.2⟩

theorem Touch.engine_fed (r b k : Nat) : t.fed x q f r b k = s.fed x q f r b k := by
  simp only [State.fed, h.engine_storedBlock]

theorem Touch.engine_feeds {slices r b : Nat} (hf : s.feeds x q f slices r b) : t.feeds x q f slices r b := by
  refine ⟨h.engine_blockServes hf.1, fun hw => ?_⟩
  rw [h.engine_storedBlock] at hw
  obtain ⟨ft, fq, hfb, hslices, hcopy⟩ := hf.2 hw
  exact ⟨ft, fq, hfb, hslices, h.engine_blockServes hcopy⟩

theorem Touch.engine_passFeeds {w : TileWork} {fa fb : Option (Tensor × QRec)} {kt : Nat} (hf : s.passFeeds p w fa fb kt) :
    t.passFeeds p w fa fb kt :=
  fun bk hbk => ⟨fun m hm => h.engine_feeds ((hf bk hbk).1 m hm), fun n hn => h.engine_feeds ((hf bk hbk).2 n hn)⟩

theorem Touch.engine_fedRow (kt r : Nat) : t.fedRow p x q f kt r = s.fedRow p x q f kt r :=
  List.map_congr_left fun _ _ => h.engine_fed ..

theorem Touch.engine_productIs {i : Nat} (hp : s.productIs i o slot j p) : t.productIs i o slot j p := by
  obtain ⟨hop, hslot, hjob, hshape, ha, hb, hrest⟩ := hp
  refine ⟨?_, hslot, ?_, hshape, h.engine_recordIs ha, h.engine_recordIs hb, hrest⟩
  · rw [h.ops rfl]
    exact hop
  · rw [State.job, h.jobs rfl]
    exact hjob

end

/-! ### Registers of an engine's window -/

section
variable {s : State} {e off : Nat} {f : Fld}

theorem State.rd_setEf_other (v : Nat) (h : f.off + 0x400 * e ≠ off) : (s.setEf e f v).rd off = s.rd off := by
  rw [State.setEf]
  split
  · exact s.rd_setF_other v h
  · rfl

theorem State.rd_addEf_other (n : Nat) (h : f.off + 0x400 * e ≠ off) : (s.addEf e f n).rd off = s.rd off := by
  rw [State.addEf]
  split
  · exact s.rd_setF_other _ h
  · rfl

theorem State.rd_wrEng_other {o : Nat} (v : Nat) (h : o + 0x400 * e ≠ off) : (s.wrEng e o v).rd off = s.rd off := by
  rw [State.wrEng]
  split
  · exact State.rd_wr_other s v h
  · rfl

/-- A field of a register of the engine's window, every bit of which the register has. -/
def inEngWindow (f : Fld) : Bool :=
  engWindow.any fun r => 0x480000 + r.off == f.off && bits f.hi f.lo r.mask == 2 ^ (f.hi + 1 - f.lo) - 1

theorem findIn_engWindow : ∀ r ∈ engWindow, findIn r.off engWindow = some r ∧ r.off < 0x400 := by decide

theorem held_of_inEngWindow (he : e < 144) (hf : inEngWindow f = true) : (f.plus (0x400 * e)).held := by
  obtain ⟨r, hr, hf⟩ := List.any_eq_true.1 hf
  simp only [Bool.and_eq_true, beq_iff_eq] at hf
  obtain ⟨hoff, hbits⟩ := hf
  obtain ⟨hin, hlt⟩ := findIn_engWindow r hr
  have hfind : findReg (f.off + 0x400 * e) bar0 = some (r, f.off + 0x400 * e, e) :=
    findReg_engine he hlt hin (by omega) (by omega)
  change bits f.hi f.lo (regMask (f.off + 0x400 * e)) = 2 ^ (f.hi + 1 - f.lo) - 1
  rw [regMask_of_findReg hfind]
  exact hbits

theorem State.ef_setEf (v : Nat) (he : e < 144) (hf : inEngWindow f = true) :
    (s.setEf e f v).ef e f = v % 2 ^ (f.hi + 1 - f.lo) := by
  rw [State.setEf, if_pos he, State.ef, State.fld_setF _ _ (held_of_inEngWindow he hf)]
  rfl

theorem State.ef_congr {t : State} (h : t.rd (f.off + 0x400 * e) = s.rd (f.off + 0x400 * e)) : t.ef e f = s.ef e f :=
  congrArg (bits f.hi f.lo) h

/-- A field of another register of the window stays. -/
theorem State.ef_setEf_other {g : Fld} (v : Nat) (h : f.off ≠ g.off) : (s.setEf e f v).ef e g = s.ef e g :=
  State.ef_congr (State.rd_setEf_other v fun hn => h (Nat.add_right_cancel hn))

/-- No record is written in an engine's window. -/
theorem engine_not_mem_recordRegs (h : 0x480000 ≤ off) : off ∉ recordRegs := by
  have hlt : ∀ o ∈ recordRegs, o < 0x480000 := by decide
  exact fun hm => absurd (hlt off hm) (Nat.not_lt.2 h)

end

end Sys2Proof.Machine

namespace Sys2Proof.Machine

open Sys2Proof

/-! ### Merged bits -/

theorem and_mod_two (a m : Nat) : (a &&& m) % 2 = a % 2 * (m % 2) := by
  have h := Nat.and_mod_two_pow (a := a) (b := m) (n := 1)
  rw [Nat.pow_one] at h
  rw [h]
  rcases Nat.mod_two_eq_zero_or_one a with ha | ha <;> rcases Nat.mod_two_eq_zero_or_one m with hm | hm <;> rw [ha, hm] <;> rfl

/-- What is left of a number without the bits of a mask. -/
theorem testBit_sub_and (a m i : Nat) : (a - (a &&& m)).testBit i = (a.testBit i && !m.testBit i) := by
  induction i generalizing a m with
  | zero =>
    have hle : a &&& m ≤ a := Nat.and_le_left
    have hlow := and_mod_two a m
    simp only [Nat.testBit_zero]
    rcases Nat.mod_two_eq_zero_or_one m with hm | hm <;> rw [hm] at hlow ⊢
    · have : (a - (a &&& m)) % 2 = a % 2 := by omega
      simp [this]
    · have : (a - (a &&& m)) % 2 = 0 := by omega
      simp [this]
  | succ i ih =>
    have hle : a &&& m ≤ a := Nat.and_le_left
    have hlow : (a &&& m) % 2 ≤ a % 2 := by
      rw [and_mod_two]
      exact mul_le_of_le_one_right (Nat.zero_le _) (by omega)
    have hhalf : (a - (a &&& m)) / 2 = a / 2 - (a / 2 &&& m / 2) := by
      rw [← Nat.and_div_two]
      omega
    rw [Nat.testBit_succ, Nat.testBit_succ, Nat.testBit_succ, hhalf, ih]

/-- A field whose bits are all merged takes those of the new value. -/
theorem bits_mergeBits {hi lo m : Nat} (a b : Nat) (h : bits hi lo m = 2 ^ (hi + 1 - lo) - 1) :
    bits hi lo (mergeBits m a b) = bits hi lo b := by
  refine Nat.eq_of_testBit_eq fun i => ?_
  have hm : ∀ i < hi + 1 - lo, m.testBit (lo + i) = true := by
    intro i hi'
    have hb := congrArg (Nat.testBit · i) h
    simp only [testBit_bits, Nat.testBit_two_pow_sub_one, hi', decide_true, Bool.true_and] at hb
    exact hb
  rw [testBit_bits, testBit_bits, mergeBits, Nat.testBit_or, testBit_sub_and, Nat.testBit_and]
  by_cases hi' : i < hi + 1 - lo
  · simp [hm i hi']
  · simp [hi']

/-! ### The test registers of an engine -/

/-- TEST_SEL (Table 3.12). -/
def testSel : RegDesc := r32 0x040 [rw 24 16 0 0 259, rw 7 0 0 0 255]

section
variable {s : State} {e v : Nat} (he : e < 144)

theorem blockUnit_engine {off : Nat} (hlo : 0x480000 + 0x400 * e ≤ off) (hhi : off < 0x480400 + 0x400 * e) (he : e < 144) :
    blockUnit off = 0x1000 + e := by
  rw [blockUnit]
  refine (if_neg (by omega)).trans ((if_neg (by omega)).trans ((if_neg (by omega)).trans ((if_neg (by omega)).trans
    ((if_neg (by omega)).trans ((if_pos (by omega)).trans ?_)))))
  rw [UId.engine]
  omega

/-- A test access that is discarded leaves the engines' registers and is recorded. -/
theorem State.discardWrite_kept {off : Nat} (hlo : 0x480000 + 0x400 * e ≤ off) (hhi : off < 0x480400 + 0x400 * e) (he : e < 144)
    (hv : v < 2 ^ 32) (reason : Nat) :
    (∀ o, 0x480000 ≤ o → (s.discardWrite off v reason).rd o = s.rd o)
      ∧ (s.pins.vsb = true → Noted (s.discardWrite off v reason) 0xB001 (0x1000 + e) [off, v, reason]) := by
  rw [State.discardWrite, blockUnit_engine hlo hhi he, Nat.mod_eq_of_lt hv]
  exact ⟨fun o ho => State.rd_event (engine_not_mem_recordRegs ho) .., fun hv => s.noted_event _ _ _ _ hv⟩

include he

theorem findReg_testSel : findReg (0x480040 + 0x400 * e) bar0 = some (testSel, 0x480040 + 0x400 * e, e) := by
  have hoff : 0x480040 + 0x400 * e = 0x480000 + 0x400 * e + 0x40 := by omega
  exact findReg_engine he (by decide) (by decide) hoff hoff

theorem findReg_testCapture : findReg (0x480044 + 0x400 * e) bar0 = some (clr 0x044, 0x480044 + 0x400 * e, e) := by
  have hoff : 0x480044 + 0x400 * e = 0x480000 + 0x400 * e + 0x44 := by omega
  exact findReg_engine he (by decide) (by decide) hoff hoff

/-- TEST_CAPTURE acts on its bit 0 in TEST, and is discarded in any other state (R132). -/
theorem State.command_testCapture (raw : Nat) : s.command (0x480044 + 0x400 * e) v (0x480044 + 0x400 * e) raw
    = if s.engSt e ≠ US.test then s.discardWrite (0x480044 + 0x400 * e) raw 4 else if bits 0 0 v = 1 then s.capture e else s := by
  rw [State.command]
  refine (if_neg ?_).trans ((if_neg ?_).trans ((if_neg ?_).trans ((if_neg ?_).trans ?_)))
  iterate 4 simp only [Reg.biasCmd, Reg.queCmd, Reg.unitCmd, Reg.mbxCmd]; omega
  rw [windowIndex_none (by omega), windowIndex_engine he]

/-- TEST_SEL is writable in TEST only. -/
theorem State.stateForbids_testSel (old : Nat) :
    s.stateForbids (0x480040 + 0x400 * e) old v = if s.engSt e ≠ US.test then some 4 else none := by
  rw [State.stateForbids]
  refine (if_neg ?_).trans ((if_neg ?_).trans ((if_neg ?_).trans ((if_neg ?_).trans ?_)))
  iterate 3 simp only [Reg.hostRingBase, Reg.hostRingCtrl, Reg.queTableBase]; omega
  · omega
  · rw [windowIndex_engine he]

theorem State.ownRule_testSel (a raw : Nat) : s.ownRule (0x480040 + 0x400 * e) v a raw = none := by
  rw [State.ownRule]
  refine (if_neg (by omega)).trans ((if_neg (by omega)).trans ((if_neg ?_).trans ?_))
  · simp only [Reg.hostRingHead]
    omega
  · rw [windowIndex_none (by omega), windowIndex_none (by omega)]

theorem State.lockedBits_testSel : s.lockedBits (0x480040 + 0x400 * e) = 0 := by
  have hmask : rwlMask (0x480040 + 0x400 * e) = 0 := by
    rw [rwlMask, findReg_testSel he]
    exact if_pos rfl
  rw [State.lockedBits, hmask]
  exact Nat.zero_sub _

theorem relationsOk_testSel : relationsOk (0x480040 + 0x400 * e) v = true := by
  rw [relationsOk]
  refine (if_neg (by omega)).trans ((if_neg (by omega)).trans ((if_neg ?_).trans ((if_neg ?_).trans ((if_neg ?_).trans (if_neg ?_)))))
  iterate 4 simp only [Reg.exportBase, Reg.exportSlotSize, Reg.hostRingBase, Reg.mbxReq, Reg.mbxResp, Reg.restoreBase]; omega

/-- A cell of the array passes every check in TEST. -/
theorem State.writeFault_testSel (cov : Nat) (hst : s.engSt e = US.test) (hv : bits 24 16 v ≤ 259) :
    s.writeFault testSel (0x480040 + 0x400 * e) cov v = none := by
  have hcol : bits 7 0 v ≤ 255 := Nat.le_of_lt_succ (bits_lt 7 0 v)
  simp only [State.writeFault, State.stateForbids_testSel he, hst, ne_eq, not_true_eq_false, if_false, State.lockedBits_testSel he,
    Nat.and_zero, and_false, relationsOk_testSel he]
  simp [testSel, r32, rw, hv, hcol]

theorem State.writeFault_testSel_denied (cov : Nat) (hst : s.engSt e ≠ US.test) :
    s.writeFault testSel (0x480040 + 0x400 * e) cov v = some 4 := by
  simp only [State.writeFault, State.stateForbids_testSel he, if_pos hst]

end

/-! ### Captures -/

section
variable {s : State} {e : Nat}

theorem twos_lt (w : Nat) (i : Int) : twos w i < 2 ^ w := by
  have hpos : (0 : Int) < ((2 ^ w : Nat) : Int) := Int.natCast_pos.2 (Nat.two_pow_pos w)
  have hlt := Int.emod_lt_of_pos i hpos
  have hnonneg := Int.emod_nonneg i hpos.ne'
  rw [twos]
  omega

/-- A capture that completes shows its value and ends any that waits. -/
theorem State.ef_captured (he : e < 144) (v : Int) :
    (s.captured e v).ef e Reg.testA20 = twos 32 v ∧ (s.captured e v).ef e Reg.testValid = 1 := by
  constructor
  · have hval : ∀ t : State, (t.setEf e Reg.testA20 (twos 32 v)).ef e Reg.testA20 = twos 32 v % 2 ^ 32 :=
      fun t => State.ef_setEf _ he (by decide)
    rw [State.captured, State.ef_setEf_other _ (by decide), hval, Nat.mod_eq_of_lt (twos_lt 32 v)]
  · exact State.ef_setEf 1 he (by decide)

theorem State.captures_captured (v : Int) : (s.captured e v).captures = s.captures.filter (· != e) := by
  simp only [State.captured, State.setEf]
  split <;> simp only [State.setF_captures]

theorem not_mem_captures_captured (v : Int) : e ∉ (s.captured e v).captures := by
  rw [State.captures_captured]
  simp

/-- The selected cell depends on the engine's registers alone. -/
theorem State.testCell_congr {t : State} (hmap : t.rd (Reg.spareMap + 0x400 * e) = s.rd (Reg.spareMap + 0x400 * e))
    (hsel : t.rd (0x480040 + 0x400 * e) = s.rd (0x480040 + 0x400 * e)) : t.testCell e = s.testCell e := by
  have hrow : t.ef e Reg.testRow = s.ef e Reg.testRow := State.ef_congr hsel
  have hcol : t.ef e Reg.testCol = s.ef e Reg.testCol := State.ef_congr hsel
  rw [State.testCell, State.testCell, State.cellRow, State.cellRow, hmap, hrow, hcol]

theorem State.testCell_invalid : (s.setEf e Reg.testValid 0).testCell e = s.testCell e :=
  State.testCell_congr (State.rd_setEf_other _ (by simp only [Reg.testValid, Reg.spareMap]; omega))
    (State.rd_setEf_other _ (by simp only [Reg.testValid]; omega))

theorem State.capture_denied (h : s.engSt e ≠ US.test) : s.capture e = s.discardWrite (0x480044 + 0x400 * e) 1 4 := if_pos h

/-- In TEST a capture clears VALID; an idle array gives the held value at once. -/
theorem State.capture_idle (h : s.engSt e = US.test) (hb : s.ef e Reg.arrayBusy = 0) :
    s.capture e = (s.setEf e Reg.testValid 0).captureHeld e := by
  have hb' : (s.setEf e Reg.testValid 0).ef e Reg.arrayBusy = 0 := (State.ef_setEf_other _ (by decide)).trans hb
  rw [State.capture, if_neg (not_not.2 h), if_neg (by rw [hb']; decide)]

/-- In a busy array the capture waits. -/
theorem State.capture_busy (h : s.engSt e = US.test) (hb : s.ef e Reg.arrayBusy = 1) :
    (s.capture e).ef e Reg.testValid = (s.setEf e Reg.testValid 0).ef e Reg.testValid ∧ e ∈ (s.capture e).captures := by
  have hb' : (s.setEf e Reg.testValid 0).ef e Reg.arrayBusy = 1 := (State.ef_setEf_other _ (by decide)).trans hb
  rw [State.capture, if_neg (not_not.2 h), if_pos hb']
  split
  · rename_i hm
    exact ⟨rfl, List.contains_iff_mem.1 hm⟩
  · exact ⟨rfl, List.mem_cons_self ..⟩

/-- The value a capture of an idle array takes is the one that the selected cell holds. -/
theorem State.ef_capture_idle (he : e < 144) (h : s.engSt e = US.test) (hb : s.ef e Reg.arrayBusy = 0) {r : Nat}
    (hr : s.cellRow e (s.ef e Reg.testRow) = some r) :
    (s.capture e).ef e Reg.testA20 = twos 32 (SMap.get 0 s.cells (e * 2 ^ 17 + r * 256 + s.ef e Reg.testCol)) := by
  have hcells : (s.setEf e Reg.testValid 0).cells = s.cells := by
    rw [State.setEf, if_pos he, State.setF_cells]
  rw [State.capture_idle h hb, State.captureHeld, (State.ef_captured he _).1, State.testCell_invalid, State.testCell, hr, hcells]
  rfl

end

section
variable {s : State} {e v : Nat} (he : e < 144) (hs : s.served = true)
include he hs

theorem exec_testCapture : exec (.testCapture e) s = .next { s.quiet.capture e with pending := s.pending } := by
  change execTestCapture e s = _
  rw [execTestCapture, run_next (ok := engOk e) _ s (decide_eq_true he), State.hostWrite, if_pos (State.open0_of_served (s := s.quiet) hs _)]

theorem exec_write_testCapture (hv : v < 2 ^ 32) : exec (.registerWrite (0x480044 + 0x400 * e) 4 v) s
    = .next { (if s.engSt e ≠ US.test then s.quiet.discardWrite (0x480044 + 0x400 * e) v 4
        else if bits 0 0 v = 1 then s.quiet.capture e else s.quiet) with pending := s.pending } := by
  rw [exec_registerWrite_command (by omega) hv hs (findReg_testCapture he) rfl (by omega), State.command_testCapture he]
  rfl

theorem exec_write_testSel (hv : v < 2 ^ 32) : exec (.registerWrite (0x480040 + 0x400 * e) 4 v) s
    = .next { s.quiet.setControl testSel (0x480040 + 0x400 * e) (ones 32) v (0x480040 + 0x400 * e) v Src.host with
        pending := s.pending } := by
  have hraw : v % 2 ^ (8 * 4) = v := Nat.mod_eq_of_lt hv
  rw [exec_registerWrite_control (by omega) (by omega) hs (findReg_testSel he) rfl (.inl rfl) (by omega), hraw, Nat.sub_self]
  rfl

/-- A write of TEST_SEL outside TEST. -/
theorem exec_write_testSel_denied (hv : v < 2 ^ 32) (hst : s.engSt e ≠ US.test) : exec (.registerWrite (0x480040 + 0x400 * e) 4 v) s
    = .next { s.quiet.discardWrite (0x480040 + 0x400 * e) v 4 with pending := s.pending } := by
  rw [exec_write_testSel he hs hv, State.setControl_discarded (s := s.quiet) _ (by decide) (State.ownRule_testSel he _ _)
    (by simp only [List.mem_cons, List.not_mem_nil, or_false]; omega) (State.writeFault_testSel_denied he _ hst)]

/-- A write of TEST_SEL in TEST of a cell that the array has. -/
theorem exec_write_testSel_taken (hv : v < 2 ^ 32) (hst : s.engSt e = US.test) (hrow : bits 24 16 v ≤ 259) :
    ∃ t, exec (.registerWrite (0x480040 + 0x400 * e) 4 v) s = .next t ∧ t.ef e Reg.testRow = bits 24 16 v
      ∧ t.ef e Reg.testCol = bits 7 0 v := by
  let new := mergeBits (ones 32 &&& testSel.writable) (s.quiet.rd (0x480040 + 0x400 * e)) v
  have hfields : bits 24 16 new = bits 24 16 v ∧ bits 7 0 new = bits 7 0 v :=
    ⟨bits_mergeBits _ _ (by decide), bits_mergeBits _ _ (by decide)⟩
  have hnew := State.setControl_written (s := s.quiet) (o := 0x480040 + 0x400 * e) (raw := v) (a := 0x480040 + 0x400 * e) (v := v)
    (r := testSel) (cov := ones 32) Src.host (by decide) (State.ownRule_testSel he _ _)
    (by simp only [List.mem_cons, List.not_mem_nil, or_false]; omega)
    (State.writeFault_testSel he _ hst (by rw [hfields.1]; exact hrow))
  refine ⟨_, exec_write_testSel he hs hv, ?_⟩
  rw [hnew]
  have hmask : regMask (0x480040 + 0x400 * e) = testSel.mask := regMask_of_findReg (findReg_testSel he)
  have hread : (s.quiet.wr (0x480040 + 0x400 * e) new).rd (0x480040 + 0x400 * e) = new &&& testSel.mask := by
    rw [State.rd_wr_same, hmask]
  constructor
  · exact (congrArg (bits 24 16) hread).trans ((bits_and_of_full new (by decide)).trans hfields.1)
  · exact (congrArg (bits 7 0) hread).trans ((bits_and_of_full new (by decide)).trans hfields.2)

end

/-- The four test registers reset to zero. -/
theorem regReset_testAccess {e k : Nat} (he : e < 144) (hk : k < 4) : regReset (0x480040 + 0x400 * e + 4 * k) = 0 := by
  have hwin : ∀ k < 4, ∃ r, findIn (0x40 + 4 * k) engWindow = some r ∧ r.off = 0x40 + 4 * k ∧ r.step = 0 ∧ r.resetValue 0 = 0 := by
    decide
  obtain ⟨r, hr, hoff, hstep, hreset⟩ := hwin k hk
  have hfind : findReg (0x480040 + 0x400 * e + 4 * k) bar0 = some (r, 0x480040 + 0x400 * e + 4 * k, e) :=
    findReg_engine he (by omega) hr (by omega) (by omega)
  rw [regReset_of_findReg hfind, resetValue_of_step_zero hstep, hreset, Nat.zero_or, standbyReset]
  exact if_neg (by omega)

end Sys2Proof.Machine

namespace Sys2Proof.Machine

open Sys2Proof

/-! ### A pass of a bound set -/

section
variable {s : State} {rq : Requester} {e : Nat} {j : Job} {p : Prod} {x : AccSet} {fa fb : Option (Tensor × QRec)} {kt i jx : Nat}

/-- The blocks that the rows of a tile stream in a pass, and those that its columns hold. -/
def State.streamed (s : State) (p : Prod) (w : TileWork) (fa : Option (Tensor × QRec)) (kt : Nat) : List (List FBlock) :=
  (List.range w.rows).map fun m => s.fedRow p p.a p.qa fa kt (w.r0 + m)
def State.stationary (s : State) (p : Prod) (w : TileWork) (fb : Option (Tensor × QRec)) (kt : Nat) : List (List FBlock) :=
  (List.range w.cols).map fun n => s.fedRow p p.b p.qb fb kt (w.c0 + n)

theorem State.feedRows_streamed (h : s.passFeeds p x.work fa fb kt) :
    s.feedRows rq j p.a p.qa fa x.work.slices (p.kBlocks kt) none ((List.range x.work.rows).map (x.work.r0 + ·))
      = (0, s.streamed p x.work fa kt, s) := by
  rw [State.feedRows_feeds, List.map_map]
  · rfl
  · intro r hr bk hbk
    obtain ⟨m, hm, rfl⟩ := List.mem_map.1 hr
    exact (h bk hbk).1 m (List.mem_range.1 hm)

theorem State.feedRows_stationary (h : s.passFeeds p x.work fa fb kt) :
    s.feedRows rq j p.b p.qb fb x.work.slices (p.kBlocks kt) none ((List.range x.work.cols).map (x.work.c0 + ·))
      = (0, s.stationary p x.work fb kt, s) := by
  rw [State.feedRows_feeds, List.map_map]
  · rfl
  · intro r hr bk hbk
    obtain ⟨n, hn, rfl⟩ := List.mem_map.1 hr
    exact (h bk hbk).2 n (List.mem_range.1 hn)

/-- The mismatches that the last of a K-tile's passes records (R68). -/
def State.passNoted (s : State) (e : Nat) (p : Prod) (x : AccSet) (i jx : Nat) (ks : List (Nat × Nat)) (as bs : List (List FBlock)) : State :=
  let w := x.work
  let top := i + 1 == w.slices && jx + 1 == w.slices
  let s := if top then s.mismatches e p.a (p.a.blocksPer p.qa.stored.rotN) ((List.range w.rows).map (w.r0 + ·)) ks as else s
  if top then s.mismatches e p.b (p.b.blocksPer p.qb.stored.rotN) ((List.range w.cols).map (w.c0 + ·)) ks bs else s

/-- The registers that count and show a pass. -/
def State.passShown (s : State) (e : Nat) (p : Prod) (x : AccSet) (fa fb : Option (Tensor × QRec)) (kt i jx esc lost : Nat) : State :=
  ((((((s.addEf e Reg.passes 1).addEf e Reg.streamRows x.work.rows).addEf e Reg.tileLoads (b2n (jx + 1 == x.work.slices))).addEf e
    Reg.escapes esc).addEf e Reg.lostContrib lost).showPass e p x.work fa fb (none, none) kt i jx)

/-- The state of a pass before its capture: what its blocks say recorded, counted and shown. -/
def State.passMade (s : State) (e : Nat) (p : Prod) (x : AccSet) (fa fb : Option (Tensor × QRec)) (kt i jx esc lost : Nat) : State :=
  (s.passNoted e p x i jx (p.kBlocks kt) (s.streamed p x.work fa kt) (s.stationary p x.work fb kt)).passShown e p x fa fb kt i jx esc lost

/-- The outputs of a pass's first row. -/
def State.handshakes (s : State) (e : Nat) (p : Prod) (x : AccSet) (fa fb : Option (Tensor × QRec)) (kt i jx : Nat) : List (Nat × Int) :=
  heldCells e x.work.slices i jx ((p.kBlocks kt).map fun k => k.1 % 8) ((s.streamed p x.work fa kt).getD 0 []) (s.stationary p x.work fb kt)

def State.withCells (s : State) (cells : SMap Int) : State := { s with cells }

/-- A pass whose blocks can be read is made: counted, shown, with its capture and its held outputs. -/
theorem State.pass_fed (ha : s.copyIs j p.qa fa) (hb : s.copyIs j p.qb fb) (hf : s.passFeeds p x.work fa fb kt) :
    ∃ y esc lost cells, s.pass rq e j p x (none, none) kt i jx
      = (0, y, ((s.passMade e p x fa fb kt i jx esc lost).captureAt e (s.handshakes e p x fa fb kt i jx)).withCells cells) := by
  simp only [State.pass, State.fbOf_copyIs ha, State.fbOf_copyIs hb, State.feedRows_streamed hf, State.feedRows_stationary hf]
  exact ⟨_, _, _, _, rfl⟩

theorem passNoted_touch (s : State) (e : Nat) (p : Prod) (x : AccSet) (i jx : Nat) (ks : List (Nat × Nat)) (as bs : List (List FBlock)) :
    Touch (areas recordAreas) s (s.passNoted e p x i jx ks as bs) := by
  have hfirst : Touch (areas recordAreas) s (if i + 1 == x.work.slices && jx + 1 == x.work.slices then
      s.mismatches e p.a (p.a.blocksPer p.qa.stored.rotN) ((List.range x.work.rows).map (x.work.r0 + ·)) ks as else s) :=
    Touch.ite ((mismatches_touch ..).widen rfl) (Touch.refl ..)
  exact Touch.ite (hfirst.to (mismatches_touch ..) rfl) hfirst

theorem passShown_touch (s : State) (e : Nat) (p : Prod) (x : AccSet) (fa fb : Option (Tensor × QRec)) (kt i jx esc lost : Nat) :
    Touch (2 ^ 32) s (s.passShown e p x fa fb kt i jx esc lost) :=
  have hpass := addEf_touch s e Reg.passes 1 (by decide)
  have hrows := hpass.to (addEf_touch _ e Reg.streamRows x.work.rows (by decide)) rfl
  have hloads := hrows.to (addEf_touch _ e Reg.tileLoads (b2n (jx + 1 == x.work.slices)) (by decide)) rfl
  have hesc := hloads.to (addEf_touch _ e Reg.escapes esc (by decide)) rfl
  (hesc.to (addEf_touch _ e Reg.lostContrib lost (by decide)) rfl).to (showPass_touch ..) rfl

/-- A pass counts and shows itself in seven registers of its engine. -/
theorem State.rd_passShown (esc lost : Nat) {off : Nat}
    (h : ∀ d ∈ [0x480080, 0x480088, 0x480090, 0x4800A8, 0x480130, 0x480010, 0x480014], d + 0x400 * e ≠ off) :
    (s.passShown e p x fa fb kt i jx esc lost).rd off = s.rd off := by
  simp only [List.mem_cons, List.not_mem_nil, or_false, forall_eq_or_imp, forall_eq] at h
  obtain ⟨hpass, hrows, hloads, hesc, hlost, hshape, hfmt⟩ := h
  rw [State.passShown, State.showPass, State.rd_wrEng_other (o := Reg.passFmt) _ hfmt, State.rd_wrEng_other (o := Reg.passShape) _ hshape,
    State.rd_addEf_other (f := Reg.lostContrib) _ hlost, State.rd_addEf_other (f := Reg.escapes) _ hesc,
    State.rd_addEf_other (f := Reg.tileLoads) _ hloads, State.rd_addEf_other (f := Reg.streamRows) _ hrows,
    State.rd_addEf_other (f := Reg.passes) _ hpass]

/-- What a pass records and counts leaves the selected cell and the captures that wait. -/
theorem State.testCell_passMade (he : e < 144) (esc lost : Nat) :
    (s.passMade e p x fa fb kt i jx esc lost).testCell e = s.testCell e
      ∧ (s.passMade e p x fa fb kt i jx esc lost).captures = s.captures := by
  have hnoted := passNoted_touch s e p x i jx (p.kBlocks kt) (s.streamed p x.work fa kt) (s.stationary p x.work fb kt)
  have hkept : ∀ d ∈ [0x480018, 0x480040], (s.passMade e p x fa fb kt i jx esc lost).rd (d + 0x400 * e) = s.rd (d + 0x400 * e) := by
    intro d hd
    have happart : ∀ d ∈ [0x480018, 0x480040], d < 0x480400 ∧ 0x480000 ≤ d
        ∧ ∀ d' ∈ [0x480080, 0x480088, 0x480090, 0x4800A8, 0x480130, 0x480010, 0x480014], d' ≠ d := by decide
    obtain ⟨hlt, hle, hne⟩ := happart d hd
    rw [State.passMade, State.rd_passShown esc lost fun d' hd' heq => hne d' hd' (Nat.add_right_cancel heq)]
    refine hnoted.regs _ ?_
    rw [regArea_eq (lo := 0x480000) (hi := 0x500000) (by omega) rfl (by decide)]
    decide
  exact ⟨State.testCell_congr (hkept 0x480018 (by decide)) (hkept 0x480040 (by decide)),
    ((passShown_touch ..).array rfl).2.2.2.2.trans (hnoted.array rfl).2.2.2.2⟩

/-- A capture that waits for a handshake of the pass takes its value (R132). -/
theorem State.captureAt_found {key : Nat} {first : List (Nat × Int)} {c : Nat × Int} (hw : e ∈ s.captures) (hk : s.testCell e = some key)
    (hc : first.find? (fun y => y.1 == key) = some c) : s.captureAt e first = s.captured e c.2 := by
  simp only [State.captureAt, List.contains_iff_mem.2 hw, if_true, hk, hc]

/-! ### A set that is stored -/

theorem State.captures_setEf (f : Fld) (v : Nat) : (s.setEf e f v).captures = s.captures := by
  rw [State.setEf]
  split
  · exact State.setF_captures ..
  · rfl

/-- With no capture of the engine waiting, ARRAY_BUSY is all that follows the sets. -/
theorem State.arrayState_idle (h : e ∉ s.captures) :
    s.arrayState e = s.setEf e Reg.arrayBusy
      (b2n (s.sets.any fun x => x.1 / 2 == e && x.2.begun && !x.2.passes.isEmpty && !x.2.overflow)) := by
  have hno : s.captures.contains e = false := by simpa using h
  simp only [State.arrayState, State.captures_setEf, hno, Bool.and_false, Bool.false_eq_true, if_false]

/-- Where no capture waits, storing a set changes three registers of the engine. -/
theorem State.rd_putSet (k : Nat) {off : Nat} (hc : e ∉ s.captures) (h : ∀ d ∈ [0x480100, 0x480104, 0x480004], d + 0x400 * e ≠ off) :
    (s.putSet e k x).rd off = s.rd off ∧ (s.putSet e k x).captures = s.captures := by
  simp only [List.mem_cons, List.not_mem_nil, or_false, forall_eq_or_imp, forall_eq] at h
  obtain ⟨hstatus, het, hbusy⟩ := h
  have hstate : (if k = 0 then Reg.setState0 else Reg.setState1).off + 0x400 * e ≠ off := by split <;> exact hstatus
  have hrun : (if k = 0 then Reg.setRun0 else Reg.setRun1).off + 0x400 * e ≠ off := by split <;> exact hstatus
  have hscale : (if k = 0 then Reg.setEt0 else Reg.setEt1).off + 0x400 * e ≠ off := by split <;> exact het
  rw [State.putSet, State.arrayState_idle (by simpa only [State.captures_setEf] using hc)]
  simp only [State.captures_setEf]
  rw [State.rd_setEf_other (f := Reg.arrayBusy) _ hbusy, State.rd_setEf_other _ hscale, State.rd_setEf_other _ hrun,
    State.rd_setEf_other _ hstate]
  exact ⟨rfl, trivial⟩

theorem State.failRows_nil (k : Nat) (off : Nat) :
    (s.failRows e k []).rd off = s.rd off ∧ (s.failRows e k []).captures = s.captures := by
  rw [State.failRows]
  split <;> exact ⟨rfl, rfl⟩

end

/-! ### A capture that a pass completes -/

section
variable {s : State} {e k slot kt i jx : Nat} {rest : List (Nat × Nat × Nat)} {x : AccSet} {o : OpSlot} {j : Job} {p : Prod}
  {fa fb : Option (Tensor × QRec)} {key : Nat} {c : Nat × Int}

theorem badSet_false (s : State) (e k : Nat) : s.badSet e k false = none := rfl

/-- The pass of a bound set of an engine in TEST, without anything going wrong. -/
theorem exec_passStart_bound {v : State} (he : e < 144) (hk : k < 2) (hst : s.engSt e = US.test)
    (hset : SMap.find s.sets (2 * e + k) = some x) (hx : x.passes ≠ []) (hover : x.overflow = false)
    (hwork : ((s.quiet.addEf e Reg.feedWaits 0).addEf e Reg.drainWaits 0).workOf e x.work = (some (o, slot, j, p), v)) :
    exec (.passStart e k ⟨[], 0, 0, false⟩) s
      = .next { (v.runPass e k o j p x).failRows e k [] with pending := s.pending } := by
  change execPassStart e k ⟨[], 0, 0, false⟩ s = _
  have hok : (engOk e && decide (k < 2)) = true := by
    rw [Bool.and_eq_true]
    exact ⟨decide_eq_true he, decide_eq_true hk⟩
  have hst' : s.quiet.engSt e = US.test := hst
  have hsets : SMap.find ((s.quiet.addEf e Reg.feedWaits 0).addEf e Reg.drainWaits 0).sets (setKey e k) = some x := by
    have htouch := (addEf_touch s.quiet e Reg.feedWaits 0 (by decide)).to (addEf_touch _ e Reg.drainWaits 0 (by decide)) rfl
    rw [(htouch.array rfl).2.1]
    exact hset
  rw [execPassStart, run_next _ s hok]
  simp only [hst', badSet_false, hsets, hwork, hover, List.isEmpty_iff, hx]
  rfl

/-- The next pass of a set that is no replay's, whose blocks can be read, where a capture waits for one of its handshakes. -/
theorem State.runPass_captured (he : e < 144) (hx : x.passes = (kt, i, jx) :: rest) (hr : j.replay = false)
    (hup : x.work.upOps j o.cue = (none, none)) (ha : s.copyIs j p.qa fa) (hb : s.copyIs j p.qb fb) (hf : s.passFeeds p x.work fa fb kt)
    (hw : e ∈ s.captures) (hcell : s.testCell e = some key)
    (hc : (s.handshakes e p x fa fb kt i jx).find? (fun y => y.1 == key) = some c) :
    ∃ (u : State) (y : AccSet), s.runPass e k o j p x = u.putSet e k y ∧ u.ef e Reg.testValid = 1 ∧ u.ef e Reg.testA20 = twos 32 c.2
      ∧ e ∉ u.captures := by
  obtain ⟨y, esc, lost, cells, hpass⟩ := State.pass_fed (rq := engRq e o) (e := e) (i := i) (jx := jx) ha hb hf
  obtain ⟨hcell', hcaptures⟩ := State.testCell_passMade (s := s) (p := p) (x := x) (fa := fa) (fb := fb) (kt := kt) (i := i) (jx := jx)
    he esc lost
  rw [State.captureAt_found (by rw [hcaptures]; exact hw) (hcell'.trans hcell) hc] at hpass
  have hshown := State.ef_captured (s := s.passMade e p x fa fb kt i jx esc lost) he c.2
  refine ⟨((s.passMade e p x fa fb kt i jx esc lost).captured e c.2).withCells cells, y, ?_, hshown.2, hshown.1,
    not_mem_captures_captured c.2⟩
  simp only [State.runPass, hx, hr, Bool.false_eq_true, if_false, hup, hpass]

/-- Storing the set and what failing rows change leave the capture that was made. -/
theorem State.putSet_captured (hc : e ∉ s.captures) :
    ((s.putSet e k x).failRows e k []).ef e Reg.testValid = s.ef e Reg.testValid
      ∧ ((s.putSet e k x).failRows e k []).ef e Reg.testA20 = s.ef e Reg.testA20
      ∧ e ∉ ((s.putSet e k x).failRows e k []).captures := by
  have hkept : ∀ d ∈ [0x480048, 0x48004C], ((s.putSet e k x).failRows e k []).rd (d + 0x400 * e) = s.rd (d + 0x400 * e) := by
    intro d hd
    have hne : ∀ d ∈ [0x480048, 0x48004C], ∀ d' ∈ [0x480100, 0x480104, 0x480004], d' ≠ d := by decide
    rw [(State.failRows_nil k _).1, (State.rd_putSet k hc fun d' hd' heq => hne d hd d' hd' (Nat.add_right_cancel heq)).1]
  refine ⟨State.ef_congr (hkept 0x48004C (by decide)), State.ef_congr (hkept 0x480048 (by decide)), ?_⟩
  have hput := (State.rd_putSet (x := x) (off := 0x480048 + 0x400 * e) k hc (by simp)).2
  rw [(State.failRows_nil k 0).2, hput]
  exact hc

/-- A command for an engine's next pass first counts the waits, and loads the key that the product's signs use. -/
theorem passStart_touch (s : State) (e : Nat) (p : Prod) :
    Touch (areas [.out, .rng, .engines]) s (((s.quiet.addEf e Reg.feedWaits 0).addEf e Reg.drainWaits 0).keyed p) :=
  have hquiet : Touch (areas [.out, .rng, .engines]) s s.quiet := Touch.set_out (Touch.refl ..) rfl
  ((hquiet.to (addEf_touch _ e Reg.feedWaits 0 (by decide)) rfl).to (addEf_touch _ e Reg.drainWaits 0 (by decide)) rfl).to
    (loadRot_touch ..) rfl

theorem testCell_passStart (s : State) (e : Nat) (p : Prod) :
    (((s.quiet.addEf e Reg.feedWaits 0).addEf e Reg.drainWaits 0).keyed p).testCell e = s.testCell e := by
  have hkept : ∀ d ∈ [0x480018, 0x480040],
      (((s.quiet.addEf e Reg.feedWaits 0).addEf e Reg.drainWaits 0).keyed p).rd (d + 0x400 * e) = s.rd (d + 0x400 * e) := by
    intro d hd
    have hne : ∀ d ∈ [0x480018, 0x480040], 0x480098 ≠ d ∧ 0x4800A0 ≠ d ∧ 0x480000 ≤ d ∧ d < 0x480400 := by decide
    obtain ⟨hfeed, hdrain, hle, hlt⟩ := hne d hd
    have hkey := (loadRot_touch ((s.quiet.addEf e Reg.feedWaits 0).addEf e Reg.drainWaits 0)
      (rotEpochOf p.qa.rot p.qa.rotStep p.qa.step)).rd_of_lt (by decide) (d + 0x400 * e)
    rw [State.keyed, hkey, State.rd_addEf_other (f := Reg.drainWaits) _ fun h => hdrain (Nat.add_right_cancel h),
      State.rd_addEf_other (f := Reg.feedWaits) _ fun h => hfeed (Nat.add_right_cancel h)]
    rfl
  exact State.testCell_congr (hkept 0x480018 (by decide)) (hkept 0x480040 (by decide))

/-- In a pass of a bound set the selected cell's handshake completes the capture that waits for it. -/
theorem exec_passStart_captures (he : e < 144) (hk : k < 2) (hst : s.engSt e = US.test) (hw : e ∈ s.captures)
    (hset : SMap.find s.sets (2 * e + k) = some x) (hx : x.passes = (kt, i, jx) :: rest) (hover : x.overflow = false)
    (hp : s.productIs x.work.op o slot j p) (hr : j.replay = false) (hup : x.work.upOps (j.viewOf o) o.cue = (none, none))
    (ha : s.copyIs j p.qa fa) (hb : s.copyIs j p.qb fb) (hf : s.passFeeds p x.work fa fb kt) (hcell : s.testCell e = some key)
    (hc : (heldCells e x.work.slices i jx ((p.kBlocks kt).map fun b => b.1 % 8) (s.fedRow p p.a p.qa fa kt x.work.r0)
      ((List.range x.work.cols).map fun n => s.fedRow p p.b p.qb fb kt (x.work.c0 + n))).find? (fun y => y.1 == key) = some c)
    (hrows : 0 < x.work.rows) : ∃ t, exec (.passStart e k ⟨[], 0, 0, false⟩) s = .next t ∧ t.ef e Reg.testValid = 1
      ∧ t.ef e Reg.testA20 = twos 32 c.2 ∧ e ∉ t.captures := by
  let u := (s.quiet.addEf e Reg.feedWaits 0).addEf e Reg.drainWaits 0
  have hu : Touch engineAreas s u := ((touch_quiet s).to (addEf_touch _ e Reg.feedWaits 0 (by decide)) rfl).to
    (addEf_touch _ e Reg.drainWaits 0 (by decide)) rfl
  have hstart := passStart_touch s e p
  have hv : Touch engineAreas s (u.keyed p) := hstart.widen rfl
  have hstreamed : ((u.keyed p).streamed p x.work fa kt).getD 0 [] = s.fedRow p p.a p.qa fa kt x.work.r0 := by
    obtain ⟨n, hn⟩ := Nat.exists_eq_succ_of_ne_zero hrows.ne'
    rw [State.streamed, hn, List.range_succ_eq_map, List.map_cons, List.getD_cons_zero, hv.engine_fedRow, Nat.add_zero]
  have hstationary : (u.keyed p).stationary p x.work fb kt
      = (List.range x.work.cols).map fun n => s.fedRow p p.b p.qb fb kt (x.work.c0 + n) :=
    List.map_congr_left fun n _ => hv.engine_fedRow ..
  obtain ⟨w, y, hrun, hvalid, hvalue, hgone⟩ := State.runPass_captured (s := u.keyed p) (k := k) (o := o) (j := j.viewOf o) (p := p)
    (fa := fa) (fb := fb) (key := key) (c := c) he hx hr hup (hv.engine_copyIs (j := j) ha) (hv.engine_copyIs (j := j) hb)
    (hv.engine_passFeeds hf)
    (by rw [(hstart.array rfl).2.2.2.2]; exact hw) ((testCell_passStart s e p).trans hcell)
    (by rw [State.handshakes, hstreamed, hstationary]; exact hc)
  obtain ⟨hvalid', hvalue', hgone'⟩ := State.putSet_captured (k := k) (x := y) hgone
  refine ⟨_, exec_passStart_bound he hk hst hset (by rw [hx]; exact List.cons_ne_nil _ _) hover
    (State.workOf_productIs e (hu.engine_productIs hp)), ?_⟩
  rw [hrun]
  exact ⟨hvalid'.trans hvalid, hvalue'.trans hvalue, hgone'⟩

end

/-- Settles O59: in TEST the registers take the access, a capture its value at once or at the cell's next handshake; in any other state
the access is discarded and recorded. -/
theorem testAccessNeedsTest : Obligations.TestAccessNeedsTest := by
  refine ⟨fun e he k hk => regReset_testAccess he hk, fun s e he hs => ⟨fun hst => ⟨?_, fun v hv => ⟨?_, ?_⟩⟩,
    fun hst => ⟨fun hb => ?_, fun hb => ?_, fun v hv => ⟨fun hbit => ?_, fun hbit => ?_⟩,
      fun v hv hrow => exec_write_testSel_taken he hs hv hst hrow, ?_⟩⟩⟩
  · obtain ⟨hregs, hnoted⟩ := State.discardWrite_kept (s := s.quiet) (off := 0x480044 + 0x400 * e) (v := 1) (by omega) (by omega) he
      (by decide) 4
    refine ⟨_, exec_testCapture he hs, ?_⟩
    rw [State.capture_denied (s := s.quiet) hst]
    exact ⟨fun o ho _ => hregs o ho, hnoted⟩
  · obtain ⟨hregs, hnoted⟩ := State.discardWrite_kept (s := s.quiet) (off := 0x480044 + 0x400 * e) (v := v) (by omega) (by omega) he hv 4
    refine ⟨_, exec_write_testCapture he hs hv, ?_⟩
    rw [if_pos hst]
    exact ⟨fun o ho _ => hregs o ho, hnoted⟩
  · obtain ⟨hregs, hnoted⟩ := State.discardWrite_kept (s := s.quiet) (off := 0x480040 + 0x400 * e) (v := v) (by omega) (by omega) he hv 4
    exact ⟨_, exec_write_testSel_denied he hs hv hst, fun o ho _ => hregs o ho, hnoted⟩
  · refine ⟨_, exec_testCapture he hs, ?_, fun r hr => State.ef_capture_idle (s := s.quiet) he hst hb hr⟩
    rw [State.capture_idle (s := s.quiet) hst hb]
    exact (State.ef_captured he _).2
  · have hcap := State.capture_busy (s := s.quiet) hst hb
    refine ⟨_, exec_testCapture he hs, hcap.1.trans ?_, hcap.2⟩
    exact State.ef_setEf 0 he (by decide)
  · rw [exec_write_testCapture he hs hv, if_neg (not_not.2 hst), if_pos (by rw [bits_bit0, hbit]; rfl), exec_testCapture he hs]
  · rw [exec_write_testCapture he hs hv, if_neg (not_not.2 hst), if_neg (by rw [bits_bit0, hbit]; decide)]
  · intro k slot kt i jx rest x o j p fa fb key c hk hw hset hx hover hp hr hup ha hb hf hcell hc hrows
    exact exec_passStart_captures he hk hst hw hset hx hover hp hr hup ha hb hf hcell hc hrows

end Sys2Proof.Machine

namespace Sys2Proof.Machine

open Sys2Proof

/-! ### Numbers in memory -/

/-- A number of k bytes reads as itself (R17). -/
theorem leNat_leBytes (k n : Nat) : leNat (leBytes k n) = n % 256 ^ k := by
  induction k generalizing n with
  | zero => exact (Nat.mod_one n).symm
  | succ k ih =>
    have hcons : leBytes (k + 1) n = BitVec.ofNat 8 n :: leBytes k (n / 256) := by
      rw [leBytes, List.range_succ_eq_map, List.map_cons, List.map_map]
      refine congrArg _ (List.map_congr_left fun i _ => ?_)
      change BitVec.ofNat 8 (n >>> (8 * (i + 1))) = BitVec.ofNat 8 ((n / 256) >>> (8 * i))
      rw [show 256 = 2 ^ 8 from rfl, ← Nat.shiftRight_eq_div_pow, ← Nat.shiftRight_add, Nat.mul_succ, Nat.add_comm]
    have hsplit : n % 256 ^ (k + 1) = n % 256 + 256 * (n / 256 % 256 ^ k) := by rw [Nat.pow_succ', Nat.mod_mul]
    rw [hcons, leNat, ih, BitVec.toNat_ofNat, hsplit]

theorem State.length_bytes (s : State) (a n : Nat) : (s.bytes a n).length = n := by
  rw [State.bytes, List.length_map, List.length_range]

theorem State.bytes_congr {s t : State} {a n : Nat} (h : ∀ b, a ≤ b → b < a + n → t.byte b = s.byte b) : t.bytes a n = s.bytes a n :=
  List.map_congr_left fun i hi => h (a + i) (Nat.le_add_right ..) (Nat.add_lt_add_left (List.mem_range.1 hi) a)

/-! ### Stores in HBM -/

theorem State.putBytes_concat (s : State) (a : Nat) (bs : List Byte) (b : Byte) :
    (s.putBytes a (bs ++ [b])).mem = SMap.set 0 (s.putBytes a bs).mem (a + bs.length) b := by
  rw [State.putBytes, List.length_append, List.length_singleton, List.range_succ, List.zip_append List.length_range, List.map_append]
  exact List.foldl_append

/-- A byte written reads as it was written. -/
theorem State.byte_putBytes (s : State) (a : Nat) {bs : List Byte} {i : Nat} (hi : i < bs.length) :
    (s.putBytes a bs).byte (a + i) = bs[i] := by
  induction bs using List.reverseRecOn with
  | nil => exact absurd hi (Nat.not_lt_zero _)
  | append_singleton bs b ih =>
    rw [State.byte, State.putBytes_concat, SMap.get_set]
    by_cases hlast : i = bs.length
    · rw [if_pos (by rw [hlast]), List.getElem_append_right (Nat.le_of_eq hlast.symm)]
      simp
    · rw [List.length_append, List.length_singleton] at hi
      rw [if_neg fun h => hlast (Nat.add_left_cancel h).symm, List.getElem_append_left (by omega)]
      exact ih (by omega)

section
variable {s : State} {a n b : Nat} {bs : List Byte}

theorem State.hbm_of_serves (h : s.outerServes .hbm a n) : hbmBase ≤ a ∧ a + n ≤ hbmEnd := by
  have htier := h.1
  rw [State.tierOf] at htier
  split at htier
  · cases htier
  · split at htier
    · assumption
    · split at htier
      · cases htier
      · split at htier <;> cases htier

/-- Bytes stored outside the banks are put into memory. -/
theorem State.byte_storeBytes (ha : hbmBase ≤ a) : (s.storeBytes a bs).byte b = (s.putBytes a bs).byte b := by
  have hbank : ¬ a < 0x3000_0000 := by
    rw [hbmBase] at ha
    omega
  rw [State.storeBytes, if_neg hbank]
  rfl

theorem State.bytes_storeBytes (ha : hbmBase ≤ a) : (s.storeBytes a bs).bytes a bs.length = bs := by
  refine List.ext_getElem (State.length_bytes ..) fun i hi hi' => ?_
  simp only [State.bytes, List.getElem_map, List.getElem_range, State.byte_storeBytes ha, State.byte_putBytes s a hi']

theorem State.byte_storeBytes_other (ha : hbmBase ≤ a) (hb : ¬(a ≤ b ∧ b < a + bs.length)) :
    (s.storeBytes a bs).byte b = s.byte b := by
  rw [State.byte_storeBytes ha, State.byte_putBytes_other _ _ _ _ (by omega)]

theorem State.num_storeBytes (ha : hbmBase ≤ a) (k v : Nat) : (s.storeBytes a (leBytes k v)).num a k = v % 256 ^ k := by
  have h := State.bytes_storeBytes (s := s) (bs := leBytes k v) ha
  rw [length_leBytes] at h
  rw [State.num, h, leNat_leBytes]

/-! ### Accesses that HBM serves -/

/-- An access of HBM that meets no error goes on. -/
theorem State.meet_served {w : Bool} (h : s.outerServes .hbm a n) : s.meet a n w [] = (0, s) := by
  have hdie : s.dieReports [] = s := rfl
  simp only [State.meet, h.1, hdie]
  rfl

theorem State.accessRead_served (rq : Requester) {add : Bool} (h : s.outerServes .hbm a n) :
    s.accessRead rq a n add [] = (0, s.bytes a n, s) := by
  rw [State.accessRead, State.openRange_served rq h]
  simp only [State.meet_served h, h.1]
  rfl

theorem State.devWrite_served (rq : Requester) (h : s.outerServes .hbm a bs.length) : s.devWrite rq a bs = (0, s.storeBytes a bs) := by
  rw [State.devWrite, State.openRange_served rq h]
  rfl

theorem State.atomicOpen_served {k : Nat} (h : s.outerServes .hbm a n) (ha : a % k = 0) : s.atomicOpen a n k = 0 := by
  rw [State.atomicOpen, if_neg (not_not.2 ha), h.1]

end

/-! ### What a change leaves of memory, and of what HBM serves -/

section
variable {M : Nat} {s t : State} (h : Touch M s t)
include h

theorem Touch.byte_eq (hM : M.testBit 0 = false ∧ M.testBit 36 = false) (a : Nat) : t.byte a = s.byte a := by
  rcases lt_or_ge a farBase with ha | ha
  · exact h.mem hM.1 a ha
  · exact h.far hM.2 a ha

theorem Touch.stackOff_eq (hM : M.testBit 29 = false ∧ M.testBit 31 = false) (a n : Nat) : t.stackOff a n = s.stackOff a n := by
  have hup : ∀ i ∈ List.range 8, (t.fld (Reg.stackUp.plus (0x40 * i)) != 1 || t.unitRaw (UId.stack i) == US.fenced)
      = (s.fld (Reg.stackUp.plus (0x40 * i)) != 1 || s.unitRaw (UId.stack i) == US.fenced) := by
    intro i hi
    rw [List.mem_range] at hi
    have hstack : regArea (0x200100 + 0x40 * i) = 29 := regArea_eq (lo := 0x200000) (hi := 0x300000) (by omega) rfl (by decide)
    have hunit : regArea (unitOff (UId.stack i)) = 31 :=
      regArea_eq (lo := 0x400000) (hi := 0x480000) (by simp only [unitOff, UId.stack]; omega) rfl (by decide)
    rw [State.unitRaw, State.unitRaw, State.unitEntry, State.unitEntry, h.regs _ (hunit ▸ hM.2),
      h.fld (Reg.stackUp.plus (0x40 * i)) (hstack ▸ hM.1)]
  simp only [State.stackOff, List.filter_congr hup]

/-- A change of neither the stacks, the host link nor the unit state table leaves HBM serving what it served. -/
theorem Touch.serves (hM : M.testBit 11 = false ∧ M.testBit 17 = false ∧ M.testBit 29 = false ∧ M.testBit 31 = false) {a n : Nat}
    (hs : s.outerServes .hbm a n) : t.outerServes .hbm a n := by
  obtain ⟨hout, hhost, hregs⟩ := hM
  obtain ⟨htier, hpages, hvoided, hup⟩ := hs
  refine ⟨State.tierOf_hbm htier t, by rw [h.host hhost, hpages], (h.outer hout).2.2.trans hvoided, .inl ⟨rfl, ?_⟩⟩
  rw [h.stackOff_eq hregs]
  rcases hup with ⟨-, hoff⟩ | ⟨hddr, -⟩
  · exact hoff
  · cases hddr

end

end Sys2Proof.Machine

namespace Sys2Proof.Machine

open Sys2Proof

/-! ### Messages that are applied or turned away -/

section
variable {s : State} {p vc opcode : Nat} {m : Msg}

/-- A request that the device applies now is handed to its command's meaning. -/
theorem State.withTxn_takes (h : s.takes p vc opcode m) (go : Msg → Txn → State) :
    s.quiet.withTxn p vc opcode go = go m (txnOf m.bytes) := by
  obtain ⟨-, -, hfront, hopcode, hresp, hmine, hepoch⟩ := h
  have hfront' : (s.quiet.port p).front vc = some m := hfront
  have hmine' : s.quiet.mine m = true := hmine
  simp only [State.withTxn, hfront', hopcode, hresp, hmine', ne_eq, not_true_eq_false, Bool.false_eq_true, Bool.not_true, or_self, if_false]
  by_cases hbound : (txnOf m.bytes).bound vc = true
  · have hepoch' : s.quiet.epochRule (txnOf m.bytes).epoch = 0 := hepoch hbound
    simp only [hbound, hepoch', if_true]
  · rw [if_neg hbound]

theorem State.inbox_modPort (s : State) (p : Nat) (f : Port → Port) (q : Nat) (h : ∀ x, (f x).inbox = x.inbox) :
    ((s.modPort p f).port q).inbox = (s.port q).inbox := by
  rw [State.port_modPort]
  split
  · exact h _
  · rfl

theorem State.inbox_consume (s : State) (p : Nat) (m : Msg) : ((s.consume p m).port p).inbox = (s.port p).inbox.erase m := by
  rw [State.port_consume]

theorem State.inbox_rejectTxn (s : State) (p status tag : Nat) : ((s.rejectTxn p status tag).port p).inbox = (s.port p).inbox := by
  have h : ((((s.countError p status tag 1).modPort p fun x => { x with rejectedStep := true }).addPf p Reg.txnRejected 1).port p).inbox
      = (s.port p).inbox := by
    rw [State.port_congr ((addPf_touch _ p _ 1 (by decide)).ports rfl)]
    exact (State.inbox_modPort _ _ _ _ (by intro; rfl)).trans (State.inbox_modPort _ _ _ _ (by intro; rfl))
  unfold State.rejectTxn
  dsimp only
  split
  · exact h
  · rw [State.port_congr ((event_touch ..).ports rfl), h]

/-- A message turned away leaves its queue and is counted (R354). -/
theorem State.turnedAway (s : State) {p : Nat} (m : Msg) (status tag : Nat) (hp : p < 6) :
    (((s.consume p m).rejectTxn p status tag).port p).inbox = (s.port p).inbox.erase m
      ∧ ((s.consume p m).rejectTxn p status tag).pf p Reg.txnRejected = min (s.pf p Reg.txnRejected + 1) (2 ^ 64 - 1) :=
  ⟨by rw [State.inbox_rejectTxn, State.inbox_consume], State.pf_rejectTxn _ status tag hp⟩

/-- An add that saturated counts as an error of its port (R355). -/
def State.countSat (s : State) (p tag : Nat) (sat : Bool) : State := if sat then s.countError p tsSat tag 1 else s

theorem countSat_touch (s : State) (p tag : Nat) (sat : Bool) : Touch 4096 s (s.countSat p tag sat) :=
  Touch.ite (countError_touch ..) (Touch.refl ..)

theorem State.port_countSat (s : State) (p tag : Nat) (sat : Bool) :
    ((s.countSat p tag sat).port p).inbox = (s.port p).inbox ∧ ((s.countSat p tag sat).port p).errors = (s.port p).errors + b2n sat := by
  cases sat with
  | false => exact ⟨rfl, rfl⟩
  | true =>
    rw [State.countSat, if_pos rfl, State.countError, State.port_modPort_same]
    exact ⟨rfl, rfl⟩

end

/-! ### ATOMIC_ADD of an I32 element (R355) -/

theorem satSum_32 (x y : Int) : satSum 32 x y = (max (-2 ^ 31) (min (2 ^ 31 - 1) (x + y)),
    decide (x + y < -2 ^ 31) || decide (2 ^ 31 - 1 < x + y)) := by
  simp only [satSum]
  split
  · simp; omega
  · split <;> simp <;> omega

/-- An aligned word is one piece of itself. -/
theorem pieces2k_word {a : Nat} (ha : a % 4 = 0) : pieces2k a 4 = [(0, 4)] := by
  have hunits : unitsOf 2048 a 4 = [a / 2048 * 2048] := by
    have hone : (a + 4 - 1) / 2048 + 1 - a / 2048 = 1 := by omega
    rw [unitsOf, if_neg (by decide), hone]
    simp
  rw [pieces2k, hunits]
  simp
  omega

section
variable {s : State} {p a : Nat} {m : Msg} {body : List Byte}

/-- The sum of the element at a and the one sent, and whether it saturated. -/
def State.sumI32 (s : State) (a : Nat) (body : List Byte) : Int × Bool := satSum 32 (sext 32 (s.num a 4)) (sext 32 (leNat body))

/-- The sum stored and counted. -/
def State.addedI32 (s : State) (a : Nat) (body : List Byte) : State :=
  (s.storeBytes a (leBytes 4 (twos 32 (s.sumI32 a body).1))).countAtomic a (s.sumI32 a body).2

theorem State.addI32s_word (rq : Requester) (hs : s.outerServes .hbm a 4) (ha : a % 4 = 0) (hb : body.length = 4) :
    s.addI32s rq a body [(0, 4)] = (0, (s.sumI32 a body).2, s.addedI32 a body) := by
  have hold : (s.bytes a 4).take 4 = s.bytes a 4 := List.take_of_length_le (Nat.le_of_eq (State.length_bytes ..))
  have hnew : body.take 4 = body := List.take_of_length_le (Nat.le_of_eq hb)
  have hsums : ((leWords 4 1 (s.bytes a 4)).zip (leWords 4 1 body)).map (fun w => satSum 32 (sext 32 w.1) (sext 32 w.2))
      = [s.sumI32 a body] := by
    simp [leWords, fieldLE, hold, hnew, State.sumI32, State.num]
  simp only [State.addI32s, Nat.add_zero, State.atomicOpen_served hs ha, State.accessRead_served rq hs, List.drop_zero,
    Nat.div_self (show 0 < 4 by decide)]
  rw [hsums]
  simp [State.addedI32]

theorem State.port_addedI32 (s : State) (a : Nat) (body : List Byte) (q : Nat) : (s.addedI32 a body).port q = s.port q :=
  (State.port_congr ((countAtomic_touch ..).ports rfl) q).trans (State.port_congr ((storeBytes_touch ..).ports rfl) q)

/-- An add through a port, with everything it leaves. -/
theorem State.addedI32_leaves {tag : Nat} (ha : hbmBase ≤ a) :
    let u := (s.addedI32 a body).countSat p tag (s.sumI32 a body).2
    u.num a 4 = twos 32 (s.sumI32 a body).1 ∧ BytesKept (fun b => a ≤ b ∧ b < a + 4) s u
      ∧ (u.port p).errors = (s.port p).errors + b2n (s.sumI32 a body).2 ∧ (u.port p).inbox = (s.port p).inbox := by
  intro u
  obtain ⟨hin, herr⟩ := (s.addedI32 a body).port_countSat p tag (s.sumI32 a body).2
  have hbyte : ∀ b, u.byte b = (s.storeBytes a (leBytes 4 (twos 32 (s.sumI32 a body).1))).byte b :=
    fun b => ((countSat_touch ..).byte_eq ⟨rfl, rfl⟩ b).trans ((countAtomic_touch ..).byte_eq ⟨rfl, rfl⟩ b)
  rw [State.port_addedI32] at hin herr
  refine ⟨?_, fun b hb => ?_, herr, hin⟩
  · rw [State.num, State.bytes_congr fun b _ _ => hbyte b]
    exact (State.num_storeBytes ha ..).trans (Nat.mod_eq_of_lt (twos_lt 32 _))
  · rw [hbyte, State.byte_storeBytes_other ha (by rwa [length_leBytes])]

/-- An ATOMIC_ADD of one I32 element through an open window to HBM. -/
theorem exec_txnAtomicAddI32_word (h : s.takes p 1 opAtomic m) (h64 : (txnOf m.bytes).a64 = false)
    (hopen : s.windowOpen 1 (txnOf m.bytes) (txnOf m.bytes).bytes 2 = true) (ha : (txnOf m.bytes).arg % 4 = 0)
    (hn : (txnOf m.bytes).bytes = 4) (hb : m.body.length = 4)
    (hexp : s.windowExp (txnOf m.bytes).arg 4 = some (sext 16 (txnOf m.bytes).exp)) (hs : s.outerServes .hbm (txnOf m.bytes).arg 4) :
    exec (.txnAtomicAddI32 p) s = .next (((s.quiet.consume p m).addedI32 (txnOf m.bytes).arg m.body).countSat p (txnOf m.bytes).tag
      (s.sumI32 (txnOf m.bytes).arg m.body).2) := by
  have hopen' : (s.quiet.consume p m).windowOpen 1 (txnOf m.bytes) 4 2 = true := hn ▸ hopen
  have hexp' : (s.quiet.consume p m).windowExp (txnOf m.bytes).arg 4 = some (sext 16 (txnOf m.bytes).exp) := hexp
  have hs' : (s.quiet.consume p m).outerServes .hbm (txnOf m.bytes).arg 4 := hs
  change execTxnAtomicAddI32 p s = _
  unfold execTxnAtomicAddI32
  refine run_to (decide_eq_true h.1) ?_
    ((countSat_touch ..).pending.trans ((countAtomic_touch ..).pending.trans (storeBytes_touch ..).pending))
  rw [State.withTxn_takes h]
  simp only [h64, hn, ha, hopen', hexp', pieces2k_word ha, State.addI32s_word _ hs' ha hb, Bool.false_eq_true, Bool.not_true, if_false,
    ne_eq, not_true_eq_false, or_self, Nat.mod_self]
  rfl

end

end Sys2Proof.Machine

namespace Sys2Proof.Machine

open Sys2Proof

/-! ### A row add of A64 elements to a tile in HBM (R159) -/

theorem clampA64_eq (x : Int) :
    clampA64 x = (max (-2 ^ 63) (min (2 ^ 63 - 1) x), decide (x < -2 ^ 63) || decide (2 ^ 63 - 1 < x)) := by
  unfold clampA64 a64Max a64Min
  split
  · simp; omega
  · split <;> simp <;> omega

theorem TileHdr.length_bytes (h : TileHdr) : h.bytes.length = 64 := by
  simp only [TileHdr.bytes, List.length_append, length_leBytes]

/-- The elements sent, at the target's exponent: what each becomes, what it loses, whether it overflows. -/
def rowMoved (et : Int) (i : RowInfo) (xs : List Int) : List (Int × Nat × Bool) :=
  xs.map fun x => if et = i.et then (x, 0, false) else reexpress i.et et x

/-- The exact sums of the elements at a and those sent. -/
def State.rowSums (s : State) (a : Nat) (moved : List (Int × Nat × Bool)) : List Int :=
  (moved.zip (leWords 8 moved.length (s.bytes a (8 * moved.length)))).map fun y => sext 64 y.2 + y.1.1

/-- Some sum saturates. -/
def rowSat (sums : List Int) : Bool := sums.any fun x => decide (x < -2 ^ 63) || decide (2 ^ 63 - 1 < x)

/-- The elements as they are stored. -/
def rowBytes (sums : List Int) : List Byte := sums.flatMap fun x => leBytes 8 (twos 64 (max (-2 ^ 63) (min (2 ^ 63 - 1) x)))

/-- The target's header with the row's merged. -/
def rowHdr (h : TileHdr) (i : RowInfo) (sat : Bool) (moved : List (Int × Nat × Bool)) : TileHdr :=
  h.merge i (sat || moved.any (·.2.2)) ((moved.map (·.2.1)).foldl (· + ·) 0)

/-- Each field of the merged header. -/
theorem rowHdr_eq (h : TileHdr) (i : RowInfo) (sat : Bool) (moved : List (Int × Nat × Bool)) : rowHdr h i sat moved = { h with
    ovf := h.ovf || i.ovf || sat || moved.any (·.2.2), nv := h.nv || i.nv, bound := h.bound || i.bound
    retries := max h.retries i.retries, lost := min (h.lost + i.lost + (moved.map (·.2.1)).foldl (· + ·) 0) (2 ^ 32 - 1) } := by
  rw [rowHdr, TileHdr.merge, ← Bool.or_assoc]

/-- The sums stored at a and the header at ha. -/
def State.rowStored (s : State) (ha a : Nat) (i : RowInfo) (moved : List (Int × Nat × Bool)) : State :=
  (s.storeBytes a (rowBytes (s.rowSums a moved))).storeBytes ha
    ((rowHdr (tileHdrOf (s.bytes ha 32)) i (rowSat (s.rowSums a moved)) moved).bytes.take 32)

/-- A saturation recorded, and the add counted. -/
def State.rowNoted (s : State) (rq : Requester) (ha a coord : Nat) (sat : Bool) : State :=
  (if sat then s.noteAddSat (s.addJob rq a) a ha true coord else s).countAtomic a sat

section
variable {s : State} {ha a coord : Nat} {i : RowInfo} {xs : List Int} {moved : List (Int × Nat × Bool)}

theorem length_rowBytes (sums : List Int) : (rowBytes sums).length = 8 * sums.length := by
  simp only [rowBytes, List.length_flatMap, length_leBytes, List.map_const', List.sum_replicate, smul_eq_mul, Nat.mul_comm]

theorem State.length_rowSums (s : State) (a : Nat) (moved : List (Int × Nat × Bool)) : (s.rowSums a moved).length = moved.length := by
  simp [State.rowSums, leWords]

theorem State.addRow_served (rq : Requester) (hhdr : s.outerServes .hbm ha 32) (hrow : s.outerServes .hbm a (8 * xs.length))
    (hha : ha % 8 = 0) (hal : a % 8 = 0) (hform : formStatus (s.bytes ha 32) = 0)
    (hm : moved = rowMoved (tileHdrOf (s.bytes ha 32)).et i xs) :
    s.addRow rq (some ha) a i xs true coord []
      = (0, rowSat (s.rowSums a moved), (s.rowStored ha a i moved).rowNoted rq ha a coord (rowSat (s.rowSums a moved))) := by
  have hlen : moved.length = xs.length := by rw [hm, rowMoved, List.length_map]
  have hmoved : (xs.map fun x => if (tileHdrOf (s.bytes ha 32)).et = i.et then (x, 0, false)
      else reexpress i.et (tileHdrOf (s.bytes ha 32)).et x) = moved := hm.symm
  have hsums : (moved.zip (leWords 8 xs.length (s.bytes a (8 * xs.length)))).map (fun y => clampA64 (sext 64 y.2 + y.1.1))
      = (s.rowSums a moved).map clampA64 := by
    rw [State.rowSums, hlen, List.map_map]
    rfl
  have hsat : ((s.rowSums a moved).map clampA64).any (fun x => x.2) = rowSat (s.rowSums a moved) := by
    simp only [List.any_map, Function.comp_def, clampA64_eq, rowSat]
  have hbytes : ((s.rowSums a moved).map clampA64).flatMap (fun x => leBytes 8 (twos 64 x.1)) = rowBytes (s.rowSums a moved) := by
    simp only [List.flatMap_map, clampA64_eq, rowBytes]
  have hlost : moved.foldl (fun n y => n + y.2.1) 0 = (moved.map (·.2.1)).foldl (· + ·) 0 := List.foldl_map.symm
  simp only [State.addRow, State.atomicOpen_served hhdr hha, State.atomicOpen_served hrow hal, State.accessRead_served rq hhdr,
    State.accessRead_served rq hrow, hform, ne_eq, not_true_eq_false, if_false, and_false, Option.isSome_some, if_true, hmoved, hsums, hsat,
    hbytes, hlost]
  rfl

/-- A row in HBM apart from its header: both hold what is stored there. -/
theorem State.rowStored_leaves (hha : hbmBase ≤ ha) (hal : ha + 32 ≤ a) :
    (s.rowStored ha a i moved).bytes a (8 * moved.length) = rowBytes (s.rowSums a moved)
      ∧ (s.rowStored ha a i moved).bytes ha 32 = (rowHdr (tileHdrOf (s.bytes ha 32)) i (rowSat (s.rowSums a moved)) moved).bytes.take 32
      ∧ ∀ b, ¬(ha ≤ b ∧ b < ha + 32) → ¬(a ≤ b ∧ b < a + 8 * moved.length) → (s.rowStored ha a i moved).byte b = s.byte b := by
  have hlen : (rowBytes (s.rowSums a moved)).length = 8 * moved.length := by rw [length_rowBytes, State.length_rowSums]
  have hhdr : ((rowHdr (tileHdrOf (s.bytes ha 32)) i (rowSat (s.rowSums a moved)) moved).bytes.take 32).length = 32 := by
    rw [List.length_take, TileHdr.length_bytes]
    rfl
  have ha' : hbmBase ≤ a := by omega
  refine ⟨?_, ?_, fun b hb hb' => ?_⟩
  · rw [State.rowStored, State.bytes_congr fun b _ _ => State.byte_storeBytes_other hha (by rw [hhdr]; omega), ← hlen]
    exact State.bytes_storeBytes ha'
  · have h := State.bytes_storeBytes (s := s.storeBytes a (rowBytes (s.rowSums a moved))) (a := ha)
      (bs := (rowHdr (tileHdrOf (s.bytes ha 32)) i (rowSat (s.rowSums a moved)) moved).bytes.take 32) hha
    rwa [hhdr] at h
  · rw [State.rowStored, State.byte_storeBytes_other hha (by rwa [hhdr]), State.byte_storeBytes_other ha' (by rwa [hlen])]

theorem rowNoted_touch (s : State) (rq : Requester) (ha a coord : Nat) (sat : Bool) :
    Touch (areas (recordAreas ++ [.jobs])) s (s.rowNoted rq ha a coord sat) :=
  (Touch.ite ((noteAddSat_touch ..).widen rfl) (Touch.refl ..)).to (countAtomic_touch ..) rfl

/-- What an A64 ADD carries for the target's header (Table 10.9). -/
def Txn.rowInfo (t : Txn) : RowInfo :=
  { et := sext 16 t.exp, ovf := bitAt 0 t.aflags, nv := bitAt 1 t.aflags, bound := bitAt 2 t.aflags, retries := t.retries, lost := t.lost }

/-- An ATOMIC_ADD of one A64 row through an open window to HBM. -/
theorem exec_txnAtomicAddA64_row {p : Nat} {m : Msg} (h : s.takes p 1 opAtomic m) (h64 : (txnOf m.bytes).a64 = true)
    (hopen : s.windowOpen 1 (txnOf m.bytes) (64 + 8 * (txnOf m.bytes).offset + (txnOf m.bytes).bytes) 3 = true)
    (hn : (txnOf m.bytes).bytes % 8 = 0 ∧ 0 < (txnOf m.bytes).bytes ∧ (txnOf m.bytes).bytes ≤ 2048)
    (hha : (txnOf m.bytes).arg % 8 = 0) (hform : formStatus (s.bytes (txnOf m.bytes).arg 32) = 0)
    (hhdr : s.outerServes .hbm (txnOf m.bytes).arg 32)
    (hrow : s.outerServes .hbm ((txnOf m.bytes).arg + 64 + 8 * (txnOf m.bytes).offset) (txnOf m.bytes).bytes)
    (hmoved : moved = rowMoved (tileHdrOf (s.bytes (txnOf m.bytes).arg 32)).et (txnOf m.bytes).rowInfo
      ((leWords 8 ((txnOf m.bytes).bytes / 8) m.body).map (sext 64 ·)))
    (hal : a = (txnOf m.bytes).arg + 64 + 8 * (txnOf m.bytes).offset) :
    exec (.txnAtomicAddA64 p) s = .next ((((s.quiet.consume p m).rowStored (txnOf m.bytes).arg a (txnOf m.bytes).rowInfo moved).rowNoted
      ((s.quiet.consume p m).portRq p) (txnOf m.bytes).arg a (txnOf m.bytes).src (rowSat (s.rowSums a moved))).countSat p
      (txnOf m.bytes).tag (rowSat (s.rowSums a moved))) := by
  obtain ⟨hn8, hn0, hn2⟩ := hn
  have hwords : 8 * ((leWords 8 ((txnOf m.bytes).bytes / 8) m.body).map (sext 64 ·)).length = (txnOf m.bytes).bytes := by
    rw [List.length_map, leWords, List.length_map, List.length_range]
    omega
  have hadd := State.addRow_served (s := s.quiet.consume p m) (i := (txnOf m.bytes).rowInfo) (coord := (txnOf m.bytes).src)
    ((s.quiet.consume p m).portRq p) hhdr (by rw [hwords]; exact hrow) hha (by omega) hform hmoved
  have hopen' : (s.quiet.consume p m).windowOpen 1 (txnOf m.bytes) (64 + 8 * (txnOf m.bytes).offset + (txnOf m.bytes).bytes) 3 = true := hopen
  have hsize : ¬((txnOf m.bytes).bytes % 8 ≠ 0 ∨ (txnOf m.bytes).bytes = 0 ∨ 2048 < (txnOf m.bytes).bytes) := by omega
  change execTxnAtomicAddA64 p s = _
  unfold execTxnAtomicAddA64
  refine run_to (decide_eq_true h.1) ?_ ((countSat_touch ..).pending.trans ((rowNoted_touch ..).pending.trans
    ((storeBytes_touch ..).pending.trans (storeBytes_touch ..).pending)))
  rw [State.withTxn_takes h, hal]
  simp only [Txn.rowInfo] at hadd
  simp only [h64, hopen', hsize, hadd, Bool.not_true, Bool.false_eq_true, if_false]
  rfl

end

end Sys2Proof.Machine

namespace Sys2Proof.Machine

open Sys2Proof

/-! ### SEND (R383, R384) -/

section
variable {s : State} {p vc i a total slot : Nat} {m : Msg} {o : OpSlot} {j : Job} {out : Tensor} {bs data : List Byte}

/-- A slice stored and counted for its RECV, which the last one acknowledges. -/
def State.sliceTaken (s : State) (i : Nat) (o : OpSlot) (a : Nat) (data : List Byte) (total : Nat) : State :=
  let t : State := { s.storeBytes a data with ops := SMap.put (s.storeBytes a data).ops i { o with rows := o.rows + data.length } }
  if total ≤ o.rows + data.length then t.opAck i 0 else t

theorem State.deliver_served (t : Txn) (hs : s.outerServes .hbm a data.length) :
    s.deliver p t slot i o a data total = s.sliceTaken i o a data total := by
  rw [State.deliver, State.devWrite_served _ hs]
  rfl

theorem State.opAck_eq (s : State) (i status : Nat) : s.opAck i status = { s with ops := (s.opAck i status).ops } := by
  rw [State.opAck]
  split <;> rfl

/-- Besides the stored bytes only the operations change. -/
theorem State.sliceTaken_eq (s : State) (i : Nat) (o : OpSlot) (a : Nat) (data : List Byte) (total : Nat) :
    s.sliceTaken i o a data total = { s.storeBytes a data with ops := (s.sliceTaken i o a data total).ops } := by
  rw [State.sliceTaken]
  split
  · rw [State.opAck_eq]
  · rfl

theorem State.ops_sliceTaken (ho : o.status = 0) : SMap.find (s.sliceTaken i o a data total).ops i = some { o with
    rows := o.rows + data.length, left := if total ≤ o.rows + data.length then o.left - 1 else o.left } := by
  rw [State.sliceTaken]
  split
  · rw [State.ops_opAck (x := { o with rows := o.rows + data.length }) 0 (by rw [SMap.find_put, if_pos rfl]) ho, ho]
  · rw [SMap.find_put, if_pos rfl]

/-- A SEND for which a RECV has issued is delivered to its slot. -/
theorem exec_txnSend_delivered (h : s.takes p vc opSend m) (hslot : s.epochSlot = some slot) (hjob : s.job slot = some j)
    (hdesc : j.coll[(txnOf m.bytes).arg % 2 ^ 24]? = some bs)
    (hform : (collOf bs).kind = 7 ∧ 16 ≤ m.body.length ∧ formStatus m.body = 0 ∧ fieldLE m.body 3 1 = 0
      ∧ (m.body.drop 9).take 7 = List.replicate 7 0 ∧ fieldLE m.body 4 5 + (m.body.drop 16).length ≤ (collOf bs).bytes)
    (hrecv : s.recvOp ((txnOf m.bytes).arg % 2 ^ 24) (fieldLE m.body 2 1) (if vc = 0 then (txnOf m.bytes).epoch else s.openEpoch)
      = some (i, o))
    (hout : j.tensor (collOf bs).outRef = some out)
    (ha : a = out.base + fieldLE m.body 2 1 % max 1 (collOf bs).depth * (collOf bs).bytes + fieldLE m.body 4 5)
    (hs : s.outerServes .hbm a (m.body.drop 16).length) :
    exec (.txnSend p vc) s = .next ((s.quiet.consume p m).sliceTaken i o a (m.body.drop 16) (collOf bs).bytes) := by
  obtain ⟨hkind, hlen, hversion, hzero, hpad, hfits⟩ := hform
  have hslot' : s.quiet.epochSlot = some slot := hslot
  have hjob' : s.quiet.job slot = some j := hjob
  have hrecv' : s.quiet.recvOp ((txnOf m.bytes).arg % 2 ^ 24) (fieldLE m.body 2 1)
      (if vc = 0 then (txnOf m.bytes).epoch else s.quiet.openEpoch) = some (i, o) := hrecv
  have hs' : (s.quiet.consume p m).outerServes .hbm a (m.body.drop 16).length := hs
  have hok : ¬((collOf bs).kind ≠ 7 ∨ m.body.length < 16 ∨ formStatus m.body ≠ 0 ∨ fieldLE m.body 3 1 ≠ 0
      ∨ (m.body.drop 9).take 7 ≠ List.replicate 7 0 ∨ (collOf bs).bytes < fieldLE m.body 4 5 + (m.body.drop 16).length) := by
    simp only [hkind, hversion, hzero, hpad, ne_eq, not_true_eq_false, false_or]
    omega
  change execTxnSend p vc s = _
  unfold execTxnSend
  refine run_to (by rw [portOk, vcOk, decide_eq_true h.1, decide_eq_true h.2.1]; rfl) ?_ ?_
  · rw [State.withTxn_takes h]
    simp only [hslot', hjob', hdesc, Option.bind_some, Option.map_some, hok, if_false, hrecv', hout]
    rw [← ha, State.deliver_served _ hs']
  · rw [State.sliceTaken]
    split
    · exact (opAck_touch ..).pending.trans (storeBytes_touch ..).pending
    · exact (storeBytes_touch ..).pending

/-- A SEND for a channel that the job does not have is turned away. -/
theorem exec_txnSend_unknown (h : s.takes p vc opSend m) (hslot : s.epochSlot = some slot) (hjob : s.job slot = some j)
    (hdesc : j.coll[(txnOf m.bytes).arg % 2 ^ 24]? = none) :
    exec (.txnSend p vc) s = .next ((s.quiet.consume p m).rejectTxn p tsMalformed (txnOf m.bytes).tag) := by
  have hslot' : s.quiet.epochSlot = some slot := hslot
  have hjob' : s.quiet.job slot = some j := hjob
  change execTxnSend p vc s = _
  unfold execTxnSend
  refine run_to (by rw [portOk, vcOk, decide_eq_true h.1, decide_eq_true h.2.1]; rfl) ?_ (rejectTxn_touch ..).pending
  rw [State.withTxn_takes h]
  simp only [hslot', hjob', hdesc, Option.bind_some, Option.map_none]

end

/-! ### Chunks of collectives (R385, R387, R388) -/

section
variable {s u : State} {p : Nat} {m : Msg}

/-- What a chunk at the front comes to. -/
theorem exec_txnCollectiveStep (hp : p < 6) (hfront : (s.port p).front 1 = some m) (hopcode : (txnOf m.bytes).opcode = opStep)
    (hresp : (txnOf m.bytes).resp = false) (hu : s.quiet.takeChunk p m = some u) :
    exec (.txnCollectiveStep p) s = .next u := by
  have hfront' : (s.quiet.port p).front 1 = some m := hfront
  have htouch := takeChunk_touch s.quiet p m
  rw [hu] at htouch
  change execTxnCollectiveStep p s = _
  unfold execTxnCollectiveStep
  refine run_to (decide_eq_true hp) ?_ htouch.pending
  simp only [hfront', hopcode, hresp, hu, Bool.not_false, and_self, if_true, Option.getD_some]

section
variable (hepoch : s.epochRule (txnOf m.bytes).epoch = 0)
include hepoch

theorem State.takeChunk_unknown (hknown : s.knownIndex ((txnOf m.bytes).arg % 2 ^ 24) = false) :
    s.takeChunk p m = some ((s.consume p m).rejectTxn p tsMalformed (txnOf m.bytes).tag) := by
  simp only [State.takeChunk, hepoch, hknown, Bool.not_false, if_true]

/-- A chunk of one of the device's own exchanges is taken as it comes (log entry 140). -/
theorem State.takeChunk_own (hindex : 0xFFFFF0 ≤ (txnOf m.bytes).arg % 2 ^ 24 ∧ (txnOf m.bytes).arg % 2 ^ 24 < 0xFFFFF9) :
    s.takeChunk p m = some (s.consume p m) := by
  have hknown : s.knownIndex ((txnOf m.bytes).arg % 2 ^ 24) = true := by
    rw [State.knownIndex, decide_eq_true hindex.1, Bool.true_or]
  simp only [State.takeChunk, hepoch, hknown, Bool.not_true, Bool.false_eq_true, if_false, if_pos hindex]

theorem State.takeChunk_applied (hknown : s.knownIndex ((txnOf m.bytes).arg % 2 ^ 24) = true)
    (hindex : (txnOf m.bytes).arg % 2 ^ 24 < 0xFFFFF0 ∨ 0xFFFFF9 ≤ (txnOf m.bytes).arg % 2 ^ 24) :
    s.takeChunk p m = (s.consume p m).applyStep p (txnOf m.bytes) m.body := by
  have hown : ¬(0xFFFFF0 ≤ (txnOf m.bytes).arg % 2 ^ 24 ∧ (txnOf m.bytes).arg % 2 ^ 24 < 0xFFFFF9) := by omega
  simp only [State.takeChunk, hepoch, hknown, Bool.not_true, Bool.false_eq_true, if_false, if_neg hown]

end

/-- A chunk of an epoch that is over is discarded and counted (R358). -/
theorem State.takeChunk_stale (hopcode : (txnOf m.bytes).opcode = opStep) (hepoch : s.epochRule (txnOf m.bytes).epoch = 2) :
    s.takeChunk p m = some ((s.consume p m).addPf p Reg.stale 1) := by
  simp only [State.takeChunk, hepoch, State.staleMsg, hopcode]
  rfl

theorem stale_held : ∀ p < 6, (Reg.stale.plus (0x10000 * p)).held := by decide +kernel

theorem State.staleTaken (s : State) (m : Msg) (hp : p < 6) :
    (((s.consume p m).addPf p Reg.stale 1).port p).inbox = (s.port p).inbox.erase m
      ∧ ((s.consume p m).addPf p Reg.stale 1).pf p Reg.stale = min (s.pf p Reg.stale + 1) (2 ^ 64 - 1) :=
  ⟨by rw [State.port_congr ((addPf_touch _ p _ 1 (by decide)).ports rfl), State.inbox_consume], State.pf_addPf 1 hp (stale_held p hp)⟩

end

section
variable {s : State} {p key : Nat} {t : Txn} {x y : Coll} {h : Hop} {more : List Hop} {body : List Byte}

/-- The only collective takes the chunk that it awaits. -/
theorem State.applyStep_one (hcolls : s.colls = [(key, x)]) (hindex : x.index = t.arg % 2 ^ 24) (hepoch : x.epoch = t.epoch)
    (htracks : x.tracks = [h :: more]) (hsend : h.send = false) (hport : h.port = p) (hround : h.round = bits 39 24 t.arg) :
    s.applyStep p t body = some (s.putColl key (x.take 0 h (bits 63 40 t.arg) body)) := by
  have hawaits : x.awaits p (bits 39 24 t.arg) = some (0, h) := by
    simp [Coll.awaits, htracks, hsend, hport, hround]
  have hfor : s.collFor p t = some (key, x, 0, h) := by
    simp [State.collFor, hcolls, hindex, hepoch, hawaits]
  rw [State.applyStep, hfor]

/-! A chunk joins its collective -/

/-- What a chunk changes of a collective: its data, what has come, and the transfers left. -/
theorem Coll.take_kept (x : Coll) (h : Hop) (chunk : Nat) (body : List Byte) :
    (x.take 0 h chunk body).sent = x.sent ∧ (x.take 0 h chunk body).passes = x.passes ∧ (x.take 0 h chunk body).op = x.op
      ∧ (x.take 0 h chunk body).desc = x.desc := by
  unfold Coll.take
  extract_lets at' vals joined data got n y
  split <;> exact ⟨rfl, rfl, rfl, rfl⟩

/-- The transfer is over with its last chunk. -/
theorem Coll.take_tracks {chunk : Nat} (htracks : x.tracks = [h :: more]) (hc : chunk < 2 ^ 24) : (x.take 0 h chunk body).tracks
    = if x.chunks h ≤ (x.got.countP fun g => g / 2 ^ 24 == h.round) + 1 then [more] else [h :: more] := by
  have hround : ((h.round * 2 ^ 24 + chunk) / 2 ^ 24 == h.round) = true := by
    rw [beq_iff_eq]
    omega
  unfold Coll.take
  extract_lets at' vals joined data got n y
  have hn : n = (x.got.countP fun g => g / 2 ^ 24 == h.round) + 1 := List.countP_cons_of_pos (p := fun g => g / 2 ^ 24 == h.round) hround
  have hy : y.tracks = [h :: more] := htracks
  have hchunks : y.chunks h = x.chunks h := rfl
  rw [hchunks, hn, apply_ite Coll.tracks, hy]
  rfl

/-! Transfers that go on -/

/-- A collective whose next transfer is awaited stays as it is. -/
theorem State.driveColl_awaits (s : State) (htracks : y.tracks = [h :: more]) (hsend : h.send = false) (helems : h.elems ≠ [])
    (hsent : y.sent.eraseDups = y.sent) (k : Nat) : s.driveColl y (k + 1) = (y, s) := by
  have hhops : s.sendHops y (h :: more) = (h :: more, s) := by
    rw [State.sendHops, if_neg (by rw [hsend]; decide), if_neg (by rwa [List.isEmpty_iff])]
  have hports : sentPorts (h :: more) (h :: more) = [] := by
    simp [sentPorts]
  simp [State.driveColl, htracks, hhops, hports, hsent]
  rw [← htracks]

/-- One whose transfers are over has no track left. -/
theorem State.driveColl_over (s : State) (htracks : y.tracks = [[]]) (hpasses : y.passes = []) (hsent : y.sent.eraseDups = y.sent) (k : Nat) :
    s.driveColl y (k + 1) = ({ y with tracks := [] }, s) := by
  simp [State.driveColl, htracks, State.sendHops, sentPorts, hpasses, hsent]

theorem State.putColl_awaits (htracks : y.tracks = [h :: more]) (hsend : h.send = false) (helems : h.elems ≠ [])
    (hsent : y.sent.eraseDups = y.sent) : s.putColl key y = { s with colls := SMap.put s.colls key y } := by
  simp only [State.putColl, State.driveColl_awaits s htracks hsend helems hsent]
  simp [Coll.done, Coll.stuck, htracks, hsend]

theorem State.putColl_over {i : Nat} (htracks : y.tracks = [[]]) (hpasses : y.passes = []) (hsent : y.sent.eraseDups = y.sent)
    (hop : y.op = some i) : s.putColl key y = ({ s with colls := SMap.del s.colls key } : State).finishOpColl i { y with tracks := [] } := by
  simp only [State.putColl, State.driveColl_over s htracks hpasses hsent, hop]
  simp [Coll.done, hpasses]

end

/-! ### What a MAX leaves (R240, R356, R394) -/

section
variable {s : State} {p q i slot : Nat} {o : OpSlot} {j : Job} {out : Tensor} {x : Coll} {l : List Nat}

theorem collectives_held : Reg.collectives.held := by decide +kernel

/-- The result of a MAX stored, and the collective counted. -/
def State.maxStored (s : State) (a : Nat) (x : Coll) : State :=
  (s.inc Reg.collectives).storeBytes a (x.wire (List.range x.data.length))

/-- The end of an operation's MAX whose output HBM takes. -/
theorem State.finishOpColl_max (hop : SMap.find s.ops i = some o) (hslot : o.cue.job = some slot) (hjob : s.job slot = some j)
    (hkind : (collOf x.desc).kind = 3) (hout : j.tensor (collOf x.desc).outRef = some out)
    (hs : s.outerServes .hbm out.base (x.wire (List.range x.data.length)).length) :
    s.finishOpColl i x = (s.maxStored out.base x).fenceColl i x := by
  have hs' : (s.inc Reg.collectives).outerServes .hbm out.base (x.wire (List.range x.data.length)).length :=
    (inc_touch s Reg.collectives).serves (by decide) hs
  have hwrite : (s.inc Reg.collectives).devWrites (collRq o) [(out.base, x.wire (List.range x.data.length))]
      = (0, s.maxStored out.base x) := by
    rw [State.devWrites, State.devWrite_served _ hs']
    rfl
  simp only [State.finishOpColl, hop, hslot, Option.bind_some, hjob, Option.map_some, hkind, hout]
  simp [hwrite]

theorem nodup_eraseDups (l : List Nat) : l.eraseDups.Nodup := by
  induction hn : l.length using Nat.strongRecOn generalizing l with
  | ind n ih =>
    cases l with
    | nil => exact List.nodup_nil
    | cons a l =>
      rw [List.eraseDups_cons, List.nodup_cons]
      refine ⟨by simp, ih _ ?_ _ rfl⟩
      rw [← hn, List.length_cons]
      exact Nat.lt_succ_of_le (List.length_filter_le ..)

theorem State.outbox_modPort (s : State) (p : Nat) (f : Port → Port) (q : Nat) (h : ∀ x, (f x).outbox = x.outbox) :
    ((s.modPort p f).port q).outbox = (s.port q).outbox := by
  rw [State.port_modPort]
  split
  · exact h _
  · rfl

theorem State.outbox_consume (s : State) (p : Nat) (m : Msg) (q : Nat) : ((s.consume p m).port q).outbox = (s.port q).outbox :=
  (State.outbox_modPort _ _ _ _ (by intro; rfl)).trans (State.outbox_modPort _ _ _ _ (by intro; rfl))

/-! A FENCE goes to the end of what its port sends, and changes of no port what it has received -/

theorem State.queued_sendFence (s : State) (p : Nat) (ops : List Nat) : s.queued (s.sendFence p ops) p 3 [] := by
  have htag : ((s.newTag p).2.port p).outbox = (s.port p).outbox :=
    State.outbox_modPort s p (fun x => { x with nextTag := (x.nextTag + 1) % 65536 }) p fun _ => rfl
  exact State.queued_sendMsg 3 _ [] ((State.outbox_modPort _ p _ p (by intro; rfl)).trans htag)

theorem State.port_sendFence_other (s : State) (ops : List Nat) (h : p ≠ q) : (s.sendFence p ops).port q = s.port q :=
  (State.port_modPort_other _ _ h).trans ((State.port_modPort_other _ _ h).trans
    (State.port_modPort_other s (fun x => { x with nextTag := (x.nextTag + 1) % 65536 }) h))

theorem State.inbox_sendFence (s : State) (p : Nat) (ops : List Nat) (q : Nat) : ((s.sendFence p ops).port q).inbox = (s.port q).inbox :=
  (State.inbox_modPort _ _ _ _ (by intro; rfl)).trans ((State.inbox_modPort _ _ _ _ (by intro; rfl)).trans
    (State.inbox_modPort s p (fun x => { x with nextTag := (x.nextTag + 1) % 65536 }) q fun _ => rfl))

theorem State.inbox_sendFences (s : State) (ops l : List Nat) (q : Nat) :
    ((l.foldl (fun s p => s.sendFence p ops) s).port q).inbox = (s.port q).inbox := by
  induction l generalizing s with
  | nil => rfl
  | cons p l ih => rw [List.foldl_cons, ih, State.inbox_sendFence]

/-- FENCEs on different ports: each gets one. -/
theorem State.queued_sendFences (s : State) (ops : List Nat) (hl : l.Nodup) (hq : q ∈ l) :
    s.queued (l.foldl (fun s p => s.sendFence p ops) s) q 3 [] := by
  have hother : ∀ (l : List Nat) (s : State), q ∉ l → (l.foldl (fun s p => s.sendFence p ops) s).port q = s.port q := by
    intro l
    induction l with
    | nil => exact fun _ _ => rfl
    | cons p l ih =>
      intro s h
      rw [List.mem_cons, not_or] at h
      rw [List.foldl_cons, ih _ h.2, State.port_sendFence_other s ops (Ne.symm h.1)]
  induction l generalizing s with
  | nil => cases hq
  | cons p l ih =>
    rw [List.nodup_cons] at hl
    rcases List.mem_cons.1 hq with rfl | hq
    · obtain ⟨head, hlen, hout⟩ := s.queued_sendFence q ops
      exact ⟨head, hlen, by rw [List.foldl_cons, hother l _ hl.1, hout]⟩
    · obtain ⟨head, hlen, hout⟩ := ih (s.sendFence p ops) hl.2 hq
      have hpq : p ≠ q := fun h => hl.1 (h ▸ hq)
      exact ⟨head, hlen, by rw [List.foldl_cons, hout, State.port_sendFence_other s ops hpq]⟩

/-- What the end of an operation's collective leaves: a FENCE on every port that it sent transfers on, and its operation waiting for
their answers. -/
theorem State.fenceColl_leaves (hop : SMap.find s.ops i = some o) (ho : o.status = 0) (hsent : x.sent.Nodup) :
    SMap.find (s.fenceColl i x).ops i = some { o with started := true, left := x.sent.length }
      ∧ (∀ q ∈ x.sent, s.queued (s.fenceColl i x) q 3 []) ∧ ∀ q, ((s.fenceColl i x).port q).inbox = (s.port q).inbox := by
  have hfences : Touch 4096 s (x.sent.foldl (fun s p => s.sendFence p [i]) s) :=
    Touch.foldl (Touch.refl ..) fun t p ht => ht.to (sendFence_touch ..) rfl
  have hports : ∀ q, (s.fenceColl i x).port q = (x.sent.foldl (fun s p => s.sendFence p [i]) s).port q :=
    State.port_congr ((opDone_touch ..).ports rfl)
  refine ⟨State.opRan_opDone ((congrArg (SMap.find · i) (hfences.ops rfl)).trans hop) ho _, fun q hq => ?_, fun q => ?_⟩
  · rw [State.queued, hports]
    exact State.queued_sendFences s [i] hsent hq
  · rw [hports, State.inbox_sendFences]

end

end Sys2Proof.Machine

namespace Sys2Proof.Machine

open Sys2Proof

/-! ### What adds and sends leave -/

/-- The recording of a row add leaves the bytes below the far window and what the ports have received, and counts a saturation. -/
theorem State.rowNoted_leaves (s : State) (rq : Requester) (p tag ha a coord : Nat) (sat : Bool) :
    (∀ b, b < farBase → ((s.rowNoted rq ha a coord sat).countSat p tag sat).byte b = s.byte b)
      ∧ (((s.rowNoted rq ha a coord sat).countSat p tag sat).port p).inbox = (s.port p).inbox
      ∧ (((s.rowNoted rq ha a coord sat).countSat p tag sat).port p).errors = (s.port p).errors + b2n sat := by
  have hnoted := rowNoted_touch s rq ha a coord sat
  obtain ⟨hin, herr⟩ := State.port_countSat (s.rowNoted rq ha a coord sat) p tag sat
  have hport : (s.rowNoted rq ha a coord sat).port p = s.port p := State.port_congr (hnoted.ports rfl) p
  refine ⟨fun b hb => ?_, hin.trans (by rw [hport]), herr.trans (by rw [hport])⟩
  exact ((countSat_touch ..).byte_eq ⟨rfl, rfl⟩ b).trans (hnoted.mem rfl b hb)

theorem State.port_rowStored (s : State) (ha a : Nat) (i : RowInfo) (moved : List (Int × Nat × Bool)) (q : Nat) :
    (s.rowStored ha a i moved).port q = s.port q :=
  (State.port_congr ((storeBytes_touch ..).ports rfl) q).trans (State.port_congr ((storeBytes_touch ..).ports rfl) q)

/-- A row add through a port, with everything it leaves. -/
theorem State.rowAdded_leaves (s : State) (rq : Requester) {p tag ha a n coord : Nat} {i : RowInfo} {moved : List (Int × Nat × Bool)}
    (hha : hbmBase ≤ ha) (hal : ha + 32 ≤ a) (hn : n = 8 * moved.length) (hend : a + n ≤ hbmEnd) :
    let sat := rowSat (s.rowSums a moved)
    let u := ((s.rowStored ha a i moved).rowNoted rq ha a coord sat).countSat p tag sat
    (u.port p).inbox = (s.port p).inbox ∧ u.bytes a n = rowBytes (s.rowSums a moved)
      ∧ u.bytes ha 32 = (rowHdr (tileHdrOf (s.bytes ha 32)) i sat moved).bytes.take 32
      ∧ (u.port p).errors = (s.port p).errors + b2n sat
      ∧ ∀ b, b < farBase → ¬(ha ≤ b ∧ b < ha + 32) → ¬(a ≤ b ∧ b < a + n) → u.byte b = s.byte b := by
  subst hn
  intro sat u
  obtain ⟨hbyte, hin, herr⟩ := State.rowNoted_leaves (s.rowStored ha a i moved) rq p tag ha a coord sat
  obtain ⟨hsums, hhdr, hkept⟩ := State.rowStored_leaves (s := s) (i := i) (moved := moved) hha hal
  have hfar : hbmEnd < farBase := by decide
  rw [State.port_rowStored] at hin herr
  refine ⟨hin, ?_, ?_, herr, fun b hb hb' hb'' => (hbyte b hb).trans (hkept b hb' hb'')⟩
  · rw [State.bytes_congr fun b _ hb => hbyte b (by omega), hsums]
  · rw [State.bytes_congr fun b _ hb => hbyte b (by omega), hhdr]

/-- A slice of a SEND, with everything it leaves. -/
theorem State.sliceTaken_leaves (s : State) {p i a total : Nat} {o : OpSlot} {data : List Byte} (ha : hbmBase ≤ a) (ho : o.status = 0) :
    (s.sliceTaken i o a data total).bytes a data.length = data
      ∧ ((s.sliceTaken i o a data total).port p).inbox = (s.port p).inbox
      ∧ BytesKept (fun b => a ≤ b ∧ b < a + data.length) s (s.sliceTaken i o a data total)
      ∧ SMap.find (s.sliceTaken i o a data total).ops i = some { o with
          rows := o.rows + data.length, left := if total ≤ o.rows + data.length then o.left - 1 else o.left } := by
  refine ⟨?_, ?_, fun b hb => ?_, State.ops_sliceTaken ho⟩ <;> rw [State.sliceTaken_eq]
  · exact State.bytes_storeBytes ha
  · exact congrArg Port.inbox (State.port_congr ((storeBytes_touch s a data).ports rfl) p)
  · exact State.byte_storeBytes_other ha hb

/-! ### What a chunk leaves -/

section
variable {s : State} {key i slot : Nat} {o : OpSlot} {j : Job} {out : Tensor} {x y : Coll}

theorem Coll.elems_of_chunks {h : Hop} (hx : 0 < x.chunks h) : h.elems ≠ [] := by
  rintro hnil
  rw [Coll.chunks, hnil, List.length_nil, ceilDiv, Nat.zero_add] at hx
  exact absurd (Nat.div_pos_iff.1 hx) (by omega)

/-- The result of a MAX stored and counted. -/
theorem State.maxStored_leaves (s : State) {a : Nat} (ha : hbmBase ≤ a) :
    let u := s.maxStored a y
    let w := y.wire (List.range y.data.length)
    u.bytes a w.length = w ∧ u.fld Reg.collectives = min (s.fld Reg.collectives + 1) (2 ^ 64 - 1)
      ∧ u.ports = s.ports ∧ u.ops = s.ops ∧ u.colls = s.colls := by
  have hstored := storeBytes_touch (s.inc Reg.collectives) a (y.wire (List.range y.data.length))
  have hcounted := inc_touch s Reg.collectives
  refine ⟨State.bytes_storeBytes ha, ?_, (hstored.ports rfl).trans (hcounted.ports rfl), (hstored.ops rfl).trans (hcounted.ops rfl),
    (hstored.colls rfl).trans (hcounted.colls rfl)⟩
  exact (hstored.fld _ (by decide +kernel)).trans (State.fld_addF s 1 collectives_held)

/-- The end of a MAX, with everything it leaves. -/
theorem State.maxFenced_leaves (s : State) {p a : Nat} (ha : hbmBase ≤ a) (hop : SMap.find s.ops i = some o) (ho : o.status = 0)
    (hsent : y.sent.Nodup) :
    let u := (s.maxStored a y).fenceColl i y
    let w := y.wire (List.range y.data.length)
    u.colls = s.colls ∧ (u.port p).inbox = (s.port p).inbox ∧ u.bytes a w.length = w
      ∧ SMap.find u.ops i = some { o with started := true, left := y.sent.length } ∧ (∀ q ∈ y.sent, s.queued u q 3 [])
      ∧ u.fld Reg.collectives = min (s.fld Reg.collectives + 1) (2 ^ 64 - 1) := by
  obtain ⟨hbytes, hfld, hports, hops, hcolls⟩ := s.maxStored_leaves (y := y) ha
  have hfenced := fenceColl_touch (s.maxStored a y) i y
  obtain ⟨hslot, hqueued, hinbox⟩ := State.fenceColl_leaves (s := s.maxStored a y) (hops ▸ hop) ho hsent
  refine ⟨(hfenced.colls rfl).trans hcolls, (hinbox p).trans (by rw [State.port_congr hports]), ?_, hslot, fun q hq => ?_,
    (hfenced.fld _ (by decide +kernel)).trans hfld⟩
  · rw [State.bytes_congr fun b _ _ => hfenced.byte_eq ⟨rfl, rfl⟩ b]
    exact hbytes
  · have hsame := hqueued q hq
    rwa [State.queued, State.port_congr hports] at hsame

section
variable {t : Txn} {body : List Byte} {h : Hop} {more : List Hop} (hcolls : s.colls = [(key, x)]) (hxi : x.index = t.arg % 2 ^ 24)
  (hxe : x.epoch = t.epoch) (htracks : x.tracks = [h :: more]) (hsend : h.send = false) (hround : h.round = bits 39 24 t.arg)
  (hsent : x.sent.eraseDups = x.sent)
include hcolls hxi hxe htracks hsend hround hsent

/-- A chunk after which its transfer goes on. -/
theorem State.applyStep_goesOn (hmore : (x.got.countP fun g => g / 2 ^ 24 == h.round) + 1 < x.chunks h) :
    s.applyStep h.port t body = some { s with colls := [(key, x.take 0 h (bits 63 40 t.arg) body)] } := by
  have hleft := Coll.take_tracks (body := body) htracks (bits_lt 63 40 t.arg)
  obtain ⟨hkept, -⟩ := x.take_kept h (bits 63 40 t.arg) body
  rw [if_neg (Nat.not_le.2 hmore)] at hleft
  rw [State.applyStep_one hcolls hxi hxe htracks hsend rfl hround,
    State.putColl_awaits hleft hsend (Coll.elems_of_chunks (Nat.zero_lt_of_lt hmore)) (hkept ▸ hsent), hcolls]
  simp [SMap.put, SMap.del, SMap.ins]

/-- The last chunk of the last transfer of a MAX. -/
theorem State.applyStep_last (hlast : x.chunks h ≤ (x.got.countP fun g => g / 2 ^ 24 == h.round) + 1) (hnil : more = [])
    (hpasses : x.passes = []) (hxop : x.op = some i) (hop : SMap.find s.ops i = some o) (hslot : o.cue.job = some slot)
    (hjob : s.job slot = some j) (hkind : (collOf x.desc).kind = 3) (hout : j.tensor (collOf x.desc).outRef = some out)
    (hy : y = { x.take 0 h (bits 63 40 t.arg) body with tracks := [] })
    (hs : s.outerServes .hbm out.base (y.wire (List.range y.data.length)).length) :
    s.applyStep h.port t body = some ((({ s with colls := [] } : State).maxStored out.base y).fenceColl i y) := by
  have hleft := Coll.take_tracks (body := body) htracks (bits_lt 63 40 t.arg)
  obtain ⟨hksent, hkpasses, hkop, hkdesc⟩ := x.take_kept h (bits 63 40 t.arg) body
  have hdel : SMap.del s.colls key = [] := by simp [hcolls, SMap.del]
  have hydesc : y.desc = x.desc := hy ▸ hkdesc
  rw [if_pos hlast, hnil] at hleft
  rw [State.applyStep_one hcolls hxi hxe htracks hsend rfl hround,
    State.putColl_over hleft (hkpasses.trans hpasses) (hksent ▸ hsent) (hkop.trans hxop), hdel, ← hy]
  rw [← hydesc] at hkind hout
  exact congrArg some (State.finishOpColl_max (s := { s with colls := [] }) hop hslot hjob hkind hout hs)

/-- What the last chunk of the last transfer of a MAX leaves. -/
theorem State.applyStep_last_leaves {p : Nat} (hlast : x.chunks h ≤ (x.got.countP fun g => g / 2 ^ 24 == h.round) + 1) (hnil : more = [])
    (hpasses : x.passes = []) (hxop : x.op = some i) (hop : SMap.find s.ops i = some o) (hslot : o.cue.job = some slot)
    (hjob : s.job slot = some j) (hkind : (collOf x.desc).kind = 3) (hout : j.tensor (collOf x.desc).outRef = some out)
    (hy : y = x.take 0 h (bits 63 40 t.arg) body) (hs : s.outerServes .hbm out.base (y.wire (List.range y.data.length)).length)
    (ho : o.status = 0) :
    ∃ u, s.applyStep h.port t body = some u ∧ u.colls = [] ∧ (u.port p).inbox = (s.port p).inbox
      ∧ u.bytes out.base (y.wire (List.range y.data.length)).length = y.wire (List.range y.data.length)
      ∧ SMap.find u.ops i = some { o with started := true, left := x.sent.length } ∧ (∀ q ∈ x.sent, s.queued u q 3 [])
      ∧ u.fld Reg.collectives = min (s.fld Reg.collectives + 1) (2 ^ 64 - 1) := by
  subst hy
  have hstep := State.applyStep_last (body := body) hcolls hxi hxe htracks hsend hround hsent hlast hnil hpasses hxop hop hslot hjob hkind
    hout rfl hs
  obtain ⟨hksent, -⟩ := x.take_kept h (bits 63 40 t.arg) body
  have hnodup : (x.take 0 h (bits 63 40 t.arg) body).sent.Nodup := (hksent.trans hsent.symm) ▸ nodup_eraseDups x.sent
  rw [← hksent]
  exact ⟨_, hstep, State.maxFenced_leaves { s with colls := [] } (y := { x.take 0 h (bits 63 40 t.arg) body with tracks := [] })
    (State.hbm_of_serves hs).1 hop ho hnodup⟩

end

end

/-! ### The clauses -/

/-- Settles O46: each command by what it comes to, and what that leaves of the bytes, the ports, the operations and the collectives. -/
theorem addsSendsAndChunksAreApplied : Obligations.AddsSendsAndChunksAreApplied := by
  intro s p vc m t left
  have hinbox : ((s.quiet.consume p m).port p).inbox = (s.port p).inbox.erase m := State.inbox_consume s.quiet p m
  refine ⟨fun h h64 hopen ha hn hb hexp hs => ?_, fun h h64 hopen hn8 hn0 hn2 hha hform => ?_,
    fun slot j bs i o out h hslot hjob hdesc hkind hlen hversion hzero hpad => ?_,
    fun slot j h hslot hjob hdesc => ⟨_, exec_txnSend_unknown h hslot hjob hdesc, State.turnedAway s.quiet m _ _ h.1⟩,
    fun hp hfront hopcode hresp => ?_⟩
  · obtain ⟨hsum, hkept, herr, hin⟩ := State.addedI32_leaves (s := s.quiet.consume p m) (p := p) (body := m.body) (tag := t.tag)
      (State.hbm_of_serves hs).1
    have hsat : (s.quiet.consume p m).sumI32 t.arg m.body = _ := satSum_32 _ _
    refine ⟨_, exec_txnAtomicAddI32_word h h64 hopen ha hn hb hexp hs, hsum.trans (by rw [hsat]; rfl), hkept, herr.trans ?_,
      hin.trans hinbox⟩
    rw [State.port_consume, hsat]
    rfl
  · intro a hhdr hrow hdr info moved exact sat new
    have hlen : t.bytes = 8 * moved.length := by
      simp only [moved, List.length_map, leWords, List.length_range]
      omega
    have hmoved : moved = rowMoved hdr.et info ((leWords 8 (t.bytes / 8) m.body).map (sext 64 ·)) := by
      rw [rowMoved, List.map_map]
      rfl
    obtain ⟨hge, -⟩ := State.hbm_of_serves hhdr
    obtain ⟨-, hend⟩ := State.hbm_of_serves hrow
    have hsums : (s.quiet.consume p m).rowSums a moved = exact := by
      rw [State.rowSums, ← hlen, show moved.length = t.bytes / 8 by omega]
      rfl
    obtain ⟨hin, hbytes, hnew, herr, hkept⟩ := (s.quiet.consume p m).rowAdded_leaves ((s.quiet.consume p m).portRq p) (p := p) (tag := t.tag)
      (coord := t.src) (i := info) hge (show t.arg + 32 ≤ a by omega) hlen hend
    refine ⟨_, exec_txnAtomicAddA64_row h h64 hopen ⟨hn8, hn0, hn2⟩ hha hform hhdr hrow hmoved rfl, hin.trans hinbox, hbytes.trans ?_,
      hnew.trans ?_, herr.trans ?_, hkept⟩
    · rw [hsums]
      rfl
    · rw [hsums, rowHdr_eq]
      rfl
    · rw [hsums, State.port_consume]
      rfl
  · intro off data hfits hrecv hout a hs ho
    obtain ⟨hbytes, hin, hkept, hops⟩ := (s.quiet.consume p m).sliceTaken_leaves (p := p) (i := i) (a := a) (data := data)
      (total := (collOf bs).bytes) (State.hbm_of_serves hs).1 ho
    exact ⟨_, exec_txnSend_delivered h hslot hjob hdesc ⟨hkind, hlen, hversion, hzero, hpad, hfits⟩ hrecv hout rfl hs,
      hbytes, hin.trans hinbox, hkept, hops⟩
  · intro index
    refine ⟨fun key x first more hepoch hknown hindex hcolls hxi hxe htracks hsend hport hround hsent => ?_,
      fun hepoch hlo hhi => ⟨_, exec_txnCollectiveStep hp hfront hopcode hresp (State.takeChunk_own (s := s.quiet) hepoch ⟨hlo, hhi⟩),
        hinbox, rfl, rfl⟩,
      fun hepoch hknown => ⟨_, exec_txnCollectiveStep hp hfront hopcode hresp (State.takeChunk_unknown (s := s.quiet) hepoch hknown),
        State.turnedAway s.quiet m _ _ hp⟩,
      fun hepoch => ⟨_, exec_txnCollectiveStep hp hfront hopcode hresp (State.takeChunk_stale (s := s.quiet) hopcode hepoch),
        State.staleTaken s.quiet m hp⟩⟩
    · subst hport
      have hstep : ∀ u, (s.quiet.consume first.port m).applyStep first.port t m.body = some u →
          exec (.txnCollectiveStep first.port) s = .next u :=
        fun u hu => exec_txnCollectiveStep hp hfront hopcode hresp ((State.takeChunk_applied (s := s.quiet) hepoch hknown hindex).trans hu)
      have hcolls' : (s.quiet.consume first.port m).colls = [(key, x)] := hcolls
      refine ⟨fun hmore => ⟨_, hstep _ (State.applyStep_goesOn hcolls' hxi hxe htracks hsend hround hsent hmore), rfl, hinbox⟩,
        fun i slot o j out hlast hnil hpasses hxop hfind hslot hjob hkind hout => ?_⟩
      intro n hs ho
      obtain ⟨u, hu, hnone, hin, hbytes, hslots, hqueued, hfld⟩ := State.applyStep_last_leaves (p := first.port) (body := m.body) hcolls' hxi hxe
        htracks hsend hround hsent hlast hnil hpasses hxop hfind hslot hjob hkind hout rfl
        ((consume_touch s.quiet first.port m).serves ⟨rfl, rfl, rfl, rfl⟩ hs) ho
      refine ⟨u, hstep u hu, hnone, hin.trans hinbox, hbytes, hslots, fun q hq _ => ?_, hfld⟩
      obtain ⟨head, hhead, hout⟩ := hqueued q hq
      exact ⟨head, hhead, hout.trans (congrArg (· ++ _) (State.outbox_consume s.quiet first.port m q))⟩

end Sys2Proof.Machine

namespace Sys2Proof.Machine

open Sys2Proof

/-! ### A watch record in a bank that another bank serves

The device changes a watch record where its address is stored, which for an address of a bank that another one serves is the other
(R289). R196 places the watch records in HBM, where each address is its own; the statement lets them begin at any address below the far
window, and expects the changed flags at the address itself. -/

namespace AliasedWatch

/-- A job of one tensor, whose watch records begin at address 0, in bank 0. -/
def job : Job := { jobOfPackage (List.replicate 128 0) (fun _ => []) 0 0 with layout := [List.replicate 64 0] }

/-- Bank 1 serves bank 0. The bytes at address 0 hold a watch record: the flags name a gradient, silent for 255 steps. -/
def state : State :=
  { (State.reset.setF Reg.bankAlias 1).setF Reg.bankAliasValid 1 with mem := [(3, 1), (32, 255)], jobs := [(0, job)] }

/-- The command leaves the flags at the record's own address as they were. -/
def kept : Bool :=
  match exec (.silenceReached 0 0) state with
  | .next t => t.num 3 1 == 1
  | _ => false

theorem flags_of_exec {t : State} (h : exec (.silenceReached 0 0) state = .next t) : t.num 3 1 = 1 := by
  have hkept : kept = true := by decide +kernel
  rw [kept, h] at hkept
  exact beq_iff_eq.1 hkept

end AliasedWatch

/-- Refutes O34: the flags of a watch record in a bank that another bank serves change in the serving bank, not at the record's address. -/
theorem not_rotationKeysLoadAndSilenceIsReported : ¬ Obligations.RotationKeysLoadAndSilenceIsReported := by
  intro h
  obtain ⟨t, hexec, -, hflags, -⟩ := (h AliasedWatch.state).2 0 0 AliasedWatch.job (by decide) (by decide +kernel) (by decide)
    (by decide +kernel) (by decide +kernel) (by decide +kernel) (by decide +kernel) (by decide +kernel) (by decide +kernel)
  have hbase : AliasedWatch.job.watchAt 0 = 0 := by decide +kernel
  have hset : setBits 5 5 1 (AliasedWatch.state.num (0 + 3) 1) = 33 := by decide +kernel
  rw [hbase, hset] at hflags
  exact absurd ((AliasedWatch.flags_of_exec hexec).symm.trans hflags) (by decide)

end Sys2Proof.Machine

namespace Sys2Proof.Machine

open Sys2Proof

/-! ### Parts of what HBM serves -/

section
variable {s : State} {a b n m : Nat}

/-- A 2 KiB unit of a part lies on a stack that the whole touches: an access of 16 KiB touches every stack (Table 9.3). -/
theorem exists_unit_of_part {u : Nat} (ha : hbmBase ≤ a) (hab : a ≤ b) (hbm : b + m ≤ a + n)
    (hu : u ∈ unitsOf 2048 b (min m 16384)) : ∃ v ∈ unitsOf 2048 a (min n 16384), hbmStack v = hbmStack u := by
  rw [hbmBase] at ha
  unfold unitsOf at hu ⊢
  split at hu
  · cases hu
  · obtain ⟨i, hi, rfl⟩ := List.mem_map.1 hu
    rw [List.mem_range] at hi
    have hn : min n 16384 ≠ 0 := by omega
    rw [if_neg hn]
    rcases Nat.lt_or_ge 16384 n with hlarge | hsmall
    · refine ⟨_, List.mem_map.2 ⟨(b / 2048 + i - a / 2048) % 8, List.mem_range.2 (by omega), rfl⟩, ?_⟩
      simp only [hbmStack, bits, hbmBase, Nat.shiftRight_eq_div_pow]
      omega
    · exact ⟨_, List.mem_map.2 ⟨b / 2048 + i - a / 2048, List.mem_range.2 (by omega), rfl⟩, by
        rw [show a / 2048 + (b / 2048 + i - a / 2048) = b / 2048 + i by omega]⟩

theorem State.stackOff_part (ha : hbmBase ≤ a) (hab : a ≤ b) (hbm : b + m ≤ a + n) (h : s.stackOff a n = false) :
    s.stackOff b m = false := by
  simp only [State.stackOff, Bool.and_eq_false_iff, List.any_eq_false] at h ⊢
  refine h.imp_right fun h => ?_
  intro u hu
  obtain ⟨v, hv, hstack⟩ := exists_unit_of_part ha hab hbm hu
  rw [← hstack]
  exact h v hv

/-- HBM that serves an access serves each part of it. -/
theorem State.outerServes_part (h : s.outerServes .hbm a n) (hab : a ≤ b) (hbm : b + m ≤ a + n) : s.outerServes .hbm b m := by
  obtain ⟨hlo, hhi⟩ := State.hbm_of_serves h
  obtain ⟨-, hpages, hvoided, hup⟩ := h
  refine ⟨?_, hpages, hvoided, .inl ⟨rfl, ?_⟩⟩
  · rw [State.tierOf, if_neg, if_pos ⟨hlo.trans hab, hbm.trans hhi⟩]
    rw [hbmBase] at hlo
    omega
  · rcases hup with ⟨-, hoff⟩ | ⟨hddr, -⟩
    · exact State.stackOff_part hlo hab hbm hoff
    · cases hddr

end

/-! ### Several stores in HBM -/

/-- s with each write's bytes stored, in order. -/
def State.storeAll (s : State) (ws : List (Nat × List Byte)) : State := ws.foldl (fun s w => s.storeBytes w.1 w.2) s

section
variable {s : State} {a b n k : Nat} {bs : List Byte} {w : Nat × List Byte} {ws : List (Nat × List Byte)}

theorem State.storeAll_cons : s.storeAll (w :: ws) = (s.storeBytes w.1 w.2).storeAll ws := rfl

theorem State.storeBytes_serves (ha : hbmBase ≤ a) (h : s.outerServes .hbm b n) : (s.storeBytes a bs).outerServes .hbm b n := by
  have hbank : ¬ a < 0x3000_0000 := by
    rw [hbmBase] at ha
    omega
  obtain ⟨htier, hpages, hvoided, hup⟩ := h
  rw [State.storeBytes, if_neg hbank]
  exact ⟨State.tierOf_hbm htier _, hpages, by
    rw [State.markDirty, State.putBytes, State.clearVoids]
    exact List.filter_eq_nil_iff.2 (by rw [hvoided]; exact fun _ h => absurd h List.not_mem_nil), hup⟩

/-- Writes that HBM serves are all stored. -/
theorem State.devWrites_served (rq : Requester) (h : ∀ w ∈ ws, s.outerServes .hbm w.1 w.2.length) :
    s.devWrites rq ws = (0, s.storeAll ws) := by
  induction ws generalizing s with
  | nil => rfl
  | cons w ws ih =>
    have hw := h w (List.mem_cons_self ..)
    simp only [State.devWrites, State.devWrite_served rq hw]
    exact ih fun x hx => State.storeBytes_serves (State.hbm_of_serves hw).1 (h x (List.mem_cons_of_mem _ hx))

theorem State.num_congr {s t : State} (h : ∀ c, b ≤ c → c < b + k → t.byte c = s.byte c) : t.num b k = s.num b k := by
  rw [State.num, State.num, State.bytes_congr h]

/-- A number that no write reaches stays. -/
theorem State.num_storeAll_other (h : ∀ w ∈ ws, hbmBase ≤ w.1 ∧ (b + k ≤ w.1 ∨ w.1 + w.2.length ≤ b)) :
    (s.storeAll ws).num b k = s.num b k := by
  induction ws generalizing s with
  | nil => rfl
  | cons w ws ih =>
    obtain ⟨hbase, hapart⟩ := h w (List.mem_cons_self ..)
    rw [State.storeAll_cons, ih fun x hx => h x (List.mem_cons_of_mem _ hx)]
    exact State.num_congr fun c hlo hhi => State.byte_storeBytes_other hbase (by omega)

/-- Entry i of a list of entries of k bytes each. -/
theorem take_drop_flatMap {α : Type} {g : α → List Byte} {l : List α} {i : Nat} {x : α} (hg : ∀ y, (g y).length = k) (hx : l[i]? = some x) :
    ((l.flatMap g).drop (k * i)).take k = g x := by
  induction l generalizing i with
  | nil => cases hx
  | cons y l ih =>
    rw [List.flatMap_cons]
    cases i with
    | zero =>
      obtain rfl : y = x := by simpa using hx
      rw [Nat.mul_zero, List.drop_zero, ← hg y, List.take_left]
    | succ i =>
      rw [show k * (i + 1) = (g y).length + k * i by rw [hg]; ring, ← List.drop_drop, List.drop_left]
      exact ih (by simpa using hx)

theorem length_flatMap_leBytes {α : Type} (f : α → Nat) (l : List α) : (l.flatMap fun x => leBytes k (f x)).length = k * l.length := by
  simp [List.length_flatMap, length_leBytes, Nat.mul_comm]

/-- Entry i of stored numbers of k bytes each. -/
theorem State.num_storeBytes_flatMap {α : Type} {f : α → Nat} {l : List α} {i : Nat} {x : α} (ha : hbmBase ≤ a) (hx : l[i]? = some x) :
    (s.storeBytes a (l.flatMap fun y => leBytes k (f y))).num (a + k * i) k = f x % 256 ^ k := by
  have hi : i < l.length := (List.getElem?_eq_some_iff.1 hx).1
  have hfits : k * i + k ≤ (l.flatMap fun y => leBytes k (f y)).length := by
    rw [length_flatMap_leBytes, ← Nat.mul_succ]
    exact Nat.mul_le_mul_left _ hi
  have hentry := take_drop_flatMap (g := fun y => leBytes k (f y)) (fun _ => length_leBytes ..) hx
  rw [State.num, ← leNat_leBytes, ← hentry]
  congr 1
  refine List.ext_getElem ?_ fun c hc hc' => ?_
  · rw [State.length_bytes, List.length_take, List.length_drop]
    omega
  · rw [State.length_bytes] at hc
    simp only [State.bytes, List.getElem_map, List.getElem_range, Nat.add_assoc, List.getElem_take, List.getElem_drop]
    rw [State.byte_storeBytes ha, State.byte_putBytes s a (by omega)]

end

/-! ### One UPDATE -/

/-- The tensors of an UPDATE that is taken have its formats (Table 7.2). -/
theorem Job.updRefs_ok {j : Job} {c : CueRec} {r : UpdRefs} (h : j.updRefs c = .ok r) :
    r.master.fmt = fmtK40 ∧ r.m.fmt = fmtF32 ∧ r.v.fmt = fmtF32 := by
  unfold Job.updRefs at h
  extract_lets w at h
  split at h
  case h_5 a g m v _ _ _ _ =>
    extract_lets n at h
    repeat' split at h
    all_goals cases h
    all_goals exact ⟨by tauto, by tauto, by tauto⟩
  all_goals cases h

/-- The v that an UPDATE of this kind stores: SGD has none (R255). -/
def UpdRefs.vWrites (r : UpdRefs) (kind : Nat) (outs : List UpdOut) : List (Nat × List Byte) :=
  if kind = 2 then [] else [(r.v.base, outs.flatMap fun x => leBytes 4 (f32Code x.v))]

/-- What an UPDATE of this kind stores: the master's two planes, m, and v (R202, R253, R255). -/
def UpdRefs.writes (r : UpdRefs) (kind : Nat) (outs : List UpdOut) : List (Nat × List Byte) :=
  (r.master.base, outs.flatMap fun x => leBytes 4 (k40HiPlane (masterCode kind x.w)))
    :: (r.master.base + align256 (4 * r.master.elems), outs.flatMap fun x => leBytes 1 (k40LoPlane (masterCode kind x.w)))
    :: (r.m.base, outs.flatMap fun x => leBytes 4 (f32Code x.m)) :: r.vWrites kind outs

theorem UpdRefs.forall_vWrites {r : UpdRefs} {kind : Nat} {outs : List UpdOut} {P : Nat × List Byte → Prop} :
    (∀ w ∈ r.vWrites kind outs, P w) ↔ (kind ≠ 2 → P (r.v.base, outs.flatMap fun x => leBytes 4 (f32Code x.v))) := by
  rw [UpdRefs.vWrites]
  split <;> simp [*]

theorem UpdRefs.writes_eq {r : UpdRefs} (kind : Nat) (outs : List UpdOut) (hw : r.master.fmt = fmtK40) (hm : r.m.fmt = fmtF32)
    (hv : r.v.fmt = fmtF32) : r.master.wideWrites 0 (outs.map fun o => masterCode kind o.w)
      ++ r.m.wideWrites 0 (outs.map fun o => f32Code o.m) ++ (if kind = 2 then [] else r.v.wideWrites 0 (outs.map fun o => f32Code o.v))
      = r.writes kind outs := by
  have hk40 : ¬ fmtF32 = fmtK40 := by decide
  have hw16 : ¬ fmtF32 = 0x10 := by decide
  simp only [Tensor.wideWrites, hw, hm, hv, hk40, hw16, if_true, if_false, UpdRefs.writes, UpdRefs.vWrites, List.flatMap_map, Nat.mul_zero, Nat.add_zero]
  rfl

/-- A carried-out UPDATE without a working copy: its planes are stored, then counted and digested (R254, R467). -/
def State.updated (s : State) (i u slot : Nat) (j : Job) (kind : Nat) (r : UpdRefs) (gs : List Val) (outs : List UpdOut) : State :=
  (((s.storeAll (r.writes kind outs)).noteGrad slot r.grad gs).noteUpdate slot u kind j.seed r.master outs).opDone i 0 0

section
variable {s : State} {i u slot : Nat} {o : OpSlot} {j : Job} {bs : List Byte} {r : UpdRefs} {ws ms vs gs : List Val} {outs : List UpdOut}

theorem State.withUpdate_waits (hw : s.jobWaits i cUpdate o slot j) (hunit : s.unitRaw (UId.updateUnit u) = US.active)
    (hbs : j.upd[o.cue.op 36 3]? = some bs) (hrefs : j.updRefs o.cue = .ok r) :
    s.quiet.withUpdate i u (updOf bs).kind = s.quiet.doUpdate i u slot (j.viewOf o) o.cue (updOf bs) r := by
  have hactive : s.quiet.unitRaw (UId.updateUnit u) = US.active := hunit
  simp only [State.withUpdate, State.withOp_waits hw.1, State.withJob_waits hw, hbs, hrefs, hactive, ne_eq, not_true, or_self, if_false]

theorem State.doUpdate_served {d : UpdDesc} (hrefs : j.updRefs o.cue = .ok r) (hwork : r.work = none)
    (hread : s.quiet.readAll ⟨2, u, some slot⟩ [r.master, r.m, r.v, r.grad] = (0, [ws, ms, vs, gs], 0, s.quiet))
    (houts : updElems d (updConst d (gsqrt (f32Val j.normS)) (s.jf slot Reg.jobStep + 1)) ws ms vs gs = outs)
    (hserves : ∀ w ∈ r.writes d.kind outs, s.outerServes .hbm w.1 w.2.length) :
    s.quiet.doUpdate i u slot (j.viewOf o) o.cue d r = s.quiet.updated i u slot (j.viewOf o) d.kind r gs outs := by
  obtain ⟨hmaster, hm, hv⟩ := Job.updRefs_ok hrefs
  have hstore := State.devWrites_served (s := s.quiet) ⟨2, u, some slot⟩ hserves
  have houts' : updElems d (updConst d (gsqrt (f32Val (j.viewOf o).normS)) (s.quiet.jf slot Reg.jobStep + 1)) ws ms vs gs = outs := houts
  simp only [State.doUpdate, hread, houts', UpdRefs.writes_eq d.kind outs hmaster hm hv, hstore, hwork]
  rfl

theorem updated_touch (s : State) (kind : Nat) :
    Touch 206705852630 (s.storeAll (r.writes kind outs)) (s.updated i u slot j kind r gs outs) :=
  (((Touch.refl ..).to (noteGrad_touch ..) rfl).to (noteUpdate_touch ..) rfl).to (opDone_touch ..) rfl

theorem storeAll_touch (s : State) (ws : List (Nat × List Byte)) : Touch 68719512577 s (s.storeAll ws) :=
  Touch.foldl (Touch.refl ..) fun t w h => h.to (storeBytes_touch t w.1 w.2) rfl

theorem State.opRan_updated {kind : Nat} (hfind : SMap.find s.ops i = some o) (h0 : o.status = 0) :
    (s.updated i u slot j kind r gs outs).opRan i o 0 := by
  have hnoted := ((noteGrad_touch (s.storeAll (r.writes kind outs)) slot r.grad gs).widen (M := 206705852566) rfl).to
    (noteUpdate_touch _ slot u kind j.seed r.master outs) rfl
  refine State.opRan_opDone ?_ h0 0
  rw [hnoted.ops rfl, (storeAll_touch ..).ops rfl, hfind]

/-- What is counted and digested besides leaves the planes as they were stored. -/
theorem State.num_updated (s : State) (kind : Nat) {b k : Nat} (hb : b + k ≤ farBase) :
    (s.updated i u slot j kind r gs outs).num b k = (s.storeAll (r.writes kind outs)).num b k :=
  State.num_congr fun c _ hc => (updated_touch s kind).mem rfl c (Nat.lt_of_lt_of_le hc hb)

end

/-! ### The planes after an UPDATE -/

theorem apart_of_overlap {a n b m : Nat} (h : overlap a n b m = false) (hn : 0 < n) (hm : 0 < m) : a + n ≤ b ∨ b + m ≤ a := by
  simp only [overlap, Bool.and_eq_false_iff, decide_eq_false_iff_not] at h
  omega

/-- HBM serves the planes that an UPDATE of n elements stores, and none of them reaches into another. -/
structure UpdRefs.Serves (r : UpdRefs) (s : State) (n : Nat) : Prop where
  master : s.outerServes .hbm r.master.base (align256 (4 * n) + n)
  m : s.outerServes .hbm r.m.base (4 * n)
  v : s.outerServes .hbm r.v.base (4 * n)
  masterM : overlap r.master.base (align256 (4 * n) + n) r.m.base (4 * n) = false
  masterV : overlap r.master.base (align256 (4 * n) + n) r.v.base (4 * n) = false
  mV : overlap r.m.base (4 * n) r.v.base (4 * n) = false
  elems : r.master.elems = n

theorem le_align256 (n : Nat) : n ≤ align256 n := by
  rw [align256, ceilDiv]
  omega

section
variable {s : State} {r : UpdRefs} {outs : List UpdOut} {kind k : Nat} {x : UpdOut} (h : r.Serves s outs.length)
include h

theorem UpdRefs.Serves.writes (kind : Nat) : ∀ w ∈ r.writes kind outs, s.outerServes .hbm w.1 w.2.length := by
  have halign := le_align256 (4 * outs.length)
  rw [UpdRefs.writes, List.forall_mem_cons, List.forall_mem_cons, List.forall_mem_cons, UpdRefs.forall_vWrites]
  simp only [length_flatMap_leBytes, h.elems]
  exact ⟨State.outerServes_part h.master (by omega) (by omega), State.outerServes_part h.master (by omega) (by omega), h.m,
    fun _ => h.v⟩

variable (hx : outs[k]? = some x)
include hx

/-- The new master stands in its two planes (R36). -/
theorem UpdRefs.Serves.num_master (kind : Nat) : let t := s.storeAll (r.writes kind outs)
    t.num (r.master.base + 4 * k) 4 * 256 + t.num (r.master.base + align256 (4 * outs.length) + k) 1 = masterCode kind x.w % 2 ^ 40 := by
  have hk : k < outs.length := (List.getElem?_eq_some_iff.1 hx).1
  have halign := le_align256 (4 * outs.length)
  have hw := (State.hbm_of_serves h.master).1
  have hm := (State.hbm_of_serves h.m).1
  have hv := (State.hbm_of_serves h.v).1
  have hwm := apart_of_overlap h.masterM (by omega) (by omega)
  have hwv := apart_of_overlap h.masterV (by omega) (by omega)
  intro t
  have hhi : t.num (r.master.base + 4 * k) 4 = k40HiPlane (masterCode kind x.w) % 256 ^ 4 := by
    simp only [t, UpdRefs.writes, h.elems]
    rw [State.storeAll_cons, State.num_storeAll_other, State.num_storeBytes_flatMap hw hx]
    rw [List.forall_mem_cons, List.forall_mem_cons, UpdRefs.forall_vWrites]
    simp only [length_flatMap_leBytes]
    omega
  have hlo : t.num (r.master.base + align256 (4 * outs.length) + k) 1 = k40LoPlane (masterCode kind x.w) % 256 ^ 1 := by
    simp only [t, UpdRefs.writes, h.elems]
    rw [State.storeAll_cons, State.storeAll_cons, State.num_storeAll_other, ← Nat.one_mul k, State.num_storeBytes_flatMap (by omega) hx]
    rw [List.forall_mem_cons, UpdRefs.forall_vWrites]
    simp only [length_flatMap_leBytes]
    omega
  rw [hhi, hlo, k40HiPlane, k40LoPlane, Nat.shiftRight_eq_div_pow]
  omega

theorem UpdRefs.Serves.num_m (kind : Nat) : (s.storeAll (r.writes kind outs)).num (r.m.base + 4 * k) 4 = f32Code x.m % 2 ^ 32 := by
  have hk : k < outs.length := (List.getElem?_eq_some_iff.1 hx).1
  have hm := (State.hbm_of_serves h.m).1
  have hv := (State.hbm_of_serves h.v).1
  have hmv := apart_of_overlap h.mV (by omega) (by omega)
  rw [UpdRefs.writes, State.storeAll_cons, State.storeAll_cons, State.storeAll_cons]
  refine (State.num_storeAll_other ?_).trans (State.num_storeBytes_flatMap hm hx)
  rw [UpdRefs.forall_vWrites]
  simp only [length_flatMap_leBytes]
  omega

theorem UpdRefs.Serves.num_v (kind : Nat) : (s.storeAll (r.writes kind outs)).num (r.v.base + 4 * k) 4
    = if kind = 2 then s.num (r.v.base + 4 * k) 4 else f32Code x.v % 2 ^ 32 := by
  have hk : k < outs.length := (List.getElem?_eq_some_iff.1 hx).1
  have halign := le_align256 (4 * outs.length)
  have hw := (State.hbm_of_serves h.master).1
  have hm := (State.hbm_of_serves h.m).1
  have hv := (State.hbm_of_serves h.v).1
  have hwv := apart_of_overlap h.masterV (by omega) (by omega)
  have hmv := apart_of_overlap h.mV (by omega) (by omega)
  rw [UpdRefs.writes, UpdRefs.vWrites]
  split
  · refine State.num_storeAll_other ?_
    simp only [List.forall_mem_cons, length_flatMap_leBytes, h.elems]
    exact ⟨by omega, by omega, by omega, fun _ hw => absurd hw List.not_mem_nil⟩
  · exact State.num_storeBytes_flatMap hv hx

end

/-- An UPDATE over planes that HBM serves. -/
theorem exec_update {s : State} {i u slot : Nat} {o : OpSlot} {j : Job} {bs : List Byte} {r : UpdRefs} {ws ms vs gs : List Val}
    {outs : List UpdOut} {c : Instr} {kind : Nat}
    (hexec : exec c s = run (opOk i && unitOk16 u) (fun s => s.withUpdate i u kind) s) (hkind : (updOf bs).kind = kind)
    (hw : s.jobWaits i cUpdate o slot j) (hu : u < 16) (hunit : s.unitRaw (UId.updateUnit u) = US.active)
    (hbs : j.upd[o.cue.op 36 3]? = some bs) (hrefs : j.updRefs o.cue = .ok r) (hwork : r.work = none)
    (hread : s.quiet.readAll ⟨2, u, some slot⟩ [r.master, r.m, r.v, r.grad] = (0, [ws, ms, vs, gs], 0, s.quiet))
    (houts : updElems (updOf bs) (updConst (updOf bs) (gsqrt (f32Val j.normS)) (s.jf slot Reg.jobStep + 1)) ws ms vs gs = outs)
    (hserves : r.Serves s outs.length) : exec c s = .next (s.quiet.updated i u slot (j.viewOf o) kind r gs outs) := by
  subst hkind
  rw [hexec]
  refine run_to ?_ ?_ ?_
  · rw [Bool.and_eq_true]
    exact ⟨decide_eq_true hw.1.1, decide_eq_true hu⟩
  · rw [State.withUpdate_waits hw hunit hbs hrefs, State.doUpdate_served hrefs hwork hread houts (hserves.writes _)]
  · exact (updated_touch ..).pending.trans (storeAll_touch ..).pending

/-- Settles O28: HBM serves every plane, so each program's results are stored, and what is counted besides leaves them. -/
theorem updatesStoreTheirPrograms : Obligations.UpdatesStoreTheirPrograms := by
  intro s i u slot o j bs r ws ms vs gs hw hu hunit hbs hrefs hwork hread d n lo outs hlen hmaster hm hv hmasterM hmasterV hmV
  have hserves : r.Serves s outs.length := hlen ▸ ⟨hmaster, hm, hv, hmasterM, hmasterV, hmV, rfl⟩
  have hdone (c : Instr) (kind : Nat) (hexec : exec c s = run (opOk i && unitOk16 u) (fun s => s.withUpdate i u kind) s)
      (hkind : d.kind = kind) : ∃ t, exec c s = .next t ∧ t.opRan i o 0 ∧ ∀ k x, outs[k]? = some x →
        t.num (r.master.base + 4 * k) 4 * 256 + t.num (lo + k) 1 = masterCode d.kind x.w % 2 ^ 40
        ∧ t.num (r.m.base + 4 * k) 4 = f32Code x.m % 2 ^ 32
        ∧ t.num (r.v.base + 4 * k) 4 = (if d.kind = 2 then s.num (r.v.base + 4 * k) 4 else f32Code x.v % 2 ^ 32) := by
    refine ⟨_, exec_update hexec hkind hw hu hunit hbs hrefs hwork hread rfl hserves, State.opRan_updated hw.1.2.1 hw.1.2.2.2.2,
      fun k x hx => ?_⟩
    have hk : k < outs.length := (List.getElem?_eq_some_iff.1 hx).1
    have hwEnd := (State.hbm_of_serves hserves.master).2
    have hmEnd := (State.hbm_of_serves hserves.m).2
    have hvEnd := (State.hbm_of_serves hserves.v).2
    have halign := le_align256 (4 * outs.length)
    have hlo : lo = r.master.base + align256 (4 * outs.length) := by rw [hlen]
    have hfar : hbmEnd ≤ farBase := by decide
    have hquiet : r.Serves s.quiet outs.length := { hserves with }
    rw [hlo, hkind, State.num_updated _ _ (by omega), State.num_updated _ _ (by omega), State.num_updated _ _ (by omega),
      State.num_updated _ _ (by omega)]
    exact ⟨hquiet.num_master hx kind, hquiet.num_m hx kind, hquiet.num_v hx kind⟩
  intro c hc
  simp only [List.mem_cons, List.not_mem_nil, or_false] at hc
  rcases hc with rfl | rfl | rfl
  · exact hdone _ 1 rfl
  · exact hdone _ 2 rfl
  · exact hdone _ 3 rfl

end Sys2Proof.Machine

namespace Sys2Proof.Machine

open Sys2Proof

/-! ### What the operations keep of the checks and of the attempts -/

/-- A job's attempt: whether it is open, and its epoch. -/
def Job.attempt (j : Job) : Bool × Nat := (j.isOpen, j.epoch)

/-- The attempt of slot k's job. -/
def State.openAt (s : State) (k : Nat) : Option (Bool × Nat) := (s.job k).map Job.attempt

/-- The registers that the checks on sampled tiles lead: their counters, and the entries of the engines. -/
def checkReg (off : Nat) : Prop := off ∈ [0x80118, 0x80128, 0x80130, 0x80160] ∨ (0x408000 ≤ off ∧ off < 0x410000)

/-- What any operation off the checks leaves of them: no more tiles held, and their registers as they were. -/
structure Calm (s t : State) : Prop where
  held : ∀ x ∈ t.heldTiles, x ∈ s.heldTiles
  regs : ∀ off, checkReg off → t.rd off = s.rd off

/-- The same, and no attempt opens or closes. -/
structure Steady (s t : State) : Prop extends Calm s t where
  attempts : ∀ k, t.openAt k = s.openAt k

theorem Steady.refl (s : State) : Steady s s := ⟨⟨fun _ h => h, fun _ _ => rfl⟩, fun _ => rfl⟩

theorem Steady.trans {s t u : State} (h : Steady s t) (k : Steady t u) : Steady s u :=
  ⟨⟨fun x hx => h.held x (k.held x hx), fun off ho => (k.regs off ho).trans (h.regs off ho)⟩, fun i => (k.attempts i).trans (h.attempts i)⟩

theorem regArea_checkReg {off : Nat} (h : checkReg off) : regArea off = 24 ∨ regArea off = 31 := by
  rcases h with h | h
  · left
    revert off
    decide
  · exact .inr (regArea_eq (lo := 0x408000) (hi := 0x410000) h rfl (by decide))

theorem Touch.calm {M : Nat} {s t : State} (h : Touch M s t) (hM : M &&& 0x81000100 = 0) : Calm s t := by
  have hbit (i : Nat) (hi : Nat.testBit 0x81000100 i = true) : M.testBit i = false := by
    have := congrArg (Nat.testBit · i) hM
    simpa [hi] using this
  refine ⟨fun x hx => (h.array (hbit 8 rfl)).2.2.1 ▸ hx, fun off ho => h.regs off ?_⟩
  rcases regArea_checkReg ho with h | h <;> rw [h]
  · exact hbit 24 rfl
  · exact hbit 31 rfl

theorem Touch.steady {M : Nat} {s t : State} (h : Touch M s t) (hM : M &&& 0x81000180 = 0) : Steady s t := by
  have hM' : M &&& 0x81000100 = 0 := by
    have := congrArg (· &&& 0x81000100) hM
    simpa [Nat.and_assoc] using this
  refine ⟨h.calm hM', fun k => ?_⟩
  have hbit : M.testBit 7 = false := by
    have := congrArg (Nat.testBit · 7) hM
    simpa [show Nat.testBit 0x81000180 7 = true from rfl] using this
  rw [State.openAt, State.job, h.jobs hbit]
  rfl

section
variable (s : State)

theorem set_mgt_steady (v : Mgt) : Steady s { s with mgt := v } := ⟨⟨fun _ h => h, fun _ _ => rfl⟩, fun _ => rfl⟩

theorem setBf_bank_touch {f : Fld} (b v : Nat) (hf : 0x300000 ≤ f.off ∧ f.off < 0x300040) : Touch 0x40000000 s (s.setBf b f v) :=
  setBf_touch s b f v hf

theorem checkReg_unitOff {u : Nat} (hu : u / 4096 ≠ 1) : ¬ checkReg (unitOff u) := by
  simp only [checkReg, unitOff, List.mem_cons, List.not_mem_nil, or_false]
  omega

theorem wr_steady {off : Nat} (v : Nat) (ho : ¬ checkReg off) : Steady s (s.wr off v) :=
  ⟨⟨fun x hx => by rwa [State.wr_heldTiles] at hx, fun off' ho' => State.rd_wr_other s v fun h => ho (h ▸ ho')⟩,
    fun k => by rw [State.openAt, State.job, State.wr_jobs]; rfl⟩

/-- The entry of a unit that is no engine changes. -/
theorem setEntry_steady {u : Nat} (cause source pend prior st : Nat) (hu : u / 4096 ≠ 1) :
    Steady s (s.setEntry u cause source pend prior st) := by
  have hgen : ¬ checkReg Reg.unitGen.off := by simp [checkReg, Reg.unitGen]
  unfold State.setEntry State.wrUnit
  grind [record_touch, → Touch.steady, wr_steady, State.setF, checkReg_unitOff, Steady.refl, → Steady.trans]

theorem putUnit_steady {u : Nat} (st cause source prior : Nat) (hu : u / 4096 ≠ 1) : Steady s (s.putUnit u st cause source prior) := by
  unfold State.putUnit
  grind [setEntry_steady, event_touch, → Touch.steady, set_mgt_steady, → Steady.trans]

theorem putUnit_bank_steady (t st cause source : Nat) : Steady s (s.putUnit (UId.bank t) st cause source) :=
  putUnit_steady s st cause source 0 (by simp only [UId.bank]; omega)

theorem bankUse_steady (b cause source : Nat) : Steady s (s.bankUse b cause source) := by
  unfold State.bankUse
  grind [putUnit_bank_steady, Steady.refl]

theorem handOver_steady (b port : Nat) : Steady s (s.handOver b port) := by
  unfold State.handOver
  grind [bankUse_steady, giveBank_touch, → Touch.steady, → Steady.trans]

theorem settle_steady (r : Requester) (b port : Nat) : Steady s (s.settle r b port) := by
  unfold State.settle
  grind [handOver_steady, Steady.refl]

theorem permit_steady (r : Requester) (b : Nat) (add : Bool) {t : State} (h : s.permit r b add = some t) : Steady s t := by
  unfold State.permit at h
  grind [settle_steady, bankUse_steady, giveBank_touch, → Touch.steady, → Steady.trans]

theorem wakeBank_steady (r : Requester) (t : Nat) : Steady s (s.wakeBank r t) := by
  unfold State.wakeBank
  grind [initBank_touch, setBf_bank_touch, Reg.bankState, Reg.bankReq, putUnit_bank_steady, → Touch.steady, Steady.refl, → Steady.trans]

theorem openBank_steady (r : Requester) (b byte : Nat) (add : Bool) : Steady s (s.openBank r b byte add).2.2 := by
  unfold State.openBank
  grind [wakeBank_steady, denyBank_touch, initBank_touch, setBf_bank_touch, Reg.bankState, → permit_steady, → Touch.steady, → Steady.trans]

theorem openBanks_steady (r : Requester) (add : Bool) (bs : List Nat) : Steady s (s.openBanks r add bs).2 := by
  induction bs generalizing s with
  | nil => exact Steady.refl s
  | cons b bs ih =>
    unfold State.openBanks
    grind [openBank_steady, → Steady.trans]

theorem openRange_steady (r : Requester) (a n : Nat) (write add : Bool) : Steady s (s.openRange r a n write add).2 := by
  unfold State.openRange
  grind [openBanks_steady, openOuter_touch, openFar_touch, → Touch.steady, Steady.refl]

theorem devRead_steady (r : Requester) (a n : Nat) : Steady s (s.devRead r a n).2.2 := by
  unfold State.devRead
  grind [openRange_steady, noteUnwritten_touch, → Touch.steady, → Steady.trans]

theorem devWrite_steady (r : Requester) (a : Nat) (bs : List Byte) : Steady s (s.devWrite r a bs).2 := by
  unfold State.devWrite
  grind [openRange_steady, storeBytes_touch, → Touch.steady, → Steady.trans]

theorem devWrites_steady (r : Requester) (ws : List (Nat × List Byte)) : Steady s (s.devWrites r ws).2 := by
  induction ws generalizing s with
  | nil => exact Steady.refl s
  | cons w ws ih =>
    unfold State.devWrites
    grind [devWrite_steady, → Steady.trans]

theorem devNum_steady (r : Requester) (a k : Nat) : Steady s (s.devNum r a k).2.2 := by
  unfold State.devNum
  grind [devRead_steady]

end
end Sys2Proof.Machine

namespace Sys2Proof.Machine

open Sys2Proof

/-! ### Reads -/

section
variable (s : State)

theorem readBlockAt_steady (rq : Requester) (planes : Nat × Nat × Nat) (st : Stored) (blk : Nat) :
    Steady s (s.readBlockAt rq planes st blk).2.2.2 := by
  unfold State.readBlockAt
  grind [devRead_steady, → Steady.trans]

theorem readQBlock_steady (rq : Requester) (t : Tensor) (st : Stored) (blk : Nat) : Steady s (s.readQBlock rq t st blk).2.2.2 :=
  readBlockAt_steady ..

theorem readQBlocks_steady (rq : Requester) (t : Tensor) (st : Stored) (p : Int) (bs : List Nat) :
    Steady s (s.readQBlocks rq t st p bs).2.2 := by
  induction bs generalizing s with
  | nil => exact Steady.refl s
  | cons b bs ih =>
    unfold State.readQBlocks
    grind [readQBlock_steady, → Steady.trans]

theorem readHdr_steady (rq : Requester) (a : Nat) : Steady s (s.readHdr rq a).2.2 := by
  unfold State.readHdr
  grind [devRead_steady]

theorem readA64_steady (rq : Requester) (t : Tensor) (p : Nat) : Steady s (s.readA64 rq t p).2.2.2 := by
  unfold State.readA64
  grind [readHdr_steady, devNum_steady, → Steady.trans]

theorem readA64s_steady (rq : Requester) (t : Tensor) (ps : List Nat) : Steady s (s.readA64s rq t ps).2.2 := by
  induction ps generalizing s with
  | nil => exact Steady.refl s
  | cons p ps ih =>
    unfold State.readA64s
    grind [readA64_steady, → Steady.trans]

theorem i32Exp_steady (rq : Requester) (t : Tensor) : Steady s (s.i32Exp rq t).2.2 := by
  unfold State.i32Exp
  grind [devRead_steady, Steady.refl]

theorem readForm_steady (rq : Requester) (a : Nat) : Steady s (s.readForm rq a).2.2 := by
  unfold State.readForm
  grind [devRead_steady]

theorem readVals_steady (rq : Requester) (t : Tensor) (p n : Nat) : Steady s (s.readVals rq t p n).2.2.2 := by
  unfold State.readVals
  grind [readForm_steady, readQBlocks_steady, readA64s_steady, devRead_steady, i32Exp_steady, → Steady.trans]

theorem readRows_steady (rq : Requester) (p : Prod) (t : Tensor) (rs : List Nat) : Steady s (s.readRows rq p t rs).2.2 := by
  induction rs generalizing s with
  | nil => exact Steady.refl s
  | cons r rs ih =>
    unfold State.readRows
    grind [readVals_steady, → Steady.trans]

theorem replayVals_steady (rq : Requester) (p : Prod) (w : TileWork) : Steady s (s.replayVals rq p w).2.2.2 := by
  unfold State.replayVals
  grind [readRows_steady, → Steady.trans]

theorem loadRot_steady (epoch : Option Nat) : Steady s (s.loadRot epoch) := (loadRot_touch s epoch).steady rfl

theorem prodRead_steady (rq : Requester) (j : Job) (c : CueRec) : Steady s (s.prodRead rq j c).2.2.2 := by
  unfold State.prodRead State.readRec
  repeat' split
  all_goals grind [readForm_steady, loadRot_steady, Steady.refl, → Steady.trans]

theorem prodOf_steady (rq : Requester) (j : Job) (c : CueRec) : Steady s (s.prodOf rq j c).2 := by
  unfold State.prodOf
  grind [prodRead_steady]

theorem workOf_steady (e : Nat) (w : TileWork) : Steady s (s.workOf e w).2 := by
  unfold State.workOf
  grind [prodOf_steady, Steady.refl]

theorem fbOf_steady (rq : Requester) (j : Job) (q : QRec) : Steady s (s.fbOf rq j q).2.2 := by
  unfold State.fbOf State.readRec
  grind [readForm_steady, Steady.refl]

theorem finishVals_go_steady (rq : Requester) (j : Job) (p : Prod) (c : CueRec) (w : TileWork) (vals : List Val) (nv : Bool) (step : Nat)
    (f : Fin) (key : List Nat) (bs : List Val) (ms : List Nat) :
    Steady s (State.finishVals.go rq j p c w vals nv step f key bs s ms).2.2.2 := by
  induction ms generalizing s with
  | nil => exact Steady.refl s
  | cons m ms ih =>
    unfold State.finishVals.go
    extract_lets r aux pre at'
    have haux : Steady s aux.2.2.2 := by grind [readVals_steady, Steady.refl]
    clear_value aux pre at'
    split
    · rename_i s1
      extract_lets old outs outs'
      have hold : Steady s1 old.2.2 := by grind [devRead_steady, Steady.refl]
      clear_value old outs'
      split
      · rename_i s2
        have hrest := haux.trans (hold.trans (ih s2))
        extract_lets r0 rr
        clear_value rr
        split
        · rename_i hgo
          rwa [hgo] at hrest
        · exact hrest
      · exact haux.trans hold
    · exact haux

theorem finishVals_steady (rq : Requester) (j : Job) (p : Prod) (c : CueRec) (w : TileWork) (vals : List Val) (nv : Bool) (step : Nat) :
    Steady s (s.finishVals rq j p c w vals nv step).2.2.2 := by
  unfold State.finishVals
  grind [readVals_steady, finishVals_go_steady, Steady.refl, → Steady.trans]

theorem drainOut_steady (rq : Requester) (j : Job) (p : Prod) (c : CueRec) (x : AccSet) (step : Nat) :
    Steady s (s.drainOut rq j p c x step).2 := by
  unfold State.drainOut
  grind [replayVals_steady, finishVals_steady, → Steady.trans]

end
end Sys2Proof.Machine

namespace Sys2Proof.Machine

open Sys2Proof

/-! ### Writes of tensors -/

section
variable (s : State)

theorem job_setJob (slot k : Nat) (j : Job) : (s.setJob slot j).job k = if slot = k then some j else s.job k :=
  SMap.find_put ..

theorem setJob_steady {slot : Nat} {j j' : Job} (h : s.job slot = some j) (hj : j'.attempt = j.attempt) :
    Steady s (s.setJob slot j') := by
  refine ⟨⟨fun _ h => h, fun _ _ => rfl⟩, fun k => ?_⟩
  rw [State.openAt, State.openAt, job_setJob]
  split
  · rename_i hk
    rw [← hk, h, Option.map_some, Option.map_some, hj]
  · rfl

theorem modJob_steady (slot : Nat) {f : Job → Job} (hf : ∀ j, (f j).attempt = j.attempt) :
    Steady s (s.modJob slot f) := by
  unfold State.modJob
  split
  · exact setJob_steady s ‹_› (hf _)
  · exact Steady.refl s

theorem attempt_ite {c : Prop} [Decidable c] {x y j : Job} (hx : x.attempt = j.attempt) (hy : y.attempt = j.attempt) :
    (if c then x else y).attempt = j.attempt := by
  split
  · exact hx
  · exact hy

theorem foldl_steady {α : Type} {f : State → α → State} (hf : ∀ s a, Steady s (f s a)) (l : List α) (s : State) :
    Steady s (l.foldl f s) := by
  induction l generalizing s with
  | nil => exact Steady.refl s
  | cons a l ih => exact (hf s a).trans (ih _)

theorem addF_steady {f : Fld} (n : Nat) (hf : ¬ checkReg f.off) : Steady s (s.addF f n) := wr_steady s _ hf

theorem inc_fallback_steady : Steady s (s.inc Reg.fallbackTiles) :=
  addF_steady s 1 (by simp [checkReg, Reg.fallbackTiles])

theorem inc_samplesDropped_steady : Steady s (s.inc Reg.samplesDropped) :=
  addF_steady s 1 (by simp [checkReg, Reg.samplesDropped])

theorem inc_damageDropped_steady : Steady s (s.inc Reg.damageDropped) :=
  addF_steady s 1 (by simp [checkReg, Reg.damageDropped])

theorem writeQuant_steady (rq : Requester) (j : Job) (scope : Nat) (writes : List (Nat × List Byte)) (recs : List (Nat × Nat × List Byte)) :
    Steady s (s.writeQuant rq j scope writes recs).2 := by
  unfold State.writeQuant
  grind [devWrites_steady, Steady.refl]

theorem noteWrite_steady (slot scope : Nat) (t : Tensor) (q : QuantOut) (watch : Bool) :
    Steady s (s.noteWrite slot scope t q watch) := by
  unfold State.noteWrite
  split
  · exact Steady.refl s
  · rename_i j0 hj
    extract_lets j inStep w seen now put s1 s2
    have h1 : Steady s s1 := setJob_steady s hj (attempt_ite rfl rfl)
    clear_value s1
    grind [countBlocks_touch, countCopy_touch, addWatch_touch, inc_fallback_steady, → Touch.steady, Steady.refl, → Steady.trans]

theorem exhaust_steady (slot i : Nat) : Steady s (s.exhaust slot i) := by
  unfold State.exhaust
  split
  · rename_i j hj
    split
    · exact Steady.refl s
    · exact (setJob_steady s hj (by rfl)).trans ((event_touch ..).steady rfl)
  · exact Steady.refl s

theorem trigger_steady (slot i : Nat) : Steady s (s.trigger slot i) := by
  unfold State.trigger
  split
  · rename_i j hj
    split
    · exact Steady.refl s
    · split
      · exact (setJob_steady s hj (by rfl)).trans ((setWatchFlag_touch ..).steady rfl)
      · extract_lets f
        split
        · exact exhaust_steady s slot i
        · exact setJob_steady s hj (by rfl)
  · exact Steady.refl s

theorem keepPart_steady (slot : Nat) (view : Job) (t : Tensor) (st : Option Stored) (x : Part) (own : WStats → QRec) (bs : List Placed) :
    Steady s (s.keepPart slot view t st x own bs) := by
  unfold State.keepPart
  extract_lets bs' names new
  split
  · exact Steady.refl s
  · rename_i j hj
    extract_lets j1 rec' writes
    split
    · exact setJob_steady s hj (by rfl)
    · split
      · exact Steady.refl s
      · split
        · exact setJob_steady s hj (by rfl)
        · have hstored := (setJob_steady s (j' := j1) hj (by rfl)).trans (devWrites_steady _ (.manager (some slot)) writes)
          split
          all_goals rename_i heq; rw [heq] at hstored
          · exact hstored.trans (modJob_steady _ slot fun _ => rfl)
          · exact hstored

theorem keepRungUp_steady (slot : Nat) (j : Job) (t : Tensor) (mode : RMode) (step : Nat) (pre : Int) (r10 : Nat → Nat → Nat)
    (spans : List Span) : Steady s (s.keepRungUp slot j t mode step pre r10 spans) := by
  unfold State.keepRungUp
  extract_lets
  split
  · exact Steady.refl s
  · exact (foldl_steady (fun s x => keepPart_steady s ..) _ s).trans (addF_steady _ _ (by simp [checkReg, Reg.addrBlocks]))

/-- An access that meets no error changes nothing beyond its opening. -/
theorem meet_nil (a n : Nat) (write : Bool) : s.meet a n write [] = (0, s) := by
  unfold State.meet
  split
  · split
    · rfl
    · simp [Bank.groupGone, State.correctBytes, List.find?_eq_none.mpr]
  · simp [State.dieReports]
  · simp
  · rfl

theorem accessRead_steady (r : Requester) (a n : Nat) (add : Bool) : Steady s (s.accessRead r a n add []).2.2 := by
  unfold State.accessRead
  have h := openRange_steady s r a n false add
  grind [meet_nil, noteUnwritten_touch, → Touch.steady, → Steady.trans]

theorem noteAddSat_steady (slot : Option Nat) (a tile : Nat) (torus : Bool) (coord : Nat) :
    Steady s (s.noteAddSat slot a tile torus coord) := by
  unfold State.noteAddSat
  extract_lets u args
  split
  · rename_i j x hx
    split
    · exact (suppress_touch ..).steady rfl
    · simp only [Option.bind_eq_some_iff, Option.map_eq_some_iff] at hx
      obtain ⟨k, -, y, hy, rfl, rfl⟩ := hx
      exact (setJob_steady s hy (by rfl)).trans ((event_touch ..).steady rfl)
  · exact (event_touch ..).steady rfl

theorem addRow_steady (r : Requester) (hdr : Option Nat) (a : Nat) (i : RowInfo) (xs : List Int) (torus : Bool) (coord : Nat) :
    Steady s (s.addRow r hdr a i xs torus coord []).2.2 := by
  unfold State.addRow
  extract_lets n st
  split
  · exact Steady.refl s
  · split
    · rename_i hb s1 heq
      have h1 : Steady s s1 := by grind [accessRead_steady, Steady.refl]
      split
      · exact h1
      · have h2 := h1.trans (accessRead_steady s1 r a n true)
        split
        · rename_i heq2
          rw [heq2] at h2
          rename_i s2
          extract_lets h et moved sums sat lost s3 h' s4 s5
          have h3 : Steady s s3 := h2.trans ((storeBytes_touch ..).steady rfl)
          clear_value s3
          have h4 : Steady s s4 := by grind [storeBytes_touch, → Touch.steady, → Steady.trans]
          clear_value s4
          have h5 : Steady s s5 := by grind [noteAddSat_steady, → Steady.trans]
          exact h5.trans ((countAtomic_touch ..).steady rfl)
        · rename_i heq2
          rwa [heq2] at h2
    · grind [accessRead_steady, Steady.refl]

theorem addTileRow_steady (rq : Requester) (p : Prod) (x : AccSet) (step m : Nat) : Steady s (s.addTileRow rq p x step m).2 := by
  unfold State.addTileRow
  exact addRow_steady ..

theorem addF32s_steady (rq : Requester) (w : Nat × List Byte) : Steady s (s.addF32s rq w).2 := by
  unfold State.addF32s
  refine List.foldlRecOn (motive := fun (acc : Nat × State) => Steady s acc.2) _ _ (Steady.refl s) fun acc h q _ => ?_
  grind [accessRead_steady, storeBytes_touch, → Touch.steady, → Steady.trans]

theorem addRows_steady (rq : Requester) (p : Prod) (x : AccSet) (d : Drained) (step : Nat) : Steady s (s.addRows rq p x d step).2 := by
  unfold State.addRows
  extract_lets wide
  split
  rename_i e n s1 heq
  have hrows : Steady s (e, n, s1).2.2 := by
    rw [← heq]
    refine List.foldlRecOn (motive := fun (acc : Nat × Nat × State) => Steady s acc.2.2) _ _ (Steady.refl s) fun acc h m _ => ?_
    grind [addTileRow_steady, addF32s_steady, → Steady.trans]
  exact hrows.trans ((addEf_touch _ _ _ _ (by decide)).steady rfl)

theorem storeTile_steady (rq : Requester) (j : Job) (p : Prod) (scope : Nat) (x : AccSet) (d : Drained) (step : Nat) :
    Steady s (s.storeTile rq j p scope x d step).2 := by
  unfold State.storeTile
  grind [devWrites_steady, addRows_steady, markNonrepro_touch, writeQuant_steady, → Touch.steady, → Steady.trans]

theorem noteWiden_steady (slot : Nat) (view : Job) (t : Tensor) (q : QuantOut) : Steady s (s.noteWiden slot view t q) := by
  unfold State.noteWiden
  extract_lets s1
  have h1 : Steady s s1 := (countCopy_touch ..).steady rfl
  split
  · exact ((h1.trans ((addWatch_touch ..).steady rfl)).trans (inc_fallback_steady _)).trans (modJob_steady _ slot fun _ => rfl)
  · exact h1

theorem secondWrite_steady (rq : Requester) (slot : Nat) (j : Job) (p : Prod) (c : CueRec) (x : AccSet) :
    Steady s (s.secondWrite rq slot j p c x).2 := by
  unfold State.secondWrite
  have h := drainOut_steady s rq (j.raisedRung p.out.idx) p c x c.step
  split
  · rename_i q _ _ _ _ _ heq
    rw [heq] at h
    extract_lets s2
    have h2 : Steady s s2 := h.trans ((noteDraws_touch ..).steady rfl)
    have h3 := h2.trans (writeQuant_steady s2 rq ((s2.job slot).getD j) c.scope q.planes q.recs)
    split
    · rename_i heq2
      rw [heq2] at h3
      have h4 := h3.trans (modJob_steady _ slot (f := fun j => j.noteRecs c.scope p.out q) fun _ => rfl)
      exact h4.trans (noteWiden_steady ..)
    · exact h3
  · rename_i heq
    rwa [heq] at h

theorem afterWrite_steady (slot scope : Nat) (view : Job) (t : Tensor) (q : QuantOut) (watch : Bool) :
    Steady s (s.afterWrite slot scope view t q watch).2 := by
  unfold State.afterWrite
  have h := noteWrite_steady s slot scope t q watch
  grind [trigger_steady, → Steady.trans]

theorem countDamage_steady (slot : Nat) (view : Job) (p : Prod) : Steady s (s.countDamage slot view p).2 := by
  unfold State.countDamage
  refine List.foldlRecOn (motive := fun (acc : Bool × State) => Steady s acc.2) _ _ (Steady.refl s) fun acc h t _ => ?_
  grind [addWatch_touch, trigger_steady, → Touch.steady, → Steady.trans]

theorem stored_steady (slot : Nat) (o : OpSlot) (view : Job) (p : Prod) (run : Nat) (q : Option QuantOut) :
    Steady s (s.stored slot o view p run q).2 := by
  unfold State.stored
  grind [countDamage_steady, afterWrite_steady, Steady.refl, → Steady.trans]

theorem keepOutput_steady (slot : Nat) (j : Job) (p : Prod) (c : CueRec) (w : TileWork) (d : Drained) :
    Steady s (s.keepOutput slot j p c w d) := by
  unfold State.keepOutput
  grind [keepRungUp_steady, Steady.refl]

theorem masterRungUp_steady (slot : Nat) (j : Job) (p : Prod) : Steady s (s.masterRungUp slot j p) := by
  unfold State.masterRungUp
  grind [readVals_steady, keepRungUp_steady, Steady.refl, → Steady.trans]

theorem checkWork_steady (rq : Requester) (j : Job) (c : CueRec) (p : Prod) (h : HeldTile) (role engine : Nat) :
    Steady s (s.checkWork rq j c p h role engine).2 := by
  unfold State.checkWork
  grind [fbOf_steady, Steady.refl, → Steady.trans]

end
end Sys2Proof.Machine

namespace Sys2Proof.Machine

open Sys2Proof

/-! ### Queues, dropped work and rollbacks -/

theorem Calm.refl (s : State) : Calm s s := ⟨fun _ h => h, fun _ _ => rfl⟩

theorem Calm.trans {s t u : State} (h : Calm s t) (k : Calm t u) : Calm s u :=
  ⟨fun x hx => h.held x (k.held x hx), fun off ho => (k.regs off ho).trans (h.regs off ho)⟩

/-- One more operation, whose touched areas hold none of this. -/
theorem Calm.to {M : Nat} {s t u : State} (h : Calm s t) (k : Touch M t u) (hM : M &&& 0x81000100 = 0) : Calm s u :=
  h.trans (k.calm hM)

theorem Calm.ite {s t u : State} {c : Prop} [Decidable c] (h : Calm s t) (k : Calm s u) : Calm s (if c then t else u) := by
  split
  · exact h
  · exact k

theorem Calm.foldl {α : Type} {f : State → α → State} {s t : State} (h : Calm s t) (hf : ∀ s a, Calm s (f s a)) (l : List α) :
    Calm s (l.foldl f t) := by
  induction l generalizing t with
  | nil => exact h
  | cons a l ih => exact ih (h.trans (hf t a))

section
variable (s : State)

theorem addF_calm {f : Fld} (n : Nat) (hf : ¬ checkReg f.off) : Calm s (s.addF f n) := (addF_steady s n hf).toCalm

theorem setF_steady {f : Fld} (v : Nat) (hf : ¬ checkReg f.off) : Steady s (s.setF f v) := wr_steady s _ hf

theorem updateQueue_steady (q : Nat) (x : Queue) : Steady s (s.updateQueue q x) := by
  unfold State.updateQueue
  extract_lets a log2 b2 s1
  have h1 := ((setQueue_touch s q x).steady rfl).trans (devWrites_steady s1 (.manager none)
    [(a + 2, leBytes 1 b2), (a + 24, leBytes 4 x.head ++ leBytes 4 x.tail ++ leBytes 4 x.cplTail)])
  clear_value s1
  grind [stopQueue_touch, → Touch.steady, → Steady.trans]

theorem haltQueue_steady (q reason : Nat) : Steady s (s.haltQueue q reason) :=
  (updateQueue_steady s q _).trans ((event_touch ..).steady rfl)

theorem writeRecord_steady (q : Nat) : Steady s (s.writeRecord q) := by
  unfold State.writeRecord
  extract_lets x size phase
  split
  · rename_i r rest _
    split
    · have h1 := devWrite_steady s (.manager none) (x.cplBase + 32 * (x.cplTail % size)) (cplPatch r x.head phase)
      split
      rename_i st s1 heq
      rw [heq] at h1
      extract_lets s2
      have h2 : Steady s s2 := h1.trans (updateQueue_steady ..)
      refine Steady.trans ?_ ((signal_touch ..).steady rfl)
      split
      · exact h2
      · exact h2.trans (haltQueue_steady ..)
    · exact Steady.refl s
  · exact Steady.refl s

theorem settleQueue_steady (q : Nat) : Steady s (s.settleQueue q) := by
  unfold State.settleQueue
  split
  · extract_lets s1 left s2
    have h1 : Steady s s1 := foldl_steady (fun s _ => writeRecord_steady s q) _ s
    have h2 : Steady s1 s2 := foldl_steady (fun s _ => (event_touch ..).steady rfl) _ s1
    exact (h1.trans h2).trans (updateQueue_steady ..)
  · exact Steady.refl s

theorem cueRecord_calm (c : CueRec) (status detail tag : Nat) (now : Bool) : Calm s (s.cueRecord c status detail tag now) := by
  unfold State.cueRecord
  split
  · exact Calm.refl s
  · extract_lets r s1
    have h1 : Calm s s1 := by grind [modJob_touch, putRecord_touch, → Touch.calm, Calm.refl]
    exact h1.trans (settleQueue_steady ..).toCalm

theorem itemFromSlot_steady (k i : Nat) (it : Item) : Steady s (s.itemFromSlot k i it).2 := by
  unfold State.itemFromSlot
  extract_lets base
  have h1 := devRead_steady s (.manager none) (base + it.slotOff) it.bytes
  split
  · rename_i s1 heq
    rw [heq] at h1
    have h2 := h1.trans (devRead_steady s1 (.manager none) (base + 128 + 80 * i + 48) 32)
    split
    all_goals rename_i heq2; rwa [heq2] at h2
  · rename_i heq
    rwa [heq] at h1

theorem itemRestore_calm (slot : Nat) (it : Item) (bs : List Byte) : Calm s (s.itemRestore slot it bs) := by
  unfold State.itemRestore
  split
  · exact (modJob_touch ..).calm rfl
  · exact (modJob_touch ..).calm rfl
  · exact (Touch.set_rng (Touch.refl 512 s) rfl : Touch 512 s _).calm rfl
  · exact (setV_touch ..).calm rfl
  · refine Calm.ite ((modJob_touch ..).calm rfl) ?_
    refine List.foldlRecOn (motive := fun (acc : Nat × State) => Calm s acc.2) _ _ (Calm.refl s) fun acc h pc _ => ?_
    exact h.trans (devWrite_steady ..).toCalm

theorem copySlot_calm (slot k : Nat) : Calm s (s.copySlot slot k).2 := by
  unfold State.copySlot
  refine List.foldlRecOn (motive := fun (acc : List Nat × State) => Calm s acc.2) _ _ (Calm.refl s) fun acc h p _ => ?_
  have hread := h.trans (itemFromSlot_steady acc.2 k p.2 p.1).toCalm
  grind [itemRestore_calm, → Calm.trans]

theorem captured_calm (e : Nat) (v : Int) : Calm s (s.captured e v) := by
  unfold State.captured
  extract_lets s1
  have h1 : Calm s s1 := ⟨fun _ h => h, fun _ _ => rfl⟩
  exact (h1.to (setEf_touch _ _ _ _ (by decide)) rfl).to (setEf_touch _ _ _ _ (by decide)) rfl

theorem arrayState_calm (e : Nat) : Calm s (s.arrayState e) := by
  unfold State.arrayState State.captureHeld
  extract_lets busy s1
  have h1 : Calm s s1 := (setEf_touch _ _ _ _ (by decide)).calm rfl
  exact Calm.ite (h1.trans (captured_calm ..)) h1

/-- The work dropped with operations takes the tiles held for them along. -/
theorem dropWork_calm (ids : List Nat) : Calm s (s.dropWork ids) := by
  unfold State.dropWork
  extract_lets keys s1
  have h1 : Calm s s1 := ⟨fun _ h => List.mem_of_mem_filter h, fun _ _ => rfl⟩
  exact h1.foldl (fun s k => ((setEf_touch _ _ _ _ (by split <;> decide)).calm rfl).trans (arrayState_calm ..)) keys

theorem dropOps_calm (gone : CueRec → Bool) : Calm s (s.dropOps gone) :=
  (dropWork_calm s _).trans ⟨fun _ h => h, fun _ _ => rfl⟩

theorem abandonCues_calm (gone : CueRec → Bool) : Calm s (s.abandonCues gone) := by
  unfold State.abandonCues
  extract_lets cues s1 s2
  have h2 : Calm s s2 := (dropOps_calm s gone).trans ⟨fun _ h => h, fun _ _ => rfl⟩
  exact h2.foldl (fun s c => cueRecord_calm s ..) cues

theorem skipLog_steady (slot cause : Nat) : Steady s (s.skipLog slot cause) := by
  unfold State.skipLog
  grind [devWrite_steady, Steady.refl]

theorem watchClose_steady (j : Job) : Steady s (s.watchClose j) := by
  have hreg (s : State) : Steady s (s.inc Reg.recipeEvents) := addF_steady s 1 (by simp [checkReg, Reg.recipeEvents])
  unfold State.watchClose
  grind [event_touch, → Touch.steady, Steady.refl, → Steady.trans]

theorem readBook_steady (k : Nat) : Steady s (s.readBook k).2 := by
  unfold State.readBook
  have h := devRead_steady s (.manager none) (s.ckp.slotAt k) (128 + 80 * s.ckp.items.length)
  split
  all_goals rename_i heq; rwa [heq] at h

theorem rollback_calm (slot : Nat) : Calm s (s.rollback slot) := by
  have hbook : Calm s (if s.ckp.hasP then s.readBook s.pSlot else (none, s)).2 := by
    split
    · exact (readBook_steady ..).toCalm
    · exact Calm.refl s
  unfold State.rollback
  split
  · rename_i heq
    rw [heq] at hbook
    exact hbook.to (setJf_touch _ _ _ _ (by decide)) rfl
  · rename_i s1 heq
    rw [heq] at hbook
    extract_lets k p step0
    have hcopy := hbook.trans (copySlot_calm s1 slot k)
    split
    rename_i bad s2 heq2
    rw [heq2] at hcopy
    extract_lets s3 s4 s5 c src s6 s7
    have h3 : Calm s s3 := (hcopy.to (discardS_touch ..) rfl).to (endJournal_touch ..) rfl
    clear_value s3
    have h4 : Calm s s4 := ((((h3.to (setJf_touch _ _ _ _ (by decide)) rfl).to (setJf_touch _ _ _ _ (by decide)) rfl).to
      (setJf_touch _ _ _ _ (by decide)) rfl).to (setJf_touch _ _ _ _ (by decide)) rfl).to (setJf_touch _ _ _ _ (by decide)) rfl
    clear_value s4
    have h5 : Calm s s5 := h4.to (modJob_touch ..) rfl
    clear_value s5
    have h6 : Calm s s6 := h5.trans ⟨fun _ h => h, fun _ _ => rfl⟩
    have h7 : Calm s s7 := ((h6.to (setF_touch_in (k := 26) _ _ _ rfl) rfl).to (setF_touch_in (k := 26) _ _ _ rfl) rfl).to
      (showCursor_touch ..) rfl
    exact Calm.ite h7 (h7.to (fetchItems_touch ..) rfl)

end
end Sys2Proof.Machine

namespace Sys2Proof.Machine

open Sys2Proof

/-! ### Attempts that are abandoned, operations that abort, tiles that are released -/

section
variable (s : State)

theorem abandon_calm (slot cause : Nat) (roll : Bool) : Calm s (s.abandon slot cause roll) := by
  unfold State.abandon
  split
  · exact Calm.refl s
  · rename_i j hj
    refine Calm.ite (Calm.refl s) ?_
    extract_lets s1 mine s2 held s3 step attempt s4 s5 s6 s7 s8 s9 s10 s11 s12 s13 s14 s15 s16 s17
    have h1 : Calm s s1 := (setJf_touch _ _ _ _ (by decide)).calm rfl
    clear_value s1
    have h2 : Calm s s2 := h1.trans (abandonCues_calm ..)
    clear_value s2
    have h3 : Calm s s3 := h2.foldl (fun s h => (putRecord_touch ..).calm rfl) held
    clear_value s3
    have h4 : Calm s s4 := (h3.to (setJf_touch _ _ _ _ (by decide)) rfl).to (setJf_touch _ _ _ _ (by decide)) rfl
    clear_value s4
    have h5 : Calm s s5 := h4.to (record_touch ..) rfl
    clear_value s5
    have h6 : Calm s s6 := h5.to (flood_touch ..) rfl
    clear_value s6
    have h7 : Calm s s7 := h6.to (dropApart_touch ..) rfl
    clear_value s7
    have h8 : Calm s s8 := h7.trans (watchClose_steady ..).toCalm
    clear_value s8
    have h9 : Calm s s9 := h8.to (modJob_touch ..) rfl
    clear_value s9
    have h10 : Calm s s10 := (h9.to (setJf_touch _ _ _ _ (by decide)) rfl).trans
      (setF_steady _ _ (by simp [checkReg, Reg.numStorm])).toCalm
    clear_value s10
    have h11 : Calm s s11 := h10.to (stepBoundary_touch ..) rfl
    clear_value s11
    have h12 : Calm s s12 := h11.trans (skipLog_steady ..).toCalm
    clear_value s12
    have h13 : Calm s s13 := h12.to (modJob_touch ..) rfl
    clear_value s13
    have h14 : Calm s s14 := h11.to (modJob_touch ..) rfl
    clear_value s14
    have h15 : Calm s s15 := by
      refine Calm.ite ?_ (Calm.ite ?_ (Calm.ite (h11.trans (rollback_calm ..)) (h11.to (setJf_touch _ _ _ _ (by decide)) rfl)))
      · exact ((h13.to (setJf_touch _ _ _ _ (by decide)) rfl).to (setJf_touch _ _ _ _ (by decide)) rfl).to (showCursor_touch ..) rfl
      · exact (h14.to (setJf_touch _ _ _ _ (by decide)) rfl).to (setJf_touch _ _ _ _ (by decide)) rfl
    clear_value s15
    have h16 : Calm s s16 := h15.to (putRecord_touch ..) rfl
    clear_value s16
    have h17 : Calm s s17 := Calm.ite ((h16.to (setJf_touch _ _ _ _ (by decide)) rfl).to (modJob_touch ..) rfl) h16
    clear_value s17
    split
    · exact ((h17.to (inc_touch_in (k := 27) _ _ rfl) rfl).to (event_touch ..) rfl).to (exportFallback_touch ..) rfl
    · exact h17

theorem badData_calm (slot place unit : Nat) : Calm s (s.badData slot place unit) := by
  unfold State.badData
  grind [abandon_calm, stopJob_touch, setJob_touch, → Touch.calm, Calm.refl, → Calm.trans]

theorem opFailed_calm (slot status place unit : Nat) : Calm s (s.opFailed slot status place unit) := by
  unfold State.opFailed
  grind [abandon_calm, stopJob_touch, badData_calm, → Touch.calm, Calm.refl, → Calm.trans]

theorem completeOp_calm (i : Nat) (now : Bool) : Calm s (s.completeOp i now) := by
  unfold State.completeOp
  split
  · extract_lets c s1 s2 s3
    have h1 : Calm s s1 := ⟨fun _ h => h, fun _ _ => rfl⟩
    have h2 : Calm s s2 := by grind [modJob_touch, → Touch.calm, → Calm.trans]
    clear_value s2
    have h3 : Calm s s3 := by
      unfold s3
      split
      · exact h2.to (setJf_touch _ _ _ _ (by decide)) rfl
      · exact h2
    exact h3.trans (cueRecord_calm ..)
  · exact Calm.refl s

theorem opAbort_calm (i status place unit : Nat) : Calm s (s.opAbort i status place unit) := by
  unfold State.opAbort
  grind [opDone_touch, dropWork_calm, completeOp_calm, opFailed_calm, phaseStep_touch, → Touch.calm, Calm.refl, → Calm.trans]

theorem opAbortAt_calm (i status a : Nat) : Calm s (s.opAbortAt i status a) := opAbort_calm ..

/-- The tiles held once a tile has left the sample buffer. -/
def State.withoutHeld (s : State) (h : HeldTile) : State :=
  { s with heldTiles := s.heldTiles.filter fun x => !(x.work.op == h.work.op && x.work.tile == h.work.tile) }

theorem withoutHeld_calm (h : HeldTile) : Calm s (s.withoutHeld h) := ⟨fun _ h => List.mem_of_mem_filter h, fun _ _ => rfl⟩

theorem release_calm_withoutHeld (h : HeldTile) (sub : Bool) : Calm (s.withoutHeld h) (s.release h sub) := by
  unfold State.release
  extract_lets r gone x
  change Calm gone _
  have hwork := (workOf_steady gone r.engine h.work).toCalm
  clear_value gone
  split
  · rename_i heq
    rwa [heq] at hwork
  · rename_i o slot j p s1 heq
    rw [heq] at hwork
    extract_lets j' rq
    have hstore := (hwork.trans (keepOutput_steady s1 slot j' p o.cue h.work r.out).toCalm).trans
      (storeTile_steady _ rq j' p o.cue.scope x r.out o.cue.step).toCalm
    split
    · rename_i s2 heq2
      rw [heq2] at hstore
      have hstored := (hstore.to (ackRows_touch s2 h.work.op h.work.rows) rfl).trans
        (stored_steady _ slot o j' p h.a.retries r.out.quant).toCalm
      split
      rename_i widen s3 heq3
      rw [heq3] at hstored
      have hsecond : Calm gone (if widen then s3.secondWrite rq slot j' p o.cue x else (0, s3)).2 := by
        split
        · exact hstored.trans (secondWrite_steady ..).toCalm
        · exact hstored
      split
      rename_i e s4 heq4
      rw [heq4] at hsecond
      exact Calm.ite (hsecond.to (opAck_touch ..) rfl) (hsecond.trans (opAbortAt_calm ..))
    · rename_i heq2
      rw [heq2] at hstore
      exact hstore.trans (opAbortAt_calm ..)

theorem release_calm (h : HeldTile) (sub : Bool) : Calm s (s.release h sub) :=
  (withoutHeld_calm s h).trans (release_calm_withoutHeld s h sub)

end
end Sys2Proof.Machine

namespace Sys2Proof.Machine

open Sys2Proof

/-! ### An engine that a verdict names stays FAILED -/

/-- All 64 bits of an engine's entry are stored. -/
theorem regMask_engine {e : Nat} (he : e < 144) : regMask (unitOff (UId.engine e)) = 2 ^ 64 - 1 := by
  obtain ⟨n, r, hb, hpre, hr, hr0, hmask⟩ : ∃ n r, bar0[n]? = some ⟨0x408000, 8, 144, unitEntry⟩
      ∧ ((bar0.take n).all fun c => decide (c.base + c.stride * c.count ≤ 0x408000)) = true
      ∧ findIn 0 unitEntry = some r ∧ r.off = 0 ∧ r.mask = 2 ^ 64 - 1 := by
    refine ⟨(bar0.findIdx fun b => b.base == 0x408000), unitEntry.headD (v64 0), ?_⟩
    decide +kernel
  have hoff : unitOff (UId.engine e) = 0x408000 + 8 * e + 0 := by
    simp only [unitOff, UId.engine]
    omega
  have hfind := findReg_window hb hpre (i := e) he (d := 0) (by decide) hr
  rw [hoff, regMask_of_findReg (by rw [hfind, hr0]), hmask]

theorem checkReg_engine {e : Nat} (he : e < 144) : checkReg (unitOff (UId.engine e)) := by
  simp only [checkReg, unitOff, UId.engine]
  omega

theorem Calm.engSt {s t : State} (h : Calm s t) {e : Nat} (he : e < 144) : t.engSt e = s.engSt e := by
  unfold State.engSt State.unitRaw State.unitEntry
  rw [h.regs _ (checkReg_engine he)]

section
variable {s : State} {e : Nat}

theorem engSt_setEntry_same (cause source pend prior : Nat) {st : Nat} (hst : st < 16) (he : e < 144) :
    (s.setEntry (UId.engine e) cause source pend prior st).engSt e = st := by
  have hvalid : unitValid (UId.engine e) = true := by
    have hclass : UId.engine e / 4096 = 1 := by
      simp only [UId.engine]
      omega
    rw [unitValid, hclass, show unitCount 1 = 144 from rfl, Bool.and_eq_true, decide_eq_true_eq, decide_eq_true_eq]
    simp only [UId.engine]
    omega
  unfold State.setEntry State.wrUnit
  rw [((record_touch ..).calm rfl : Calm _ _).engSt he, if_pos hvalid]
  unfold State.engSt State.unitRaw State.unitEntry
  rw [State.rd_wr_same, regMask_engine he, bits_and_of_full _ (by decide)]
  simp only [bits, unitWord]
  omega

theorem engSt_setEntry_other {d : Nat} (cause source pend prior st : Nat) (hd : d ≠ e) (he : e < 144) :
    (s.setEntry (UId.engine d) cause source pend prior st).engSt e = s.engSt e := by
  have hoff (d : Nat) : unitOff (UId.engine d) = unitOff (UId.engine e) → unitValid (UId.engine d) = true → d = e := by
    simp only [unitOff, unitValid, UId.engine, Bool.and_eq_true]
    omega
  have hgen : Steady s (s.setF Reg.unitGen ((s.fld Reg.unitGen + 1) % 2 ^ 32)) := setF_steady s _ (by simp [checkReg, Reg.unitGen])
  unfold State.setEntry State.wrUnit
  rw [((record_touch ..).calm rfl : Calm _ _).engSt he]
  split
  · unfold State.engSt State.unitRaw State.unitEntry
    rw [State.rd_wr_other _ _ fun h => hd (hoff d h ‹_›), hgen.regs _ (checkReg_engine he)]
  · exact hgen.toCalm.engSt he

theorem putUnit_calm_setEntry (u st cause source prior : Nat) :
    Calm (s.setEntry u cause source 0 prior st) (s.putUnit u st cause source prior) := by
  unfold State.putUnit
  extract_lets pend dropped path s1 s2
  split
  · exact (set_mgt_steady s1 _).toCalm.to (event_touch ..) rfl
  · exact Calm.refl s1

theorem setUnit_calm_setEntry (u st cause source prior : Nat) :
    Calm (s.setEntry u cause source 0 prior st) (s.setUnit u st cause source prior) := by
  have hput := putUnit_calm_setEntry (s := s) u st cause source prior
  unfold State.setUnit
  exact Calm.ite (hput.to (relend_touch ..) rfl) hput

theorem engSt_setUnit_same (cause source prior : Nat) {st : Nat} (hst : st < 16) (he : e < 144) :
    (s.setUnit (UId.engine e) st cause source prior).engSt e = st :=
  ((setUnit_calm_setEntry ..).engSt he).trans (engSt_setEntry_same _ _ _ _ hst he)

theorem engSt_setUnit_other {d : Nat} (st cause source prior : Nat) (hd : d ≠ e) (he : e < 144) :
    (s.setUnit (UId.engine d) st cause source prior).engSt e = s.engSt e :=
  ((setUnit_calm_setEntry ..).engSt he).trans (engSt_setEntry_other _ _ _ _ _ hd he)

end

section
variable (s : State)

theorem putUnit_port_calm (p st cause source : Nat) : Calm s (s.putUnit (UId.port p) st cause source) :=
  (putUnit_steady s st cause source 0 (by simp only [UId.port]; omega)).toCalm

theorem portEnter_calm (p st : Nat) : Calm s (s.portEnter p st) := by
  unfold State.portEnter
  extract_lets old nb s1 s2 s3 s4 u s5 s6
  have h1 : Calm s s1 := (setPf_touch _ _ _ _ (by decide)).calm rfl
  clear_value s1
  have h2 : Calm s s2 := Calm.ite (h1.to (setPf_touch _ _ _ _ (by decide)) rfl) h1
  clear_value s2
  have h3 : Calm s s3 := by
    refine Calm.ite (Calm.ite ?_ (Calm.ite ?_ h2)) (Calm.ite (Calm.ite h2 ?_) h2)
    · exact h2.to (setPf_touch _ _ _ _ (by decide)) rfl
    · exact (h2.to (setPf_touch _ _ _ _ (by decide)) rfl).to (modPort_touch ..) rfl
    · exact h2.to (setPf_touch _ _ _ _ (by decide)) rfl
  clear_value s3
  have h4 : Calm s s4 := Calm.ite ((h3.to (dropLink_touch ..) rfl).to (setPf_touch _ _ _ _ (by decide)) rfl) h3
  clear_value s4
  have h5 : Calm s s5 := Calm.ite (h4.trans (putUnit_port_calm ..)) (Calm.ite (h4.trans (putUnit_port_calm ..)) h4)
  clear_value s5
  have h6 : Calm s s6 := Calm.ite (h5.to (startConfirm_touch ..) rfl) h5
  exact (h6.to (markPort_touch ..) rfl).to (castRefresh_touch ..) rfl

theorem portStop_calm (p st cause : Nat) : Calm s (s.portStop p st cause) := by
  unfold State.portStop
  refine Calm.trans (Calm.ite ?_ (Calm.refl s)) (portEnter_calm ..)
  exact (Calm.refl s).foldl (fun s _ => (sendFlit_touch ..).calm rfl) _

theorem declareFailed_calm (code unit : Nat) : Calm s (s.declareFailed code unit) := by
  unfold State.declareFailed
  refine Calm.ite (Calm.refl s) ?_
  extract_lets s1 src s2 s3 s4 s5
  have h1 : Calm s s1 := (Calm.refl s).foldl (fun s k => abandon_calm s k _ _) _
  clear_value s1
  have h2 : Calm s s2 := h1.trans ⟨fun _ h => h, fun _ _ => rfl⟩
  clear_value s2
  have h4 : Calm s s4 := (h2.to (flood_touch ..) rfl).to (event_touch ..) rfl
  clear_value s4
  have h5 : Calm s s5 := (h4.to (setF_touch_in (k := 27) _ _ _ rfl) rfl).to (setFault_touch ..) rfl
  exact h5.foldl (fun s p => Calm.ite (Calm.refl s) (((flushNotices_touch ..).calm rfl).trans (portStop_calm ..))) _

theorem copyLost_calm (b byte : Nat) : Calm s (s.copyLost b byte) := by
  have hremap : Calm s ((s.noteUncorrByte b byte).remapWord b (byte / 8)).2 :=
    ((noteUncorrByte_touch ..).calm rfl).to (remapWord_touch ..) rfl
  unfold State.copyLost
  split
  · rename_i heq
    rw [heq] at hremap
    exact hremap.to (voidWord_touch ..) rfl
  · rename_i heq
    rw [heq] at hremap
    exact (((hremap.to (setBf_touch _ _ _ _ (by decide)) rfl).trans (putUnit_bank_steady ..).toCalm).to (event_touch ..) rfl).to
      (voidWord_touch ..) rfl

theorem copyReads_calm (b : Nat) (ups : Upsets) : Calm s (s.copyReads b ups) := by
  unfold State.copyReads
  extract_lets lost fixed s1
  have h1 : Calm s s1 := (correctBytes_touch ..).calm rfl
  exact h1.foldl (fun s byte => copyLost_calm s b byte) lost

theorem moveBank_calm (b dest : Nat) (ups : Upsets) : Calm s (s.moveBank b dest ups) := by
  unfold State.moveBank
  extract_lets src s1 x kept s2 s3 y s4 s5
  have h1 : Calm s s1 := copyReads_calm ..
  clear_value s1
  have h2 : Calm s s2 := h1.to (zeroBytes_touch ..) rfl
  clear_value s2
  have h3 : Calm s s3 := h2.trans ⟨fun _ h => h, fun _ _ => rfl⟩
  clear_value s3
  have h4 : Calm s s4 := h3.to (setBank_touch ..) rfl
  clear_value s4
  have h5 : Calm s s5 := (((h4.to (setBf_touch _ _ _ _ (by decide)) rfl).to (setBf_touch _ _ _ _ (by decide)) rfl).to
    (setBf_touch _ _ _ _ (by decide)) rfl).to (wrBank_touch _ _ _ _ (by decide)) rfl
  exact (h5.to (setBf_touch _ _ _ _ (by decide)) rfl).to (setBf_touch _ _ _ _ (by decide)) rfl

theorem aliasBanks_calm (e dest : Nat) (ups : Upsets) : Calm s (s.aliasBanks e dest ups) := by
  unfold State.aliasBanks
  exact (Calm.refl s).foldl (fun s p => (moveBank_calm ..).foldl (fun s b => (setBf_touch _ _ _ _ (by decide)).calm rfl) _) _

theorem rerunOver_calm (e : Nat) (dests : List Nat) : Calm s (s.rerunOver e dests) := by
  unfold State.rerunOver
  extract_lets bound mine works s1
  have h1 : Calm s s1 := ⟨fun _ h => h, fun _ _ => rfl⟩
  exact ((h1.to (setEf_touch _ _ _ _ (by decide)) rfl).to (setEf_touch _ _ _ _ (by decide)) rfl).trans (arrayState_calm ..)

theorem rerunTiles_calm (e dest : Nat) : Calm s (s.rerunTiles e dest) := rerunOver_calm ..

variable {e : Nat} (he : e < 144)
include he

/-- The role of an engine passes to another one: the state of the first stays. -/
theorem engSt_takeover {d : Nat} (f : Nat) (hd : d ≠ e) : (s.takeover f d).engSt e = s.engSt e := by
  unfold State.takeover
  split
  rename_i ups s1 heq
  extract_lets lost hit s2 s3 s4 s5
  have h1 : Calm s s1 := by
    have hcopy := (copyErrors_touch s).calm rfl
    rwa [heq] at hcopy
  have h2 : Calm s s2 := (h1.to (stopPattern_touch ..) rfl).trans (aliasBanks_calm ..)
  have h3 : Calm s s3 := (h2.to (event_touch ..) rfl).to (inc_touch_in (k := 27) _ _ rfl) rfl
  have h4 : s4.engSt e = s.engSt e := (engSt_setUnit_other _ _ _ _ hd he).trans (h3.engSt he)
  have h5 : Calm s4 s5 := (rerunTiles_calm ..).trans (rerunTiles_calm ..)
  exact ((h5.foldl (fun s p => badData_calm s ..) hit).engSt he).trans h4

theorem engSt_replaceEngine (htest : s.sec.test = none) (hst : s.engSt e = US.failed) : (s.replaceEngine e).engSt e = US.failed := by
  rw [← hst]
  unfold State.replaceEngine
  dsimp only
  split
  · rename_i sp hsp
    refine engSt_takeover s he e ?_
    rintro rfl
    have hspare : s.spareOf (sp / 9) = some sp := by
      rwa [State.spareFor, List.find?_eq_none.2 (by simp [State.testHolds, htest]), Option.or_none] at hsp
    have hsp := List.find?_some hspare
    rw [hst] at hsp
    exact absurd hsp (by decide)
  · split
    · rename_i m hm
      have hne := (Bool.and_eq_true _ _ ▸ List.find?_some hm).2
      refine (engSt_takeover _ he e ?_).trans (((event_touch ..).calm rfl).engSt he)
      simpa using hne
    · split
      · exact (((event_touch ..).calm rfl).trans (declareFailed_calm ..)).engSt he
      · exact (((event_touch ..).calm rfl).trans (rerunOver_calm ..)).engSt he

end
end Sys2Proof.Machine

namespace Sys2Proof.Machine

open Sys2Proof

/-! ### Counts of the checks -/

section
variable {s t u : State} {f : Fld}

theorem Calm.counted (h : Calm t u) (hf : checkReg f.off) {n : Nat} (k : s.counted t f n) : s.counted u f n := by
  rw [State.counted, State.fld, h.regs _ hf]
  exact k

theorem counted_of_fld {n : Nat} (h : t.fld f = s.fld f) (k : t.counted u f n) : s.counted u f n := by
  rwa [State.counted, ← h]

theorem counted_inc (hw : f.hi + 1 - f.lo = 64) (hf : f.held) : s.counted (s.inc f) f 1 := by
  have h := State.fld_addF s 1 hf
  rwa [hw] at h

end

/-- The tile of an operation that h was held for is held no more. -/
def State.letGo (t : State) (h : HeldTile) : Prop := ∀ x ∈ t.heldTiles, ¬(x.work.op = h.work.op ∧ x.work.tile = h.work.tile)

theorem letGo_withoutHeld (s : State) (h : HeldTile) : (s.withoutHeld h).letGo h := by
  intro x hx hsame
  have hkept := List.of_mem_filter hx
  simp [hsame.1, hsame.2] at hkept

theorem Calm.letGo {s t : State} {h : HeldTile} (k : Calm s t) (hs : s.letGo h) : t.letGo h := fun x hx => hs x (k.held x hx)

theorem letGo_release (s : State) (h : HeldTile) (sub : Bool) : (s.release h sub).letGo h :=
  (release_calm_withoutHeld s h sub).letGo (letGo_withoutHeld s h)

theorem discardHeld_calm_withoutHeld (s : State) (h : HeldTile) : Calm (s.withoutHeld h) (s.discardHeld h) := by
  unfold State.discardHeld
  extract_lets s1
  split
  · exact Calm.refl _
  · exact ⟨fun _ h => h, fun _ _ => rfl⟩

theorem letGo_discardHeld (s : State) (h : HeldTile) : (s.discardHeld h).letGo h :=
  (discardHeld_calm_withoutHeld s h).letGo (letGo_withoutHeld s h)

theorem discardHeld_calm (s : State) (h : HeldTile) : Calm s (s.discardHeld h) :=
  (withoutHeld_calm s h).trans (discardHeld_calm_withoutHeld s h)

theorem engSt_faultyEngine (s : State) {e : Nat} (he : e < 144) (htest : s.sec.test = none) (slot : Nat) (again : Bool) :
    (s.faultyEngine e slot again).engSt e = US.failed := by
  unfold State.faultyEngine
  extract_lets was s1 s2
  have h1 : s1.engSt e = US.failed := by
    unfold s1
    split
    · assumption
    · exact engSt_setUnit_same _ _ _ (by decide) he
  have hsec1 : s1.sec = s.sec := by
    unfold s1
    split
    · rfl
    · exact (setUnit_touch ..).sec rfl
  clear_value s1
  have h2 : s2.engSt e = US.failed := by
    unfold s2
    split
    · exact ((abandon_calm ..).engSt he).trans h1
    · exact h1
  have hsec2 : s2.sec = s.sec := by
    unfold s2
    split
    · exact ((abandon_touch ..).sec rfl).trans hsec1
    · exact hsec1
  clear_value s2
  split
  · exact engSt_replaceEngine s2 he (hsec2 ▸ htest) h2
  · split
    · exact h2
    · exact ((rerunTiles_calm ..).engSt he).trans h2

end Sys2Proof.Machine

namespace Sys2Proof.Machine

open Sys2Proof

/-! ### The runs of a check -/

theorem checkCounters_held : Reg.faultChecks.held ∧ Reg.faultMismatches.held ∧ Reg.faultUnresolved.held ∧ Reg.damageChecks.held
    ∧ Reg.checksOnActive.held := by decide +kernel

/-- A run joins the tiles, and counts where its engine is ACTIVE. -/
def State.addCheck (s : State) (w : TileWork) (engine : Nat) : State :=
  let s : State := { s with tiles := s.tiles ++ [w] }
  if s.engSt engine = US.active then s.inc Reg.checksOnActive else s

theorem tiles_addCheck (s : State) (w : TileWork) (engine : Nat) : (s.addCheck w engine).tiles = s.tiles ++ [w] := by
  unfold State.addCheck
  extract_lets s1
  split
  · exact State.wr_tiles ..
  · rfl

theorem counted_addCheck {v s : State} (h : Calm v s) (w : TileWork) {engine : Nat} (he : engine < 144) (hst : v.engSt engine = US.active) :
    v.counted (s.addCheck w engine) Reg.checksOnActive 1 := by
  unfold State.addCheck
  extract_lets s1
  have h1 : Calm v s1 := h.trans ⟨fun _ h => h, fun _ _ => rfl⟩
  rw [if_pos ((h1.engSt he).trans hst)]
  refine counted_of_fld ?_ (counted_inc rfl checkCounters_held.2.2.2.2)
  rw [State.fld, h1.regs _ (.inl (by decide))]
  rfl

theorem masterRungUp_of_notWeight (s : State) (slot : Nat) (j : Job) {p : Prod} (hw : p.b.isWeight = false) :
    s.masterRungUp slot j p = s := by
  unfold State.masterRungUp
  rw [if_neg (Bool.eq_false_iff.1 hw)]

theorem checkWork_damage (s : State) (rq : Requester) (j : Job) (c : CueRec) (p : Prod) (h : HeldTile) (e : Nat) :
    let w := (s.checkWork rq j c p h 3 e).1
    w.role = 3 ∧ w.engine = e ∧ w.op = h.work.op ∧ w.tile = h.work.tile ∧ w.sampled = false := by
  simp [State.checkWork]

/-- The run of a damage check, made once the copy of the stationary operand has been quantised (R172, R179). -/
def State.damageRun (v : State) (o : OpSlot) (slot : Nat) (j : Job) (p : Prod) (h : HeldTile) (e : Nat) : TileWork × State :=
  let s := v.masterRungUp slot j p
  s.checkWork (engRq e o) (((s.job slot).getD j).viewOf o) o.cue p h 3 e

section
variable (v : State) (o : OpSlot) (slot : Nat) (j : Job) (p : Prod) (h : HeldTile) (e : Nat)

theorem damageRun_calm : Calm v (v.damageRun o slot j p h e).2 := ((masterRungUp_steady ..).trans (checkWork_steady ..)).toCalm

theorem tiles_damageRun : (v.damageRun o slot j p h e).2.tiles = v.tiles :=
  ((checkWork_touch ..).array rfl).1.trans ((masterRungUp_touch ..).array rfl).1

theorem damageRun_of_notWeight (hw : p.b.isWeight = false) :
    v.damageRun o slot j p h e = v.checkWork (engRq e o) (((v.job slot).getD j).viewOf o) o.cue p h 3 e := by
  rw [State.damageRun, masterRungUp_of_notWeight v slot j hw]

end

section
variable {s v : State} {h : HeldTile} {o : OpSlot} {slot e role : Nat} {j : Job} {p : Prod}
  (hwork : s.workOf e h.work = (some (o, slot, j, p), v))
include hwork

theorem issueCheck_narrow (hrole : role ≠ 3) :
    s.issueCheck h role e = v.addCheck { h.work with role, engine := e, sampled := false, acked := false } e := by
  unfold State.issueCheck
  simp only [hwork]
  rw [if_neg (fun hc => hrole hc.1), if_neg hrole, State.checkWork, if_pos hrole]
  rfl

theorem issueCheck_wide (hlow : j.atW16 p.a = false ∨ j.atW16 p.b = false) :
    s.issueCheck h 3 e = (v.damageRun o slot j p h e).2.addCheck (v.damageRun o slot j p h e).1 e := by
  unfold State.issueCheck
  simp only [hwork]
  rw [if_neg]
  · rfl
  · rintro ⟨-, ha, hb⟩
    rcases hlow with hlow | hlow
    · exact absurd (ha.symm.trans hlow) (by decide)
    · exact absurd (hb.symm.trans hlow) (by decide)

theorem issueCheck_w16 (ha : j.atW16 p.a = true) (hb : j.atW16 p.b = true) : s.issueCheck h 3 e = v.release h false := by
  unfold State.issueCheck
  simp only [hwork]
  exact if_pos ⟨trivial, ha, hb⟩

end

section
variable {s : State} {i : Nat} {h : HeldTile} (hheld : s.heldTiles[i]? = some h)
include hheld

theorem exec_faultCheckRun {e role : Nat} (he : e < 144) (hdue : s.quiet.checkDue h = some (role, some e)) :
    exec (.faultCheckRun i e) s = .next { s.quiet.issueCheck h role e with pending := s.pending } := by
  change execFaultCheckRun i e s = _
  rw [execFaultCheckRun, run_next (ok := engOk e) _ s (decide_eq_true he)]
  have hq : s.quiet.heldTiles[i]? = some h := hheld
  simp only [hq, hdue, ne_eq, not_true_eq_false, if_false]

theorem exec_faultCheckCompare {o : OpSlot} {slot : Nat} {j : Job} {p : Prod} {v : State} {b : TileResult} (hb : h.b = some b)
    (hv : h.verdict = 0) (hwork : s.quiet.workOf h.work.engine h.work = (some (o, slot, j, p), v)) :
    exec (.faultCheckCompare i) s = .next
      { (if h.a.same b p.freeOut then
          if h.damage then (v.inc Reg.faultChecks).putHeld i { h with verdict := 1 }
          else (v.inc Reg.faultChecks).release { h with verdict := 1 } false
        else ((v.inc Reg.faultChecks).putHeld i { h with verdict := 5 }).inc Reg.faultMismatches) with pending := s.pending } := by
  change execFaultCheckCompare i s = _
  rw [execFaultCheckCompare, run_next _ s rfl]
  have hq : s.quiet.heldTiles[i]? = some h := hheld
  simp only [hq, hb, hv, hwork, ne_eq, not_true_eq_false, if_false]

end

/-- The arguments of a verdict's event: the engines of the three runs, the verdict, the cue and the tile (R177). -/
def OpSlot.verdictArgs (o : OpSlot) (h : HeldTile) (b c : TileResult) (v : Nat) : List Nat :=
  [UId.engine b.engine * 2 ^ 16 + UId.engine h.a.engine, v * 2 ^ 16 + (if c.engine < 144 then UId.engine c.engine else 0), o.cue.index,
    h.work.tile]

/-- What an undecided verdict does: it counts, the engines of the runs go to TEST, and the attempt is abandoned (R177, R178). -/
def State.undecided (s : State) (h : HeldTile) (slot ea eb ec : Nat) (args : List Nat) : State :=
  let s := (s.inc Reg.faultUnresolved).event Ev.faultUnresolved (UId.engine ea) args
  let s := ((s.toTest ea Ev.faultUnresolved).toTest eb Ev.faultUnresolved)
  let s := if ec < 144 then s.toTest ec Ev.faultUnresolved else s
  (s.abandon slot Cause.verdict).discardHeld h

theorem letGo_undecided (s : State) (h : HeldTile) (slot ea eb ec : Nat) (args : List Nat) : (s.undecided h slot ea eb ec args).letGo h := by
  unfold State.undecided
  exact letGo_discardHeld _ h

theorem rd_toTest (s : State) (e cause : Nat) : (s.toTest e cause).rd Reg.faultUnresolved.off = s.rd Reg.faultUnresolved.off :=
  (toTest_touch ..).regs _ (by decide)

theorem counted_undecided (s : State) (h : HeldTile) (slot ea eb ec : Nat) (args : List Nat) :
    s.counted (s.undecided h slot ea eb ec args) Reg.faultUnresolved 1 := by
  have hreg : checkReg Reg.faultUnresolved.off := .inl (by decide)
  unfold State.undecided
  extract_lets s1 s2 s3
  have h1 : s.counted s1 Reg.faultUnresolved 1 :=
    ((event_touch ..).calm rfl).counted hreg (counted_inc rfl checkCounters_held.2.2.1)
  have h3 : s3.rd Reg.faultUnresolved.off = s1.rd Reg.faultUnresolved.off := by
    have h2 : s2.rd Reg.faultUnresolved.off = s1.rd Reg.faultUnresolved.off := (rd_toTest ..).trans (rd_toTest ..)
    unfold s3
    split
    · exact (rd_toTest ..).trans h2
    · exact h2
  refine ((abandon_calm ..).trans (discardHeld_calm ..)).counted hreg ?_
  rwa [State.counted, State.fld, h3]

section
variable {s v : State} {i slot : Nat} {h : HeldTile} {o : OpSlot} {j : Job} {p : Prod} (hheld : s.heldTiles[i]? = some h)
  (hwork : s.quiet.workOf h.work.engine h.work = (some (o, slot, j, p), v))
include hheld hwork

theorem exec_faultVerdict {b c : TileResult} (hb : h.b = some b) (hv : h.verdict = 5) (hc : h.c = some c) :
    exec (.faultVerdict i) s = .next
      { (if c.same h.a p.freeOut then
          let t := ((v.event Ev.faultVerdict (UId.engine b.engine) (o.verdictArgs h b c 0)).putHeld i
            { h with verdict := 2 }).faultyEngine b.engine slot (j.worked.contains b.engine)
          if h.damage then t else t.release { h with verdict := 2 } false
        else if c.same b p.freeOut then
          ((v.event Ev.faultVerdict (UId.engine h.a.engine) (o.verdictArgs h b c 1)).faultyEngine h.a.engine slot true).discardHeld h
        else v.undecided h slot h.a.engine b.engine c.engine (o.verdictArgs h b c 2)) with pending := s.pending } := by
  change execFaultVerdict i s = _
  rw [execFaultVerdict, run_next _ s rfl]
  have hq : s.quiet.heldTiles[i]? = some h := hheld
  simp only [hq, hb, hv, hc, hwork, ne_eq, not_true_eq_false, if_false]
  rfl

theorem exec_damageCheck {w : TileResult} (hw : h.wide = some w) (hv : h.verdict = 1 ∨ h.verdict = 2) :
    ∃ u sub, Calm (v.inc Reg.damageChecks) u ∧ exec (.damageCheck i) s = .next { u.release h sub with pending := s.pending } := by
  change ∃ u sub, _ ∧ execDamageCheck i s = _
  rw [execDamageCheck, run_next _ s rfl]
  have hq : s.quiet.heldTiles[i]? = some h := hheld
  have hverdict : ¬(h.verdict ≠ 1 ∧ h.verdict ≠ 2) := by omega
  simp only [hq, hw, hwork, if_neg hverdict]
  split
  · refine ⟨_, _, ?_, rfl⟩
    exact (addF_calm _ 1 (by simp [checkReg, Reg.damagedTiles])).trans (countDamage_steady ..).toCalm
  · exact ⟨_, _, Calm.refl _, rfl⟩

end

theorem sec_workOf {s v : State} {e : Nat} {w : TileWork} {r : Option (OpSlot × Nat × Job × Prod)} (h : s.workOf e w = (r, v)) :
    v.sec = s.sec := by
  have hsec := (workOf_touch s e w).sec rfl
  rwa [h] at hsec

/-- Settles O39: each command's run is split along the runs that agree; the tiles held only shrink, and the counters and the entries of
engines are kept, by whatever a release or an abandoned attempt goes on to do. -/
theorem sampledTilesAreChecked : Obligations.SampledTilesAreChecked := by
  intro s i slot h o j p hheld gone
  refine ⟨fun role e v hdue he hwork => ?_, fun v hwork b hb => ?_⟩
  · refine ⟨_, exec_faultCheckRun hheld he hdue, fun hrole => ?_, ?_, ?_⟩
    · rw [issueCheck_narrow hwork hrole]
      exact ⟨tiles_addCheck .., counted_addCheck (Calm.refl v) _ he⟩
    · rintro rfl hlow
      have htiles := (tiles_addCheck (v.damageRun o slot j p h e).2 (v.damageRun o slot j p h e).1 e).trans
        (congrArg (· ++ [_]) (tiles_damageRun v o slot j p h e))
      have hcounted := counted_addCheck (damageRun_calm v o slot j p h e) (v.damageRun o slot j p h e).1 he
      rw [issueCheck_wide hwork hlow]
      generalize State.addCheck _ _ e = u at htiles hcounted ⊢
      refine ⟨⟨_, htiles, checkWork_damage ..⟩, fun hweight => ?_, hcounted⟩
      rw [← damageRun_of_notWeight v o slot j p h e hweight]
      exact htiles
    · rintro rfl ha hb
      rw [issueCheck_w16 hwork ha hb]
      exact letGo_release v h false
  · have hnone (htest : s.sec.test = none) (code unit : Nat) (args : List Nat) : (v.event code unit args).sec.test = none := by
      rw [(event_touch ..).sec rfl, sec_workOf hwork]
      exact htest
    refine ⟨fun hv => ⟨fun hsame => ⟨fun hd => ?_, fun hd => ?_⟩, fun hsame => ?_⟩,
      fun c hv hc htest hea heb => ⟨fun hsame => ?_, fun ha hsame => ?_, fun ha hsame => ?_⟩, fun w hw hv => ?_⟩
    · refine ⟨_, exec_faultCheckCompare hheld hb hv hwork, ?_⟩
      rw [if_pos hsame, if_pos hd]
      exact ⟨congrArg (List.set · i _) (State.wr_heldTiles ..), counted_inc rfl checkCounters_held.1⟩
    · refine ⟨_, exec_faultCheckCompare hheld hb hv hwork, ?_⟩
      rw [if_pos hsame, if_neg (Bool.eq_false_iff.1 hd)]
      exact ⟨letGo_release _ { h with verdict := 1 } false,
        (release_calm ..).counted (.inl (by decide)) (counted_inc rfl checkCounters_held.1)⟩
    · refine ⟨_, exec_faultCheckCompare hheld hb hv hwork, ?_⟩
      rw [if_neg (Bool.eq_false_iff.1 hsame)]
      let u := (v.inc Reg.faultChecks).putHeld i { h with verdict := 5 }
      have hchecks : Calm u (u.inc Reg.faultMismatches) := addF_calm _ 1 (by simp [checkReg, Reg.faultMismatches])
      have hapart : u.fld Reg.faultMismatches = v.fld Reg.faultMismatches :=
        congrArg (bits 63 0) (State.rd_wr_other v _ (by decide))
      refine ⟨?_, hchecks.counted (.inl (by decide)) (counted_inc (s := v) rfl checkCounters_held.1),
        counted_of_fld hapart (counted_inc rfl checkCounters_held.2.1)⟩
      exact (State.wr_heldTiles ..).trans (congrArg (List.set · i _) (State.wr_heldTiles ..))
    · refine ⟨_, exec_faultVerdict hheld hwork hb hv hc, ?_⟩
      rw [if_pos hsame]
      have hfailed := engSt_faultyEngine ((v.event Ev.faultVerdict (UId.engine b.engine) (o.verdictArgs h b c 0)).putHeld i
        { h with verdict := 2 }) heb (hnone htest ..) slot (j.worked.contains b.engine)
      dsimp only
      generalize State.faultyEngine _ b.engine slot _ = u at hfailed ⊢
      split
      · exact hfailed
      · exact ((release_calm u { h with verdict := 2 } false).engSt heb).trans hfailed
    · refine ⟨_, exec_faultVerdict hheld hwork hb hv hc, ?_⟩
      rw [if_neg (Bool.eq_false_iff.1 ha), if_pos hsame]
      have hfailed := engSt_faultyEngine (v.event Ev.faultVerdict (UId.engine h.a.engine) (o.verdictArgs h b c 1)) hea
        (hnone htest ..) slot true
      generalize State.faultyEngine _ h.a.engine slot true = u at hfailed ⊢
      exact ⟨((discardHeld_calm u h).engSt hea).trans hfailed, letGo_discardHeld u h⟩
    · refine ⟨_, exec_faultVerdict hheld hwork hb hv hc, ?_⟩
      rw [if_neg (Bool.eq_false_iff.1 ha), if_neg (Bool.eq_false_iff.1 hsame)]
      have hcounted := counted_undecided v h slot h.a.engine b.engine c.engine (o.verdictArgs h b c 2)
      have hgone := letGo_undecided v h slot h.a.engine b.engine c.engine (o.verdictArgs h b c 2)
      generalize State.undecided .. = u at hcounted hgone ⊢
      exact ⟨hcounted, hgone⟩
    · obtain ⟨u, sub, hcalm, hexec⟩ := exec_damageCheck hheld hwork hw hv
      refine ⟨_, hexec, letGo_release u h sub, ?_⟩
      exact (hcalm.trans (release_calm ..)).counted (.inl (by decide)) (counted_inc rfl checkCounters_held.2.2.2.1)

end Sys2Proof.Machine

namespace Sys2Proof.Machine

open Sys2Proof

/-! ### What an attempt does as it opens -/

/-- One more operation, whose touched areas hold none of this. -/
theorem Steady.to {M : Nat} {s t u : State} (h : Steady s t) (k : Touch M t u) (hM : M &&& 0x81000180 = 0) : Steady s u :=
  h.trans (k.steady hM)

theorem Steady.ite {s t u : State} {c : Prop} [Decidable c] (h : Steady s t) (k : Steady s u) : Steady s (if c then t else u) := by
  split
  · exact h
  · exact k

section
variable (s : State)

theorem quantPass_steady (rq : Requester) (j : Job) (t : Tensor) (w : QuantJob) (spans : List Span) :
    Steady s (s.quantPass rq j t w spans).2.2 := by
  unfold State.quantPass
  extract_lets q
  have h := writeQuant_steady s rq j w.scope q.planes q.recs
  split
  rename_i heq
  rw [heq] at h
  exact (h.trans (loadRot_steady ..)).to (addF_touch_in (k := 25) _ _ _ rfl) rfl

theorem writeTile_steady (rq : Requester) (slot : Nat) (t : Tensor) (w : QuantJob) (spans : List Span) :
    Steady s (s.writeTile rq slot t w spans).2 := by
  unfold State.writeTile
  extract_lets s1 j
  have h1 : Steady s s1 := keepRungUp_steady ..
  clear_value s1 j
  have hpass := h1.trans (quantPass_steady s1 rq j t w spans)
  split
  · rename_i q s2 heq
    rw [heq] at hpass
    have hafter := hpass.trans (afterWrite_steady s2 slot w.scope j t q w.watch)
    split
    rename_i widen s3 heq2
    rw [heq2] at hafter
    split
    · exact hafter
    · have hagain := hafter.trans (quantPass_steady s3 rq ((w.job (s3.job slot)).raisedRung t.idx) t w spans)
      split
      · rename_i q' s4 heq3
        rw [heq3] at hagain
        have hnote := hagain.trans (modJob_steady s4 slot (f := fun j => j.noteRecs w.scope t q') fun _ => rfl)
        exact hnote.trans (noteWiden_steady ..)
      · rename_i heq3
        rwa [heq3] at hagain
  · rename_i heq
    rwa [heq] at hpass

theorem writeScaled_steady (rq : Requester) (slot : Nat) (t : Tensor) (w : QuantJob) (spans : List Span) :
    Steady s (s.writeScaled rq slot t w spans).2 := by
  unfold State.writeScaled
  refine List.foldlRecOn (motive := fun (acc : Nat × State) => Steady s acc.2) _ _ (Steady.refl s) fun acc h ts _ => ?_
  split
  · exact h
  · exact h.trans (writeTile_steady ..)

theorem putWide_steady (rq : Requester) (t : Tensor) (p mode : Nat) (vals : List Val) : Steady s (s.putWide rq t p mode vals).2.2 := by
  unfold State.putWide
  grind [i32Exp_steady, devWrites_steady, → Steady.trans]

theorem writeWork_steady (rq : Requester) (slot : Nat) (j : Job) (t : Tensor) (step scope : Nat) (vals : List Val) :
    Steady s (s.writeWork rq slot j t step scope vals).2 := by
  unfold State.writeWork
  split
  · exact writeScaled_steady ..
  · exact putWide_steady s rq t 0 0 vals

theorem rebuildWork_steady (slot : Nat) : Steady s (s.rebuildWork slot) := by
  unfold State.rebuildWork
  split
  · exact Steady.refl s
  · rename_i j hj
    extract_lets todo step rq s1 s2
    have h1 : Steady s s1 := modJob_steady s slot fun _ => rfl
    have h2 : Steady s1 s2 := by
      refine foldl_steady (fun s p => ?_) todo s1
      have hread := readVals_steady s rq p.2 0 p.2.elems
      split
      all_goals rename_i heq; rw [heq] at hread
      · exact hread.trans (writeWork_steady ..)
      · exact hread
    exact (h1.trans h2).trans (modJob_steady s2 slot fun _ => rfl)

theorem zeroTensor_steady (slot : Nat) (j : Job) (t : Tensor) : Steady s (s.zeroTensor slot j t) := by
  unfold State.zeroTensor
  grind [devWrites_steady, devWrite_steady, Steady.refl, → Steady.trans]

theorem placeSamples_steady (slot : Nat) (j : Job) : Steady s (s.placeSamples slot j) := by
  unfold State.placeSamples
  refine foldl_steady (fun s d => ?_) _ s
  split
  · exact Steady.refl s
  · refine foldl_steady (fun s x => ?_) _ s
    split
    · exact Steady.refl s
    · have hread := devRead_steady s (.manager (some slot)) (x.1.1.buf + x.1.2 * d.sampleBytes) d.sampleBytes
      split
      all_goals rename_i heq; rw [heq] at hread
      · exact hread.trans (devWrite_steady ..)
      · exact hread

theorem parityList_steady (k g u : Nat) (items : List (Nat × Nat)) : Steady s (s.parityList k g u items).2 := by
  unfold State.parityList
  dsimp only
  refine List.foldlRecOn (motive := fun (acc : Option (List Byte) × State) => Steady s acc.2) _ _ (Steady.refl s) fun acc h it _ => ?_
  split
  · exact h
  · have hread := h.trans (devRead_steady acc.2 (.manager none) (acc.2.ckp.slotAt k + it.1) it.2)
    split
    all_goals rename_i heq; rwa [heq] at hread

theorem nextAxis_op (x : Coll) (a : Nat) (gather : Bool) : (s.nextAxis x a gather).op = x.op := by
  unfold State.nextAxis
  grind

theorem driveColl_op (x : Coll) (k : Nat) : (s.driveColl x k).1.op = x.op := by
  induction k generalizing s x with
  | zero => rfl
  | succ k ih =>
    unfold State.driveColl
    grind [nextAxis_op]

theorem putColl_steady (key : Nat) {x : Coll} (hx : x.op = none) : Steady s (s.putColl key x) := by
  have hop := (driveColl_op s x 8).trans hx
  have hdrive := (driveColl_touch s x 8).steady rfl
  unfold State.putColl
  split
  rename_i y s1 heq
  rw [heq] at hop hdrive
  have hput (s : State) (m : SMap Coll) : Steady s { s with colls := m } := ⟨⟨fun _ h => h, fun _ _ => rfl⟩, fun _ => rfl⟩
  dsimp only at hop
  rw [hop, ite_self]
  exact Steady.ite ((hdrive.trans (hput ..)).to (inc_touch_in (k := 28) _ _ rfl) rfl) (hdrive.trans (hput ..))

theorem restartStripes_steady : Steady s s.restartStripes := by
  unfold State.restartStripes
  extract_lets todo
  refine Steady.ite (Steady.refl s) ?_
  unfold State.startParity
  split
  rename_i g i first heq
  have hlist := parityList_steady s s.sSlot g (s.rd 0xC0060)
    ((s.ckp.items.filter fun it => it.method == 2).map fun it => (it.slotOff, it.bytes))
  split
  all_goals rename_i heq2; rw [heq2] at hlist
  · exact hlist
  · exact hlist.trans (foldl_steady (fun s t => putColl_steady _ _ rfl) _ _)

/-- The attempt opens as its job is stored; nothing that follows closes it. -/
theorem openAt_openAttempt (slot : Nat) (j : Job) :
    (s.openAttempt slot j).openAt slot = some (true, s.jf slot Reg.jobStep % 2 ^ 24 * 256 + s.jf slot Reg.jobAttempt) := by
  unfold State.openAttempt
  extract_lets step epoch s1 j1 j2 j3 r s2 s3 s4 s5 s6 src s7 s8 s9 zero s10 s11 s12 s13
  have h2 : s2.openAt slot = some (true, epoch) := by
    rw [State.openAt, job_setJob, if_pos rfl]
    rfl
  clear_value s2
  have h3 : Steady s2 s3 := ((addF_steady _ _ (by simp [checkReg, Reg.samplesPlanned])).trans
    (addF_steady _ _ (by simp [checkReg, Reg.samplesDropped]))).trans (addF_steady _ _ (by simp [checkReg, Reg.damageDropped]))
  clear_value s3
  have h4 : Steady s2 s4 := h3.to (addF_touch_in (k := 25) _ _ _ rfl) rfl
  clear_value s4
  have h5 : Steady s2 s5 := ((h4.to (setJf_touch _ _ _ _ (by decide)) rfl).trans
    (setF_steady _ _ (by simp [checkReg, Reg.numRaised]))).trans (setF_steady _ _ (by simp [checkReg, Reg.numStorm]))
  clear_value s5
  have h6 : Steady s2 s6 := Steady.ite (h5.to (setF_touch_in (k := 27) _ _ _ rfl) rfl) h5
  clear_value s6
  have h7 : Steady s2 s7 := h6.trans ⟨⟨fun _ h => h, fun _ _ => rfl⟩, fun _ => rfl⟩
  clear_value s7
  have h8 : Steady s2 s8 := h7.trans (foldl_steady (fun s i => (clearWatch_touch ..).steady rfl) _ s7)
  clear_value s8
  have h9 : Steady s2 s9 := Steady.ite (h8.trans (rebuildWork_steady ..)) h8
  clear_value s9
  have h10 : Steady s2 s10 := h9.trans (foldl_steady (fun s t => zeroTensor_steady s slot j3 t) zero s9)
  clear_value s10
  have h11 : Steady s2 s11 := h10.trans (placeSamples_steady ..)
  clear_value s11
  have h12 : Steady s2 s12 := (h11.to (joinAhead_touch ..) rfl).to (setJf_touch _ _ _ _ (by decide)) rfl
  clear_value s12
  have h13 : Steady s2 s13 := (h12.to (releaseApart_touch ..) rfl).trans (restartStripes_steady ..)
  exact ((h13.to (phaseStep_touch ..) rfl).attempts slot).trans h2

end
end Sys2Proof.Machine

namespace Sys2Proof.Machine

open Sys2Proof

/-! ### Micro-batch boundaries -/

/-- How far the boundaries of slot k's attempt are, and the tensors that ask to be raised at the next one. -/
def State.batchAt (s : State) (k : Nat) : Option (Nat × List Nat) := (s.job k).map fun j => (j.boundaries, j.trig)

section
variable (s : State) (slot k : Nat)

/-- No jobs change where no such part is touched. -/
theorem job_of_touch {M : Nat} {s t : State} (h : Touch M s t) (hM : M.testBit 7 = false) (k : Nat) : t.job k = s.job k := by
  rw [State.job, h.jobs hM]
  rfl

theorem job_raise {j : Job} (hj : s.job slot = some j) (i rung : Nat) : (s.raise slot i rung).job slot =
    some (if min rung (lastRung ((eFmtOf (j.recipeAt i).fmt).getD .w16)) ≤ j.rung i ∨ ((j.tensor i).map (·.fb)).getD 0 = 0 then j
      else { j with rungs := SMap.put j.rungs i (min rung (lastRung ((eFmtOf (j.recipeAt i).fmt).getD .w16))) }) := by
  unfold State.raise
  rw [hj]
  dsimp only
  split
  · rw [hj]
  · rw [job_of_touch (ownNum_touch ..) rfl, job_of_touch (setWatchFlag_touch ..) rfl]
    split
    · rw [job_of_touch (addF_touch_in (k := 24) _ _ _ rfl) rfl, job_setJob, if_pos rfl]
    · rw [job_setJob, if_pos rfl]

theorem batchAt_raise (i rung : Nat) : (s.raise slot i rung).batchAt slot = s.batchAt slot := by
  unfold State.batchAt
  cases hj : s.job slot with
  | none => rw [State.raise, hj]; simp [hj]
  | some j =>
    rw [job_raise s slot hj]
    split
    · rfl
    · rfl

theorem batchAt_foldl {α : Type} {f : State → α → State} (hf : ∀ s a, (f s a).batchAt k = s.batchAt k) (l : List α) (s : State) :
    (l.foldl f s).batchAt k = s.batchAt k := by
  induction l generalizing s with
  | nil => rfl
  | cons a l ih => exact (ih _).trans (hf s a)

theorem batchAt_stormRule : (s.stormRule slot).batchAt slot = s.batchAt slot := by
  unfold State.stormRule
  split
  · rfl
  · split
    · rfl
    · extract_lets begins s1
      have h1 : s1.batchAt slot = s.batchAt slot := by
        unfold s1
        split
        · rw [State.batchAt, job_of_touch (event_touch ..) rfl, job_of_touch (inc_touch_in (k := 24) _ _ rfl) rfl,
            job_of_touch (setF_touch_in (k := 24) _ _ _ rfl) rfl]
          rfl
        · rfl
      split
      · refine (batchAt_foldl slot (fun s i => ?_) _ s1).trans h1
        split
        · exact batchAt_raise ..
        · rfl
      · exact h1

/-- Where jobs have no storm, a boundary only raises. -/
theorem stormRule_of_none {j : Job} (hj : s.job slot = some j) (h : j.replay = true ∨ j.large = true) : s.stormRule slot = s := by
  unfold State.stormRule
  rw [hj]
  exact if_pos h

end

/-- A tensor below its last rung, with a fall-back copy, is raised by one. -/
theorem rung_raise {s : State} {slot i : Nat} {j : Job} {x : Tensor} {f : EFmt} (hj : s.job slot = some j) (hx : j.tensor i = some x)
    (hfb : x.fb ≠ 0) (hf : eFmtOf (j.recipeAt i).fmt = some f) (hlt : j.rung i < lastRung f) :
    ((s.raise slot i (j.rung i + 1)).job slot).map (·.rung i) = some (j.rung i + 1) := by
  have hmin : min (j.rung i + 1) (lastRung f) = j.rung i + 1 := by omega
  have hrung (m : SMap Nat) : ({ j with rungs := m } : Job).rung i = min (SMap.get 0 m i) (lastRung f) := by
    rw [Job.rung, show ({ j with rungs := m } : Job).recipeAt i = j.recipeAt i from rfl, hf]
  rw [job_raise s slot hj, hf, Option.getD_some, hmin, hx]
  rw [if_neg (by simp [hfb]), Option.map_some, hrung, SMap.get, SMap.find_put, if_pos rfl, Option.getD_some, hmin]

/-! ### The commands -/

theorem withOpen_of_open {s : State} {slot : Nat} {j : Job} (hj : s.job slot = some j) (hopen : j.isOpen = true) (f : Job → State) :
    s.withOpen slot f = f j := by
  rw [State.withOpen, hj]
  exact if_pos hopen

section
variable {s : State} {slot : Nat} {j : Job} (hslot : slot < 4) (hj : s.job slot = some j)
include hslot hj

theorem exec_attemptOpen (hopen : s.mayOpen slot j = true) :
    exec (.attemptOpen slot) s = .next { s.quiet.openAttempt slot j with pending := s.pending } := by
  change execAttemptOpen slot s = _
  rw [execAttemptOpen, run_next (ok := slotOk slot) _ s (decide_eq_true hslot)]
  have hq : s.quiet.job slot = some j := hj
  have hmay : s.quiet.mayOpen slot j = true := hopen
  simp only [hq, hmay, if_true]

/-- A boundary is noted in the job, and what asked to be raised is. -/
def State.boundary (s : State) (slot : Nat) (j : Job) : State :=
  j.trig.foldl (fun (s : State) i => s.raise slot i (j.rung i + 1)) (s.setJob slot { j with boundaries := j.boundaries + 1, trig := [] })

theorem exec_microBatchBoundary (hopen : j.isOpen = true) (hlast : j.boundaries ≤ j.mbLast) (hmb : j.boundaries < 256)
    (hdone : s.quiet.batchDone slot j j.boundaries = true) :
    exec (.microBatchBoundary slot j.boundaries) s
      = .next { (s.quiet.boundary slot j).stormRule slot with pending := s.pending } := by
  change execMicroBatchBoundary slot j.boundaries s = _
  rw [execMicroBatchBoundary, run_next (ok := slotOk slot && decide (j.boundaries < 256)) _ s
    (Bool.and_eq_true _ _ ▸ ⟨decide_eq_true hslot, decide_eq_true hmb⟩)]
  have hq : s.quiet.job slot = some j := hj
  have hmay : ¬(j.boundaries ≠ j.boundaries ∨ j.mbLast < j.boundaries ∨ (!s.quiet.batchDone slot j j.boundaries) = true) := by
    simp [hdone, Nat.not_lt.2 hlast]
  rw [withOpen_of_open hq hopen, if_neg hmay]
  rfl

theorem exec_maxAttemptsReached (hst : s.jf slot Reg.jobState = 3) (hopen : j.isOpen = false) (hmax : j.maxAttempts ≤ j.failed) :
    exec (.maxAttemptsReached slot) s
      = .next { s.quiet.stopJob slot (s.jf slot Reg.jobAbandonCause) UId.stageManager with pending := s.pending } := by
  change execMaxAttemptsReached slot s = _
  rw [execMaxAttemptsReached, run_next (ok := slotOk slot) _ s (decide_eq_true hslot)]
  have hq : s.quiet.job slot = some j := hj
  have hcond : s.quiet.jf slot Reg.jobState = 3 ∧ (!j.isOpen) = true ∧ j.maxAttempts ≤ j.failed := ⟨hst, by rw [hopen]; rfl, hmax⟩
  simp only [hq]
  rw [if_pos hcond]
  rfl

end

section
variable {s : State} {slot : Nat} {j : Job}

theorem batchAt_boundary (s : State) (slot : Nat) (j : Job) : (s.boundary slot j).batchAt slot = some (j.boundaries + 1, []) := by
  refine (batchAt_foldl slot (fun s i => batchAt_raise ..) _ _).trans ?_
  rw [State.batchAt, job_setJob, if_pos rfl]
  rfl

/-- In a replay job or a large cast, the one tensor that asked is raised by one. -/
theorem rung_boundary {i : Nat} {x : Tensor} {f : EFmt} (htrig : j.trig = [i]) (hkind : j.replay = true ∨ j.large = true)
    (hx : j.tensor i = some x) (hfb : x.fb ≠ 0) (hf : eFmtOf (j.recipeAt i).fmt = some f) (hlt : j.rung i < lastRung f) :
    (((s.boundary slot j).stormRule slot).job slot).map (·.rung i) = some (j.rung i + 1) := by
  let j1 : Job := { j with boundaries := j.boundaries + 1, trig := [] }
  have hset : (s.setJob slot j1).job slot = some j1 := by rw [job_setJob, if_pos rfl]
  have hraise : s.boundary slot j = (s.setJob slot j1).raise slot i (j1.rung i + 1) := by
    rw [State.boundary, htrig]
    rfl
  have hjob := job_raise (s.setJob slot j1) slot hset i (j1.rung i + 1)
  rw [hraise, stormRule_of_none _ slot hjob (by split <;> exact hkind)]
  exact rung_raise hset hx hfb hf hlt

theorem jobState_stopJob (hslot : slot < 4) (cause unit : Nat) : (s.stopJob slot cause unit).jf slot Reg.jobState = 4 := by
  have hheld : ∀ k < 4, (Reg.jobState.plus (0x100 * k)).held ∧ (Reg.jobState.plus (0x100 * k)).off ∉ recordRegs := by decide +kernel
  rw [State.jf, State.stopJob, State.fld_event _ _ _ _ _ (hheld slot hslot).2, State.setJf, if_pos hslot,
    State.fld_setF _ _ (hheld slot hslot).1]
  rfl

theorem noted_stopJob (hv : s.pins.vsb = true) (cause unit : Nat) :
    Noted (s.stopJob slot cause unit) Ev.jobStopped UId.stageManager [cause, unit] := by
  refine State.noted_event _ _ _ _ _ ?_
  rw [State.setJf]
  split
  · exact (congrArg (·.vsb) (State.setF_pins ..)).trans hv
  · exact hv

end

/-- Settles O33: what follows the opening of an attempt keeps it open, and a raise at a boundary changes rungs alone. -/
theorem attemptsOpenAndAreBounded : Obligations.AttemptsOpenAndAreBounded := by
  intro s slot j hslot hj
  refine ⟨fun hopen => ?_, fun hopen hlast hmb hdone => ?_, fun hst hopen hmax => ?_⟩
  · have hat := openAt_openAttempt s.quiet slot j
    rw [State.openAt, Option.map_eq_some_iff] at hat
    obtain ⟨j', hj', hattempt⟩ := hat
    obtain ⟨hisOpen, hepoch⟩ := Prod.ext_iff.1 hattempt
    have hexec := exec_attemptOpen hslot hj hopen
    generalize s.quiet.openAttempt slot j = u at hexec hj'
    refine ⟨_, hexec, ?_, ?_⟩
    · exact (congrArg (Option.map Job.isOpen) hj').trans (congrArg some hisOpen)
    · exact (congrArg (Option.map Job.epoch) hj').trans (congrArg some hepoch)
  · have hat := (batchAt_stormRule (s.quiet.boundary slot j) slot).trans (batchAt_boundary s.quiet slot j)
    rw [State.batchAt, Option.map_eq_some_iff] at hat
    obtain ⟨j', hj', hbatch⟩ := hat
    obtain ⟨hboundaries, htrigs⟩ := Prod.ext_iff.1 hbatch
    have hexec := exec_microBatchBoundary hslot hj hopen hlast hmb hdone
    have hrung := @rung_boundary s.quiet slot j
    generalize (s.quiet.boundary slot j).stormRule slot = u at hexec hj' hrung
    refine ⟨_, hexec, ?_, ?_, fun i x f htrig hkind hx hfb hf hlt => hrung htrig hkind hx hfb hf hlt⟩
    · exact (congrArg (Option.map Job.boundaries) hj').trans (congrArg some hboundaries)
    · exact (congrArg (Option.map Job.trig) hj').trans (congrArg some htrigs)
  · exact ⟨_, exec_maxAttemptsReached hslot hj hst hopen hmax, jobState_stopJob hslot _ _, (stopJob_touch ..).jobs rfl,
      fun hv => noted_stopJob (s := s.quiet) hv _ _⟩

end Sys2Proof.Machine

namespace Sys2Proof.Machine

open Sys2Proof

/-! ### FILL (R220 to R223) -/

section
variable {s : State} {i e slot : Nat} {o : OpSlot} {j : Job} {bs out : List Byte} {x : Tensor}

/-- A waiting FILL of its descriptor's kind, on an engine of its phase, is carried out. -/
theorem State.withFill_waits (hw : s.jobWaits i cFill o slot j) (hact : s.engSt e = US.active)
    (hphase : s.inMatinee e = (o.cue.phase == phEval)) (hbs : j.draw[o.cue.op 36 3]? = some bs) (hcheck : drawCheck bs = 0)
    (hx : j.tensor (drawOf bs).outRef = some x) {kind : Nat} (hkind : (drawOf bs).kind = kind)
    (f : OpSlot → Nat → Job → DrawDesc → Tensor → State) : s.quiet.withFill i e kind f = f o slot j (drawOf bs) x := by
  have hact' : s.quiet.engSt e = US.active := hact
  have hphase' : s.quiet.inMatinee e = (o.cue.phase == phEval) := hphase
  simp only [State.withFill, State.withOp_waits hw.1, State.withJob_waits hw, hbs, hcheck, hx, hkind, hact', hphase', ne_eq, not_true,
    or_self, if_false]

/-- Bytes that fit their tensor, in HBM that serves them, are counted, stored and complete the FILL. -/
theorem State.putFill_served (hlen : out.length ≤ x.bytes) (h : s.outerServes .hbm x.base out.length) (n per : Nat) (free : Bool) :
    s.quiet.putFill i e slot x out n per free = ((s.quiet.noteFill slot e n per free).storeBytes x.base out).opDone i 0 0 := by
  have hserves := (noteFill_touch s.quiet slot e n per free).serves ⟨rfl, rfl, rfl, rfl⟩ h
  simp only [State.putFill, Nat.not_lt.2 hlen, if_false, State.devWrite_served _ hserves]
  rfl

end

/-- From s to t these bytes have been stored at a, no other byte has changed, and the operation of slot i has been carried out. -/
structure OpStored (s t : State) (i : Nat) (o : OpSlot) (a : Nat) (out : List Byte) : Prop where
  bytes : t.bytes a out.length = out
  ran : t.opRan i o 0
  kept : BytesKept (fun b => a ≤ b ∧ b < a + out.length) s t

/-- Bytes stored in HBM once the work before has changed neither memory nor operations. -/
theorem stored_opDone {M : Nat} {s u : State} {i a : Nat} {o : OpSlot} {out : List Byte} (h : Touch M s u)
    (hM : M.testBit 0 = false ∧ M.testBit 36 = false ∧ M.testBit 6 = false) (hfind : SMap.find s.ops i = some o) (h0 : o.status = 0)
    (ha : hbmBase ≤ a) : OpStored s ((u.storeBytes a out).opDone i 0 0) i o a out := by
  have hdone (b : Nat) : ((u.storeBytes a out).opDone i 0 0).byte b = (u.storeBytes a out).byte b :=
    (opDone_touch ..).byte_eq ⟨rfl, rfl⟩ b
  refine ⟨?_, State.opRan_opDone ?_ h0 0, fun b hb => ?_⟩
  · rw [State.bytes_congr fun b _ _ => hdone b, State.bytes_storeBytes ha]
  · rw [(storeBytes_touch ..).ops rfl, h.ops hM.2.2, hfind]
  · rw [hdone, State.byte_storeBytes_other ha hb, h.byte_eq ⟨hM.1, hM.2.1⟩]

/-- A FILL that puts bytes that fit their tensor. -/
theorem exec_fill {s : State} {i e slot n per : Nat} {o : OpSlot} {out : List Byte} {x : Tensor} {free : Bool} {c : Instr}
    {f : State → State} (hexec : exec c s = run (opOk i && engOk e) f s) (hput : f s.quiet = s.quiet.putFill i e slot x out n per free)
    (hw : s.opWaits i cFill o) (he : e < 144) (hlen : out.length ≤ x.bytes) (hserves : s.outerServes .hbm x.base out.length) :
    ∃ t, exec c s = .next t ∧ OpStored s t i o x.base out := by
  obtain ⟨hi, hfind, -, -, h0⟩ := hw
  have hnote := noteFill_touch s.quiet slot e n per free
  have hstored := stored_opDone (out := out) hnote ⟨rfl, rfl, rfl⟩ hfind h0 (State.hbm_of_serves hserves).1
  refine ⟨_, hexec.trans (run_to ?_ ?_ ?_), { hstored with }⟩
  · rw [Bool.and_eq_true]
    exact ⟨decide_eq_true hi, decide_eq_true he⟩
  · rw [hput, State.putFill_served hlen hserves]
  · rw [(opDone_touch ..).pending, (storeBytes_touch ..).pending, hnote.pending]

/-- Past the banks a store clears voids, puts its bytes and marks what it makes dirty (R304, R417). -/
theorem State.storeBytes_outer {s : State} {a : Nat} (bs : List Byte) (ha : hbmBase ≤ a) :
    s.storeBytes a bs = ((s.clearVoids a bs.length).putBytes a bs).markDirty a bs.length := by
  rw [hbmBase] at ha
  rw [State.storeBytes, if_neg (by omega)]

/-! ### MOVE into a wide format (R22, R60) -/

section
variable {s : State} {i m slot : Nat} {o : OpSlot} {j : Job} {src dst : Tensor} {vals : List Val}

/-- Elements written into an F32 or W16 tensor lie one after the other. -/
theorem State.putWide_served (rq : Requester) {k : Nat} (p mode : Nat) (vals : List Val) (hfmt : dst.fmt = fmtF32 ∨ dst.fmt = 0x10)
    (hk : k = if dst.fmt = fmtF32 then 4 else 2)
    (h : s.outerServes .hbm (dst.base + k * p) (vals.flatMap fun v => leBytes k (wideCode dst.fmt mode v)).length) :
    s.putWide rq dst p mode vals
      = (0, false, s.storeBytes (dst.base + k * p) (vals.flatMap fun v => leBytes k (wideCode dst.fmt mode v))) := by
  have hwrite : dst.wideWrites p (vals.map (wideCode dst.fmt mode))
      = [(dst.base + k * p, vals.flatMap fun v => leBytes k (wideCode dst.fmt mode v))] := by
    rcases hfmt with hfmt | hfmt <;> simp [Tensor.wideWrites, hfmt, hk, fmtF32, fmtK40, List.flatMap_map]
  have hi32 : dst.fmt ≠ fmtI32 := by rcases hfmt with hfmt | hfmt <;> rw [hfmt] <;> decide
  rw [State.putWide, if_neg hi32, hwrite, State.devWrites_served rq (by simpa using h)]
  rfl

/-- A MOVE from a wide tensor into an F32 or W16 tensor whose elements read. -/
theorem exec_move {k : Nat} {out : List Byte} (hw : s.jobWaits i cMove o slot j) (hm : m < 64)
    (hsrc : j.tensor (o.cue.op 36 3) = some src) (hdst : j.tensor (o.cue.op 39 3) = some dst) (hwide : src.scaled = false)
    (hplain : dst.scaled = false) (hfmt : dst.fmt = fmtF32 ∨ dst.fmt = 0x10)
    (hcheck : (j.viewOf o).moveCheck o.cue src dst 0 = (0, 0xFFFF)) (hn : 0 < o.cue.op 53 5)
    (hread : s.quiet.readVals ⟨3, m, some slot⟩ src (o.cue.op 43 5) (o.cue.op 53 5) = (0, vals, false, s.quiet))
    (hk : k = if dst.fmt = fmtF32 then 4 else 2) (hout : out = vals.flatMap fun v => leBytes k (wideCode dst.fmt (o.cue.op 42 1) v))
    (hserves : s.outerServes .hbm (dst.base + k * o.cue.op 48 5) out.length) :
    exec (.move i m) s = .next ((s.quiet.storeBytes (dst.base + k * o.cue.op 48 5) out).opDone i 0 0) := by
  subst hout
  have hsrc' : (j.viewOf o).tensor (o.cue.op 36 3) = some src := hsrc
  have hdst' : (j.viewOf o).tensor (o.cue.op 39 3) = some dst := hdst
  have hfmt0 : (qrecOf []).fmt = 0 := rfl
  have ha64 : dst.fmt ≠ fmtA64 := by rcases hfmt with hfmt | hfmt <;> rw [hfmt] <;> decide
  have hput := State.putWide_served (s := s.quiet) ⟨3, m, some slot⟩ (o.cue.op 48 5) (o.cue.op 42 1) vals hfmt hk hserves
  change execMove i m s = _
  refine run_to ?_ ?_ ?_
  · rw [Bool.and_eq_true]
    exact ⟨decide_eq_true hw.1.1, decide_eq_true hm⟩
  · simp only [State.withOp_waits hw.1, State.withJob_waits hw, hsrc', hdst', hwide, hfmt0, hcheck, Nat.pos_iff_ne_zero.1 hn,
      Bool.false_eq_true, not_true, ne_eq, State.doMove, ha64, false_and, and_false, if_false, State.moveToOther, hread, hplain, hput]
    rfl
  · rw [(opDone_touch ..).pending, (storeBytes_touch ..).pending]

end

/-- Settles O25: HBM serves the bytes of every fill and move, so they are stored as drawn or converted, and what is counted besides leaves
memory. -/
theorem fillsAndMovesStoreTheirElements : Obligations.FillsAndMovesStoreTheirElements := by
  refine ⟨?_, ?_⟩
  · intro s i e slot o j bs x hw he hact hphase hbs hcheck d hx key block stores
    have hlane (k : Nat) : laneBefore k 1 = k / 256 := Nat.mul_one _
    have hfill {c : Instr} {kind n per : Nat} {free : Bool} {out : List Byte}
        {f : State → OpSlot → Nat → Job → DrawDesc → Tensor → State}
        (hexec : exec c s = run (opOk i && engOk e) (fun s => s.withFill i e kind (f s)) s) (hkind : d.kind = kind)
        (hput : f s.quiet o slot j d x = s.quiet.putFill i e slot x out n per free) : stores c out := by
      intro hlen hserves
      have hstart := (State.withFill_waits hw hact hphase hbs hcheck hx hkind (f s.quiet)).trans hput
      obtain ⟨t, hnext, hbytes, hran, hkept⟩ := exec_fill hexec hstart hw.1 he hlen hserves
      exact ⟨t, hnext, hbytes, hran, hkept⟩
    refine ⟨fun hkind => ?raw, fun hkind => ?bernoulli, fun hkind => ?normal,
      fun hkind y cols hy hscaled hfmt helems hrows => ?categorical⟩
    case raw => exact hfill (show execFillRaw i e s = _ from rfl) hkind (by simp only [hlane]; rfl)
    case bernoulli => exact hfill (show execFillBernoulli i e s = _ from rfl) hkind (by simp only [hlane]; rfl)
    case normal => exact hfill (show execFillNormal i e s = _ from rfl) hkind (by simp only [hlane, List.flatMap_map]; rfl)
    case categorical =>
      have hfits : ¬(y.scaled = true ∨ (y.fmt ≠ fmtF32 ∧ y.fmt ≠ 0x10) ∨ y.elems < d.count * d.paramB) := by
        rw [hscaled]
        rintro (hs | ⟨hf, hw16⟩ | hlt)
        · cases hs
        · exact hfmt.elim hf hw16
        · exact Nat.not_lt.2 helems hlt
      have hblock : s.quiet.fillBlock (s.quiet.drawKey j d o.cue.step) d o.cue e = block := rfl
      have hwidth (k : Nat) : laneBefore k d.paramB = k / 256 * d.paramB := rfl
      exact hfill (show execFillCategorical i e s = _ from rfl) hkind (by simp only [hy, hfits, if_false, hblock, hwidth, hrows]; rfl)
  · intro s i m slot o j src dst vals hw hm hsrc hdst hwide hplain hfmt hcheck hn hread k a out hserves
    have hstored := stored_opDone (i := i) (out := out) (Touch.refl 0 s.quiet) ⟨rfl, rfl, rfl⟩ hw.1.2.1 hw.1.2.2.2.2
      (State.hbm_of_serves hserves).1
    refine ⟨_, exec_move hw hm hsrc hdst hwide hplain hfmt hcheck hn hread rfl rfl hserves, hstored.bytes, hstored.ran, hstored.kept, ?_⟩
    rw [State.opDone_eq, State.storeBytes_outer out (State.hbm_of_serves hserves).1]
    rfl

end Sys2Proof.Machine

namespace Sys2Proof.Machine

open Sys2Proof

/-! ### Accesses of the far window -/

section
variable {s : State} {a n : Nat}

theorem foldl_min_le (l : List Nat) (b : Nat) : l.foldl min b ≤ b := by
  induction l generalizing b with
  | nil => exact le_refl b
  | cons x l ih => exact (ih _).trans (Nat.min_le_left b x)

/-- At most eight channels of 256 GiB hold the DDR tier (R298, R319). -/
theorem State.ddrSize_le (s : State) : s.ddrSize ≤ 2 ^ 41 := by
  have hchannels : s.activeChannels.length ≤ 8 := List.length_filter_le ..
  have hcapacity := foldl_min_le (s.activeChannels.map fun c => s.fld (Reg.ddrCapacity.plus (0x40 * c))) 16
  unfold State.ddrSize
  extract_lets act caps
  split
  · exact Nat.zero_le _
  · exact (Nat.mul_le_mul_right (2 ^ 34) (Nat.mul_le_mul hchannels hcapacity)).trans (by decide)

/-- What lies in the far window is in no other tier (Table 9.1). -/
theorem State.tierOf_far (ha : farBase ≤ a) (hn : a + n ≤ farEnd) : s.tierOf a n = some .far := by
  have hddr := s.ddrSize_le
  have hbase : farBase = 2 ^ 47 := rfl
  rw [State.tierOf, if_neg (by omega), if_neg (by simp only [hbmEnd]; omega), if_neg (by simp only [ddrBase]; omega), if_pos ⟨ha, hn⟩]

theorem State.far_of_tierOf (h : s.tierOf a n = some .far) : farBase ≤ a ∧ a + n ≤ farEnd := by
  rw [State.tierOf] at h
  split_ifs at h with _ _ _ hfar
  · cases h
  · cases h
  · cases h
  · exact hfar

theorem State.bytes_slice (s : State) {a n k m : Nat} (h : k + m ≤ n) : s.bytes (a + k) m = ((s.bytes a n).drop k).take m := by
  refine List.ext_getElem ?_ fun i hi hi' => ?_
  · rw [List.length_take, List.length_drop, State.length_bytes, State.length_bytes]
    omega
  · simp only [State.bytes, List.getElem_map, List.getElem_range, Nat.add_assoc, List.getElem_take, List.getElem_drop]

theorem State.bytes_of_mem {s t : State} (h : t.mem = s.mem) (a n : Nat) : t.bytes a n = s.bytes a n :=
  State.bytes_congr fun b _ _ => by rw [State.byte, h, State.byte]

end

/-! ### What a path changes as it brings a request and takes the response (R521, R532) -/

/-- SEC_STATUS, MCTP_MSGS and the counts of bytes of the far window. -/
def pathRegs : List Nat := [0x500004, 0x600110, 0x200610, 0x200618]

/-- The fields of SEC_STATUS that a path leaves. -/
def keptStatus : List Fld := [Reg.secAborted, Reg.mbxBusy, Reg.measDone]

/-- From s to t a path has brought or taken bytes, and what the commands of the mailbox act on is as it was. -/
structure Carried (s t : State) : Prop where
  regs : ∀ off, off ∉ pathRegs → t.rd off = s.rd off
  status : ∀ f ∈ keptStatus, t.fld f = s.fld f
  sec : t.sec = s.sec
  rng : t.rng = s.rng
  fov : t.fov = s.fov
  board : t.board = s.board
  pins : t.pins = s.pins
  keys : t.host.ideKeys = s.host.ideKeys
  insecure : t.host.ideInsecure = s.host.ideInsecure

section
variable {s t u : State}

theorem Carried.refl (s : State) : Carried s s := ⟨fun _ _ => rfl, fun _ _ => rfl, rfl, rfl, rfl, rfl, rfl, rfl, rfl⟩

theorem Carried.trans (h : Carried s t) (k : Carried t u) : Carried s u :=
  ⟨fun off ho => (k.regs off ho).trans (h.regs off ho), fun f hf => (k.status f hf).trans (h.status f hf), k.sec.trans h.sec,
    k.rng.trans h.rng, k.fov.trans h.fov, k.board.trans h.board, k.pins.trans h.pins, k.keys.trans h.keys, k.insecure.trans h.insecure⟩

theorem Carried.fld (h : Carried s t) (f : Fld) (hf : f.off ∉ pathRegs) : t.fld f = s.fld f := by
  rw [State.fld, h.regs f.off hf, State.fld]

/-- A field of another register reads as before. -/
theorem State.fld_setF_other (s : State) {f g : Fld} (v : Nat) (h : f.off ≠ g.off) : (s.setF f v).fld g = s.fld g := by
  rw [State.fld, State.rd_setF_other s v h, State.fld]

theorem keptStatus_held : ∀ f ∈ keptStatus, f.held := by decide +kernel

/-- A field of these registers is set that is none of those kept. -/
theorem setF_carried (s : State) {f : Fld} (v : Nat) (hf : f.off ∈ pathRegs)
    (hapart : ∀ g ∈ keptStatus, f.off = g.off → f.hi < g.lo ∨ g.hi < f.lo) : Carried s (s.setF f v) where
  regs off ho := State.rd_setF_other s v (ne_of_mem_of_not_mem hf ho)
  status g hg := by
    by_cases ho : f.off = g.off
    · exact State.fld_setF_apart s v (keptStatus_held g hg) ho (hapart g hg ho)
    · exact State.fld_setF_other s v ho
  sec := State.setF_sec ..
  rng := State.setF_rng ..
  fov := State.setF_fov ..
  board := State.setF_board ..
  pins := State.setF_pins ..
  keys := congrArg HostLink.ideKeys (State.setF_host ..)
  insecure := congrArg HostLink.ideInsecure (State.setF_host ..)

theorem emit_carried (s : State) (o : Out) : Carried s (s.emit o) := ⟨fun _ _ => rfl, fun _ _ => rfl, rfl, rfl, rfl, rfl, rfl, rfl, rfl⟩

theorem storeBytes_carried (s : State) {a : Nat} (bs : List Byte) (ha : hbmBase ≤ a) : Carried s (s.storeBytes a bs) := by
  rw [State.storeBytes_outer bs ha]
  exact ⟨fun _ _ => rfl, fun _ _ => rfl, rfl, rfl, rfl, rfl, rfl, rfl, rfl⟩

/-- An access of the far window goes through while the link is not insecure (R491). -/
theorem State.openFar_secure (h : s.host.ideInsecure = false) (a n : Nat) (write : Bool) :
    ∃ u, s.openFar a n write = (0, u) ∧ Carried s u ∧ u.mem = s.mem := by
  have hcache (l : List Nat) (x : HostLink) : let y := l.foldl (fun (h : HostLink) p => h.touch (p / 4096)) x
      y.ideKeys = x.ideKeys ∧ y.ideInsecure = x.ideInsecure :=
    List.foldlRecOn (motive := fun y : HostLink => y.ideKeys = x.ideKeys ∧ y.ideInsecure = x.ideInsecure) l _ ⟨rfl, rfl⟩
      fun _ hy _ _ => hy
  rw [State.openFar, if_neg (by rw [h]; decide)]
  extract_lets v w
  have hv : Carried s v ∧ v.mem = s.mem := by
    change Carried s (if _ then _ else _) ∧ (if _ then _ else _ : State).mem = _
    split
    · exact ⟨setF_carried s _ (by decide) (by decide), State.setF_mem ..⟩
    · exact ⟨setF_carried s _ (by decide) (by decide), State.setF_mem ..⟩
  have hw : Carried v w ∧ w.mem = v.mem := by
    change Carried v (if _ then _ else _) ∧ (if _ then _ else _ : State).mem = _
    split
    · exact ⟨⟨fun _ _ => rfl, fun _ _ => rfl, rfl, rfl, rfl, rfl, rfl, (hcache _ v.host).1, (hcache _ v.host).2⟩, rfl⟩
    · exact ⟨Carried.refl v, rfl⟩
  exact ⟨_, rfl, (hv.1.trans hw.1).trans (emit_carried w _), hw.2.trans hv.2⟩

theorem State.openRange_far (h : s.host.ideInsecure = false) (rq : Requester) {a n : Nat} (ha : farBase ≤ a) (hn : a + n ≤ farEnd)
    (write add : Bool) : ∃ u, s.openRange rq a n write add = (0, u) ∧ Carried s u ∧ u.mem = s.mem := by
  rw [State.openRange, State.tierOf_far ha hn]
  split
  · exact ⟨s, rfl, Carried.refl s, rfl⟩
  · exact State.openFar_secure h a n write

theorem State.devRead_far (h : s.host.ideInsecure = false) (rq : Requester) {a n : Nat} (ha : farBase ≤ a) (hn : a + n ≤ farEnd) :
    ∃ u, s.devRead rq a n = (0, s.bytes a n, u) ∧ Carried s u ∧ u.mem = s.mem := by
  obtain ⟨u, hopen, hu, hmem⟩ := State.openRange_far h rq ha hn false false
  have hbank : u.tierOf a n ≠ some .bank := by rw [State.tierOf_far ha hn]; decide
  refine ⟨u, ?_, hu, hmem⟩
  simp only [State.devRead, hopen, hbank, if_false, State.bytes_of_mem hmem]
  rfl

theorem State.devWrite_far (h : s.host.ideInsecure = false) (rq : Requester) {a : Nat} {bs : List Byte} (ha : farBase ≤ a)
    (hn : a + bs.length ≤ farEnd) : ∃ u, s.devWrite rq a bs = (0, u) ∧ Carried s u ∧ u.bytes a bs.length = bs := by
  obtain ⟨u, hopen, hu, -⟩ := State.openRange_far h rq ha hn true false
  have hhbm : hbmBase ≤ a := le_trans (by decide) ha
  refine ⟨u.storeBytes a bs, ?_, hu.trans (storeBytes_carried u bs hhbm), State.bytes_storeBytes hhbm⟩
  simp only [State.devWrite, hopen]
  rfl

end

end Sys2Proof.Machine

namespace Sys2Proof.Machine

open Sys2Proof

/-! ### A request and its response (R521, R522) -/

/-- The response to a request, whole. -/
def response (req : List Byte) (st : Nat) (out : List Byte) : List Byte :=
  [1, 2] ++ (req.drop 2).take 1 ++ [0] ++ (req.drop 4).take 4 ++ leBytes 4 out.length ++ leBytes 2 st ++ [0, 0] ++ out

/-- A command of the mailbox leaves the way of its response: its place, its greatest length and the security of the link. -/
structure Replies (s u : State) : Prop where
  place : u.rd Reg.mbxResp = s.rd Reg.mbxResp
  longest : u.rd Reg.mbxRespMax = s.rd Reg.mbxRespMax
  secure : s.host.ideInsecure = false → u.host.ideInsecure = false

section
variable {s u v : State} {p : Path} {req out : List Byte} {runs : List (Nat × Nat × List Byte)} {st : Nat}

theorem Replies.refl (s : State) : Replies s s := ⟨rfl, rfl, id⟩

theorem Replies.trans (h : Replies s u) (k : Replies u v) : Replies s v :=
  ⟨k.place.trans h.place, k.longest.trans h.longest, k.secure ∘ h.secure⟩

theorem Carried.replies (h : Carried s u) : Replies s u :=
  ⟨h.regs _ (by decide), h.regs _ (by decide), h.insecure.trans⟩

theorem Touch.replies {M : Nat} (h : Touch M s u) (hM : M.testBit 17 = false ∧ M.testBit 33 = false) : Replies s u :=
  ⟨h.regs _ hM.2, h.regs _ hM.2, fun hs => by rw [h.host hM.1]; exact hs⟩

theorem State.mbxRespond_of_serve (hbusy : s.fld Reg.mbxBusy = 0) (h : s.mbxServe runs req = (st, out, u)) :
    s.mbxRespond runs req = (response req st out, st, u) := by
  simp only [State.mbxRespond, hbusy, Nat.zero_ne_one, if_false, h]
  rfl

/-- A response is stored where the host wants it, or, cut to what the host allows, where that lies in the far window. -/
theorem State.reply_carried (h : s.host.ideInsecure = false) (rq : Requester) (a : Nat) (bs : List Byte) :
    Carried s (if s.tierOf a bs.length = some .far then s.devWrite rq a bs else (St.address, s)).2 := by
  split
  next hfar =>
    obtain ⟨hlo, hhi⟩ := State.far_of_tierOf hfar
    obtain ⟨t, hwrite, ht, -⟩ := State.devWrite_far h rq hlo hhi
    rw [hwrite]
    exact ht
  next => exact Carried.refl s

end

/-- A response is stored at MBX_RESP and MBX shows it done (R521, R528). -/
def State.putReply (s : State) (resp : List Byte) (st : Nat) : State :=
  let w := if s.tierOf (s.rd Reg.mbxResp) resp.length = some .far then s.devWrite (.manager none) (s.rd Reg.mbxResp) resp
    else (St.address, s)
  (w.2.setF Reg.mbxDone 1).setF Reg.mbxError (b2n (st != 0 || w.1 != 0))

section
variable {s u v : State} {req out : List Byte} {runs : List (Nat × Nat × List Byte)} {st : Nat}

theorem State.putReply_carried (h : s.host.ideInsecure = false) (resp : List Byte) (st : Nat) : Carried s (s.putReply resp st) := by
  unfold State.putReply
  extract_lets w
  exact ((State.reply_carried h ..).trans (setF_carried w.2 1 (by decide) (by decide))).trans
    (setF_carried _ _ (by decide) (by decide))

theorem mbxFields_held : Reg.mbxDone.held ∧ Reg.mbxError.held := by decide +kernel

/-- A response that has its place in the far window stands there. -/
theorem State.putReply_shows (h : s.host.ideInsecure = false) {resp : List Byte} (st : Nat) (ha : farBase ≤ s.rd Reg.mbxResp)
    (hn : s.rd Reg.mbxResp + resp.length ≤ farEnd) : let t := s.putReply resp st
    t.bytes (s.rd Reg.mbxResp) resp.length = resp ∧ t.fld Reg.mbxDone = 1 ∧ t.fld Reg.mbxError = if st = 0 then 0 else 1 := by
  obtain ⟨w, hwrite, -, hbytes⟩ := State.devWrite_far h (.manager none) ha hn
  have heq : s.putReply resp st = (w.setF Reg.mbxDone 1).setF Reg.mbxError (b2n (st != 0)) := by
    simp only [State.putReply, State.tierOf_far ha hn, if_true, hwrite, bne_self_eq_false, Bool.or_false]
  rw [heq]
  refine ⟨?_, ?_, ?_⟩
  · rw [State.bytes_of_mem (State.setF_mem ..), State.bytes_of_mem (State.setF_mem ..), hbytes]
  · rw [State.fld_setF_apart (f := Reg.mbxError) _ _ mbxFields_held.1 rfl (by decide), State.fld_setF _ _ mbxFields_held.1]
    rfl
  · rw [State.fld_setF _ _ mbxFields_held.2]
    by_cases hst : st = 0 <;> simp [hst, b2n, Reg.mbxError]

/-- A write of GO: the request is read, served and answered. -/
theorem State.mbxGo_of_serve (hbusy : s.fld Reg.mbxBusy = 0) (hsecure : s.host.ideInsecure = false)
    (hbytes : s.bytes (s.rd Reg.mbxReq) req.length = req) (hlo : farBase ≤ s.rd Reg.mbxReq)
    (hhi : s.rd Reg.mbxReq + req.length ≤ farEnd) (hlen : 16 + fieldLE req 8 4 = req.length) (hmax : req.length ≤ 65000) :
    ∃ v, Carried s v ∧ v.mem = s.mem ∧ ∀ {runs st out u}, v.mbxServe runs req = (st, out, u) →
      s.mbxGo runs = if u.rd Reg.mbxRespMax < (response req st out).length
        then u.putReply ((response req st out).take 8 ++ leBytes 4 0 ++ leBytes 2 St.length ++ leBytes 2 0) St.length
        else u.putReply (response req st out) st := by
  obtain ⟨s0, hs0⟩ : ∃ s0, s0 = (s.setF Reg.mbxDone 0).setF Reg.mbxError 0 := ⟨_, rfl⟩
  have hc0 : Carried s s0 := by
    rw [hs0]
    exact (setF_carried s 0 (by decide) (by decide)).trans (setF_carried _ 0 (by decide) (by decide))
  have hm0 : s0.mem = s.mem := by rw [hs0, State.setF_mem, State.setF_mem]
  have hreq : s0.rd Reg.mbxReq = s.rd Reg.mbxReq := hc0.regs _ (by decide)
  have hhead : s0.bytes (s.rd Reg.mbxReq) 16 = req.take 16 := by
    have h := s.bytes_slice (a := s.rd Reg.mbxReq) (k := 0) (m := 16) (n := req.length) (by omega)
    rw [Nat.add_zero, List.drop_zero, hbytes] at h
    rw [State.bytes_of_mem hm0, h]
  have hsize : min (2 ^ 16) (fieldLE (req.take 16) 8 4) = req.length - 16 := by
    have h : fieldLE (req.take 16) 8 4 = fieldLE req 8 4 := by simp [fieldLE, List.drop_take, List.take_take]
    rw [h]
    omega
  obtain ⟨v1, hread1, hc1, hm1⟩ := State.devRead_far (hc0.insecure.trans hsecure) (.manager none) hlo (n := 16) (by omega)
  obtain ⟨v, hread, hcv, hmv⟩ := State.devRead_far ((hc0.trans hc1).insecure.trans hsecure) (.manager none)
    (a := s.rd Reg.mbxReq + 16) (n := req.length - 16) (by omega) (by omega)
  have hbody : v1.bytes (s.rd Reg.mbxReq + 16) (req.length - 16) = req.drop 16 := by
    rw [State.bytes_of_mem (hm1.trans hm0), State.bytes_slice s (n := req.length) (by omega), hbytes]
    exact List.take_of_length_le (by rw [List.length_drop])
  have hv := (hc0.trans hc1).trans hcv
  refine ⟨v, hv, (hmv.trans hm1).trans hm0, fun {runs st out u} hserve => ?_⟩
  have hrespond := State.mbxRespond_of_serve ((hv.status Reg.mbxBusy (by decide)).trans hbusy) hserve
  have hfar1 : s0.tierOf (s.rd Reg.mbxReq) 16 = some .far := State.tierOf_far hlo (by omega)
  have hfar : v1.tierOf (s.rd Reg.mbxReq + 16) (req.length - 16) = some .far := State.tierOf_far (by omega) (by omega)
  rw [State.mbxGo, if_neg (by rw [hbusy]; decide)]
  simp only [← hs0, hreq, hfar1, if_true, hread1, hhead, hsize, hfar, hread, hbody, List.take_append_drop, hrespond]
  split <;> rfl

end

end Sys2Proof.Machine

namespace Sys2Proof.Machine

open Sys2Proof

/-! ### A request over any path (R489, R521, R532) -/

/-- What quiets a state carries it. -/
theorem quiet_carried (s : State) : Carried s s.quiet := ⟨fun _ _ => rfl, fun _ _ => rfl, rfl, rfl, rfl, rfl, rfl, rfl, rfl⟩

theorem Carried.pending {s t : State} (h : Carried s t) (l : List Instr) : Carried s { t with pending := l } := { h with }

section
variable {s : State} {p : Path} {req : List Byte} {code : Nat}

theorem State.pathCommand_of_asked (h : s.asked p req) (hlen : 16 ≤ req.length) : s.quiet.pathCommand p = fieldLE req 2 1 := by
  obtain ⟨-, -, hpath⟩ := h
  cases p with
  | mailbox =>
    obtain ⟨-, -, hbytes, -⟩ := hpath
    have hslice := s.bytes_slice (a := s.rd Reg.mbxReq) (k := 2) (m := 1) (n := req.length) (by omega)
    rw [hbytes] at hslice
    exact congrArg leNat hslice
  | doe r => rw [← hpath.1]; rfl
  | mctp tag r => rw [← hpath.1]; rfl

theorem pathOk_of_asked (h : s.asked p req) : pathOk p = true := by
  obtain ⟨-, -, hpath⟩ := h
  cases p with
  | mailbox => rfl
  | doe r => rfl
  | mctp tag r => exact decide_eq_true hpath.2.1

/-- A request that comes in is served by a device whose registers and bytes are as they were, and its response goes out. -/
theorem State.mbxRow_of_asked (h : s.asked p req) (hlen : 16 + fieldLE req 8 4 = req.length) (hcode : fieldLE req 2 1 = code) :
    ∃ v, Carried s v ∧ v.mem = s.mem ∧ ∀ {runs st out u}, v.mbxServe runs req = (st, out, u) → Replies v u →
      s.answered (s.quiet.mbxRow code p runs) p req st out ∧ Carried u (s.quiet.mbxRow code p runs) := by
  have hrow (runs) : s.quiet.mbxRow code p runs = s.quiet.request p runs := by
    rw [State.mbxRow, if_pos ((State.pathCommand_of_asked h (by omega)).trans hcode)]
  simp only [hrow]
  obtain ⟨hbusy, hmax, hpath⟩ := h
  cases p with
  | mailbox =>
    obtain ⟨hup, hsecure, hbytes, hlo, hhi, hresp, hend⟩ := hpath
    obtain ⟨v, hv, hmem, hgo⟩ := State.mbxGo_of_serve (s := s.quiet) hbusy hsecure hbytes hlo hhi hlen hmax
    have hv' := (quiet_carried s).trans hv
    refine ⟨v, hv', hmem, fun {runs st out u} hserve hrep => ?_⟩
    have hrequest : s.quiet.request .mailbox runs = s.quiet.mbxGo runs := if_pos hup
    have hu := hrep.secure (hv'.insecure.trans hsecure)
    have hplace : u.rd Reg.mbxResp = s.rd Reg.mbxResp := hrep.place.trans (hv'.regs _ (by decide))
    have hlongest : u.rd Reg.mbxRespMax = s.rd Reg.mbxRespMax := hrep.longest.trans (hv'.regs _ (by decide))
    rw [hrequest, hgo hserve, hlongest]
    split
    next hlong => exact ⟨fun hshort => absurd hlong (Nat.not_lt.2 hshort), State.putReply_carried hu _ _⟩
    next hshort =>
      have hfits : (response req st out).length ≤ s.rd Reg.mbxRespMax := Nat.not_lt.1 hshort
      refine ⟨fun _ => ?_, State.putReply_carried hu _ _⟩
      have hshown := State.putReply_shows hu (resp := response req st out) st (by rw [hplace]; exact hresp)
        (by rw [hplace]; exact (Nat.add_le_add_left hfits _).trans hend)
      rw [hplace] at hshown
      exact hshown
  | doe r =>
    obtain ⟨rfl, hup⟩ := hpath
    refine ⟨s.quiet, quiet_carried s, rfl, fun {runs st out u} hserve _ => ?_⟩
    have hrequest : s.quiet.request (.doe r) runs = u.emit (.response (doeObject 0x1F3D 0x01 (response r st out))) := by
      have hup' : s.quiet.mailboxUp = true := hup
      simp only [State.request, hup', State.mbxRespond_of_serve (s := s.quiet) hbusy hserve]
      rw [if_neg (by decide), if_neg (by omega)]
    rw [hrequest]
    exact ⟨List.getLast?_concat, emit_carried u _⟩
  | mctp tag r =>
    obtain ⟨rfl, -, hup, hrom⟩ := hpath
    have hv : Carried s (s.quiet.inc Reg.mctpMsgs) := (quiet_carried s).trans (setF_carried s.quiet _ (by decide) (by decide))
    refine ⟨s.quiet.inc Reg.mctpMsgs, hv, State.setF_mem .., fun {runs st out u} hserve _ => ?_⟩
    have hrom' : (s.quiet.inc Reg.mctpMsgs).fld Reg.romOnly = 0 := (hv.fld Reg.romOnly (by decide)).trans hrom
    have hrequest : s.quiet.request (.mctp tag r) runs
        = u.emit (.response (leBytes 1 1 ++ leBytes 1 7 ++ leBytes 2 tag ++ leBytes 1 0 ++ response r st out)) := by
      have hup' : s.quiet.controllerUp = true := hup
      have hserve' := State.mbxRespond_of_serve ((hv.status Reg.mbxBusy (by decide)).trans hbusy) hserve
      simp only [State.request, State.mgmt, hup', hserve', hrom']
      rfl
    rw [hrequest]
    exact ⟨List.getLast?_concat, emit_carried u _⟩

end

end Sys2Proof.Machine

namespace Sys2Proof.Machine

open Sys2Proof

/-! ### The shape of a request (R521) -/

theorem leNat_lt (bs : List Byte) : leNat bs < 256 ^ bs.length := by
  induction bs with
  | nil => exact Nat.one_pos
  | cons b bs ih =>
    have hb := b.isLt
    rw [leNat, List.length_cons, Nat.pow_succ]
    omega

theorem fieldLE_lt (bs : List Byte) (o k : Nat) : fieldLE bs o k < 256 ^ k :=
  (leNat_lt _).trans_le (Nat.pow_le_pow_right (by decide) (List.length_take_le ..))

section
variable {s v : State} {p : Path} {id code : Nat} {body : List Byte}

theorem length_mailboxRequest (code id : Nat) (body : List Byte) : (mailboxRequest code id body).length = 16 + body.length := by
  simp only [mailboxRequest, List.length_append, length_leBytes, List.length_cons, List.length_nil]

theorem fieldLE_mailboxRequest_code (hcode : code < 256) : fieldLE (mailboxRequest code id body) 2 1 = code :=
  (leNat_leBytes 1 code).trans (Nat.mod_eq_of_lt hcode)

theorem fieldLE_mailboxRequest_id (hid : id < 2 ^ 32) : fieldLE ((mailboxRequest code id body).take 16) 4 4 = id :=
  (leNat_leBytes 4 id).trans (Nat.mod_eq_of_lt hid)

theorem fieldLE_mailboxRequest_length (hbody : body.length < 2 ^ 32) : fieldLE (mailboxRequest code id body) 8 4 = body.length :=
  (leNat_leBytes 4 body.length).trans (Nat.mod_eq_of_lt hbody)

theorem fieldLE_mailboxRequest_head_code (hcode : code < 256) : fieldLE ((mailboxRequest code id body).take 16) 2 1 = code :=
  (leNat_leBytes 1 code).trans (Nat.mod_eq_of_lt hcode)

/-- A well-formed request whose command is accepted now, with a body of its length, runs its command (R521, R522). -/
theorem State.mbxServe_request {fits : Nat → Bool} (hcode : code < 256) (hbody : body.length < 2 ^ 32)
    (hform : s.mbxForm code = some (true, fits)) (hfits : fits body.length = true) (runs : List (Nat × Nat × List Byte)) :
    s.mbxServe runs (mailboxRequest code id body) = s.mbxRun runs code ((mailboxRequest code id body).take 16) body := by
  have hlen : ¬ (mailboxRequest code id body).length < 16 := by
    rw [length_mailboxRequest]
    omega
  have hhead : fieldLE ((mailboxRequest code id body).take 16) 2 1 = code := fieldLE_mailboxRequest_head_code hcode
  have hsize : fieldLE ((mailboxRequest code id body).take 16) 8 4 = body.length :=
    (leNat_leBytes 4 body.length).trans (Nat.mod_eq_of_lt hbody)
  have hversion : fieldLE ((mailboxRequest code id body).take 16) 0 1 = 1 := rfl
  have hformat : fieldLE ((mailboxRequest code id body).take 16) 1 1 = 2 := rfl
  have hreserved : fieldLE ((mailboxRequest code id body).take 16) 3 1 = 0 ∧ fieldLE ((mailboxRequest code id body).take 16) 12 4 = 0 :=
    ⟨rfl, rfl⟩
  have hrest : (mailboxRequest code id body).drop 16 = body := rfl
  simp only [State.mbxServe, hlen, hversion, hformat, hreserved, hhead, hrest, hform, hsize, hfits]
  simp

/-- A command of the mailbox that is accepted now runs on a device as it was, and its answer goes out. -/
theorem exec_request {c : Instr} (hexec : exec c s = run (pathOk p) (fun s => s.mbxRow code p) s) (hcode : code < 256)
    (hask : s.asked p (mailboxRequest code id body)) : ∃ v, Carried s v ∧ v.mem = s.mem ∧
      ∀ {fits st out u}, v.mbxForm code = some (true, fits) → fits body.length = true →
        v.mbxRun [] code ((mailboxRequest code id body).take 16) body = (st, out, u) → Replies v u →
        ∃ t, exec c s = .next t ∧ s.answered t p (mailboxRequest code id body) st out ∧ Carried u t := by
  have hlen := length_mailboxRequest code id body
  have hbody : body.length < 2 ^ 32 := by
    have := hask.2.1
    omega
  obtain ⟨v, hv, hmem, hrow⟩ := State.mbxRow_of_asked hask
    (by rw [fieldLE_mailboxRequest_length hbody, hlen]) (fieldLE_mailboxRequest_code hcode)
  refine ⟨v, hv, hmem, fun {fits st out u} hform hfits hrun hrep => ?_⟩
  obtain ⟨hans, hu⟩ := hrow ((State.mbxServe_request hcode hbody hform hfits []).trans hrun) hrep
  exact ⟨_, hexec.trans (run_next _ s (pathOk_of_asked hask)), hans, hu.pending s.pending⟩

end

end Sys2Proof.Machine

namespace Sys2Proof.Machine

open Sys2Proof

/-! ### An accepted command (R518) -/

section
variable {s t u v : State} {head body : List Byte} {id : Nat}

theorem Noted.of_board {code unit : Nat} {args : List Nat} (h : Noted s code unit args) (hb : t.board = s.board) :
    Noted t code unit args := by
  rw [Noted, hb]
  exact h

theorem State.nor_logEntry (s : State) (e : List Byte) : (s.logEntry e).sec.nor = s.sec.nor := by rw [State.logEntry]

/-- The runtime log extends M6, and no register below the measurements changes. -/
theorem State.rd_logEntry (s : State) (e : List Byte) {off : Nat} (ho : off < Reg.measBase) : (s.logEntry e).rd off = s.rd off := by
  have hmeas : (s.extendMeas 6 e).rd off = s.rd off := by
    rw [State.extendMeas, State.setMeas, if_pos (by decide)]
    refine List.foldlRecOn (motive := fun t : State => t.rd off = s.rd off) _ _ rfl fun t ht i _ => ?_
    rw [State.rd_wr_other _ _ (by rw [Reg.measBase] at ho ⊢; omega), ht]
  rw [State.logEntry]
  exact hmeas

theorem accepted_replies (s : State) (head body : List Byte) (id : Nat) : Replies s (s.accepted head body id) := by
  have hevent (code unit : Nat) (args : List Nat) : Replies s (s.event code unit args) := (event_touch ..).replies ⟨rfl, rfl⟩
  unfold State.accepted
  extract_lets code digest w
  split
  · exact (hevent ..).trans ⟨State.rd_logEntry _ _ (by decide), State.rd_logEntry _ _ (by decide),
      fun h => by rw [(logEntry_touch ..).host rfl]; exact h⟩
  · exact hevent ..

/-- The runtime log is all that an accepted command changes of the security controller by itself. -/
theorem State.nor_accepted (s : State) (head body : List Byte) (id : Nat) : (s.accepted head body id).sec.nor = s.sec.nor := by
  have hevent (code unit : Nat) (args : List Nat) : (s.event code unit args).sec = s.sec := (event_touch ..).sec rfl
  unfold State.accepted
  extract_lets code digest w
  split
  · exact (State.nor_logEntry w _).trans (congrArg Sec.nor (hevent ..))
  · exact congrArg Sec.nor (hevent ..)

theorem noted_accepted (hv : s.pins.vsb = true) (body : List Byte) (id : Nat) :
    Noted (s.accepted head body id) Ev.mailboxAccepted UId.security [fieldLE head 2 1, fieldLE head 4 4] := by
  have hevent := s.noted_event Ev.mailboxAccepted UId.security [fieldLE head 2 1, fieldLE head 4 4] 0 hv
  unfold State.accepted
  extract_lets code digest w
  split
  · exact hevent.of_board ((logEntry_touch ..).board rfl).1
  · exact hevent

end

/-! ### What the commands read of a device that a path has brought a request to -/

section
variable {s v : State} (h : Carried s v)
include h

theorem Carried.allIdle : v.allIdle = s.allIdle := by
  have hjob : ∀ j ∈ List.range 4, (Reg.jobState.plus (0x100 * j)).off ∉ pathRegs := by decide
  rw [State.allIdle, State.allIdle, Bool.eq_iff_iff, List.all_eq_true, List.all_eq_true]
  refine forall₂_congr fun j hj => ?_
  rw [State.jf, h.fld _ (hjob j hj), State.jf]

theorem Carried.served : v.served = s.served := by
  rw [State.served, h.fld Reg.lastStep (by decide), h.status Reg.secAborted (by decide), State.served]

theorem Carried.runningImage : v.runningImage = s.runningImage := by
  rw [State.runningImage, h.fld Reg.romOnly (by decide), h.sec, State.runningImage]

theorem Carried.signedBy (kind : Nat) (digest sig : List Byte) : v.signedBy kind digest sig = s.signedBy kind digest sig := by
  rw [State.signedBy, h.sec, State.signedBy]

theorem Carried.secretOk (head body : List Byte) : v.secretOk head body = s.secretOk head body := by
  have hbinding : v.binding = s.binding := by
    rw [State.binding, h.regs Reg.serialHash (by decide), h.fld Reg.bootCount (by decide), State.binding]
  simp only [State.secretOk, h.signedBy, hbinding]

end

/-! ### Changes of the configuration memory depend on it alone (R494) -/

section
variable {s v : State} (h : v.sec = s.sec)
include h

theorem norByte_of_sec (a : Nat) : v.norByte a = s.norByte a := by rw [State.norByte, h, State.norByte]

theorem norBytes_of_sec (a n : Nat) : v.norBytes a n = s.norBytes a n := List.map_congr_left fun i _ => norByte_of_sec h (a + i)

theorem norErase_sec (a n : Nat) : (v.norErase a n).sec = (s.norErase a n).sec := by simp only [State.norErase, h]

theorem norProgram_sec (a : Nat) (bs : List Byte) : (v.norProgram a bs).sec = (s.norProgram a bs).sec := by
  simp only [State.norProgram, norByte_of_sec h, h]

theorem imageAt_of_sec (i : Nat) : v.imageAt i = s.imageAt i := funext fun _ => norByte_of_sec h _

theorem headerCopy_of_sec : v.headerCopy = s.headerCopy := by
  simp only [State.headerCopy, State.headerOk, norBytes_of_sec h]

theorem header_of_sec : v.header = s.header := by simp only [State.header, headerCopy_of_sec h, norBytes_of_sec h]

theorem lastRecord_of_sec : v.lastRecord = s.lastRecord := by
  rw [State.lastRecord, State.lastRecord, show v.ledger = s.ledger from funext fun _ => norBytes_of_sec h ..]

theorem norWrite_sec (a n : Nat) (bs : List Byte) : (v.norWrite a n bs).sec = (s.norWrite a n bs).sec :=
  norProgram_sec (norErase_sec h a n) a bs

theorem writeHeader_sec (preferred : Nat) : (v.writeHeader preferred).sec = (s.writeHeader preferred).sec := by
  rw [State.writeHeader, State.writeHeader, headerCopy_of_sec h, header_of_sec h]
  split
  · exact norWrite_sec h ..
  · exact h

theorem openRecord_of_sec : v.openRecord.1 = s.openRecord.1 ∧ v.openRecord.2.sec = s.openRecord.2.sec := by
  have herase (p : Nat) : (if p % 16 = 0 then v.norErase (0x10000 + 256 * p) 4096 else v).sec
      = (if p % 16 = 0 then s.norErase (0x10000 + 256 * p) 4096 else s).sec := by
    split
    · exact norErase_sec h ..
    · exact h
  rw [State.openRecord, State.openRecord, lastRecord_of_sec h]
  exact ⟨rfl, herase _⟩

theorem clearRecord_sec : v.clearRecord.sec = s.clearRecord.sec := by
  have hnext : v.nextBoot = s.nextBoot := by
    rw [State.nextBoot, State.nextBoot, lastRecord_of_sec h, show v.ledger = s.ledger from funext fun _ => norBytes_of_sec h ..]
  obtain ⟨hplace, hopen⟩ := openRecord_of_sec h
  have hclear (t : State) : t.clearRecord = t.openRecord.2.norProgram (0x10000 + 256 * t.openRecord.1)
      (ledgerHead 5 t.openRecord.2.sec.boot.image 0 t.nextBoot 0 0 0 ((t.header.map (·.2)).getD 0xFFFFFFFF)) := rfl
  rw [hclear, hclear, hnext, header_of_sec h, hplace, hopen]
  exact norProgram_sec hopen ..

end

end Sys2Proof.Machine

namespace Sys2Proof.Machine

open Sys2Proof

/-! ### The place in the cast stays while the ports say HELLO (R362, R376) -/

/-- The registers of the device's own place: its coordinate and its cast. -/
def placeRegs : List Nat := [0x160008, 0x160010]

/-- From s to t neither the device's place nor the donor of its fill has changed. -/
structure Seated (s t : State) : Prop where
  regs : ∀ off ∈ placeRegs, t.rd off = s.rd off
  donor : t.fov.donor = s.fov.donor

section
variable {s t u : State}

theorem Seated.refl (s : State) : Seated s s := ⟨fun _ _ => rfl, rfl⟩

theorem Seated.trans (h : Seated s t) (k : Seated t u) : Seated s u :=
  ⟨fun off ho => (k.regs off ho).trans (h.regs off ho), k.donor.trans h.donor⟩

theorem Seated.ite {c : Prop} [Decidable c] (h : Seated s t) (k : Seated s u) : Seated s (if c then t else u) := by
  split
  · exact h
  · exact k

theorem Seated.foldl {α : Type} {f : State → α → State} (hf : ∀ t a, Seated t (f t a)) (l : List α) (s : State) : Seated s (l.foldl f s) :=
  List.foldlRecOn (motive := Seated s) l f (Seated.refl s) fun t ht a _ => ht.trans (hf t a)

theorem Touch.seated {M : Nat} (h : Touch M s t) (hM : M.testBit 28 = false ∧ M.testBit 16 = false) : Seated s t := by
  have harea : ∀ off ∈ placeRegs, regArea off = 28 := by decide
  exact ⟨fun off ho => h.regs off (harea off ho ▸ hM.1), congrArg _ (h.fov hM.2)⟩

theorem Seated.to {M : Nat} (h : Seated s t) (k : Touch M t u) (hM : M.testBit 28 = false ∧ M.testBit 16 = false) : Seated s u :=
  h.trans (k.seated hM)

theorem Seated.fld (h : Seated s t) {f : Fld} (hf : f.off ∈ placeRegs) : t.fld f = s.fld f := by
  rw [State.fld, h.regs f.off hf, State.fld]

theorem setF_seated (s : State) {f : Fld} (v : Nat) (hf : f.off ∉ placeRegs) : Seated s (s.setF f v) :=
  ⟨fun _ ho => State.rd_setF_other s v (ne_of_mem_of_not_mem ho hf).symm, congrArg _ (State.setF_fov ..)⟩

/-- The registers of a port's window are no device's place. -/
theorem setPf_seated (s : State) (p : Nat) {f : Fld} (v : Nat) (hf : f.off < 0x110000) : Seated s (s.setPf p f v) := by
  unfold State.setPf
  split
  next hp =>
    refine setF_seated s v fun h => ?_
    simp only [placeRegs, Fld.plus, List.mem_cons, List.not_mem_nil, or_false] at h
    omega
  next => exact Seated.refl s

variable (s)

theorem castRefresh_seated : Seated s s.castRefresh := by
  unfold State.castRefresh
  extract_lets st ins gone broken src w
  have hw : Seated s w := ⟨fun _ _ => rfl, rfl⟩
  exact hw.trans (Seated.ite (Seated.refl w) (Seated.ite (setF_seated w _ (by decide)) (Seated.ite (setF_seated w _ (by decide)) (Seated.refl w))))

theorem startConfirm_seated (p : Nat) : Seated s (s.startConfirm p) :=
  ⟨fun _ ho => State.rd_startConfirm s p (ne_of_mem_of_not_mem ho (by decide)), congrArg _ ((startConfirm_touch ..).fov rfl)⟩

theorem requestOver_seated (q : Nat) (o : Outstanding) (status : Nat) : Seated s (s.requestOver q o status) := by
  unfold State.requestOver
  split
  · exact Seated.foldl (fun t i => (opAck_touch t i status).seated ⟨rfl, rfl⟩) _ s
  · exact (covered_touch ..).seated ⟨rfl, rfl⟩
  · exact ⟨fun _ _ => rfl, rfl⟩
  · exact ⟨fun _ _ => rfl, rfl⟩

theorem dropLink_seated (p : Nat) : Seated s (s.dropLink p) := by
  have hport : Seated s (s.setPort p { s.port p with outstanding := [] }) := ⟨fun _ _ => rfl, rfl⟩
  have hfail : Seated s (s.failOutstanding p St.linkDown) :=
    hport.trans (Seated.foldl (fun t o => requestOver_seated t p o St.linkDown) _ _)
  have hdrop : Seated s ((s.failOutstanding p St.linkDown).dropOutbox p) := hfail.to (dropOutbox_touch ..) ⟨rfl, rfl⟩
  rw [State.dropLink]
  exact hdrop.trans ((modPort_touch ..).seated ⟨rfl, rfl⟩)

theorem markPort_seated (p : Nat) : Seated s (s.markPort p) := setPf_seated s p _ (by decide)

theorem portEnter_seated (p st : Nat) : Seated s (s.portEnter p st) := by
  unfold State.portEnter
  extract_lets old nb s1 s2 s3 s4 w s5 s6
  have h1 : Seated s s1 := setPf_seated s p _ (by decide)
  have h2 : Seated s1 s2 := Seated.ite (setPf_seated s1 p _ (by decide)) (Seated.refl s1)
  have halive : Seated s2 (s2.setPf p Reg.portNeighbour 1) := setPf_seated s2 p _ (by decide)
  have h3 : Seated s2 s3 := Seated.ite (Seated.ite halive (Seated.ite (halive.to (modPort_touch ..) ⟨rfl, rfl⟩) (Seated.refl s2)))
    (Seated.ite (Seated.ite (Seated.refl s2) (setPf_seated s2 p _ (by decide))) (Seated.refl s2))
  have h4 : Seated s3 s4 := Seated.ite ((dropLink_seated s3 p).trans (setPf_seated _ p _ (by decide))) (Seated.refl s3)
  have hunit (st cause source : Nat) : Seated s4 (s4.putUnit (UId.port p) st cause source) := (putUnit_touch ..).seated ⟨rfl, rfl⟩
  have h5 : Seated s4 s5 := Seated.ite (hunit ..) (Seated.ite (hunit ..) (Seated.refl s4))
  have h6 : Seated s5 s6 := Seated.ite (startConfirm_seated s5 p) (Seated.refl s5)
  exact (((((h1.trans h2).trans h3).trans h4).trans h5).trans h6).trans ((markPort_seated s6 p).trans (castRefresh_seated _))

theorem quarantine_seated (p cause : Nat) : Seated s (s.quarantine p cause) := by
  unfold State.quarantine
  extract_lets hash again w
  have hw : Seated s w := (portEnter_seated s p _).trans (setPf_seated _ p _ (by decide))
  exact Seated.ite hw (hw.to (event_touch ..) ⟨rfl, rfl⟩)

theorem helloDecide_seated (p : Nat) : Seated s (s.helloDecide p) := by
  unfold State.helloDecide
  extract_lets ver role mine w again w1
  have hw : Seated s w := (modPort_touch ..).seated ⟨rfl, rfl⟩
  have hup : Seated w w1 := (portEnter_seated w p _).trans (setPf_seated _ p _ (by decide))
  refine hw.trans (Seated.ite (quarantine_seated w p _) (Seated.ite (portEnter_seated w p _) (Seated.ite (portEnter_seated w p _)
    (Seated.ite (quarantine_seated w p _) (Seated.ite (quarantine_seated w p _) (Seated.ite (portEnter_seated w p _)
      (Seated.ite (quarantine_seated w p _) ?_)))))))
  exact Seated.ite (hup.to (event_touch ..) ⟨rfl, rfl⟩) hup

theorem helloAll_seated : Seated s s.helloAll := by
  refine Seated.foldl (fun t p => ?_) _ s
  have hhello : Seated t (t.sendHello p) := (sendHello_touch ..).seated ⟨rfl, rfl⟩
  exact Seated.ite hhello (Seated.ite (hhello.trans (helloDecide_seated _ p)) (Seated.refl t))

/-- Forming the cast takes the place as it is (R376). -/
theorem formCast_seated : Seated s s.formCast := by
  unfold State.formCast
  split
  · exact (setF_seated s _ (by decide)).to (event_touch ..) ⟨rfl, rfl⟩
  · extract_lets src w
    have hw : Seated s w := ⟨fun _ _ => rfl, rfl⟩
    have hstate := (hw.trans (setF_seated w (f := Reg.castForm) 1 (by decide))).trans (setF_seated _ (f := Reg.castState) 1 (by decide))
    exact ((hstate.trans (Seated.foldl markPort_seated _ _)).trans (helloAll_seated _)).trans (castRefresh_seated _)

end

end Sys2Proof.Machine

namespace Sys2Proof.Machine

open Sys2Proof

/-! ### The commands that change the device -/

section
variable {s v : State} {p : Path} {id : Nat}

/-- The security controller serves a command that waits for the measurements (Table 15.12). -/
theorem Carried.measured (h : Carried s v) (hup : s.fld Reg.measDone = 1 ∧ s.fld Reg.secAborted = 0) :
    (v.fld Reg.measDone == 1 && !(v.fld Reg.secAborted == 1)) = true := by
  rw [h.status Reg.measDone (by decide), h.status Reg.secAborted (by decide), hup.1, hup.2]
  rfl

/-- CLEAR_LEDGER writes its record while no job is in a slot or the start has aborted (R514). -/
theorem clearLedger_taken (hid : id < 2 ^ 32) (hask : s.asked p (mailboxRequest 4 id []))
    (hidle : s.allIdle = true ∨ s.fld Reg.secAborted = 1) : ∃ t, exec (.clearLedger p) s = .next t
      ∧ s.answered t p (mailboxRequest 4 id []) 0 [] ∧ t.sec.nor = s.clearRecord.sec.nor
      ∧ (s.pins.vsb = true → Noted t Ev.mailboxAccepted UId.security [4, id]) := by
  obtain ⟨v, hv, -, hrow⟩ := exec_request (c := .clearLedger p) rfl (by decide) hask
  have hrun : v.mbxRun [] 4 ((mailboxRequest 4 id []).take 16) []
      = (0, [], v.clearRecord.accepted ((mailboxRequest 4 id []).take 16) [] 0) :=
    if_pos (by rwa [hv.allIdle, hv.status Reg.secAborted (by decide)])
  have hclear := clearRecord_touch v
  obtain ⟨t, hexec, hans, ht⟩ := hrow rfl rfl hrun ((hclear.replies ⟨rfl, rfl⟩).trans (accepted_replies ..))
  refine ⟨t, hexec, hans, ?_, fun hvsb => ?_⟩
  · rw [ht.sec, State.nor_accepted, clearRecord_sec hv.sec]
  · have hpins : v.clearRecord.pins.vsb = true := by rw [hclear.pins rfl, hv.pins, hvsb]
    have hnoted := noted_accepted hpins (head := (mailboxRequest 4 id []).take 16) [] 0
    rw [fieldLE_mailboxRequest_head_code (by decide), fieldLE_mailboxRequest_id hid] at hnoted
    exact hnoted.of_board ht.board

theorem clearLedger_refused (hask : s.asked p (mailboxRequest 4 id [])) (hidle : s.allIdle = false) (habort : s.fld Reg.secAborted = 0) :
    ∃ t, exec (.clearLedger p) s = .next t ∧ s.answered t p (mailboxRequest 4 id []) St.notAllowed [] ∧ t.sec.nor = s.sec.nor := by
  obtain ⟨v, hv, -, hrow⟩ := exec_request (c := .clearLedger p) rfl (by decide) hask
  have hrun : v.mbxRun [] 4 ((mailboxRequest 4 id []).take 16) [] = (St.notAllowed, [], v) :=
    if_neg (by rw [hv.allIdle, hv.status Reg.secAborted (by decide), hidle, habort]; decide)
  obtain ⟨t, hexec, hans, ht⟩ := hrow rfl rfl hrun (Replies.refl v)
  exact ⟨t, hexec, hans, by rw [ht.sec, hv.sec]⟩

/-- IMAGE_UPDATE writes an image that verifies, before and after, to the area that does not run (R522). -/
theorem imageUpdate_taken {a n target flags : Nat} {x y : ImageInfo} {body : List Byte}
    (hbody : body = leBytes 8 a ++ leBytes 4 n ++ leBytes 1 target ++ leBytes 1 flags ++ leBytes 2 0)
    (hask : s.asked p (mailboxRequest 6 id body)) (hsecure : s.host.ideInsecure = false) (htarget : target ≤ 1)
    (hother : s.runningImage ≠ some target) (hn : 0 < n) (hmax : n ≤ 28 * 2 ^ 20) (hlo : farBase ≤ a) (hhi : a + n ≤ farEnd)
    (hflags : flags < 256) (hx : s.sec.now.verifyImage (fun i => (s.bytes a n).getD i 0xFF) = .ok x)
    (hy : let u := s.norWrite (imageBase target) (28 * 2 ^ 20) (s.bytes a n); u.sec.now.verifyImage (u.imageAt target) = .ok y) :
    let u := s.norWrite (imageBase target) (28 * 2 ^ 20) (s.bytes a n)
    ∃ t, exec (.imageUpdate p) s = .next t ∧ s.answered t p (mailboxRequest 6 id body) 0 []
      ∧ t.sec.nor = if bitAt 0 flags then (u.writeHeader target).sec.nor else u.sec.nor := by
  intro u
  obtain ⟨v, hv, hmem, hrow⟩ := exec_request (c := .imageUpdate p) rfl (by decide) hask
  obtain ⟨w, hread, hw, -⟩ := State.devRead_far (hv.insecure.trans hsecure) (.manager none) hlo hhi
  rw [State.bytes_of_mem hmem] at hread
  have hsec : w.sec = s.sec := hw.sec.trans hv.sec
  obtain ⟨z, hz⟩ : ∃ z, w.norWrite (imageBase target) (28 * 2 ^ 20) (s.bytes a n) = z := ⟨_, rfl⟩
  have hstored : z.sec = u.sec := hz ▸ norWrite_sec hsec ..
  have hend : farEnd = 2 ^ 48 := rfl
  have hfields : fieldLE body 0 8 = a ∧ fieldLE body 8 4 = n ∧ fieldLE body 12 1 = target ∧ fieldLE body 13 1 = flags := by
    subst hbody
    exact ⟨(leNat_leBytes 8 a).trans (Nat.mod_eq_of_lt (by omega)), (leNat_leBytes 4 n).trans (Nat.mod_eq_of_lt (by omega)),
      (leNat_leBytes 1 target).trans (Nat.mod_eq_of_lt (by omega)), (leNat_leBytes 1 flags).trans (Nat.mod_eq_of_lt hflags)⟩
  obtain ⟨hfa, hfn, hft, hff⟩ := hfields
  have hrun : v.mbxRun [] 6 ((mailboxRequest 6 id body).take 16) body
      = (0, [], if bitAt 0 flags then z.writeHeader target else z) := by
    have hfar : v.tierOf a n = some .far := State.tierOf_far hlo hhi
    have hlen : ¬(28 * 2 ^ 20 < n ∨ n = 0) := by omega
    have hy' : z.sec.now.verifyImage (z.imageAt target) = .ok y := by
      rw [hstored, imageAt_of_sec hstored]
      exact hy
    change v.mbxImageUpdate ((mailboxRequest 6 id body).take 16) body = _
    simp only [State.mbxImageUpdate, hfa, hfn, hft, hff, Nat.not_lt.2 htarget, hv.runningImage, hother, hlen, hfar, ne_eq, not_true,
      if_false, hread, hsec, hx, hz, hy']
  have hrep : Replies v (if bitAt 0 flags then z.writeHeader target else z) := by
    have hwrite : Replies v z := hz ▸ hw.replies.trans ((norWrite_touch ..).replies ⟨rfl, rfl⟩)
    split
    · exact hwrite.trans ((writeHeader_touch ..).replies ⟨rfl, rfl⟩)
    · exact hwrite
  obtain ⟨t, hexec, hans, ht⟩ := hrow rfl (by subst hbody; rfl) hrun hrep
  refine ⟨t, hexec, hans, ?_⟩
  rw [ht.sec]
  split
  · rw [writeHeader_sec hstored]
  · rw [hstored]

/-- LOAD_IDE_KEYS takes keys that the SECRET key has signed, and the link is secure (R491). -/
theorem loadIdeKeys_taken {k : Nat} {body : List Byte} (hask : s.asked p (mailboxRequest 7 id body)) (hserved : s.served = true)
    (hk : 0 < k) (hlen : body.length = 4 + 32 * k + 4627) (hsigned : s.secretOk ((mailboxRequest 7 id body).take 16) body = true) :
    ∃ t, exec (.loadIdeKeys p) s = .next t ∧ s.answered t p (mailboxRequest 7 id body) 0 [] ∧ t.host.ideKeys = keysOf k (body.drop 4)
      ∧ t.host.ideInsecure = false ∧ t.fld Reg.ideSecure = 1 := by
  obtain ⟨v, hv, -, hrow⟩ := exec_request (c := .loadIdeKeys p) rfl (by decide) hask
  obtain ⟨w, hw⟩ : ∃ w : State, w = { v with host := { v.host with ideKeys := keysOf k (body.drop 4), ideInsecure := false } } := ⟨_, rfl⟩
  have hform : v.mbxForm 7 = some (true, fun k => decide (4627 + 4 < k)) := congrArg (fun b => some (b, _)) (hv.served.trans hserved)
  have hcount : ¬(body.length - 4627 - 4 = 0 ∨ (body.length - 4627 - 4) % 32 ≠ 0) ∧ (body.length - 4627 - 4) / 32 = k := by omega
  have hrun : v.mbxRun [] 7 ((mailboxRequest 7 id body).take 16) body = (0, [], (w.setF Reg.ideSecure 1).accepted
      ((mailboxRequest 7 id body).take 16) body (fieldLE body 0 1)) := by
    change v.mbxIdeKeys ((mailboxRequest 7 id body).take 16) body = _
    simp only [State.mbxIdeKeys, hv.secretOk, hsigned, Bool.not_true, Bool.false_eq_true, hcount, if_false, hw]
  have hset := setF_touch_in w Reg.ideSecure 1 (k := 20) rfl
  have hacc := accepted_touch (w.setF Reg.ideSecure 1) ((mailboxRequest 7 id body).take 16) body (fieldLE body 0 1)
  have hhost := hacc.host rfl
  rw [State.setF_host] at hhost
  have hrep : Replies v w := by
    rw [hw]
    exact ⟨rfl, rfl, fun _ => rfl⟩
  obtain ⟨t, hexec, hans, ht⟩ := hrow hform (decide_eq_true (by omega)) hrun
    ((hrep.trans (hset.replies ⟨rfl, rfl⟩)).trans (accepted_replies ..))
  refine ⟨t, hexec, hans, ?_, ?_, ?_⟩
  · rw [ht.keys, hhost, hw]
  · rw [ht.insecure, hhost, hw]
  · rw [ht.fld _ (by decide), hacc.fld _ rfl, State.fld_setF _ _ (by decide +kernel)]
    rfl

theorem secretFields_held : Reg.rngSecret.held ∧ Reg.exportKeyId.held := by decide +kernel

/-- LOAD_EXPORT_SECRET takes a secret that the SECRET key has signed, with its KEY_ID (R232). -/
theorem loadExportSecret_taken {body : List Byte} (hask : s.asked p (mailboxRequest 8 id body))
    (hup : s.fld Reg.measDone = 1 ∧ s.fld Reg.secAborted = 0) (hlen : body.length = 36 + 4627)
    (hsigned : s.secretOk ((mailboxRequest 8 id body).take 16) body = true) :
    ∃ t, exec (.loadExportSecret p) s = .next t ∧ s.answered t p (mailboxRequest 8 id body) 0 []
      ∧ t.rng = { s.rng with secret := some ((body.drop 4).take 32) } ∧ t.fld Reg.rngSecret = 1
      ∧ t.fld Reg.exportKeyId = fieldLE body 0 4 := by
  obtain ⟨v, hv, -, hrow⟩ := exec_request (c := .loadExportSecret p) rfl (by decide) hask
  obtain ⟨w, hw⟩ : ∃ w : State, w = { v with rng := { v.rng with secret := some ((body.drop 4).take 32) } } := ⟨_, rfl⟩
  have hform : v.mbxForm 8 = some (true, fun k => k == 36 + 4627) := congrArg (fun b => some (b, _)) (hv.measured hup)
  have hrun : v.mbxRun [] 8 ((mailboxRequest 8 id body).take 16) body
      = (0, [], ((w.setF Reg.rngSecret 1).setF Reg.exportKeyId (fieldLE body 0 4)).accepted ((mailboxRequest 8 id body).take 16) body
          (fieldLE body 0 4)) := by
    change v.mbxSecret ((mailboxRequest 8 id body).take 16) body = _
    simp only [State.mbxSecret, hv.secretOk, hsigned, Bool.not_true, Bool.false_eq_true, if_false, hw]
  have hset : Touch (2 ^ 25) w ((w.setF Reg.rngSecret 1).setF Reg.exportKeyId (fieldLE body 0 4)) :=
    (setF_touch_in w _ _ (k := 25) rfl).to (setF_touch_in _ _ _ (k := 25) rfl) rfl
  have hacc := accepted_touch ((w.setF Reg.rngSecret 1).setF Reg.exportKeyId (fieldLE body 0 4))
    ((mailboxRequest 8 id body).take 16) body (fieldLE body 0 4)
  have hrep : Replies v w := by
    rw [hw]
    exact ⟨rfl, rfl, fun h => h⟩
  obtain ⟨t, hexec, hans, ht⟩ := hrow hform (by rw [hlen]; rfl) hrun ((hrep.trans (hset.replies ⟨rfl, rfl⟩)).trans (accepted_replies ..))
  refine ⟨t, hexec, hans, ?_, ?_, ?_⟩
  · rw [ht.rng, hacc.rng rfl, hset.rng rfl, hw]
    simp only [hv.rng]
  · rw [ht.fld _ (by decide), hacc.fld _ rfl, State.fld_setF_other _ _ (by decide), State.fld_setF _ _ secretFields_held.1]
    rfl
  · rw [ht.fld _ (by decide), hacc.fld _ rfl, State.fld_setF _ _ secretFields_held.2]
    exact Nat.mod_eq_of_lt (fieldLE_lt body 0 4)

end

end Sys2Proof.Machine

namespace Sys2Proof.Machine

open Sys2Proof

/-! ### Orders (R450 to R452) -/

section
variable {s v : State} {o sig : List Byte}

theorem Carried.setF (h : Carried s v) {f : Fld} (x : Nat) (hf : f.off ∉ pathRegs) : Carried (s.setF f x) (v.setF f x) where
  regs off ho := by rw [State.rd_setF, State.rd_setF, h.regs f.off hf, h.regs off ho]
  status g hg := by
    have hstatus : ∀ g ∈ keptStatus, g.off ∈ pathRegs := by decide
    have ho : f.off ≠ g.off := (ne_of_mem_of_not_mem (hstatus g hg) hf).symm
    rw [State.fld_setF_other _ _ ho, State.fld_setF_other _ _ ho, h.status g hg]
  sec := by rw [State.setF_sec, State.setF_sec, h.sec]
  rng := by rw [State.setF_rng, State.setF_rng, h.rng]
  fov := by rw [State.setF_fov, State.setF_fov, h.fov]
  board := by rw [State.setF_board, State.setF_board, h.board]
  pins := by rw [State.setF_pins, State.setF_pins, h.pins]
  keys := by rw [State.setF_host, State.setF_host, h.keys]
  insecure := by rw [State.setF_host, State.setF_host, h.insecure]

theorem Carried.takePlace (h : Carried s v) (o : List Byte) : Carried (s.takePlace o) (v.takePlace o) := by
  have h1 := ((h.setF (f := Reg.fabCoord) (coordWord (fieldLE o 16 3)) (by decide)).setF (f := Reg.torusExtent) (fieldLE o 28 3)
    (by decide)).setF (f := Reg.castId) (fieldLE o 8 4) (by decide)
  have h2 := ((h1.setF (f := Reg.castOrigin) (fieldLE o 20 3) (by decide)).setF (f := Reg.castExtent) (fieldLE o 24 3) (by decide)).setF
    (f := Reg.castCorrAck) (bits 0 0 (fieldLE o 3 1)) (by decide)
  exact { h2.setF (f := Reg.donor) (fieldLE o 48 3) (by decide) with
    fov := congrArg (fun x : Fov => { x with donor := fieldLE o 48 3 }) h2.fov }

theorem Carried.isMember (h : Carried s v) (c : Nat) : v.isMember c = s.isMember c := by
  have htorus : v.torusE = s.torusE := funext fun a => congrArg (extentOf · a) (h.fld Reg.torusExtent (by decide))
  have hcast : v.castE = s.castE := funext fun a => congrArg (extentOf · a) (h.fld Reg.castExtent (by decide))
  have hpos : v.castPos = s.castPos := by
    funext c a
    rw [State.castPos, htorus, h.fld Reg.castOrigin (by decide), State.castPos]
  rw [State.isMember, hpos, hcast, State.isMember]

/-- The checks of an order read nothing that a path changes (R451). -/
theorem Carried.orderFault (h : Carried s v) (o sig : List Byte) : v.orderFault o sig = s.orderFault o sig := by
  simp only [State.orderFault, h.signedBy, h.regs Reg.serialHash (by decide), h.fld Reg.lastOrderId (by decide),
    h.fld Reg.fovRole (by decide), h.allIdle, (h.takePlace o).isMember]

/-- A device that takes the place of an order, before it forms the cast (R452). -/
def State.takeOrder (s : State) (o : List Byte) : State :=
  let s := s.setF Reg.lastOrderId (fieldLE o 4 4)
  let s : State := { s with sec := { s.sec with healthDirty := true } }
  ((s.takePlace o).setF Reg.fovRole 0).setF Reg.fovState 3

theorem orderFields_held : Reg.fovRole.held ∧ Reg.fovState.held ∧ Reg.lastOrderId.held ∧ Reg.fabCoord.held ∧ Reg.castId.held := by
  decide +kernel

theorem coordWord_lt (c : Nat) : coordWord c < 2 ^ 24 := by
  unfold coordWord
  split
  · decide
  · exact lt_of_le_of_lt Nat.and_le_right (by decide)

/-- The fields that an order names show it. -/
theorem State.takeOrder_shows (s : State) (o : List Byte) : let t := s.takeOrder o
    t.fld Reg.fovRole = 0 ∧ t.fld Reg.fovState = 3 ∧ t.fld Reg.lastOrderId = fieldLE o 4 4 ∧ t.coord = coordWord (fieldLE o 16 3)
      ∧ t.fld Reg.castId = fieldLE o 8 4 ∧ t.fov.donor = fieldLE o 48 3 := by
  obtain ⟨hrole, hstate, horder, hcoord, hcast⟩ := orderFields_held
  have hfov (u : State) (x : Fov) (f : Fld) : ({ u with fov := x } : State).fld f = u.fld f := rfl
  have hsec (u : State) (x : Sec) (f : Fld) : ({ u with sec := x } : State).fld f = u.fld f := rfl
  refine ⟨?_, ?_, ?_, ?_, ?_, ?_⟩
  · rw [State.takeOrder, State.fld_setF_apart (f := Reg.fovState) _ _ hrole rfl (by decide), State.fld_setF _ _ hrole]
    rfl
  · rw [State.takeOrder, State.fld_setF _ _ hstate]
    rfl
  · simp (disch := decide) only [State.takeOrder, State.takePlace, hfov, hsec, State.fld_setF_other]
    rw [State.fld_setF _ _ horder]
    exact Nat.mod_eq_of_lt (fieldLE_lt o 4 4)
  · simp (disch := decide) only [State.takeOrder, State.takePlace, State.coord, hfov, State.fld_setF_other]
    rw [State.fld_setF _ _ hcoord]
    exact Nat.mod_eq_of_lt (coordWord_lt _)
  · simp (disch := decide) only [State.takeOrder, State.takePlace, hfov, State.fld_setF_other]
    rw [State.fld_setF _ _ hcast]
    exact Nat.mod_eq_of_lt (fieldLE_lt o 8 4)
  · rw [State.takeOrder, State.setF_fov, State.setF_fov, State.takePlace]

theorem takeOrder_touch (s : State) (o : List Byte) : Touch 402980864 s (s.takeOrder o) := by
  unfold State.takeOrder
  extract_lets w src x
  have hw : Touch 402980864 s w := (setF_touch_in s _ _ (k := 27) rfl).widen rfl
  exact (((Touch.set_sec hw rfl).to (takePlace_touch x o) rfl).to (setF_touch_in _ _ _ (k := 27) rfl) rfl).to
    (setF_touch_in _ _ _ (k := 27) rfl) rfl

end

section
variable {s : State} {p : Path} {id : Nat} {o sig : List Byte}

/-- An order whose checks hold gives the device its place (R450, R452). -/
theorem assumePosition_taken (hask : s.asked p (mailboxRequest 9 id (o ++ sig)))
    (hup : s.fld Reg.measDone = 1 ∧ s.fld Reg.secAborted = 0) (ho : o.length = 128) (hsig : sig.length = 4627)
    (hfault : s.orderFault o sig = none) : ∃ t, exec (.assumePosition p) s = .next t
      ∧ s.answered t p (mailboxRequest 9 id (o ++ sig)) 0 [] ∧ t.fld Reg.fovRole = 0 ∧ t.fld Reg.fovState = 3
      ∧ t.fld Reg.lastOrderId = fieldLE o 4 4 ∧ t.coord = coordWord (fieldLE o 16 3) ∧ t.fld Reg.castId = fieldLE o 8 4
      ∧ t.fov.donor = fieldLE o 48 3 := by
  obtain ⟨v, hv, -, hrow⟩ := exec_request (c := .assumePosition p) rfl (by decide) hask
  have hform : v.mbxForm 9 = some (true, fun k => k == 128 + 4627) := congrArg (fun b => some (b, _)) (hv.measured hup)
  have hfits : ((o ++ sig).length == 128 + 4627) = true := by rw [List.length_append, ho, hsig]; rfl
  have hrun : v.mbxRun [] 9 ((mailboxRequest 9 id (o ++ sig)).take 16) (o ++ sig) = (0, [], (v.takeOrder o).formCast.accepted
      ((mailboxRequest 9 id (o ++ sig)).take 16) (o ++ sig) (fieldLE o 4 4)) := by
    change v.mbxAssume ((mailboxRequest 9 id (o ++ sig)).take 16) (o ++ sig) = _
    simp only [State.mbxAssume, ← ho, List.take_left, List.drop_left, hv.orderFault, hfault]
    rfl
  have hform' := formCast_touch (v.takeOrder o)
  have hseated := formCast_seated (v.takeOrder o)
  have hacc := accepted_touch (v.takeOrder o).formCast ((mailboxRequest 9 id (o ++ sig)).take 16) (o ++ sig) (fieldLE o 4 4)
  obtain ⟨t, hexec, hans, ht⟩ := hrow hform hfits hrun
    ((((takeOrder_touch v o).replies ⟨rfl, rfl⟩).trans (hform'.replies ⟨rfl, rfl⟩)).trans (accepted_replies ..))
  obtain ⟨hrole, hstate, horder, hcoord, hcast, hdonor⟩ := v.takeOrder_shows o
  have hfov (f : Fld) (hf : f.off ∉ pathRegs) (harea : regArea f.off = 27) : t.fld f = (v.takeOrder o).fld f := by
    rw [ht.fld f hf, hacc.fld f (by rw [harea]; rfl), hform'.fld f (by rw [harea]; rfl)]
  have hplace (f : Fld) (hf : f.off ∉ pathRegs) (hmem : f.off ∈ placeRegs) (harea : regArea f.off = 28) :
      t.fld f = (v.takeOrder o).fld f := by
    rw [ht.fld f hf, hacc.fld f (by rw [harea]; rfl), hseated.fld hmem]
  refine ⟨t, hexec, hans, ?_, ?_, ?_, ?_, ?_, ?_⟩
  · rw [hfov _ (by decide) rfl, hrole]
  · rw [hfov _ (by decide) rfl, hstate]
  · rw [hfov _ (by decide) rfl, horder]
  · rw [State.coord, hplace _ (by decide) (by decide) rfl]
    exact hcoord
  · rw [hplace _ (by decide) (by decide) rfl, hcast]
  · rw [ht.fov, hacc.fov rfl, hseated.donor, hdonor]

/-- An order that fails a check is recorded and leaves the device's place (R451). -/
theorem assumePosition_refused {k st : Nat} (hask : s.asked p (mailboxRequest 9 id (o ++ sig)))
    (hup : s.fld Reg.measDone = 1 ∧ s.fld Reg.secAborted = 0) (ho : o.length = 128) (hsig : sig.length = 4627)
    (hfault : s.orderFault o sig = some (k, st)) : ∃ t, exec (.assumePosition p) s = .next t
      ∧ s.answered t p (mailboxRequest 9 id (o ++ sig)) st [] ∧ t.fld Reg.fovRole = s.fld Reg.fovRole
      ∧ t.fld Reg.lastOrderId = s.fld Reg.lastOrderId ∧ t.coord = s.coord
      ∧ (s.pins.vsb = true → Noted t Ev.orderRejected UId.security [k, fieldLE o 4 4]) := by
  obtain ⟨v, hv, -, hrow⟩ := exec_request (c := .assumePosition p) rfl (by decide) hask
  have hform : v.mbxForm 9 = some (true, fun k => k == 128 + 4627) := congrArg (fun b => some (b, _)) (hv.measured hup)
  have hfits : ((o ++ sig).length == 128 + 4627) = true := by rw [List.length_append, ho, hsig]; rfl
  have hrun : v.mbxRun [] 9 ((mailboxRequest 9 id (o ++ sig)).take 16) (o ++ sig)
      = (st, [], v.event Ev.orderRejected UId.security [k, fieldLE o 4 4] st) := by
    change v.mbxAssume ((mailboxRequest 9 id (o ++ sig)).take 16) (o ++ sig) = _
    simp only [State.mbxAssume, ← ho, List.take_left, List.drop_left, hv.orderFault, hfault]
    rfl
  obtain ⟨t, hexec, hans, ht⟩ := hrow hform hfits hrun ((event_touch ..).replies ⟨rfl, rfl⟩)
  have hkept (f : Fld) (hf : f.off ∉ pathRegs) (hrec : f.off ∉ recordRegs) : t.fld f = s.fld f := by
    rw [ht.fld f hf, State.fld_event _ _ _ _ _ hrec, hv.fld f hf]
  refine ⟨t, hexec, hans, hkept _ (by decide) (by decide), hkept _ (by decide) (by decide), hkept _ (by decide) (by decide),
    fun hvsb => ?_⟩
  exact (State.noted_event v _ _ _ st (by rw [hv.pins, hvsb])).of_board ht.board

end

/-- Settles O53: each command by what it comes to on the device its path brings the request to, and the response that goes out. -/
theorem mailboxWritesAreTaken : Obligations.MailboxWritesAreTaken := by
  intro s p id hid ask ok signed up
  refine ⟨fun hask => ⟨clearLedger_taken hid hask, clearLedger_refused hask⟩, ?_, ?_, ?_,
    fun o sig hask hup ho hsig => ⟨?_, fun k st => ?_⟩⟩
  · intro a n target flags x y body bs u hask hsecure htarget hother hn hmax hlo hhi hflags hx hy
    exact imageUpdate_taken rfl hask hsecure htarget hother hn hmax hlo hhi hflags hx hy
  · intro k body hask hserved hk hlen hsigned
    exact loadIdeKeys_taken hask hserved hk hlen hsigned
  · intro body hask hup hlen hsigned
    exact loadExportSecret_taken hask hup hlen hsigned
  · exact assumePosition_taken hask hup ho hsig
  · exact assumePosition_refused hask hup ho hsig

end Sys2Proof.Machine

namespace Sys2Proof.Machine

open Sys2Proof

/-! ### A queue's descriptor in memory (R237) -/

section
variable {s t : State} {q : Nat} {x : Queue}

theorem State.queue_setQueue (s : State) (q : Nat) (x : Queue) (k : Nat) : (s.setQueue q x).queue k = if q = k then x else s.queue k :=
  SMap.get_set ..

theorem Touch.queue {M : Nat} (h : Touch M s t) (hM : M.testBit 5 = false) (k : Nat) : t.queue k = s.queue k := by
  rw [State.queue, (h.queues hM).1, State.queue]

/-- While HBM serves the descriptor, a change of a queue shows there, and nothing stops the queue. -/
theorem State.updateQueue_served (x : Queue) (h : s.outerServes .hbm (s.rd Reg.queTableBase + 64 * q) 64) :
    ∃ ws, s.updateQueue q x = (s.setQueue q x).storeAll ws ∧ ∀ w ∈ ws, hbmBase ≤ w.1 ∧ w.1 + w.2.length ≤ hbmEnd := by
  unfold State.updateQueue
  extract_lets a log2 b2 s1
  have hserves : ∀ w ∈ [(a + 2, leBytes 1 b2), (a + 24, leBytes 4 x.head ++ leBytes 4 x.tail ++ leBytes 4 x.cplTail)],
      s1.outerServes .hbm w.1 w.2.length := by
    have h1 : s1.outerServes .hbm a 64 := (setQueue_touch s q x).serves ⟨rfl, rfl, rfl, rfl⟩ h
    simp only [List.forall_mem_cons, List.length_append, length_leBytes, List.not_mem_nil, false_implies, implies_true, and_true]
    exact ⟨State.outerServes_part h1 (by omega) (by omega), State.outerServes_part h1 (by omega) (by omega)⟩
  rw [State.devWrites_served _ hserves]
  exact ⟨_, rfl, fun w hw => State.hbm_of_serves (hserves w hw)⟩

theorem State.byte_storeAll_far {ws : List (Nat × List Byte)} (h : ∀ w ∈ ws, hbmBase ≤ w.1 ∧ w.1 + w.2.length ≤ hbmEnd) {b : Nat}
    (hb : farBase ≤ b) : (s.storeAll ws).byte b = s.byte b := by
  induction ws generalizing s with
  | nil => rfl
  | cons w ws ih =>
    obtain ⟨hlo, hhi⟩ := h w (List.mem_cons_self ..)
    have hfar : hbmEnd < farBase := by decide
    rw [State.storeAll_cons, ih fun v hv => h v (List.mem_cons_of_mem _ hv), State.byte_storeBytes_other hlo (by omega)]

end

/-! ### Accesses of the far window leave what HBM serves -/

section
variable {s t : State} {a n b m : Nat}

theorem Carried.stackOff (h : Carried s t) (a n : Nat) : t.stackOff a n = s.stackOff a n := by
  have hup : ∀ i ∈ List.range 8, (t.fld (Reg.stackUp.plus (0x40 * i)) != 1 || t.unitRaw (UId.stack i) == US.fenced)
      = (s.fld (Reg.stackUp.plus (0x40 * i)) != 1 || s.unitRaw (UId.stack i) == US.fenced) := by
    intro i hi
    rw [List.mem_range] at hi
    have hstack : (Reg.stackUp.plus (0x40 * i)).off ∉ pathRegs := by
      simp [Fld.plus, Reg.stackUp, pathRegs]
      omega
    have hunit : unitOff (UId.stack i) ∉ pathRegs := by
      simp [unitOff, UId.stack, pathRegs]
      omega
    rw [State.unitRaw, State.unitRaw, State.unitEntry, State.unitEntry, h.regs _ hunit, h.fld _ hstack]
  simp only [State.stackOff, List.filter_congr hup]

/-- A write of the far window leaves what HBM serves. -/
theorem State.devWrite_far_serves (hs : s.host.ideInsecure = false) (rq : Requester) {bs : List Byte} (ha : farBase ≤ a)
    (hn : a + bs.length ≤ farEnd) (h : s.outerServes .hbm b m) : (s.devWrite rq a bs).2.outerServes .hbm b m := by
  have hcache (l : List Nat) (y : HostLink) : (l.foldl (fun (h : HostLink) p => h.touch (p / 4096)) y).hostPages = y.hostPages :=
    List.foldlRecOn (motive := fun z : HostLink => z.hostPages = y.hostPages) l _ rfl fun _ hz _ _ => hz
  have hkept : (s.openFar a bs.length true).2.host.hostPages = s.host.hostPages ∧ (s.openFar a bs.length true).2.voided = s.voided := by
    rw [State.openFar, if_neg (by rw [hs]; decide)]
    by_cases hats : s.host.ats = true <;> simp [hats, State.emit, State.addF, hcache]
  obtain ⟨v, hopen, hv, -⟩ := State.openFar_secure hs a bs.length true
  rw [hopen] at hkept
  obtain ⟨hpages, hvoided⟩ := hkept
  have hserves : v.outerServes .hbm b m := by
    obtain ⟨htier, hp, hvo, ⟨-, hoff⟩ | ⟨hddr, -⟩⟩ := h
    · exact ⟨State.tierOf_hbm htier v, hpages.trans hp, hvoided.trans hvo, .inl ⟨rfl, (hv.stackOff b m).trans hoff⟩⟩
    · cases hddr
  rw [State.devWrite, State.openRange, State.tierOf_far ha hn]
  split
  · rename_i hopened
    split at hopened
    · cases hopened
      exact State.storeBytes_serves (le_trans (by decide) ha) h
    · rw [hopen] at hopened
      cases hopened
      exact State.storeBytes_serves (le_trans (by decide) ha) hserves
  · rename_i hst hopened
    split at hopened
    · cases hopened
      exact h
    · rw [hopen] at hopened
      cases hopened
      exact hserves

end

/-! ### Completion records (R485, R486) -/

section
variable {s : State} {q : Nat} {r : List Byte} {rest : List (List Byte)}

theorem length_cplPatch (head phase : Nat) (h : r.length = 32) : (cplPatch r head phase).length = 32 := by
  simp [cplPatch, h, length_leBytes]

theorem exec_completionRecordWrite (hq : q < 2 ^ 20) (hst : (s.queue q).state ≠ 0) :
    exec (.completionRecordWrite q) s = .next { s.quiet.writeRecord q with pending := s.pending } :=
  (run_next (fun s => if (s.queue q).state = 0 then s else s.writeRecord q) s (decide_eq_true hq)).trans
    (congrArg (fun u : State => Host.Outcome.next { u with pending := s.pending }) (if_neg hst))

/-- The oldest record of a queue in the far window, with room in the ring, while HBM serves the descriptor. -/
theorem State.writeRecord_far (hrecs : (s.queue q).recs = r :: rest) (hroom : (s.queue q).unread < 2 ^ (s.queue q).cplLog2)
    (hr : r.length = 32) (hs : s.host.ideInsecure = false) (hlo : farBase ≤ (s.queue q).cplBase)
    (hhi : (s.queue q).cplBase + 32 * 2 ^ (s.queue q).cplLog2 ≤ farEnd)
    (htable : s.outerServes .hbm (s.rd Reg.queTableBase + 64 * q) 64) :
    let x := s.queue q
    let t := s.writeRecord q
    t.bytes (x.cplBase + 32 * (x.cplTail % 2 ^ x.cplLog2)) 32 = cplPatch r x.head (if x.cplTail / 2 ^ x.cplLog2 % 2 = 0 then 1 else 0)
      ∧ t.queue q = { x with recs := rest, cplTail := (x.cplTail + 1) % 2 ^ 32 } ∧ SMap.get false t.host.due x.vector = true := by
  intro x t
  have hplace := Nat.mod_lt x.cplTail (Nat.two_pow_pos x.cplLog2)
  have hlen := length_cplPatch (r := r) x.head (if x.cplTail / 2 ^ x.cplLog2 % 2 = 0 then 1 else 0) hr
  have ha : farBase ≤ x.cplBase + 32 * (x.cplTail % 2 ^ x.cplLog2) := hlo.trans (Nat.le_add_right ..)
  have hn : x.cplBase + 32 * (x.cplTail % 2 ^ x.cplLog2)
      + (cplPatch r x.head (if x.cplTail / 2 ^ x.cplLog2 % 2 = 0 then 1 else 0)).length ≤ farEnd := by
    rw [hlen]
    exact le_trans (by simp only [x]; omega) hhi
  obtain ⟨u, hwrite, hu, hbytes⟩ := State.devWrite_far hs (.manager none) ha hn
  have hserves := State.devWrite_far_serves hs (.manager none) ha hn htable
  rw [hwrite] at hserves
  rw [← hu.regs _ (by decide)] at hserves
  obtain ⟨ws, hws, hhbm⟩ := State.updateQueue_served { x with recs := rest, cplTail := (x.cplTail + 1) % 2 ^ 32 } hserves
  have ht : t = ((u.setQueue q { x with recs := rest, cplTail := (x.cplTail + 1) % 2 ^ 32 }).storeAll ws).signal x.vector := by
    change s.writeRecord q = _
    simp only [State.writeRecord, hrecs, if_pos hroom, hwrite, hws, if_true, x]
  rw [ht]
  refine ⟨?_, ?_, ?_⟩
  · rw [hlen] at hbytes
    refine Eq.trans (State.bytes_congr fun b hb _ => ?_) hbytes
    exact State.byte_storeAll_far hhbm (ha.trans hb)
  · change (State.storeAll _ ws).queue q = _
    rw [(storeAll_touch _ ws).queue rfl, State.queue_setQueue, if_pos rfl]
  · rw [State.signal, SMap.get, SMap.find_put, if_pos rfl, Option.getD_some]

end

/-- Settles O22: the record is written to its place by an access of the far window, which leaves HBM serving the descriptor. -/
theorem completionRecordsAreWritten : Obligations.CompletionRecordsAreWritten := by
  intro s q r rest hq x a hst hrecs hr hroom hs hlo hhi htable
  obtain ⟨hbytes, hqueue, hdue⟩ := State.writeRecord_far (s := s.quiet) hrecs hroom hr hs hlo hhi htable
  refine ⟨_, exec_completionRecordWrite hq hst, hbytes.trans ?_, hqueue, hdue⟩
  simp only [cplPatch]
  congr 1
  change leBytes 1 (128 * if x.cplTail / 2 ^ x.cplLog2 % 2 = 0 then 1 else 0) = _
  split <;> rfl

end Sys2Proof.Machine

namespace Sys2Proof.Machine

open Sys2Proof

/-! ### The registers of a job slot (Table 7.16) -/

/-- The fields of a job slot's window. -/
def jobFields : List Fld :=
  [Reg.jobState, Reg.jobPhase, Reg.jobAttempt, Reg.jobAhead, Reg.jobNonrepro, Reg.jobId, Reg.jobStep, Reg.jobSkipped, Reg.jobRepeats,
    Reg.jobRollbacks, Reg.jobPkgBase, Reg.jobUpdSat, Reg.jobShard, Reg.jobSample, Reg.jobAbandonCause, Reg.jobAbandonStep,
    Reg.jobHoldUsed, Reg.jobOutboundUsed]

theorem jobFields_held : ∀ f ∈ jobFields, ∀ slot < 4, (f.plus (0x100 * slot)).held := by decide +kernel

theorem jobFields_window : ∀ f ∈ jobFields, 0x40100 ≤ f.off ∧ f.off < 0x40200 := by decide

/-- Two fields of a window that share no bit. -/
def Fld.apart (f g : Fld) : Bool := f.off != g.off || decide (f.hi < g.lo) || decide (g.hi < f.lo)

section
variable {s t : State} {slot k : Nat} {f g : Fld}

theorem regArea_jobField (hf : f ∈ jobFields) (hslot : slot < 4) : regArea (f.off + 0x100 * slot) = 23 := by
  have hwin := jobFields_window f hf
  exact regArea_eq (lo := 0x40000) (hi := 0x80000) (by omega) rfl (by decide)

theorem Touch.jf {M : Nat} (h : Touch M s t) (hM : M.testBit 23 = false) (hf : f ∈ jobFields) (hslot : slot < 4) :
    t.jf slot f = s.jf slot f :=
  h.fld (f.plus (0x100 * slot)) (by rwa [Fld.plus, regArea_jobField hf hslot])

theorem State.jf_setJf (v : Nat) (hf : f ∈ jobFields) (hslot : slot < 4) :
    (s.setJf slot f v).jf slot f = v % 2 ^ (f.hi + 1 - f.lo) := by
  rw [State.setJf, if_pos hslot]
  exact State.fld_setF s v (jobFields_held f hf slot hslot)

/-- A field reads as before when another one, or one of another slot, is set. -/
theorem State.jf_setJf_apart (v : Nat) (hf : f ∈ jobFields) (hg : g ∈ jobFields) (hslot : slot < 4) (h : f.apart g = true) :
    (s.setJf k g v).jf slot f = s.jf slot f := by
  have hwf := jobFields_window f hf
  have hwg := jobFields_window g hg
  rw [State.setJf]
  split
  · by_cases ho : g.off + 0x100 * k = f.off + 0x100 * slot
    · have hoff : f.off = g.off := by omega
      rw [Fld.apart, hoff] at h
      simp only [bne_self_eq_false, Bool.false_or, Bool.or_eq_true, decide_eq_true_eq] at h
      exact State.fld_setF_apart s v (jobFields_held f hf slot hslot) ho h.symm
    · exact State.fld_setF_other s v ho
  · rfl

end

/-! ### What the end of an attempt keeps of the jobs -/

/-- From s to t every slot's job is the same as far as `view` shows it, and the fields of `F` in a slot's window read the same. -/
structure Keeps {α : Type} (view : Job → α) (slot : Nat) (F : List Fld) (s t : State) : Prop where
  jobs : ∀ k, (t.job k).map view = (s.job k).map view
  fields : slot < 4 → ∀ f ∈ F, f ∈ jobFields → t.jf slot f = s.jf slot f

section
variable {α : Type} {view : Job → α} {slot : Nat} {F : List Fld} {s t u : State}

theorem Keeps.refl (s : State) : Keeps view slot F s s := ⟨fun _ => rfl, fun _ _ _ _ => rfl⟩

theorem Keeps.trans (h : Keeps view slot F s t) (k : Keeps view slot F t u) : Keeps view slot F s u :=
  ⟨fun i => (k.jobs i).trans (h.jobs i), fun hs f hf hj => (k.fields hs f hf hj).trans (h.fields hs f hf hj)⟩

theorem Keeps.to {M : Nat} (h : Keeps view slot F s t) (k : Touch M t u) (hM : M.testBit 7 = false ∧ M.testBit 23 = false) :
    Keeps view slot F s u :=
  h.trans ⟨fun i => congrArg (Option.map view) (job_of_touch k hM.1 i), fun hs _ _ hj => k.jf hM.2 hj hs⟩

theorem Keeps.ite {c : Prop} [Decidable c] (h : Keeps view slot F s t) (k : Keeps view slot F s u) :
    Keeps view slot F s (if c then t else u) := by
  split
  · exact h
  · exact k

theorem Keeps.foldl {β : Type} {f : State → β → State} (h : Keeps view slot F s t) (hf : ∀ s a, Keeps view slot F s (f s a))
    (l : List β) : Keeps view slot F s (l.foldl f t) := by
  induction l generalizing t with
  | nil => exact h
  | cons a l ih => exact ih (h.trans (hf t a))

theorem State.job_modJob (s : State) (slot : Nat) (f : Job → Job) (k : Nat) :
    (s.modJob slot f).job k = if slot = k then (s.job k).map f else s.job k := by
  unfold State.modJob
  split
  · rename_i j hj
    rw [job_setJob]
    split
    · rename_i hk
      rw [← hk, hj, Option.map_some]
    · rfl
  · rename_i hj
    split
    · rename_i hk
      rw [← hk, hj, Option.map_none]
    · rfl

theorem Keeps.modJob (h : Keeps view slot F s t) (k : Nat) {f : Job → Job} (hf : ∀ j, view (f j) = view j) :
    Keeps view slot F s (t.modJob k f) := by
  refine h.trans ⟨fun i => ?_, fun hs _ _ hj => (modJob_touch t k f).jf rfl hj hs⟩
  rw [State.job_modJob]
  split
  · rw [Option.map_map]
    exact congrArg (Option.map · (t.job i)) (funext hf)
  · rfl

theorem Keeps.setJf (h : Keeps view slot F s t) (k : Nat) {g : Fld} (v : Nat) (hg : g ∈ jobFields)
    (ha : ∀ f ∈ F, f.apart g = true) : Keeps view slot F s (t.setJf k g v) :=
  h.trans ⟨fun i => congrArg (Option.map view) (job_of_touch (setJf_touch t k g v (jobFields_window g hg)) rfl i),
    fun hs f hf hj => State.jf_setJf_apart v hj hg hs (ha f hf)⟩

end

end Sys2Proof.Machine

namespace Sys2Proof.Machine

open Sys2Proof

/-! ### A visit to a queue with one posted cue (R238, R241) -/

/-- Queue q is enabled and read to its tail, and these are the place of the round, the next cue's number and the count of cues. -/
structure State.ReadOut (t : State) (q tail rr next count : Nat) : Prop where
  enabled : (t.queue q).state = 1
  stays : (t.queue q).disabling = false
  head : (t.queue q).head = tail
  tail : (t.queue q).tail = tail
  rr : t.rr = rr
  next : t.nextCue = next
  count : t.fld Reg.cuesFetched = count

section
variable {s t : State} {q tail rr next count : Nat}

theorem State.fld_inc_other (s : State) {f g : Fld} (h : f.off ≠ g.off) : (s.inc f).fld g = s.fld g :=
  State.fld_setF_other s _ h

/-- A change of neither the queues nor the fetch counters leaves a queue read out. -/
theorem State.ReadOut.to {M : Nat} (h : t.ReadOut q tail rr next count) {u : State} (k : Touch M t u)
    (hM : M.testBit 5 = false ∧ M.testBit (regArea Reg.cuesFetched.off) = false) : u.ReadOut q tail rr next count := by
  obtain ⟨-, hrr, -, hnext⟩ := k.queues hM.1
  exact ⟨k.queue hM.1 q ▸ h.enabled, k.queue hM.1 q ▸ h.stays, k.queue hM.1 q ▸ h.head, k.queue hM.1 q ▸ h.tail, hrr.trans h.rr,
    hnext.trans h.next, (k.fld _ hM.2).trans h.count⟩

theorem State.ReadOut.inc (h : t.ReadOut q tail rr next count) {f : Fld} (hf : f.off ≠ Reg.cuesFetched.off) :
    (t.inc f).ReadOut q tail rr next count := by
  have hqueue : (t.inc f).queue q = t.queue q := by simp [State.inc, State.addF, State.queue]
  exact ⟨hqueue ▸ h.enabled, hqueue ▸ h.stays, hqueue ▸ h.head, hqueue ▸ h.tail, by simp [State.inc, State.addF, h.rr],
    by simp [State.inc, State.addF, h.next], (State.fld_inc_other t hf).trans h.count⟩

theorem State.ReadOut.counted (h : t.ReadOut q tail rr next count) :
    (t.inc Reg.cuesFetched).ReadOut q tail rr next (min (count + 1) (2 ^ 64 - 1)) := by
  have hqueue : (t.inc Reg.cuesFetched).queue q = t.queue q := by simp [State.inc, State.addF, State.queue]
  have hcount := State.fld_addF t (f := Reg.cuesFetched) 1 (by decide +kernel)
  rw [h.count] at hcount
  exact ⟨hqueue ▸ h.enabled, hqueue ▸ h.stays, hqueue ▸ h.head, hqueue ▸ h.tail, by simp [State.inc, State.addF, h.rr],
    by simp [State.inc, State.addF, h.next], hcount⟩

theorem State.ReadOut.setQueue (h : t.ReadOut q tail rr next count) {x : Queue} (henabled : x.state = (t.queue q).state)
    (hstays : x.disabling = (t.queue q).disabling) (hhead : x.head = (t.queue q).head) (htail : x.tail = (t.queue q).tail) :
    (t.setQueue q x).ReadOut q tail rr next count := by
  have hqueue : (t.setQueue q x).queue q = x := (State.queue_setQueue ..).trans (if_pos rfl)
  exact ⟨by rw [hqueue, henabled, h.enabled], by rw [hqueue, hstays, h.stays], by rw [hqueue, hhead, h.head],
    by rw [hqueue, htail, h.tail], h.rr, h.next, h.count⟩

theorem State.settleQueue_stays (h : (t.queue q).disabling = false) : t.settleQueue q = t := by
  rw [State.settleQueue, h, Bool.false_and, if_neg Bool.false_ne_true]

/-- The rejection of a cue that was just read: its record is handed to the queue it came from. -/
theorem State.ReadOut.rejectCue (h : t.ReadOut q tail rr next count) {c : CueRec} (hq : c.queue = some q) (r : Nat × Nat) : (t.rejectCue c r).ReadOut q tail rr next count := by
  have hinc := h.inc (f := Reg.cuesRejected) (by decide)
  have hin : (c.inAttempt && !true) = false := Bool.and_false _
  rw [State.rejectCue, State.cueRecord]
  simp only [hq, hin, Bool.false_eq_true, if_false]
  split
  · have hput : ((t.inc Reg.cuesRejected).putRecord q (cplRecord 1 0 r.1 r.2 c.tag c.index (c.epoch.getD 0) c.step)).ReadOut q tail
        rr next count := by
      rw [State.putRecord, if_neg (by rw [hinc.enabled]; decide)]
      exact hinc.setQueue rfl rfl rfl rfl
    rw [State.settleQueue_stays hput.stays]
    exact hput
  · rw [State.settleQueue_stays hinc.stays]
    exact hinc

theorem State.ReadOut.enqueue (h : t.ReadOut q tail rr next count) (c : CueRec) (held : Bool) :
    (t.enqueue c held).ReadOut q tail rr next count := by
  have hwait : ({ t with waiting := t.waiting ++ [{ c with held }] } : State).ReadOut q tail rr next count :=
    ⟨h.enabled, h.stays, h.head, h.tail, h.rr, h.next, h.count⟩
  rw [State.enqueue]
  split
  · exact hwait.inc (by decide)
  · exact hwait

/-- Once a queue is read out its bell is off. -/
theorem State.ReadOut.fetchHost (h : t.ReadOut q tail rr next count) (k : Nat) :
    t.fetchHost q k = t.setQueue q { t.queue q with bell := false } := by
  have hend : (t.queue q).head = (t.queue q).tail := h.head.trans h.tail.symm
  cases k with
  | zero => rw [State.fetchHost, if_pos hend]
  | succ k => rw [State.fetchHost, if_neg (by rw [h.enabled]; decide), if_pos hend]

/-- The last posted cue of an enabled queue is accepted or rejected while nothing waits: the hold store has room. -/
theorem State.acceptCue_last (hwait : s.waiting = []) (henabled : (s.queue q).state = 1) (hstays : (s.queue q).disabling = false)
    (hlast : (s.queue q).tail = ((s.queue q).head + 1) % 2 ^ 32)
    (htable : s.outerServes .hbm (s.rd Reg.queTableBase + 64 * q) 64) (raw : List Byte) :
    ∃ t, s.acceptCue q raw = some t
      ∧ t.ReadOut q (s.queue q).tail s.rr (s.nextCue + 1) (min (s.fld Reg.cuesFetched + 1) (2 ^ 64 - 1)) := by
  have hroom (b : CueRec) : (b.job.map s.holdUsed).getD 0 = 0 := by
    cases b.job with
    | none => rfl
    | some slot => simp [State.holdUsed, hwait]
  obtain ⟨ws, hws, -⟩ := State.updateQueue_served (s := { s with nextCue := s.nextCue + 1 })
    { s.queue q with head := ((s.queue q).head + 1) % 2 ^ 32 } htable
  have hread : ((({ s with nextCue := s.nextCue + 1 } : State).updateQueue q
      { s.queue q with head := ((s.queue q).head + 1) % 2 ^ 32 }).inc Reg.cuesFetched).ReadOut q (s.queue q).tail s.rr (s.nextCue + 1)
      (min (s.fld Reg.cuesFetched + 1) (2 ^ 64 - 1)) := by
    rw [hws]
    have hset : (({ s with nextCue := s.nextCue + 1 } : State).setQueue q { s.queue q with head := ((s.queue q).head + 1) % 2 ^ 32 }).ReadOut
        q (s.queue q).tail s.rr (s.nextCue + 1) (s.fld Reg.cuesFetched) := by
      refine ⟨?_, ?_, ?_, ?_, rfl, rfl, rfl⟩ <;> rw [State.queue_setQueue, if_pos rfl]
      · exact henabled
      · exact hstays
      · exact hlast.symm
    exact (hset.to (storeAll_touch _ ws) ⟨rfl, by decide⟩).counted
  unfold State.acceptCue
  extract_lets c slot director b later bad held x v
  rw [hroom, if_neg (by simp)]
  refine ⟨_, rfl, ?_⟩
  split
  · exact hread.rejectCue rfl bad
  · exact hread.enqueue b held

/-- A visit to a queue whose last posted cue is the one at HEAD, in HBM. -/
theorem State.fetchHost_last {k : Nat} (hwait : s.waiting = []) (hready : (s.queue q).ready = true)
    (hlast : (s.queue q).tail = ((s.queue q).head + 1) % 2 ^ 32)
    (htable : s.outerServes .hbm (s.rd Reg.queTableBase + 64 * q) 64)
    (hcue : s.outerServes .hbm ((s.queue q).ring + 64 * ((s.queue q).head % 2 ^ (s.queue q).log2)) 64) :
    ∃ t : State, s.fetchHost q (k + 1) = t.setQueue q { t.queue q with bell := false }
      ∧ t.ReadOut q (s.queue q).tail s.rr (s.nextCue + 1) (min (s.fld Reg.cuesFetched + 1) (2 ^ 64 - 1)) := by
  simp only [Queue.ready, Bool.and_eq_true, beq_iff_eq, Bool.not_eq_true'] at hready
  obtain ⟨⟨⟨henabled, hstays⟩, -⟩, -⟩ := hready
  obtain ⟨t, haccept, ht⟩ := State.acceptCue_last hwait henabled hstays hlast htable
    (s.bytes ((s.queue q).ring + 64 * ((s.queue q).head % 2 ^ (s.queue q).log2)) 64)
  have hposted : (s.queue q).head ≠ (s.queue q).tail := by omega
  refine ⟨t, ?_, ht⟩
  simp only [State.fetchHost, henabled, ne_eq, not_true, if_false, if_neg hposted, State.devRead_served _ hcue, haccept]
  exact ht.fetchHost k

/-- With one source and no director queue, CUE_FETCH visits the source. -/
theorem exec_cueFetch_source (henable : s.fld Reg.queEnable = 1) (hserved : s.served = true) (hdirector : s.fld Reg.directorMask = 0)
    (hq : q < 2 ^ 20) (hsources : s.sources = [q]) :
    exec .cueFetch s = .next { ({ s.quiet with rr := q } : State).fetchHost q 16 with pending := s.pending } := by
  have hnone : (List.range 16).find? (fun k => s.quiet.isDirector k && (s.quiet.queue k).ready) = none := by
    refine List.find?_eq_none.2 fun k _ => ?_
    have hk : s.quiet.isDirector k = false := by
      change (decide (k < 16) && bitAt k (s.fld Reg.directorMask)) = false
      rw [hdirector]
      simp [bitAt]
    simp [hk]
  have hnext : (s.quiet.sources.find? fun x => decide (s.rr < x)).or s.quiet.sources.head? = some q := by
    rw [show s.quiet.sources = [q] from hsources]
    by_cases hr : s.rr < q <;> simp [hr]
  refine (run_next _ s rfl).trans ?_
  rw [if_pos ⟨henable, hserved⟩, hnone]
  simp only [hnext, State.visit, if_pos hq]

end

end Sys2Proof.Machine

namespace Sys2Proof.Machine

open Sys2Proof

/-! ### What the end of an operation keeps of the jobs (R240, R252) -/

section
variable {α : Type} {view : Job → α} {slot : Nat} {F : List Fld} {s t : State}

/-- The jobs alone: any change of another area keeps them. -/
theorem Keeps.to_jobs {M : Nat} {u : State} (h : Keeps view slot [] s t) (k : Touch M t u) (hM : M.testBit 7 = false) :
    Keeps view slot [] s u :=
  h.trans ⟨fun i => congrArg (Option.map view) (job_of_touch k hM i), fun _ _ hf => absurd hf List.not_mem_nil⟩

/-- What does not look at the outbound buffer is kept by a cue's record. -/
theorem Keeps.cueRecord (h : Keeps view slot F s t) (hview : ∀ j l, view { j with outbound := l } = view j) (c : CueRec)
    (status detail tag : Nat) (now : Bool) : Keeps view slot F s (t.cueRecord c status detail tag now) := by
  unfold State.cueRecord
  split
  · exact h
  · rename_i q hq
    extract_lets r u
    refine Keeps.to (t := u) ?_ (settleQueue_touch ..) ⟨rfl, rfl⟩
    refine Keeps.ite ?_ h
    split
    · exact h.modJob _ fun j => hview j _
    · exact h.to (putRecord_touch ..) ⟨rfl, rfl⟩

theorem Keeps.formSums (h : Keeps view slot F s t) (hview : ∀ j m, view { j with gradSums := m } = view j) (k : Nat)
    (final : Tensor → Bool) : Keeps view slot F s (t.formSums k final) := by
  unfold State.formSums
  split
  · exact h
  · rename_i j hj
    refine h.foldl (fun u g => ?_) _
    have hsum := Keeps.to (F := F) (view := view) (slot := slot) (Keeps.refl u) (sumOf_touch u (.manager (some k)) j g.1 g.2) ⟨rfl, rfl⟩
    split
    · rename_i heq
      rw [heq] at hsum
      exact hsum.modJob _ fun j => hview j _
    · rename_i heq
      rw [heq] at hsum
      exact hsum

theorem Keeps.bwdSums (h : Keeps view slot F s t) (hview : ∀ j m, view { j with gradSums := m } = view j) (k : Nat) :
    Keeps view slot F s (t.bwdSums k) := by
  unfold State.bwdSums
  split
  · exact Keeps.ite (h.formSums hview k _) h
  · exact h

end

/-! ### Issue (R240) -/

section
variable {s : State} {c : CueRec} {slot i : Nat} {j : Job}

theorem State.boundNow_of_job (h : c.job = some slot) : s.boundNow c = c := by
  unfold State.boundNow
  rw [h]

theorem State.lateCheck_of_job (h : c.job = some slot) : s.lateCheck c = (0, 0xFFFF) := by
  rw [State.lateCheck, h, Option.isNone_some, Bool.false_and, if_neg Bool.false_ne_true]

/-- The issue of a cue that no rule rejects takes it from the waiting list and fills the slot with it; after that only the job and its
window change. -/
theorem State.issue_accepted (hjob : c.job = some slot) (hj : s.job slot = some j) (hcheck : j.issueCheck c = 0) :
    ∃ o, o.cue = c ∧ Touch 8388736 { s with waiting := s.waiting.filter (fun d => d.id != c.id), ops := SMap.put s.ops i o }
      (s.issue c i) := by
  unfold State.issue
  extract_lets b k late bad o u
  have hb : b = c := State.boundNow_of_job hjob
  have hk : k = some slot := by rw [← hjob, ← hb]
  have hlate : late = (0, 0xFFFF) := State.lateCheck_of_job hjob
  have hbad : bad.1 = 0 := by
    have hslot : k.bind s.job = some j := by rw [hk]; exact hj
    simp only [bad, hlate, hslot, hb, hcheck, ne_eq, not_true, if_false]
  rw [if_neg (not_not_intro hbad)]
  refine ⟨o, hb, ?_⟩
  change Touch 8388736 u _
  clear_value u o bad late k b
  split
  · rename_i k'
    extract_lets x y
    have hx : Touch 128 u x := modJob_touch ..
    have hy : Touch 8388736 u y := Touch.ite ((hx.widen rfl).to (setJf_touch _ _ _ _ (by decide)) rfl) (hx.widen rfl)
    exact hy.to (phaseStep_touch y k') rfl
  · exact Touch.refl _ u

theorem State.issue_shows (hjob : c.job = some slot) (hj : s.job slot = some j) (hcheck : j.issueCheck c = 0) :
    (s.issue c i).waiting = s.waiting.filter (fun d => d.id != c.id) ∧ ∃ o, o.cue = c ∧ (s.issue c i).ops = SMap.put s.ops i o := by
  obtain ⟨o, hcue, ho⟩ := State.issue_accepted (i := i) hjob hj hcheck
  exact ⟨(ho.queues rfl).2.2.1, o, hcue, ho.ops rfl⟩

theorem exec_cueIssue (hfind : s.waiting.find? (fun d => d.id == c.id) = some c) (hjob : c.job = some slot)
    (hstop : s.ckp.stopping = false) (hfence : c.fence = false) (hmay : s.mayIssue c = true) (hfree : s.freeSlot c = some i) :
    exec (.cueIssue c.id) s = .next { s.quiet.issue c i with pending := s.pending } := by
  have hlate : s.quiet.lateCheck c = (0, 0xFFFF) := State.lateCheck_of_job hjob
  have hbound : s.quiet.boundNow c = c := State.boundNow_of_job hjob
  have hmayq : s.quiet.mayIssue c = true := hmay
  have hfreeq : s.quiet.freeSlot c = some i := hfree
  change execCueIssue c.id s = _
  rw [execCueIssue, run_next _ s rfl]
  simp only [hfind, hlate, hbound, hmayq, hstop, hfence, hfreeq]
  rw [if_neg (by simp)]

end

/-! ### Completion (R240, R243) -/

section
variable {s : State} {i slot : Nat} {o : OpSlot} {j : Job}

theorem exec_cueComplete (hi : i < 16384) (ho : SMap.find s.ops i = some o) (hstarted : o.started = true) (hleft : o.left = 0)
    (hjob : o.cue.job = some slot) :
    exec (.cueComplete i) s = .next { ((s.quiet.completeOp i).phaseStep slot).bwdSums slot with pending := s.pending } := by
  change execCueComplete i s = _
  rw [execCueComplete, run_next _ s (decide_eq_true hi)]
  simp only [ho, hstarted, hleft, hjob, and_self, if_true]

theorem State.ops_completeOp (ho : SMap.find s.ops i = some o) (now : Bool) : (s.completeOp i now).ops = SMap.del s.ops i := by
  unfold State.completeOp
  split
  case h_2 hnone => exact absurd (ho.symm.trans hnone) (by simp)
  rename_i o' ho'
  cases ho.symm.trans ho'
  extract_lets c u v w
  have hv : Touch 128 u v := by
    unfold v
    split
    · exact modJob_touch ..
    · exact Touch.refl _ u
  have hw : Touch 8388736 u w := by
    unfold w
    split
    · exact (hv.widen rfl).to (setJf_touch _ _ _ _ (by decide)) rfl
    · exact hv.widen rfl
  exact ((hw.widen (M := 209927703735) rfl).to (cueRecord_touch w c o.status o.detail (o.tagOut.getD c.tag) now) rfl).ops rfl

/-- A cue of its job's attempt counts as completed there. -/
theorem State.completed_completeOp (ho : SMap.find s.ops i = some o) (hjob : o.cue.job = some slot) (hj : s.job slot = some j)
    (hindex : o.cue.index ≠ noIndex) (hepoch : o.cue.epoch = some j.epoch) (hahead : o.cue.ahead = false) (now : Bool) :
    ((s.completeOp i now).job slot).map (·.completed) = some (o.cue.index :: j.completed) := by
  unfold State.completeOp
  split
  case h_2 hnone => exact absurd (ho.symm.trans hnone) (by simp)
  rename_i o' ho'
  cases ho.symm.trans ho'
  extract_lets c u v w
  have hw : Keeps (·.completed) slot [] v w := by
    unfold w
    split
    · exact (Keeps.refl v).setJf _ (g := Reg.jobAhead) _ (by decide) (fun _ hf => absurd hf List.not_mem_nil)
    · exact Keeps.refl v
  have hv : v.job slot = some (if c.index ≠ noIndex ∧ c.epoch = some j.epoch ∧ !c.ahead then
      { j with completed := c.index :: j.completed } else j) := by
    have hu : u.job slot = some j := hj
    simp only [v, c, hjob, State.job_modJob, if_true, hu, Option.map_some]
  rw [(hw.cueRecord (fun _ _ => rfl) c o.status o.detail (o.tagOut.getD c.tag) now).jobs slot, hv,
    if_pos ⟨hindex, hepoch, by rw [hahead]; rfl⟩]
  rfl

end

/-- Settles O21: the parts are the visit to the queue, the issue of the cue and the completion of its operation. -/
theorem cuesAreFetchedAndIssued : Obligations.CuesAreFetchedAndIssued := by
  refine ⟨?_, ?_, ?_⟩
  · intro s q henable hserved hdirector hq hsources hready hwait hlast htable hcue
    obtain ⟨t, hfetch, ht⟩ := State.fetchHost_last (s := { s.quiet with rr := q }) (k := 15) hwait hready hlast htable hcue
    refine ⟨_, exec_cueFetch_source henable hserved hdirector hq hsources, ?_⟩
    rw [hfetch]
    have hqueue : (t.setQueue q { t.queue q with bell := false }).queue q = { t.queue q with bell := false } :=
      (State.queue_setQueue ..).trans (if_pos rfl)
    refine ⟨?_, congrArg Queue.bell hqueue, ht.rr, ht.next, ht.count⟩
    exact (congrArg Queue.head hqueue).trans ht.head
  · intro s c slot i j hfind hjob hj hstop hfence hmay hfree hcheck
    obtain ⟨hwaiting, o, hcue, hops⟩ := State.issue_shows (s := s.quiet) (i := i) hjob hj hcheck
    refine ⟨_, exec_cueIssue hfind hjob hstop hfence hmay hfree, hwaiting, ?_, fun k hk => ?_⟩
    · simp only [hops, SMap.find_put, if_true, Option.map_some, hcue]
    · simp only [hops, SMap.find_put, if_neg (Ne.symm hk)]
  · intro s i slot o j hi ho hstarted hleft hjob hj hepoch hahead hindex
    have hops : (((s.quiet.completeOp i).phaseStep slot).bwdSums slot).ops = SMap.del s.ops i :=
      (((phaseStep_touch _ slot).widen (M := 209927668887) rfl).to (bwdSums_touch _ slot) rfl).ops rfl |>.trans (State.ops_completeOp (s := s.quiet) ho false)
    have hkept : Keeps (·.completed) slot [] (s.quiet.completeOp i) (((s.quiet.completeOp i).phaseStep slot).bwdSums slot) :=
      ((Keeps.refl _).to_jobs (phaseStep_touch _ slot) rfl).bwdSums (fun _ _ => rfl) slot
    refine ⟨_, exec_cueComplete hi ho hstarted hleft hjob, ?_, fun k hk => ?_, ?_⟩
    · simp only [hops, SMap.find_del, if_true]
    · simp only [hops, SMap.find_del, if_neg (Ne.symm hk)]
    · exact (hkept.jobs slot).trans (State.completed_completeOp (s := s.quiet) ho hjob hj hindex hepoch hahead false)

end Sys2Proof.Machine

namespace Sys2Proof.Machine

open Sys2Proof

/-! ### Operations that no predicate picks stay (R244) -/

theorem SMap.find_of_mem {α : Type} {m : SMap α} (h : SMap.sorted m = true) {e : Nat × α} (he : e ∈ m) : SMap.find m e.1 = some e.2 := by
  rw [SMap.sorted_iff] at h
  induction m with
  | nil => cases he
  | cons x m ih =>
    rw [List.pairwise_cons] at h
    rcases List.mem_cons.1 he with rfl | he
    · exact (SMap.find_cons ..).trans (if_pos rfl)
    · exact (SMap.find_cons ..).trans ((if_neg (h.1 e he).ne).trans (ih h.2 he))

section
variable {s : State} {i : Nat} {o : OpSlot} {gone : CueRec → Bool}

theorem State.find_abandonCues (hsorted : SMap.sorted s.ops = true) (ho : SMap.find s.ops i = some o) (hg : gone o.cue = false) :
    SMap.find (s.abandonCues gone).ops i = some o := by
  have hids : ((s.ops.filter fun e => gone e.2.cue).map (·.1)).contains i = false := by
    rw [List.contains_eq_mem, decide_eq_false_iff_not, List.mem_map]
    rintro ⟨e, he, rfl⟩
    rw [List.mem_filter] at he
    rw [SMap.find_of_mem hsorted he.1] at ho
    cases ho
    rw [hg] at he
    exact Bool.false_ne_true he.2
  have hdrop : SMap.find (s.dropOps gone).ops i = some o := by
    unfold State.dropOps
    extract_lets ids u
    have hu : u.ops = s.ops := (dropWork_touch s ids).ops rfl
    rw [hu]
    refine (SMap.find_filter (fun k => !ids.contains k) s.ops i).trans ?_
    rw [show ids.contains i = false from hids, Bool.not_false, if_pos rfl, ho]
  unfold State.abandonCues
  extract_lets cues u v
  have hcues : Touch 209919315127 v (cues.foldl (fun s c => s.cueRecord c St.abandoned 0xFFFF c.tag true) v) :=
    Touch.foldl (Touch.refl ..) fun t c h => h.to (cueRecord_touch ..) rfl
  rw [hcues.ops rfl]
  exact hdrop

end

/-! ### A slot's registers -/

section
variable {s : State} {slot off : Nat}

theorem State.rd_clearRegs (s : State) (base step n : Nat) : ∀ off, inRange base step n off → (s.clearRegs base step n).rd off = 0 := by
  rw [State.clearRegs]
  induction n with
  | zero => exact fun off ⟨i, hi, _⟩ => absurd hi (Nat.not_lt_zero i)
  | succ n ih =>
    rintro off ⟨i, hi, hoff⟩
    rw [List.range_succ, List.foldl_append, List.foldl_cons, List.foldl_nil]
    by_cases hlast : base + step * n = off
    · rw [hlast, State.rd_wr_same, Nat.zero_and]
    · rw [State.rd_wr_other _ _ hlast]
      refine ih off ⟨i, Nat.lt_of_le_of_ne (Nat.lt_succ_iff.1 hi) fun hin => ?_, hoff⟩
      exact hlast (by rw [hoff, hin])

theorem jobFields_range : ∀ f ∈ jobFields, inRange 0x40100 4 0x13 f.off := by
  intro f hf
  refine ⟨(f.off - 0x40100) / 4, ?_⟩
  revert f
  decide

theorem State.jf_clearJob {f : Fld} (hslot : slot < 4) (hf : f ∈ jobFields) : (s.clearJob slot).jf slot f = 0 := by
  obtain ⟨k, hk, hoff⟩ := jobFields_range f hf
  have hzero : (s.clearJob slot).rd (f.off + 0x100 * slot) = 0 := by
    rw [State.clearJob, State.clearWin, if_pos hslot]
    exact State.rd_clearRegs s _ _ _ _ ⟨k, hk, by omega⟩
  change bits f.hi f.lo ((s.clearJob slot).rd (f.off + 0x100 * slot)) = 0
  rw [hzero]
  simp [bits]

end

/-! ### JOB_START, JOB_STOP and JOB_UNLOAD (R267, R410) -/

section
variable {s : State} {i slot opcode : Nat} {o : OpSlot} {j : Job}

theorem State.withSlot_waits (h : s.slotWaits i opcode o slot j) (f : Nat → Job → State) : s.quiet.withSlot i o f = f slot j := by
  obtain ⟨-, -, hop, hj, hid, hst⟩ := h
  have hq : s.quiet.job slot = some j := hj
  rw [State.withSlot, hop, hq]
  exact if_pos ⟨hid, hst⟩

theorem State.modJob_some (hj : s.job slot = some j) (f : Job → Job) : s.modJob slot f = s.setJob slot (f j) := by
  rw [State.modJob, hj]

/-- The full interval that precedes a protected job's first attempt after a start (R410). -/
def State.fullFirst (s : State) (slot : Nat) : State :=
  if s.ckp.job = some slot then
    { s with ckp := { s.ckp with starting := true, full := true, barrier := s.fld Reg.ckpSSealed == 1 } }.setF Reg.ckpFullNext 1
  else s

/-- What JOB_START changes before it completes. -/
def State.started (s : State) (slot : Nat) (j : Job) : State :=
  (((s.setJf slot Reg.jobState 3).modJob slot fun (j : Job) => { j with failed := 0, stopNext := false }).openAdds j).fullFirst slot

theorem fullFirst_touch (s : State) (slot : Nat) : Touch 67141632 s (s.fullFirst slot) :=
  Touch.ite ((Touch.set_ckp (Touch.refl 67141632 s) rfl).to (setF_touch_in (k := 26) _ Reg.ckpFullNext 1 rfl) rfl) (Touch.refl ..)

theorem State.ckp_fullFirst (h : s.ckp.job = some slot) : (s.fullFirst slot).ckp.starting = true ∧ (s.fullFirst slot).ckp.full = true := by
  rw [State.fullFirst, if_pos h, State.setF_ckp]
  exact ⟨rfl, rfl⟩

theorem exec_jobStart (h : s.slotWaits i cJobStart o slot j) (hst : s.jf slot Reg.jobState = 2 ∨ s.jf slot Reg.jobState = 4)
    (hok : j.startOk = true) : exec (.jobStart i) s = .next { (s.quiet.started slot j).opDone i 0 0 with pending := s.pending } := by
  have hstate : ¬(s.quiet.jf slot Reg.jobState ≠ 2 ∧ s.quiet.jf slot Reg.jobState ≠ 4) := by
    change ¬(s.jf slot Reg.jobState ≠ 2 ∧ s.jf slot Reg.jobState ≠ 4)
    omega
  have hstart : ¬(!j.startOk) = true := by simp [hok]
  change execJobStart i s = _
  rw [execJobStart, run_next (ok := opOk i) _ s (decide_eq_true h.1.1), State.withOp_waits h.1, State.withSlot_waits h]
  dsimp only
  rw [if_neg hstate, if_neg hstart]
  rfl

theorem State.started_shows (hslot : slot < 4) (hj : s.job slot = some j) :
    let t := s.started slot j
    t.ops = s.ops ∧ t.jf slot Reg.jobState = 3 ∧ t.job slot = some { j with failed := 0, stopNext := false }
      ∧ (s.ckp.job = some slot → t.ckp.starting = true ∧ t.ckp.full = true) := by
  have hset := setJf_touch s slot Reg.jobState 3 (by decide)
  let v := (s.setJf slot Reg.jobState 3).modJob slot fun (j : Job) => { j with failed := 0, stopNext := false }
  have hv : Touch 128 (s.setJf slot Reg.jobState 3) v := modJob_touch ..
  have hopen : Touch 1073741824 v (v.openAdds j) := openAdds_touch v j
  have hrest : Touch 1140883456 v (s.started slot j) := (hopen.widen rfl).to (fullFirst_touch (v.openAdds j) slot) rfl
  refine ⟨(hrest.ops rfl).trans ((hv.ops rfl).trans (hset.ops rfl)), ?_, ?_, fun hckp => State.ckp_fullFirst ?_⟩
  · exact (hrest.jf rfl (by decide) hslot).trans ((hv.jf rfl (by decide) hslot).trans (State.jf_setJf 3 (by decide) hslot))
  · rw [job_of_touch hrest rfl, State.job_modJob, if_pos rfl, job_of_touch hset rfl, hj, Option.map_some]
  · exact (congrArg Ckp.job ((hopen.ckp rfl).trans ((hv.ckp rfl).trans (hset.ckp rfl)))).trans hckp

theorem exec_jobUnload (h : s.slotWaits i cJobUnload o slot j) (hst : s.jf slot Reg.jobState ≠ 3) :
    exec (.jobUnload i) s = .next { (s.quiet.unload slot j).opDone i 0 0 with pending := s.pending } := by
  have hstate : s.quiet.jf slot Reg.jobState ≠ 3 := hst
  change execJobUnload i s = _
  rw [execJobUnload, run_next (ok := opOk i) _ s (decide_eq_true h.1.1), State.withOp_waits h.1, State.withSlot_waits h, if_neg hstate]

theorem State.unload_shows (hslot : slot < 4) (hsorted : SMap.sorted s.ops = true) (ho : SMap.find s.ops i = some o)
    (hop : 0x40 ≤ o.cue.opcode) :
    let t := s.unload slot j
    SMap.find t.ops i = some o ∧ t.job slot = none ∧ t.jf slot Reg.jobState = 0 ∧ t.jf slot Reg.jobId = 0 := by
  have hgone : (o.cue.job == some slot && o.cue.opcode < 0x40) = false := by
    rw [decide_eq_false (Nat.not_lt.2 hop), Bool.and_false]
  have hkeep := State.find_abandonCues (gone := fun c => c.job == some slot && c.opcode < 0x40) hsorted ho hgone
  intro t
  change SMap.find (s.unload slot j).ops i = _ ∧ (s.unload slot j).job slot = _ ∧ (s.unload slot j).jf slot _ = _
    ∧ (s.unload slot j).jf slot _ = _
  unfold State.unload
  extract_lets u v w x rng y ckp
  have hv : Touch 1073742848 u v := lockBanks_touch ..
  have hx : Touch (2 ^ 23) w x := clearJob_touch ..
  have hy : Touch 33554944 x y :=
    Touch.ite ((Touch.set_rng (Touch.refl 33554944 x) rfl).to (setF_touch_in (k := 25) _ Reg.rngKeyReady 0 rfl) rfl) (Touch.refl ..)
  have hrest (t : State) (hend : Touch 33587712 x t) :
      SMap.find t.ops i = some o ∧ t.job slot = none ∧ t.jf slot Reg.jobState = 0 ∧ t.jf slot Reg.jobId = 0 := by
    refine ⟨?_, ?_, (hend.jf rfl (by decide) hslot).trans (State.jf_clearJob hslot (by decide)),
      (hend.jf rfl (by decide) hslot).trans (State.jf_clearJob hslot (by decide))⟩
    · rw [hend.ops rfl, hx.ops rfl]
      exact (congrArg (SMap.find · i) (hv.ops rfl)).trans hkeep
    · rw [job_of_touch hend rfl, job_of_touch hx rfl]
      exact (SMap.find_del ..).trans (if_pos rfl)
  exact hrest _ (Touch.ite (Touch.set_ckp (hy.widen rfl) rfl) (hy.widen rfl))

/-- What JOB_STOP of a RUNNING job changes before it completes. -/
def State.stopped (s : State) (slot : Nat) (o : OpSlot) (j : Job) : State :=
  if !j.isOpen then
    if s.inStop ∧ s.ckp.job = some slot then s.modJob slot fun (j : Job) => { j with stopNext := true } else s.setJf slot Reg.jobState 4
  else if bitAt 0 (o.cue.op 37 1) ∧ s.jf slot Reg.jobPhase < 5 then (s.abandon slot Cause.stop).setJf slot Reg.jobState 4
  else s.modJob slot fun (j : Job) => { j with stopNext := true }

theorem exec_jobStop {u : State} (h : s.slotWaits i cJobStop o slot j) (hst : s.jf slot Reg.jobState = 3)
    (hu : s.quiet.stopped slot o j = u) (hops : u.ops = s.ops) (hpend : u.pending = s.pending) :
    exec (.jobStop i) s = .next { u with ops := SMap.put s.ops i { o with started := true, left := 0 } } := by
  have hstate : ¬s.quiet.jf slot Reg.jobState ≠ 3 := not_not_intro hst
  have hfind : SMap.find u.ops i = some o := by rw [hops]; exact h.1.2.1
  have hdone : u.opDone i 0 0 = { u with ops := SMap.put s.ops i { o with started := true, left := 0 } } := by
    rw [State.opDone_find hfind, hops, h.1.2.2.2.2]
    rfl
  change execJobStop i s = _
  rw [execJobStop]
  refine run_to (decide_eq_true h.1.1) ?_ hpend
  rw [State.withOp_waits h.1, State.withSlot_waits h]
  dsimp only
  rw [if_neg hstate, ← hdone, ← hu, State.stopped]
  split_ifs <;> rfl

/-- A job between attempts stops at once, unless an interval stop of it is under way. -/
theorem State.stopped_closed (hopen : j.isOpen = false) (h : s.inStop = false ∨ s.ckp.job ≠ some slot) :
    s.stopped slot o j = s.setJf slot Reg.jobState 4 := by
  rw [State.stopped, if_pos (by rw [hopen]; rfl), if_neg]
  rintro ⟨hin, hjob⟩
  rcases h with h | h
  · rw [h] at hin
    cases hin
  · exact h hjob

/-- A job whose attempt is open, or whose interval stop is under way, stops at its boundary. -/
theorem State.stopped_marked (hj : s.job slot = some j)
    (h : j.isOpen = true ∧ (o.cue.op 37 1).testBit 0 = false ∨ j.isOpen = false ∧ s.inStop = true ∧ s.ckp.job = some slot) :
    s.stopped slot o j = s.setJob slot { j with stopNext := true } := by
  rw [State.stopped, State.modJob_some hj]
  rcases h with ⟨hopen, hnow⟩ | ⟨hopen, hin, hjob⟩
  · rw [if_neg (by rw [hopen]; decide), if_neg fun h => Bool.false_ne_true (hnow.symm.trans h.1)]
  · rw [if_pos (by rw [hopen]; rfl), if_pos ⟨hin, hjob⟩]

end

/-- Settles O31: JOB_START sets the state and leaves the rest of the slot's job, JOB_STOP changes one register or the job's mark, and what
JOB_UNLOAD ends leaves its own operation. -/
theorem jobsStartStopAndUnload : Obligations.JobsStartStopAndUnload := by
  intro s i slot o j hsorted
  refine ⟨fun h hst hok => ?_, fun h hst => ⟨fun hclosed hstop => ?_, fun hmark => ?_⟩, fun h hst => ?_⟩
  · obtain ⟨hops, hstate, hjob, hckp⟩ := State.started_shows (s := s.quiet) h.2.1 h.2.2.2.1
    have hdone := opDone_touch (s.quiet.started slot j) i 0 0
    have hfind : SMap.find (s.quiet.started slot j).ops i = some o := by rw [hops]; exact h.1.2.1
    refine ⟨_, exec_jobStart h hst hok, State.opRan_opDone hfind h.1.2.2.2.2 0, (hdone.jf rfl (by decide) h.2.1).trans hstate,
      (job_of_touch hdone rfl slot).trans hjob, fun hc => ?_⟩
    have hsame : ((s.quiet.started slot j).opDone i 0 0).ckp = (s.quiet.started slot j).ckp := hdone.ckp rfl
    exact ⟨(congrArg Ckp.starting hsame).trans (hckp hc).1, (congrArg Ckp.full hsame).trans (hckp hc).2⟩
  · have hset := setJf_touch s.quiet slot Reg.jobState 4 (by decide)
    refine ⟨_, exec_jobStop h hst (State.stopped_closed hclosed hstop) (hset.ops rfl) hset.pending, ?_, ?_, fun off hoff => ?_⟩
    · exact (SMap.find_put ..).trans (if_pos rfl)
    · exact State.jf_setJf (s := s.quiet) 4 (by decide) h.2.1
    · change (s.quiet.setJf slot Reg.jobState 4).rd off = _
      rw [State.setJf, if_pos h.2.1]
      exact State.rd_setF_other s.quiet 4 (Ne.symm hoff)
  · exact exec_jobStop h hst (State.stopped_marked (s := s.quiet) h.2.2.2.1 hmark) rfl rfl
  · have hop : 0x40 ≤ o.cue.opcode := by rw [h.1.2.2.1]; decide
    obtain ⟨hfind, hjob, hstate, hid⟩ := State.unload_shows (s := s.quiet) (j := j) h.2.1 hsorted h.1.2.1 hop
    have hdone := opDone_touch (s.quiet.unload slot j) i 0 0
    exact ⟨_, exec_jobUnload h hst, State.opRan_opDone hfind h.1.2.2.2.2 0, (job_of_touch hdone rfl slot).trans hjob,
      (hdone.jf rfl (by decide) h.2.1).trans hstate, (hdone.jf rfl (by decide) h.2.1).trans hid⟩

end Sys2Proof.Machine

namespace Sys2Proof.Machine

open Sys2Proof

/-! ### An abandoned attempt (R256, Table 7.10) -/

section
variable {α : Type} {view : Job → α} {slot : Nat} {F : List Fld} {s t : State}

/-- A change of the jobs alone, or of areas apart from them and from their windows. -/
theorem Keeps.event (h : Keeps view slot F s t) (code unit : Nat) (args : List Nat) (status : Nat := 0) :
    Keeps view slot F s (t.event code unit args status) :=
  h.to (event_touch ..) ⟨rfl, rfl⟩

theorem Keeps.setFov {f : Fov} (h : Keeps view slot F s t) : Keeps view slot F s { t with fov := f } :=
  h.to (Touch.set_fov (Touch.refl (2 ^ 16) t) rfl) ⟨rfl, rfl⟩

theorem Keeps.showCursor (h : Keeps view slot F s t) (k : Nat)
    (ha : ∀ f ∈ F, f.apart Reg.jobSample = true ∧ f.apart Reg.jobShard = true) : Keeps view slot F s (t.showCursor k) := by
  unfold State.showCursor
  split
  · split
    · exact (h.setJf k _ (by decide) fun f hf => (ha f hf).1).setJf k _ (by decide) fun f hf => (ha f hf).2
    · exact h.setJf k _ (by decide) fun f hf => (ha f hf).1
  · exact h

theorem Keeps.abandonCues (h : Keeps view slot F s t) (hview : ∀ j l, view { j with outbound := l } = view j) (gone : CueRec → Bool) :
    Keeps view slot F s (t.abandonCues gone) := by
  unfold State.abandonCues
  extract_lets cues u v
  have hu : Keeps view slot F s u := h.to (dropOps_touch ..) ⟨rfl, rfl⟩
  have hv : Keeps view slot F s v := hu.to (Touch.set_waiting (Touch.refl (2 ^ 5) u) rfl) ⟨rfl, rfl⟩
  exact hv.foldl (fun u c => (Keeps.refl u).cueRecord hview ..) _

theorem Keeps.exportFallback (h : Keeps view slot F s t) (ha : ∀ f ∈ F, f.apart Reg.jobState = true) (limit : Nat := 2 ^ 48) :
    Keeps view slot F s (t.exportFallback limit) := by
  unfold State.exportFallback
  extract_lets first u st filling v
  have hu : Keeps view slot F s u := (h.to (addF_touch_in (k := 27) t Reg.fallbacks 1 rfl) ⟨rfl, rfl⟩).event ..
  have hv : Keeps view slot F s v :=
    hu.foldl (fun w k => ((Keeps.refl w).setJf k _ (by decide) ha).ite (Keeps.refl w)) _
  exact hv.setFov.to (setF_touch_in (k := 27) _ Reg.fovState _ rfl) ⟨rfl, rfl⟩

/-- A skipped attempt moves the data cursor on; a repeated one does not (Table 7.10). -/
theorem Keeps.advance (h : Keeps view slot F s t) (hview : ∀ j k b, view { Job.advance j k with allB := b } = view j) (k step attempt : Nat)
    (ha : ∀ f ∈ F, f.apart Reg.jobSkipped = true ∧ f.apart Reg.jobAttempt = true ∧ f.apart Reg.jobSample = true
      ∧ f.apart Reg.jobShard = true) :
    let u := t.modJob k fun j => { j.advance (step + 1) with allB := false }
    Keeps view slot F s (((u.setJf k Reg.jobSkipped (satAdd 64 (u.jf k Reg.jobSkipped) 1)).setJf k Reg.jobAttempt
      (satAdd 8 attempt 1)).showCursor k) := by
  intro u
  exact (((h.modJob k fun j => hview j _ _).setJf k _ (by decide) fun f hf => (ha f hf).1).setJf k _ (by decide)
    fun f hf => (ha f hf).2.1).showCursor k fun f hf => (ha f hf).2.2

end

/-- An open attempt that is abandoned for a cause that skips or repeats it is closed, and the cause shows. -/
theorem State.abandon_shows {s : State} {slot cause : Nat} {j : Job} (hslot : slot < 4) (hj : s.job slot = some j)
    (hopen : j.isOpen = true) (hcause : cause ≤ 6) :
    (s.abandon slot cause).jf slot Reg.jobAbandonCause = cause ∧ ((s.abandon slot cause).job slot).map (·.isOpen) = some false := by
  unfold State.abandon
  split
  case h_1 hnone => exact absurd (hj.symm.trans hnone) (by simp)
  rename_i j' hj'
  cases hj.symm.trans hj'
  rw [if_neg (by rw [hopen]; decide)]
  extract_lets s1 mine s2 held s3 step attempt s4 s5 s6 s7 s8 s9 s10 s11 s12 s13 s14 s15 s16 s17
  have h3 : Keeps (fun _ => ()) slot [] s s3 :=
    (((Keeps.refl s).setJf slot _ (by decide) (fun _ hf => absurd hf List.not_mem_nil)).abandonCues (fun _ _ => rfl) mine).foldl
      (fun u h => (Keeps.refl u).to (putRecord_touch ..) ⟨rfl, rfl⟩) held
  have h4 : Keeps (fun _ => ()) slot [] s s4 :=
    (h3.setJf slot _ (by decide) (fun _ hf => absurd hf List.not_mem_nil)).setJf slot _ (by decide)
      (fun _ hf => absurd hf List.not_mem_nil)
  have hcause4 : s4.jf slot Reg.jobAbandonCause = cause :=
    (State.jf_setJf_apart _ (by decide) (by decide) hslot (by decide)).trans
      ((State.jf_setJf cause (by decide) hslot).trans (Nat.mod_eq_of_lt (by simp only [Reg.jobAbandonCause]; omega)))
  have h8 : Keeps (fun _ => ()) slot [Reg.jobAbandonCause] s4 s8 :=
    (((Keeps.refl s4).to (record_touch ..) ⟨rfl, rfl⟩).to (flood_touch ..) ⟨rfl, rfl⟩).to (dropApart_touch ..) ⟨rfl, rfl⟩
      |>.to (watchClose_touch ..) ⟨rfl, rfl⟩
  have hcause9 : s9.jf slot Reg.jobAbandonCause = cause :=
    ((modJob_touch s8 slot _).jf rfl (by decide) hslot).trans
      ((h8.fields hslot _ (List.mem_singleton_self _) (by decide)).trans hcause4)
  have hopen9 : (s9.job slot).map (·.isOpen) = some false := by
    obtain ⟨j8, hj8⟩ : ∃ j8, s8.job slot = some j8 := by
      have hsome := (h8.jobs slot).trans (h4.jobs slot)
      rw [hj] at hsome
      cases hs8 : s8.job slot with
      | none => rw [hs8] at hsome; cases hsome
      | some j8 => exact ⟨j8, rfl⟩
    rw [State.job_modJob, if_pos rfl, hj8]
    rfl
  have hend (t : State) (h : Keeps (·.isOpen) slot [Reg.jobAbandonCause] s9 t) :
      t.jf slot Reg.jobAbandonCause = cause ∧ (t.job slot).map (·.isOpen) = some false :=
    ⟨(h.fields hslot _ (List.mem_singleton_self _) (by decide)).trans hcause9, (h.jobs slot).trans hopen9⟩
  have h11 : Keeps (·.isOpen) slot [Reg.jobAbandonCause] s9 s11 :=
    (((Keeps.refl s9).setJf slot _ (by decide) (by decide)).to (setF_touch_in (k := 24) _ Reg.numStorm 0 rfl) ⟨rfl, rfl⟩).to
      (stepBoundary_touch _) ⟨rfl, rfl⟩
  have h15 : Keeps (·.isOpen) slot [Reg.jobAbandonCause] s9 s15 := by
    unfold s15
    split
    · exact (h11.to (skipLog_touch ..) ⟨rfl, rfl⟩).advance (fun _ _ _ => rfl) slot step attempt (by decide)
    · exact ((h11.modJob slot (f := fun j => { j with allB := cause == Cause.saturation }) fun _ => rfl).setJf slot _ (by decide)
        (by decide)).setJf slot _ (by decide) (by decide)
  have h17 : Keeps (·.isOpen) slot [Reg.jobAbandonCause] s9 s17 := by
    have h16 := h15.to (putRecord_touch s15 j.stepQueue (cplRecord 2 cause 0 0xFFFF 0 0xFFFFF j.epoch (s15.jf slot Reg.jobStep))) ⟨rfl, rfl⟩
    refine Keeps.ite ?_ h16
    exact (h16.setJf slot _ (by decide) (by decide)).modJob slot fun _ => rfl
  refine hend _ ?_
  split
  · exact ((h17.to (addF_touch_in (k := 27) s17 Reg.rehearsalFails 1 rfl) ⟨rfl, rfl⟩).event ..).exportFallback (by decide)
  · exact h17

end Sys2Proof.Machine

namespace Sys2Proof.Machine

open Sys2Proof

/-! ### DATA, JOIN, LOSS and METRIC (R248, R251, R261) -/

section
variable {s : State} {i slot : Nat} {o : OpSlot} {j : Job} {x : Tensor}

theorem exec_join (h : s.opWaits i cJoin o) :
    exec (.join i) s = .next { s with out := [], ops := SMap.put s.ops i { o with started := true, left := 0 } } := by
  change execJoin i s = _
  rw [execJoin]
  refine run_to (decide_eq_true h.1) ?_ rfl
  rw [State.withOp_waits h, State.opDone_find (t := s.quiet) h.2.1, if_pos h.2.2.2.2, h.2.2.2.2]

/-- The shard that a DATA cue lends, as the job's list of them takes it (R248). -/
def lentShard (i : Nat) (o : OpSlot) (j : Job) (d : DataDesc) : Shard :=
  { source := d.source, shard := o.cue.op 38 4, samples := o.cue.op 42 4, buf := o.cue.op 48 8
    newEpoch := (o.cue.op 37 1).testBit 0, op := i
    taken := if j.shards = [] ∧ 0 < j.sample then [(0, min j.sample (o.cue.op 42 4))] else [] }

theorem exec_data {d : DataDesc} {u : State} (h : s.jobWaits i cData o slot j)
    (hd : (j.data.map dataOf).find? (fun d => d.source == o.cue.op 36 1) = some d)
    (hcheck : s.quiet.checkSamples (.manager (some slot)) (o.cue.op 48 8) d.sampleBytes 0 (o.cue.op 42 4) = (0, u)) :
    exec (.data i) s = .next { ((u.modJob slot fun (k : Job) => { k with shards := k.shards ++ [lentShard i o j d], sample := 0 }).showCursor
      slot).opDone i 0 1 with pending := s.pending } := by
  have hsource : d.source = o.cue.op 36 1 := by
    have := List.find?_some hd
    exact beq_iff_eq.1 this
  change execData i s = _
  rw [execData, run_next (ok := opOk i) _ s (decide_eq_true h.1.1), State.withOp_waits h.1, State.withJob_waits h]
  simp only [hd, hcheck, lentShard, hsource, List.isEmpty_iff]
  rfl

/-- A job that a LOSS cue has handed its codes (R251, R256). -/
def Job.withLoss (j : Job) (slot : Nat) (c : CueRec) (codes : List Nat) : Job :=
  let bad := codes.any fun c => (f32Val c).nonFinite
  if c.ofAttempt slot then { j with losses := SMap.put j.losses c.index codes, nfLoss := j.nfLoss + b2n bad }
  else if c.ahead then { j with nfLossAhead := j.nfLossAhead + b2n bad } else j

theorem Job.losses_withLoss (j : Job) (slot : Nat) (c : CueRec) (codes : List Nat) :
    (j.withLoss slot c codes).losses = if c.ofAttempt slot = true then SMap.put j.losses c.index codes else j.losses := by
  unfold Job.withLoss
  split_ifs <;> rfl

theorem Job.isOpen_withLoss (j : Job) (slot : Nat) (c : CueRec) (codes : List Nat) : (j.withLoss slot c codes).isOpen = j.isOpen := by
  unfold Job.withLoss
  split_ifs <;> rfl

/-- A LOSS hands its tensor's codes to the job, and one of the attempt that meets a non-finite element abandons it (R251, R256). -/
theorem exec_loss (h : s.jobWaits i cLoss o slot j) (hx : j.tensor (o.cue.op 36 3) = some x) (hfmt : x.fmt = fmtF32)
    (hserves : s.outerServes .hbm x.base (4 * x.elems)) :
    let codes := leWords 4 x.elems (s.bytes x.base (4 * x.elems))
    let u := (s.quiet.setJob slot (j.withLoss slot o.cue codes)).opDone i 0 0
    exec (.loss i) s = .next { (if (codes.any fun c => (f32Val c).nonFinite) = true ∧ o.cue.ofAttempt slot = true then
      u.abandon slot Cause.nfLoss else u) with pending := s.pending } := by
  have hread := State.devRead_served (s := s.quiet) (.manager (some slot)) hserves
  have hj : s.quiet.job slot = some j := h.2.2.2
  change execLoss i s = _
  rw [execLoss, run_next (ok := opOk i) _ s (decide_eq_true h.1.1), State.withOp_waits h.1, State.withJob_waits h]
  simp only [hx, if_neg (not_not_intro hfmt), hread, State.modJob_some hj]
  rfl

/-- A job that holds a METRIC's bytes until COMMIT (R252, R261). -/
def Job.withMetric (j : Job) (o : OpSlot) (bs : List Byte) : Job :=
  { j with outbound := j.outbound ++ [(o.cue.epoch.getD 0, .metric (o.cue.op 40 8) bs)] }

theorem exec_metric (h : s.jobWaits i cMetric o slot j) (hx : j.tensor (o.cue.op 36 3) = some x) (hn : o.cue.op 48 4 ≤ x.bytes)
    (hfar : s.tierOf (o.cue.op 40 8) (o.cue.op 48 4) = some .far) (hin : o.cue.inAttempt = true)
    (hserves : s.outerServes .hbm x.base (o.cue.op 48 4)) :
    let k := j.withMetric o (s.bytes x.base (o.cue.op 48 4))
    exec (.metric i) s
      = .next { ((s.quiet.setJob slot k).setJf slot Reg.jobOutboundUsed (ceilDiv k.outboundBytes (2 ^ 20))).opDone i 0 0 with
          pending := s.pending } := by
  have hread := State.devRead_served (s := s.quiet) (.manager (some slot)) hserves
  have hplace : ¬(x.bytes < o.cue.op 48 4 ∨ s.quiet.tierOf (o.cue.op 40 8) (o.cue.op 48 4) ≠ some .far) := by
    rintro (hlt | hne)
    · omega
    · exact hne hfar
  have hj : s.quiet.job slot = some j := h.2.2.2
  change execMetric i s = _
  rw [execMetric, run_next (ok := opOk i) _ s (decide_eq_true h.1.1), State.withOp_waits h.1, State.withJob_waits h]
  simp only [hx, if_neg hplace, hread, hin, if_true, State.modJob_some hj, job_setJob]
  rfl

end

/-- Settles O29: each cue changes its job as its row says and then ends its operation; a non-finite loss abandons the attempt it belongs to. -/
theorem dataJoinLossAndMetricAct : Obligations.DataJoinLossAndMetricAct := by
  intro s i slot o j x
  refine ⟨exec_join, fun h d u hd hcheck => ?_, fun h hx hfmt hserves => ?_, fun h hx hn hfar hin hserves => ?_⟩
  · have hu : Touch 209919280151 s.quiet u := by
      have htouch := checkSamples_touch s.quiet (.manager (some slot)) (o.cue.op 48 8) d.sampleBytes 0 (o.cue.op 42 4)
      rwa [hcheck] at htouch
    let v := u.modJob slot fun (k : Job) => { k with shards := k.shards ++ [lentShard i o j d], sample := 0 }
    have hv : Touch 128 u v := modJob_touch ..
    have hw : Touch (2 ^ 23) v (v.showCursor slot) := showCursor_touch ..
    have hfind : SMap.find (v.showCursor slot).ops i = some o := by
      rw [hw.ops rfl, hv.ops rfl, hu.ops rfl]
      exact h.1.2.1
    have hj : u.job slot = some j := (job_of_touch hu rfl slot).trans h.2.2.2
    have hvj : v.job slot = some { j with shards := j.shards ++ [lentShard i o j d], sample := 0 } := by
      rw [State.job_modJob, if_pos rfl, hj, Option.map_some]
    refine ⟨_, exec_data h hd hcheck, State.opRan_opDone hfind h.1.2.2.2.2 1, ?_⟩
    change (((v.showCursor slot).opDone i 0 1).job slot).map _ = _
    rw [job_of_touch (opDone_touch ..) rfl, job_of_touch hw rfl, hvj]
    rfl
  · intro codes
    let u := (s.quiet.setJob slot (j.withLoss slot o.cue codes)).opDone i 0 0
    have hfind : SMap.find (s.quiet.setJob slot (j.withLoss slot o.cue codes)).ops i = some o := h.1.2.1
    have hj : u.job slot = some (j.withLoss slot o.cue codes) := by
      rw [job_of_touch (opDone_touch ..) rfl, job_setJob, if_pos rfl]
    have hexec := exec_loss h hx hfmt hserves
    refine ⟨fun hall => ?_, fun hany hattempt hopen => ?_⟩
    · have hfinite : (codes.any fun c => (f32Val c).nonFinite) = false := by
        simpa [List.all_eq_true] using hall
      dsimp only at hexec
      rw [if_neg fun hbad => Bool.false_ne_true (hfinite.symm.trans hbad.1)] at hexec
      refine ⟨_, hexec, State.opRan_opDone hfind h.1.2.2.2.2 0, ?_, ?_⟩
      · refine (congrArg (Option.map (·.losses)) hj).trans ?_
        rw [Option.map_some, Job.losses_withLoss]
      · rw [State.opDone_find hfind]
        rfl
    · dsimp only at hexec
      rw [if_pos ⟨hany, hattempt⟩] at hexec
      have hjopen : (j.withLoss slot o.cue codes).isOpen = true := (j.isOpen_withLoss ..).trans hopen
      exact ⟨_, hexec, State.abandon_shows h.2.1 hj hjopen (by decide)⟩
  · let v := s.quiet.setJob slot (j.withMetric o (s.bytes x.base (o.cue.op 48 4)))
    let w := v.setJf slot Reg.jobOutboundUsed (ceilDiv (j.withMetric o (s.bytes x.base (o.cue.op 48 4))).outboundBytes (2 ^ 20))
    have hset : Touch (2 ^ 23) v w := setJf_touch _ _ _ _ (by decide)
    have hfind : SMap.find w.ops i = some o := by
      rw [hset.ops rfl]
      exact h.1.2.1
    have hmem : w.mem = s.mem := by
      simp only [w, v, State.setJf, if_pos h.2.1, State.setF_mem]
      rfl
    refine ⟨_, exec_metric h hx hn hfar hin hserves, State.opRan_opDone hfind h.1.2.2.2.2 0, ?_, ?_⟩
    · rw [State.opDone_eq]
      exact hmem
    · refine ((job_of_touch (opDone_touch w i 0 0) rfl slot).trans (job_of_touch hset rfl slot)).trans ?_
      rw [job_setJob, if_pos rfl]
      rfl

end Sys2Proof.Machine

namespace Sys2Proof.Machine

open Sys2Proof

/-! ### Stripes of the device's own collectives (R424) -/

section
variable (s : State)

theorem putColl_device_touch (key : Nat) {x : Coll} (hx : x.op = none) : Touch 268455936 s (s.putColl key x) := by
  have hop := (driveColl_op s x 8).trans hx
  have hdrive := driveColl_touch s x 8
  unfold State.putColl
  split
  rename_i y u heq
  rw [heq] at hop hdrive
  dsimp only at hop
  rw [hop, ite_self]
  have hput : Touch 268455936 s { u with colls := SMap.put u.colls key y } := Touch.set_colls (hdrive.widen rfl) rfl
  exact Touch.ite (hput.to (inc_touch_in (k := 28) _ _ rfl) rfl) hput

theorem restartStripes_device_touch : Touch 210187736087 s s.restartStripes := by
  unfold State.restartStripes
  extract_lets todo
  refine Touch.ite (Touch.refl ..) ?_
  unfold State.startParity
  split
  rename_i g i first heq
  have hlist := parityList_touch s s.sSlot g (s.rd 0xC0060)
    ((s.ckp.items.filter fun it => it.method == 2).map fun it => (it.slotOff, it.bytes))
  split
  all_goals rename_i heq2; rw [heq2] at hlist
  · exact hlist.widen rfl
  · exact Touch.foldl (hlist.widen rfl) fun t _ h => h.to (putColl_device_touch t _ rfl) rfl

end

/-! ### What a commit keeps once its attempt is closed (R252, R408, R409) -/

section
variable {α : Type} {view : Job → α} {slot : Nat} {F : List Fld} {s t : State}

theorem Keeps.setCkp {c : Ckp} (h : Keeps view slot F s t) : Keeps view slot F s { t with ckp := c } :=
  h.to (Touch.set_ckp (Touch.refl (2 ^ 15) t) rfl) ⟨rfl, rfl⟩

/-- A change of the interval's registers. -/
theorem Keeps.setCkpF (h : Keeps view slot F s t) {g : Fld} (v : Nat) (hg : regArea g.off = 26) : Keeps view slot F s (t.setF g v) :=
  h.to (setF_touch_in (k := 26) t g v hg) ⟨rfl, rfl⟩

theorem Keeps.advanceP (h : Keeps view slot F s t) (hview : ∀ j l, view { j with shards := l } = view j) (k : Nat) :
    Keeps view slot F s (t.advanceP k) := by
  unfold State.advanceP
  extract_lets b old s2 s3 c s5
  have h2 : Keeps view slot F s s2 := (h.to (ownNum_touch ..) ⟨rfl, rfl⟩).ite h
  have h3 : Keeps view slot F s s3 := (h2.to (applyJournal_touch ..) ⟨rfl, rfl⟩).ite h2
  have h5 : Keeps view slot F s s5 := h3.setCkp
  clear_value s5
  split
  · exact h
  · rename_i step _
    extract_lets s6 due s7 s8 src s9
    have h6 : Keeps view slot F s s6 := (((h5.setCkpF _ rfl).setCkpF _ rfl).setCkpF _ rfl).setCkpF _ rfl
    have h7 : Keeps view slot F s s7 := h6.foldl (fun u _ => (Keeps.refl u).to (opAck_touch ..) ⟨rfl, rfl⟩) due
    have h8 : Keeps view slot F s s8 := h7.modJob k fun j => hview j _
    have h9 : Keeps view slot F s s9 := h8.ite h8.setFov
    exact h9.to (startExport_touch ..) ⟨rfl, rfl⟩

theorem Keeps.takeVote (h : Keeps view slot F s t) (hview : ∀ j l, view { j with shards := l } = view j) (k failed : Nat) :
    Keeps view slot F s (t.takeVote k failed) := by
  unfold State.takeVote
  split
  · extract_lets src u
    have hu : Keeps view slot F s u := h.setCkp
    unfold State.applyVote
    refine Keeps.ite ?_ ((hu.advanceP hview k).ite hu)
    exact ((hu.to (discardS_touch ..) ⟨rfl, rfl⟩).to (endJournal_touch ..) ⟨rfl, rfl⟩).setCkp
  · exact h

theorem Keeps.decideInterval (h : Keeps view slot F s t) (ha : ∀ f ∈ F, f.apart Reg.jobPhase = true) (k : Nat) (must : Bool) :
    Keeps view slot F s (t.decideInterval k must) := by
  unfold State.decideInterval
  extract_lets due n u
  have hu : Keeps view slot F s u := (h.setCkpF _ rfl).to (inc_touch_in (k := 26) _ _ rfl) ⟨rfl, rfl⟩
  refine Keeps.ite h (Keeps.ite ?_ hu.setCkp)
  exact (h.setJf k _ (by decide) ha).to (beginInterval_touch ..) ⟨rfl, rfl⟩

theorem Keeps.commitCkp (h : Keeps view slot F s t) (hview : ∀ j l, view { j with shards := l } = view j)
    (ha : ∀ f ∈ F, f.apart Reg.jobPhase = true) (k failed : Nat) : Keeps view slot F s (t.commitCkp k failed) := by
  unfold State.commitCkp
  extract_lets must src u v
  have hu : Keeps view slot F s u := h.setCkp
  exact Keeps.ite h (((hu.takeVote hview k failed).to (openVote_touch ..) ⟨rfl, rfl⟩).decideInterval ha k must)

/-! The histories, the witness and the outbound buffer leave all that does not look at them. -/

theorem Keeps.pushHistories (h : Keeps view slot F s t) (hview : ∀ j m, view { j with ownHist := m } = view j) (k : Nat) (j : Job) :
    Keeps view slot F s (t.pushHistories k j) := by
  unfold State.pushHistories
  refine h.foldl (fun u i => ?_) _
  split
  · refine Keeps.ite (Keeps.refl u) ?_
    unfold State.pushHistory
    extract_lets new
    refine Keeps.ite ((Keeps.refl u).to (ownWrite_touch ..) ⟨rfl, rfl⟩) ?_
    exact ((Keeps.refl u).modJob k fun j => hview j _).to (markItem_touch ..) ⟨rfl, rfl⟩
  · exact Keeps.refl u

theorem Keeps.witness (h : Keeps view slot F s t) (hview : ∀ j l, view { j with outbound := l } = view j) (k : Nat) (j : Job) (step : Nat) :
    Keeps view slot F s (t.witness k j step) := by
  unfold State.witness
  extract_lets w src u
  have hu : Keeps view slot F s u := h.setCkp
  split
  · exact hu.modJob k fun j => hview j _
  · exact hu

theorem Keeps.releaseOutbound (h : Keeps view slot F s t) (hview : ∀ j l, view { j with outbound := l } = view j)
    (ha : ∀ f ∈ F, f.apart Reg.jobOutboundUsed = true) (k : Nat) (j : Job) : Keeps view slot F s (t.releaseOutbound k j) := by
  unfold State.releaseOutbound
  split
  rename_i out stay heq
  extract_lets u v
  have hu : Keeps view slot F s u := by
    refine h.foldl (fun w x => ?_) out
    split
    · exact (Keeps.refl w).to (putRecord_touch ..) ⟨rfl, rfl⟩
    · exact (Keeps.refl w).to (devWrite_touch ..) ⟨rfl, rfl⟩
    · exact (Keeps.refl w).to (sendPut_touch ..) ⟨rfl, rfl⟩
  exact (hu.modJob k fun j => hview j _).setJf k _ (by decide) ha

theorem Keeps.exists_job {j : Job} (h : Keeps view slot F s t) (hj : s.job slot = some j) : ∃ k, t.job slot = some k := by
  have hsome := h.jobs slot
  rw [hj] at hsome
  cases ht : t.job slot with
  | none => rw [ht] at hsome; cases hsome
  | some k => exact ⟨k, rfl⟩

end

/-! ### COMMIT (R252) -/

/-- COMMIT outside a rehearsal closes the attempt and moves the step on by one. -/
theorem State.commit_shows {s : State} {slot : Nat} {j : Job} (hslot : slot < 4) (hj : s.job slot = some j)
    (hreh : s.fov.rehearsal = false) :
    let t := s.commit slot j
    t.jf slot Reg.jobStep = min (s.jf slot Reg.jobStep + 1) (2 ^ 48 - 1) ∧ t.jf slot Reg.jobAttempt = 0
      ∧ (t.job slot).map (fun j => (j.isOpen, j.failed)) = some (false, 0) := by
  intro t
  change (s.commit slot j).jf slot _ = _ ∧ (s.commit slot j).jf slot _ = _ ∧ ((s.commit slot j).job slot).map _ = _
  unfold State.commit
  extract_lets step failed next epoch s4 s5 s6 s7 s8 s9 s10 s11 s12 s13 s14 s15 s16 s17
  rw [if_neg (by rw [hreh]; simp)]
  have h8 : Keeps (fun _ => ()) slot [] s s8 := by
    have h5 : Keeps (fun _ => ()) slot [] s s5 :=
      ((Keeps.refl s).pushHistories (fun _ _ => rfl) slot j).foldl (fun u _ => (Keeps.refl u).to (closeWatch_touch ..) ⟨rfl, rfl⟩) _
    have h6 : Keeps (fun _ => ()) slot [] s s6 := h5.to (setV_touch ..) ⟨rfl, rfl⟩
    have h7 : Keeps (fun _ => ()) slot [] s s7 := (h6.witness (fun _ _ => rfl) slot j step).ite h6
    exact h7.ite (h7.to (watchClose_touch ..) ⟨rfl, rfl⟩)
  have h10 : Keeps (fun _ => ()) slot [Reg.jobStep, Reg.jobAttempt] s9 s10 :=
    (Keeps.refl s9).releaseOutbound (fun _ _ => rfl) (by decide) slot _
  have h9 : Keeps (fun _ => ()) slot [] s s9 :=
    (h8.setJf slot _ (by decide) (fun _ hf => absurd hf List.not_mem_nil)).setJf slot _ (by decide) (fun _ hf => absurd hf List.not_mem_nil)
  have hstep9 : s9.jf slot Reg.jobStep = min (step + 1) (2 ^ 48 - 1) := by
    refine (State.jf_setJf_apart _ (by decide) (by decide) hslot (by decide)).trans ((State.jf_setJf _ (by decide) hslot).trans ?_)
    exact Nat.mod_eq_of_lt (by simp only [next, satAdd, Reg.jobStep]; omega)
  have hattempt9 : s9.jf slot Reg.jobAttempt = 0 := State.jf_setJf 0 (by decide) hslot
  have h11 (f : Fld) (hf : f ∈ [Reg.jobStep, Reg.jobAttempt]) (hj : f ∈ jobFields) : s11.jf slot f = s9.jf slot f :=
    ((modJob_touch s10 slot _).jf rfl hj hslot).trans (h10.fields hslot f hf hj)
  have hopen11 : (s11.job slot).map (fun j => (j.isOpen, j.failed)) = some (false, 0) := by
    obtain ⟨j9, hj9⟩ := h9.exists_job hj
    obtain ⟨j10, hj10⟩ := h10.exists_job hj9
    rw [State.job_modJob, if_pos rfl, hj10]
    rfl
  have hend (t : State) (h : Keeps (fun j => (j.isOpen, j.failed)) slot [Reg.jobStep, Reg.jobAttempt] s11 t) :
      t.jf slot Reg.jobStep = min (step + 1) (2 ^ 48 - 1) ∧ t.jf slot Reg.jobAttempt = 0
        ∧ (t.job slot).map (fun j => (j.isOpen, j.failed)) = some (false, 0) := by
    refine ⟨?_, ?_, (h.jobs slot).trans hopen11⟩
    · rw [h.fields hslot _ (by decide) (by decide), h11 _ (by decide) (by decide), hstep9]
    · rw [h.fields hslot _ (by decide) (by decide), h11 _ (by decide) (by decide), hattempt9]
  have h14 : Keeps (fun j => (j.isOpen, j.failed)) slot [Reg.jobStep, Reg.jobAttempt] s11 s14 :=
    ((((Keeps.refl s11).showCursor slot (by decide)).to (putRecord_touch ..) ⟨rfl, rfl⟩).to (dropApart_touch ..) ⟨rfl, rfl⟩).to
      (releaseApart_touch ..) ⟨rfl, rfl⟩
  have h15 : Keeps (fun j => (j.isOpen, j.failed)) slot [Reg.jobStep, Reg.jobAttempt] s11 s15 :=
    ((h14.to (rehearsed_touch _) ⟨rfl, rfl⟩).setJf slot _ (by decide) (by decide)).to (setF_touch_in (k := 24) _ Reg.numStorm 0 rfl)
      ⟨rfl, rfl⟩
  have h17 : Keeps (fun j => (j.isOpen, j.failed)) slot [Reg.jobStep, Reg.jobAttempt] s11 s17 :=
    ((h15.commitCkp (fun _ _ => rfl) (by decide) slot failed).to (restartStripes_device_touch _) ⟨rfl, rfl⟩).to (stepBoundary_touch _)
      ⟨rfl, rfl⟩
  refine hend _ (Keeps.ite ?_ h17)
  exact (h17.setJf slot _ (by decide) (by decide)).modJob slot fun _ => rfl

end Sys2Proof.Machine

namespace Sys2Proof.Machine

open Sys2Proof

/-! ### The curtain (R251, R576) -/

theorem curtainCause_le (limit nfLoss nfNorm sat : Nat) (total : Val) : curtainCause limit nfLoss nfNorm sat total ≤ 4 := by
  unfold curtainCause
  dsimp only
  split_ifs <;> decide

/-- The S of the members of this device's line, the device's own first (R576). -/
def State.lineS (s : State) (peers : List CurtainPeer) (own : Val) : List (Nat × Val) :=
  (s.coord, own) :: (peers.filter fun p => comp p.coord 1 == comp s.coord 1 && comp p.coord 2 == comp s.coord 2).map fun p =>
    (p.coord, f32Val p.s)

/-- What the cause of a curtain is taken from (R251). -/
def State.causeOf (s : State) (j : Job) (peers : List CurtainPeer) (own : Val) : Nat :=
  let sum := fun (f : CurtainPeer → Nat) => (peers.map f).foldl (· + ·) 0
  curtainCause j.normLimit (j.nfLoss + sum (·.nfLoss)) (b2n own.nonFinite + sum fun p => b2n (f32Val p.s).nonFinite)
    (j.sat + sum (·.sat)) (reduceS ((s.lineS peers own).map (·.2)))

section
variable {s : State} {slot : Nat} {j : Job} {peers : List CurtainPeer} {own : Val} {a : Nat}

theorem State.map_lineS (s : State) (peers : List CurtainPeer) (own : Val) :
    (s.lineS peers own).map (·.2)
      = own :: (peers.filter fun p => comp p.coord 1 == comp s.coord 1 && comp p.coord 2 == comp s.coord 2).map fun p => f32Val p.s := by
  rw [State.lineS, List.map_cons, List.map_map]
  rfl

theorem exec_curtain (hslot : slot < 4) (hj : s.job slot = some j) (hopen : j.isOpen = true) (hphase : s.jf slot Reg.jobPhase = 4)
    (hvote : s.fov.voting = none) (hcast : s.wholeCast (peers.map (·.coord)) = true) :
    exec (.curtain slot peers) s = .next { s.quiet.curtain slot j peers with pending := s.pending } := by
  have hgo : ¬(s.quiet.jf slot Reg.jobPhase ≠ 4 ∨ s.quiet.fov.voting.isSome = true ∨ (!s.quiet.wholeCast (peers.map (·.coord))) = true) := by
    have hcastq : s.quiet.wholeCast (peers.map (·.coord)) = true := hcast
    have hvoteq : s.quiet.fov.voting = none := hvote
    rw [hcastq, hvoteq]
    rintro (hne | hsome | hout)
    · exact hne hphase
    · cases hsome
    · cases hout
  change execCurtain slot peers s = _
  rw [execCurtain, run_next (ok := slotOk slot) _ s (decide_eq_true hslot), withOpen_of_open (s := s.quiet) hj hopen, if_neg hgo]

/-- A curtain with a cause against it abandons the attempt. -/
theorem State.curtain_abandons (hlocal : s.localS (.manager (some slot)) j j.gradScales (.fin false 0) = (0, own, a, s))
    (hcause : s.causeOf j peers own ≠ 0) :
    ∃ u, Touch 268439552 s u ∧ s.curtain slot j peers = u.abandon slot (s.causeOf j peers own) := by
  rw [State.curtain, hlocal]
  exact ⟨_, curtainSends_touch .., if_pos hcause⟩

/-- What a device does as its curtain passes with this norm: the rehearsal's comparison, the vote's own part, the phase. -/
def State.passCurtain (s : State) (slot : Nat) (j : Job) (peers : List CurtainPeer) (normS : Nat) : State :=
  let sum := fun (f : CurtainPeer → Nat) => (peers.map f).foldl (· + ·) 0
  let (bad, s) := if s.fov.rehearsal then s.rehearse slot j normS else (false, s)
  let (p, f) := s.drainVote
  let s := if j.large then s.watchClose j else s
  let vote := (p + sum (·.pending), f + b2n bad + sum (·.failed))
  let s : State := { s with ckp := { s.ckp with vote := if s.ckp.job = some slot then some vote else s.ckp.vote } }
  ((s.modJob slot fun (j : Job) => { j with normS, curtainPassed := true }).setJf slot Reg.jobPhase 5).phaseStep slot

/-- A curtain that no cause stands against passes. -/
theorem State.curtain_passes (hlocal : s.localS (.manager (some slot)) j j.gradScales (.fin false 0) = (0, own, a, s))
    (hcause : s.causeOf j peers own = 0) :
    ∃ u, Touch 268439552 s u
      ∧ s.curtain slot j peers = u.passCurtain slot j peers (f32Code (reduceS ((s.lineS peers own).map (·.2)))) := by
  rw [State.curtain, hlocal]
  exact ⟨_, curtainSends_touch .., if_neg (not_not_intro hcause)⟩

theorem State.job_passCurtain (hreh : s.fov.rehearsal = false) (hj : s.job slot = some j) (peers : List CurtainPeer) (normS : Nat) :
    (s.passCurtain slot j peers normS).job slot = some { j with normS, curtainPassed := true } := by
  unfold State.passCurtain
  rw [if_neg (by rw [hreh]; decide)]
  extract_lets sum
  split
  rename_i bad u heq
  cases heq
  split
  extract_lets v vote ckp w
  have hv : Touch 206714175510 s v := Touch.ite (watchClose_touch ..) (Touch.refl ..)
  have hw : Touch 206714208278 s w := Touch.set_ckp (hv.widen rfl) rfl
  rw [job_of_touch (phaseStep_touch ..) rfl, job_of_touch (setJf_touch _ _ _ _ (by decide)) rfl, State.job_modJob, if_pos rfl,
    job_of_touch hw rfl, hj, Option.map_some]

end

/-- Settles O35: the curtain takes its cause from the members' counts and the exact sum of their S, and after COMMIT nothing touches what it
shows of the step and the attempt. -/
theorem curtainsPassAndCommitsAdvance : Obligations.CurtainsPassAndCommitsAdvance := by
  intro s slot j hslot hj hopen hreh
  refine ⟨fun peers own a hphase hvote hcast hlocal => ?_, fun hphase => ?_⟩
  · intro line total sum cause
    have hexec := exec_curtain hslot hj hopen hphase hvote hcast
    have htotal : reduceS ((s.quiet.lineS peers own).map (·.2)) = total := congrArg reduceS (State.map_lineS s.quiet peers own)
    have hcauseOf : s.quiet.causeOf j peers own = cause := by
      unfold State.causeOf
      rw [htotal]
    refine ⟨fun hcause => ?_, fun hcause => ?_⟩
    · obtain ⟨u, hu, hpass⟩ := State.curtain_passes hlocal (hcauseOf.trans hcause)
      have hreh : u.fov.rehearsal = false := by rw [hu.fov rfl]; exact hreh
      have hjob := State.job_passCurtain hreh ((job_of_touch hu rfl slot).trans hj) peers
        (f32Code (reduceS ((s.quiet.lineS peers own).map (·.2))))
      rw [← hpass, htotal] at hjob
      refine ⟨_, hexec, (congrArg (Option.map _) hjob).trans rfl, (congrArg (Option.map _) hjob).trans rfl,
        (congrArg (Option.map _) hjob).trans ?_⟩
      exact congrArg some hopen
    · obtain ⟨u, hu, habandon⟩ := State.curtain_abandons hlocal (fun h => hcause (hcauseOf.symm.trans h))
      have hle : cause ≤ 6 := (curtainCause_le ..).trans (by decide)
      rw [hcauseOf] at habandon
      rw [habandon] at hexec
      exact ⟨_, hexec, State.abandon_shows hslot ((job_of_touch hu rfl slot).trans hj) hopen hle⟩
  · obtain ⟨hstep, hattempt, hclosed⟩ := State.commit_shows (s := s.quiet) hslot hj hreh
    have hphaseq : s.quiet.jf slot Reg.jobPhase = 6 := hphase
    have hexec : exec (.commit slot) s = .next { s.quiet.commit slot j with pending := s.pending } := by
      change execCommit slot s = _
      rw [execCommit, run_next (ok := slotOk slot) _ s (decide_eq_true hslot), withOpen_of_open (s := s.quiet) hj hopen, if_pos hphaseq]
    obtain ⟨k, hk, hkclosed⟩ := Option.map_eq_some_iff.1 hclosed
    have hjob : ({ s.quiet.commit slot j with pending := s.pending } : State).job slot = some k := hk
    obtain ⟨hfalse, hzero⟩ := Prod.ext_iff.1 hkclosed
    exact ⟨_, hexec, hstep, hattempt, (congrArg (Option.map _) hjob).trans (congrArg some hfalse),
      (congrArg (Option.map _) hjob).trans (congrArg some hzero)⟩

end Sys2Proof.Machine

namespace Sys2Proof.Machine

open Sys2Proof

/-! ### Records leave the cues that wait (R485) -/

section
variable (s : State) (q : Nat)

theorem State.waiting_event (code unit : Nat) (args : List Nat) (status : Nat := 0) : (s.event code unit args status).waiting = s.waiting :=
  ((event_touch ..).queues rfl).2.2.1

theorem State.waiting_updateQueue (x : Queue) : (s.updateQueue q x).waiting = s.waiting := by
  unfold State.updateQueue
  extract_lets a log2 b2 u
  have hwrite := devWrites_touch u (.manager none) [(a + 2, leBytes 1 b2), (a + 24, leBytes 4 x.head ++ leBytes 4 x.tail ++ leBytes 4 x.cplTail)]
  have hu : u.waiting = s.waiting := rfl
  split
  rename_i st v heq
  rw [heq] at hwrite
  have hv : v.waiting = s.waiting := ((hwrite.queues rfl).2.2.1).trans hu
  split
  · exact hv
  · exact (State.waiting_event ..).trans hv

theorem State.waiting_haltQueue (reason : Nat) : (s.haltQueue q reason).waiting = s.waiting :=
  (State.waiting_event ..).trans (State.waiting_updateQueue ..)

theorem State.waiting_putRecord (r : List Byte) : (s.putRecord q r).waiting = s.waiting := by
  unfold State.putRecord
  extract_lets x
  split
  · exact State.waiting_event ..
  · rfl

theorem State.waiting_writeRecord : (s.writeRecord q).waiting = s.waiting := by
  unfold State.writeRecord
  extract_lets x size phase
  split
  · split
    · rename_i r rest _ _
      have hwrite := devWrite_touch s (.manager none) (x.cplBase + 32 * (x.cplTail % size)) (cplPatch r x.head phase)
      split
      rename_i st v heq
      rw [heq] at hwrite
      extract_lets w
      have hw : w.waiting = s.waiting := (State.waiting_updateQueue ..).trans (hwrite.queues rfl).2.2.1
      refine Eq.trans (b := (if st = 0 then w else w.haltQueue q 3).waiting) rfl ?_
      split
      · exact hw
      · exact (State.waiting_haltQueue ..).trans hw
    · rfl
  · rfl

theorem State.waiting_foldl {β : Type} {f : State → β → State} (hf : ∀ s b, (f s b).waiting = s.waiting) (l : List β) :
    (l.foldl f s).waiting = s.waiting :=
  List.foldlRecOn (motive := fun t : State => t.waiting = s.waiting) l f rfl fun t ht b _ => (hf t b).trans ht

theorem State.waiting_settleQueue : (s.settleQueue q).waiting = s.waiting := by
  unfold State.settleQueue
  split
  · extract_lets u left v
    have hu : u.waiting = s.waiting := State.waiting_foldl s (fun s _ => State.waiting_writeRecord s q) _
    have hv : v.waiting = u.waiting := State.waiting_foldl u (fun s _ => State.waiting_event ..) _
    exact (State.waiting_updateQueue ..).trans (hv.trans hu)
  · rfl

theorem State.waiting_cueRecord (c : CueRec) (status detail tag : Nat) (now : Bool) :
    (s.cueRecord c status detail tag now).waiting = s.waiting := by
  unfold State.cueRecord
  split
  · rfl
  · rename_i q _
    extract_lets r u
    refine (State.waiting_settleQueue ..).trans ?_
    unfold u
    split
    · split
      · exact ((modJob_touch ..).queues rfl).2.2.1
      · exact State.waiting_putRecord ..
    · rfl

/-- The cues that wait once some of them are abandoned (R244). -/
theorem State.waiting_abandonCues (gone : CueRec → Bool) : (s.abandonCues gone).waiting = s.waiting.filter fun c => !gone c := by
  unfold State.abandonCues
  extract_lets cues u v
  have hu : u.waiting = s.waiting := ((dropOps_touch ..).queues rfl).2.2.1
  refine (State.waiting_foldl v (fun s c => State.waiting_cueRecord ..) cues).trans ?_
  exact congrArg (List.filter _) hu

end

end Sys2Proof.Machine

namespace Sys2Proof.Machine

open Sys2Proof

/-! ### Changes that wait for the next attempt (R247, R253, R262) -/

section
variable {s : State} {i slot opcode : Nat} {o : OpSlot} {j : Job}

/-- The whole effect of a cue that changes its job and completes. -/
theorem State.modJob_opDone_waits (h : s.jobWaits i opcode o slot j) (f : Job → Job) :
    (s.quiet.modJob slot f).opDone i 0 0
      = { s with out := [], jobs := SMap.put s.jobs slot (f j), ops := SMap.put s.ops i { o with started := true, left := 0 } } := by
  have hj : s.quiet.job slot = some j := h.2.2.2
  have hfind : SMap.find (s.quiet.setJob slot (f j)).ops i = some o := h.1.2.1
  rw [State.modJob_some hj, State.opDone_find hfind, h.1.2.2.2.2]
  rfl

theorem exec_recipe (h : s.jobWaits i cRecipe o slot j) (hcheck : (j.recipeChange (o.cue.op 36 3) ((o.cue.raw.drop 40).take 8)).1 = 0) :
    exec (.recipe i) s = .next { s with
      out := [], ops := SMap.put s.ops i { o with started := true, left := 0 }
      jobs := SMap.put s.jobs slot { j with pendRecipe := j.pendRecipe ++ [(o.cue.op 36 3, (o.cue.raw.drop 40).take 8)] } } := by
  obtain ⟨d, hcheck⟩ : ∃ d, j.recipeChange (o.cue.op 36 3) ((o.cue.raw.drop 40).take 8) = (0, d) := ⟨_, Prod.ext hcheck rfl⟩
  change execRecipe i s = _
  rw [execRecipe]
  refine run_to (decide_eq_true h.1.1) ?_ rfl
  rw [State.withOp_waits h.1, State.withJob_waits h]
  simp only [hcheck]
  exact State.modJob_opDone_waits h _

theorem exec_param {bs : List Byte} (h : s.jobWaits i cParam o slot j) (hupd : j.upd[o.cue.op 36 3]? = some bs)
    (hrange : (updOf (bs.take (4 * o.cue.op 39 1) ++ leBytes 4 (o.cue.op 40 4) ++ bs.drop (4 * o.cue.op 39 1 + 4))).inRange = true) :
    exec (.param i) s = .next { s with
      out := [], ops := SMap.put s.ops i { o with started := true, left := 0 }
      jobs := SMap.put s.jobs slot { j with pendParam := j.pendParam ++ [(o.cue.op 36 3, o.cue.op 39 1, o.cue.op 40 4)] } } := by
  change execParam i s = _
  rw [execParam]
  refine run_to (decide_eq_true h.1.1) ?_ rfl
  rw [State.withOp_waits h.1, State.withJob_waits h]
  simp only [hupd, hrange, if_true]
  exact State.modJob_opDone_waits h _

theorem exec_matinee (h : s.jobWaits i cMatinee o slot j) (hnow : (o.cue.op 37 1).testBit 0 = false) :
    exec (.matinee i) s = .next { s with
      out := [], ops := SMap.put s.ops i { o with started := true, left := 0 }
      jobs := SMap.put s.jobs slot { j with pendMatinee := some (o.cue.op 36 1) } } := by
  have hbit : (!bitAt 0 (o.cue.op 37 1)) = true := by rw [bitAt, hnow, Bool.not_false]
  change execMatinee i s = _
  rw [execMatinee]
  refine run_to (decide_eq_true h.1.1) ?_ rfl
  rw [State.withOp_waits h.1, State.withJob_waits h]
  simp only [hbit, if_true]
  exact State.modJob_opDone_waits h _

end

/-! ### CANCEL_AHEAD (R260) -/

section
variable {s t : State} {i slot : Nat} {o : OpSlot} {j : Job}

/-- What CANCEL_AHEAD changes before it completes. -/
def State.cancelled (s : State) (slot : Nat) : State :=
  ((((s.abandonCues fun c => c.job == some slot && c.ahead && c.runahead).dropHeld slot (s.nextEpoch slot)).modJob slot
    Job.dropAhead).setJf slot Reg.jobAhead 0).flood nkCancel Cause.stop 0 (s.nextEpoch slot) 0

theorem cancelled_touch (s : State) (slot : Nat) : Touch 214222700023 s (s.cancelled slot) :=
  (((((abandonCues_touch s _).widen rfl).to (dropHeld_touch ..) rfl).to (modJob_touch ..) rfl).to (setJf_touch _ _ _ _ (by decide)) rfl).to
    (flood_touch ..) rfl

theorem exec_cancelAhead (h : s.jobWaits i cCancelAhead o slot j) :
    exec (.cancelAhead i) s = .next ((s.quiet.cancelled slot).opDone i 0 0) := by
  change execCancelAhead i s = _
  rw [execCancelAhead]
  refine run_to (decide_eq_true h.1.1) ?_ ((opDone_touch ..).pending.trans (cancelled_touch ..).pending)
  rw [State.withOp_waits h.1, State.withJob_waits h]
  rfl

theorem State.ops_dropHeld (s : State) (slot epoch : Nat) : (s.dropHeld slot epoch).ops = s.ops := (dropHeld_touch ..).ops rfl

theorem State.waiting_dropHeld (s : State) (slot epoch : Nat) : (s.dropHeld slot epoch).waiting = s.waiting := by
  unfold State.dropHeld
  split
  · extract_lets u
    refine ((modJob_touch ..).queues rfl).2.2.1.trans (State.waiting_foldl s (fun v x => ?_) _)
    split
    · exact State.waiting_putRecord ..
    · rfl
  · rfl

theorem Keeps.dropHeld {α : Type} {view : Job → α} {F : List Fld} (h : Keeps view slot F s t)
    (hview : ∀ j l, view { j with outbound := l } = view j) (k epoch : Nat) : Keeps view slot F s (t.dropHeld k epoch) := by
  unfold State.dropHeld
  split
  · extract_lets u
    have hu : Keeps view slot F s u := by
      refine h.foldl (fun v x => ?_) _
      split
      · exact (Keeps.refl v).to (putRecord_touch ..) ⟨rfl, rfl⟩
      · exact Keeps.refl v
    exact hu.modJob k fun j => hview j _
  · exact h

theorem State.cancelled_shows (hslot : slot < 4) (hsorted : SMap.sorted s.ops = true) (ho : SMap.find s.ops i = some o)
    (hahead : o.cue.ahead = false) :
    let t := s.cancelled slot
    SMap.find t.ops i = some o ∧ t.jf slot Reg.jobAhead = 0
      ∧ t.waiting = s.waiting.filter (fun c => !(c.job == some slot && c.ahead && c.runahead))
      ∧ (t.job slot).map (·.isOpen) = (s.job slot).map (·.isOpen) := by
  intro t
  let gone := fun (c : CueRec) => c.job == some slot && c.ahead && c.runahead
  let u := (s.abandonCues gone).dropHeld slot (s.nextEpoch slot)
  let v := u.modJob slot Job.dropAhead
  have hgone : gone o.cue = false := by simp only [gone, hahead, Bool.and_false, Bool.false_and]
  have hv : Touch 128 u v := modJob_touch ..
  have hw : Touch (2 ^ 23) v (v.setJf slot Reg.jobAhead 0) := setJf_touch _ _ _ _ (by decide)
  have hflood : Touch 12288 (v.setJf slot Reg.jobAhead 0) t := flood_touch ..
  have hrest : Touch 8400896 v t := (hw.widen rfl).to hflood rfl
  refine ⟨?_, (hflood.jf rfl (by decide) hslot).trans (State.jf_setJf 0 (by decide) hslot), ?_, ?_⟩
  · rw [hrest.ops rfl, hv.ops rfl, State.ops_dropHeld]
    exact State.find_abandonCues hsorted ho hgone
  · rw [(hrest.queues rfl).2.2.1, (hv.queues rfl).2.2.1, State.waiting_dropHeld, State.waiting_abandonCues]
  · have hkeeps : Keeps (·.isOpen) slot [] s v :=
      (((Keeps.refl s).abandonCues (fun _ _ => rfl) gone).dropHeld (fun _ _ => rfl) slot _).modJob slot fun _ => rfl
    exact (hkeeps.to_jobs hrest rfl).jobs slot

end

/-! ### A rebuild that starts again (R264) -/

/-- The working copies that a rebuild writes: every EVAL tensor that has masters, with its masters. -/
def Job.workCopies (j : Job) : List (Tensor × Tensor) :=
  (List.range j.layout.length).filterMap fun k => (j.tensor k).bind fun x =>
    if x.isEval && x.isWeight then (j.tensor x.aux).map fun m => (x, m) else none

section
variable {s u : State} {i slot eng : Nat} {o : OpSlot} {j : Job}

theorem SMap.put_singleton {α : Type} (k : Nat) (v w : α) : SMap.put [(k, v)] k w = [(k, w)] := by
  simp [SMap.put, SMap.del, SMap.ins]

/-- A rebuild whose copies are all written ends its operation with the snapshot's step as TAG. -/
theorem State.rebuild_done {a : Nat} {v : State} (hv : s.modJob slot (fun (j : Job) => j.newScope scopeRebuild) = v)
    (ho : SMap.find u.ops i = some o)
    (h : v.rebuildCopies ⟨1, eng, some slot⟩ slot { j with rungs := [] } (v.num (v.ckp.slotAt v.pSlot + 24) 6) j.workCopies
      = (0, a, u)) :
    s.rebuild slot eng j i
      = { u.modJob slot (fun (j : Job) => { j with mpc := 0 }) with
          ops := SMap.put u.ops i { o with started := true, left := 0, tagOut := some (u.fld Reg.protectedStep % 2 ^ 32) } } := by
  have hkeep : Touch 128 u (u.modJob slot fun (j : Job) => { j with mpc := 0 }) := modJob_touch ..
  have hstep : (u.modJob slot fun (j : Job) => { j with mpc := 0 }).fld Reg.protectedStep = u.fld Reg.protectedStep := hkeep.fld _ rfl
  unfold State.rebuild
  extract_lets todo w
  have htodo : todo = j.workCopies := List.filterMap_congr fun k _ => by cases j.tensor k <;> rfl
  have hw : w = v := hv
  rw [htodo, hw]
  simp only [h, ho, hstep, hkeep.ops rfl]
  rfl

theorem exec_matineeRebuildRestart (hslot : slot < 4) (hj : s.job slot = some j) (hmay : s.mayRebuild slot j = some eng)
    (hops : s.ops = [(i, o)]) (hopcode : o.cue.opcode = cMatinee) (hjob : o.cue.job = some slot) (hstarted : o.started = true)
    (hleft : o.left = 1) :
    exec (.matineeRebuildRestart slot) s = .next { s.quiet.rebuild slot eng j i with pending := s.pending } := by
  have hjq : s.quiet.job slot = some j := hj
  have hmayq : s.quiet.mayRebuild slot j = some eng := hmay
  change execMatineeRebuildRestart slot s = _
  rw [execMatineeRebuildRestart, run_next _ s (decide_eq_true hslot)]
  simp [hjq, hmayq, hops, hopcode, hjob, hstarted, hleft]

end

section
variable {s u : State} {i slot eng : Nat} {o : OpSlot} {j : Job}

/-- What a rebuild shows once its copies are written, while its operation is the only one. -/
theorem State.rebuild_shows {a : Nat} {v : State} (hv : s.modJob slot (fun (j : Job) => j.newScope scopeRebuild) = v)
    (hu : Touch 68719512577 v u) (hj : s.job slot = some j) (hops : s.ops = [(i, o)]) (hstarted : o.started = true)
    (h : v.rebuildCopies ⟨1, eng, some slot⟩ slot { j with rungs := [] } (v.num (v.ckp.slotAt v.pSlot + 24) 6) j.workCopies
      = (0, a, u)) :
    (s.rebuild slot eng j i).ops = [(i, { o with left := 0, tagOut := some (s.fld Reg.protectedStep % 2 ^ 32) })]
      ∧ ((s.rebuild slot eng j i).job slot).map (·.mpc) = some 0 ∧ (s.rebuild slot eng j i).mem = u.mem := by
  have hsv : Touch 128 s v := hv ▸ modJob_touch ..
  have huops : u.ops = [(i, o)] := (hu.ops rfl).trans ((hsv.ops rfl).trans hops)
  have hstep : u.fld Reg.protectedStep = s.fld Reg.protectedStep := (hu.fld _ rfl).trans (hsv.fld _ rfl)
  have hujob : u.job slot = some (j.newScope scopeRebuild) := by
    rw [job_of_touch hu rfl, ← hv, State.job_modJob, if_pos rfl, hj, Option.map_some]
  have hfind : SMap.find u.ops i = some o := by rw [huops, SMap.find_cons, if_pos rfl]
  rw [State.rebuild_done hv hfind h, huops, hstep, SMap.put_singleton, State.modJob_some hujob]
  refine ⟨by rw [← hstarted], ?_, rfl⟩
  change ((u.setJob slot _).job slot).map _ = _
  rw [job_setJob, if_pos rfl, Option.map_some]

/-- With no copies to write a rebuild is over at once. -/
theorem State.rebuildCopies_none (s : State) (rq : Requester) (slot : Nat) (j : Job) (step : Nat) :
    s.rebuildCopies rq slot j step [] = (0, 0, s) := rfl

/-- One working copy in F32 whose masters read from the snapshot: its elements lie one after the other. -/
theorem State.rebuildCopies_one {x m : Tensor} {it : Item} {vals : List Val} (rq : Requester) (step : Nat) (hplain : x.scaled = false)
    (hfmt : x.fmt = fmtF32) (hitem : s.ckp.items.find? (fun it => it.kind == 1 && it.index == m.idx) = some it)
    (hread : s.readVals rq { m with base := s.ckp.slotAt s.pSlot + it.slotOff } 0 m.elems = (0, vals, false, s)) (hvals : vals ≠ [])
    (hserves : s.outerServes .hbm x.base (vals.flatMap fun y => leBytes 4 (wideCode fmtF32 0 y)).length) :
    s.rebuildCopies rq slot j step [(x, m)] = (0, 0, s.storeBytes x.base (vals.flatMap fun y => leBytes 4 (wideCode fmtF32 0 y))) := by
  have hwork : s.writeWork rq slot j x step scopeRebuild vals
      = (0, s.storeBytes x.base (vals.flatMap fun y => leBytes 4 (wideCode fmtF32 0 y))) := by
    have hwide := State.putWide_served (dst := x) (k := 4) rq 0 0 vals (.inl hfmt) (by rw [hfmt]; rfl) (by simpa [hfmt] using hserves)
    rw [State.writeWork, if_neg (by rw [hplain]; decide), hwide, hfmt]
    rfl
  rw [State.rebuildCopies, State.snapMasters, hitem]
  simp only [hread, List.isEmpty_iff, hvals, if_false, hwork]
  rfl

end

/-- Settles O32: the changes are noted in the job alone, what CANCEL_AHEAD picks leaves the waiting list, and a rebuild that starts again
reads the snapshot from its beginning. -/
theorem changesWaitForTheNextAttempt : Obligations.ChangesWaitForTheNextAttempt := by
  refine ⟨fun s i slot o j => ?_, ?_⟩
  · intro did
    refine ⟨exec_recipe, fun bs h hupd => exec_param h hupd, exec_matinee, fun h hsorted hahead => ?_⟩
    obtain ⟨hfind, hshown, hwaiting, hopen⟩ := State.cancelled_shows (s := s.quiet) h.2.1 hsorted h.1.2.1 hahead
    have hdone := opDone_touch (s.quiet.cancelled slot) i 0 0
    refine ⟨_, exec_cancelAhead h, State.opRan_opDone hfind h.1.2.2.2.2 0, (hdone.jf rfl (by decide) h.2.1).trans hshown, ?_, ?_⟩
    · intro c hc hmine
      have hmem : c ∈ (s.quiet.cancelled slot).waiting := by rwa [← (hdone.queues rfl).2.2.1]
      rw [hwaiting, List.mem_filter] at hmem
      obtain ⟨hjob, ha, hr⟩ := hmine
      simp [hjob, ha, hr] at hmem
    · have hj : s.quiet.job slot = some j := h.2.2.2
      rw [job_of_touch hdone rfl, hopen, hj, Option.map_some]
  · intro s i slot eng o j hslot hj hmay hops hopcode hjob hstarted hleft copies ended
    have hexec := exec_matineeRebuildRestart hslot hj hmay hops hopcode hjob hstarted hleft
    refine ⟨fun hnone => ?_, fun x m it vals hcopies hplain hfmt hitem => ?_⟩
    · have hcopies : j.workCopies = [] := hnone
      obtain ⟨hended, hmpc, -⟩ := State.rebuild_shows (s := s.quiet) (eng := eng) rfl (Touch.refl ..) hj hops hstarted
        (by rw [hcopies]; exact State.rebuildCopies_none ..)
      exact ⟨_, hexec, hended, hmpc⟩
    · intro v hread out hvals hserves
      have hcopies : j.workCopies = [(x, m)] := hcopies
      have hv : Touch 128 s.quiet v := modJob_touch ..
      have hckp : v.ckp = s.ckp := hv.ckp rfl
      have hbase : v.ckp.slotAt v.pSlot = s.ckp.slotAt s.pSlot := by
        rw [hckp, State.pSlot, hv.fld _ rfl]
        rfl
      have hone := State.rebuildCopies_one (s := v) (slot := slot) (j := { j with rungs := [] }) ⟨1, eng, some slot⟩
        (v.num (v.ckp.slotAt v.pSlot + 24) 6) hplain hfmt (by rw [hckp]; exact hitem) (by rw [hbase]; exact hread) hvals
        (hv.serves ⟨rfl, rfl, rfl, rfl⟩ hserves)
      obtain ⟨hended, hmpc, hmem⟩ := State.rebuild_shows (s := s.quiet) (eng := eng) rfl (storeBytes_touch v x.base out) hj hops hstarted
        (by rw [hcopies]; exact hone)
      refine ⟨_, hexec, ⟨hended, hmpc⟩, ?_⟩
      refine (State.bytes_of_mem (s := v.storeBytes x.base out) hmem x.base out.length).trans ?_
      exact State.bytes_storeBytes (State.hbm_of_serves hserves).1

end Sys2Proof.Machine

namespace Sys2Proof.Machine

open Sys2Proof

/-! ### A package that reads leaves the state as it is (R245, R298) -/

section
variable {s u : State} {rq : Requester} {a n : Nat} {bs : List Byte}

theorem State.openOuter_ok {t : Tier} {w : Bool} (h : s.openOuter t a n w = (0, u)) : u = s := by
  unfold State.openOuter at h
  split at h
  · cases h
  · split at h
    · cases h
    · split at h
      · cases h
      · cases h
        rfl

/-- A read of the outer memories that succeeds changes nothing. -/
theorem State.devRead_outer_ok (hlo : hbmBase ≤ a) (hhi : a < farBase) (h : s.devRead rq a n = (0, bs, u)) : u = s := by
  have hbank (t : State) : t.tierOf a n ≠ some .bank := by
    rw [State.tierOf, if_neg (by rw [hbmBase] at hlo; omega)]
    split_ifs <;> simp
  have hfar : s.tierOf a n ≠ some .far := by
    rw [State.tierOf, if_neg (by rw [hbmBase] at hlo; omega)]
    split_ifs with _ _ hf
    · simp
    · simp
    · exact absurd hf.1 (Nat.not_le.2 hhi)
    · simp
  unfold State.devRead at h
  split at h
  · rename_i v hopen
    rw [if_neg (hbank v)] at h
    have hv : v = s := by
      unfold State.openRange at hopen
      split at hopen
      · cases hopen
        rfl
      · split at hopen
        · cases hopen
        · rename_i ht
          exact absurd ht (hbank s)
        · exact State.openOuter_ok hopen
        · exact State.openOuter_ok hopen
        · rename_i ht
          exact absurd ht hfar
    cases h
    exact hv
  · rename_i st v hst hopen
    cases h
    exact (hst rfl).elim

end

theorem firstFail_zero {l : List (Nat × Bool)} (hst : ∀ c ∈ l, c.1 ≠ 0) (h : firstFail l = 0) : ∀ c ∈ l, c.2 = false := by
  intro c hc
  rw [firstFail] at h
  cases hfind : l.find? fun c => c.2 with
  | none => simpa using List.find?_eq_none.1 hfind c hc
  | some d =>
    rw [hfind] at h
    exact absurd h (hst d (List.mem_of_find?_eq_some hfind))

/-- The sections of a sound table lie inside the package. -/
theorem offset_le_of_sectionsCheck {table : List (List Byte)} {bytes : Nat} (h : sectionsCheck table bytes = 0) :
    ∀ e ∈ table.map sectionOf, e.2.2 ≤ bytes := by
  intro e he
  have hall := firstFail_zero (by simp; decide) h
  simp only [List.forall_mem_cons] at hall
  obtain ⟨-, -, -, -, -, -, hbad, -⟩ := hall
  rw [List.any_eq_false] at hbad
  have := hbad e he
  simp only [Bool.or_eq_true, decide_eq_true_eq, not_or] at this
  omega

section
variable {s u : State} {base bytes : Nat} {head : List Byte}

theorem State.readSections_ok {rq : Requester} {l : List (Nat × Nat × Nat)} {got : List (Nat × List (List Byte))}
    (hlo : hbmBase ≤ base) (hhi : ∀ e ∈ l, base + e.2.2 < farBase) (h : s.readSections rq base l = (0, got, u)) : u = s := by
  induction l generalizing s got with
  | nil =>
    cases h
    rfl
  | cons e l ih =>
    unfold State.readSections at h
    extract_lets w at h
    split at h
    · rename_i bs v hread
      have hv : v = s := State.devRead_outer_ok (hlo.trans (Nat.le_add_right ..)) (hhi e (List.mem_cons_self ..)) hread
      split at h
      rename_i st got' x hrest
      cases h
      subst hv
      exact ih (fun e he => hhi e (List.mem_cons_of_mem _ he)) hrest
    · rename_i st _ v hst hread
      cases h
      exact (hst rfl).elim

theorem State.hbm_of_tierOf {a n : Nat} (h : s.tierOf a n = some .hbm) : hbmBase ≤ a ∧ a + n ≤ hbmEnd := by
  unfold State.tierOf at h
  split_ifs at h with _ hin <;> cases h
  exact hin

/-- A package that is read from HBM without an error leaves the state as it is. -/
theorem State.readPackage_ok {e : Nat} {j : Job} (hrange : hbmBase ≤ base ∧ base + bytes ≤ hbmEnd)
    (h : s.readPackage base bytes = (e, some j, head, u)) : u = s := by
  obtain ⟨hlo, hhi⟩ := hrange
  have hend : hbmEnd + 128 < farBase := by decide
  unfold State.readPackage at h
  extract_lets rq at h
  split at h
  · rename_i hdr v hread
    obtain rfl := State.devRead_outer_ok hlo (by omega) hread
    extract_lets e₁ n at h
    split at h
    · simp at h
    · split at h
      · rename_i tb w htable
        obtain rfl := State.devRead_outer_ok (by omega) (by omega) htable
        extract_lets table e₂ at' at h
        split at h
        · simp at h
        · rename_i hsec
          split at h
          · rename_i got x hgot
            cases h
            exact State.readSections_ok hlo (fun e he => by
              have := offset_le_of_sectionsCheck (not_not.1 hsec) e he
              omega) hgot
          · cases h
      · cases h
  · cases h

end

end Sys2Proof.Machine

namespace Sys2Proof.Machine

open Sys2Proof

/-! ### What a load looks at, after its package is in the runtime log (R245, R518)

The log and the shown seed check change the state in the areas of `loggedAreas` alone, and none of a load's checks reads those. -/

/-- The security state and its registers, where the runtime log stands, and the generators' registers, where SEED_CHECK stands. -/
abbrev loggedAreas : Nat := 2 ^ 18 + 2 ^ 25 + 2 ^ 33

section
variable {v w : State} (h : Touch loggedAreas v w)
include h

theorem Touch.torusE_logged : w.torusE = v.torusE :=
  funext fun a => congrArg (extentOf · a) (h.fld Reg.torusExtent (by decide))

theorem Touch.castE_logged : w.castE = v.castE :=
  funext fun a => congrArg (extentOf · a) (h.fld Reg.castExtent (by decide))

theorem Touch.castPos_logged : w.castPos = v.castPos := by
  funext c a
  rw [State.castPos, h.torusE_logged, h.fld Reg.castOrigin (by decide), State.castPos]

theorem Touch.coord_logged : w.coord = v.coord := h.fld Reg.fabCoord (by decide)

theorem Touch.shiftMember_logged : w.shiftMember = v.shiftMember := by
  funext c a k
  rw [State.shiftMember, h.castE_logged, h.castPos_logged, h.torusE_logged, h.fld Reg.castOrigin (by decide), State.shiftMember]

theorem Touch.mirrorThere_logged : w.mirrorThere = v.mirrorThere := by
  funext p
  rw [State.mirrorThere, h.castE_logged, State.mirrorThere]

theorem Touch.parityThere_logged : w.parityThere = v.parityThere := by
  funext p
  rw [State.parityThere, h.castE_logged, State.parityThere]

theorem Touch.groupStart_logged : w.groupStart = v.groupStart := by
  funext p c
  rw [State.groupStart, h.castPos_logged, h.shiftMember_logged, State.groupStart]

theorem Touch.ddrSize_logged : w.ddrSize = v.ddrSize := by
  have hchannel (c : Nat) (hc : c < 8) : regArea (Reg.ddrCapacity.off + 0x40 * c) = 29 ∧ regArea (Reg.ddrInSet.off + 0x40 * c) = 29 := by
    interval_cases c <;> decide
  have hset : w.activeChannels = v.activeChannels :=
    List.filter_congr fun c hc => by
      rw [h.fld (Reg.ddrInSet.plus (0x40 * c)) (by rw [Fld.plus, (hchannel c (List.mem_range.1 hc)).2]; decide)]
  have hcaps : (v.activeChannels.map fun c => w.fld (Reg.ddrCapacity.plus (0x40 * c)))
      = v.activeChannels.map fun c => v.fld (Reg.ddrCapacity.plus (0x40 * c)) :=
    List.map_congr_left fun c hc =>
      h.fld _ (by rw [Fld.plus, (hchannel c (List.mem_range.1 (List.mem_filter.1 hc).1)).1]; decide)
  simp only [State.ddrSize, hset, hcaps, h.fld Reg.ddrActive (by decide)]

theorem Touch.regionOk_logged : w.regionOk = v.regionOk := by
  funext r
  simp only [State.regionOk, State.tierOf, h.ddrSize_logged]

theorem Touch.regions_logged : w.regions = v.regions := by
  rw [State.regions, h.regs Reg.snapBase (by decide), h.regs Reg.snapSize (by decide), h.regs Reg.mirrorBase (by decide),
    h.regs Reg.mirrorSize (by decide), h.regs Reg.parityBase (by decide), h.regs Reg.paritySize (by decide), State.regions]

theorem Touch.retiredPages_logged : w.retiredPages = v.retiredPages := by
  obtain ⟨hstacks, hchannels, -⟩ := h.outer (by decide)
  rw [State.retiredPages, hstacks, hchannels, State.retiredPages]

theorem Touch.hostBias_logged : w.hostBias = v.hostBias := by
  funext a n
  rw [State.hostBias, h.host (by decide), State.hostBias]

theorem Touch.inStandby_logged : w.inStandby = v.inStandby := by
  funext r
  have hbank (b : Nat) (hb : b < 3072) : w.bf b Reg.bankStandby = v.bf b Reg.bankStandby := by
    have harea : regArea (Reg.bankStandby.plus (0x40 * b)).off = 30 :=
      regArea_eq (lo := 0x300000) (hi := 0x400000) (by simp only [Fld.plus, Reg.bankStandby]; omega) (by decide) (by decide)
    exact h.fld _ (by rw [harea]; decide)
  have hnamed (c : Nat) (hc : c < 16) : w.rd (Reg.bnkStandby + 8 * (c / 8)) = v.rd (Reg.bnkStandby + 8 * (c / 8)) := by
    have hword : c / 8 = 0 ∨ c / 8 = 1 := by omega
    rcases hword with hword | hword <;> rw [hword] <;> exact h.regs _ (by decide)
  unfold State.inStandby
  rw [Bool.eq_iff_iff, List.any_eq_true, List.any_eq_true]
  refine exists_congr fun c => and_congr_right fun hc => ?_
  have hc16 := List.mem_range.1 hc
  have hfind : (List.range 44).find? (fun n => w.bf (2304 + 48 * c + n) Reg.bankStandby == 1)
      = (List.range 44).find? (fun n => v.bf (2304 + 48 * c + n) Reg.bankStandby == 1) :=
    List.find?_congr fun n hn => by
      have := List.mem_range.1 hn
      rw [hbank _ (by omega)]
  simp only [hfind, hnamed c hc16]

theorem Touch.placementCheck_logged (j : Job) : w.placementCheck j = v.placementCheck j := by
  simp only [State.placementCheck, h.regions_logged, h.regionOk_logged, h.retiredPages_logged, h.inStandby_logged, h.hostBias_logged]

/-- The checks of a load on its own device come out the same. -/
theorem Touch.loadLocal_logged (j : Job) (items : List Item) : w.loadLocal j items = v.loadLocal j items := by
  simp only [State.loadLocal, State.replicas, h.castE_logged, h.placementCheck_logged, h.parityThere_logged,
    h.queue (by decide), h.regs Reg.snapSize (by decide), h.regs Reg.ckpProt (by decide)]

theorem Touch.members_logged (j : Job) (items : List Item) (step : Nat) (peers : List Peer) :
    w.members j items step peers = v.members j items step peers := by
  simp only [State.members, State.protBytes, State.placeBytes, h.coord_logged, h.regs Reg.mirrorSize (by decide),
    h.regs Reg.paritySize (by decide), h.regs Reg.ckpCtrl (by decide), h.regs Reg.ckpProt (by decide),
    h.regs Reg.ckpExport (by decide), h.fld Reg.fdIds (by decide), h.fld Reg.castCorrAck (by decide)]

/-- What the members must agree on comes out the same. -/
theorem Touch.castFits_logged (ms : List Peer) : w.castFits ms = v.castFits ms := by
  simp only [State.castFits, h.regs Reg.ckpProt (by decide), h.mirrorThere_logged, h.parityThere_logged,
    h.shiftMember_logged, h.groupStart_logged]

end

end Sys2Proof.Machine

namespace Sys2Proof.Machine

open Sys2Proof

/-! ### A job that is LOADED (R245) -/

/-- What a load without a book leaves to be read of its job: the slot's registers, the generators' and the interval's job. -/
structure State.Loaded (t : State) (slot base : Nat) (j : Job) : Prop where
  state : t.jf slot Reg.jobState = 2
  id : t.jf slot Reg.jobId = j.hdr 4 4
  step : t.jf slot Reg.jobStep = 0
  base : t.jf slot Reg.jobPkgBase = base
  program : (t.job slot).map (·.program) = some j.program
  rng : t.rng.job = some slot
  key : t.fld Reg.rngKeyReady = 1
  ckp : t.ckp.job = some slot

/-- What a load shows stays while the jobs, their windows, the generators and the interval are left alone. -/
theorem State.Loaded.to {s t : State} {slot base M : Nat} {j : Job} (h : s.Loaded slot base j) (k : Touch M s t) (hslot : slot < 4)
    (hM : M &&& (2 ^ 7 + 2 ^ 9 + 2 ^ 15 + 2 ^ 23 + 2 ^ 25) = 0) : t.Loaded slot base j := by
  have hclear (b : Nat) (hb : (2 ^ 7 + 2 ^ 9 + 2 ^ 15 + 2 ^ 23 + 2 ^ 25).testBit b = true) : M.testBit b = false := by
    have hand : (M.testBit b && (2 ^ 7 + 2 ^ 9 + 2 ^ 15 + 2 ^ 23 + 2 ^ 25).testBit b) = false := by
      rw [← Nat.testBit_and, hM, Nat.zero_testBit]
    rwa [hb, Bool.and_true] at hand
  have hjobs : M.testBit 23 = false := hclear 23 (by decide)
  have hjf (f : Fld) (hf : f ∈ jobFields) : t.jf slot f = s.jf slot f := k.jf hjobs hf hslot
  refine ⟨(hjf _ (by decide)).trans h.state, (hjf _ (by decide)).trans h.id, (hjf _ (by decide)).trans h.step,
    (hjf _ (by decide)).trans h.base, ?_, ?_, (k.fld Reg.rngKeyReady (hclear 25 (by decide))).trans h.key, ?_⟩
  · rw [job_of_touch k (hclear 7 (by decide)), h.program]
  · rw [k.rng (hclear 9 (by decide)), h.rng]
  · rw [k.ckp (hclear 15 (by decide)), h.ckp]

theorem State.ckp_latchCkp (s : State) (slot index : Nat) (items : List Item) (correlated : Bool) :
    (s.latchCkp slot index items correlated).ckp.job = some slot := by
  unfold State.latchCkp
  extract_lets w a off mirror parity bytes src src' s1 s2 s3 s4 s5 s6
  have h3 : Touch (2 ^ 26) s1 s3 :=
    ((((Touch.refl (2 ^ 26) s1).to (wr_touch_in (k := 26) _ _ _ rfl) rfl).to (setF_touch_in (k := 26) _ _ _ rfl) rfl).to
      (setF_touch_in (k := 26) _ _ _ rfl) rfl).to (setF_touch_in (k := 26) _ _ _ rfl) rfl |>.to (setF_touch_in (k := 26) _ _ _ rfl) rfl
  have h6 : Touch (2 ^ 26) s1 s6 :=
    ((h3.to (setF_touch_in (k := 26) _ _ _ rfl) rfl).to (setF_touch_in (k := 26) _ _ _ rfl) rfl).to
      (setF_touch_in (k := 26) _ _ _ rfl) rfl
  rw [(((h6.to (setF_touch_in (k := 26) _ _ _ rfl) rfl).to (setF_touch_in (k := 26) _ _ _ rfl) rfl).to
    (setF_touch_in (k := 26) _ _ _ rfl) rfl).ckp rfl]

/-- The same of a state that is given by name: the kernel then compares states and never runs them for their interval. -/
theorem State.ckp_of_latchCkp {s t : State} {slot index : Nat} {items : List Item} {correlated : Bool}
    (h : t = s.latchCkp slot index items correlated) : t.ckp.job = some slot := by
  rw [h, State.ckp_latchCkp]

/-- A job put in a slot without a book starts at step 0, and nothing after its window is written shows there. -/
theorem State.putJob_loaded (s : State) {slot base : Nat} (j : Job) (items : List Item) (correlated startOk : Bool) (hslot : slot < 4)
    (hbase : base < 2 ^ 64) : (s.putJob slot base j items correlated [] [] false startOk).Loaded slot base j := by
  unfold State.putJob
  extract_lets f step s2 s3 s4 s5 s6 s7 s8 s9 src s10 s11 s12 s13 s14 s15 s16 s17 n s18
  have hprogram : (s3.job slot).map (·.program) = some j.program := by
    rw [job_of_touch (clearJob_touch s2 slot) rfl, job_setJob, if_pos rfl]
    rfl
  have h4 : Keeps (·.program) slot [Reg.jobState, Reg.jobId, Reg.jobStep] s4 s6 :=
    ((((Keeps.refl s4).setJf slot _ (by decide) (by decide)).setJf slot _ (by decide) (by decide)).setJf slot _ (by decide)
      (by decide)).setJf slot _ (by decide) (by decide)
  have h3 : Keeps (·.program) slot [] s3 s4 :=
    ((((Keeps.refl s3).setJf slot _ (by decide) (by simp)).setJf slot _ (by decide) (by simp)).setJf slot _ (by decide)
      (by simp)).setJf slot _ (by decide) (by simp)
  have hwin : Touch (2 ^ 24 + 2 ^ 25) s6 src := by
    refine Touch.to (N := 2 ^ 25) (Touch.to (N := 2 ^ 25) (Touch.to (N := 2 ^ 25) (s := s9) ?_ (setF_touch_in (k := 25) _ _ _ rfl) rfl)
      (setF_touch_in (k := 25) _ _ _ rfl) rfl) (setF_touch_in (k := 25) _ _ _ rfl) rfl
    have h7 : Touch (2 ^ 24) s6 s7 :=
      (((Touch.refl (2 ^ 24) s6).to (wr_touch_in (k := 24) _ _ _ rfl) rfl).to (setF_touch_in (k := 24) _ _ _ rfl) rfl).to
        (setF_touch_in (k := 24) _ _ _ rfl) rfl
    exact ((((h7.to (setF_touch_in (k := 24) _ _ _ rfl) rfl).to (setF_touch_in (k := 24) _ _ _ rfl) rfl).to
      (setF_touch_in (k := 24) _ _ _ rfl) rfl).to (setF_touch_in (k := 24) _ _ _ rfl) rfl).widen rfl
  have h11 : Touch (2 ^ 9 + 2 ^ 24 + 2 ^ 25) s6 s11 := Touch.set_rng (hwin.widen rfl) rfl
  have h15 : Touch 210120649751 s11 s15 :=
    ((((Touch.refl _ s11).to (setV_touch ..) rfl).to (devWrite_touch ..) rfl).to (lockBanks_touch ..) rfl).to (latchCkp_touch ..) rfl
  have hjf (f : Fld) (hf : f ∈ jobFields) : s15.jf slot f = s6.jf slot f :=
    (h15.jf rfl hf hslot).trans (h11.jf rfl hf hslot)
  have hloaded : s15.Loaded slot base j := by
    refine ⟨?_, ?_, ?_, ?_, ?_, ?_, ?_, State.ckp_of_latchCkp (t := s15) (s := s14) rfl⟩
    · rw [hjf _ (by decide), h4.fields hslot _ (by decide) (by decide), State.jf_setJf_apart _ (by decide) (by decide) hslot (by decide),
        State.jf_setJf_apart _ (by decide) (by decide) hslot (by decide), State.jf_setJf_apart _ (by decide) (by decide) hslot (by decide),
        State.jf_setJf _ (by decide) hslot]
      rfl
    · rw [hjf _ (by decide), h4.fields hslot _ (by decide) (by decide), State.jf_setJf_apart _ (by decide) (by decide) hslot (by decide),
        State.jf_setJf_apart _ (by decide) (by decide) hslot (by decide), State.jf_setJf _ (by decide) hslot]
      have hlt := fieldLE_lt j.header 4 4
      exact Nat.mod_eq_of_lt (by simp only [Reg.jobId, Job.hdr]; omega)
    · rw [hjf _ (by decide), h4.fields hslot _ (by decide) (by decide), State.jf_setJf_apart _ (by decide) (by decide) hslot (by decide),
        State.jf_setJf _ (by decide) hslot]
      rfl
    · have hkeep : Keeps (·.program) slot [Reg.jobPkgBase] (s4.setJf slot Reg.jobPkgBase base) s6 :=
        (((Keeps.refl _).setJf slot _ (by decide) (by decide)).setJf slot _ (by decide) (by decide)).setJf slot _ (by decide) (by decide)
      rw [hjf _ (by decide), hkeep.fields hslot _ (by decide) (by decide), State.jf_setJf _ (by decide) hslot]
      exact Nat.mod_eq_of_lt hbase
    · rw [job_of_touch h15 rfl, job_of_touch h11 rfl, h4.jobs slot, h3.jobs slot, hprogram]
    · rw [h15.rng rfl]
    · rw [h15.fld _ rfl]
      exact State.fld_setF _ 1 (by decide)
  have h16 : s16 = s15 := List.foldl_nil
  have h17 : s17 = s16 := if_neg (by simp)
  have h18 : s18.Loaded slot base j := by
    unfold s18
    rw [h17, h16]
    split
    · exact hloaded.to (event_touch ..) hslot rfl
    · exact hloaded
  rwa [if_neg (by decide)]

end Sys2Proof.Machine

namespace Sys2Proof.Machine

open Sys2Proof

/-! ### JOB_LOAD on a cast of one device (R245, R427, R428) -/

/-- A member that accepts correlated protection says so to the others. -/
theorem State.placeBytes_acknowledges {s : State} (hack : s.fld Reg.castCorrAck = 1) : bitAt 4 (fieldLE s.placeBytes 9 1) = true := by
  have haxis : mirrorAxis (s.rd Reg.ckpProt) < 4 ∧ parityAxis (s.rd Reg.ckpProt) < 4 :=
    ⟨Nat.mod_lt _ (by decide), Nat.mod_lt _ (by decide)⟩
  have hbyte : fieldLE s.placeBytes 9 1
      = (mirrorAxis (s.rd Reg.ckpProt) + 4 * parityAxis (s.rd Reg.ckpProt) + 16 * s.fld Reg.castCorrAck) % 256 ^ 1 :=
    leNat_leBytes 1 _
  rw [hbyte, hack]
  generalize mirrorAxis (s.rd Reg.ckpProt) = a, parityAxis (s.rd Reg.ckpProt) = b at *
  obtain ⟨ha, hb⟩ := haxis
  interval_cases a <;> interval_cases b <;> decide

/-- The exchanges of a load agree on a cast of one device whose regions hold its items, where correlated protection is accepted and EXPORT_BASE is
set. -/
theorem State.loadExchange_alone {s : State} {j : Job} {items : List Item} (hfits : s.castFits (s.members j items 0 []) = true)
    (hlen : 128 + 80 * items.length ≤ 2 ^ 24) (hack : s.fld Reg.castCorrAck = 1) (hexport : s.rd Reg.exportBase ≠ 0) :
    ∃ u, s.loadExchange j items [] = (0, u) ∧ Touch 206730952726 s u := by
  refine ⟨(s.loadExchange j items []).2, Prod.ext ?_ rfl, loadExchange_touch ..⟩
  unfold State.loadExchange
  extract_lets ms s1 corr s2 ack due
  have h1 : Touch (2 ^ 25) s s1 := setF_touch_in (k := 25) s Reg.seedCheckReg (seedCheck j.seed) rfl
  have h2 : Touch 206730952726 s s2 :=
    Touch.ite (Touch.foldl (h1.widen rfl) fun _ _ h => h.to (event_touch ..) rfl) (h1.widen rfl)
  have hall : ack = true := by
    simp [ack, ms, State.members, State.placeBytes_acknowledges hack]
  have hfits1 : s1.castFits ms = true := ((h1.widen rfl : Touch loggedAreas s s1).castFits_logged ms).trans hfits
  rw [List.find?_nil]
  change (if !s1.castFits ms ∨ 2 ^ 24 < 128 + 80 * items.length then (St.consistency, s1) else _).1 = 0
  rw [if_neg (by rw [hfits1]; simp; omega), if_neg (by rw [hall]; simp), 
    if_neg fun h => hexport ((h2.regs Reg.exportBase rfl).symm.trans h.2)]

/-- A package that reads and passes every check of a cast of one device is put in its slot (R245). -/
theorem State.load_alone {s u : State} {i slot base bytes : Nat} {j : Job} {head : List Byte}
    (htier : s.tierOf base bytes = some .hbm) (hread : s.markStandby.readPackage base bytes = (0, some j, head, u))
    (hplain : (j.hdr 3 1).testBit 0 = false) (hlocal : s.markStandby.loadLocal j (placeItems (2 ^ 24) j.itemList) = 0)
    (hstate : s.fld Reg.fovState ≠ 3)
    (hfits : s.markStandby.castFits (s.markStandby.members j (placeItems (2 ^ 24) j.itemList) 0 []) = true)
    (hlen : 128 + 80 * (placeItems (2 ^ 24) j.itemList).length ≤ 2 ^ 24) (hack : s.fld Reg.castCorrAck = 1)
    (hexport : s.rd Reg.exportBase ≠ 0) :
    ∃ x items corr, s.load i slot base bytes (j.hdr 4 4) [] = (x.putJob slot base j items corr [] [] false true).opDone i 0 0
      ∧ Touch 216663330838 s x := by
  have hv : Touch (2 ^ 30) s s.markStandby := markStandby_touch s
  have hu : u = s.markStandby := State.readPackage_ok (State.hbm_of_tierOf htier) hread
  have hlogged : Touch loggedAreas s.markStandby
      (if 128 < head.length then u.logEntry (toBytes (sha3_512 (natBytes head))) else u) := by
    rw [hu]
    exact Touch.ite ((logEntry_touch ..).widen rfl) (Touch.refl ..)
  unfold State.load
  rw [hread]
  dsimp only
  generalize (if 128 < head.length then u.logEntry (toBytes (sha3_512 (natBytes head))) else u) = w at hlogged
  have hfitsw : w.castFits (w.members j (placeItems (2 ^ 24) j.itemList) 0 []) = true := by
    rw [hlogged.members_logged, hlogged.castFits_logged]
    exact hfits
  have hstatew : w.fld Reg.fovState ≠ 3 := by
    rw [hlogged.fld _ (by decide), hv.fld _ rfl]
    exact hstate
  have hackw : w.fld Reg.castCorrAck = 1 := by
    rw [hlogged.fld _ (by decide), hv.fld _ rfl, hack]
  have hexportw : w.rd Reg.exportBase ≠ 0 := by
    rw [hlogged.regs _ (by decide), hv.regs _ rfl]
    exact hexport
  obtain ⟨x, hexchange, hx⟩ := State.loadExchange_alone hfitsw hlen hackw hexportw
  rw [if_neg (not_not.2 rfl), if_neg (not_not.2 ((hlogged.loadLocal_logged ..).trans hlocal)), if_neg hstatew, hexchange]
  have hrestore : ¬ bitAt 0 (j.hdr 3 1) = true := by
    rw [bitAt, hplain]
    decide
  refine ⟨_, _, _, if_neg hrestore, ?_⟩
  exact (((hv.widen rfl : Touch 216663330838 s _).to hlogged rfl).to hx rfl).to (loadDigests_touch ..) rfl

/-- Settles O30: a package that reads leaves the state as it is, the runtime log changes nothing that the checks look at, and what the load
puts in the slot stands. -/
theorem jobsAreLoaded : Obligations.JobsAreLoaded := by
  intro s u i slot o j head hw hop hslot hrefused htier v hread items hid hplain hlocal hstate hfits hlen hack hexport
  obtain ⟨x, items', corr, hload, hx⟩ := State.load_alone (s := s.quiet) (i := i) (slot := slot) htier hread hplain hlocal hstate hfits hlen
    hack hexport
  have hshown := State.putJob_loaded x j items' corr true hslot (base := o.cue.op 40 8) (fieldLE_lt o.cue.raw 40 8)
  have hput := putJob_touch x slot (o.cue.op 40 8) j items' corr [] [] false true
  have hfind : SMap.find (x.putJob slot (o.cue.op 40 8) j items' corr [] [] false true).ops i = some o := by
    rw [hput.ops rfl, hx.ops rfl]
    exact hw.2.1
  have hrefused' : s.quiet.loadRefused slot o.cue.jobId = (0, (s.loadRefused slot o.cue.jobId).2) := Prod.ext hrefused rfl
  have hexec : exec (.jobLoad i []) s = .next ((x.putJob slot (o.cue.op 40 8) j items' corr [] [] false true).opDone i 0 0) := by
    change execJobLoad i [] s = _
    refine run_to (decide_eq_true hw.1) ?_ (((opDone_touch ..).pending.trans hput.pending).trans hx.pending)
    rw [State.withOp_waits hw, hop, ← hid]
    rw [← hid] at hrefused'
    simp only [hrefused']
    rw [if_pos (show s.quiet.tierOf _ _ = _ from htier)]
    exact hload
  have hend := hshown.to (opDone_touch _ i 0 0) hslot rfl
  exact ⟨_, hexec, State.opRan_opDone hfind hw.2.2.2.2 0, hend.state, hend.id.trans hid, hend.step, hend.base, hend.rng, hend.key,
    hend.program, hend.ckp⟩

end Sys2Proof.Machine

namespace Sys2Proof.Machine

open Sys2Proof

/-! ### A degraded engine, and the health record (R288, R310) -/

section
variable {s : State} {e sp : Nat}

theorem State.engSt_of_spareOf {c : Nat} (h : s.spareOf c = some sp) : s.engSt sp = US.spare := by
  simpa using List.find?_some h

theorem State.lt_of_spareOf (he : e < 144) (h : s.spareOf (e / 9) = some sp) : sp < 144 := by
  have hmem := List.mem_of_find?_eq_some h
  simp only [List.mem_map, List.mem_range] at hmem
  obtain ⟨k, hk, rfl⟩ := hmem
  omega

/-- The role of an engine passes to the spare, and the engine is fenced: what a degraded engine's move comes to. -/
def State.degradedMove (s : State) (e sp b : Nat) : State :=
  let s := (s.copyErrors.2.aliasBanks e sp s.copyErrors.1).event Ev.bankDegraded (UId.bank b) [UId.engine e, UId.engine sp]
  ((s.setUnit (UId.engine sp) US.active Ev.bankDegraded Src.device).rerunTiles e sp).setUnit (UId.engine e) US.fenced Ev.bankDegraded
    Src.device

/-- After the move the engine is fenced and the spare is active. -/
theorem State.engSt_degradedMove (s : State) {b : Nat} (he : e < 144) (hsp : sp < 144) (hne : e ≠ sp) :
    (s.degradedMove e sp b).engSt e = US.fenced ∧ (s.degradedMove e sp b).engSt sp = US.active := by
  refine ⟨engSt_setUnit_same _ _ _ (by decide) he, ?_⟩
  exact (engSt_setUnit_other _ _ _ _ hne hsp).trans
    (((rerunTiles_calm ..).engSt hsp).trans (engSt_setUnit_same _ _ _ (by decide) hsp))

/-- With no job at all the engine is at a step boundary. -/
theorem exec_degradedEngineMove (he : e < 144) (hmove : s.fld Reg.moveDegraded = 1) (hjobs : s.jobs = []) (hact : s.engSt e = US.active)
    (hworn : ∃ b ∈ engineBanks e, s.bf b Reg.bankDegraded = 1) (hspare : s.spareOf (e / 9) = some sp) :
    ∃ b, exec (.degradedEngineMove e) s = .next { s.quiet.degradedMove e sp b with pending := s.pending } := by
  obtain ⟨b, hb⟩ : ∃ b, (engineBanks e).find? (fun b => s.quiet.bf b Reg.bankDegraded == 1) = some b := by
    obtain ⟨b, hb, hdeg⟩ := hworn
    exact Option.isSome_iff_exists.1 (List.find?_isSome.2 ⟨b, hb, beq_iff_eq.2 hdeg⟩)
  have hgo : s.quiet.fld Reg.moveDegraded = 1 ∧ (!(s.quiet.jobs.any fun j => j.2.isOpen)) = true ∧ s.quiet.engSt e = US.active :=
    ⟨hmove, by rw [show s.quiet.jobs = [] from hjobs]; rfl, hact⟩
  refine ⟨b, ?_⟩
  change execDegradedEngineMove e s = _
  unfold execDegradedEngineMove
  rw [run_next _ s (decide_eq_true he)]
  dsimp only
  rw [hb]
  dsimp only
  rw [if_pos hgo, show s.quiet.spareOf (e / 9) = some sp from hspare]
  rfl

/-- A health record that is written, or was not to be written, is not marked any more. -/
theorem healthDirty_healthRecordWrite (s : State) : ∃ t, exec .healthRecordWrite s = .next t ∧ t.sec.healthDirty = false := by
  refine ⟨_, run_next _ s rfl, ?_⟩
  by_cases hd : s.sec.healthDirty = true
  · change (if s.sec.healthDirty then s.quiet.writeHealth else s.quiet).sec.healthDirty = false
    rw [if_pos hd, State.writeHealth]
  · change (if s.sec.healthDirty then s.quiet.writeHealth else s.quiet).sec.healthDirty = false
    rw [if_neg hd]
    exact Bool.eq_false_iff.2 hd

end

/-- Settles O14: only the two changes of unit states at the end of the move write entries of engines. -/
theorem degradedEnginesMoveAndHealthIsWritten : Obligations.DegradedEnginesMoveAndHealthIsWritten := by
  refine ⟨fun s e sp he hmove hjobs hact hworn hspare => ?_, healthDirty_healthRecordWrite⟩
  obtain ⟨b, hexec⟩ := exec_degradedEngineMove he hmove hjobs hact hworn hspare
  have hne : e ≠ sp := by
    rintro rfl
    rw [State.engSt_of_spareOf hspare] at hact
    exact absurd hact (by decide)
  exact ⟨_, hexec, s.quiet.engSt_degradedMove he (State.lt_of_spareOf he hspare) hne⟩

end Sys2Proof.Machine

namespace Sys2Proof.Machine

open Sys2Proof

/-! ### Addresses within a line of a bank (R268, R269, R289) -/

/-- n bytes at a lie within one line of bank space. -/
structure InLine (a n : Nat) : Prop where
  pos : 0 < n
  line : a % 64 + n ≤ 64
  space : a + n ≤ 0x3000_0000

section
variable {s : State} {a n i : Nat}

theorem InLine.lt (h : InLine a n) (hi : i < n) : a + i < 0x3000_0000 := by
  have := h.space
  omega

/-- The bytes of a line are stored one after the other, in the bank that serves them. -/
theorem InLine.storeAddr_add (h : InLine a n) (hi : i < n) : s.storeAddr (a + i) = s.storeAddr a + i := by
  obtain ⟨-, hline, hspace⟩ := h
  rw [State.storeAddr, State.storeAddr, if_pos (by omega), if_pos (by omega), show (a + i) / 0x40000 = a / 0x40000 by omega]
  omega

theorem InLine.storeAddr_div (h : InLine a n) (hi : i < n) : (s.storeAddr a + i) / 0x40000 = s.served1 (a / 0x40000) := by
  obtain ⟨-, hline, hspace⟩ := h
  rw [State.storeAddr, if_pos (by omega)]
  omega

theorem InLine.unitsOf_bank (h : InLine a n) : unitsOf 0x40000 a n = [a / 0x40000 * 0x40000] := by
  obtain ⟨hpos, hline, -⟩ := h
  rw [unitsOf, if_neg (by omega), show (a + n - 1) / 0x40000 + 1 - a / 0x40000 = 1 by omega]
  rfl

theorem InLine.tierOf (h : InLine a n) (s : State) : s.tierOf a n = some .bank := if_pos h.space

/-- Where the bytes are stored depends on the registers alone. -/
theorem State.storeAddr_of_regs {t : State} (h : t.regs = s.regs) (a : Nat) : t.storeAddr a = s.storeAddr a := by
  have hrd (off : Nat) : t.rd off = s.rd off := by rw [State.rd_eq, State.rd_eq, h]
  have hbf (b : Nat) (f : Fld) : t.bf b f = s.bf b f := congrArg (bits f.hi f.lo) (hrd _)
  rw [State.storeAddr, State.storeAddr, State.served1, State.served1, hbf, hbf]

/-- A bank is stored below the outer memories, whichever bank serves it. -/
theorem State.storeAddr_lt (h : a < 0x3000_0000) : s.storeAddr a < 2 ^ 30 := by
  have hserved : s.served1 (a / 0x40000) < 2 ^ 12 := by
    rw [State.served1]
    split
    · exact bits_lt ..
    · omega
  rw [State.storeAddr, if_pos h]
  omega

end

/-! ### Accesses that a bank serves at once (R272, R274, R276) -/

section
variable {s : State} {w : Sender} {r : Requester} {a n b : Nat}

theorem State.settle_done {p : Nat} (h : bitAt 27 (s.owner b p) = false) : s.settle r b p = s := by
  rw [State.settle]
  exact if_neg (by simp [h])

/-- The port that serves the sender lets it in. -/
theorem State.permit_served (h : s.bankServes w b) (hr : r.kind = w.kind ∧ r.index = w.index) (add : Bool) :
    s.permit r (s.served1 b) add = some s := by
  obtain ⟨-, hfenced, hfailed, hpendA, hpendB, howner⟩ := h
  have hmine (p : Nat) : ownedBy (s.owner (s.served1 b) p) r = ownedBy (s.owner (s.served1 b) p) ⟨w.kind, w.index, none⟩ := by
    rw [ownedBy, ownedBy, hr.1, hr.2]
  have hserves : (s.portServes r (s.served1 b) 0 || (dualPort (s.served1 b) && s.portServes r (s.served1 b) 1)) = true := by
    simpa [State.portServes, hmine, hpendA, hpendB] using howner
  rw [State.permit, State.settle_done hpendA, State.settle_done hpendB, ite_self]
  dsimp only
  rw [if_neg (not_or.2 ⟨hfenced, hfailed⟩), if_pos hserves]

theorem State.openBank_served (h : s.bankServes w b) (hr : r.kind = w.kind ∧ r.index = w.index) (byte : Nat) (add : Bool) :
    s.openBank r b byte add = (0, s.served1 b, s) := by
  have hon : s.bf (s.served1 b) Reg.bankState = 0 := h.1
  have hwake : s.wakeBank r (s.served1 b) = s := by
    rw [State.wakeBank, hon]
    exact if_neg fun h => absurd h.1 (by decide)
  rw [State.openBank, hwake]
  simp [hon, State.permit_served h hr, St.success]

theorem State.openRange_bank (h : s.bankServes w (a / 0x40000)) (hr : r.kind = w.kind ∧ r.index = w.index) (ha : InLine a n)
    (write add : Bool) : s.openRange r a n write add = (0, s) := by
  have hfirst : max a (a / 0x40000 * 0x40000) = a := by omega
  rw [State.openRange, if_neg (Nat.pos_iff_ne_zero.1 ha.pos), ha.tierOf, ha.unitsOf_bank]
  simp only [List.map_cons, List.map_nil, hfirst, State.openBanks, State.openBank_served h hr, St.success]

/-- Bytes that have been written, or lie in a bank of valid bits, meet no unwritten pattern (R284, R285). -/
theorem State.firstUndefined_of_bankDefined (h : s.bankDefined a n) : s.firstUndefined a n = none := by
  refine List.find?_eq_none.2 fun c hc => ?_
  simp only [List.mem_map, List.mem_range] at hc
  obtain ⟨i, hi, rfl⟩ := hc
  rcases h i hi with hv | hd
  · simp [hv]
  · simp [hd]

theorem State.accessRead_bank (h : s.bankServes w (a / 0x40000)) (hr : r.kind = w.kind ∧ r.index = w.index) (ha : InLine a n)
    (hdef : s.bankDefined a n) (add : Bool) :
    s.accessRead r a n add [] = (0, (List.range n).map (fun i => s.byte (s.storeAddr (a + i))), s) := by
  rw [State.accessRead, State.openRange_bank h hr ha]
  simp only [meet_nil, ha.tierOf, State.firstUndefined_of_bankDefined hdef, if_true]

theorem State.answer_zero (s : State) (w : Sender) (a : Nat) (bs : List Byte) : s.answer w 0 a bs = s.emit (.access 0 bs) := by
  rw [State.answer]
  split
  · exact if_pos rfl
  · rfl

end

/-- Settles O8: a served access of a line opens its bank and meets no error, and every byte it reads is defined. -/
theorem bankReadReturnsTheBytes : Obligations.BankReadReturnsTheBytes := by
  intro s who addr len hwf hserves hdef
  obtain ⟨⟨hwho, hspace⟩, hpos, hline⟩ : (who.wf = true ∧ addr + len ≤ 0x3000_0000) ∧ 0 < len ∧ addr % 64 + len ≤ 64 := by
    simpa [Instr.wf, withinUnit] using hwf
  have hok : (senderOk who && lineOk addr len) = true := by
    simpa [lineOk] using ⟨hwho, ⟨hspace, hpos⟩, hline⟩
  change execBankRead who addr len [] s = _
  refine run_to hok ?_ rfl
  rw [State.accessRead_bank (s := s.quiet) hserves ⟨rfl, rfl⟩ ⟨hpos, hline, hspace⟩ hdef]
  exact State.answer_zero ..

end Sys2Proof.Machine

namespace Sys2Proof.Machine

open Sys2Proof

/-! ### Stores in a bank (R269, R281, R283, R285) -/

/-- A byte that is defined stays so as others are. -/
theorem Bank.isDefined_define (x : Bank) (byte i : Nat) :
    (x.define byte).isDefined i = if byte / 64 = i / 64 then x.validBit || x.isDefined i || i == byte else x.isDefined i := by
  rw [Bank.isDefined, Bank.line, Bank.define, SMap.get_set]
  by_cases hl : byte / 64 = i / 64
  · rw [if_pos hl, if_pos hl]
    by_cases hv : x.validBit = true
    · rw [if_pos hv, hv, Nat.testBit_two_pow_sub_one]
      simpa using Nat.mod_lt i (by decide)
    · rw [if_neg hv, Bool.eq_false_iff.2 hv, Nat.testBit_or, Nat.testBit_two_pow, Bank.isDefined, Bank.line, hl, Bool.false_or]
      congr 1
      rw [Bool.eq_iff_iff, decide_eq_true_iff, beq_iff_eq]
      omega
  · rw [if_neg hl, if_neg hl]
    rfl

/-- From s to t bytes have been stored in bank b: memory, the bank and the dirty bitmaps change, and what was defined stays so. -/
structure BankStored (b : Nat) (s t : State) : Prop where
  frame : t = { s with mem := t.mem, banks := t.banks, ckp := { s.ckp with items := t.ckp.items } }
  other : ∀ c, c ≠ b → t.bank c = s.bank c
  defined : ∀ i, (s.bank b).isDefined i = true → (t.bank b).isDefined i = true

theorem BankStored.refl (b : Nat) (s : State) : BankStored b s s := ⟨rfl, fun _ _ => rfl, fun _ h => h⟩

theorem BankStored.trans {b : Nat} {s t u : State} (h : BankStored b s t) (k : BankStored b t u) : BankStored b s u := by
  obtain ⟨hframe, hother, hdef⟩ := h
  obtain ⟨kframe, kother, kdef⟩ := k
  refine ⟨?_, fun c hc => (kother c hc).trans (hother c hc), fun i hi => kdef i (hdef i hi)⟩
  rw [kframe, hframe]

section
variable {b : Nat} {s t : State} (h : BankStored b s t)
include h

theorem BankStored.regs : t.regs = s.regs := by rw [h.frame]

theorem BankStored.storeAddr (a : Nat) : t.storeAddr a = s.storeAddr a := State.storeAddr_of_regs h.regs a

theorem BankStored.pending : t.pending = s.pending := by rw [h.frame]

theorem BankStored.out : t.out = s.out := by rw [h.frame]

theorem BankStored.rd (off : Nat) : t.rd off = s.rd off := by rw [State.rd_eq, State.rd_eq, h.regs]

end

/-- What a command leaves that stores in a bank and answers. -/
theorem BankStored.emit {b : Nat} {s t : State} (h : BankStored b s.quiet t) (o : Out) : t.emit o
    = { s with mem := (t.emit o).mem, banks := (t.emit o).banks, ckp := { s.ckp with items := (t.emit o).ckp.items }, out := [o] } := by
  rw [State.emit, h.frame]
  rfl

/-- One byte stored in the bank that holds it. -/
def State.putCell (s : State) (t : Nat) (v : Byte) : State :=
  (s.setBank (t / 0x40000) ((s.bank (t / 0x40000)).define (t % 0x40000))).putBytes t [v]

section
variable {s : State} {b a n : Nat}

theorem State.bank_setBank (s : State) (b : Nat) (x : Bank) (c : Nat) : (s.setBank b x).bank c = if b = c then x else s.bank c :=
  SMap.get_set ..

theorem State.putCell_stored (s : State) (t : Nat) (v : Byte) : BankStored (t / 0x40000) s (s.putCell t v) := by
  refine ⟨rfl, fun c hc => (s.bank_setBank ..).trans (if_neg hc.symm), fun i hi => ?_⟩
  have hbank : (s.putCell t v).bank (t / 0x40000) = (s.bank (t / 0x40000)).define (t % 0x40000) := (s.bank_setBank ..).trans (if_pos rfl)
  rw [hbank, Bank.isDefined_define, hi]
  simp

theorem State.isDefined_putCell (s : State) (t : Nat) (v : Byte) :
    ((s.putCell t v).bank (t / 0x40000)).isDefined (t % 0x40000) = true := by
  have hbank : (s.putCell t v).bank (t / 0x40000) = (s.bank (t / 0x40000)).define (t % 0x40000) := (s.bank_setBank ..).trans (if_pos rfl)
  rw [hbank, Bank.isDefined_define, if_pos rfl]
  simp

theorem State.markDirty_stored (s : State) (b a n : Nat) : BankStored b s (s.markDirty a n) := ⟨rfl, fun _ _ => rfl, fun _ h => h⟩

/-- The bytes of an access as it stores them, from address t on. -/
def State.putCells (s : State) (t : Nat) (cells : List (Nat × Byte)) : State := cells.foldl (fun s p => s.putCell (t + p.1) p.2) s

theorem State.putCells_stored {t : Nat} {cells : List (Nat × Byte)} (hb : ∀ p ∈ cells, (t + p.1) / 0x40000 = b) (s : State) :
    BankStored b s (s.putCells t cells) := by
  induction cells generalizing s with
  | nil => exact BankStored.refl b s
  | cons p cells ih =>
    have hp := s.putCell_stored (t + p.1) p.2
    rw [hb p (List.mem_cons_self ..)] at hp
    exact hp.trans (ih (fun q hq => hb q (List.mem_cons_of_mem _ hq)) _)

theorem State.mem_putCells (s : State) (t : Nat) (cells : List (Nat × Byte)) :
    (s.putCells t cells).mem = SMap.setAll 0 s.mem (cells.map fun p => (t + p.1, p.2)) := by
  induction cells generalizing s with
  | nil => rfl
  | cons p cells ih => exact (ih _).trans rfl

/-- An access of a line stores its bytes where its bank has them. -/
theorem State.storeBytes_bank (ha : InLine a n) {bs : List Byte} (hn : bs.length = n) :
    s.storeBytes a bs = (s.putCells (s.storeAddr a) ((List.range n).zip bs)).markDirty a n := by
  have hcells : ∀ (cells : List (Nat × Byte)) (t : State), t.regs = s.regs → (∀ p ∈ cells, p.1 < n) →
      cells.foldl (fun s p =>
        let t := s.storeAddr (a + p.1)
        let b := t / 0x40000
        (s.setBank b ((s.bank b).define (t % 0x40000))).putBytes t [p.2]) t = t.putCells (s.storeAddr a) cells := by
    intro cells
    induction cells with
    | nil => exact fun _ _ _ => rfl
    | cons p cells ih =>
      intro t ht hp
      have haddr : t.storeAddr (a + p.1) = s.storeAddr a + p.1 := by
        rw [State.storeAddr_of_regs ht, ha.storeAddr_add (hp p (List.mem_cons_self ..))]
      rw [List.foldl_cons]
      dsimp only
      rw [haddr]
      exact ih _ ht fun q hq => hp q (List.mem_cons_of_mem _ hq)
  have hlt : a < 0x3000_0000 := ha.lt (i := 0) ha.pos
  rw [State.storeBytes, hn]
  dsimp only
  rw [if_pos hlt, hcells _ s rfl fun p hp => List.mem_range.1 (List.of_mem_zip hp).1]

theorem State.storeBytes_stored (ha : InLine a n) {bs : List Byte} (hn : bs.length = n) :
    BankStored (s.served1 (a / 0x40000)) s (s.storeBytes a bs) := by
  rw [State.storeBytes_bank ha hn]
  refine (State.putCells_stored (fun p hp => ?_) s).trans (State.markDirty_stored ..)
  exact ha.storeAddr_div (List.mem_range.1 (List.of_mem_zip hp).1)

/-- In memory the store is a plain write at the address that stores the line. -/
theorem State.mem_storeBytes_bank (ha : InLine a n) {bs : List Byte} (hn : bs.length = n) :
    (s.storeBytes a bs).mem = (s.putBytes (s.storeAddr a) bs).mem := by
  rw [State.storeBytes_bank ha hn, ← hn]
  exact State.mem_putCells ..

theorem State.byte_storeBytes_bank (ha : InLine a n) {bs : List Byte} (hn : bs.length = n) (c : Nat) :
    (s.storeBytes a bs).byte c = (s.putBytes (s.storeAddr a) bs).byte c := by
  rw [State.byte, State.mem_storeBytes_bank ha hn, State.byte]

/-- A number stored by an access of a line reads as itself, and no other byte changes. -/
theorem State.num_storeBytes_bank (ha : InLine a n) (v : Nat) : (s.storeBytes a (leBytes n v)).num (s.storeAddr a) n = v % 256 ^ n
    ∧ BytesKept (fun c => s.storeAddr a ≤ c ∧ c < s.storeAddr a + n) s (s.storeBytes a (leBytes n v)) := by
  have hlen := length_leBytes n v
  refine ⟨?_, fun c hc => ?_⟩
  · have hbytes : (s.storeBytes a (leBytes n v)).bytes (s.storeAddr a) n = leBytes n v := by
      refine List.ext_getElem ((State.length_bytes ..).trans hlen.symm) fun i hi hi' => ?_
      simp only [State.bytes, List.getElem_map, List.getElem_range, State.byte_storeBytes_bank ha hlen, State.byte_putBytes s _ hi']
    rw [State.num, hbytes, leNat_leBytes]
  · rw [State.byte_storeBytes_bank ha hlen, State.byte_putBytes_other _ _ _ _ (by omega)]

end

end Sys2Proof.Machine

namespace Sys2Proof.Machine

open Sys2Proof

/-! ### A masked write of a line (R269) -/

/-- The bytes of a masked write of the line, one by one. -/
def State.storeCells (s : State) (line : Nat) (cells : List (Nat × Byte)) : State :=
  cells.foldl (fun s c => s.storeBytes (line + c.1) [c.2]) s

section
variable {line : Nat} (hline : InLine line 64) (h64 : line % 64 = 0)
include hline h64

theorem InLine.cell {k : Nat} (hk : k < 64) : InLine (line + k) 1 := by
  have := hline.space
  exact ⟨Nat.one_pos, by omega, by omega⟩

/-- One byte of a line: it is there, it is defined, and no other byte changes. -/
theorem State.storeCell_leaves (s : State) (c : Nat × Byte) (hc : c.1 < 64) :
    let t := s.storeBytes (line + c.1) [c.2]
    t.byte (s.storeAddr (line + c.1)) = c.2 ∧ BytesKept (fun a => a = s.storeAddr (line + c.1)) s t
      ∧ (t.bank (s.served1 (line / 0x40000))).isDefined (s.storeAddr (line + c.1) % 0x40000) = true
      ∧ BankStored (s.served1 (line / 0x40000)) s t := by
  intro t
  have hone := hline.cell h64 hc
  have hbyte (a : Nat) : t.byte a = (s.putBytes (s.storeAddr (line + c.1)) [c.2]).byte a := State.byte_storeBytes_bank hone rfl a
  have hbank : s.served1 ((line + c.1) / 0x40000) = s.served1 (line / 0x40000) := by
    rw [show (line + c.1) / 0x40000 = line / 0x40000 by omega]
  refine ⟨?_, fun a ha => ?_, ?_, hbank ▸ State.storeBytes_stored hone rfl⟩
  · exact (hbyte _).trans (State.byte_putBytes s _ (bs := [c.2]) (i := 0) Nat.one_pos)
  · rw [hbyte, State.byte_putBytes_other _ _ _ _ (by simp; omega)]
  · have hdiv := hone.storeAddr_div (s := s) (i := 0) Nat.one_pos
    rw [← hbank, ← hdiv]
    change (State.bank (s.storeBytes (line + c.1) [c.2]) _).isDefined _ = true
    rw [State.storeBytes_bank hone rfl]
    exact State.isDefined_putCell s _ c.2

/-- All of them, each at its own place. -/
theorem State.storeCells_leaves (s : State) {cells : List (Nat × Byte)} (hcells : ∀ c ∈ cells, c.1 < 64)
    (hnodup : (cells.map (·.1)).Nodup) :
    let t := s.storeCells line cells
    (∀ c ∈ cells, t.byte (s.storeAddr (line + c.1)) = c.2)
      ∧ BytesKept (fun a => ∃ c ∈ cells, a = s.storeAddr (line + c.1)) s t
      ∧ (∀ c ∈ cells, (t.bank (s.served1 (line / 0x40000))).isDefined (s.storeAddr (line + c.1) % 0x40000) = true)
      ∧ BankStored (s.served1 (line / 0x40000)) s t := by
  induction cells generalizing s with
  | nil => exact ⟨fun _ h => absurd h List.not_mem_nil, fun _ _ => rfl, fun _ h => absurd h List.not_mem_nil, BankStored.refl ..⟩
  | cons c cells ih =>
    obtain ⟨hfresh, hnodup⟩ := List.nodup_cons.1 hnodup
    have hc := hcells c (List.mem_cons_self ..)
    have hrest := fun d hd => hcells d (List.mem_cons_of_mem c hd)
    obtain ⟨hval, hkept, hdef, hstored⟩ := State.storeCell_leaves hline h64 s c hc
    obtain ⟨ival, ikept, idef, istored⟩ := ih (s.storeBytes (line + c.1) [c.2]) hrest hnodup
    have hserved : (s.storeBytes (line + c.1) [c.2]).served1 (line / 0x40000) = s.served1 (line / 0x40000) := by
      have haddr := hstored.storeAddr line
      rw [← hline.storeAddr_div (i := 0) (by decide), ← hline.storeAddr_div (i := 0) (by decide), haddr]
    simp only [hstored.storeAddr, hserved] at ival ikept idef istored
    have hapart : ∀ d ∈ cells, s.storeAddr (line + c.1) ≠ s.storeAddr (line + d.1) := by
      intro d hd heq
      rw [hline.storeAddr_add hc, hline.storeAddr_add (hrest d hd)] at heq
      exact hfresh (List.mem_map.2 ⟨d, hd, (Nat.add_left_cancel heq).symm⟩)
    refine ⟨List.forall_mem_cons.2 ⟨?_, ival⟩, fun a ha => ?_, List.forall_mem_cons.2 ⟨istored.defined _ hdef, idef⟩,
      hstored.trans istored⟩
    · exact (ikept _ fun ⟨d, hd, heq⟩ => hapart d hd heq).trans hval
    · refine (ikept a fun ⟨d, hd, heq⟩ => ha ⟨d, List.mem_cons_of_mem _ hd, heq⟩).trans (hkept a fun heq => ?_)
      exact ha ⟨c, List.mem_cons_self .., heq⟩

end

/-- Settles O9: the bytes of the mask are stored one after the other, each in the bank that serves the line. -/
theorem bankWriteStoresItsMask : Obligations.BankWriteStoresItsMask := by
  intro s who line cells hwf hnodup hserves
  obtain ⟨⟨⟨hwho, h64⟩, hspace⟩, hcells⟩ :
      ((who.wf = true ∧ line % 64 = 0) ∧ line + 64 ≤ 0x3000_0000) ∧ ∀ c ∈ cells, c.1 < 64 := by
    simpa [Instr.wf] using hwf
  have hline : InLine line 64 := ⟨by decide, by omega, hspace⟩
  have hok : (senderOk who && line % 64 == 0 && lineOk line 64 && cells.all fun c => decide (c.1 < 64)) = true := by
    have hlineOk : lineOk line 64 = true := by simp [lineOk, hspace, h64]
    have hsender : senderOk who = true := hwho
    simpa [h64, hlineOk, hsender] using hcells
  obtain ⟨hval, hkept, hdef, hstored⟩ := State.storeCells_leaves hline h64 s.quiet hcells hnodup
  have hexec : exec (.bankWrite who line cells) s = .next ((s.quiet.storeCells line cells).emit (.access 0 [])) := by
    change execBankWrite who line cells s = _
    refine run_to hok ?_ hstored.pending
    rw [State.openRange_bank (s := s.quiet) hserves ⟨rfl, rfl⟩ hline]
    exact State.answer_zero ..
  have hdiv : s.storeAddr line / 0x40000 = s.served1 (line / 0x40000) := hline.storeAddr_div (i := 0) (by decide)
  refine ⟨_, hexec, hval, hkept, ?_, ?_, ?_⟩
  · rw [hdiv]
    exact hdef
  · rw [hdiv]
    exact hstored.other
  · exact hstored.emit _

end Sys2Proof.Machine

namespace Sys2Proof.Machine

open Sys2Proof

/-! ### Atomic operations of a bank (R278, R279) -/

section
variable {s : State} {w : Sender} {a n : Nat}

theorem State.adder_sender (s : State) (w : Sender) (a n : Nat) (add : Bool) :
    (s.adder w a n add).kind = w.kind ∧ (s.adder w a n add).index = w.index := by
  rw [State.adder]
  split <;> exact ⟨rfl, rfl⟩

/-- An aligned operand lies within a line. -/
theorem InLine.of_aligned {k : Nat} (hk : k ∣ 64) (hpos : 0 < k) (ha : a < 0x3000_0000) (halign : a % k = 0) : InLine a k := by
  have hle : a % 64 + k ≤ 64 := by
    have hmod : a % 64 % k = 0 := by rw [Nat.mod_mod_of_dvd a hk, halign]
    have hdvd := Nat.dvd_sub hk (Nat.dvd_of_mod_eq_zero hmod)
    have hlt := Nat.mod_lt a (show 0 < 64 by decide)
    have := Nat.le_of_dvd (by omega) hdvd
    omega
  exact ⟨hpos, hle, by omega⟩

theorem InLine.map_byte (ha : InLine a n) : (List.range n).map (fun i => s.byte (s.storeAddr (a + i))) = s.bytes (s.storeAddr a) n :=
  List.map_congr_left fun i hi => by rw [ha.storeAddr_add (List.mem_range.1 hi)]

theorem InLine.atomicOpen {k : Nat} (ha : InLine a n) (halign : a % k = 0) : s.atomicOpen a n k = 0 := by
  rw [State.atomicOpen, if_neg (not_not.2 halign), ha.tierOf]

/-- An atomic of a bank is not counted among those of HBM. -/
theorem InLine.countAtomic (ha : InLine a n) (s : State) (sat : Bool) : s.countAtomic a sat = s := by
  have := ha.lt (i := 0) ha.pos
  rw [State.countAtomic, if_pos (by rw [hbmBase]; omega)]

/-- An atomic on an operand that its bank serves stores what f makes of the old value. -/
theorem State.atomic_bank (h : s.bankServes w (a / 0x40000)) (ha : InLine a n) (halign : a % n = 0) (hdef : s.bankDefined a n)
    (add want : Bool) (f : Nat → Nat × Bool) :
    s.atomic w a n add want [] f = (s.storeBytes a (leBytes n (f (s.num (s.storeAddr a) n)).1)).emit
      (.access (if (f (s.num (s.storeAddr a) n)).2 then St.saturated else 0) (if want then s.bytes (s.storeAddr a) n else [])) := by
  rw [State.atomic, ha.atomicOpen halign, State.accessRead_bank h (s.adder_sender ..) ha hdef, ha.map_byte]
  simp only [ha.countAtomic]
  rfl

/-- Such an atomic as a command: its value, its answer, and nothing else. -/
theorem exec_atomic_bank {c : Instr} {add want : Bool} {f : Nat → Nat × Bool}
    (hexec : exec c s = run (atomicOk w) (fun s => s.atomic w a n add want [] f) s) (hw : w.wf = true)
    (h : s.bankServes w (a / 0x40000)) (ha : InLine a n) (halign : a % n = 0) (hdef : s.bankDefined a n)
    (hf : (f (s.num (s.storeAddr a) n)).1 < 256 ^ n) :
    ∃ t, exec c s = .next t ∧ t.num (s.storeAddr a) n = (f (s.num (s.storeAddr a) n)).1
      ∧ BytesKept (fun b => s.storeAddr a ≤ b ∧ b < s.storeAddr a + n) s t
      ∧ t = { s with mem := t.mem, banks := t.banks, ckp := { s.ckp with items := t.ckp.items }
                     out := [.access (if (f (s.num (s.storeAddr a) n)).2 then St.saturated else 0)
                       (if want then (List.range n).map (fun i => s.byte (s.storeAddr (a + i))) else [])] } := by
  rw [ha.map_byte]
  obtain ⟨hnum, hkept⟩ := State.num_storeBytes_bank (s := s.quiet) ha (f (s.num (s.storeAddr a) n)).1
  have hstored := State.storeBytes_stored (s := s.quiet) ha (length_leBytes n (f (s.num (s.storeAddr a) n)).1)
  refine ⟨_, hexec.trans (run_to hw (State.atomic_bank (s := s.quiet) h ha halign hdef ..) hstored.pending), ?_, hkept, hstored.emit _⟩
  exact hnum.trans (Nat.mod_eq_of_lt hf)

end

/-! ### Adds that round (R160, R258) -/

/-- The code that a magnitude rounds to, before the bound of the format (R50). -/
def FloatFmt.nearIdx (ff : FloatFmt) (m : Rat) : Nat :=
  let lo := ff.floorIdx m
  let mid := (ff.mag lo + ff.mag (lo + 1)) / 2
  if m < mid then lo else if mid < m then lo + 1 else if lo % 2 = 0 then lo else lo + 1

theorem FloatFmt.encodeRNE_fin (ff : FloatFmt) (neg : Bool) (m : Rat) : (ff.encodeRNE (.fin neg m)).1
    = if ff.maxIdx < ff.floorIdx m then ff.sign neg ff.infCode
      else if ff.maxIdx < ff.nearIdx m then ff.sign neg ff.infCode else ff.sign neg (ff.nearIdx m) := by
  simp only [apply_ite Prod.fst, FloatFmt.encodeRNE, FloatFmt.nearIdx]
  rfl

/-- An F32 code has 32 bits. -/
theorem f32Code_lt (v : Val) : f32Code v < 2 ^ 32 := by
  have hsign (neg : Bool) {i : Nat} (hi : i < 2 ^ 31) : fF32.sign neg i < 2 ^ 32 := by
    rw [FloatFmt.sign, show fF32.mbits = 31 from rfl]
    split <;> omega
  have hinf (neg : Bool) : fF32.sign neg fF32.infCode < 2 ^ 32 := hsign neg (by decide)
  have hmax : fF32.maxIdx < 2 ^ 31 := by decide
  rw [f32Code]
  cases v with
  | nan => decide
  | inf neg => exact hinf neg
  | fin neg m =>
    rw [FloatFmt.encodeRNE_fin]
    split
    · exact hinf neg
    · split
      · exact hinf neg
      · exact hsign neg (lt_of_le_of_lt (not_lt.1 ‹_›) hmax)

section
variable {s : State} {slot : Option Nat} {a n : Nat}

/-- Only the NONREPRO bits of the job slots change (R258). -/
theorem State.rd_markNonrepro {off : Nat} (h : ∀ j, j < 4 → off ≠ 0x40100 + 0x100 * j) : (s.markNonrepro slot).rd off = s.rd off := by
  unfold State.markNonrepro State.setJf
  split
  · split
    · exact State.rd_setF_other s _ (Ne.symm (h _ ‹_›))
    · rfl
  · rfl

theorem State.jf_markNonrepro {j : Nat} (hj : j < 4) : (s.markNonrepro (some j)).jf j Reg.jobNonrepro = 1 := by
  rw [State.markNonrepro, State.jf, State.setJf, if_pos hj, State.fld_setF s 1 (jobFields_held Reg.jobNonrepro (by decide) j hj)]
  rfl

/-- The sum is stored and the job of the requester, or of the bank, is marked. -/
def State.addedF32 (s : State) (r : Requester) (a v : Nat) : State :=
  (s.storeBytes a (leBytes 4 (f32Code (fadd (f32Val (s.num (s.storeAddr a) 4)) (f32Val (v % 2 ^ 32)))))).markNonrepro (s.addJob r a)

end

section
variable {s : State} {w : Sender} {a : Nat}

theorem exec_addF32_bank (hw : w.wf = true) (h : s.bankServes w (a / 0x40000)) (ha : InLine a 4) (halign : a % 4 = 0)
    (hdef : s.bankDefined a 4) (v : Nat) : exec (.addF32 w a v []) s
      = .next ((s.quiet.addedF32 (s.adder w a 4 true) a v).emit (.access 0 [])) := by
  change execAddF32 w a v [] s = _
  refine run_to hw ?_ ?_
  · dsimp only
    rw [ha.atomicOpen halign, State.accessRead_bank (s := s.quiet) h (State.adder_sender ..) ha hdef, ha.map_byte]
    simp only [ha.countAtomic]
    rfl
  · rw [State.emit_pending]
    exact (markNonrepro_touch ..).pending.trans (storeBytes_touch ..).pending

end

end Sys2Proof.Machine

namespace Sys2Proof.Machine

open Sys2Proof

section
variable {s : State} {w : Sender} {a : Nat}

/-- What an F32 add leaves: the sum, the mark of the job, and everything else. -/
theorem State.addedF32_leaves (s : State) (r : Requester) (ha : InLine a 4) (v : Nat) :
    let t := s.addedF32 r a v
    t.out = s.out ∧ t.num (s.storeAddr a) 4 = f32Code (fadd (f32Val (s.num (s.storeAddr a) 4)) (f32Val (v % 2 ^ 32)))
      ∧ BytesKept (fun b => s.storeAddr a ≤ b ∧ b < s.storeAddr a + 4) s t
      ∧ (∀ j, j < 4 → r.job = some j → t.jf j Reg.jobNonrepro = 1)
      ∧ ∀ off, (∀ j, j < 4 → off ≠ 0x40100 + 0x100 * j) → t.rd off = s.rd off := by
  intro t
  generalize hx : f32Code (fadd (f32Val (s.num (s.storeAddr a) 4)) (f32Val (v % 2 ^ 32))) = x
  have ht : t = (s.storeBytes a (leBytes 4 x)).markNonrepro (s.addJob r a) := by rw [← hx]; rfl
  have hlt : x < 256 ^ 4 := hx ▸ f32Code_lt _
  obtain ⟨hnum, hkept⟩ := State.num_storeBytes_bank (s := s) ha x
  have hstored := State.storeBytes_stored (s := s) ha (length_leBytes 4 x)
  have hmark := markNonrepro_touch (s.storeBytes a (leBytes 4 x)) (s.addJob r a)
  rw [← ht] at hmark
  have hbyte := hmark.byte_eq ⟨rfl, rfl⟩
  refine ⟨(hmark.out rfl).trans hstored.out, ?_, fun b hb => (hbyte b).trans (hkept b hb), fun j hj hjob => ?_, fun off hoff => ?_⟩
  · rw [State.num, State.bytes_congr fun b _ _ => hbyte b]
    exact hnum.trans (Nat.mod_eq_of_lt hlt)
  · rw [ht, State.addJob, hjob]
    exact State.jf_markNonrepro hj
  · rw [ht, State.rd_markNonrepro hoff, hstored.rd]

/-! ### One element of ADD_A64 (R159) -/

/-- The sum of the element at a and x. -/
def State.sumA64 (s : State) (a : Nat) (x : Int) : Int := sext 64 (s.num (s.storeAddr a) 8) + x

theorem State.emit_num (s : State) (o : Out) (a n : Nat) : (s.emit o).num a n = s.num a n := rfl

theorem State.emit_out (s : State) (o : Out) : (s.emit o).out = s.out ++ [o] := rfl

theorem State.sumA64_quiet (s : State) (a : Nat) (x : Int) : s.quiet.sumA64 a x = s.sumA64 a x := rfl

/-- A sum as A64 holds it, and whether it is lost that way (R159). -/
def satA64 (sum : Int) : Int := max (-2 ^ 63) (min (2 ^ 63 - 1) sum)

def lostA64 (sum : Int) : Bool := decide (sum < -2 ^ 63) || decide (2 ^ 63 - 1 < sum)

/-- The saturated sum stored, and a saturation noted. -/
def State.addedA64 (s : State) (r : Requester) (a coord : Nat) (x : Int) : State :=
  let t := s.storeBytes a (leBytes 8 (twos 64 (satA64 (s.sumA64 a x))))
  if lostA64 (s.sumA64 a x) then t.noteAddSat (t.addJob r a) a a false coord else t

theorem State.addRow_bank {r : Requester} (h : s.bankServes w (a / 0x40000)) (hr : r.kind = w.kind ∧ r.index = w.index) (ha : InLine a 8)
    (halign : a % 8 = 0) (hdef : s.bankDefined a 8) (info : RowInfo) (x : Int) (coord : Nat) :
    s.addRow r none a info [x] false coord [] = (0, lostA64 (s.sumA64 a x), s.addedA64 r a coord x) := by
  have hold : leWords 8 1 (s.bytes (s.storeAddr a) 8) = [s.num (s.storeAddr a) 8] := by
    have htake : (s.bytes (s.storeAddr a) 8).take 8 = s.bytes (s.storeAddr a) 8 :=
      List.take_of_length_le (Nat.le_of_eq (State.length_bytes ..))
    simp [leWords, fieldLE, htake, State.num]
  have hclamp (y : Int) : clampA64 y = (satA64 y, lostA64 y) := clampA64_eq y
  simp only [State.addRow, List.length_singleton, Nat.mul_one, ha.atomicOpen halign, State.accessRead_bank h hr ha hdef, ha.map_byte,
    hold, hclamp, ha.countAtomic]
  refine Prod.ext rfl (Prod.ext ?_ ?_)
  · simp [State.sumA64]
  · simp [State.addedA64, State.sumA64]
    rfl

/-- What the add of one element leaves; a sum that is lost is noted on the call board and changes no byte. -/
theorem State.addedA64_leaves (s : State) (r : Requester) (ha : InLine a 8) (coord : Nat) (x : Int) :
    let t := s.addedA64 r a coord x
    t.pending = s.pending ∧ t.num (s.storeAddr a) 8 = twos 64 (satA64 (s.sumA64 a x))
      ∧ (lostA64 (s.sumA64 a x) = false →
        BytesKept (fun b => s.storeAddr a ≤ b ∧ b < s.storeAddr a + 8) s t ∧ t.out = s.out) := by
  intro t
  generalize hv : twos 64 (satA64 (s.sumA64 a x)) = v
  have hlt : v < 256 ^ 8 := hv ▸ twos_lt 64 _
  obtain ⟨hnum, hkept⟩ := State.num_storeBytes_bank (s := s) ha v
  have hstored := State.storeBytes_stored (s := s) ha (length_leBytes 8 v)
  have ht : t = if lostA64 (s.sumA64 a x) then
      (s.storeBytes a (leBytes 8 v)).noteAddSat ((s.storeBytes a (leBytes 8 v)).addJob r a) a a false coord
      else s.storeBytes a (leBytes 8 v) := by rw [← hv]; rfl
  rw [Nat.mod_eq_of_lt hlt] at hnum
  split at ht
  next hlost =>
    have hnote := noteAddSat_touch (s.storeBytes a (leBytes 8 v)) ((s.storeBytes a (leBytes 8 v)).addJob r a) a a false coord
    rw [← ht] at hnote
    have hplace := State.storeAddr_lt (s := s) (ha.lt (i := 0) ha.pos)
    refine ⟨hnote.pending.trans hstored.pending, ?_, fun hkeep => absurd hlost (by simp [hkeep])⟩
    rw [State.num, State.bytes_congr fun b _ hb => hnote.mem rfl b (by rw [farBase]; rw [Nat.add_zero] at hplace; omega)]
    exact hnum
  next => exact ht ▸ ⟨hstored.pending, hnum, fun _ => ⟨hkept, hstored.out⟩⟩

theorem exec_addA64_bank (hw : w.wf = true) (h : s.bankServes w (a / 0x40000)) (ha : InLine a 8) (halign : a % 8 = 0)
    (hdef : s.bankDefined a 8) (info : RowInfo) (x : Int) : exec (.addA64 w none a info [x] []) s
      = .next ((s.quiet.addedA64 (s.adder w a 8 true) a s.coord x).emit
          (.access (if lostA64 (s.sumA64 a x) then St.saturated else 0) [])) := by
  have hok : (atomicOk w && decide (0 < [x].length) && decide ([x].length ≤ 256)) = true := by
    have hsender : atomicOk w = true := hw
    simp [hsender]
  change execAddA64 w none a info [x] [] s = _
  refine run_to hok ?_ ((State.emit_pending ..).trans (State.addedA64_leaves s.quiet _ ha _ x).1)
  rw [State.addRow_bank (s := s.quiet) h (State.adder_sender ..) ha halign hdef]
  rfl

theorem exec_addA64_leaves (hw : w.wf = true) (h : s.bankServes w (a / 0x40000)) (ha : InLine a 8) (halign : a % 8 = 0)
    (hdef : s.bankDefined a 8) (info : RowInfo) (x : Int) :
    ∃ t, exec (.addA64 w none a info [x] []) s = .next t ∧ t.num (s.storeAddr a) 8 = twos 64 (satA64 (s.sumA64 a x))
      ∧ (lostA64 (s.sumA64 a x) = false →
        t.out = [.access 0 []] ∧ BytesKept (fun b => s.storeAddr a ≤ b ∧ b < s.storeAddr a + 8) s t)
      ∧ (lostA64 (s.sumA64 a x) = true → t.out.getLast? = some (.access St.saturated [])) := by
  obtain ⟨-, hnum, hkept⟩ := State.addedA64_leaves s.quiet (s.adder w a 8 true) ha s.coord x
  rw [State.sumA64_quiet] at hnum hkept
  refine ⟨_, exec_addA64_bank hw h ha halign hdef info x, (State.emit_num ..).trans hnum, fun hlost => ?_, fun hlost => ?_⟩
  · obtain ⟨hbytes, hout⟩ := hkept hlost
    rw [hlost]
    exact ⟨(State.emit_out ..).trans (by rw [hout]; rfl), fun b hb => (State.emit_byte ..).trans (hbytes b hb)⟩
  · rw [hlost]
    rw [State.emit_out]
    exact List.getLast?_concat

end

/-- Settles O10: an atomic on an aligned, served operand reads its old value and stores the new one (`exec_atomic_bank`); the
adds that round or saturate differ in the note they leave. -/
theorem bankAtomicsStoreTheirResult : Obligations.BankAtomicsStoreTheirResult := by
  refine ⟨?_, ?_⟩
  · intro put s who a v want hw hspace hserves
    refine ⟨fun halign hdef => ?_, fun halign hdef => ?_⟩
    · have ha : InLine a 4 := .of_aligned (by decide) (by decide) hspace halign
      have hmod (n : Nat) : n % 2 ^ 32 < 256 ^ 4 := Nat.mod_lt _ (by decide)
      refine ⟨?_, ?_, ?_⟩
      · exact exec_atomic_bank (c := .addW32 who a v want [])
          (f := fun old => ((old + v) % 2 ^ 32, false)) rfl hw hserves ha halign hdef (hmod _)
      · exact exec_atomic_bank (c := .swap32 who a v []) (add := false) (want := true)
          (f := fun _ => (v % 2 ^ 32, false)) rfl hw hserves ha halign hdef (hmod _)
      · have hadd := exec_atomic_bank (c := .addI32 who a v []) (add := true) (want := false) (f := fun old =>
          (twos 32 (satSum 32 (sext 32 old) (sext 32 v)).1, (satSum 32 (sext 32 old) (sext 32 v)).2))
          rfl hw hserves ha halign hdef (twos_lt 32 _)
        simp only [satSum_32] at hadd
        exact hadd
    · have ha : InLine a 8 := .of_aligned (by decide) (by decide) hspace halign
      have hmod (n : Nat) : n % 2 ^ 64 < 256 ^ 8 := Nat.mod_lt _ (by decide)
      refine ⟨?_, ?_⟩
      · exact exec_atomic_bank (c := .addW64 who a v want [])
          (f := fun old => ((old + v) % 2 ^ 64, false)) rfl hw hserves ha halign hdef (hmod _)
      · exact exec_atomic_bank (c := .swap64 who a v []) (add := false) (want := true)
          (f := fun _ => (v % 2 ^ 64, false)) rfl hw hserves ha halign hdef (hmod _)
  · intro s who a hw hspace hserves
    refine ⟨fun v halign hdef => ?_, fun info x halign hdef => ?_⟩
    · have ha : InLine a 4 := .of_aligned (by decide) (by decide) hspace halign
      obtain ⟨hout, hnum, hkept, hjob, hregs⟩ := State.addedF32_leaves s.quiet (s.adder who a 4 true) ha v
      exact ⟨_, exec_addF32_bank hw hserves ha halign hdef v, congrArg (· ++ [Out.access 0 []]) hout, hnum, hkept, hjob, hregs⟩
    · have ha : InLine a 8 := .of_aligned (by decide) (by decide) hspace halign
      have hadd := exec_addA64_leaves hw hserves ha halign hdef info x
      unfold lostA64 satA64 State.sumA64 at hadd
      exact hadd

end Sys2Proof.Machine

namespace Sys2Proof.Machine

open Sys2Proof

/-! ### The registers of a bank, a stack and a channel (R296, R297) -/

/-- A register of a bank's entry is the same in every bank. -/
theorem regMask_bank {b d : Nat} (hb : b < 3072) (hd : d < 0x40) (hreg : (findIn d bankEntry).map (·.off) = some d) :
    regMask (0x300000 + 0x40 * b + d) = regMask (0x300000 + d) := by
  obtain ⟨r, hr, hoff⟩ := Option.map_eq_some_iff.1 hreg
  have hwin {i : Nat} (hi : i < 3072) : regMask (0x300000 + 0x40 * i + d) = r.mask := by
    have hfind := findReg_window (n := 16) (b := ⟨0x300000, 0x40, 3072, bankEntry⟩) rfl (by decide) hi hd hr
    exact regMask_of_findReg (by simpa only [hoff] using hfind)
  rw [hwin hb, ← hwin (i := 0) (by decide)]

theorem bankField_held {f : Fld} (hf : f ∈ [Reg.bankState, Reg.bankReq, Reg.bankScrubPos]) {b : Nat} (hb : b < 3072) :
    (f.plus (0x40 * b)).held := by
  have hbase : ∀ f ∈ [Reg.bankState, Reg.bankReq, Reg.bankScrubPos], f.held ∧ 0x300000 ≤ f.off ∧ f.off - 0x300000 < 0x40
      ∧ (findIn (f.off - 0x300000) bankEntry).map (·.off) = some (f.off - 0x300000) := by decide +kernel
  obtain ⟨hheld, hlo, hlt, hreg⟩ := hbase f hf
  have hmask := regMask_bank hb hlt hreg
  rw [show 0x300000 + 0x40 * b + (f.off - 0x300000) = f.off + 0x40 * b by omega, show 0x300000 + (f.off - 0x300000) = f.off by omega]
    at hmask
  exact (congrArg (bits f.hi f.lo) hmask).trans hheld

theorem stackField_held : ∀ f ∈ [Reg.stackCorrected, Reg.stackRemapUsed], ∀ i < 8, (f.plus (0x40 * i)).held := by decide +kernel

theorem channelCorrected_held : ∀ c < 8, (Reg.ddrCorrected.plus (0x40 * c)).held := by decide +kernel

section
variable {s : State} {b i : Nat} {f g : Fld}

theorem State.setBf_eq (hb : b < 3072) (v : Nat) : s.setBf b f v = s.setF (f.plus (0x40 * b)) v := if_pos hb

theorem State.bf_setBf (hb : b < 3072) (hf : f ∈ [Reg.bankState, Reg.bankReq, Reg.bankScrubPos]) (v : Nat) :
    (s.setBf b f v).bf b f = v % 2 ^ (f.hi + 1 - f.lo) := by
  rw [State.setBf_eq hb, State.bf, State.fld_setF s v (bankField_held hf hb)]
  rfl

theorem State.addStackF_eq (hi : i < 8) (n : Nat) : s.addStackF i f n = s.addF (f.plus (0x40 * i)) n := if_pos hi

theorem State.setStackF_eq (hi : i < 8) (v : Nat) : s.setStackF i f v = s.setF (f.plus (0x40 * i)) v := if_pos hi

theorem State.addChanF_eq (hi : i < 8) (n : Nat) : s.addChanF i f n = s.addF (f.plus (0x40 * i)) n := if_pos hi

theorem State.fld_addF_other (n : Nat) (h : f.off ≠ g.off) : (s.addF f n).fld g = s.fld g := State.fld_setF_other s _ h

end

/-! ### A scrub of a bank that decodes clean (R290) -/

/-- From s to t banks have changed, but not what of them is defined. -/
def BanksMarked (s t : State) : Prop := t = { s with banks := t.banks } ∧ ∀ c, (t.bank c).defined = (s.bank c).defined

theorem BanksMarked.trans {s t u : State} (h : BanksMarked s t) (k : BanksMarked t u) : BanksMarked s u := by
  obtain ⟨hframe, hdef⟩ := h
  obtain ⟨kframe, kdef⟩ := k
  refine ⟨?_, fun c => (kdef c).trans (hdef c)⟩
  rw [kframe, hframe]

section
variable {s : State} {b : Nat}

theorem State.markScrubbed (s : State) (b : Nat) (x : Bool) : BanksMarked s (s.setBank b { s.bank b with scrubbed := x }) := by
  refine ⟨rfl, fun c => ?_⟩
  rw [State.bank_setBank]
  split
  next h => rw [h]
  next => rfl

theorem State.unmarkScrubbed (l : List Nat) (s : State) : BanksMarked s (l.foldl (fun s b =>
    if (s.bank b).scrubbed then s.setBank b { s.bank b with scrubbed := false } else s) s) := by
  induction l generalizing s with
  | nil => exact ⟨rfl, fun _ => rfl⟩
  | cons b l ih =>
    have hstep : BanksMarked s (if (s.bank b).scrubbed then s.setBank b { s.bank b with scrubbed := false } else s) := by
      split
      · exact s.markScrubbed b false
      · exact ⟨rfl, fun _ => rfl⟩
    exact hstep.trans (ih _)

/-- The end of a bank's round marks banks, and may count the round of them all. -/
theorem State.scrubRound_eq (s : State) (b : Nat) :
    ∃ t, BanksMarked s t ∧ (s.scrubRound b = t ∨ s.scrubRound b = t.inc Reg.bnkScrubRounds) := by
  unfold State.scrubRound
  have hmark := s.markScrubbed b true
  extract_lets x t
  split
  · exact ⟨_, hmark.trans (State.unmarkScrubbed _ t), .inr rfl⟩
  · exact ⟨t, hmark, .inl rfl⟩

theorem State.scrubRound_leaves (s : State) (b : Nat) : let t := s.scrubRound b
    t.mem = s.mem ∧ t.out = s.out ∧ t.pending = s.pending ∧ (∀ c, (t.bank c).defined = (s.bank c).defined)
      ∧ ∀ f : Fld, f.off ≠ 0x330128 → t.fld f = s.fld f := by
  obtain ⟨t, ⟨hframe, hdef⟩, heq | heq⟩ := s.scrubRound_eq b
  · rw [heq]
    exact ⟨by rw [hframe], by rw [hframe], by rw [hframe], hdef, fun f _ => by rw [hframe]; rfl⟩
  · rw [heq]
    refine ⟨?_, ?_, ?_, fun c => ?_, fun f hf => ?_⟩
    · rw [State.inc_mem, hframe]
    · rw [State.inc_out, hframe]
    · rw [State.inc_pending, hframe]
    · rw [State.bank, State.inc_banks]
      exact hdef c
    · rw [State.fld_inc_other t hf.symm, hframe]
      rfl

/-- The position moves on, and the last word of a bank ends its round. -/
def State.scrubStep (s : State) (b : Nat) : State :=
  let t := s.setBf b Reg.bankScrubPos ((s.bf b Reg.bankScrubPos + 1) % 32768)
  if s.bf b Reg.bankScrubPos = 32767 then t.scrubRound b else t

theorem State.scrubStep_leaves (s : State) (hb : b < 3072) : let t := s.scrubStep b
    t.bf b Reg.bankScrubPos = (s.bf b Reg.bankScrubPos + 1) % 32768 ∧ t.mem = s.mem ∧ t.out = s.out ∧ t.pending = s.pending
      ∧ (s.bf b Reg.bankScrubPos ≠ 32767 → t.banks = s.banks) ∧ ∀ c, (t.bank c).defined = (s.bank c).defined := by
  have hpos := State.bf_setBf (s := s) hb (f := Reg.bankScrubPos) (by simp) ((s.bf b Reg.bankScrubPos + 1) % 32768)
  have hmod : (s.bf b Reg.bankScrubPos + 1) % 32768 % 2 ^ (Reg.bankScrubPos.hi + 1 - Reg.bankScrubPos.lo)
      = (s.bf b Reg.bankScrubPos + 1) % 32768 := Nat.mod_mod ..
  rw [hmod] at hpos
  have hmoved := State.setBf_eq (s := s) (f := Reg.bankScrubPos) hb ((s.bf b Reg.bankScrubPos + 1) % 32768)
  have hbank (c : Nat) : ((s.setBf b Reg.bankScrubPos ((s.bf b Reg.bankScrubPos + 1) % 32768)).bank c) = s.bank c := by
    rw [hmoved, State.bank, State.setF_banks, State.bank]
  rw [State.scrubStep]
  generalize ht : s.setBf b Reg.bankScrubPos ((s.bf b Reg.bankScrubPos + 1) % 32768) = t at hpos hmoved hbank ⊢
  obtain ⟨tmem, tout, tpend, tbanks⟩ : t.mem = s.mem ∧ t.out = s.out ∧ t.pending = s.pending ∧ t.banks = s.banks := by
    rw [hmoved]
    exact ⟨State.setF_mem .., State.setF_out .., State.setF_pending .., State.setF_banks ..⟩
  dsimp only
  split
  next hlast =>
    obtain ⟨hmem, hout, hpend, hdef, hfld⟩ := t.scrubRound_leaves b
    have hoff : (Reg.bankScrubPos.plus (0x40 * b)).off ≠ 0x330128 := by
      simp only [Fld.plus, Reg.bankScrubPos]
      omega
    exact ⟨(hfld _ hoff).trans hpos, hmem.trans tmem, hout.trans tout, hpend.trans tpend, fun h => absurd hlast h,
      fun c => (hdef c).trans (by rw [hbank])⟩
  next => exact ⟨hpos, tmem, tout, tpend, fun _ => tbanks, fun c => by rw [hbank]⟩

theorem exec_bankPatrolScrub_clean (hb : b < 3072) (hon : s.bf b Reg.bankState ≠ 2) :
    exec (.bankPatrolScrub b []) s = .next (s.quiet.scrubStep b) := by
  have hgone (x : Bank) (g : Nat) : x.groupGone b g [] = false := Bool.and_false _
  obtain ⟨-, -, -, hpend, -, -⟩ := s.quiet.scrubStep_leaves hb
  change execBankPatrolScrub b [] s = _
  refine run_to (decide_eq_true hb) ?_ hpend
  dsimp only
  rw [if_neg (show ¬ s.quiet.bf b Reg.bankState = 2 from hon)]
  simp only [hgone, List.filter_nil, List.find?_nil, Bool.false_eq_true, if_false, List.isEmpty_nil, Option.isNone_none, and_self,
    true_or, if_true, List.map_nil]
  rfl

end

/-! ### A corrected sector of HBM (R303, R307, R308) -/

section
variable {s : State} {a n : Nat}

theorem hbmStack_lt (a : Nat) : hbmStack a < 8 := bits_lt ..

theorem exec_hbmPatrolScrub_read (hlo : hbmBase ≤ a) (hhi : a < hbmEnd)
    (hup : s.fld (Reg.stackUp.plus (0x40 * hbmStack (a / 256 * 256))) = 1)
    (hvoid : s.voided = []) {t : State} (hread : (if n = 0 then s.quiet else if n ≤ 8 then s.quiet.correctSector (a / 256 * 256) n []
      else s.quiet.uncorrSector (a / 256 * 256) []) = t) (hpend : t.pending = s.pending) :
    exec (.hbmPatrolScrub a ⟨n, []⟩) s = .next t := by
  have hfresh (k : Nat) : SMap.get false s.quiet.voided k = false := congrArg (SMap.get false · k) hvoid
  change execHbmPatrolScrub a ⟨n, []⟩ s = _
  refine run_to (by simp [hlo, hhi]) ?_ hpend
  dsimp only
  rw [if_neg (not_not.2 (show s.quiet.fld _ = 1 from hup)), show s.quiet.dieReports [] = s.quiet from rfl, hfresh]
  simpa using hread

/-- A place corrected once more is remembered no longer, one corrected first is. -/
def Stack.forget (x : Stack) (key : Nat × Nat) : Stack := { x with tracker := x.tracker.filter (· != key) }

def Stack.remember (x : Stack) (key : Nat × Nat) : Stack := { x with tracker := (key :: x.tracker).take 64 }

theorem State.stack_addStackF (f : Fld) (i k : Nat) : (s.addStackF i f n).stack k = s.stack k := by
  rw [State.addStackF]
  split
  · rw [State.stack, State.addF, State.setF_hbmStacks, State.stack]
  · rfl

theorem State.correctSector_first (hn : ¬ 3 ≤ n) (hseen : (s.stack (hbmStack a)).tracker.contains (hbmPc a, hbmRow a) = false) :
    s.correctSector a n [] = (s.addStackF (hbmStack a) Reg.stackCorrected 1).setStack (hbmStack a)
      ((s.stack (hbmStack a)).remember (hbmPc a, hbmRow a)) := by
  simp only [State.correctSector, State.stack_addStackF, hseen, hn, Bool.false_eq_true, or_self, if_false]
  rfl

theorem State.correctSector_heavy (hn : 3 ≤ n) :
    s.correctSector a n [] = (((s.addStackF (hbmStack a) Reg.stackCorrected 1).addStackF (hbmStack a) Reg.stackHeavy 1).setStack
      (hbmStack a) ((s.stack (hbmStack a)).forget (hbmPc a, hbmRow a))).remapRow a [] := by
  simp only [State.correctSector, State.stack_addStackF, hn, true_or, if_true]
  rfl

/-- The first row that a stack remaps takes the free spare row. -/
theorem State.remapRow_first {k : Nat} (hremap : (s.stack (hbmStack a)).remap = [])
    (hspare : freeSpare (SMap.get 0 (s.stack (hbmStack a)).spares (hbmPc a)) = some k) :
    ∃ x, x.remap.length = 1 ∧ s.remapRow a [] = (s.setStack (hbmStack a) x).showRemap (hbmStack a) := by
  rw [State.remapRow]
  simp only [hspare, hremap]
  exact ⟨_, rfl, if_pos (.inr (by decide))⟩

theorem State.showRemap_leaves {i : Nat} (hi : i < 8) {s : State} (hone : (s.stack i).remap.length = 1) : let t := s.showRemap i
    t.mem = s.mem ∧ t.fld (Reg.stackRemapUsed.plus (0x40 * i)) = 1
      ∧ t.fld (Reg.stackCorrected.plus (0x40 * i)) = s.fld (Reg.stackCorrected.plus (0x40 * i)) := by
  have hheld := stackField_held Reg.stackRemapUsed (by simp) i hi
  have happart : (Reg.stackRetired.plus (0x40 * i)).off ≠ (Reg.stackCorrected.plus (0x40 * i)).off := by
    simp only [Fld.plus, Reg.stackRetired, Reg.stackCorrected]
    omega
  obtain ⟨u, hu, hfield⟩ : ∃ u : State, u = (s.setF (Reg.stackRemapUsed.plus (0x40 * i)) 1).setF (Reg.stackRetired.plus (0x40 * i))
      (s.stack i).retired.length ∧ s.showRemap i = { u with sec := { u.sec with healthDirty := true } } := by
    refine ⟨_, rfl, ?_⟩
    rw [← hone, ← State.setStackF_eq hi, ← State.setStackF_eq hi]
    rfl
  rw [hfield]
  refine ⟨?_, ?_, ?_⟩
  · change u.mem = s.mem
    rw [hu, State.setF_mem, State.setF_mem]
  · change u.fld _ = 1
    have hlow : Reg.stackRemapUsed.hi < Reg.stackRetired.lo := by decide
    rw [hu, State.fld_setF_apart (f := Reg.stackRetired.plus (0x40 * i)) _ _ hheld rfl (.inr hlow), State.fld_setF s 1 hheld]
    rfl
  · change u.fld _ = _
    have happart' : (Reg.stackRemapUsed.plus (0x40 * i)).off ≠ (Reg.stackCorrected.plus (0x40 * i)).off := happart
    rw [hu, State.fld_setF_other _ _ happart, State.fld_setF_other _ _ happart']

/-- From s to t one sector of stack i has been corrected: it is counted once, and no byte has changed. -/
def SectorCounted (i : Nat) (s t : State) : Prop := t.mem = s.mem ∧ t.fld (Reg.stackCorrected.plus (0x40 * i))
  = min (s.fld (Reg.stackCorrected.plus (0x40 * i)) + 1) (2 ^ 32 - 1)

theorem State.counted_addStackF {i : Nat} (hi : i < 8) (s : State) : SectorCounted i s (s.addStackF i Reg.stackCorrected 1) := by
  rw [State.addStackF_eq hi]
  exact ⟨State.setF_mem .., State.fld_addF s 1 (stackField_held Reg.stackCorrected (by simp) i hi)⟩

section
variable {i : Nat} {t : State}

theorem SectorCounted.setStack (h : SectorCounted i s t) (j : Nat) (x : Stack) : SectorCounted i s (t.setStack j x) := h

theorem SectorCounted.addHeavy (h : SectorCounted i s t) (hi : i < 8) : SectorCounted i s (t.addStackF i Reg.stackHeavy 1) := by
  obtain ⟨hmem, hcorr⟩ := h
  have happart : (Reg.stackHeavy.plus (0x40 * i)).off ≠ (Reg.stackCorrected.plus (0x40 * i)).off := by
    simp only [Fld.plus, Reg.stackHeavy, Reg.stackCorrected]
    omega
  rw [State.addStackF_eq hi]
  exact ⟨(State.setF_mem ..).trans hmem, (State.fld_addF_other 1 happart).trans hcorr⟩

theorem SectorCounted.showRemap (h : SectorCounted i s t) (hi : i < 8) (hone : (t.stack i).remap.length = 1) :
    SectorCounted i s (t.showRemap i) ∧ (t.showRemap i).fld (Reg.stackRemapUsed.plus (0x40 * i)) = 1 := by
  obtain ⟨hmem, hused, hcorr⟩ := State.showRemap_leaves hi hone
  exact ⟨⟨hmem.trans h.1, hcorr.trans h.2⟩, hused⟩

theorem State.stack_setStack (s : State) (i : Nat) (x : Stack) : (s.setStack i x).stack i = x := by
  rw [State.stack, State.setStack, SMap.get_set, if_pos rfl]

end

theorem State.correctSector_first_counted (hn : ¬ 3 ≤ n)
    (hseen : (s.stack (hbmStack a)).tracker.contains (hbmPc a, hbmRow a) = false) :
    SectorCounted (hbmStack a) s (s.correctSector a n []) := by
  rw [State.correctSector_first hn hseen]
  exact (s.counted_addStackF (hbmStack_lt a)).setStack ..

theorem State.correctSector_heavy_counted (hn : 3 ≤ n) (hremap : (s.stack (hbmStack a)).remap = [])
    (hspare : freeSpare (SMap.get 0 (s.stack (hbmStack a)).spares (hbmPc a)) ≠ none) :
    SectorCounted (hbmStack a) s (s.correctSector a n [])
      ∧ (s.correctSector a n []).fld (Reg.stackRemapUsed.plus (0x40 * hbmStack a)) = 1 := by
  have hi := hbmStack_lt a
  obtain ⟨k, hk⟩ := Option.ne_none_iff_exists'.1 hspare
  have hcounted := (s.counted_addStackF hi).addHeavy hi
  have hsector := State.correctSector_heavy (s := s) (a := a) hn
  generalize (s.addStackF (hbmStack a) Reg.stackCorrected 1).addStackF (hbmStack a) Reg.stackHeavy 1 = u at hcounted hsector
  generalize hy : (s.stack (hbmStack a)).forget (hbmPc a, hbmRow a) = y at hsector
  obtain ⟨x, hone, hremapped⟩ := State.remapRow_first (s := u.setStack (hbmStack a) y) (a := a) (k := k)
    (by rw [State.stack_setStack, ← hy]; exact hremap) (by rw [State.stack_setStack, ← hy]; exact hk)
  rw [hsector, hremapped]
  exact ((hcounted.setStack ..).setStack ..).showRemap hi (by rw [State.stack_setStack, hone])

end

/-! ### A corrected line of DDR (R305, R320) -/

section
variable {s : State} {a n : Nat}

theorem exec_ddrPatrolScrub_read (hlo : ddrBase ≤ a) (hhi : a < ddrBase + 2 ^ 41) (htier : s.tierOf (a / 64 * 64) 64 = some .ddr)
    (hvoid : s.voided = []) {t : State} (hread : (if n = 0 then s.quiet else if n ≤ 2 then s.quiet.correctLine (a / 64 * 64) n
      else s.quiet.uncorrLine (a / 64 * 64)) = t) (hpend : t.pending = s.pending) :
    exec (.ddrPatrolScrub a n) s = .next t := by
  have hfresh (k : Nat) : SMap.get false s.quiet.voided k = false := congrArg (SMap.get false · k) hvoid
  have hread' : ¬(s.quiet.tierOf (a / 64 * 64) 64 ≠ some .ddr ∨ SMap.get false s.quiet.voided (a / 64 * 64) = true) := by
    rw [hfresh]
    exact not_or.2 ⟨not_not.2 htier, Bool.false_ne_true⟩
  change execDdrPatrolScrub a n s = _
  have hok : (decide (ddrBase ≤ a) && decide (a < ddrBase + 2 ^ 41)) = true :=
    Bool.and_eq_true_iff.2 ⟨decide_eq_true hlo, decide_eq_true hhi⟩
  refine run_to hok ?_ hpend
  dsimp only
  rw [if_neg hread']
  exact hread

/-- A corrected line is counted once and changes no byte. -/
theorem State.correctLine_leaves (hc : s.ddrChannel a < 8) : let t := s.correctLine a n
    t.mem = s.mem ∧ t.fld (Reg.ddrCorrected.plus (0x40 * s.ddrChannel a))
      = min (s.fld (Reg.ddrCorrected.plus (0x40 * s.ddrChannel a)) + 1) (2 ^ 32 - 1) := by
  rw [State.correctLine]
  generalize s.ddrChannel a = c at hc
  have hcount := State.fld_addF s 1 (channelCorrected_held c hc)
  have happart : (Reg.ddrDeviceCorr.plus (0x40 * c)).off ≠ (Reg.ddrCorrected.plus (0x40 * c)).off := by
    simp only [Fld.plus, Reg.ddrDeviceCorr, Reg.ddrCorrected]
    omega
  simp only [State.addChanF_eq hc]
  generalize hu : (if n = 2 then (s.addF (Reg.ddrCorrected.plus (0x40 * c)) 1).addF (Reg.ddrDeviceCorr.plus (0x40 * c)) 1
    else s.addF (Reg.ddrCorrected.plus (0x40 * c)) 1) = u
  have hleft : u.mem = s.mem ∧ u.fld (Reg.ddrCorrected.plus (0x40 * c))
      = min (s.fld (Reg.ddrCorrected.plus (0x40 * c)) + 1) (2 ^ 32 - 1) := by
    rw [← hu]
    split
    · exact ⟨(State.setF_mem ..).trans (State.setF_mem ..), (State.fld_addF_other 1 happart).trans hcount⟩
    · exact ⟨State.setF_mem .., hcount⟩
  split
  · exact hleft
  · exact hleft

end

/-- Settles O12: with no upset a scrub of a bank only moves on; a corrected sector or line is counted, and the first row
remapped takes a spare. -/
theorem patrolScrubCountsCorrections : Obligations.PatrolScrubCountsCorrections := by
  intro s
  refine ⟨fun b hb hon => ?_, fun a n hwf hup hvoid => ?_, fun a n hwf htier hvoid => ?_⟩
  · obtain ⟨hpos, hmem, hout, -, hbanks, hdef⟩ := s.quiet.scrubStep_leaves hb
    exact ⟨_, exec_bankPatrolScrub_clean hb hon, hpos, hmem, hout, hbanks, hdef⟩
  · obtain ⟨hlo, hhi⟩ : hbmBase ≤ a ∧ a < hbmEnd := by simpa [Instr.wf, hbmBase, hbmEnd] using hwf
    generalize hq : a / 256 * 256 = q
    intro i seen counted
    have hi : i < 8 := hbmStack_lt q
    have hscrub {n : Nat} {t : State} := exec_hbmPatrolScrub_read (n := n) hlo hhi hup hvoid (t := t)
    rw [hq] at hscrub
    refine ⟨hscrub (if_pos rfl) rfl, fun hpos htwo hfirst => ?_, fun hthree height hremap hspare => ?_⟩
    · refine ⟨_, hscrub ?_ (correctSector_touch s.quiet q n []).pending,
        State.correctSector_first_counted (s := s.quiet) (by omega) hfirst⟩
      rw [if_neg (by omega), if_pos (by omega)]
    · refine ⟨_, hscrub ?_ (correctSector_touch s.quiet q n []).pending,
        State.correctSector_heavy_counted (s := s.quiet) hthree hremap hspare⟩
      rw [if_neg (by omega), if_pos height]
  · obtain ⟨hlo, hhi⟩ : ddrBase ≤ a ∧ a < ddrBase + 2 ^ 41 := by simpa [Instr.wf, ddrBase] using hwf
    have hscrub {n : Nat} {t : State} := exec_ddrPatrolScrub_read (n := n) hlo hhi htier hvoid (t := t)
    refine ⟨hscrub (if_pos rfl) rfl, fun hpos htwo hc => ?_⟩
    obtain ⟨hmem, hcorr⟩ := State.correctLine_leaves (s := s.quiet) (n := n) hc
    refine ⟨_, hscrub ?_ (correctLine_touch s.quiet _ n).pending, hmem, hcorr⟩
    rw [if_neg (by omega), if_pos htwo]

end Sys2Proof.Machine

namespace Sys2Proof.Machine

open Sys2Proof

/-! ### The owner of a port (R271, R274) -/

theorem ownerMask : ∀ p < 2, regMask (0x300000 + 4 * p) = 0xFFF07FF ∧ (findIn (4 * p) bankEntry).map (·.off) = some (4 * p) := by
  decide +kernel

section
variable {s t : State} {b port : Nat}

theorem State.wrOwner_eq (hb : b < 3072) (hp : port < 2) (v : Nat) : s.wrOwner b port v = s.wr (0x300000 + 0x40 * b + 4 * port) v := by
  rw [State.wrOwner, if_pos hp, State.wrBank, if_pos hb, Reg.ownerA,
    show 0x300000 + 4 * port + 0x40 * b = 0x300000 + 0x40 * b + 4 * port by omega]

theorem State.owner_wr (hb : b < 3072) (hp : port < 2) (v : Nat) :
    (s.wr (0x300000 + 0x40 * b + 4 * port) v).owner b port = v &&& 0xFFF07FF := by
  obtain ⟨hmask, hreg⟩ := ownerMask port hp
  rw [State.owner, Reg.ownerA, State.rd_wr, if_pos rfl, regMask_bank hb (by omega) hreg, hmask]

/-- The fields of an owner register as a request writes them. -/
theorem owner_requested (w : Nat) {k i : Nat} (hk : k < 8) (hi : i < 256) :
    let v := setBits 27 16 (2 ^ 11 + k * 256 + i) w &&& 0xFFF07FF
    bitAt 27 v = true ∧ bits 26 24 v = k ∧ bits 23 16 v = i ∧ bits 10 0 v = bits 10 0 w := by
  intro v
  have hset : bits 27 16 (setBits 27 16 (2 ^ 11 + k * 256 + i) w) = 2 ^ 11 + k * 256 + i :=
    (bits_setBits ..).trans (Nat.mod_eq_of_lt (by omega))
  have hlow : bits 10 0 v = bits 10 0 w :=
    (bits_and_of_full (m := 0xFFF07FF) _ (by decide)).trans (bits_setBits_other _ _ (.inr (by decide)))
  refine ⟨?_, ?_, ?_, hlow⟩
  · have hbit : (2 ^ 11 + k * 256 + i).testBit 11 = true := by
      rw [Nat.testBit_eq_decide_div_mod_eq, decide_eq_true_iff]
      omega
    rw [bitAt, Nat.testBit_and, testBit_setBits, if_pos (by decide), hbit]
    decide
  · rw [bits_and_of_full (m := 0xFFF07FF) _ (by decide)]
    simp only [bits, Nat.shiftRight_eq_div_pow] at hset ⊢
    omega
  · rw [bits_and_of_full (m := 0xFFF07FF) _ (by decide)]
    simp only [bits, Nat.shiftRight_eq_div_pow] at hset ⊢
    omega

/-- The same as the handover leaves them. -/
theorem owner_given (w : Nat) {k i : Nat} (hk : k < 8) (hi : i < 256) :
    let v := bits 26 16 w * 65536 + k * 256 + i &&& 0xFFF07FF
    bitAt 27 v = false ∧ bits 10 8 v = k ∧ bits 7 0 v = i := by
  have hlt := bits_lt 26 16 w
  refine ⟨?_, ?_, ?_⟩
  · have hbit : (bits 26 16 w * 65536 + k * 256 + i).testBit 27 = false := Nat.testBit_lt_two_pow (by omega)
    rw [bitAt, Nat.testBit_and, hbit, Bool.false_and]
  · rw [bits_and_of_full (m := 0xFFF07FF) _ (by decide)]
    generalize bits 26 16 w = x
    simp only [bits, Nat.shiftRight_eq_div_pow]
    omega
  · rw [bits_and_of_full (m := 0xFFF07FF) _ (by decide)]
    generalize bits 26 16 w = x
    simp only [bits, Nat.shiftRight_eq_div_pow]
    omega

/-- A sender's kind and index fit their fields. -/
theorem Sender.wf_lt {k i : Nat} (h : Sender.wf ⟨k, i, none⟩ = true ∨ k = 0 ∧ i = 0) : k < 8 ∧ i < 256 := by
  rcases h with h | ⟨rfl, rfl⟩
  case inl =>
    unfold Sender.wf at h
    dsimp only at h
    split at h
    case h_7 => exact absurd h Bool.false_ne_true
    all_goals
      simp at h
      omega
  case inr => decide

theorem exec_bankOwnerWrite_taken (hb : b < 3072) (hp : port < 2) {k i : Nat} (hk : Sender.wf ⟨k, i, none⟩ = true ∨ k = 0 ∧ i = 0)
    (hserved : s.served = true) (hport : port = 0 ∨ dualPort b = true) (hlock : s.bf b Reg.bankLocked = 0)
    (hpend : bitAt 27 (s.owner b port) = false) (hnew : ¬(bits 10 8 (s.owner b port) = k ∧ bits 7 0 (s.owner b port) = i)) :
    exec (.bankOwnerWrite b port k i) s = .next (s.quiet.wr (0x300000 + 0x40 * b + 4 * port)
      (setBits 27 16 (2 ^ 11 + k * 256 + i) (s.owner b port))) := by
  obtain ⟨hk8, hi⟩ := Sender.wf_lt hk
  have hok : (decide (b < 3072) && decide (port < 2) && decide (k < 8) && decide (i < 256)) = true := by
    simp [hb, hp, hk8, hi]
  have hdual : ¬(port = 1 ∧ (!dualPort b) = true) := by
    rintro ⟨rfl, hd⟩
    simp_all
  have hknown : ¬(!(senderOk ⟨k, i, none⟩ || (k == 0 && i == 0))) = true := by
    have hwf : senderOk ⟨k, i, none⟩ = true ∨ k = 0 ∧ i = 0 := hk
    rcases hwf with h | ⟨rfl, rfl⟩
    · simp [h]
    · simp
  change execBankOwnerWrite b port k i s = _
  refine run_to hok ?_ (State.wr_pending ..)
  rw [State.hostWrite, if_pos (State.open0_of_served (s := s.quiet) hserved _), ← State.wrOwner_eq hb hp, State.ownerWrite]
  rw [if_neg hdual, if_neg (show ¬ s.quiet.bf b Reg.bankLocked = 1 from fun h => absurd (hlock.symm.trans h) (by decide)), if_neg hknown,
    if_neg (show ¬ bitAt 27 (s.quiet.owner b port) = true from fun h => absurd (hpend.symm.trans h) (by decide)),
    if_neg (show ¬ (bits 10 8 (s.quiet.owner b port) = k ∧ bits 7 0 (s.quiet.owner b port) = i) from hnew)]
  rfl

/-- What a change leaves of a bank's registers. -/
theorem Touch.rd_bank {M : Nat} (h : Touch M s t) (hM : M.testBit 30 = false) {off : Nat} (hoff : 0x300000 ≤ off ∧ off < 0x330000) :
    t.rd off = s.rd off :=
  h.regs off (by rw [regArea_eq (k := 30) hoff rfl (by decide)]; exact hM)

theorem exec_handoverComplete_pending (hb : b < 3072) (hp : port < 2) (hpend : bitAt 27 (s.owner b port) = true) :
    ∃ t, exec (.handoverComplete b port) s = .next t ∧ bitAt 27 (t.owner b port) = false
      ∧ bits 10 8 (t.owner b port) = bits 26 24 (s.owner b port) ∧ bits 7 0 (t.owner b port) = bits 23 16 (s.owner b port) := by
  have huse := bankUse_touch (s.quiet.giveBank b port (bits 26 24 (s.owner b port)) (bits 23 16 (s.owner b port))) b Ev.unitState Src.device
  have hexec : exec (.handoverComplete b port) s = .next
      ((s.quiet.giveBank b port (bits 26 24 (s.owner b port)) (bits 23 16 (s.owner b port))).bankUse b Ev.unitState Src.device) := by
    change execHandoverComplete b port s = _
    refine run_to (by simp [hb, hp]) (if_pos hpend) (huse.pending.trans ?_)
    rw [State.giveBank, State.wrOwner_eq hb hp, State.wr_pending]
  have howner := huse.rd_bank rfl (off := Reg.ownerA + 0x40 * b + 4 * port) (by rw [Reg.ownerA]; omega)
  rw [← State.owner, ← State.owner, State.giveBank, State.wrOwner_eq hb hp, State.owner_wr hb hp, ← State.wrOwner_eq hb hp] at howner
  refine ⟨_, hexec, ?_⟩
  rw [State.giveBank, howner]
  exact owner_given _ (bits_lt 26 24 _) (bits_lt 23 16 _)

end

/-! ### The power states of a bank (R276, R277, R282) -/

section
variable {P : Nat → Prop} {s t u : State}

theorem OnlyRegs.trans (h : OnlyRegs P s t) (k : OnlyRegs P t u) : OnlyRegs P s u := by
  obtain ⟨hframe, hregs⟩ := h
  obtain ⟨kframe, kregs⟩ := k
  refine ⟨?_, fun off ho => (kregs off ho).trans (hregs off ho)⟩
  rw [kframe, hframe]

theorem OnlyRegs.of_quiet (h : OnlyRegs P s.quiet t) : OnlyRegs P s t := h

theorem State.wr_onlyRegs (s : State) (o v : Nat) : OnlyRegs (fun x => x = o) s (s.wr o v) :=
  ⟨by rw [State.wr_eq], fun _ hx => State.rd_wr_other s v (Ne.symm hx)⟩

end

section
variable {s t : State} {b : Nat}

theorem State.bf_setBf_req (hb : b < 3072) (v : Nat) : (s.setBf b Reg.bankReq v).bf b Reg.bankReq = v % 4 :=
  State.bf_setBf hb (by simp) v

theorem State.bf_setBf_state (hb : b < 3072) (v : Nat) : (s.setBf b Reg.bankState v).bf b Reg.bankState = v % 4 :=
  State.bf_setBf hb (by simp) v

/-- STATE and REQ share a register, and neither moves the other. -/
theorem State.state_setBf_req (hb : b < 3072) (v : Nat) : (s.setBf b Reg.bankReq v).bf b Reg.bankState = s.bf b Reg.bankState := by
  rw [State.setBf_eq hb]
  exact State.fld_setF_apart s v (bankField_held (by simp) hb) rfl (.inl (by change 1 < 2; decide))

theorem State.req_setBf_state (hb : b < 3072) (v : Nat) : (s.setBf b Reg.bankState v).bf b Reg.bankReq = s.bf b Reg.bankReq := by
  rw [State.setBf_eq hb]
  exact State.fld_setF_apart s v (bankField_held (by simp) hb) rfl (.inr (by change 1 < 2; decide))

theorem State.setBf_power_onlyRegs (hb : b < 3072) {f : Fld} (hf : f.off = 0x300008) (s : State) (v : Nat) :
    OnlyRegs (fun o => o = 0x300008 + 0x40 * b) s (s.setBf b f v) := by
  rw [State.setBf_eq hb, ← hf]
  exact s.wr_onlyRegs ..

theorem State.setBf_out_pending (hb : b < 3072) (f : Fld) (v : Nat) :
    (s.setBf b f v).out = s.out ∧ (s.setBf b f v).pending = s.pending := by
  rw [State.setBf_eq hb]
  exact ⟨State.setF_out .., State.setF_pending ..⟩

theorem Touch.bf {M : Nat} (h : Touch M s t) (hM : M.testBit 30 = false) (hb : b < 3072) {f : Fld}
    (hf : 0x300000 ≤ f.off ∧ f.off < 0x300040) :
    t.bf b f = s.bf b f := by
  rw [State.bf, State.fld, h.rd_bank hM (by simp only [Fld.plus]; omega), State.bf, State.fld]

theorem State.bank_congr (h : t.banks = s.banks) : t.bank b = s.bank b := congrArg (SMap.get _ · b) h

/-- A request for ON or RETENTION of an unlocked bank is in force, and the bank on its way to it. -/
def State.powerAsked (s : State) (b r : Nat) : State :=
  let t := s.setBf b Reg.bankReq r
  if s.bf b Reg.bankState = r then t else t.setBf b Reg.bankState 3

theorem State.powerAsked_leaves (s : State) (hb : b < 3072) {r : Nat} (hr : r < 2) : let t := s.powerAsked b r
    t.pending = s.pending ∧ t.bf b Reg.bankReq = r ∧ t.bf b Reg.bankState = (if s.bf b Reg.bankState = r then r else 3)
      ∧ OnlyRegs (fun o => o = 0x300008 + 0x40 * b) s t := by
  have hreq := State.bf_setBf_req (s := s) hb r
  have hstate := State.state_setBf_req (s := s) hb r
  have honly := s.setBf_power_onlyRegs hb (f := Reg.bankReq) rfl r
  obtain ⟨-, hpend⟩ := State.setBf_out_pending (s := s) hb Reg.bankReq r
  rw [Nat.mod_eq_of_lt (by omega)] at hreq
  unfold State.powerAsked
  generalize s.setBf b Reg.bankReq r = t at hreq hstate honly hpend ⊢
  dsimp only
  split
  next hsame => exact ⟨hpend, hreq, hstate.trans hsame, honly⟩
  next =>
    refine ⟨(State.setBf_out_pending hb ..).2.trans hpend, (State.req_setBf_state hb 3).trans hreq, State.bf_setBf_state hb 3,
      honly.trans (t.setBf_power_onlyRegs hb rfl 3)⟩

theorem exec_bankPowerRequest_taken (hb : b < 3072) {r : Nat} (hr : r < 2) (hserved : s.served = true) (hlock : s.bf b Reg.bankLocked = 0) :
    exec (.bankPowerRequest b r) s = .next (s.quiet.powerAsked b r) := by
  change execBankPowerRequest b r s = _
  refine run_to (by simp [hb]; omega) ?_ (s.quiet.powerAsked_leaves hb hr).1
  rw [State.hostWrite, if_pos (State.open0_of_served (s := s.quiet) hserved _), State.powerWrite]
  rw [if_neg (show ¬ s.quiet.bf b Reg.bankLocked = 1 from fun h => absurd (hlock.symm.trans h) (by decide)), if_neg (by omega),
    if_neg (by omega)]
  dsimp only
  rw [State.state_setBf_req hb]
  rfl

/-- A change of a bank's UNIT entry, where there is one, leaves the bank as it is. -/
theorem State.putUnit_if_touch (s : State) (p : Prop) [Decidable p] (u st cause source prior) :
    Touch 208845406230 s (if p then s.putUnit u st cause source prior else s) :=
  Touch.ite (putUnit_touch ..) (Touch.refl ..)

/-- The bytes of a range set to zero. -/
theorem State.byte_zeroBytes (s : State) (a n c : Nat) : (s.zeroBytes a n).byte c = if a ≤ c ∧ c < a + n then 0 else s.byte c := by
  rw [State.byte, State.zeroBytes, SMap.get_filter 0 fun k => !(decide (a ≤ k) && decide (k < a + n))]
  by_cases h : a ≤ c ∧ c < a + n <;> simp [h, State.byte]

theorem exec_bankPowerStateEntry_retention (hb : b < 3072) (hstate : s.bf b Reg.bankState = 3) (hreq : s.bf b Reg.bankReq = 1)
    (hkept : (s.bank b).lost = false) : exec (.bankPowerStateEntry b) s = .next (s.quiet.setBf b Reg.bankState 1) := by
  have hmay : s.quiet.bf b Reg.bankReq = 1 ∧ (!(s.quiet.bank b).lost) = true :=
    ⟨hreq, by rw [show (s.quiet.bank b).lost = false from hkept]; rfl⟩
  change execBankPowerStateEntry b s = _
  refine run_to (decide_eq_true hb) ?_ (State.setBf_out_pending hb ..).2
  dsimp only
  rw [if_neg (not_not.2 (show s.quiet.bf b Reg.bankState = 3 from hstate)), if_pos hmay]

/-- The bank without power: its bytes are gone, and nothing of it is defined. -/
def State.poweredOff (s : State) (b : Nat) : State := (s.bankOff b).setBf b Reg.bankState 2

theorem State.poweredOff_leaves (s : State) (hb : b < 3072) : let t := s.poweredOff b
    t.pending = s.pending ∧ t.bf b Reg.bankState = 2 ∧ (t.bank b).lost = true ∧ (t.bank b).defined = []
      ∧ ∀ c, t.byte c = if b * 0x40000 ≤ c ∧ c < b * 0x40000 + 0x40000 then 0 else s.byte c := by
  have hoff : s.bankOff b =
      (s.setBank b { s.bank b with defined := [], tracker := [], lost := true }).zeroBytes (b * 0x40000) 0x40000 := rfl
  have hstate := State.bf_setBf_state (s := s.bankOff b) hb 2
  unfold State.poweredOff
  rw [State.setBf_eq hb] at hstate ⊢
  refine ⟨?_, hstate, ?_, ?_, fun c => ?_⟩
  · rw [State.setF_pending, hoff]
    rfl
  · rw [State.bank, State.setF_banks, hoff]
    exact congrArg Bank.lost ((State.bank_setBank ..).trans (if_pos rfl))
  · rw [State.bank, State.setF_banks, hoff]
    exact congrArg Bank.defined ((State.bank_setBank ..).trans (if_pos rfl))
  · rw [State.byte, State.setF_mem, hoff]
    exact State.byte_zeroBytes ..

theorem exec_bankPowerStateEntry_off (hb : b < 3072) (hstate : s.bf b Reg.bankState = 3) (hreq : s.bf b Reg.bankReq = 2) :
    ∃ t, exec (.bankPowerStateEntry b) s = .next t ∧ Touch 208845406230 (s.quiet.poweredOff b) t := by
  have hbusy : ¬(s.quiet.bf b Reg.bankReq = 1 ∧ (!(s.quiet.bank b).lost) = true) := fun h => absurd (hreq.symm.trans h.1) (by decide)
  have hunit := State.putUnit_if_touch (s.quiet.poweredOff b) ((s.quiet.poweredOff b).unitRaw (UId.bank b) = US.idle)
    (UId.bank b) US.off Ev.unitState Src.host 0
  refine ⟨_, ?_, hunit⟩
  change execBankPowerStateEntry b s = _
  refine run_to (decide_eq_true hb) ?_ (hunit.pending.trans (s.quiet.poweredOff_leaves hb).1)
  dsimp only
  rw [if_neg (not_not.2 (show s.quiet.bf b Reg.bankState = 3 from hstate)), if_neg hbusy,
    if_pos (show s.quiet.bf b Reg.bankReq = 2 from hreq)]
  rfl

/-- The bank with power again: initialised where its content was lost, and ON unless RETENTION is asked for. -/
def State.poweredUp (s : State) (b : Nat) : State :=
  let t := if (s.bank b).lost then s.initBank b else s
  if s.bf b Reg.bankReq = 1 then t else t.setBf b Reg.bankState 0

theorem State.bank_initBank (s : State) (b : Nat) : ((s.initBank b).bank b).defined = [] ∧ ((s.initBank b).bank b).lost = false := by
  have hbank : (s.initBank b).bank b =
      { s.bank b with validBit := s.bf b Reg.bankInit != 0, defined := [], tracker := [], lost := false } :=
    (State.bank_setBank ..).trans (if_pos rfl)
  rw [hbank]
  exact ⟨rfl, rfl⟩

theorem State.poweredUp_leaves (s : State) (hb : b < 3072) : let t := s.poweredUp b
    t.pending = s.pending ∧ t.bf b Reg.bankState = (if s.bf b Reg.bankReq = 1 then s.bf b Reg.bankState else 0)
      ∧ ((s.bank b).lost = true → (t.bank b).defined = [] ∧ (t.bank b).lost = false)
      ∧ ((s.bank b).lost = false → t.banks = s.banks) := by
  generalize ht : (if (s.bank b).lost then s.initBank b else s) = t
  have hpend : t.pending = s.pending := by
    rw [← ht]
    split <;> rfl
  have hstate : t.bf b Reg.bankState = s.bf b Reg.bankState := by
    rw [← ht]
    split <;> rfl
  have hlost (h : (s.bank b).lost = true) : (t.bank b).defined = [] ∧ (t.bank b).lost = false := by
    rw [← ht, if_pos h]
    exact s.bank_initBank b
  have hkept (h : (s.bank b).lost = false) : t.banks = s.banks := by
    rw [← ht, if_neg (Bool.eq_false_iff.1 h)]
  rw [State.poweredUp, ht]
  dsimp only
  split
  next => exact ⟨hpend, hstate, hlost, hkept⟩
  next =>
    have hbanks : (t.setBf b Reg.bankState 0).banks = t.banks := by
      rw [State.setBf_eq hb, State.setF_banks]
    refine ⟨(State.setBf_out_pending hb ..).2.trans hpend, State.bf_setBf_state hb 0, ?_, fun h => hbanks.trans (hkept h)⟩
    rw [State.bank_congr hbanks]
    exact hlost

theorem exec_bankPowerUpDone_up (hb : b < 3072) (hstate : s.bf b Reg.bankState = 3)
    (hup : s.bf b Reg.bankReq = 0 ∨ (s.bank b).lost = true) :
    ∃ t, exec (.bankPowerUpDone b) s = .next t ∧ Touch 208845406230 (s.quiet.poweredUp b) t := by
  have hunit := State.putUnit_if_touch (s.quiet.poweredUp b) ((s.quiet.poweredUp b).unitRaw (UId.bank b) = US.off)
    (UId.bank b) US.idle Ev.unitState Src.host 0
  refine ⟨_, ?_, hunit⟩
  change execBankPowerUpDone b s = _
  refine run_to (decide_eq_true hb) ?_ (hunit.pending.trans (s.quiet.poweredUp_leaves hb).1)
  dsimp only
  rw [if_pos (show s.quiet.bf b Reg.bankState = 3 ∧ (s.quiet.bf b Reg.bankReq = 0 ∨ (s.quiet.bank b).lost = true)
    from ⟨hstate, hup⟩)]
  rfl

/-- The change of the UNIT entry moves no bank and no power state. -/
theorem Touch.bank_power (h : Touch 208845406230 s t) (hb : b < 3072) :
    t.bf b Reg.bankState = s.bf b Reg.bankState ∧ t.banks = s.banks ∧ ∀ a, a < farBase → t.byte a = s.byte a :=
  ⟨h.bf rfl hb (by decide), h.banks rfl, h.mem rfl⟩

end

/-- Settles O13: a request writes one register, and what completes it changes the bank and, where there is one, its UNIT entry
(`Touch.bank_power`). The bytes of a bank in OFF read zero by log entries 6 and 9. -/
theorem banksChangeOwnerAndPower : Obligations.BanksChangeOwnerAndPower := by
  refine ⟨fun s b port hb hp => ⟨?_, exec_handoverComplete_pending hb hp⟩, fun s b hb => ⟨?_, ?_, ?_, ?_, ?_⟩⟩
  · intro k i hk hserved hport hlock hpend hnew
    obtain ⟨hk8, hi⟩ := Sender.wf_lt hk
    have howner := owner_requested (s.owner b port) hk8 hi
    rw [← State.owner_wr (s := s.quiet) hb hp] at howner
    obtain ⟨hpending, hkind, hindex, hlow⟩ := howner
    exact ⟨_, exec_bankOwnerWrite_taken hb hp hk hserved hport hlock hpend hnew, State.wr_out .., hpending, hkind, hindex, hlow,
      (State.wr_onlyRegs ..).of_quiet⟩
  · intro r hr hserved hlock
    obtain ⟨-, hreq, hstate, honly⟩ := s.quiet.powerAsked_leaves hb hr
    exact ⟨_, exec_bankPowerRequest_taken hb hr hserved hlock, hreq, hstate, honly.of_quiet⟩
  · intro hstate hreq hkept
    exact ⟨_, exec_bankPowerStateEntry_retention hb hstate hreq hkept, State.bf_setBf_state hb 1, (State.setBf_out_pending hb ..).1,
      (s.quiet.setBf_power_onlyRegs hb rfl 1).of_quiet⟩
  · intro hstate hreq
    obtain ⟨t, hexec, htouch⟩ := exec_bankPowerStateEntry_off hb hstate hreq
    obtain ⟨-, hoff, hlost, hdef, hbytes⟩ := s.quiet.poweredOff_leaves hb
    obtain ⟨htstate, htbanks, htbytes⟩ := htouch.bank_power hb
    have htbank : t.bank b = (s.quiet.poweredOff b).bank b := State.bank_congr htbanks
    refine ⟨t, hexec, htstate.trans hoff, by rw [htbank, hlost], by rw [htbank, hdef], fun a hlo hhi => ?_, fun a hfar hout => ?_⟩
    · rw [htbytes a (by rw [farBase]; omega), hbytes, if_pos (by omega)]
    · rw [htbytes a hfar, hbytes, if_neg (by omega)]
      rfl
  · intro hstate hreq
    obtain ⟨t, hexec, htouch⟩ := exec_bankPowerUpDone_up hb hstate (.inl hreq)
    obtain ⟨-, hstate', hlost, hkept⟩ := s.quiet.poweredUp_leaves hb
    obtain ⟨htstate, htbanks, -⟩ := htouch.bank_power hb
    have hon : ¬ s.quiet.bf b Reg.bankReq = 1 := fun h => absurd (hreq.symm.trans h) (by decide)
    rw [if_neg hon] at hstate'
    rw [← State.bank_congr htbanks] at hlost
    exact ⟨t, hexec, htstate.trans hstate', hlost, fun h => htbanks.trans (hkept h)⟩
  · intro hstate hreq hgone
    obtain ⟨t, hexec, htouch⟩ := exec_bankPowerUpDone_up hb hstate (.inr hgone)
    obtain ⟨-, hstate', hlost, -⟩ := s.quiet.poweredUp_leaves hb
    obtain ⟨htstate, htbanks, -⟩ := htouch.bank_power hb
    rw [if_pos (show s.quiet.bf b Reg.bankReq = 1 from hreq)] at hstate'
    rw [← State.bank_congr htbanks] at hlost
    exact ⟨t, hexec, htstate.trans (hstate'.trans hstate), hlost hgone⟩

end Sys2Proof.Machine

namespace Sys2Proof.Machine

open Sys2Proof

/-! ### Accesses that HBM or DDR serves at once (R298, R302, R320) -/

section
variable {s : State} {tier : Tier} {a n : Nat} {bs : List Byte}

theorem State.tier_of_serves (h : s.outerServes tier a n) : tier = .hbm ∨ tier = .ddr :=
  h.2.2.2.imp And.left And.left

theorem State.openRange_outer (rq : Requester) {w add : Bool} (h : s.outerServes tier a n) : s.openRange rq a n w add = (0, s) := by
  obtain ⟨htier, hpages, hvoided, ⟨rfl, hoff⟩ | ⟨rfl, hoff⟩⟩ := h
  · exact State.openRange_served rq ⟨htier, hpages, hvoided, .inl ⟨rfl, hoff⟩⟩
  · have hopen : s.openOuter .ddr a n w = (0, s) := by
      rw [State.openOuter, if_neg (by simp [hoff]), if_neg (by simp [State.hostBias, hpages]), State.voidsIn, hvoided]
      rfl
    rw [State.openRange, htier]
    exact ite_eq_iff'.2 ⟨fun _ => rfl, fun _ => hopen⟩

theorem State.accessRead_outer (rq : Requester) {add : Bool} (h : s.outerServes tier a n) :
    s.accessRead rq a n add [] = (0, s.bytes a n, s) := by
  have hbank : s.tierOf a n ≠ some .bank := by
    rw [h.1]
    rcases State.tier_of_serves h with rfl | rfl <;> decide
  rw [State.accessRead, State.openRange_outer rq h]
  simp only [meet_nil, if_neg hbank]

theorem State.accessWrite_outer (rq : Requester) (h : s.outerServes tier a bs.length) :
    s.accessWrite rq a bs [] = (0, s.storeBytes a bs) := by
  rw [State.accessWrite, State.openRange_outer rq h]
  simp only [meet_nil]

/-- Past the banks a store reads as it was written, and changes no other byte. -/
theorem State.storeBytes_leaves (ha : hbmBase ≤ a) (hn : bs.length = n) :
    (∀ i, i < n → (s.storeBytes a bs).byte (a + i) = bs.getD i 0)
      ∧ BytesKept (fun b => a ≤ b ∧ b < a + n) s (s.storeBytes a bs) := by
  subst hn
  refine ⟨fun i hi => ?_, fun b hb => State.byte_storeBytes_other ha hb⟩
  rw [State.byte_storeBytes ha, State.byte_putBytes s a hi, List.getD_eq_getElem _ _ hi]

/-- Where nothing is voided, a store past the banks changes memory and the dirty bitmaps only. -/
theorem State.storeBytes_frame (ha : hbmBase ≤ a) (hvoided : s.voided = []) : s.storeBytes a bs
    = { s with mem := (s.storeBytes a bs).mem, ckp := { s.ckp with items := (s.storeBytes a bs).ckp.items } } := by
  have hclear : s.clearVoids a bs.length = s := by
    rw [State.clearVoids, hvoided, List.filter_nil, ← hvoided]
  rw [State.storeBytes_outer bs ha, hclear]
  rfl

end

/-! ### HBM_ACCESS -/

section
variable {s : State} {who : Sender} {a n : Nat} {bs : List Byte}

/-- A count of what the stacks' own ECC corrects leaves what HBM serves (R300). -/
theorem State.addStackDie_serves (i k : Nat) (h : s.outerServes .hbm a n) :
    (s.addStackF i Reg.stackDie k).outerServes .hbm a n := by
  rw [State.addStackF]
  split
  next hi =>
    obtain ⟨u, hu⟩ : ∃ u, u = s.addF (Reg.stackDie.plus (0x40 * i)) k := ⟨_, rfl⟩
    have hrd (off : Nat) (hoff : 0x20011C + 0x40 * i ≠ off) : u.rd off = s.rd off := hu ▸ State.rd_setF_other s _ hoff
    have hup (j : Nat) : u.fld (Reg.stackUp.plus (0x40 * j)) = s.fld (Reg.stackUp.plus (0x40 * j)) := by
      refine congrArg (bits 0 0) (hrd _ ?_)
      simp only [Fld.plus, Reg.stackUp]
      omega
    have hunit (j : Nat) : u.unitRaw (UId.stack j) = s.unitRaw (UId.stack j) := by
      refine congrArg (bits 3 0) (hrd _ ?_)
      simp only [unitOff, UId.stack]
      omega
    have hstack : u.stackOff a n = s.stackOff a n := by simp only [State.stackOff, hup, hunit]
    have hkept : u.host = s.host ∧ u.voided = s.voided := by simp [hu, State.addF]
    obtain ⟨htier, hpages, hvoided, ⟨-, hoff⟩ | ⟨hddr, -⟩⟩ := h
    · rw [← hu]
      exact ⟨State.tierOf_hbm htier _, hkept.1 ▸ hpages, hkept.2.trans hvoided, .inl ⟨rfl, hstack.trans hoff⟩⟩
    · cases hddr
  next => exact h

/-- The state in which an access of HBM goes on that its stack's own ECC has not corrected. -/
def State.dieCounted (s : State) (a : Nat) : State := s.quiet.addStackF (hbmStack a) Reg.stackDie 0

theorem State.dieCounted_serves (h : s.outerServes .hbm a n) : (s.dieCounted a).outerServes .hbm a n :=
  State.addStackDie_serves (s := s.quiet) _ _ h

theorem State.dieCounted_kept (s : State) (a : Nat) :
    (s.dieCounted a).mem = s.mem ∧ (s.dieCounted a).out = [] ∧ (s.dieCounted a).pending = s.pending := by
  rw [State.dieCounted, State.addStackF_eq (hbmStack_lt a)]
  simp [State.addF]

/-- The operands of an access of HBM that its command takes: a sender and a part of one row. -/
structure HbmAccessOk (who : Sender) (a n : Nat) : Prop where
  who : senderOk who = true
  lo : hbmBase ≤ a
  hi : a + n ≤ hbmEnd
  pos : 0 < n
  row : a % 2048 + n ≤ 2048

theorem hbmAccessOk_of_wf (h : (Instr.hbmAccess who a n true bs [] 0).wf = true) : HbmAccessOk who a n ∧ bs.length = n := by
  obtain ⟨⟨⟨⟨hwho, hlo⟩, hhi⟩, hpos, hrow⟩, hlen⟩ : (((who.wf = true ∧ hbmBase ≤ a) ∧ a + n ≤ hbmEnd)
      ∧ 0 < n ∧ a % 2048 + n ≤ 2048) ∧ bs.length = n := by simpa [Instr.wf, withinUnit, hbmBase, hbmEnd] using h
  exact ⟨⟨hwho, hlo, hhi, hpos, hrow⟩, hlen⟩

theorem exec_hbmAccess_read (hok : HbmAccessOk who a n) (h : s.outerServes .hbm a n) :
    exec (.hbmAccess who a n false [] [] 0) s = .next ((s.dieCounted a).emit (.access 0 ((s.dieCounted a).bytes a n))) := by
  obtain ⟨hwho, hlo, hhi, hpos, hrow⟩ := hok
  change execHbmAccess who a n false [] [] 0 s = _
  refine run_to (by simp [hwho, hlo, hhi, hpos, hrow]) ?_
    ((State.emit_pending ..).trans (s.dieCounted_kept a).2.2)
  rw [if_neg Bool.false_ne_true, ← State.dieCounted, State.accessRead_outer _ (State.dieCounted_serves h)]
  exact State.answer_zero ..

theorem exec_hbmAccess_write (hok : HbmAccessOk who a n) (hn : bs.length = n) (h : s.outerServes .hbm a n) :
    exec (.hbmAccess who a n true bs [] 0) s = .next (((s.dieCounted a).storeBytes a bs).emit (.access 0 [])) := by
  obtain ⟨hwho, hlo, hhi, hpos, hrow⟩ := hok
  change execHbmAccess who a n true bs [] 0 s = _
  refine run_to (by simp [hwho, hlo, hhi, hpos, hrow, hn]) ?_
    ((State.emit_pending ..).trans ((storeBytes_touch ..).pending.trans (s.dieCounted_kept a).2.2))
  rw [if_pos rfl, ← State.dieCounted, State.accessWrite_outer _ (State.dieCounted_serves (hn ▸ h))]
  exact State.answer_zero ..

/-! ### DDR_ACCESS -/

/-- The operands of an access of DDR that its command takes: a sender and a part of one line. -/
structure DdrAccessOk (who : Sender) (a n : Nat) : Prop where
  who : senderOk who = true
  lo : ddrBase ≤ a
  hi : a + n ≤ ddrBase + 2 ^ 41
  pos : 0 < n
  line : a % 64 + n ≤ 64

theorem ddrAccessOk_of_wf (h : (Instr.ddrAccess who a n true bs []).wf = true) : DdrAccessOk who a n ∧ bs.length = n := by
  obtain ⟨⟨⟨⟨hwho, hlo⟩, hhi⟩, hpos, hline⟩, hlen⟩ : (((who.wf = true ∧ ddrBase ≤ a) ∧ a + n ≤ ddrBase + 2 ^ 41)
      ∧ 0 < n ∧ a % 64 + n ≤ 64) ∧ bs.length = n := by simpa [Instr.wf, withinUnit, ddrBase] using h
  exact ⟨⟨hwho, hlo, hhi, hpos, hline⟩, hlen⟩

theorem exec_ddrAccess_read (hok : DdrAccessOk who a n) (h : s.outerServes .ddr a n) :
    exec (.ddrAccess who a n false [] []) s = .next (s.quiet.emit (.access 0 (s.bytes a n))) := by
  obtain ⟨hwho, hlo, hhi, hpos, hline⟩ := hok
  change execDdrAccess who a n false [] [] s = _
  refine run_to (by simpa [hwho, hlo, hpos, hline] using hhi) ?_ rfl
  rw [if_neg Bool.false_ne_true, State.accessRead_outer (s := s.quiet) _ h]
  exact State.answer_zero ..

theorem exec_ddrAccess_write (hok : DdrAccessOk who a n) (hn : bs.length = n) (h : s.outerServes .ddr a n) :
    exec (.ddrAccess who a n true bs []) s = .next ((s.quiet.storeBytes a bs).emit (.access 0 [])) := by
  obtain ⟨hwho, hlo, hhi, hpos, hline⟩ := hok
  change execDdrAccess who a n true bs [] s = _
  refine run_to (by simpa [hwho, hlo, hpos, hline, hn] using hhi) ?_ (storeBytes_touch ..).pending
  rw [if_pos rfl, State.accessWrite_outer (s := s.quiet) _ (hn ▸ h)]
  exact State.answer_zero ..

end

/-- Settles O11: a served access opens its range and meets no error, so a read gives the bytes and a write is one store. -/
theorem outerMemoryIsReadAndWritten : Obligations.OuterMemoryIsReadAndWritten := by
  intro s who a n bs stored
  refine ⟨fun hwf hserves => ?_, fun hwf hserves => ?_⟩
  · obtain ⟨hok, hlen⟩ := hbmAccessOk_of_wf hwf
    obtain ⟨hmem, hout, -⟩ := s.dieCounted_kept a
    have hbyte (b : Nat) : (s.dieCounted a).byte b = s.byte b := by rw [State.byte, hmem, State.byte]
    refine ⟨⟨_, exec_hbmAccess_read hok hserves, ?_, (State.emit_mem ..).trans hmem⟩, _, exec_hbmAccess_write hok hlen hserves, ?_, ?_⟩
    · rw [State.emit, hout, State.bytes_congr fun b _ _ => hbyte b]
      rfl
    · rw [State.emit, (storeBytes_touch ..).out rfl, hout]
      rfl
    · obtain ⟨hval, hkept⟩ := State.storeBytes_leaves (s := s.dieCounted a) hok.lo hlen
      simp only [stored, BytesKept, State.emit_byte]
      exact ⟨hval, fun b hb => (hkept b hb).trans (hbyte b)⟩
  · obtain ⟨hok, hlen⟩ := ddrAccessOk_of_wf hwf
    have hlo : hbmBase ≤ a := by
      have := hok.lo
      rw [ddrBase] at this
      rw [hbmBase]
      omega
    refine ⟨exec_ddrAccess_read hok hserves, _, exec_ddrAccess_write hok hlen hserves, ?_, ?_⟩
    · exact State.storeBytes_leaves (s := s.quiet) hlo hlen
    · rw [State.emit, State.storeBytes_frame (s := s.quiet) hlo hserves.2.2.1]
      rfl

end Sys2Proof.Machine

namespace Sys2Proof.Machine

open Sys2Proof

/-! ### A NOTICE that is taken (R368) -/

/-- From s to t a NOTICE has been taken and, if it is flooded, remembered and sent on. -/
structure Heard (s t : State) : Prop where
  touch : Touch 0x3004 s t
  fabric : t.fabric = { s.fabric with seen := t.fabric.seen }

section
variable {s t : State} (h : Heard s t)
include h

theorem Heard.rd (off : Nat) : t.rd off = s.rd off := h.touch.rd_of_lt (by decide) off

theorem Heard.fld (f : Fld) : t.fld f = s.fld f := congrArg _ (h.rd f.off)

theorem Heard.job (k : Nat) : t.job k = s.job k := job_of_touch h.touch rfl k

theorem Heard.fov : t.fov = s.fov := h.touch.fov rfl

theorem Heard.coord : t.coord = s.coord := h.fld _

theorem Heard.expected (q : Nat) : t.expected q = s.expected q := by
  have htorus (a : Nat) : t.torusE a = s.torusE a := congrArg (extentOf · a) (h.fld _)
  simp only [State.expected, h.coord, htorus]

theorem Heard.portsTo (c : Nat) : t.portsTo c = s.portsTo c := by
  simp only [State.portsTo, h.expected]

theorem Heard.queryOn (c : Nat) : t.queryOn c = s.queryOn c := by
  rw [State.queryOn, h.fabric, State.queryOn]

end

section
variable {s : State} {p kind : Nat} {b : List Byte}

theorem State.withNotice_noticed (h : s.noticed p kind b) (go : State → List Byte → State) :
    ∃ u, Heard s u ∧ s.withNotice p kind go = go u b := by
  obtain ⟨-, hver, m, hm, hnew⟩ := h
  have hconsume : Touch 0x3004 s (s.consume p m) := (consume_touch s p m).widen rfl
  rw [State.withNotice, hm]
  dsimp only
  rw [if_neg (not_not.2 hver)]
  cases hflood : bitAt 0 (fieldLE b 3 1) with
  | false => exact ⟨_, ⟨hconsume, rfl⟩, if_pos rfl⟩
  | true =>
    have hseen : (s.consume p m).fabric.seen.contains (fieldLE b 8 3, fieldLE b 4 2) = false := hnew hflood
    rw [if_neg (by decide), if_neg (by rw [hseen]; decide)]
    refine ⟨_, ⟨(Touch.set_fabric hconsume rfl).to (spread_touch ..) rfl, ?_⟩, rfl⟩
    rw [(spread_touch ..).fabric rfl]
    rfl

/-- A command that takes a NOTICE does with the body what it does, once the NOTICE is out of the way. -/
theorem run_noticed (h : s.noticed p kind b) (go : State → List Byte → State) :
    ∃ u, Heard s u ∧ ∀ t, go u b = t → t.pending = u.pending → run (portOk p) (fun s => s.withNotice p kind go) s = .next t := by
  obtain ⟨u, hu, hwith⟩ := State.withNotice_noticed (s := s.quiet) h go
  refine ⟨u, ⟨(Touch.set_out (Touch.refl 0x3004 s) rfl).to hu.touch rfl, hu.fabric⟩, fun t ht hpend => ?_⟩
  exact run_to (decide_eq_true h.1) (hwith.trans ht) (hpend.trans hu.touch.pending)

/-! ### SLOW and CLEAR (R315) -/

theorem portSlowIn_held : ∀ p < 6, (Reg.portSlowIn.plus (0x10000 * p)).held := by decide +kernel

theorem exec_noticeSlow (h : s.noticed p nkSlow b) :
    ∃ u, Heard s u ∧ exec (.noticeSlow p) s = .next (u.setPf p Reg.portSlowIn 1) :=
  (run_noticed h _).imp fun _ ⟨hu, hrun⟩ => ⟨hu, hrun _ rfl (setPf_touch _ p _ _ (by decide)).pending⟩

theorem exec_noticeClear (h : s.noticed p nkClear b) :
    ∃ u, Heard s u ∧ exec (.noticeClear p) s = .next (u.setPf p Reg.portSlowIn 0) :=
  (run_noticed h _).imp fun _ ⟨hu, hrun⟩ => ⟨hu, hrun _ rfl (setPf_touch _ p _ _ (by decide)).pending⟩

theorem exec_slowStretchExpiry (hp : p < 6) : exec (.slowStretchExpiry p) s = .next (s.quiet.setPf p Reg.portSlowIn 0) :=
  run_to (decide_eq_true hp) rfl (setPf_touch s.quiet p _ _ (by decide)).pending

theorem onlyRegs_setPf (f : Fld) (v : Nat) (hp : p < 6) : OnlyRegs (fun o => o = f.off + 0x10000 * p) s (s.quiet.setPf p f v) := by
  rw [State.setPf, if_pos hp, State.setF]
  exact ⟨by rw [State.wr_eq], fun off hoff => State.rd_wr_other s.quiet _ (Ne.symm hoff)⟩

/-! ### CANCEL (R369) -/

/-- The first slot for which something is found. -/
theorem findSome?_range_first {α : Type} {f : Nat → Option α} {n k : Nat} {x : α} (hk : k < n) (hx : f k = some x)
    (hfirst : ∀ i < k, f i = none) : (List.range n).findSome? f = some x := by
  obtain ⟨m, rfl⟩ : ∃ m, n = k + (m + 1) := ⟨n - k - 1, by omega⟩
  have hnone : (List.range k).findSome? f = none := List.findSome?_eq_none_iff.2 fun i hi => hfirst i (List.mem_range.1 hi)
  rw [List.range_add, List.findSome?_append, hnone, Option.none_or, List.range_succ_eq_map, List.map_cons,
    List.findSome?_cons_of_isSome (by simp [hx]), Nat.add_zero, hx]

/-- A CANCEL of an epoch names a job whose attempt of it is open, or has not opened here yet. -/
def State.cancels (s : State) (epoch k : Nat) (j : Job) : Prop :=
  j.epoch = epoch ∧ (j.isOpen = true ∨ j.lapsed = false ∧ s.jf k Reg.jobState = 3)

/-- The first job that a CANCEL names is abandoned for its cause. -/
theorem State.cancel_named {slot epoch cause : Nat} {j : Job} (hrec : s.fov.recovery = false) (hslot : slot < 4)
    (hj : s.job slot = some j) (hnamed : s.cancels epoch slot j) (hfirst : ∀ k < slot, ∀ i, s.job k = some i → ¬ s.cancels epoch k i)
    (hlo : 1 ≤ cause) (hhi : cause ≤ 6) : s.cancel epoch cause = s.cancelOpen slot cause j := by
  have hbool (k : Nat) (x : Job) :
      (x.epoch == epoch && (x.isOpen || (!x.lapsed && s.jf k Reg.jobState == 3))) = true ↔ s.cancels epoch k x := by
    simp [State.cancels]
  have hfind : (List.range 4).findSome? (fun k => (s.job k).bind fun x =>
      if x.epoch == epoch && (x.isOpen || (!x.lapsed && s.jf k Reg.jobState == 3)) then some (k, x) else none) = some (slot, j) := by
    refine findSome?_range_first hslot ?_ fun k hk => Option.bind_eq_none_iff.2 fun i hi => ?_
    · rw [hj, Option.bind_some, if_pos ((hbool slot j).2 hnamed)]
    · exact if_neg fun hb => hfirst k hk i hi ((hbool k i).1 hb)
  have hshield : cause ≤ Cause.shield := hhi.trans (by decide)
  rw [State.cancel, hfind, if_neg (by simp [hrec])]
  exact if_pos ⟨hlo, hshield⟩

/-- The attempt it names is closed, also one that had not opened. -/
theorem State.cancelOpen_shows {slot cause : Nat} {j : Job} (hslot : slot < 4) (hj : s.job slot = some j) (hcause : cause ≤ 6) :
    (s.cancelOpen slot cause j).jf slot Reg.jobAbandonCause = cause
      ∧ ((s.cancelOpen slot cause j).job slot).map (·.isOpen) = some false := by
  rw [State.cancelOpen]
  split
  next hopen => exact State.abandon_shows hslot hj hopen hcause
  next => exact State.abandon_shows hslot ((job_setJob ..).trans (if_pos rfl)) rfl hcause

theorem exec_noticeCancel (h : s.noticed p nkCancel b) :
    ∃ u, Heard s u ∧ exec (.noticeCancel p) s = .next (u.cancel (fieldLE b 16 4) (fieldLE b 6 2)) :=
  (run_noticed h _).imp fun _ ⟨hu, hrun⟩ => ⟨hu, hrun _ rfl (cancel_touch ..).pending⟩

/-! ### QUERY (R398) -/

/-- A QUERY about the device that port q faces waits for its answer. -/
def State.willReport (s : State) (c : Nat) : State :=
  { s with fabric := { s.fabric with toReport := s.fabric.toReport.filter (· != c) ++ [c] } }

theorem exec_noticeQuery {q : Nat} (h : s.noticed p nkQuery b) (hq : (s.portsTo (fieldLE b 12 3)).head? = some q)
    (hlive : s.pf q Reg.portNeighbour < 2) :
    ∃ u, Heard s u ∧ exec (.noticeQuery p) s = .next (u.willReport (fieldLE b 12 3)) := by
  refine (run_noticed h _).imp fun u ⟨hu, hrun⟩ => ⟨hu, hrun _ ?_ rfl⟩
  have hq' : (u.portsTo (fieldLE b 12 3)).head? = some q := (congrArg List.head? (hu.portsTo _)).trans hq
  have hlive' : ¬ 2 ≤ (u.willReport (fieldLE b 12 3)).pf q Reg.portNeighbour := by
    have hpf : (u.willReport (fieldLE b 12 3)).pf q Reg.portNeighbour = s.pf q Reg.portNeighbour := hu.fld _
    omega
  dsimp only
  rw [hq']
  exact if_neg hlive'

end

end Sys2Proof.Machine

namespace Sys2Proof.Machine

open Sys2Proof

/-! ### Registers that stay -/

/-- From s to t the registers that P names read the same. -/
def RegsKept (P : Nat → Prop) (s t : State) : Prop := ∀ off, P off → t.rd off = s.rd off

/-- The registers of the torus but for the counters of stale messages, which alone an abandoned attempt changes (R358). -/
def torusReg (off : Nat) : Prop := regArea off = 28 ∧ ∀ p < 6, off ≠ (Reg.stale.plus (0x10000 * p)).off

/-- The counters of the failures this device has declared and of the link faults it has found (Table 11.7). -/
def findingReg (off : Nat) : Prop := 0x160218 ≤ off ∧ off < 0x160228

section
variable {P Q : Nat → Prop} {s t u : State}

theorem RegsKept.refl (s : State) : RegsKept P s s := fun _ _ => rfl

theorem RegsKept.trans (h : RegsKept P s t) (k : RegsKept P t u) : RegsKept P s u := fun off ho => (k off ho).trans (h off ho)

theorem RegsKept.mono (h : RegsKept Q s t) (hPQ : ∀ off, P off → Q off) : RegsKept P s t := fun off ho => h off (hPQ off ho)

theorem RegsKept.ite {c : Prop} [Decidable c] (h : RegsKept P s t) (k : RegsKept P s u) : RegsKept P s (if c then t else u) := by
  split
  · exact h
  · exact k

theorem RegsKept.foldl {α : Type} {f : State → α → State} (hf : ∀ t a, RegsKept P t (f t a)) (l : List α) (s : State) :
    RegsKept P s (l.foldl f s) :=
  List.foldlRecOn (motive := RegsKept P s) l f (RegsKept.refl s) fun t ht a _ => ht.trans (hf t a)

theorem Touch.regsKept {M : Nat} (h : Touch M s t) (hM : M.testBit 28 = false) (hP : ∀ off, P off → regArea off = 28) :
    RegsKept P s t := fun off ho => h.regs off (by rwa [hP off ho])

theorem setF_regsKept (s : State) {f : Fld} (v : Nat) (hf : ¬ P f.off) : RegsKept P s (s.setF f v) :=
  fun _ ho => State.rd_setF_other s v fun e => hf (e ▸ ho)

theorem torusReg_area : ∀ off, torusReg off → regArea off = 28 := fun _ h => h.1

theorem findingReg_area : ∀ off, findingReg off → regArea off = 28 := by
  intro off ⟨hlo, hhi⟩
  exact regArea_eq (lo := 0x100000) (hi := 0x200000) (by omega) rfl (by decide)

theorem torusReg_of_finding : ∀ off, findingReg off → torusReg off := by
  refine fun off h => ⟨findingReg_area off h, fun p hp => ?_⟩
  obtain ⟨hlo, -⟩ := h
  simp only [Fld.plus, Reg.stale]
  omega

theorem torusReg_portNeighbour {q : Nat} (hq : q < 6) : torusReg (Reg.portNeighbour.plus (0x10000 * q)).off := by
  refine ⟨regArea_eq (lo := 0x100000) (hi := 0x200000) (by simp only [Fld.plus, Reg.portNeighbour]; omega) rfl (by decide),
    fun p _ => ?_⟩
  simp only [Fld.plus, Reg.portNeighbour, Reg.stale]
  omega

end

/-! ### An abandoned attempt and the torus (R256, R358) -/

section
variable (s : State)

theorem RegsKept.torus {M : Nat} {s t u : State} (h : RegsKept torusReg s t) (k : Touch M t u) (hM : M.testBit 28 = false) :
    RegsKept torusReg s u := h.trans (k.regsKept hM torusReg_area)

theorem RegsKept.setJf {s t : State} (h : RegsKept torusReg s t) (slot : Nat) (f : Fld) (v : Nat)
    (hf : 0x40100 ≤ f.off ∧ f.off < 0x40200) : RegsKept torusReg s (t.setJf slot f v) := h.torus (setJf_touch t slot f v hf) rfl

theorem addPf_stale_torus (p n : Nat) : RegsKept torusReg s (s.addPf p Reg.stale n) := by
  rw [State.addPf]
  split
  next hp => exact setF_regsKept s _ fun h => h.2 p hp rfl
  next => exact RegsKept.refl s

theorem dropApart_torus (bad : Nat → Bool) : RegsKept torusReg s (s.dropApart bad) := by
  refine RegsKept.foldl (fun t p => ?_) _ s
  extract_lets x gone out v
  have hv : RegsKept torusReg t v := fun _ _ => rfl
  refine RegsKept.ite (RegsKept.refl t) (RegsKept.trans (hv.torus (M := 4096) ?_ rfl) (addPf_stale_torus _ p _))
  refine Touch.foldl (Touch.refl ..) fun u m h => ?_
  exact Touch.ite ((h.to (freeSlots_touch ..) rfl).to (answerGet_touch ..) rfl) (h.to (freeSlots_touch ..) rfl)

theorem abandon_torus (slot cause : Nat) (roll : Bool) : RegsKept torusReg s (s.abandon slot cause roll) := by
  unfold State.abandon
  split
  · exact RegsKept.refl s
  rename_i j hj
  refine RegsKept.ite (RegsKept.refl s) ?_
  extract_lets s1 mine s2 held s3 step attempt s4 s5 s6 s7 s8 s9 s10 s11 s12 s13 s14 s15 s16 s17
  have h3 : RegsKept torusReg s s3 :=
    (((RegsKept.refl s).setJf _ _ _ (by decide)).torus (abandonCues_touch s1 mine) rfl).trans
      (RegsKept.foldl (fun u h => (putRecord_touch u h.1 h.2).regsKept rfl torusReg_area) held s2)
  have h6 : RegsKept torusReg s s6 :=
    (((h3.setJf _ _ _ (by decide)).setJf _ _ _ (by decide)).torus (record_touch ..) rfl).torus (flood_touch ..) rfl
  have h9 : RegsKept torusReg s s9 :=
    ((h6.trans (dropApart_torus s6 _)).torus (watchClose_touch s7 j) rfl).torus (modJob_touch s8 slot _) rfl
  have h11 : RegsKept torusReg s s11 :=
    ((h9.setJf _ _ _ (by decide)).torus (setF_touch_in (k := 24) _ Reg.numStorm 0 rfl) rfl).torus (stepBoundary_touch s10) rfl
  have h15 : RegsKept torusReg s s15 := by
    have h13 : RegsKept torusReg s s13 := (h11.torus (skipLog_touch s11 slot cause) rfl).torus (modJob_touch s12 slot _) rfl
    have h14 : RegsKept torusReg s s14 := h11.torus (modJob_touch s11 slot _) rfl
    refine RegsKept.ite ?_ (RegsKept.ite ?_ (RegsKept.ite (h11.torus (rollback_touch s11 slot) rfl)
      (h11.setJf _ _ _ (by decide))))
    · exact ((h13.setJf _ _ _ (by decide)).setJf _ _ _ (by decide)).torus (showCursor_touch ..) rfl
    · exact (h14.setJf _ _ _ (by decide)).setJf _ _ _ (by decide)
  have h16 : RegsKept torusReg s s16 := h15.torus (putRecord_touch ..) rfl
  have h17 : RegsKept torusReg s s17 :=
    RegsKept.ite ((h16.setJf _ _ _ (by decide)).torus (modJob_touch _ slot _) rfl) h16
  split
  · exact ((h17.torus (inc_touch_in (k := 27) s17 Reg.rehearsalFails rfl) rfl).torus (event_touch ..) rfl).torus
      (exportFallback_touch ..) rfl
  · exact h17

theorem abandonAll_torus (cause : Nat) (roll : Bool) : RegsKept torusReg s (s.abandonAll cause roll) :=
  RegsKept.foldl (fun t j => abandon_torus t j cause roll) _ s

end

/-! ### A port that changes its state, and its counters of findings -/

section
variable (s : State)

theorem RegsKept.finding {M : Nat} {s t u : State} (h : RegsKept findingReg s t) (k : Touch M t u) (hM : M.testBit 28 = false) :
    RegsKept findingReg s u := h.trans (k.regsKept hM findingReg_area)

/-- The registers of a port's window are none of these counters. -/
theorem setPf_finding (p : Nat) {f : Fld} (v : Nat) (hf : f.off < 0x110000) : RegsKept findingReg s (s.setPf p f v) := by
  rw [State.setPf]
  split
  next hp =>
    refine setF_regsKept s v fun h => ?_
    obtain ⟨hlo, -⟩ := h
    simp only [Fld.plus] at hlo
    omega
  next => exact RegsKept.refl s

theorem addPf_finding (p : Nat) {f : Fld} (n : Nat) (hf : f.off < 0x110000) : RegsKept findingReg s (s.addPf p f n) := by
  have h := setPf_finding s p (f := f) (satAdd (f.hi + 1 - f.lo) (s.fld (f.plus (0x10000 * p))) n) hf
  rw [State.setPf] at h
  exact h

theorem castRefresh_finding : RegsKept findingReg s s.castRefresh := by
  unfold State.castRefresh
  extract_lets st ins gone broken src w
  have hw : RegsKept findingReg s w := fun _ _ => rfl
  have hset (v : Nat) : RegsKept findingReg w (w.setF Reg.castState v) := setF_regsKept w v fun h => absurd h.1 (by decide)
  exact hw.trans (RegsKept.ite (RegsKept.refl w) (RegsKept.ite (hset 3) (RegsKept.ite (hset 2) (RegsKept.refl w))))

theorem startConfirm_finding (p : Nat) : RegsKept findingReg s (s.startConfirm p) :=
  fun off ho => State.rd_startConfirm s p fun e => absurd (e ▸ ho : findingReg Reg.queriesSent.off).1 (by decide)

theorem portEnter_finding (p st : Nat) : RegsKept findingReg s (s.portEnter p st) := by
  unfold State.portEnter
  extract_lets old nb s1 s2 s3 s4 w s5 s6
  have hset (t : State) (f : Fld) (v : Nat) (hf : f.off < 0x110000) : RegsKept findingReg t (t.setPf p f v) := setPf_finding t p v hf
  have h2 : RegsKept findingReg s1 s2 := RegsKept.ite (hset s1 _ _ (by decide)) (RegsKept.refl s1)
  have halive : RegsKept findingReg s2 (s2.setPf p Reg.portNeighbour 1) := hset s2 _ _ (by decide)
  have h3 : RegsKept findingReg s2 s3 :=
    RegsKept.ite (RegsKept.ite halive (RegsKept.ite (halive.finding (modPort_touch ..) rfl) (RegsKept.refl s2)))
      (RegsKept.ite (RegsKept.ite (RegsKept.refl s2) (hset s2 _ _ (by decide))) (RegsKept.refl s2))
  have h4 : RegsKept findingReg s3 s4 :=
    RegsKept.ite (((RegsKept.refl s3).finding (dropLink_touch s3 p) rfl).trans (hset _ _ _ (by decide))) (RegsKept.refl s3)
  have hunit (st cause source : Nat) : RegsKept findingReg s4 (s4.putUnit (UId.port p) st cause source) :=
    (RegsKept.refl s4).finding (putUnit_touch ..) rfl
  have h5 : RegsKept findingReg s4 s5 := RegsKept.ite (hunit _ _ _) (RegsKept.ite (hunit _ _ _) (RegsKept.refl s4))
  have h6 : RegsKept findingReg s5 s6 := RegsKept.ite (startConfirm_finding s5 p) (RegsKept.refl s5)
  exact (((((hset s _ _ (by decide)).trans h2).trans h3).trans h4).trans (h5.trans h6)).trans
    ((hset s6 _ _ (by decide)).trans (castRefresh_finding _))

theorem portStop_finding (p st cause : Nat) : RegsKept findingReg s (s.portStop p st cause) := by
  unfold State.portStop
  extract_lets down
  refine (RegsKept.ite (RegsKept.foldl (fun t _ => ?_) _ s) (RegsKept.refl s)).trans (portEnter_finding _ p st)
  exact (RegsKept.refl t).finding (sendFlit_touch ..) rfl

theorem transmit_finding (p : Nat) : RegsKept findingReg s (s.transmit p) := by
  unfold State.transmit
  extract_lets x again s2
  have hsend (t : State) (kind seq low : Nat) (payload : List Byte) : RegsKept findingReg t (t.sendFlit p kind seq low payload) :=
    (RegsKept.refl t).finding (sendFlit_touch ..) rfl
  have h2 : RegsKept findingReg s s2 := fun _ _ => rfl
  clear_value s2 again
  refine RegsKept.ite (RegsKept.refl s) (RegsKept.ite (hsend _ _ _ _ _) ?_)
  split
  · extract_lets v
    have hv : RegsKept findingReg s v := fun _ _ => rfl
    exact (hv.trans (addPf_finding v p 1 (by decide))).trans (hsend _ _ _ _ _)
  · split
    · split
      · extract_lets low v w
        have hv : RegsKept findingReg s2 v := by
          unfold v
          split
          · exact (RegsKept.refl s2).finding (freeSlots_touch ..) rfl
          · exact RegsKept.refl s2
        exact (((h2.trans hv).finding (modPort_touch ..) rfl).trans (addPf_finding w p 1 (by decide))).trans (hsend _ _ _ _ _)
      · exact h2
    · exact h2.trans (hsend _ _ _ _ _)

theorem restartTraining_finding (p st : Nat) : RegsKept findingReg s (s.restartTraining p st) := by
  unfold State.restartTraining
  extract_lets s1 s2
  have h1 : RegsKept findingReg s s1 :=
    RegsKept.ite (RegsKept.refl s) ((setPf_finding s p _ (by decide)).trans (setPf_finding _ p _ (by decide)))
  exact ((h1.finding (modPort_touch ..) rfl).trans (portEnter_finding s2 p st)).finding (sendTraining_touch ..) rfl

theorem fullTrain_finding (p : Nat) : RegsKept findingReg s (s.fullTrain p) :=
  RegsKept.ite (restartTraining_finding s p _) (RegsKept.refl s)

/-- A device that declares itself failed leaves what it has found. -/
theorem declareFailed_finding (code unit : Nat) : RegsKept findingReg s (s.declareFailed code unit) := by
  unfold State.declareFailed
  refine RegsKept.ite (RegsKept.refl s) ?_
  extract_lets s1 fov s2 s3 s4 s5
  have h2 : RegsKept findingReg s s2 := (abandonAll_torus s _ _).mono torusReg_of_finding
  have h5 : RegsKept findingReg s s5 := (((h2.finding (flood_touch ..) rfl).finding (event_touch ..) rfl).finding
    (setF_touch_in (k := 27) s4 Reg.fovState _ rfl) rfl).finding (setFault_touch ..) rfl
  refine h5.trans (RegsKept.foldl (fun t p => RegsKept.ite (RegsKept.refl t) ?_) _ s5)
  have hflush : RegsKept findingReg t (t.flushNotices p) := RegsKept.foldl (fun u _ => transmit_finding u p) _ t
  exact hflush.trans (portStop_finding _ p _ _)

end

end Sys2Proof.Machine

namespace Sys2Proof.Machine

open Sys2Proof

/-! ### Neighbours that have failed (Table 10.16) -/

section
variable {s : State} {p q : Nat}

theorem State.pf_castRefresh (s : State) {q : Nat} (hq : q < 6) : s.castRefresh.pf q Reg.portNeighbour = s.pf q Reg.portNeighbour := by
  have happart : Reg.castState.off ≠ (Reg.portNeighbour.plus (0x10000 * q)).off := by
    simp only [Fld.plus, Reg.castState, Reg.portNeighbour]
    omega
  unfold State.castRefresh
  extract_lets st ins gone broken src w
  have hset (v : Nat) : (w.setF Reg.castState v).pf q Reg.portNeighbour = s.pf q Reg.portNeighbour :=
    (State.fld_setF_other w v happart).trans rfl
  simp only [apply_ite (fun t : State => t.pf q Reg.portNeighbour), hset]
  simp only [show w.pf q Reg.portNeighbour = s.pf q Reg.portNeighbour from rfl, ite_self]

/-- The neighbour of a port becomes FAILED; that of another port stays as it is. -/
theorem State.pf_neighbourFailed (hp : p < 6) (hq : q < 6) :
    (s.neighbourFailed p).pf q Reg.portNeighbour = if p = q then 3 else s.pf q Reg.portNeighbour := by
  rw [State.neighbourFailed]
  split
  next h =>
    split
    next hpq => rw [← hpq, h]
    next => rfl
  next =>
    extract_lets hash
    have hport (t : State) (f : Port → Port) : (t.modPort p f).pf q Reg.portNeighbour = t.pf q Reg.portNeighbour := rfl
    rw [State.pf_castRefresh _ hq, hport]
    split
    next hpq => rw [← hpq, State.pf_setPf 3 hp (portFields_held p hp).2.2]; rfl
    next hpq =>
      rw [State.setPf, if_pos hp]
      refine State.fld_setF_other s 3 ?_
      simp only [Fld.plus, Reg.portNeighbour]
      omega

theorem neighbourFailed_finding (s : State) (p : Nat) : RegsKept findingReg s (s.neighbourFailed p) := by
  rw [State.neighbourFailed]
  refine RegsKept.ite (RegsKept.refl s) ?_
  have hset : RegsKept findingReg s (s.setPf p Reg.portNeighbour 3) := setPf_finding s p 3 (by decide)
  exact (hset.finding (modPort_touch ..) rfl).trans (castRefresh_finding _)

/-- The neighbours of the ports of a list become FAILED. -/
def State.neighboursFailed (s : State) (ports : List Nat) : State := ports.foldl (fun s p => s.neighbourFailed p) s

theorem State.pf_neighboursFailed {ports : List Nat} (hports : ∀ p ∈ ports, p < 6) (hq : q < 6)
    (h : q ∈ ports ∨ s.pf q Reg.portNeighbour = 3) : (s.neighboursFailed ports).pf q Reg.portNeighbour = 3 := by
  induction ports generalizing s with
  | nil => exact h.resolve_left List.not_mem_nil
  | cons p ports ih =>
    have hpf := State.pf_neighbourFailed (s := s) (hports p (List.mem_cons_self ..)) hq
    refine ih (s := s.neighbourFailed p) (fun r hr => hports r (List.mem_cons_of_mem _ hr)) ?_
    by_cases hpq : p = q
    · exact .inr (hpf.trans (if_pos hpq))
    · rw [hpf, if_neg hpq]
      exact h.imp_left fun hmem => (List.mem_cons.1 hmem).resolve_left (Ne.symm hpq)

theorem neighboursFailed_finding (s : State) (ports : List Nat) : RegsKept findingReg s (s.neighboursFailed ports) :=
  RegsKept.foldl neighbourFailed_finding ports s

end

/-! ### A device that has failed (R445, Table 10.18) -/

section
variable (s : State)

theorem State.portsTo_lt (c : Nat) : ∀ p ∈ s.portsTo c, p < 6 := fun _ hp => List.mem_range.1 (List.mem_filter.1 hp).1

/-- A member's failure changes the status of the neighbours and then, of the torus's registers, only counters of stale messages. -/
theorem memberFailed_torus (f code : Nat) :
    ∃ ports : List Nat, (∀ p ∈ ports, p < 6) ∧ RegsKept torusReg (s.neighboursFailed ports) (s.memberFailed f code) := by
  unfold State.memberFailed
  split
  · exact ⟨[], fun _ hp => absurd hp List.not_mem_nil, RegsKept.refl s⟩
  extract_lets ports s1 unit hash s2 s3 others bad fov s4 s5 filling wasOpen s6 s7 fov'
  refine ⟨ports, s.portsTo_lt f, ?_⟩
  change RegsKept torusReg s1 _
  have h2 : RegsKept torusReg s1 s2 := ((RegsKept.refl s1).torus (setF_touch_in (k := 27) s1 Reg.lastFailedCoord f rfl) rfl).torus
    (setF_touch_in (k := 27) _ Reg.lastFailedEvent code rfl) rfl
  have h3 : RegsKept torusReg s1 s3 := (h2.torus (event_touch ..) rfl).torus (inc_touch_in (k := 27) _ Reg.deviceFailures rfl) rfl
  have h4 : RegsKept torusReg s1 s4 := h3.trans fun _ _ => rfl
  have h5 : RegsKept torusReg s1 s5 := h4.trans (abandonAll_torus s4 _ _)
  have h6 : RegsKept torusReg s1 s6 := h4.trans (abandonAll_torus s4 _ _)
  have h7 : RegsKept torusReg s1 s7 := by
    refine RegsKept.ite h6 ?_
    split
    · exact h6.torus (rollback_touch ..) rfl
    · exact h6
  refine RegsKept.ite ?_ (RegsKept.ite ?_ ?_)
  · exact h5.trans (RegsKept.foldl (fun t j => RegsKept.ite ((RegsKept.refl t).setJf _ _ _ (by decide))
      (RegsKept.refl t)) _ s5)
  · exact (h4.trans (abandonAll_torus s4 _ _)).torus (exportFallback_touch ..) rfl
  · exact h7.torus ((Touch.set_fov (Touch.refl (2 ^ 16 ||| 2 ^ 27) s7) rfl).to (setF_touch_in (k := 27) _ Reg.fovState 1 rfl) rfl) rfl

/-- The same of a device's failure: the ports that face it are among those whose neighbours become FAILED. -/
theorem deviceFailed_torus (c code : Nat) : ∃ ports : List Nat, (∀ p ∈ ports, p < 6) ∧ (∀ p ∈ s.portsTo c, p ∈ ports)
    ∧ RegsKept torusReg ((s.dropQueries c).neighboursFailed ports) (s.deviceFailed c code) := by
  unfold State.deviceFailed
  extract_lets s1
  obtain ⟨ports, hports, hkept⟩ := memberFailed_torus s1 c code
  split
  · refine ⟨s.portsTo c ++ ports, ?_, fun p hp => List.mem_append_left _ hp, ?_⟩
    · exact fun p hp => (List.mem_append.1 hp).elim (s.portsTo_lt c p) (hports p)
    · rw [State.neighboursFailed, List.foldl_append]
      exact hkept
  · exact ⟨s.portsTo c, s.portsTo_lt c, fun _ hp => hp, RegsKept.refl s1⟩

/-- The ports that face a failed device show it. -/
theorem State.pf_deviceFailed (c code : Nat) {q : Nat} (hq : q < 6) (hc : s.expected q = some c) :
    (s.deviceFailed c code).pf q Reg.portNeighbour = 3 := by
  obtain ⟨ports, hports, hmem, hkept⟩ := deviceFailed_torus s c code
  have hto : q ∈ s.portsTo c := List.mem_filter.2 ⟨List.mem_range.2 hq, by rw [hc]; exact beq_self_eq_true _⟩
  refine Eq.trans ?_ (State.pf_neighboursFailed (s := s.dropQueries c) hports hq (.inl (hmem q hto)))
  exact congrArg (bits Reg.portNeighbour.hi Reg.portNeighbour.lo) (hkept _ (torusReg_portNeighbour hq))

theorem deviceFailed_finding (c code : Nat) : RegsKept findingReg s (s.deviceFailed c code) := by
  obtain ⟨ports, -, -, hkept⟩ := deviceFailed_torus s c code
  have hdrop : RegsKept findingReg s (s.dropQueries c) := fun _ _ => rfl
  exact (hdrop.trans (neighboursFailed_finding _ ports)).trans (hkept.mono torusReg_of_finding)

/-- The failure of the device that port p faces is flooded, counted and recorded. -/
def State.declared (s : State) (p c : Nat) : State :=
  ((s.flood nkFailed Ev.neighbourFailed c 0 0).inc Reg.failedDeclared).event Ev.neighbourFailed (UId.port p) [c]

theorem State.declareNeighbour_eq (p c : Nat) : s.declareNeighbour p c
    = if c = (s.declared p c).coord then (s.declared p c).declareFailed 0x7106 UId.stageManager
      else (s.declared p c).deviceFailed c Ev.neighbourFailed := rfl

theorem State.counted_declared (p c : Nat) : s.counted (s.declared p c) Reg.failedDeclared 1 := by
  have hflood : (s.flood nkFailed Ev.neighbourFailed c 0 0).fld Reg.failedDeclared = s.fld Reg.failedDeclared :=
    (flood_touch ..).fld _ rfl
  have hinc := State.fld_addF (s.flood nkFailed Ev.neighbourFailed c 0 0) (f := Reg.failedDeclared) 1 (by decide +kernel)
  rw [hflood] at hinc
  rw [State.counted, State.declared, (event_touch ..).fld _ rfl]
  exact hinc

/-- A device that this one declares failed counts once (R399). -/
theorem State.counted_declareNeighbour (p c : Nat) : s.counted (s.declareNeighbour p c) Reg.failedDeclared 1 := by
  have hkept : RegsKept findingReg (s.declared p c) (s.declareNeighbour p c) := by
    rw [State.declareNeighbour_eq]
    exact RegsKept.ite (declareFailed_finding _ _ _) (deviceFailed_finding _ _ _)
  have hoff : findingReg Reg.failedDeclared.off := ⟨by decide, by decide⟩
  rw [State.counted, State.fld, hkept _ hoff]
  exact s.counted_declared p c

end

end Sys2Proof.Machine

namespace Sys2Proof.Machine

open Sys2Proof

/-! ### A link fault (R399) -/

section
variable {s : State}

theorem State.setPf_fabric (s : State) (p : Nat) (f : Fld) (v : Nat) : (s.setPf p f v).fabric = s.fabric := by
  unfold State.setPf
  split
  · exact State.setF_fabric ..
  · rfl

theorem State.faulted_castRefresh (s : State) : s.castRefresh.fabric.faulted = s.fabric.faulted := by
  unfold State.castRefresh
  extract_lets st ins gone broken src w
  simp only [apply_ite (fun t : State => t.fabric.faulted), State.setF_fabric, ite_self]
  rfl

theorem State.faulted_startConfirm (s : State) (p : Nat) : (s.startConfirm p).fabric.faulted = s.fabric.faulted := by
  unfold State.startConfirm
  split
  · next c _ =>
    change ((s.flood nkQuery 0 c 0 0).inc Reg.queriesSent).fabric.faulted = _
    rw [State.inc_fabric, State.flood, (spread_touch ..).fabric rfl]
  · rfl

/-- No port's change of state names a link as faulted. -/
theorem State.faulted_portEnter (s : State) (p st : Nat) : (s.portEnter p st).fabric.faulted = s.fabric.faulted := by
  unfold State.portEnter
  extract_lets old nb s1 s2 s3 s4 u s5 s6
  have h2 : s2.fabric = s.fabric := by
    simp only [s2, s1, apply_ite State.fabric, State.setPf_fabric, ite_self]
  have h3 : s3.fabric = s2.fabric := by
    simp only [s3, apply_ite State.fabric, State.setPf_fabric, (modPort_touch ..).fabric rfl, ite_self]
  have h4 : s4.fabric = s3.fabric := by
    simp only [s4, apply_ite State.fabric, State.setPf_fabric, (dropLink_touch ..).fabric rfl, ite_self]
  have h5 : s5.fabric = s4.fabric := by
    simp only [s5, apply_ite State.fabric, (putUnit_touch ..).fabric rfl, ite_self]
  have h6 : s6.fabric.faulted = s5.fabric.faulted := by
    simp only [s6, apply_ite (fun t : State => t.fabric.faulted), State.faulted_startConfirm, ite_self]
  rw [State.faulted_castRefresh, (markPort_touch ..).fabric rfl, h6, h5, h4, h3, h2]

theorem State.faulted_fullTrain (s : State) (p : Nat) : (s.fullTrain p).fabric.faulted = s.fabric.faulted := by
  rw [State.fullTrain]
  split
  · unfold State.restartTraining
    extract_lets s1 s2
    have h1 : s1.fabric = s.fabric := by
      simp only [s1, apply_ite State.fabric, State.setPf_fabric, ite_self]
    rw [(sendTraining_touch ..).fabric rfl, State.faulted_portEnter, (modPort_touch ..).fabric rfl, h1]
  · rfl

/-- A fault of the link of port p to device c is counted and recorded. -/
def State.faultNoted (s : State) (p c : Nat) : State := (s.inc Reg.linkFaults).event Ev.linkFault (UId.port p) [c]

theorem State.faultNoted_shows (s : State) (p c : Nat) : s.counted (s.faultNoted p c) Reg.linkFaults 1
    ∧ (s.faultNoted p c).fabric = s.fabric ∧ (s.faultNoted p c).pending = s.pending := by
  refine ⟨?_, ?_, ?_⟩
  · rw [State.counted, State.faultNoted, (event_touch ..).fld _ rfl]
    exact State.fld_addF s 1 (by decide +kernel)
  · rw [State.faultNoted, (event_touch ..).fabric rfl, State.inc_fabric]
  · rw [State.faultNoted, (event_touch ..).pending, State.inc_pending]

/-- A device that is alive makes its silence a fault of the link, whose port is to be UP again. -/
def State.linkFault (s : State) (q : Query) (c : Nat) : State :=
  let s := s.faultNoted q.port c
  { s with fabric := { s.fabric with
    queries := s.fabric.queries.map (fun (x : Query) => if x = q then { x with alive := true } else x)
    faulted := s.fabric.faulted ++ [q.port] } }

theorem State.linkFault_fullTrain_shows (s : State) (q : Query) (c : Nat) :
    let t := (s.linkFault q c).fullTrain q.port
    s.counted t Reg.linkFaults 1 ∧ t.fabric.faulted = s.fabric.faulted ++ [q.port] := by
  obtain ⟨hcount, hfabric, -⟩ := s.faultNoted_shows q.port c
  have hoff : findingReg Reg.linkFaults.off := ⟨by decide, by decide⟩
  refine ⟨?_, (State.faulted_fullTrain ..).trans (congrArg (fun x : Fabric => x.faulted ++ [q.port]) hfabric)⟩
  rw [State.counted, State.fld, fullTrain_finding _ _ _ hoff]
  exact hcount

/-! ### The commands -/

variable {p : Nat} {b : List Byte}

theorem exec_noticeSelfFailed (h : s.noticed p nkSelfFailed b) (hq : s.queryOn (fieldLE b 8 3) = none) :
    ∃ u, Heard s u ∧ exec (.noticeSelfFailed p) s = .next (u.deviceFailed (fieldLE b 8 3) (fieldLE b 6 2)) := by
  refine (run_noticed h _).imp fun u ⟨hu, hrun⟩ => ⟨hu, hrun _ ?_ (deviceFailed_touch ..).pending⟩
  dsimp only
  rw [hu.queryOn, hq]

theorem exec_noticeFailed (h : s.noticed p nkFailed b) :
    ∃ u, Heard s u ∧ exec (.noticeFailed p) s = .next (if fieldLE b 12 3 = s.coord then u.declareFailed 0x7106 UId.stageManager
      else u.deviceFailed (fieldLE b 12 3) (fieldLE b 6 2)) := by
  refine (run_noticed h _).imp fun u ⟨hu, hrun⟩ => ⟨hu, hrun _ ?_ ?_⟩
  · dsimp only
    rw [hu.coord]
  · split
    · exact (declareFailed_touch ..).pending
    · exact (deviceFailed_touch ..).pending

theorem exec_noticeReport_silent {q : Query} (h : s.noticed p nkReport b) (hq : s.queryOn (fieldLE b 12 3) = some q)
    (hv : fieldLE b 20 4 = 0xFFFFFFFF) :
    ∃ u, Heard s u ∧ exec (.noticeReport p) s = .next (u.declareNeighbour q.port (fieldLE b 12 3)) := by
  refine (run_noticed h _).imp fun u ⟨hu, hrun⟩ => ⟨hu, hrun _ ?_ (declareNeighbour_touch ..).pending⟩
  dsimp only
  rw [hu.queryOn, hq]
  exact if_pos hv

theorem exec_noticeReport_alive {q : Query} (h : s.noticed p nkReport b) (hq : s.queryOn (fieldLE b 12 3) = some q)
    (hv : fieldLE b 20 4 ≠ 0xFFFFFFFF) (hnew : q.alive = false) :
    ∃ u, Heard s u ∧ exec (.noticeReport p) s = .next ((u.linkFault q (fieldLE b 12 3)).fullTrain q.port) := by
  refine (run_noticed h _).imp fun u ⟨hu, hrun⟩ => ⟨hu, hrun _ ?_ ?_⟩
  · dsimp only
    rw [hu.queryOn, hq]
    dsimp only
    rw [if_neg hv, if_neg (by rw [hnew]; decide)]
    rfl
  · exact (fullTrain_touch ..).pending.trans (u.faultNoted_shows q.port _).2.2

theorem exec_confirmTimeout_silent {q : Query} (hp : p < 6) (hq : s.fabric.queries.find? (fun q => q.port == p) = some q)
    (hnew : q.alive = false) : exec (.confirmTimeout p) s = .next (s.quiet.declareNeighbour p q.subject) := by
  change execConfirmTimeout p s = _
  unfold execConfirmTimeout
  refine run_to (decide_eq_true hp) ?_ (declareNeighbour_touch ..).pending
  dsimp only
  rw [hq]
  dsimp only
  rw [hnew]
  rfl

theorem exec_confirmTimeout_up {q : Query} (hp : p < 6) (hq : s.fabric.queries.find? (fun q => q.port == p) = some q)
    (halive : q.alive = true) (hup : s.pst p = PS.up) :
    exec (.confirmTimeout p) s = .next (s.quiet.dropQueries q.subject) := by
  change execConfirmTimeout p s = _
  unfold execConfirmTimeout
  refine run_to (decide_eq_true hp) ?_ rfl
  dsimp only
  rw [hq]
  dsimp only
  rw [halive, if_neg (by decide)]
  exact if_pos hup

/-- A device that declares itself failed is dead, if it was not so before (R443). -/
theorem State.dead_declareFailed (s : State) {code : Nat} (unit : Nat) (hc : code ≠ 0x7107) :
    (s.declareFailed code unit).fov.dead = true := by
  cases hd : s.fov.dead with
  | false => exact (State.declareFailed_shows unit hd hc).1
  | true => rw [State.declareFailed, if_pos hd, hd]

end

/-- Settles O48: the NOTICE is out of the way before it acts, and a failure is shown by the ports that face it whatever follows. -/
theorem noticesAreActedOn : Obligations.NoticesAreActedOn := by
  intro s p b lost
  refine ⟨fun h => ?_, fun h => ?_, fun hp => ?_, ?_, fun h hq => ?_,
    fun h => ⟨fun hc => ?_, fun hc => ?_⟩, fun q h hq hlive => ?_, fun q h hq => ⟨fun hv => ?_, fun hv hnew => ?_⟩,
    fun q hp hq => ⟨fun hnew => ?_, fun halive hup => ?_⟩⟩
  · obtain ⟨u, -, hexec⟩ := exec_noticeSlow h
    exact ⟨_, hexec, State.pf_setPf 1 h.1 (portSlowIn_held p h.1)⟩
  · obtain ⟨u, -, hexec⟩ := exec_noticeClear h
    exact ⟨_, hexec, State.pf_setPf 0 h.1 (portSlowIn_held p h.1)⟩
  · refine ⟨_, exec_slowStretchExpiry hp, State.pf_setPf 0 hp (portSlowIn_held p hp), ?_, onlyRegs_setPf Reg.portSlowIn 0 hp⟩
    exact (setPf_touch s.quiet p _ _ (by decide)).out rfl
  · intro slot j h hrec _ hslot names hj hnamed hfirst hlo hhi
    obtain ⟨u, hu, hexec⟩ := exec_noticeCancel h
    have hcancels (k : Nat) (i : Job) : u.cancels (fieldLE b 16 4) k i ↔ names k i := by
      rw [State.cancels, State.jf, hu.fld]
      rfl
    have hjob : u.job slot = some j := (hu.job slot).trans hj
    rw [State.cancel_named (by rw [hu.fov]; exact hrec) hslot hjob ((hcancels slot j).2 hnamed)
      (fun k hk i hi hc => hfirst k hk i ((hu.job k).symm.trans hi) ((hcancels k i).1 hc)) hlo hhi] at hexec
    exact ⟨_, hexec, State.cancelOpen_shows hslot hjob hhi⟩
  · obtain ⟨u, hu, hexec⟩ := exec_noticeSelfFailed h hq
    exact ⟨_, hexec, fun q hq6 hc => State.pf_deviceFailed u _ _ hq6 ((hu.expected q).trans hc)⟩
  · obtain ⟨u, hu, hexec⟩ := exec_noticeFailed h
    rw [if_neg hc] at hexec
    exact ⟨_, hexec, fun q hq6 hc => State.pf_deviceFailed u _ _ hq6 ((hu.expected q).trans hc)⟩
  · obtain ⟨u, -, hexec⟩ := exec_noticeFailed h
    rw [if_pos hc] at hexec
    exact ⟨_, hexec, State.dead_declareFailed u _ (by decide)⟩
  · obtain ⟨u, hu, hexec⟩ := exec_noticeQuery h hq hlive
    refine ⟨_, hexec, ?_⟩
    rw [State.willReport, hu.fabric]
  · obtain ⟨u, hu, hexec⟩ := exec_noticeReport_silent h hq hv
    refine ⟨_, hexec, ?_⟩
    rw [State.counted, ← hu.fld]
    exact u.counted_declareNeighbour q.port _
  · obtain ⟨u, hu, hexec⟩ := exec_noticeReport_alive h hq hv hnew
    obtain ⟨hcount, hfaulted⟩ := u.linkFault_fullTrain_shows q (fieldLE b 12 3)
    refine ⟨_, hexec, ?_, ?_⟩
    · rw [State.counted, ← hu.fld]
      exact hcount
    · rw [hfaulted, hu.fabric]
  · exact ⟨_, exec_confirmTimeout_silent hp hq hnew, s.quiet.counted_declareNeighbour p _⟩
  · exact ⟨_, exec_confirmTimeout_up hp hq halive hup, rfl, rfl⟩

end Sys2Proof.Machine
